-- ==== Sys2Proof/Word.lean ====
section
/-!
DEFINITION. The word types of the Usvex (R29, R31, R54, R110) and their plainest arithmetic.
-/
namespace Sys2Proof

/-- A byte of memory, of a register or of a tile (R110). -/
abbrev Byte := BitVec 8

/-- A 64-bit scalar register, address or operand (R54). -/
abbrev Word := BitVec 64

/-- An instruction word (R32). -/
abbrev Code := BitVec 32

/-- A scalar register field, class g (R36). -/
abbrev GReg := BitVec 7

/-- A vector register field, class v (R36): whether it lies below VNREG is decided at issue. -/
abbrev VReg := BitVec 7

/-- A mask register field, class m (R36). -/
abbrev MReg := BitVec 4

/-- A tile field, class t (R36). -/
abbrev TReg := BitVec 3

/-- All ones, the clear value of BX and FX and the mark of several results (R60). -/
def Word.ones : Word := BitVec.allOnes 64

/-- The low 64 bits of a natural number. -/
def Word.ofNat (n : Nat) : Word := BitVec.ofNat 64 n

/-- `floor (a / b)` rounded up, for `b > 0`. -/
def ceilDiv (a b : Nat) : Nat := (a + b - 1) / b

/-- Bits `[hi:lo]` of a natural number (R29). -/
def bitsOf (x hi lo : Nat) : Nat := x / 2 ^ lo % 2 ^ (hi + 1 - lo)

end Sys2Proof
end

