-- ==== Sys2Proof/Config.lean ====
section
/-!
DEFINITION. What the configuration manifest fixes (R382, R420, R427, R428), and the free values: constants with no body, of
which nothing can be proved. A free value is applied to the counter `State.free` or to the operands it depends on.
-/
namespace Sys2Proof.Config

/-- Region 0xF of the physical map (R422). -/
def deviceRegion : Nat := 0xF000000000000
/-- Where the model keeps the frame table (R382); software finds it where the manifest's windows put it (R428). DESIGN CHOICE (log 2). -/
def frameTableBase : Nat := 0xF000000000000
/-- One byte for each 64 KiB frame of the 52-bit space. -/
def frameTableSize : Nat := 0x1000000000
/-- Where the model keeps the scan controller (R420), as the frame table. DESIGN CHOICE (log 2). -/
def scanBase : Nat := 0xF002000000000
/-- The scan controller's window, with the registers of R440 and R429 in it. DESIGN CHOICE (log 2). -/
def scanSize : Nat := 0x10000
/-- Where the model keeps the crown context's hart frames (R416), as the frame table. DESIGN CHOICE (log 2). -/
def crownFrames : Nat := 0xF003000000000
/-- 4,096 frames of 4 MiB (R414). -/
def crownFramesSize : Nat := 0x400000000
/-- Firmware entry, where the crown context starts (R427). DESIGN CHOICE (log 2). -/
def firmwareEntry : Nat := 0x10000
/-- Trap vector of the crown context. DESIGN CHOICE (log 2). -/
def crownTvec : Nat := 0x10100
/-- Root table of the crown context's stage (R386). DESIGN CHOICE (log 2). -/
def crownRoot : Nat := 0x100000
/-- Error ring word of the crown context (R431). DESIGN CHOICE (log 2). -/
def crownRing : Nat := 0x200004
/-- Virtual base of peer slot 0 at boot (R61). DESIGN CHOICE (log 3). -/
def bootSpbase : Nat := 0x70000000000000

/-- Compute cycles that pass in a step (R63, R453). -/
opaque freeCycles : Nat → Nat
/-- A choice the spec leaves to the device: which of two elements stays (R162), whether a cached line is old or new (R298). -/
opaque freeChoice : Nat → Nat
/-- Data bits the spec leaves open: under a poison mark (R243), in a register whose beats differ. -/
opaque freeWord : Nat → BitVec 64
end Sys2Proof.Config

namespace Sys2Proof

/-- The windows field of a manifest (R428): offsets in region 0xF of the frame table, the scan controller and the crown frames. -/
structure Windows where
  frameTable : Nat
  scan : Nat
  crownFrames : Nat
  deriving DecidableEq, Repr

/-- The configuration manifest (R428). -/
structure Manifest where
  /-- Enable masks by compute die: 15 clusters, 30 L2 slices. -/
  clusters : List Nat
  slices : List Nat
  /-- Enabled channels by HBM stack, 32 to a stack (PRESUMED, log 56). -/
  hbm : List Nat
  /-- Enabled lanes by Kolras Link port: 8, 4 or 0. -/
  lanes : List Nat
  /-- The second tier: LPDDR bytes, and each expander's bytes with its metadata bits per line. -/
  lpddr : Nat
  expanders : List (Nat × Nat)
  windows : Windows
  /-- Alarm levels of the voltage, clock and temperature sensors (R429). -/
  alarms : List Nat
  /-- Module power budget in watts. -/
  budget : Nat
  /-- The device's fabric identifier (R440). -/
  fabricId : Nat
  deriving DecidableEq, Repr

/-- The manifest of a nominal part (R2): 14 clusters and 28 slices a die, every channel and every lane. Which 14 and which 28 the spec
leaves to the manifest: clusters 0 to 13 and slices 0 to 27, DESIGN CHOICE (log 2), as are the second tier, the windows, the alarm levels,
the budget and the identifier. -/
def Manifest.nominal : Manifest :=
  { clusters := List.replicate 4 0x3FFF, slices := List.replicate 4 0xFFFFFFF, hbm := List.replicate 8 0xFFFFFFFF, lanes := List.replicate 16 8
    lpddr := 4096 * 10 ^ 9, expanders := [], windows := ⟨0, 0x2000000000, 0x3000000000⟩, alarms := [2, 2, 2], budget := 8000, fabricId := 0 }

/-- The one bits below bit `n` of a mask. -/
def onesBelow (x n : Nat) : Nat := ((List.range n).filter fun i => x.testBit i).length

/-- How a Kolras Link port trains (R439): at the slow rate, up or down, and the device at its other end. -/
structure Training where
  slow : Bool
  up : Bool
  peer : BitVec 16
  deriving DecidableEq, Repr

/-- How a host port trains (R423): the mode, 0 for a retrain that begins, and whether the partner completes PCIe AtomicOps. -/
structure HostTraining where
  mode : Nat
  atomicOps : Bool
  deriving DecidableEq, Repr

/-- Where the buffers of a lost member lie on its device, by physical address, with the formats of their pages (R449): what the device that
answers for it knows of it (log 45). -/
structure LostBuffers where
  send : Nat
  recv : Nat
  sendFmt : Nat
  recvFmt : Nat
  deriving DecidableEq, Repr

/-- What comes from another member with a chunk of a collective (R443): the form, N, VT byte, reduction and root of its own collective, and
its elements for the chunk in VT format, each with its poison; for each lost member that the device answers for, its elements for that
member's buffer; and of a lost member itself where its buffers lie (R449). -/
structure PeerChunk where
  form : Nat
  count : Nat
  vt : BitVec 7
  reduction : Nat
  root : Nat
  elems : List (BitVec 64 × Bool)
  others : List (List (BitVec 64 × Bool))
  lost : Option LostBuffers
  deriving DecidableEq, Repr

/-- What a host addresses (R432, R454): function 0 is the port's physical function, i + 1 its virtual function i. -/
structure HostTarget where
  function : Nat
  addr : Nat
  deriving DecidableEq, Repr

/-- The manifest in flash as the boot ROM finds it (R427, R428): whether its signatures verify, and what crown firmware has written there, if
anything, with its security version; and the security version of a firmware image that it has written (R426). -/
structure FlashManifest where
  ok : Bool
  written : Option Manifest
  version : BitVec 32
  firmware : Option (BitVec 32)
  deriving DecidableEq, Repr

/-- HBM4E bytes (R4, R422): 384 GB, with GB read as 10^9 bytes (DESIGN CHOICE, log 57), in proportion to the channels enabled (DESIGN
CHOICE, log 56). -/
def Manifest.hbmSize (m : Manifest) : Nat := 384 * 10 ^ 9 * (m.hbm.map fun x => onesBelow x 32).sum / 256

/-- Bytes of the expanders together (R422). -/
def Manifest.cxlSize (m : Manifest) : Nat := (m.expanders.map (·.1)).sum

/-- Whether an address lies in a window of region 0xF that begins at an offset (R428). -/
def inWindow (offset size pa : Nat) : Bool := Config.deviceRegion + offset ≤ pa && pa < Config.deviceRegion + offset + size

/-- Where the model keeps what a physical address names: a window of region 0xF stands where the manifest puts it (R428), and the rest of the
region holds nothing (R422). -/
def Manifest.place (m : Manifest) (pa : Nat) : Nat :=
  if pa / 2 ^ 48 ≠ 15 then pa
  else if inWindow m.windows.frameTable Config.frameTableSize pa then pa - Config.deviceRegion - m.windows.frameTable + Config.frameTableBase
  else if inWindow m.windows.scan Config.scanSize pa then pa - Config.deviceRegion - m.windows.scan + Config.scanBase
  else if inWindow m.windows.crownFrames Config.crownFramesSize pa then pa - Config.deviceRegion - m.windows.crownFrames + Config.crownFrames
  else pa - 2 ^ 48

/-- The physical address of what the model keeps at a place: `place` turned round. -/
def Manifest.address (m : Manifest) (a : Nat) : Nat :=
  if a / 2 ^ 48 ≠ 15 then a
  else if Config.frameTableBase ≤ a ∧ a < Config.frameTableBase + Config.frameTableSize then a - Config.frameTableBase + Config.deviceRegion + m.windows.frameTable
  else if Config.scanBase ≤ a ∧ a < Config.scanBase + Config.scanSize then a - Config.scanBase + Config.deviceRegion + m.windows.scan
  else if Config.crownFrames ≤ a ∧ a < Config.crownFrames + Config.crownFramesSize then a - Config.crownFrames + Config.deviceRegion + m.windows.crownFrames
  else a

/-- The alarm level of a sensor: voltage, clock, temperature, mesh tamper, which is always at level 3, and the others at 1 or more
(R429). -/
def Manifest.alarmLevel (m : Manifest) (sensor : BitVec 2) : Nat := if sensor = 3 then 3 else max 1 (m.alarms.getD sensor.toNat 1)

end Sys2Proof
end

