-- ==== Sys2Proof/Syntax.lean ====
section
/-!
DEFINITION. The syntax of the Usvex: one constructor for each row of spec/opcode_table.json. The first 313 are the
instructions of R37, each with the fields its encoding holds (`e` is the convoy-end bit of R33). The last 59 are the rows
without an encoding: what the hart, an engine or the outside world does between two members (95_what_each_step_holds.md).
-/
namespace Sys2Proof

/-- An instruction of R37, or an event of the opcode table that has no encoding. -/
inductive Instr where
  /-- ADD (R78). Writes the 64-bit wrapped sum of two scalar registers. -/
  | add (e : Bool) (d : GReg) (a : GReg) (b : GReg)
  /-- SUB (R78). Writes the 64-bit wrapped difference of two scalar registers. -/
  | sub (e : Bool) (d : GReg) (a : GReg) (b : GReg)
  /-- AND (R78). Writes the bitwise AND of two scalar registers. -/
  | and (e : Bool) (d : GReg) (a : GReg) (b : GReg)
  /-- OR (R78). Writes the bitwise OR of two scalar registers. -/
  | or (e : Bool) (d : GReg) (a : GReg) (b : GReg)
  /-- XOR (R78). Writes the bitwise XOR of two scalar registers. -/
  | xor (e : Bool) (d : GReg) (a : GReg) (b : GReg)
  /-- ANDN (R78). Writes a AND NOT b. -/
  | andn (e : Bool) (d : GReg) (a : GReg) (b : GReg)
  /-- ORN (R78). Writes a OR NOT b. -/
  | orn (e : Bool) (d : GReg) (a : GReg) (b : GReg)
  /-- SLL (R78). Shifts a left by b[5:0]. -/
  | sll (e : Bool) (d : GReg) (a : GReg) (b : GReg)
  /-- SRL (R78). Shifts a right logically by b[5:0]. -/
  | srl (e : Bool) (d : GReg) (a : GReg) (b : GReg)
  /-- SRA (R78). Shifts a right arithmetically by b[5:0]. -/
  | sra (e : Bool) (d : GReg) (a : GReg) (b : GReg)
  /-- ROL (R78). Rotates a left by b[5:0]. -/
  | rol (e : Bool) (d : GReg) (a : GReg) (b : GReg)
  /-- ROR (R78). Rotates a right by b[5:0]. -/
  | ror (e : Bool) (d : GReg) (a : GReg) (b : GReg)
  /-- SLT (R78). Writes 1 if a is signed-less than b, else 0. -/
  | slt (e : Bool) (d : GReg) (a : GReg) (b : GReg)
  /-- SLTN (R78). Writes 1 if a is unsigned-less than b, else 0. -/
  | sltn (e : Bool) (d : GReg) (a : GReg) (b : GReg)
  /-- MIN (R78). Writes the signed minimum of two registers. -/
  | min (e : Bool) (d : GReg) (a : GReg) (b : GReg)
  /-- MAX (R78). Writes the signed maximum of two registers. -/
  | max (e : Bool) (d : GReg) (a : GReg) (b : GReg)
  /-- MINN (R78). Writes the unsigned minimum of two registers. -/
  | minn (e : Bool) (d : GReg) (a : GReg) (b : GReg)
  /-- MAXN (R78). Writes the unsigned maximum of two registers. -/
  | maxn (e : Bool) (d : GReg) (a : GReg) (b : GReg)
  /-- MUL (R78). Writes the low 64 bits of the product. -/
  | mul (e : Bool) (d : GReg) (a : GReg) (b : GReg)
  /-- MULH (R78). Writes the high 64 bits of the signed product. -/
  | mulh (e : Bool) (d : GReg) (a : GReg) (b : GReg)
  /-- MULHN (R78). Writes the high 64 bits of the unsigned product. -/
  | mulhn (e : Bool) (d : GReg) (a : GReg) (b : GReg)
  /-- DIV (R79). Writes the signed quotient, defined for every input. -/
  | div (e : Bool) (d : GReg) (a : GReg) (b : GReg)
  /-- DIVN (R79). Writes the unsigned quotient, defined for every input. -/
  | divn (e : Bool) (d : GReg) (a : GReg) (b : GReg)
  /-- REM (R79). Writes the signed remainder, defined for every input. -/
  | rem (e : Bool) (d : GReg) (a : GReg) (b : GReg)
  /-- REMN (R79). Writes the unsigned remainder, defined for every input. -/
  | remn (e : Bool) (d : GReg) (a : GReg) (b : GReg)
  /-- ADDV (R80). Adds as s64 and traps on overflow before effect. -/
  | addv (e : Bool) (d : GReg) (a : GReg) (b : GReg)
  /-- SUBV (R80). Subtracts as s64 and traps on overflow before effect. -/
  | subv (e : Bool) (d : GReg) (a : GReg) (b : GReg)
  /-- MULV (R80). Multiplies as s64 and traps on overflow before effect. -/
  | mulv (e : Bool) (d : GReg) (a : GReg) (b : GReg)
  /-- CLZ (R78). Counts leading zero bits of a. -/
  | clz (e : Bool) (d : GReg) (a : GReg)
  /-- CTZ (R78). Counts trailing zero bits of a. -/
  | ctz (e : Bool) (d : GReg) (a : GReg)
  /-- POPC (R78). Counts one bits of a. -/
  | popc (e : Bool) (d : GReg) (a : GReg)
  /-- BSWAP (R78). Reverses the eight bytes of a. -/
  | bswap (e : Bool) (d : GReg) (a : GReg)
  /-- SEXT8 (R78). Sign-extends a[7:0]. -/
  | sext8 (e : Bool) (d : GReg) (a : GReg)
  /-- SEXT16 (R78). Sign-extends a[15:0]. -/
  | sext16 (e : Bool) (d : GReg) (a : GReg)
  /-- SEXT32 (R78). Sign-extends a[31:0]. -/
  | sext32 (e : Bool) (d : GReg) (a : GReg)
  /-- ZEXT8 (R78). Zero-extends a[7:0]. -/
  | zext8 (e : Bool) (d : GReg) (a : GReg)
  /-- ZEXT16 (R78). Zero-extends a[15:0]. -/
  | zext16 (e : Bool) (d : GReg) (a : GReg)
  /-- ZEXT32 (R78). Zero-extends a[31:0]. -/
  | zext32 (e : Bool) (d : GReg) (a : GReg)
  /-- ADDI (R81). Adds a sign-extended 11-bit immediate. -/
  | addi (e : Bool) (d : GReg) (a : GReg) (i : BitVec 11)
  /-- ANDI (R81). ANDs a sign-extended 11-bit immediate. -/
  | andi (e : Bool) (d : GReg) (a : GReg) (i : BitVec 11)
  /-- ORI (R81). ORs a sign-extended 11-bit immediate. -/
  | ori (e : Bool) (d : GReg) (a : GReg) (i : BitVec 11)
  /-- XORI (R81). XORs a sign-extended 11-bit immediate. -/
  | xori (e : Bool) (d : GReg) (a : GReg) (i : BitVec 11)
  /-- SLTI (R81). Signed compare against an immediate. -/
  | slti (e : Bool) (d : GReg) (a : GReg) (i : BitVec 11)
  /-- SLTNI (R81). Unsigned compare against an immediate. -/
  | sltni (e : Bool) (d : GReg) (a : GReg) (i : BitVec 11)
  /-- SLLI (R82). Shifts left by an immediate amount. -/
  | slli (e : Bool) (d : GReg) (a : GReg) (s : BitVec 6)
  /-- SRLI (R82). Shifts right logically by an immediate amount. -/
  | srli (e : Bool) (d : GReg) (a : GReg) (s : BitVec 6)
  /-- SRAI (R82). Shifts right arithmetically by an immediate amount. -/
  | srai (e : Bool) (d : GReg) (a : GReg) (s : BitVec 6)
  /-- ROLI (R82). Rotates left by an immediate amount. -/
  | roli (e : Bool) (d : GReg) (a : GReg) (s : BitVec 6)
  /-- LIM (R83). Loads a sign-extended 18-bit immediate. -/
  | lim (e : Bool) (d : GReg) (i : BitVec 18)
  /-- LIHI (R83). Shifts the register left 18 and ORs in an 18-bit immediate. -/
  | lihi (e : Bool) (d : GReg) (i : BitVec 18)
  /-- ADDPC (R84). Writes PC plus a word offset. -/
  | addpc (e : Bool) (d : GReg) (i : BitVec 18)
  /-- LD (R85). Scalar load of the width code at base plus scaled offset. -/
  | ld (e : Bool) (d : GReg) (a : GReg) (w : BitVec 3) (o : BitVec 8)
  /-- ST (R85). Scalar store of the width code at base plus scaled offset. -/
  | st (e : Bool) (d : GReg) (a : GReg) (w : BitVec 3) (o : BitVec 8)
  /-- LDX (R86). Scalar load at the sum of two registers. -/
  | ldx (e : Bool) (d : GReg) (a : GReg) (b : GReg) (w : BitVec 3)
  /-- STX (R86). Scalar store at the sum of two registers. -/
  | stx (e : Bool) (d : GReg) (a : GReg) (b : GReg) (w : BitVec 3)
  /-- BEQ (R90). Branches when the registers are equal. -/
  | beq (e : Bool) (a : GReg) (b : GReg) (o : BitVec 11)
  /-- BNE (R90). Branches when the registers differ. -/
  | bne (e : Bool) (a : GReg) (b : GReg) (o : BitVec 11)
  /-- BLT (R90). Branches on signed less-than. -/
  | blt (e : Bool) (a : GReg) (b : GReg) (o : BitVec 11)
  /-- BGE (R90). Branches on signed greater-or-equal. -/
  | bge (e : Bool) (a : GReg) (b : GReg) (o : BitVec 11)
  /-- BLTN (R90). Branches on unsigned less-than. -/
  | bltn (e : Bool) (a : GReg) (b : GReg) (o : BitVec 11)
  /-- BGEN (R90). Branches on unsigned greater-or-equal. -/
  | bgen (e : Bool) (a : GReg) (b : GReg) (o : BitVec 11)
  /-- JMP (R91). Jumps by a 25-bit word offset. -/
  | jmp (e : Bool) (o : BitVec 25)
  /-- CALL (R91). Writes LR and jumps by a 25-bit word offset. -/
  | call (e : Bool) (o : BitVec 25)
  /-- JR (R92). Jumps to the address in a register, retiring the hart on 0. -/
  | jr (e : Bool) (a : GReg)
  /-- CALLR (R92). Writes LR and jumps to the address in a register. -/
  | callr (e : Bool) (a : GReg)
  /-- RET (R92). Jumps to LR, retiring the hart on 0. -/
  | ret (e : Bool)
  /-- LOOP (R103). Opens a hardware loop level with a count from a register. -/
  | loop (e : Bool) (l : Bool) (a : GReg) (o : BitVec 11)
  /-- LOOPI (R103). Opens a hardware loop level with an immediate count. -/
  | loopi (e : Bool) (l : Bool) (c : BitVec 12) (o : BitVec 12)
  /-- MFS (R100). Reads a special register into a scalar register. -/
  | mfs (e : Bool) (d : GReg) (n : BitVec 11)
  /-- MTS (R101). Writes a special register from a scalar register with its side effects. -/
  | mts (e : Bool) (a : GReg) (n : BitVec 11)
  /-- WINB (R99). Sets the window base from an immediate. -/
  | winb (e : Bool) (i : BitVec 11)
  /-- NOP (R94). Has no effect. -/
  | nop (e : Bool)
  /-- TRAP (R95). Raises the software trap with a 7-bit cause. -/
  | trap (e : Bool) (c : BitVec 7)
  /-- RFT (R72). Returns from a trap to TPC and TELIX, restoring mode and loop bits. -/
  | rft (e : Bool)
  /-- WAIT (R96). Completes and holds issue until TICK changes. -/
  | wait (e : Bool)
  /-- YIELD (R97). Lets the scheduler pre-empt the crew for an equal or higher ready crew of the context. -/
  | yield (e : Bool)
  /-- BRKPT (R95). Raises the breakpoint trap. -/
  | brkpt (e : Bool)
  /-- HALT (R98). Stops the hart for good in supervisor mode and files a halt event. -/
  | halt (e : Bool)
  /-- AMOSWAP_RLX (R312). Relaxed atomic swap. -/
  | amoswapRlx (e : Bool) (d : GReg) (a : GReg) (b : GReg) (s : Bool)
  /-- AMOADD_RLX (R312). Relaxed atomic add. -/
  | amoaddRlx (e : Bool) (d : GReg) (a : GReg) (b : GReg) (s : Bool)
  /-- AMOAND_RLX (R312). Relaxed atomic AND. -/
  | amoandRlx (e : Bool) (d : GReg) (a : GReg) (b : GReg) (s : Bool)
  /-- AMOOR_RLX (R312). Relaxed atomic OR. -/
  | amoorRlx (e : Bool) (d : GReg) (a : GReg) (b : GReg) (s : Bool)
  /-- AMOXOR_RLX (R312). Relaxed atomic XOR. -/
  | amoxorRlx (e : Bool) (d : GReg) (a : GReg) (b : GReg) (s : Bool)
  /-- AMOMAX_RLX (R312). Relaxed atomic signed maximum. -/
  | amomaxRlx (e : Bool) (d : GReg) (a : GReg) (b : GReg) (s : Bool)
  /-- AMOMIN_RLX (R312). Relaxed atomic signed minimum. -/
  | amominRlx (e : Bool) (d : GReg) (a : GReg) (b : GReg) (s : Bool)
  /-- AMOCAS_RLX (R312). Relaxed atomic compare-and-swap. -/
  | amocasRlx (e : Bool) (d : GReg) (a : GReg) (b : GReg) (s : Bool)
  /-- AMOSWAP_ACQ (R312). Acquire atomic swap. -/
  | amoswapAcq (e : Bool) (d : GReg) (a : GReg) (b : GReg) (s : Bool)
  /-- AMOADD_ACQ (R312). Acquire atomic add. -/
  | amoaddAcq (e : Bool) (d : GReg) (a : GReg) (b : GReg) (s : Bool)
  /-- AMOAND_ACQ (R312). Acquire atomic AND. -/
  | amoandAcq (e : Bool) (d : GReg) (a : GReg) (b : GReg) (s : Bool)
  /-- AMOOR_ACQ (R312). Acquire atomic OR. -/
  | amoorAcq (e : Bool) (d : GReg) (a : GReg) (b : GReg) (s : Bool)
  /-- AMOXOR_ACQ (R312). Acquire atomic XOR. -/
  | amoxorAcq (e : Bool) (d : GReg) (a : GReg) (b : GReg) (s : Bool)
  /-- AMOMAX_ACQ (R312). Acquire atomic signed maximum. -/
  | amomaxAcq (e : Bool) (d : GReg) (a : GReg) (b : GReg) (s : Bool)
  /-- AMOMIN_ACQ (R312). Acquire atomic signed minimum. -/
  | amominAcq (e : Bool) (d : GReg) (a : GReg) (b : GReg) (s : Bool)
  /-- AMOCAS_ACQ (R312). Acquire atomic compare-and-swap. -/
  | amocasAcq (e : Bool) (d : GReg) (a : GReg) (b : GReg) (s : Bool)
  /-- AMOSWAP_REL (R312). Release atomic swap. -/
  | amoswapRel (e : Bool) (d : GReg) (a : GReg) (b : GReg) (s : Bool)
  /-- AMOADD_REL (R312). Release atomic add. -/
  | amoaddRel (e : Bool) (d : GReg) (a : GReg) (b : GReg) (s : Bool)
  /-- AMOAND_REL (R312). Release atomic AND. -/
  | amoandRel (e : Bool) (d : GReg) (a : GReg) (b : GReg) (s : Bool)
  /-- AMOOR_REL (R312). Release atomic OR. -/
  | amoorRel (e : Bool) (d : GReg) (a : GReg) (b : GReg) (s : Bool)
  /-- AMOXOR_REL (R312). Release atomic XOR. -/
  | amoxorRel (e : Bool) (d : GReg) (a : GReg) (b : GReg) (s : Bool)
  /-- AMOMAX_REL (R312). Release atomic signed maximum. -/
  | amomaxRel (e : Bool) (d : GReg) (a : GReg) (b : GReg) (s : Bool)
  /-- AMOMIN_REL (R312). Release atomic signed minimum. -/
  | amominRel (e : Bool) (d : GReg) (a : GReg) (b : GReg) (s : Bool)
  /-- AMOCAS_REL (R312). Release atomic compare-and-swap. -/
  | amocasRel (e : Bool) (d : GReg) (a : GReg) (b : GReg) (s : Bool)
  /-- AMOSWAP_AR (R312). Acquire-release atomic swap. -/
  | amoswapAr (e : Bool) (d : GReg) (a : GReg) (b : GReg) (s : Bool)
  /-- AMOADD_AR (R312). Acquire-release atomic add. -/
  | amoaddAr (e : Bool) (d : GReg) (a : GReg) (b : GReg) (s : Bool)
  /-- AMOAND_AR (R312). Acquire-release atomic AND. -/
  | amoandAr (e : Bool) (d : GReg) (a : GReg) (b : GReg) (s : Bool)
  /-- AMOOR_AR (R312). Acquire-release atomic OR. -/
  | amoorAr (e : Bool) (d : GReg) (a : GReg) (b : GReg) (s : Bool)
  /-- AMOXOR_AR (R312). Acquire-release atomic XOR. -/
  | amoxorAr (e : Bool) (d : GReg) (a : GReg) (b : GReg) (s : Bool)
  /-- AMOMAX_AR (R312). Acquire-release atomic signed maximum. -/
  | amomaxAr (e : Bool) (d : GReg) (a : GReg) (b : GReg) (s : Bool)
  /-- AMOMIN_AR (R312). Acquire-release atomic signed minimum. -/
  | amominAr (e : Bool) (d : GReg) (a : GReg) (b : GReg) (s : Bool)
  /-- AMOCAS_AR (R312). Acquire-release atomic compare-and-swap. -/
  | amocasAr (e : Bool) (d : GReg) (a : GReg) (b : GReg) (s : Bool)
  /-- LDACQ32 (R314). 32-bit acquire load. -/
  | ldacq32 (e : Bool) (d : GReg) (a : GReg)
  /-- LDACQ64 (R314). 64-bit acquire load. -/
  | ldacq64 (e : Bool) (d : GReg) (a : GReg)
  /-- STREL32 (R314). 32-bit release store. -/
  | strel32 (e : Bool) (d : GReg) (a : GReg)
  /-- STREL64 (R314). 64-bit release store. -/
  | strel64 (e : Bool) (d : GReg) (a : GReg)
  /-- WATCH (R315). Arms the hart's single watch on a 256-byte line. -/
  | watch (e : Bool) (a : GReg)
  /-- WAITW (R315). Sleeps until the watched line is written or a tick limit passes. -/
  | waitw (e : Bool) (b : GReg)
  /-- FENCE_SV (R178). Orders earlier scalar accesses before later vector accesses of the hart. -/
  | fenceSv (e : Bool)
  /-- FENCE_VS (R178). Orders earlier vector accesses before later scalar accesses of the hart. -/
  | fenceVs (e : Bool)
  /-- FENCE_VV (R178). Orders earlier vector accesses before later vector accesses of the hart. -/
  | fenceVv (e : Bool)
  /-- FENCE_MEM (R317). Drains earlier accesses at the named scope before later ones begin. -/
  | fenceMem (e : Bool) (s : BitVec 3)
  /-- FENCE_SC (R318). Drains like FENCE.MEM and then completes at the next tick in the package SC order. -/
  | fenceSc (e : Bool) (s : BitVec 3)
  /-- FENCE_ENG (R319). Waits until every forked engine operation is complete and performed at the scope. -/
  | fenceEng (e : Bool) (s : BitVec 3)
  /-- VCONF (R133). Sets the vector register count, draining and clearing all vector and mask registers. -/
  | vconf (e : Bool) (b : BitVec 7)
  /-- VSETL (R134). Sets VT and grants VL as min of request, VLMAX and the cap. -/
  | vsetl (e : Bool) (d : GReg) (a : GReg) (b : BitVec 7)
  /-- VGRANT (R135). Reads the current grant cap. -/
  | vgrant (e : Bool) (d : GReg)
  /-- VADD (R144). Vector wrapped add. -/
  | vadd (e : Bool) (d : VReg) (a : VReg) (b : VReg) (m : Bool)
  /-- VSUB (R144). Vector wrapped subtract. -/
  | vsub (e : Bool) (d : VReg) (a : VReg) (b : VReg) (m : Bool)
  /-- VMUL (R144). Vector wrapped multiply. -/
  | vmul (e : Bool) (d : VReg) (a : VReg) (b : VReg) (m : Bool)
  /-- VAND (R144). Vector bitwise AND. -/
  | vand (e : Bool) (d : VReg) (a : VReg) (b : VReg) (m : Bool)
  /-- VOR (R144). Vector bitwise OR. -/
  | vor (e : Bool) (d : VReg) (a : VReg) (b : VReg) (m : Bool)
  /-- VXOR (R144). Vector bitwise XOR. -/
  | vxor (e : Bool) (d : VReg) (a : VReg) (b : VReg) (m : Bool)
  /-- VMIN (R144). Vector signed minimum. -/
  | vmin (e : Bool) (d : VReg) (a : VReg) (b : VReg) (m : Bool)
  /-- VMAX (R144). Vector signed maximum. -/
  | vmax (e : Bool) (d : VReg) (a : VReg) (b : VReg) (m : Bool)
  /-- VADD_X (R143). Vector add with a scalar operand. -/
  | vaddX (e : Bool) (d : VReg) (a : VReg) (b : GReg) (m : Bool)
  /-- VSUB_X (R143). Vector subtract with a scalar operand. -/
  | vsubX (e : Bool) (d : VReg) (a : VReg) (b : GReg) (m : Bool)
  /-- VMUL_X (R143). Vector multiply with a scalar operand. -/
  | vmulX (e : Bool) (d : VReg) (a : VReg) (b : GReg) (m : Bool)
  /-- VAND_X (R143). Vector AND with a scalar operand. -/
  | vandX (e : Bool) (d : VReg) (a : VReg) (b : GReg) (m : Bool)
  /-- VOR_X (R143). Vector OR with a scalar operand. -/
  | vorX (e : Bool) (d : VReg) (a : VReg) (b : GReg) (m : Bool)
  /-- VXOR_X (R143). Vector XOR with a scalar operand. -/
  | vxorX (e : Bool) (d : VReg) (a : VReg) (b : GReg) (m : Bool)
  /-- VMIN_X (R143). Vector signed minimum with a scalar operand. -/
  | vminX (e : Bool) (d : VReg) (a : VReg) (b : GReg) (m : Bool)
  /-- VMAX_X (R143). Vector signed maximum with a scalar operand. -/
  | vmaxX (e : Bool) (d : VReg) (a : VReg) (b : GReg) (m : Bool)
  /-- VSLL (R144). Vector shift left by b mod w. -/
  | vsll (e : Bool) (d : VReg) (a : VReg) (b : VReg) (m : Bool)
  /-- VSRL (R144). Vector logical shift right. -/
  | vsrl (e : Bool) (d : VReg) (a : VReg) (b : VReg) (m : Bool)
  /-- VSRA (R144). Vector arithmetic shift right. -/
  | vsra (e : Bool) (d : VReg) (a : VReg) (b : VReg) (m : Bool)
  /-- VMULH (R144). Vector signed high product. -/
  | vmulh (e : Bool) (d : VReg) (a : VReg) (b : VReg) (m : Bool)
  /-- VDIV (R144). Vector signed divide. -/
  | vdiv (e : Bool) (d : VReg) (a : VReg) (b : VReg) (m : Bool)
  /-- VREM (R144). Vector signed remainder. -/
  | vrem (e : Bool) (d : VReg) (a : VReg) (b : VReg) (m : Bool)
  /-- VADDSAT (R144). Vector saturating signed add. -/
  | vaddsat (e : Bool) (d : VReg) (a : VReg) (b : VReg) (m : Bool)
  /-- VSUBSAT (R144). Vector saturating signed subtract. -/
  | vsubsat (e : Bool) (d : VReg) (a : VReg) (b : VReg) (m : Bool)
  /-- VMINN (R144). Vector unsigned minimum. -/
  | vminn (e : Bool) (d : VReg) (a : VReg) (b : VReg) (m : Bool)
  /-- VMAXN (R144). Vector unsigned maximum. -/
  | vmaxn (e : Bool) (d : VReg) (a : VReg) (b : VReg) (m : Bool)
  /-- VMULHN (R144). Vector unsigned high product. -/
  | vmulhn (e : Bool) (d : VReg) (a : VReg) (b : VReg) (m : Bool)
  /-- VDIVN (R144). Vector unsigned divide. -/
  | vdivn (e : Bool) (d : VReg) (a : VReg) (b : VReg) (m : Bool)
  /-- VREMN (R144). Vector unsigned remainder. -/
  | vremn (e : Bool) (d : VReg) (a : VReg) (b : VReg) (m : Bool)
  /-- VABS (R144). Vector absolute value modulo 2^w. -/
  | vabs (e : Bool) (d : VReg) (a : VReg) (m : Bool)
  /-- VMERGE (R144). Selects b where m0 is set, else a. -/
  | vmerge (e : Bool) (d : VReg) (a : VReg) (b : VReg) (m : Bool)
  /-- VMV (R144). Vector move. -/
  | vmv (e : Bool) (d : VReg) (a : VReg) (m : Bool)
  /-- VFADD (R145). Vector float add, rounded once. -/
  | vfadd (e : Bool) (d : VReg) (a : VReg) (b : VReg) (m : Bool)
  /-- VFSUB (R145). Vector float subtract. -/
  | vfsub (e : Bool) (d : VReg) (a : VReg) (b : VReg) (m : Bool)
  /-- VFMUL (R145). Vector float multiply. -/
  | vfmul (e : Bool) (d : VReg) (a : VReg) (b : VReg) (m : Bool)
  /-- VFDIV (R145). Vector float divide. -/
  | vfdiv (e : Bool) (d : VReg) (a : VReg) (b : VReg) (m : Bool)
  /-- VFMIN (R146). Vector float minimumNumber. -/
  | vfmin (e : Bool) (d : VReg) (a : VReg) (b : VReg) (m : Bool)
  /-- VFMAX (R146). Vector float maximumNumber. -/
  | vfmax (e : Bool) (d : VReg) (a : VReg) (b : VReg) (m : Bool)
  /-- VFMA (R145). Vector fused multiply-add into d. -/
  | vfma (e : Bool) (d : VReg) (a : VReg) (b : VReg) (m : Bool)
  /-- VFNMS (R145). Vector fused d minus a times b. -/
  | vfnms (e : Bool) (d : VReg) (a : VReg) (b : VReg) (m : Bool)
  /-- VFADD_X (R143). Vector float add with a scalar operand. -/
  | vfaddX (e : Bool) (d : VReg) (a : VReg) (b : GReg) (m : Bool)
  /-- VFSUB_X (R143). Vector float subtract with a scalar operand. -/
  | vfsubX (e : Bool) (d : VReg) (a : VReg) (b : GReg) (m : Bool)
  /-- VFMUL_X (R143). Vector float multiply with a scalar operand. -/
  | vfmulX (e : Bool) (d : VReg) (a : VReg) (b : GReg) (m : Bool)
  /-- VFDIV_X (R143). Vector float divide with a scalar operand. -/
  | vfdivX (e : Bool) (d : VReg) (a : VReg) (b : GReg) (m : Bool)
  /-- VFMIN_X (R143). Vector float minimum with a scalar operand. -/
  | vfminX (e : Bool) (d : VReg) (a : VReg) (b : GReg) (m : Bool)
  /-- VFMAX_X (R143). Vector float maximum with a scalar operand. -/
  | vfmaxX (e : Bool) (d : VReg) (a : VReg) (b : GReg) (m : Bool)
  /-- VFMA_X (R143). Vector fused multiply-add with a scalar operand. -/
  | vfmaX (e : Bool) (d : VReg) (a : VReg) (b : GReg) (m : Bool)
  /-- VFNMS_X (R143). Vector fused negative multiply-subtract with a scalar operand. -/
  | vfnmsX (e : Bool) (d : VReg) (a : VReg) (b : GReg) (m : Bool)
  /-- VFSQRT (R147). Vector float square root. -/
  | vfsqrt (e : Bool) (d : VReg) (a : VReg) (m : Bool)
  /-- VFABS (R147). Vector float absolute value. -/
  | vfabs (e : Bool) (d : VReg) (a : VReg) (m : Bool)
  /-- VFNEG (R147). Vector float negation. -/
  | vfneg (e : Bool) (d : VReg) (a : VReg) (m : Bool)
  /-- VFRCP (R147). Vector correctly rounded reciprocal. -/
  | vfrcp (e : Bool) (d : VReg) (a : VReg) (m : Bool)
  /-- VFCLASS (R148). Writes the class number of each float element. -/
  | vfclass (e : Bool) (d : VReg) (a : VReg) (m : Bool)
  /-- VFSCALE (R147). Scales each element by 2 to an integer power. -/
  | vfscale (e : Bool) (d : VReg) (a : VReg) (b : VReg) (m : Bool)
  /-- VFEXP2 (R147). Vector correctly rounded 2^a. -/
  | vfexp2 (e : Bool) (d : VReg) (a : VReg) (m : Bool)
  /-- VFLOG2 (R147). Vector correctly rounded log2 a. -/
  | vflog2 (e : Bool) (d : VReg) (a : VReg) (m : Bool)
  /-- VCMP_EQ (R149). Mask of equal bit patterns. -/
  | vcmpEq (e : Bool) (d : MReg) (a : VReg) (b : VReg) (m : Bool)
  /-- VCMP_NE (R149). Mask of differing bit patterns. -/
  | vcmpNe (e : Bool) (d : MReg) (a : VReg) (b : VReg) (m : Bool)
  /-- VCMP_LT (R149). Mask of signed less-than. -/
  | vcmpLt (e : Bool) (d : MReg) (a : VReg) (b : VReg) (m : Bool)
  /-- VCMP_GE (R149). Mask of signed greater-or-equal. -/
  | vcmpGe (e : Bool) (d : MReg) (a : VReg) (b : VReg) (m : Bool)
  /-- VCMP_LTN (R149). Mask of unsigned less-than. -/
  | vcmpLtn (e : Bool) (d : MReg) (a : VReg) (b : VReg) (m : Bool)
  /-- VCMP_GEN (R149). Mask of unsigned greater-or-equal. -/
  | vcmpGen (e : Bool) (d : MReg) (a : VReg) (b : VReg) (m : Bool)
  /-- VCMP_FLT (R149). Mask of float less-than. -/
  | vcmpFlt (e : Bool) (d : MReg) (a : VReg) (b : VReg) (m : Bool)
  /-- VCMP_FLE (R149). Mask of float less-or-equal. -/
  | vcmpFle (e : Bool) (d : MReg) (a : VReg) (b : VReg) (m : Bool)
  /-- VCMP_EQ_X (R149). Mask of equality against a scalar. -/
  | vcmpEqX (e : Bool) (d : MReg) (a : VReg) (b : GReg) (m : Bool)
  /-- VCMP_NE_X (R149). Mask of inequality against a scalar. -/
  | vcmpNeX (e : Bool) (d : MReg) (a : VReg) (b : GReg) (m : Bool)
  /-- VCMP_LT_X (R149). Mask of signed less-than against a scalar. -/
  | vcmpLtX (e : Bool) (d : MReg) (a : VReg) (b : GReg) (m : Bool)
  /-- VCMP_GE_X (R149). Mask of signed greater-or-equal against a scalar. -/
  | vcmpGeX (e : Bool) (d : MReg) (a : VReg) (b : GReg) (m : Bool)
  /-- VCMP_LTN_X (R149). Mask of unsigned less-than against a scalar. -/
  | vcmpLtnX (e : Bool) (d : MReg) (a : VReg) (b : GReg) (m : Bool)
  /-- VCMP_GEN_X (R149). Mask of unsigned greater-or-equal against a scalar. -/
  | vcmpGenX (e : Bool) (d : MReg) (a : VReg) (b : GReg) (m : Bool)
  /-- VCMP_FLT_X (R149). Mask of float less-than against a scalar. -/
  | vcmpFltX (e : Bool) (d : MReg) (a : VReg) (b : GReg) (m : Bool)
  /-- VCMP_FLE_X (R149). Mask of float less-or-equal against a scalar. -/
  | vcmpFleX (e : Bool) (d : MReg) (a : VReg) (b : GReg) (m : Bool)
  /-- MAND (R150). Mask AND. -/
  | mand (e : Bool) (d : MReg) (a : MReg) (b : MReg) (m : Bool)
  /-- MOR (R150). Mask OR. -/
  | mor (e : Bool) (d : MReg) (a : MReg) (b : MReg) (m : Bool)
  /-- MXOR (R150). Mask XOR. -/
  | mxor (e : Bool) (d : MReg) (a : MReg) (b : MReg) (m : Bool)
  /-- MANDN (R150). Mask AND NOT. -/
  | mandn (e : Bool) (d : MReg) (a : MReg) (b : MReg) (m : Bool)
  /-- MNOT (R150). Mask NOT. -/
  | mnot (e : Bool) (d : MReg) (a : MReg) (m : Bool)
  /-- MFIRST (R150). Writes the least active set index, or VL. -/
  | mfirst (e : Bool) (d : GReg) (a : MReg) (m : Bool)
  /-- MPOP (R150). Counts active set mask bits. -/
  | mpop (e : Bool) (d : GReg) (a : MReg) (m : Bool)
  /-- MSET (R150). Sets active mask bits. -/
  | mset (e : Bool) (d : MReg) (m : Bool)
  /-- CVT_F (R151). Converts float elements to another float format. -/
  | cvtF (e : Bool) (d : VReg) (a : VReg) (b : BitVec 7) (m : Bool)
  /-- CVT_FI (R151). Converts float elements to signed integers. -/
  | cvtFi (e : Bool) (d : VReg) (a : VReg) (b : BitVec 7) (m : Bool)
  /-- CVT_IF (R151). Converts signed integer elements to float. -/
  | cvtIf (e : Bool) (d : VReg) (a : VReg) (b : BitVec 7) (m : Bool)
  /-- CVT_II (R151). Converts signed integers between widths with clamping. -/
  | cvtIi (e : Bool) (d : VReg) (a : VReg) (b : BitVec 7) (m : Bool)
  /-- VRIN (R153). Converts s32 elements to res30. -/
  | vrin (e : Bool) (d : VReg) (a : VReg) (m : Bool)
  /-- VROUT (R153). Reconstructs s32 from res30 elements. -/
  | vrout (e : Bool) (d : VReg) (a : VReg) (m : Bool)
  /-- VRADD (R153). Residue addition. -/
  | vradd (e : Bool) (d : VReg) (a : VReg) (b : VReg) (m : Bool)
  /-- VRMUL (R153). Residue multiplication. -/
  | vrmul (e : Bool) (d : VReg) (a : VReg) (b : VReg) (m : Bool)
  /-- VSUM (R154). Integer sum reduction into a scalar. -/
  | vsum (e : Bool) (d : GReg) (a : VReg) (m : Bool)
  /-- VFSUMO (R126). Ordered float sum reduction. -/
  | vfsumo (e : Bool) (d : GReg) (a : VReg) (m : Bool)
  /-- VFSUMT (R127). Fixed-tree float sum reduction. -/
  | vfsumt (e : Bool) (d : GReg) (a : VReg) (m : Bool)
  /-- VRMAX (R154). Signed maximum reduction. -/
  | vrmax (e : Bool) (d : GReg) (a : VReg) (m : Bool)
  /-- VRMIN (R154). Signed minimum reduction. -/
  | vrmin (e : Bool) (d : GReg) (a : VReg) (m : Bool)
  /-- VRAND (R154). Bitwise AND reduction. -/
  | vrand (e : Bool) (d : GReg) (a : VReg) (m : Bool)
  /-- VROR (R154). Bitwise OR reduction. -/
  | vror (e : Bool) (d : GReg) (a : VReg) (m : Bool)
  /-- VFRMAX (R154). Float maximum reduction. -/
  | vfrmax (e : Bool) (d : GReg) (a : VReg) (m : Bool)
  /-- VSLUP (R156). Slides elements up by a scalar count. -/
  | vslup (e : Bool) (d : VReg) (a : VReg) (b : GReg) (m : Bool)
  /-- VSLDN (R156). Slides elements down by a scalar count. -/
  | vsldn (e : Bool) (d : VReg) (a : VReg) (b : GReg) (m : Bool)
  /-- VCOMP (R156). Compresses mask-selected elements. -/
  | vcomp (e : Bool) (d : VReg) (a : VReg) (b : MReg) (m : Bool)
  /-- VEXPD (R156). Expands elements into mask-selected positions. -/
  | vexpd (e : Bool) (d : VReg) (a : VReg) (b : MReg) (m : Bool)
  /-- VIOTA (R156). Writes running counts of a mask. -/
  | viota (e : Bool) (d : VReg) (a : MReg) (m : Bool)
  /-- VBCAST (R156). Broadcasts a scalar into active elements. -/
  | vbcast (e : Bool) (d : VReg) (a : GReg) (m : Bool)
  /-- VEXTR (R156). Extracts one element into a scalar. -/
  | vextr (e : Bool) (d : GReg) (a : VReg) (b : GReg) (m : Bool)
  /-- VRGATH (R156). Register gather by element indices. -/
  | vrgath (e : Bool) (d : VReg) (a : VReg) (b : VReg) (m : Bool)
  /-- VLD (R160). Unit-stride vector load with page-format decoding. -/
  | vld (e : Bool) (d : VReg) (a : GReg) (m : Bool)
  /-- VLDS (R160). Strided vector load. -/
  | vlds (e : Bool) (d : VReg) (a : GReg) (b : GReg) (m : Bool)
  /-- VST (R160). Unit-stride vector store with page-format encoding. -/
  | vst (e : Bool) (d : VReg) (a : GReg) (m : Bool)
  /-- VSTS (R160). Strided vector store. -/
  | vsts (e : Bool) (d : VReg) (a : GReg) (b : GReg) (m : Bool)
  /-- VGTH (R169). Indexed vector gather, translating all elements first. -/
  | vgth (e : Bool) (d : VReg) (a : GReg) (b : VReg) (m : Bool)
  /-- VSCTO (R162). Ordered indexed scatter. -/
  | vscto (e : Bool) (d : VReg) (a : GReg) (b : VReg) (m : Bool)
  /-- VSCTU (R162). Unordered indexed scatter. -/
  | vsctu (e : Bool) (d : VReg) (a : GReg) (b : VReg) (m : Bool)
  /-- VXARM (R199). Opens an exit region, closing any open one. -/
  | vxarm (e : Bool) (m : Bool)
  /-- VXIT (R200). Exit test lowering BX for younger instructions of the strip. -/
  | vxit (e : Bool) (a : MReg) (m : Bool)
  /-- VXCLR (R201). Waits for all resolution and the caddy, then closes the region. -/
  | vxclr (e : Bool) (m : Bool)
  /-- VXLEN (R202). Reads min(VL, BX) after older tests resolve. -/
  | vxlen (e : Bool) (d : GReg) (m : Bool)
  /-- VXWAIT (R201). Waits for all resolution and the caddy, leaving the region open. -/
  | vxwait (e : Bool) (m : Bool)
  /-- VXFX (R202). Reads the strip's FX after older instructions translate. -/
  | vxfx (e : Bool) (d : GReg) (m : Bool)
  /-- BXANY (R203). Branches when the strip has an exit, ending or predicting the strip. -/
  | bxany (e : Bool) (o : BitVec 11)
  /-- BXNONE (R203). Branches when the strip has no exit, ending or predicting the strip. -/
  | bxnone (e : Bool) (o : BitVec 11)
  /-- VSEQ (R354). Gathers row elements through a sequence table lookup. -/
  | vseq (e : Bool) (d : VReg) (a : GReg) (b : GReg) (m : Bool)
  /-- VROT (R362). Rotates element pairs by rotary angles. -/
  | vrot (e : Bool) (d : VReg) (a : VReg) (b : VReg) (m : Bool)
  /-- VRANG (R361). Forms rotary angles for one position. -/
  | vrang (e : Bool) (d : VReg) (a : VReg) (b : GReg) (m : Bool)
  /-- VGQ (R364). Enqueues a run-ahead sequence gather. -/
  | vgq (e : Bool) (a : GReg) (b : GReg) (m : Bool)
  /-- VGQPOP (R365). Pops the head gather into a register, redoing failed elements precisely. -/
  | vgqpop (e : Bool) (d : VReg) (m : Bool)
  /-- SEQFORK (R356). Makes a table a delta child of a parent table. -/
  | seqfork (e : Bool) (d : GReg) (a : GReg) (b : GReg) (m : Bool)
  /-- SEQMAP (R357). Writes a table entry and raises the extent. -/
  | seqmap (e : Bool) (d : GReg) (a : GReg) (b : GReg) (m : Bool)
  /-- TCONF (R233). Sets the group of tiles claimed by the hart. -/
  | tconf (e : Bool) (d : GReg) (a : GReg)
  /-- TSHAPE (R240). Sets a tile's shape word. -/
  | tshape (e : Bool) (d : TReg) (a : GReg)
  /-- TZERO (R240). Zeroes a tile and marks it dirty. -/
  | tzero (e : Bool) (d : TReg)
  /-- TLD (R242). Loads tile rows from memory. -/
  | tld (e : Bool) (d : TReg) (a : GReg) (b : GReg)
  /-- TST (R242). Stores tile rows to memory. -/
  | tst (e : Bool) (d : TReg) (a : GReg) (b : GReg)
  /-- MROWIN (R241). Moves vector bytes into a tile row. -/
  | mrowin (e : Bool) (d : TReg) (a : GReg) (b : VReg)
  /-- MROWOUT (R241). Moves a tile row into a vector. -/
  | mrowout (e : Bool) (d : VReg) (a : TReg) (b : GReg)
  /-- MCOLIN (R241). Moves vector bytes into a tile column. -/
  | mcolin (e : Bool) (d : TReg) (a : GReg) (b : VReg)
  /-- MCOLOUT (R241). Moves a tile column into a vector. -/
  | mcolout (e : Bool) (d : VReg) (a : TReg) (b : GReg)
  /-- TSAVE (R244). Writes a tile image to memory. -/
  | tsave (e : Bool) (d : TReg) (a : GReg)
  /-- TRST (R244). Restores a tile from an image. -/
  | trst (e : Bool) (d : TReg) (a : GReg)
  /-- TDIRTY (R245). Reads the dirty bits of claimed tiles. -/
  | tdirty (e : Bool) (d : GReg)
  /-- TCVT (R246). Converts every element of one tile into another format. -/
  | tcvt (e : Bool) (d : TReg) (a : TReg) (b : BitVec 7)
  /-- MRW_O (R249). Ordered row operation with a vector A row. -/
  | mrwO (e : Bool) (c : TReg) (s : TReg) (a : GReg) (b : VReg)
  /-- MRW_F (R249). Tree-order row operation with a vector A row. -/
  | mrwF (e : Bool) (c : TReg) (s : TReg) (a : GReg) (b : VReg)
  /-- MRS_O (R249). Ordered row operation with a scratchpad A row. -/
  | mrsO (e : Bool) (c : TReg) (s : TReg) (a : GReg) (b : GReg)
  /-- MRS_F (R249). Tree-order row operation with a scratchpad A row. -/
  | mrsF (e : Bool) (c : TReg) (s : TReg) (a : GReg) (b : GReg)
  /-- MRWI (R249). Integer s8 row operation into a res30 accumulator. -/
  | mrwi (e : Bool) (c : TReg) (s : TReg) (a : GReg) (b : VReg)
  /-- SXW (R257). Writes a streamer shadow control register. -/
  | sxw (e : Bool) (a : GReg) (b : BitVec 7)
  /-- SXR (R257). Reads a streamer shadow control register. -/
  | sxr (e : Bool) (d : GReg) (b : BitVec 7)
  /-- SXGO (R258). Snapshots the shadow set and forks a copy. -/
  | sxgo (e : Bool) (d : GReg) (a : GReg)
  /-- SXGOM (R261). Forks a multicast copy into receiver scratchpad slots. -/
  | sxgom (e : Bool) (d : GReg) (a : GReg)
  /-- SXABT (R265). Stops a copy at its next strip boundary. -/
  | sxabt (e : Bool) (a : GReg)
  /-- SXSTAT (R265). Reads a copy's status without joining it. -/
  | sxstat (e : Bool) (d : GReg) (a : GReg)
  /-- BARR (R274). Arrives at a barrier and waits for the phase. -/
  | barr (e : Bool) (s : BitVec 3) (t : BitVec 3)
  /-- BARW (R274). Waits for the phase of a pending arrival. -/
  | barw (e : Bool) (s : BitVec 3) (t : BitVec 3)
  /-- BARA (R274). Arrives at a barrier without waiting. -/
  | bara (e : Bool) (s : BitVec 3) (t : BitVec 3)
  /-- TRON (R281). Starts a trace recording for the crew. -/
  | tron (e : Bool) (d : GReg) (a : GReg)
  /-- TROFF (R282). Stops the recording and forks its dump to memory. -/
  | troff (e : Bool) (d : GReg) (a : GReg)
  /-- SAMP (R284). Arms sampling of the next vector-unit member. -/
  | samp (e : Bool) (d : GReg) (a : GReg)
  /-- COORD (R278). Reads crew and launch geometry by selector. -/
  | coord (e : Bool) (d : GReg) (a : GReg) (b : BitVec 7)
  /-- GRBIND (R292). Binds the strainer session to a grammar descriptor. -/
  | grbind (e : Bool) (a : GReg)
  /-- GRSTEP (R293). Consumes a run of tokens through the automaton. -/
  | grstep (e : Bool) (d : GReg) (a : GReg) (b : GReg)
  /-- GRMASK_M (R295). Writes the current mask row into a mask register. -/
  | grmaskM (e : Bool) (d : MReg) (a : GReg)
  /-- GRMASK_V (R295). Writes the current mask row into a vector register. -/
  | grmaskV (e : Bool) (d : VReg) (a : GReg)
  /-- GRFORCE (R296). Returns the single allowed token or a not-forced value. -/
  | grforce (e : Bool) (d : GReg)
  /-- GRSAVE (R297). Writes the session image. -/
  | grsave (e : Bool) (a : GReg)
  /-- GRLOAD (R297). Checks and loads a session image. -/
  | grload (e : Bool) (a : GReg)
  /-- GRRESET (R297). Returns the session to the start state with an empty stack. -/
  | grreset (e : Bool)
  /-- OBJNEW (R338). Creates a private object over its lines. -/
  | objnew (e : Bool) (d : GReg) (a : GReg) (b : GReg)
  /-- TAGST (R339). Stores a reference with tag 1 under the escape check. -/
  | tagst (e : Bool) (d : GReg) (a : GReg)
  /-- TAGLD (R340). Acquire load returning a reference or all ones. -/
  | tagld (e : Bool) (d : GReg) (a : GReg)
  /-- PUB (R341). Publishes everything reachable then stores the reference as a release. -/
  | pub (e : Bool) (s : BitVec 3) (a : GReg) (b : GReg)
  /-- PUBW (R341). Publishes everything reachable from a reference and counts changes. -/
  | pubw (e : Bool) (d : GReg) (a : GReg) (s : BitVec 3)
  /-- OBJPRB (R345). Probes the object covering an address. -/
  | objprb (e : Bool) (d : GReg) (a : GReg)
  /-- TAGCLR (R346). Clears the tag of a word. -/
  | tagclr (e : Bool) (a : GReg)
  /-- OBJFREE (R347). Frees an object and its lines. -/
  | objfree (e : Bool) (a : GReg)
  /-- CTXNEW (R390). Creates a held child context from a CCB. -/
  | ctxnew (e : Bool) (d : GReg) (a : GReg)
  /-- CTXGRANT (R391). Grants or reclaims a budget of a child. -/
  | ctxgrant (e : Bool) (a : GReg) (b : GReg)
  /-- CTXREVOKE (R392). Freezes and revokes a descendant subtree, reclaiming its resources. -/
  | ctxrevoke (e : Bool) (a : GReg)
  /-- CTXRUN (R393). Runs, holds, or restores a frame of a descendant context. -/
  | ctxrun (e : Bool) (a : GReg) (b : GReg)
  /-- CTXINFO (R394). Reads context information by selector. -/
  | ctxinfo (e : Bool) (d : GReg) (a : GReg) (b : BitVec 7)
  /-- TRAPUP (R395). Raises the software trap in the parent context. -/
  | trapup (e : Bool) (a : GReg) (b : BitVec 7)
  /-- LAUNCH (R406). Registers or unregisters a launch queue, or enqueues a record. -/
  | launch (e : Bool) (d : GReg) (a : GReg) (b : GReg)
  /-- LWAIT (R407). Waits with a tick limit for a status word to become final. -/
  | lwait (e : Bool) (d : GReg) (a : GReg) (b : GReg)
  /-- LPRIO (R408). Sets the base priority of an incomplete launch. -/
  | lprio (e : Bool) (d : GReg) (a : GReg) (b : GReg)
  /-- COLR (R443). Forks an all-reduce collective. -/
  | colr (e : Bool) (d : GReg) (a : GReg)
  /-- COLG (R443). Forks an all-gather collective. -/
  | colg (e : Bool) (d : GReg) (a : GReg)
  /-- COLS (R443). Forks a reduce-scatter collective. -/
  | cols (e : Bool) (d : GReg) (a : GReg)
  /-- COLB (R443). Forks a broadcast collective. -/
  | colb (e : Bool) (d : GReg) (a : GReg)
  /-- COLW (R445). Waits with a limit for a collective and traps if withdrawn. -/
  | colw (e : Bool) (d : GReg) (a : GReg) (b : GReg)
  /-- COLA (R445). Aborts a collective at its next chunk. -/
  | cola (e : Bool) (a : GReg)
  /-- TRAP_ENTRY (R70). After older exit tests resolve, enters the handler or reflects the trap. -/
  | trapEntry (cause : BitVec 8) (tval : Word)
  /-- EXIT_TEST_RESOLVE (R184). An exit test resolves once its mask inputs and older tests are settled. -/
  | exitTestResolve
  /-- STRIP_RESOLVE (R188). A strip resolves, deciding trims and held traps, squashing or releasing. -/
  | stripResolve
  /-- PAGE_REQUEST_ANSWER (R381). An owner's resp write answers a request, readying the hart when all are answered. -/
  | pageRequestAnswer (id : Nat)
  /-- PAGE_REQUEST_GROUP_RESPONSE (R380). A host response to a Page Request Message makes the walker retry or take the trap path. -/
  | pageRequestGroupResponse (id : Nat) (code : BitVec 4)
  /-- PENDING_PAGE_ENTRY_FREE (R173). A freed pending-page entry lets a waiting fault issue its request. -/
  | pendingPageEntryFree (id : Nat)
  /-- LAUNCH_ACCEPT (R401). The scheduler sees a new tail and accepts the next record. -/
  | launchAccept (ctx : Nat) (queue : Nat)
  /-- CREW_BIND (R410). On a freed unit or a ready launch, binds ready crews in priority order. -/
  | crewBind (ctx : Nat) (choice : Nat)
  /-- PREEMPTION_COMPLETE (R412). The last engine acknowledgement arrives, frames are written and units freed. -/
  | preemptionComplete (crew : Nat)
  /-- PRIORITY_AGING (R409). A ready launch with an unbound crew gains one age step per 2^16 ticks. -/
  | priorityAging (launch : Nat)
  /-- HOME_BIAS_MOVE (R322). At a quiesce point a page changes home or bias and watches wake. -/
  | homeBiasMove (launch : Nat)
  /-- HINT_TIMEOUT (R413). With no quiesce point within 2^16 ticks the hint is dropped. -/
  | hintTimeout (launch : Nat)
  /-- HART_RETIRE (R65). After open tests and the caddy drain, the hart retires. -/
  | hartRetire (hart : Nat)
  /-- LAUNCH_COMPLETION (R404). Writes the final completion word once all harts and engine operations finish. -/
  | launchCompletion (launch : Nat)
  /-- BARRIER_PHASE_COMPLETE (R273). A barrier phase completes and reaches participants 24 cycles later. -/
  | barrierPhaseComplete (crew : Nat) (tag : BitVec 3)
  /-- WAITW_WAKE (R315). A write to the watched line or a move ends WAITW. -/
  | waitwWake (hart : Nat)
  /-- WAITW_TIMEOUT (R315). The tick limit of WAITW expires. -/
  | waitwTimeout (hart : Nat)
  /-- WAIT_END (R96). TICK changes and the hart resumes issue after WAIT. -/
  | waitEnd (hart : Nat)
  /-- LWAIT_TIMEOUT (R407). The tick limit of LWAIT expires. -/
  | lwaitTimeout (hart : Nat)
  /-- COLW_TIMEOUT (R445). The tick limit of COLW expires. -/
  | colwTimeout (hart : Nat)
  /-- FENCE_SC_TICK (R318). A drained SC fence completes at the next tick boundary. -/
  | fenceScTick (hart : Nat)
  /-- COPY_STRIP (R262). The streamer checks and writes one strip, or records a fault. -/
  | copyStrip (hart : Nat) (copy : Nat)
  /-- COPY_COMPLETION (R264). The streamer writes the final status into the copy's token. -/
  | copyCompletion (hart : Nat) (copy : Nat)
  /-- MIRROR_ACK (R448). A neighbour acknowledges mirrored elements. -/
  | mirrorAck (copy : Nat) (count : Nat)
  /-- MATRIX_OP_PERFORM (R235). The matrix engine performs the next queued operation. -/
  | matrixOpPerform (hart : Nat)
  /-- QUEUED_GATHER_PERFORM (R364). The engine performs a queued gather, recording its failing element. -/
  | queuedGatherPerform (hart : Nat) (index : Nat)
  /-- SAMPLE_RECORD_WRITE (R284). The sampled member completes and its record and status are written. -/
  | sampleRecordWrite (hart : Nat)
  /-- TRACE_FULL_STOP (R281). Recording stops when frame 65,535 is written without RING. -/
  | traceFullStop (cluster : Nat)
  /-- TRACE_DUMP_COMPLETE (R282). The trace dump finishes and its token receives the status. -/
  | traceDumpComplete (cluster : Nat)
  /-- COLLECTIVE_CHUNK (R443). A collective engine reduces or moves one chunk into stage. -/
  | collectiveChunk (hart : Nat) (coll : Nat) (peers : List PeerChunk)
  /-- READY_FLIT_RECEIVE (R443). A ready flit arrives; with every rank ready the collective commits. -/
  | readyFlitReceive (hart : Nat) (coll : Nat) (rank : Nat)
  /-- COLLECTIVE_COMPLETE (R443). Once recv writes are performed, the status goes to the token. -/
  | collectiveComplete (hart : Nat) (coll : Nat)
  /-- ABORT_FLIT_RECEIVE (R447). An abort flit withdraws a collective unless all readies are held. -/
  | abortFlitReceive (hart : Nat) (coll : Nat)
  /-- LOSS_FLIT_RECEIVE (R440). A loss flit announces a lost device to the fabric. -/
  | lossFlitReceive (device : BitVec 16)
  /-- LINK_DOWN_TIMEOUT (R440). A neighbour's ports down for 2^12 ticks declares the device lost. -/
  | linkDownTimeout (device : BitVec 16)
  /-- LINK_TRAIN (R439). A Kolras Link port trains at reset or retrain. -/
  | linkTrain (port : BitVec 4) (training : Training)
  /-- FLIT_CRC_REPLAY (R439). A flit failing its CRC is replayed by the link layer. -/
  | flitCrcReplay (port : BitVec 4)
  /-- LANE_FAILURE (R437). A failed lane files an event and the port retrains to 4 lanes. -/
  | laneFailure (port : BitVec 4)
  /-- CHANNEL_FAILURE (R437). A failed memory channel poisons its words and files events. -/
  | channelFailure (base : Nat) (size : Nat)
  /-- CORE_FAILURE (R227). A failed core loses its teams, aborts launches and leaves placement maps. -/
  | coreFailure (die : Nat) (cluster : Nat) (core : Nat)
  /-- CLUSTER_FAILURE (R285). A barrier-tree or network error fails the whole cluster. -/
  | clusterFailure (die : Nat) (cluster : Nat)
  /-- HOST_PORT_TRAIN (R423). A host port trains to its highest common mode. -/
  | hostPortTrain (port : Bool) (training : HostTraining)
  /-- HOST_RETRAIN_TIMEOUT (R424). After 2^16 ticks without the link, waiting accesses complete poisoned or dropped. -/
  | hostRetrainTimeout (port : Bool)
  /-- HOST_ACCESS (R454). A host access through a window is performed at device memory at system scope. -/
  | hostAccess (port : Bool) (target : HostTarget) (write : Bool) (data : List Byte)
  /-- ATS_INVALIDATE (R384). A host invalidation completes after old translations are drained. -/
  | atsInvalidate (port : Bool) (lo : Nat) (hi : Nat)
  /-- ATTESTATION_REQUEST (R429). An attestation request is answered or refused after a level-3 alarm. -/
  | attestationRequest (port : Bool)
  /-- FUNCTION_LEVEL_RESET (R396). A Function Level Reset revokes the bound context and unbinds the function. -/
  | functionLevelReset (port : Bool) (function : BitVec 6)
  /-- POWER_GRANT_STEP (R430). At each tick boundary the controller sets grant steps and the clock. -/
  | powerGrantStep (draw : Nat) (hottest : Nat) (coolest : Nat) (hotCores : List Nat)
  /-- SECURITY_ALARM (R429). A sensor alarm acts at its manifest level. -/
  | securityAlarm (sensor : BitVec 2)
  /-- ALARM_REGISTER_WRITE (R429). Crown firmware clears an alarm through the alarm register. -/
  | alarmRegisterWrite
  /-- DEVICE_RESET (R427). The boot ROM verifies images and starts the crown context or enters recovery. -/
  | deviceReset (firmwareOk : Bool) (flash : FlashManifest)
  /-- RECOVERY_IMAGE_WRITE (R427). A host writes a new image through the recovery mailbox: a manifest, or firmware where there is none. -/
  | recoveryImageWrite (manifest : Option Manifest) (accepted : Bool) (version : BitVec 32)
  /-- SCAN_FREEZE (R420). SCTL command 1 freezes a context subtree. -/
  | scanFreeze
  /-- SCAN_THAW (R420). SCTL command 2 thaws a frozen subtree. -/
  | scanThaw
  /-- SCAN_READ (R420). SCTL command 3 reads 8 bytes of frozen state at SADDR into SDATA. -/
  | scanRead
  /-- SCAN_WRITE (R420). SCTL command 4 writes SDATA into frozen state at SADDR. -/
  | scanWrite
  /-- DEVICE_REGISTER_WRITE (R420). A write to a device register with no behaviour of its own stores its value. -/
  | deviceRegisterWrite (offset : Nat) (value : Word)
  /-- ACCESS_PERFORMED (R311). A memory access issued earlier is performed: load data arrive at the hart, or a store or atomic is performed at the home of its line. -/
  | accessPerformed (hart : Nat) (vector : Bool)
  /-- PROVISIONING_IMAGE (R429). A Golmond-signed provisioning image is accepted under R426 and ends the level-3 refusal of attestation. -/
  | provisioningImage (accepted : Bool) (version : BitVec 32)
  deriving DecidableEq, Repr

end Sys2Proof
end

