-- ==== Sys2Proof/WellFormed.lean ====
section
/-!
DEFINITION. Which instructions the encodings of R34 to R38 admit, field by field. A constructor's field types already
bound its registers (R36); what R38 and the entries refuse beyond that is checked here.
-/
namespace Sys2Proof

/-- The legal VT immediates (R16, R38): rounding 0 to 4, variant 0 or 1, and variant 0 at widths 32 and 64. -/
def vtLegal (b : BitVec 7) : Bool :=
  (b.extractLsb' 0 3).toNat ≤ 4 && (b.extractLsb' 3 2).toNat ≤ 1 &&
    ((b.extractLsb' 5 2).toNat ≤ 1 || b.extractLsb' 3 2 == 0)

/-- The special-register numbers of R56. -/
def srNumbers : List Nat :=
  [0x000, 0x001, 0x002, 0x003, 0x004, 0x005, 0x006, 0x007, 0x008, 0x009, 0x00A, 0x00B,
   0x010, 0x011, 0x012, 0x013, 0x014, 0x015, 0x020, 0x021, 0x022, 0x023, 0x024, 0x025, 0x026,
   0x030, 0x031, 0x032, 0x033, 0x034, 0x035, 0x036, 0x037, 0x038, 0x040, 0x041, 0x042, 0x043]

/-- The registers marked R in both columns of R56: PC, VLMAX, VNREG, ELIX, HARTCRD, CTXID, TICK, CYCLE, SPBASE, VGRANTCAP. -/
def srReadOnly : List Nat := [0x000, 0x005, 0x006, 0x007, 0x030, 0x031, 0x032, 0x033, 0x035, 0x037]

/-- A number that MFS may name (R38). -/
def mfsLegal (n : BitVec 11) : Bool := srNumbers.contains n.toNat

/-- A number that MTS may name (R38). -/
def mtsLegal (n : BitVec 11) : Bool := srNumbers.contains n.toNat && !srReadOnly.contains n.toNat

/-- A scope code with a spelling (R15). -/
def scopeLegal (s : BitVec 3) : Bool := s.toNat ≤ 5

/-- A scope code of PUB and PUBW (R337). -/
def pubScopeLegal (s : BitVec 3) : Bool := 1 ≤ s.toNat && s.toNat ≤ 5

/-- A window base of WINB (R35, R99). -/
def winbLegal (i : BitVec 11) : Bool := i.toNat % 16 == 0 && i.toNat ≤ 384

/-- The selectors of CTXINFO (R394). -/
def ctxinfoLegal (b : BitVec 7) : Bool :=
  b.toNat ≤ 3 || (8 ≤ b.toNat && b.toNat ≤ 14) || (16 ≤ b.toNat && b.toNat ≤ 22)

/-- The immediate of TCVT (R246): a target code of 1 to 5 or 8 to 11, and a rounding mode of 0 to 4. -/
def tcvtLegal (b : BitVec 7) : Bool :=
  (let t := (b.extractLsb' 0 4).toNat; (1 ≤ t && t ≤ 5) || (8 ≤ t && t ≤ 11)) && (b.extractLsb' 4 3).toNat ≤ 4

/-- What the encoding of an instruction refuses beyond its field types (R35, R38, R246, R256, R272, R278, R337, R394).
The events of the table have no encoding and nothing to check. -/
def Instr.wf : Instr → Bool
  | .ld _ _ _ w _ => w != 7
  | .st _ _ _ w _ => w != 7
  | .ldx _ _ _ _ w => w != 7
  | .stx _ _ _ _ w => w != 7
  | .loop _ _ _ o => 1 ≤ o.toNat && o.toNat ≤ 1023
  | .loopi _ _ _ o => o != 0
  | .mfs _ _ n => mfsLegal n
  | .mts _ _ n => mtsLegal n
  | .winb _ i => winbLegal i
  | .fenceMem _ s => scopeLegal s
  | .fenceSc _ s => scopeLegal s
  | .fenceEng _ s => scopeLegal s
  | .vconf _ b => 2 ≤ b.toNat && b.toNat ≤ 6
  | .vsetl _ _ _ b => vtLegal b
  | .cvtF _ _ _ b _ => vtLegal b
  | .cvtFi _ _ _ b _ => vtLegal b
  | .cvtIf _ _ _ b _ => vtLegal b
  | .cvtIi _ _ _ b _ => vtLegal b
  | .tcvt _ _ _ b => tcvtLegal b
  | .sxw _ _ b => b.toNat ≤ 16
  | .sxr _ _ b => b.toNat ≤ 16
  | .barr _ s _ => scopeLegal s
  | .barw _ s _ => scopeLegal s
  | .bara _ s _ => scopeLegal s
  | .coord _ _ _ b => b.toNat ≤ 3
  | .pub _ s _ _ => pubScopeLegal s
  | .pubw _ _ _ s => pubScopeLegal s
  | .ctxinfo _ _ _ b => ctxinfoLegal b
  | _ => true

end Sys2Proof
end

