-- ==== Sys2Proof/Decode.lean ====
section
/-!
DEFINITION. Decoding (R32 to R38): total on every word and every byte list, refusing by name; then the encoder, written
from the same tables, and decodeTableWord for the rows of spec/opcode_table.json.
-/
namespace Sys2Proof

/-- Why a word is no instruction (R38). -/
inductive IllegalWord where
  /-- Major 00 (R37). -/
  | major
  /-- A reserved minor, kind, FENCE kind or LDX/STX width (R37). -/
  | minor
  /-- A nonzero class-0 field, or nonzero high bits of an m, t or packed field (R36). -/
  | fieldClass
  /-- Width code 7 of an M-format word. -/
  | width
  /-- A reserved scope code, or a scope a fence does not take. -/
  | scope
  /-- A LOOP or LOOPI end offset or level outside R34 and R35. -/
  | loopEnd
  /-- A WINB immediate that is no multiple of 16 at most 384. -/
  | window
  /-- A VCONF logarithm outside 2 to 6. -/
  | vconf
  /-- A reserved VT immediate of VSETL or of a conversion. -/
  | vectorType
  /-- A special-register number absent from R56, or an MTS of a read-only one. -/
  | specialRegister
  /-- A reserved value of an imm field (R36). -/
  | immediate
  deriving DecidableEq, Repr

/-- Fewer than four bytes stand where an instruction is read. -/
inductive DecodeError where
  | short
  | illegal (why : IllegalWord)
  deriving DecidableEq, Repr

/-! The fields of a word (R33, R34). -/

def Code.e (w : Code) : Bool := w.getLsbD 31
def Code.major (w : Code) : BitVec 6 := w.extractLsb' 25 6
def Code.d (w : Code) : BitVec 7 := w.extractLsb' 18 7
def Code.a (w : Code) : BitVec 7 := w.extractLsb' 11 7
def Code.b (w : Code) : BitVec 7 := w.extractLsb' 4 7
def Code.f (w : Code) : BitVec 4 := w.extractLsb' 0 4
def Code.m (w : Code) : Bool := w.getLsbD 3
def Code.f3 (w : Code) : BitVec 3 := w.extractLsb' 0 3
def Code.imm11 (w : Code) : BitVec 11 := w.extractLsb' 0 11
def Code.imm18 (w : Code) : BitVec 18 := w.extractLsb' 0 18
def Code.off25 (w : Code) : BitVec 25 := w.extractLsb' 0 25
def Code.width (w : Code) : BitVec 3 := w.extractLsb' 8 3
def Code.off8 (w : Code) : BitVec 8 := w.extractLsb' 0 8

/-- A class-0 field (R36). -/
def zeroField (x : BitVec 7) : Except IllegalWord Unit := if x = 0 then .ok () else .error .fieldClass

/-- A class-m field (R36). -/
def maskField (x : BitVec 7) : Except IllegalWord MReg :=
  if x.extractLsb' 4 3 = 0 then .ok (x.extractLsb' 0 4) else .error .fieldClass

/-- A class-t field, or a scope or tag in the low bits of its field (R36, R272, R337). -/
def lowField (x : BitVec 7) : Except IllegalWord (BitVec 3) :=
  if x.extractLsb' 3 4 = 0 then .ok (x.extractLsb' 0 3) else .error .fieldClass

/-! The minors of each major of R37. -/

/-- Major 0x01 (Alu). -/
def decodeAlu (e : Bool) (d a b : BitVec 7) (f : BitVec 4) : Except IllegalWord Instr :=
  match f.toNat with
  | 0 => .ok (.add e d a b)
  | 1 => .ok (.sub e d a b)
  | 2 => .ok (.and e d a b)
  | 3 => .ok (.or e d a b)
  | 4 => .ok (.xor e d a b)
  | 5 => .ok (.andn e d a b)
  | 6 => .ok (.orn e d a b)
  | 7 => .ok (.sll e d a b)
  | 8 => .ok (.srl e d a b)
  | 9 => .ok (.sra e d a b)
  | 10 => .ok (.rol e d a b)
  | 11 => .ok (.ror e d a b)
  | 12 => .ok (.slt e d a b)
  | 13 => .ok (.sltn e d a b)
  | 14 => .ok (.min e d a b)
  | _ => .ok (.max e d a b)

/-- Major 0x02 (Alu2). -/
def decodeAlu2 (e : Bool) (d a b : BitVec 7) (f : BitVec 4) : Except IllegalWord Instr :=
  match f.toNat with
  | 0 => .ok (.minn e d a b)
  | 1 => .ok (.maxn e d a b)
  | 2 => .ok (.mul e d a b)
  | 3 => .ok (.mulh e d a b)
  | 4 => .ok (.mulhn e d a b)
  | 5 => .ok (.div e d a b)
  | 6 => .ok (.divn e d a b)
  | 7 => .ok (.rem e d a b)
  | 8 => .ok (.remn e d a b)
  | 9 => .ok (.addv e d a b)
  | 10 => .ok (.subv e d a b)
  | 11 => .ok (.mulv e d a b)
  | 12 => do zeroField b; .ok (.clz e d a)
  | 13 => do zeroField b; .ok (.ctz e d a)
  | 14 => do zeroField b; .ok (.popc e d a)
  | _ => do zeroField b; .ok (.bswap e d a)

/-- Major 0x07 (SHI): imm[10:9] the minor, imm[8:6] zero, imm[5:0] the amount (R82). -/
def decodeShi (e : Bool) (d a : BitVec 7) (i : BitVec 11) : Except IllegalWord Instr :=
  let s : BitVec 6 := i.extractLsb' 0 6
  if i.extractLsb' 6 3 = 0 then
    match (i.extractLsb' 9 2 : BitVec 2).toNat with
    | 0 => .ok (.slli e d a s)
    | 1 => .ok (.srli e d a s)
    | 2 => .ok (.srai e d a s)
    | _ => .ok (.roli e d a s)
  else .error .fieldClass

/-- Major 0x0F (Xmem). -/
def decodeXmem (e : Bool) (d a b : BitVec 7) (f : BitVec 4) : Except IllegalWord Instr :=
  let w : BitVec 3 := f.extractLsb' 0 3
  if w != 7 then .ok (if f.getLsbD 3 then .stx e d a b w else .ldx e d a b w) else .error .minor

/-- Major 0x18 (Jreg). -/
def decodeJreg (e : Bool) (d a b : BitVec 7) (f : BitVec 4) : Except IllegalWord Instr :=
  match f.toNat with
  | 0 => do zeroField d; zeroField b; .ok (.jr e a)
  | 1 => do zeroField d; zeroField b; .ok (.callr e a)
  | 2 => do zeroField d; zeroField a; zeroField b; .ok (.ret e)
  | _ => .error .minor

/-- Major 0x19 (LOOP): the level in d, the end offset in imm11 (R35, R103). -/
def decodeLoop (e : Bool) (d a : BitVec 7) (o : BitVec 11) : Except IllegalWord Instr :=
  if d.extractLsb' 1 6 = 0 then
    if (decide (1 ≤ o.toNat) && decide (o.toNat ≤ 1023)) then .ok (.loop e (d.getLsbD 0) a o) else .error .loopEnd
  else .error .loopEnd

/-- Major 0x1A (LOOPI), L format (R34, R103). -/
def decodeLoopi (w : Code) : Except IllegalWord Instr :=
  let o : BitVec 12 := w.extractLsb' 0 12
  if o != 0 then .ok (.loopi w.e (w.getLsbD 24) (w.extractLsb' 12 12) o) else .error .loopEnd

/-- Major 0x1E (Sys). -/
def decodeSys (e : Bool) (d a b : BitVec 7) (f : BitVec 4) : Except IllegalWord Instr :=
  match f.toNat with
  | 0 => do zeroField d; zeroField a; zeroField b; .ok (.nop e)
  | 1 => do zeroField d; zeroField a; .ok (.trap e b)
  | 2 => do zeroField d; zeroField a; zeroField b; .ok (.rft e)
  | 3 => do zeroField d; zeroField a; zeroField b; .ok (.wait e)
  | 4 => do zeroField d; zeroField a; zeroField b; .ok (.yield e)
  | 5 => do zeroField d; zeroField a; zeroField b; .ok (.brkpt e)
  | 6 => do zeroField d; zeroField a; zeroField b; .ok (.halt e)
  | _ => .error .minor

/-- Major 0x1F (Alu3). -/
def decodeAlu3 (e : Bool) (d a b : BitVec 7) (f : BitVec 4) : Except IllegalWord Instr :=
  match f.toNat with
  | 0 => do zeroField b; .ok (.sext8 e d a)
  | 1 => do zeroField b; .ok (.sext16 e d a)
  | 2 => do zeroField b; .ok (.sext32 e d a)
  | 3 => do zeroField b; .ok (.zext8 e d a)
  | 4 => do zeroField b; .ok (.zext16 e d a)
  | 5 => do zeroField b; .ok (.zext32 e d a)
  | _ => .error .minor

/-- Major 0x20 (AmoRlx). -/
def decodeAmoRlx (e : Bool) (d a b : BitVec 7) (f : BitVec 4) : Except IllegalWord Instr :=
  let s := f.getLsbD 3
  match (f.extractLsb' 0 3 : BitVec 3).toNat with
  | 0 => .ok (.amoswapRlx e d a b s)
  | 1 => .ok (.amoaddRlx e d a b s)
  | 2 => .ok (.amoandRlx e d a b s)
  | 3 => .ok (.amoorRlx e d a b s)
  | 4 => .ok (.amoxorRlx e d a b s)
  | 5 => .ok (.amomaxRlx e d a b s)
  | 6 => .ok (.amominRlx e d a b s)
  | _ => .ok (.amocasRlx e d a b s)

/-- Major 0x21 (AmoAcq). -/
def decodeAmoAcq (e : Bool) (d a b : BitVec 7) (f : BitVec 4) : Except IllegalWord Instr :=
  let s := f.getLsbD 3
  match (f.extractLsb' 0 3 : BitVec 3).toNat with
  | 0 => .ok (.amoswapAcq e d a b s)
  | 1 => .ok (.amoaddAcq e d a b s)
  | 2 => .ok (.amoandAcq e d a b s)
  | 3 => .ok (.amoorAcq e d a b s)
  | 4 => .ok (.amoxorAcq e d a b s)
  | 5 => .ok (.amomaxAcq e d a b s)
  | 6 => .ok (.amominAcq e d a b s)
  | _ => .ok (.amocasAcq e d a b s)

/-- Major 0x22 (AmoRel). -/
def decodeAmoRel (e : Bool) (d a b : BitVec 7) (f : BitVec 4) : Except IllegalWord Instr :=
  let s := f.getLsbD 3
  match (f.extractLsb' 0 3 : BitVec 3).toNat with
  | 0 => .ok (.amoswapRel e d a b s)
  | 1 => .ok (.amoaddRel e d a b s)
  | 2 => .ok (.amoandRel e d a b s)
  | 3 => .ok (.amoorRel e d a b s)
  | 4 => .ok (.amoxorRel e d a b s)
  | 5 => .ok (.amomaxRel e d a b s)
  | 6 => .ok (.amominRel e d a b s)
  | _ => .ok (.amocasRel e d a b s)

/-- Major 0x23 (AmoAr). -/
def decodeAmoAr (e : Bool) (d a b : BitVec 7) (f : BitVec 4) : Except IllegalWord Instr :=
  let s := f.getLsbD 3
  match (f.extractLsb' 0 3 : BitVec 3).toNat with
  | 0 => .ok (.amoswapAr e d a b s)
  | 1 => .ok (.amoaddAr e d a b s)
  | 2 => .ok (.amoandAr e d a b s)
  | 3 => .ok (.amoorAr e d a b s)
  | 4 => .ok (.amoxorAr e d a b s)
  | 5 => .ok (.amomaxAr e d a b s)
  | 6 => .ok (.amominAr e d a b s)
  | _ => .ok (.amocasAr e d a b s)

/-- Major 0x24 (Ordmem). -/
def decodeOrdmem (e : Bool) (d a b : BitVec 7) (f : BitVec 4) : Except IllegalWord Instr :=
  match f.toNat with
  | 0 => do zeroField b; .ok (.ldacq32 e d a)
  | 1 => do zeroField b; .ok (.ldacq64 e d a)
  | 2 => do zeroField b; .ok (.strel32 e d a)
  | 3 => do zeroField b; .ok (.strel64 e d a)
  | 4 => do zeroField d; zeroField b; .ok (.watch e a)
  | 5 => do zeroField d; zeroField a; .ok (.waitw e b)
  | _ => .error .minor

/-- Major 0x25 (FENCE): imm[10:8] the kind, imm[7:3] zero, imm[2:0] the scope (R37, R178, R316). -/
def decodeFence (e : Bool) (d a : BitVec 7) (i : BitVec 11) : Except IllegalWord Instr := do
  zeroField d; zeroField a
  let s : BitVec 3 := i.extractLsb' 0 3
  if i.extractLsb' 3 5 = 0 then
    match (i.extractLsb' 8 3 : BitVec 3).toNat with
    | 0 => if s = 0 then .ok (.fenceSv e) else .error .scope
    | 1 => if s = 0 then .ok (.fenceVs e) else .error .scope
    | 2 => if s = 0 then .ok (.fenceVv e) else .error .scope
    | 3 => if scopeLegal s then .ok (.fenceMem e s) else .error .scope
    | 4 => if scopeLegal s then .ok (.fenceSc e s) else .error .scope
    | 5 => if scopeLegal s then .ok (.fenceEng e s) else .error .scope
    | _ => .error .minor
  else .error .fieldClass

/-- Major 0x26 (Vcfg). -/
def decodeVcfg (e : Bool) (d a b : BitVec 7) (f : BitVec 4) : Except IllegalWord Instr :=
  match f.toNat with
  | 0 => do zeroField d; zeroField a; if (decide (2 ≤ b.toNat) && decide (b.toNat ≤ 6)) then .ok (.vconf e b) else .error .vconf
  | 1 => if vtLegal b then .ok (.vsetl e d a b) else .error .vectorType
  | 2 => do zeroField a; zeroField b; .ok (.vgrant e d)
  | _ => .error .minor

/-- Major 0x27 (Vint). -/
def decodeVint (e : Bool) (d a b : BitVec 7) (m : Bool) (f3 : BitVec 3) : Except IllegalWord Instr :=
  match f3.toNat with
  | 0 => .ok (.vadd e d a b m)
  | 1 => .ok (.vsub e d a b m)
  | 2 => .ok (.vmul e d a b m)
  | 3 => .ok (.vand e d a b m)
  | 4 => .ok (.vor e d a b m)
  | 5 => .ok (.vxor e d a b m)
  | 6 => .ok (.vmin e d a b m)
  | _ => .ok (.vmax e d a b m)

/-- Major 0x28 (Vintx). -/
def decodeVintx (e : Bool) (d a b : BitVec 7) (m : Bool) (f3 : BitVec 3) : Except IllegalWord Instr :=
  match f3.toNat with
  | 0 => .ok (.vaddX e d a b m)
  | 1 => .ok (.vsubX e d a b m)
  | 2 => .ok (.vmulX e d a b m)
  | 3 => .ok (.vandX e d a b m)
  | 4 => .ok (.vorX e d a b m)
  | 5 => .ok (.vxorX e d a b m)
  | 6 => .ok (.vminX e d a b m)
  | _ => .ok (.vmaxX e d a b m)

/-- Major 0x29 (Vint2). -/
def decodeVint2 (e : Bool) (d a b : BitVec 7) (m : Bool) (f3 : BitVec 3) : Except IllegalWord Instr :=
  match f3.toNat with
  | 0 => .ok (.vsll e d a b m)
  | 1 => .ok (.vsrl e d a b m)
  | 2 => .ok (.vsra e d a b m)
  | 3 => .ok (.vmulh e d a b m)
  | 4 => .ok (.vdiv e d a b m)
  | 5 => .ok (.vrem e d a b m)
  | 6 => .ok (.vaddsat e d a b m)
  | _ => .ok (.vsubsat e d a b m)

/-- Major 0x2A (Vint3). -/
def decodeVint3 (e : Bool) (d a b : BitVec 7) (m : Bool) (f3 : BitVec 3) : Except IllegalWord Instr :=
  match f3.toNat with
  | 0 => .ok (.vminn e d a b m)
  | 1 => .ok (.vmaxn e d a b m)
  | 2 => .ok (.vmulhn e d a b m)
  | 3 => .ok (.vdivn e d a b m)
  | 4 => .ok (.vremn e d a b m)
  | 5 => do zeroField b; .ok (.vabs e d a m)
  | 6 => .ok (.vmerge e d a b m)
  | _ => do zeroField b; .ok (.vmv e d a m)

/-- Major 0x2B (Vflt). -/
def decodeVflt (e : Bool) (d a b : BitVec 7) (m : Bool) (f3 : BitVec 3) : Except IllegalWord Instr :=
  match f3.toNat with
  | 0 => .ok (.vfadd e d a b m)
  | 1 => .ok (.vfsub e d a b m)
  | 2 => .ok (.vfmul e d a b m)
  | 3 => .ok (.vfdiv e d a b m)
  | 4 => .ok (.vfmin e d a b m)
  | 5 => .ok (.vfmax e d a b m)
  | 6 => .ok (.vfma e d a b m)
  | _ => .ok (.vfnms e d a b m)

/-- Major 0x2C (Vfltx). -/
def decodeVfltx (e : Bool) (d a b : BitVec 7) (m : Bool) (f3 : BitVec 3) : Except IllegalWord Instr :=
  match f3.toNat with
  | 0 => .ok (.vfaddX e d a b m)
  | 1 => .ok (.vfsubX e d a b m)
  | 2 => .ok (.vfmulX e d a b m)
  | 3 => .ok (.vfdivX e d a b m)
  | 4 => .ok (.vfminX e d a b m)
  | 5 => .ok (.vfmaxX e d a b m)
  | 6 => .ok (.vfmaX e d a b m)
  | _ => .ok (.vfnmsX e d a b m)

/-- Major 0x2D (Vfun). -/
def decodeVfun (e : Bool) (d a b : BitVec 7) (m : Bool) (f3 : BitVec 3) : Except IllegalWord Instr :=
  match f3.toNat with
  | 0 => do zeroField b; .ok (.vfsqrt e d a m)
  | 1 => do zeroField b; .ok (.vfabs e d a m)
  | 2 => do zeroField b; .ok (.vfneg e d a m)
  | 3 => do zeroField b; .ok (.vfrcp e d a m)
  | 4 => do zeroField b; .ok (.vfclass e d a m)
  | 5 => .ok (.vfscale e d a b m)
  | 6 => do zeroField b; .ok (.vfexp2 e d a m)
  | _ => do zeroField b; .ok (.vflog2 e d a m)

/-- Major 0x2E (Vcmp). -/
def decodeVcmp (e : Bool) (d a b : BitVec 7) (m : Bool) (f3 : BitVec 3) : Except IllegalWord Instr :=
  match f3.toNat with
  | 0 => do let d ← maskField d; .ok (.vcmpEq e d a b m)
  | 1 => do let d ← maskField d; .ok (.vcmpNe e d a b m)
  | 2 => do let d ← maskField d; .ok (.vcmpLt e d a b m)
  | 3 => do let d ← maskField d; .ok (.vcmpGe e d a b m)
  | 4 => do let d ← maskField d; .ok (.vcmpLtn e d a b m)
  | 5 => do let d ← maskField d; .ok (.vcmpGen e d a b m)
  | 6 => do let d ← maskField d; .ok (.vcmpFlt e d a b m)
  | _ => do let d ← maskField d; .ok (.vcmpFle e d a b m)

/-- Major 0x2F (Vcmpx). -/
def decodeVcmpx (e : Bool) (d a b : BitVec 7) (m : Bool) (f3 : BitVec 3) : Except IllegalWord Instr :=
  match f3.toNat with
  | 0 => do let d ← maskField d; .ok (.vcmpEqX e d a b m)
  | 1 => do let d ← maskField d; .ok (.vcmpNeX e d a b m)
  | 2 => do let d ← maskField d; .ok (.vcmpLtX e d a b m)
  | 3 => do let d ← maskField d; .ok (.vcmpGeX e d a b m)
  | 4 => do let d ← maskField d; .ok (.vcmpLtnX e d a b m)
  | 5 => do let d ← maskField d; .ok (.vcmpGenX e d a b m)
  | 6 => do let d ← maskField d; .ok (.vcmpFltX e d a b m)
  | _ => do let d ← maskField d; .ok (.vcmpFleX e d a b m)

/-- Major 0x30 (Vmask). -/
def decodeVmask (e : Bool) (d a b : BitVec 7) (m : Bool) (f3 : BitVec 3) : Except IllegalWord Instr :=
  match f3.toNat with
  | 0 => do let d ← maskField d; let a ← maskField a; let b ← maskField b; .ok (.mand e d a b m)
  | 1 => do let d ← maskField d; let a ← maskField a; let b ← maskField b; .ok (.mor e d a b m)
  | 2 => do let d ← maskField d; let a ← maskField a; let b ← maskField b; .ok (.mxor e d a b m)
  | 3 => do let d ← maskField d; let a ← maskField a; let b ← maskField b; .ok (.mandn e d a b m)
  | 4 => do let d ← maskField d; let a ← maskField a; zeroField b; .ok (.mnot e d a m)
  | 5 => do let a ← maskField a; zeroField b; .ok (.mfirst e d a m)
  | 6 => do let a ← maskField a; zeroField b; .ok (.mpop e d a m)
  | _ => do let d ← maskField d; zeroField a; zeroField b; .ok (.mset e d m)

/-- Major 0x31 (Vcvt). -/
def decodeVcvt (e : Bool) (d a b : BitVec 7) (m : Bool) (f3 : BitVec 3) : Except IllegalWord Instr :=
  match f3.toNat with
  | 0 => if vtLegal b then .ok (.cvtF e d a b m) else .error .vectorType
  | 1 => if vtLegal b then .ok (.cvtFi e d a b m) else .error .vectorType
  | 2 => if vtLegal b then .ok (.cvtIf e d a b m) else .error .vectorType
  | 3 => if vtLegal b then .ok (.cvtIi e d a b m) else .error .vectorType
  | 4 => do zeroField b; .ok (.vrin e d a m)
  | 5 => do zeroField b; .ok (.vrout e d a m)
  | 6 => .ok (.vradd e d a b m)
  | _ => .ok (.vrmul e d a b m)

/-- Major 0x32 (Vred). -/
def decodeVred (e : Bool) (d a b : BitVec 7) (m : Bool) (f3 : BitVec 3) : Except IllegalWord Instr :=
  match f3.toNat with
  | 0 => do zeroField b; .ok (.vsum e d a m)
  | 1 => do zeroField b; .ok (.vfsumo e d a m)
  | 2 => do zeroField b; .ok (.vfsumt e d a m)
  | 3 => do zeroField b; .ok (.vrmax e d a m)
  | 4 => do zeroField b; .ok (.vrmin e d a m)
  | 5 => do zeroField b; .ok (.vrand e d a m)
  | 6 => do zeroField b; .ok (.vror e d a m)
  | _ => do zeroField b; .ok (.vfrmax e d a m)

/-- Major 0x33 (Vperm). -/
def decodeVperm (e : Bool) (d a b : BitVec 7) (m : Bool) (f3 : BitVec 3) : Except IllegalWord Instr :=
  match f3.toNat with
  | 0 => .ok (.vslup e d a b m)
  | 1 => .ok (.vsldn e d a b m)
  | 2 => do let b ← maskField b; .ok (.vcomp e d a b m)
  | 3 => do let b ← maskField b; .ok (.vexpd e d a b m)
  | 4 => do let a ← maskField a; zeroField b; .ok (.viota e d a m)
  | 5 => do zeroField b; .ok (.vbcast e d a m)
  | 6 => .ok (.vextr e d a b m)
  | _ => .ok (.vrgath e d a b m)

/-- Major 0x34 (Vmem). -/
def decodeVmem (e : Bool) (d a b : BitVec 7) (m : Bool) (f3 : BitVec 3) : Except IllegalWord Instr :=
  match f3.toNat with
  | 0 => do zeroField b; .ok (.vld e d a m)
  | 1 => .ok (.vlds e d a b m)
  | 2 => do zeroField b; .ok (.vst e d a m)
  | 3 => .ok (.vsts e d a b m)
  | 4 => .ok (.vgth e d a b m)
  | 5 => .ok (.vscto e d a b m)
  | 6 => .ok (.vsctu e d a b m)
  | _ => .error .minor

/-- Major 0x35 (Vxit). -/
def decodeVxit (e : Bool) (d a b : BitVec 7) (m : Bool) (f3 : BitVec 3) : Except IllegalWord Instr :=
  match f3.toNat with
  | 0 => do zeroField d; zeroField a; zeroField b; .ok (.vxarm e m)
  | 1 => do zeroField d; let a ← maskField a; zeroField b; .ok (.vxit e a m)
  | 2 => do zeroField d; zeroField a; zeroField b; .ok (.vxclr e m)
  | 3 => do zeroField a; zeroField b; .ok (.vxlen e d m)
  | 4 => do zeroField d; zeroField a; zeroField b; .ok (.vxwait e m)
  | 5 => do zeroField a; zeroField b; .ok (.vxfx e d m)
  | _ => .error .minor

/-- Major 0x36 (XBR): d zero, the kind in [17:11] (R34, R203). -/
def decodeXbr (e : Bool) (d kind : BitVec 7) (o : BitVec 11) : Except IllegalWord Instr := do
  zeroField d
  match kind.toNat with
  | 0 => .ok (.bxany e o)
  | 1 => .ok (.bxnone e o)
  | _ => .error .minor

/-- Major 0x37 (Vseq). -/
noncomputable def decodeVseq (e : Bool) (d a b : BitVec 7) (m : Bool) (f3 : BitVec 3) : Except IllegalWord Instr :=
  match f3.toNat with
  | 0 => .ok (.vseq e d a b m)
  | 1 => .ok (.vrot e d a b m)
  | 2 => .ok (.vrang e d a b m)
  | 3 => do zeroField d; .ok (.vgq e a b m)
  | 4 => do zeroField a; zeroField b; .ok (.vgqpop e d m)
  | 5 => .ok (.seqfork e d a b m)
  | 6 => .ok (.seqmap e d a b m)
  | _ => .error .minor

/-- Major 0x38 (Mtx). -/
noncomputable def decodeMtx (e : Bool) (d a b : BitVec 7) (f : BitVec 4) : Except IllegalWord Instr :=
  match f.toNat with
  | 0 => do zeroField b; .ok (.tconf e d a)
  | 1 => do let d ← lowField d; zeroField b; .ok (.tshape e d a)
  | 2 => do let d ← lowField d; zeroField a; zeroField b; .ok (.tzero e d)
  | 3 => do let d ← lowField d; .ok (.tld e d a b)
  | 4 => do let d ← lowField d; .ok (.tst e d a b)
  | 5 => do let d ← lowField d; .ok (.mrowin e d a b)
  | 6 => do let a ← lowField a; .ok (.mrowout e d a b)
  | 7 => do let d ← lowField d; .ok (.mcolin e d a b)
  | 8 => do let a ← lowField a; .ok (.mcolout e d a b)
  | 9 => do let d ← lowField d; zeroField b; .ok (.tsave e d a)
  | 10 => do let d ← lowField d; zeroField b; .ok (.trst e d a)
  | 11 => do zeroField a; zeroField b; .ok (.tdirty e d)
  | 12 => do let d ← lowField d; let a ← lowField a; if tcvtLegal b then .ok (.tcvt e d a b) else .error .immediate
  | _ => .error .minor

/-- Major 0x39 (Mmul). -/
noncomputable def decodeMmul (e : Bool) (d a b : BitVec 7) (f : BitVec 4) : Except IllegalWord Instr :=
  let c : TReg := d.extractLsb' 4 3
  let s : TReg := d.extractLsb' 0 3
  match f.toNat with
  | 0 => if d.getLsbD 3 then .error .fieldClass else .ok (.mrwO e c s a b)
  | 1 => if d.getLsbD 3 then .error .fieldClass else .ok (.mrwF e c s a b)
  | 2 => if d.getLsbD 3 then .error .fieldClass else .ok (.mrsO e c s a b)
  | 3 => if d.getLsbD 3 then .error .fieldClass else .ok (.mrsF e c s a b)
  | 4 => if d.getLsbD 3 then .error .fieldClass else .ok (.mrwi e c s a b)
  | _ => .error .minor

/-- Major 0x3A (Strm). -/
noncomputable def decodeStrm (e : Bool) (d a b : BitVec 7) (f : BitVec 4) : Except IllegalWord Instr :=
  match f.toNat with
  | 0 => do zeroField d; if decide (b.toNat ≤ 16) then .ok (.sxw e a b) else .error .immediate
  | 1 => do zeroField a; if decide (b.toNat ≤ 16) then .ok (.sxr e d b) else .error .immediate
  | 2 => do zeroField b; .ok (.sxgo e d a)
  | 3 => do zeroField b; .ok (.sxgom e d a)
  | 4 => do zeroField d; zeroField b; .ok (.sxabt e a)
  | 5 => do zeroField b; .ok (.sxstat e d a)
  | _ => .error .minor

/-- Major 0x3B (Clus). -/
noncomputable def decodeClus (e : Bool) (d a b : BitVec 7) (f : BitVec 4) : Except IllegalWord Instr :=
  match f.toNat with
  | 0 => do zeroField d; let s ← lowField a; let t ← lowField b; if scopeLegal s then .ok (.barr e s t) else .error .scope
  | 1 => do zeroField d; let s ← lowField a; let t ← lowField b; if scopeLegal s then .ok (.barw e s t) else .error .scope
  | 2 => do zeroField d; let s ← lowField a; let t ← lowField b; if scopeLegal s then .ok (.bara e s t) else .error .scope
  | 3 => do zeroField b; .ok (.tron e d a)
  | 4 => do zeroField b; .ok (.troff e d a)
  | 5 => do zeroField b; .ok (.samp e d a)
  | 6 => if decide (b.toNat ≤ 3) then .ok (.coord e d a b) else .error .immediate
  | _ => .error .minor

/-- Major 0x3C (Gram). -/
noncomputable def decodeGram (e : Bool) (d a b : BitVec 7) (f : BitVec 4) : Except IllegalWord Instr :=
  match f.toNat with
  | 0 => do zeroField d; zeroField b; .ok (.grbind e a)
  | 1 => .ok (.grstep e d a b)
  | 2 => if b = 0 then do let d ← maskField d; .ok (.grmaskM e d a)
         else if b = 1 then .ok (.grmaskV e d a) else .error .immediate
  | 3 => do zeroField a; zeroField b; .ok (.grforce e d)
  | 4 => do zeroField d; zeroField b; .ok (.grsave e a)
  | 5 => do zeroField d; zeroField b; .ok (.grload e a)
  | 6 => do zeroField d; zeroField a; zeroField b; .ok (.grreset e)
  | _ => .error .minor

/-- Major 0x3D (Publ). -/
noncomputable def decodePubl (e : Bool) (d a b : BitVec 7) (f : BitVec 4) : Except IllegalWord Instr :=
  match f.toNat with
  | 0 => .ok (.objnew e d a b)
  | 1 => do zeroField b; .ok (.tagst e d a)
  | 2 => do zeroField b; .ok (.tagld e d a)
  | 3 => do let s ← lowField d; if pubScopeLegal s then .ok (.pub e s a b) else .error .scope
  | 4 => do let s ← lowField b; if pubScopeLegal s then .ok (.pubw e d a s) else .error .scope
  | 5 => do zeroField b; .ok (.objprb e d a)
  | 6 => do zeroField d; zeroField b; .ok (.tagclr e a)
  | 7 => do zeroField d; zeroField b; .ok (.objfree e a)
  | _ => .error .minor

/-- Major 0x3E (Ctx). -/
noncomputable def decodeCtx (e : Bool) (d a b : BitVec 7) (f : BitVec 4) : Except IllegalWord Instr :=
  match f.toNat with
  | 0 => do zeroField b; .ok (.ctxnew e d a)
  | 1 => do zeroField d; .ok (.ctxgrant e a b)
  | 2 => do zeroField d; zeroField b; .ok (.ctxrevoke e a)
  | 3 => do zeroField d; .ok (.ctxrun e a b)
  | 4 => if ctxinfoLegal b then .ok (.ctxinfo e d a b) else .error .immediate
  | 5 => do zeroField d; .ok (.trapup e a b)
  | 6 => .ok (.launch e d a b)
  | 7 => .ok (.lwait e d a b)
  | 8 => .ok (.lprio e d a b)
  | _ => .error .minor

/-- Major 0x3F (Coll). -/
noncomputable def decodeColl (e : Bool) (d a b : BitVec 7) (f : BitVec 4) : Except IllegalWord Instr :=
  match f.toNat with
  | 0 => do zeroField b; .ok (.colr e d a)
  | 1 => do zeroField b; .ok (.colg e d a)
  | 2 => do zeroField b; .ok (.cols e d a)
  | 3 => do zeroField b; .ok (.colb e d a)
  | 4 => .ok (.colw e d a b)
  | 5 => do zeroField d; zeroField b; .ok (.cola e a)
  | _ => .error .minor

/-- The instruction a word encodes (R37, R38). -/
noncomputable def decodeWord (w : Code) : Except IllegalWord Instr :=
  match w.major.toNat with
  | 0 => .error .major
  | 0x01 => decodeAlu w.e w.d w.a w.b w.f
  | 0x02 => decodeAlu2 w.e w.d w.a w.b w.f
  | 0x03 => .ok (.addi w.e w.d w.a w.imm11)
  | 0x04 => .ok (.andi w.e w.d w.a w.imm11)
  | 0x05 => .ok (.ori w.e w.d w.a w.imm11)
  | 0x06 => .ok (.xori w.e w.d w.a w.imm11)
  | 0x07 => decodeShi w.e w.d w.a w.imm11
  | 0x08 => .ok (.slti w.e w.d w.a w.imm11)
  | 0x09 => .ok (.sltni w.e w.d w.a w.imm11)
  | 0x0A => .ok (.lim w.e w.d w.imm18)
  | 0x0B => .ok (.lihi w.e w.d w.imm18)
  | 0x0C => .ok (.addpc w.e w.d w.imm18)
  | 0x0D => if w.width != 7 then .ok (.ld w.e w.d w.a w.width w.off8) else .error .width
  | 0x0E => if w.width != 7 then .ok (.st w.e w.d w.a w.width w.off8) else .error .width
  | 0x0F => decodeXmem w.e w.d w.a w.b w.f
  | 0x10 => .ok (.beq w.e w.d w.a w.imm11)
  | 0x11 => .ok (.bne w.e w.d w.a w.imm11)
  | 0x12 => .ok (.blt w.e w.d w.a w.imm11)
  | 0x13 => .ok (.bge w.e w.d w.a w.imm11)
  | 0x14 => .ok (.bltn w.e w.d w.a w.imm11)
  | 0x15 => .ok (.bgen w.e w.d w.a w.imm11)
  | 0x16 => .ok (.jmp w.e w.off25)
  | 0x17 => .ok (.call w.e w.off25)
  | 0x18 => decodeJreg w.e w.d w.a w.b w.f
  | 0x19 => decodeLoop w.e w.d w.a w.imm11
  | 0x1A => decodeLoopi w
  | 0x1B => do zeroField w.a; if mfsLegal w.imm11 then .ok (.mfs w.e w.d w.imm11) else .error .specialRegister
  | 0x1C => do zeroField w.d; if mtsLegal w.imm11 then .ok (.mts w.e w.a w.imm11) else .error .specialRegister
  | 0x1D => do zeroField w.d; zeroField w.a; if winbLegal w.imm11 then .ok (.winb w.e w.imm11) else .error .window
  | 0x1E => decodeSys w.e w.d w.a w.b w.f
  | 0x1F => decodeAlu3 w.e w.d w.a w.b w.f
  | 0x20 => decodeAmoRlx w.e w.d w.a w.b w.f
  | 0x21 => decodeAmoAcq w.e w.d w.a w.b w.f
  | 0x22 => decodeAmoRel w.e w.d w.a w.b w.f
  | 0x23 => decodeAmoAr w.e w.d w.a w.b w.f
  | 0x24 => decodeOrdmem w.e w.d w.a w.b w.f
  | 0x25 => decodeFence w.e w.d w.a w.imm11
  | 0x26 => decodeVcfg w.e w.d w.a w.b w.f
  | 0x27 => decodeVint w.e w.d w.a w.b w.m w.f3
  | 0x28 => decodeVintx w.e w.d w.a w.b w.m w.f3
  | 0x29 => decodeVint2 w.e w.d w.a w.b w.m w.f3
  | 0x2A => decodeVint3 w.e w.d w.a w.b w.m w.f3
  | 0x2B => decodeVflt w.e w.d w.a w.b w.m w.f3
  | 0x2C => decodeVfltx w.e w.d w.a w.b w.m w.f3
  | 0x2D => decodeVfun w.e w.d w.a w.b w.m w.f3
  | 0x2E => decodeVcmp w.e w.d w.a w.b w.m w.f3
  | 0x2F => decodeVcmpx w.e w.d w.a w.b w.m w.f3
  | 0x30 => decodeVmask w.e w.d w.a w.b w.m w.f3
  | 0x31 => decodeVcvt w.e w.d w.a w.b w.m w.f3
  | 0x32 => decodeVred w.e w.d w.a w.b w.m w.f3
  | 0x33 => decodeVperm w.e w.d w.a w.b w.m w.f3
  | 0x34 => decodeVmem w.e w.d w.a w.b w.m w.f3
  | 0x35 => decodeVxit w.e w.d w.a w.b w.m w.f3
  | 0x36 => decodeXbr w.e w.d w.a w.imm11
  | 0x37 => decodeVseq w.e w.d w.a w.b w.m w.f3
  | 0x38 => decodeMtx w.e w.d w.a w.b w.f
  | 0x39 => decodeMmul w.e w.d w.a w.b w.f
  | 0x3A => decodeStrm w.e w.d w.a w.b w.f
  | 0x3B => decodeClus w.e w.d w.a w.b w.f
  | 0x3C => decodeGram w.e w.d w.a w.b w.f
  | 0x3D => decodePubl w.e w.d w.a w.b w.f
  | 0x3E => decodeCtx w.e w.d w.a w.b w.f
  | _ => decodeColl w.e w.d w.a w.b w.f

/-- The little-endian word at the head of a byte list (R32). -/
def leWord (b0 b1 b2 b3 : Byte) : Code := b3 ++ b2 ++ b1 ++ b0

/-- The instruction at the head of a byte list and the bytes after it (R32). -/
noncomputable def decode : List Byte → Except DecodeError (Instr × List Byte)
  | b0 :: b1 :: b2 :: b3 :: rest =>
    match decodeWord (leWord b0 b1 b2 b3) with
    | .ok i => .ok (i, rest)
    | .error r => .error (.illegal r)
  | _ => .error .short

/-! The encoder, format by format (R33, R34). -/

def encR (e : Bool) (major : BitVec 6) (d a b : BitVec 7) (f : BitVec 4) : Code := BitVec.ofBool e ++ major ++ d ++ a ++ b ++ f
def encV (e : Bool) (major : BitVec 6) (d a b : BitVec 7) (m : Bool) (f3 : BitVec 3) : Code :=
  BitVec.ofBool e ++ major ++ d ++ a ++ b ++ BitVec.ofBool m ++ f3
def encI (e : Bool) (major : BitVec 6) (d a : BitVec 7) (i : BitVec 11) : Code := BitVec.ofBool e ++ major ++ d ++ a ++ i
def encW (e : Bool) (major : BitVec 6) (d : BitVec 7) (i : BitVec 18) : Code := BitVec.ofBool e ++ major ++ d ++ i
def encM (e : Bool) (major : BitVec 6) (d a : BitVec 7) (w : BitVec 3) (o : BitVec 8) : Code := BitVec.ofBool e ++ major ++ d ++ a ++ w ++ o
def encJ (e : Bool) (major : BitVec 6) (o : BitVec 25) : Code := BitVec.ofBool e ++ major ++ o
def encL (e : Bool) (major : BitVec 6) (l : Bool) (c : BitVec 12) (o : BitVec 12) : Code := BitVec.ofBool e ++ major ++ BitVec.ofBool l ++ c ++ o

/-- A mask register, or a tile, scope or tag, in a seven-bit field with its high bits zero (R36). -/
def ofMask (x : MReg) : BitVec 7 := (0 : BitVec 3) ++ x
def ofLow (x : BitVec 3) : BitVec 7 := (0 : BitVec 4) ++ x

/-- The word of an instruction; an event of the table has none. -/
def encode : Instr → Option Code
  | .add e d a b => some (encR e 0x01 d a b 0)
  | .sub e d a b => some (encR e 0x01 d a b 1)
  | .and e d a b => some (encR e 0x01 d a b 2)
  | .or e d a b => some (encR e 0x01 d a b 3)
  | .xor e d a b => some (encR e 0x01 d a b 4)
  | .andn e d a b => some (encR e 0x01 d a b 5)
  | .orn e d a b => some (encR e 0x01 d a b 6)
  | .sll e d a b => some (encR e 0x01 d a b 7)
  | .srl e d a b => some (encR e 0x01 d a b 8)
  | .sra e d a b => some (encR e 0x01 d a b 9)
  | .rol e d a b => some (encR e 0x01 d a b 10)
  | .ror e d a b => some (encR e 0x01 d a b 11)
  | .slt e d a b => some (encR e 0x01 d a b 12)
  | .sltn e d a b => some (encR e 0x01 d a b 13)
  | .min e d a b => some (encR e 0x01 d a b 14)
  | .max e d a b => some (encR e 0x01 d a b 15)
  | .minn e d a b => some (encR e 0x02 d a b 0)
  | .maxn e d a b => some (encR e 0x02 d a b 1)
  | .mul e d a b => some (encR e 0x02 d a b 2)
  | .mulh e d a b => some (encR e 0x02 d a b 3)
  | .mulhn e d a b => some (encR e 0x02 d a b 4)
  | .div e d a b => some (encR e 0x02 d a b 5)
  | .divn e d a b => some (encR e 0x02 d a b 6)
  | .rem e d a b => some (encR e 0x02 d a b 7)
  | .remn e d a b => some (encR e 0x02 d a b 8)
  | .addv e d a b => some (encR e 0x02 d a b 9)
  | .subv e d a b => some (encR e 0x02 d a b 10)
  | .mulv e d a b => some (encR e 0x02 d a b 11)
  | .clz e d a => some (encR e 0x02 d a 0 12)
  | .ctz e d a => some (encR e 0x02 d a 0 13)
  | .popc e d a => some (encR e 0x02 d a 0 14)
  | .bswap e d a => some (encR e 0x02 d a 0 15)
  | .sext8 e d a => some (encR e 0x1F d a 0 0)
  | .sext16 e d a => some (encR e 0x1F d a 0 1)
  | .sext32 e d a => some (encR e 0x1F d a 0 2)
  | .zext8 e d a => some (encR e 0x1F d a 0 3)
  | .zext16 e d a => some (encR e 0x1F d a 0 4)
  | .zext32 e d a => some (encR e 0x1F d a 0 5)
  | .addi e d a i => some (encI e 0x03 d a i)
  | .andi e d a i => some (encI e 0x04 d a i)
  | .ori e d a i => some (encI e 0x05 d a i)
  | .xori e d a i => some (encI e 0x06 d a i)
  | .slti e d a i => some (encI e 0x08 d a i)
  | .sltni e d a i => some (encI e 0x09 d a i)
  | .slli e d a s => some (encI e 0x07 d a ((0 : BitVec 2) ++ (0 : BitVec 3) ++ s))
  | .srli e d a s => some (encI e 0x07 d a ((1 : BitVec 2) ++ (0 : BitVec 3) ++ s))
  | .srai e d a s => some (encI e 0x07 d a ((2 : BitVec 2) ++ (0 : BitVec 3) ++ s))
  | .roli e d a s => some (encI e 0x07 d a ((3 : BitVec 2) ++ (0 : BitVec 3) ++ s))
  | .lim e d i => some (encW e 0x0A d i)
  | .lihi e d i => some (encW e 0x0B d i)
  | .addpc e d i => some (encW e 0x0C d i)
  | .ld e d a w o => some (encM e 0x0D d a w o)
  | .st e d a w o => some (encM e 0x0E d a w o)
  | .ldx e d a b w => some (encR e 0x0F d a b ((0 : BitVec 1) ++ w))
  | .stx e d a b w => some (encR e 0x0F d a b ((1 : BitVec 1) ++ w))
  | .beq e a b o => some (encI e 0x10 a b o)
  | .bne e a b o => some (encI e 0x11 a b o)
  | .blt e a b o => some (encI e 0x12 a b o)
  | .bge e a b o => some (encI e 0x13 a b o)
  | .bltn e a b o => some (encI e 0x14 a b o)
  | .bgen e a b o => some (encI e 0x15 a b o)
  | .jmp e o => some (encJ e 0x16 o)
  | .call e o => some (encJ e 0x17 o)
  | .jr e a => some (encR e 0x18 0 a 0 0)
  | .callr e a => some (encR e 0x18 0 a 0 1)
  | .ret e => some (encR e 0x18 0 0 0 2)
  | .loop e l a o => some (encI e 0x19 ((0 : BitVec 6) ++ BitVec.ofBool l) a o)
  | .loopi e l c o => some (encL e 0x1A l c o)
  | .mfs e d n => some (encI e 0x1B d 0 n)
  | .mts e a n => some (encI e 0x1C 0 a n)
  | .winb e i => some (encI e 0x1D 0 0 i)
  | .nop e => some (encR e 0x1E 0 0 0 0)
  | .trap e c => some (encR e 0x1E 0 0 c 1)
  | .rft e => some (encR e 0x1E 0 0 0 2)
  | .wait e => some (encR e 0x1E 0 0 0 3)
  | .yield e => some (encR e 0x1E 0 0 0 4)
  | .brkpt e => some (encR e 0x1E 0 0 0 5)
  | .halt e => some (encR e 0x1E 0 0 0 6)
  | .amoswapRlx e d a b s => some (encR e 0x20 d a b (BitVec.ofBool s ++ (0 : BitVec 3)))
  | .amoaddRlx e d a b s => some (encR e 0x20 d a b (BitVec.ofBool s ++ (1 : BitVec 3)))
  | .amoandRlx e d a b s => some (encR e 0x20 d a b (BitVec.ofBool s ++ (2 : BitVec 3)))
  | .amoorRlx e d a b s => some (encR e 0x20 d a b (BitVec.ofBool s ++ (3 : BitVec 3)))
  | .amoxorRlx e d a b s => some (encR e 0x20 d a b (BitVec.ofBool s ++ (4 : BitVec 3)))
  | .amomaxRlx e d a b s => some (encR e 0x20 d a b (BitVec.ofBool s ++ (5 : BitVec 3)))
  | .amominRlx e d a b s => some (encR e 0x20 d a b (BitVec.ofBool s ++ (6 : BitVec 3)))
  | .amocasRlx e d a b s => some (encR e 0x20 d a b (BitVec.ofBool s ++ (7 : BitVec 3)))
  | .amoswapAcq e d a b s => some (encR e 0x21 d a b (BitVec.ofBool s ++ (0 : BitVec 3)))
  | .amoaddAcq e d a b s => some (encR e 0x21 d a b (BitVec.ofBool s ++ (1 : BitVec 3)))
  | .amoandAcq e d a b s => some (encR e 0x21 d a b (BitVec.ofBool s ++ (2 : BitVec 3)))
  | .amoorAcq e d a b s => some (encR e 0x21 d a b (BitVec.ofBool s ++ (3 : BitVec 3)))
  | .amoxorAcq e d a b s => some (encR e 0x21 d a b (BitVec.ofBool s ++ (4 : BitVec 3)))
  | .amomaxAcq e d a b s => some (encR e 0x21 d a b (BitVec.ofBool s ++ (5 : BitVec 3)))
  | .amominAcq e d a b s => some (encR e 0x21 d a b (BitVec.ofBool s ++ (6 : BitVec 3)))
  | .amocasAcq e d a b s => some (encR e 0x21 d a b (BitVec.ofBool s ++ (7 : BitVec 3)))
  | .amoswapRel e d a b s => some (encR e 0x22 d a b (BitVec.ofBool s ++ (0 : BitVec 3)))
  | .amoaddRel e d a b s => some (encR e 0x22 d a b (BitVec.ofBool s ++ (1 : BitVec 3)))
  | .amoandRel e d a b s => some (encR e 0x22 d a b (BitVec.ofBool s ++ (2 : BitVec 3)))
  | .amoorRel e d a b s => some (encR e 0x22 d a b (BitVec.ofBool s ++ (3 : BitVec 3)))
  | .amoxorRel e d a b s => some (encR e 0x22 d a b (BitVec.ofBool s ++ (4 : BitVec 3)))
  | .amomaxRel e d a b s => some (encR e 0x22 d a b (BitVec.ofBool s ++ (5 : BitVec 3)))
  | .amominRel e d a b s => some (encR e 0x22 d a b (BitVec.ofBool s ++ (6 : BitVec 3)))
  | .amocasRel e d a b s => some (encR e 0x22 d a b (BitVec.ofBool s ++ (7 : BitVec 3)))
  | .amoswapAr e d a b s => some (encR e 0x23 d a b (BitVec.ofBool s ++ (0 : BitVec 3)))
  | .amoaddAr e d a b s => some (encR e 0x23 d a b (BitVec.ofBool s ++ (1 : BitVec 3)))
  | .amoandAr e d a b s => some (encR e 0x23 d a b (BitVec.ofBool s ++ (2 : BitVec 3)))
  | .amoorAr e d a b s => some (encR e 0x23 d a b (BitVec.ofBool s ++ (3 : BitVec 3)))
  | .amoxorAr e d a b s => some (encR e 0x23 d a b (BitVec.ofBool s ++ (4 : BitVec 3)))
  | .amomaxAr e d a b s => some (encR e 0x23 d a b (BitVec.ofBool s ++ (5 : BitVec 3)))
  | .amominAr e d a b s => some (encR e 0x23 d a b (BitVec.ofBool s ++ (6 : BitVec 3)))
  | .amocasAr e d a b s => some (encR e 0x23 d a b (BitVec.ofBool s ++ (7 : BitVec 3)))
  | .ldacq32 e d a => some (encR e 0x24 d a 0 0)
  | .ldacq64 e d a => some (encR e 0x24 d a 0 1)
  | .strel32 e d a => some (encR e 0x24 d a 0 2)
  | .strel64 e d a => some (encR e 0x24 d a 0 3)
  | .watch e a => some (encR e 0x24 0 a 0 4)
  | .waitw e b => some (encR e 0x24 0 0 b 5)
  | .fenceSv e => some (encI e 0x25 0 0 ((0 : BitVec 3) ++ (0 : BitVec 5) ++ (0 : BitVec 3)))
  | .fenceVs e => some (encI e 0x25 0 0 ((1 : BitVec 3) ++ (0 : BitVec 5) ++ (0 : BitVec 3)))
  | .fenceVv e => some (encI e 0x25 0 0 ((2 : BitVec 3) ++ (0 : BitVec 5) ++ (0 : BitVec 3)))
  | .fenceMem e s => some (encI e 0x25 0 0 ((3 : BitVec 3) ++ (0 : BitVec 5) ++ s))
  | .fenceSc e s => some (encI e 0x25 0 0 ((4 : BitVec 3) ++ (0 : BitVec 5) ++ s))
  | .fenceEng e s => some (encI e 0x25 0 0 ((5 : BitVec 3) ++ (0 : BitVec 5) ++ s))
  | .vconf e b => some (encR e 0x26 0 0 b 0)
  | .vsetl e d a b => some (encR e 0x26 d a b 1)
  | .vgrant e d => some (encR e 0x26 d 0 0 2)
  | .vadd e d a b m => some (encV e 0x27 d a b m 0)
  | .vsub e d a b m => some (encV e 0x27 d a b m 1)
  | .vmul e d a b m => some (encV e 0x27 d a b m 2)
  | .vand e d a b m => some (encV e 0x27 d a b m 3)
  | .vor e d a b m => some (encV e 0x27 d a b m 4)
  | .vxor e d a b m => some (encV e 0x27 d a b m 5)
  | .vmin e d a b m => some (encV e 0x27 d a b m 6)
  | .vmax e d a b m => some (encV e 0x27 d a b m 7)
  | .vaddX e d a b m => some (encV e 0x28 d a b m 0)
  | .vsubX e d a b m => some (encV e 0x28 d a b m 1)
  | .vmulX e d a b m => some (encV e 0x28 d a b m 2)
  | .vandX e d a b m => some (encV e 0x28 d a b m 3)
  | .vorX e d a b m => some (encV e 0x28 d a b m 4)
  | .vxorX e d a b m => some (encV e 0x28 d a b m 5)
  | .vminX e d a b m => some (encV e 0x28 d a b m 6)
  | .vmaxX e d a b m => some (encV e 0x28 d a b m 7)
  | .vsll e d a b m => some (encV e 0x29 d a b m 0)
  | .vsrl e d a b m => some (encV e 0x29 d a b m 1)
  | .vsra e d a b m => some (encV e 0x29 d a b m 2)
  | .vmulh e d a b m => some (encV e 0x29 d a b m 3)
  | .vdiv e d a b m => some (encV e 0x29 d a b m 4)
  | .vrem e d a b m => some (encV e 0x29 d a b m 5)
  | .vaddsat e d a b m => some (encV e 0x29 d a b m 6)
  | .vsubsat e d a b m => some (encV e 0x29 d a b m 7)
  | .vminn e d a b m => some (encV e 0x2A d a b m 0)
  | .vmaxn e d a b m => some (encV e 0x2A d a b m 1)
  | .vmulhn e d a b m => some (encV e 0x2A d a b m 2)
  | .vdivn e d a b m => some (encV e 0x2A d a b m 3)
  | .vremn e d a b m => some (encV e 0x2A d a b m 4)
  | .vabs e d a m => some (encV e 0x2A d a 0 m 5)
  | .vmerge e d a b m => some (encV e 0x2A d a b m 6)
  | .vmv e d a m => some (encV e 0x2A d a 0 m 7)
  | .vfadd e d a b m => some (encV e 0x2B d a b m 0)
  | .vfsub e d a b m => some (encV e 0x2B d a b m 1)
  | .vfmul e d a b m => some (encV e 0x2B d a b m 2)
  | .vfdiv e d a b m => some (encV e 0x2B d a b m 3)
  | .vfmin e d a b m => some (encV e 0x2B d a b m 4)
  | .vfmax e d a b m => some (encV e 0x2B d a b m 5)
  | .vfma e d a b m => some (encV e 0x2B d a b m 6)
  | .vfnms e d a b m => some (encV e 0x2B d a b m 7)
  | .vfaddX e d a b m => some (encV e 0x2C d a b m 0)
  | .vfsubX e d a b m => some (encV e 0x2C d a b m 1)
  | .vfmulX e d a b m => some (encV e 0x2C d a b m 2)
  | .vfdivX e d a b m => some (encV e 0x2C d a b m 3)
  | .vfminX e d a b m => some (encV e 0x2C d a b m 4)
  | .vfmaxX e d a b m => some (encV e 0x2C d a b m 5)
  | .vfmaX e d a b m => some (encV e 0x2C d a b m 6)
  | .vfnmsX e d a b m => some (encV e 0x2C d a b m 7)
  | .vfsqrt e d a m => some (encV e 0x2D d a 0 m 0)
  | .vfabs e d a m => some (encV e 0x2D d a 0 m 1)
  | .vfneg e d a m => some (encV e 0x2D d a 0 m 2)
  | .vfrcp e d a m => some (encV e 0x2D d a 0 m 3)
  | .vfclass e d a m => some (encV e 0x2D d a 0 m 4)
  | .vfscale e d a b m => some (encV e 0x2D d a b m 5)
  | .vfexp2 e d a m => some (encV e 0x2D d a 0 m 6)
  | .vflog2 e d a m => some (encV e 0x2D d a 0 m 7)
  | .vcmpEq e d a b m => some (encV e 0x2E (ofMask d) a b m 0)
  | .vcmpNe e d a b m => some (encV e 0x2E (ofMask d) a b m 1)
  | .vcmpLt e d a b m => some (encV e 0x2E (ofMask d) a b m 2)
  | .vcmpGe e d a b m => some (encV e 0x2E (ofMask d) a b m 3)
  | .vcmpLtn e d a b m => some (encV e 0x2E (ofMask d) a b m 4)
  | .vcmpGen e d a b m => some (encV e 0x2E (ofMask d) a b m 5)
  | .vcmpFlt e d a b m => some (encV e 0x2E (ofMask d) a b m 6)
  | .vcmpFle e d a b m => some (encV e 0x2E (ofMask d) a b m 7)
  | .vcmpEqX e d a b m => some (encV e 0x2F (ofMask d) a b m 0)
  | .vcmpNeX e d a b m => some (encV e 0x2F (ofMask d) a b m 1)
  | .vcmpLtX e d a b m => some (encV e 0x2F (ofMask d) a b m 2)
  | .vcmpGeX e d a b m => some (encV e 0x2F (ofMask d) a b m 3)
  | .vcmpLtnX e d a b m => some (encV e 0x2F (ofMask d) a b m 4)
  | .vcmpGenX e d a b m => some (encV e 0x2F (ofMask d) a b m 5)
  | .vcmpFltX e d a b m => some (encV e 0x2F (ofMask d) a b m 6)
  | .vcmpFleX e d a b m => some (encV e 0x2F (ofMask d) a b m 7)
  | .mand e d a b m => some (encV e 0x30 (ofMask d) (ofMask a) (ofMask b) m 0)
  | .mor e d a b m => some (encV e 0x30 (ofMask d) (ofMask a) (ofMask b) m 1)
  | .mxor e d a b m => some (encV e 0x30 (ofMask d) (ofMask a) (ofMask b) m 2)
  | .mandn e d a b m => some (encV e 0x30 (ofMask d) (ofMask a) (ofMask b) m 3)
  | .mnot e d a m => some (encV e 0x30 (ofMask d) (ofMask a) 0 m 4)
  | .mfirst e d a m => some (encV e 0x30 d (ofMask a) 0 m 5)
  | .mpop e d a m => some (encV e 0x30 d (ofMask a) 0 m 6)
  | .mset e d m => some (encV e 0x30 (ofMask d) 0 0 m 7)
  | .cvtF e d a b m => some (encV e 0x31 d a b m 0)
  | .cvtFi e d a b m => some (encV e 0x31 d a b m 1)
  | .cvtIf e d a b m => some (encV e 0x31 d a b m 2)
  | .cvtIi e d a b m => some (encV e 0x31 d a b m 3)
  | .vrin e d a m => some (encV e 0x31 d a 0 m 4)
  | .vrout e d a m => some (encV e 0x31 d a 0 m 5)
  | .vradd e d a b m => some (encV e 0x31 d a b m 6)
  | .vrmul e d a b m => some (encV e 0x31 d a b m 7)
  | .vsum e d a m => some (encV e 0x32 d a 0 m 0)
  | .vfsumo e d a m => some (encV e 0x32 d a 0 m 1)
  | .vfsumt e d a m => some (encV e 0x32 d a 0 m 2)
  | .vrmax e d a m => some (encV e 0x32 d a 0 m 3)
  | .vrmin e d a m => some (encV e 0x32 d a 0 m 4)
  | .vrand e d a m => some (encV e 0x32 d a 0 m 5)
  | .vror e d a m => some (encV e 0x32 d a 0 m 6)
  | .vfrmax e d a m => some (encV e 0x32 d a 0 m 7)
  | .vslup e d a b m => some (encV e 0x33 d a b m 0)
  | .vsldn e d a b m => some (encV e 0x33 d a b m 1)
  | .vcomp e d a b m => some (encV e 0x33 d a (ofMask b) m 2)
  | .vexpd e d a b m => some (encV e 0x33 d a (ofMask b) m 3)
  | .viota e d a m => some (encV e 0x33 d (ofMask a) 0 m 4)
  | .vbcast e d a m => some (encV e 0x33 d a 0 m 5)
  | .vextr e d a b m => some (encV e 0x33 d a b m 6)
  | .vrgath e d a b m => some (encV e 0x33 d a b m 7)
  | .vld e d a m => some (encV e 0x34 d a 0 m 0)
  | .vlds e d a b m => some (encV e 0x34 d a b m 1)
  | .vst e d a m => some (encV e 0x34 d a 0 m 2)
  | .vsts e d a b m => some (encV e 0x34 d a b m 3)
  | .vgth e d a b m => some (encV e 0x34 d a b m 4)
  | .vscto e d a b m => some (encV e 0x34 d a b m 5)
  | .vsctu e d a b m => some (encV e 0x34 d a b m 6)
  | .vxarm e m => some (encV e 0x35 0 0 0 m 0)
  | .vxit e a m => some (encV e 0x35 0 (ofMask a) 0 m 1)
  | .vxclr e m => some (encV e 0x35 0 0 0 m 2)
  | .vxlen e d m => some (encV e 0x35 d 0 0 m 3)
  | .vxwait e m => some (encV e 0x35 0 0 0 m 4)
  | .vxfx e d m => some (encV e 0x35 d 0 0 m 5)
  | .bxany e o => some (encI e 0x36 0 0 o)
  | .bxnone e o => some (encI e 0x36 0 1 o)
  | .vseq e d a b m => some (encV e 0x37 d a b m 0)
  | .vrot e d a b m => some (encV e 0x37 d a b m 1)
  | .vrang e d a b m => some (encV e 0x37 d a b m 2)
  | .vgq e a b m => some (encV e 0x37 0 a b m 3)
  | .vgqpop e d m => some (encV e 0x37 d 0 0 m 4)
  | .seqfork e d a b m => some (encV e 0x37 d a b m 5)
  | .seqmap e d a b m => some (encV e 0x37 d a b m 6)
  | .tconf e d a => some (encR e 0x38 d a 0 0)
  | .tshape e d a => some (encR e 0x38 (ofLow d) a 0 1)
  | .tzero e d => some (encR e 0x38 (ofLow d) 0 0 2)
  | .tld e d a b => some (encR e 0x38 (ofLow d) a b 3)
  | .tst e d a b => some (encR e 0x38 (ofLow d) a b 4)
  | .mrowin e d a b => some (encR e 0x38 (ofLow d) a b 5)
  | .mrowout e d a b => some (encR e 0x38 d (ofLow a) b 6)
  | .mcolin e d a b => some (encR e 0x38 (ofLow d) a b 7)
  | .mcolout e d a b => some (encR e 0x38 d (ofLow a) b 8)
  | .tsave e d a => some (encR e 0x38 (ofLow d) a 0 9)
  | .trst e d a => some (encR e 0x38 (ofLow d) a 0 10)
  | .tdirty e d => some (encR e 0x38 d 0 0 11)
  | .tcvt e d a b => some (encR e 0x38 (ofLow d) (ofLow a) b 12)
  | .mrwO e c s a b => some (encR e 0x39 (c ++ (0 : BitVec 1) ++ s) a b 0)
  | .mrwF e c s a b => some (encR e 0x39 (c ++ (0 : BitVec 1) ++ s) a b 1)
  | .mrsO e c s a b => some (encR e 0x39 (c ++ (0 : BitVec 1) ++ s) a b 2)
  | .mrsF e c s a b => some (encR e 0x39 (c ++ (0 : BitVec 1) ++ s) a b 3)
  | .mrwi e c s a b => some (encR e 0x39 (c ++ (0 : BitVec 1) ++ s) a b 4)
  | .sxw e a b => some (encR e 0x3A 0 a b 0)
  | .sxr e d b => some (encR e 0x3A d 0 b 1)
  | .sxgo e d a => some (encR e 0x3A d a 0 2)
  | .sxgom e d a => some (encR e 0x3A d a 0 3)
  | .sxabt e a => some (encR e 0x3A 0 a 0 4)
  | .sxstat e d a => some (encR e 0x3A d a 0 5)
  | .barr e s t => some (encR e 0x3B 0 (ofLow s) (ofLow t) 0)
  | .barw e s t => some (encR e 0x3B 0 (ofLow s) (ofLow t) 1)
  | .bara e s t => some (encR e 0x3B 0 (ofLow s) (ofLow t) 2)
  | .tron e d a => some (encR e 0x3B d a 0 3)
  | .troff e d a => some (encR e 0x3B d a 0 4)
  | .samp e d a => some (encR e 0x3B d a 0 5)
  | .coord e d a b => some (encR e 0x3B d a b 6)
  | .grbind e a => some (encR e 0x3C 0 a 0 0)
  | .grstep e d a b => some (encR e 0x3C d a b 1)
  | .grmaskM e d a => some (encR e 0x3C (ofMask d) a 0 2)
  | .grmaskV e d a => some (encR e 0x3C d a 1 2)
  | .grforce e d => some (encR e 0x3C d 0 0 3)
  | .grsave e a => some (encR e 0x3C 0 a 0 4)
  | .grload e a => some (encR e 0x3C 0 a 0 5)
  | .grreset e => some (encR e 0x3C 0 0 0 6)
  | .objnew e d a b => some (encR e 0x3D d a b 0)
  | .tagst e d a => some (encR e 0x3D d a 0 1)
  | .tagld e d a => some (encR e 0x3D d a 0 2)
  | .pub e s a b => some (encR e 0x3D (ofLow s) a b 3)
  | .pubw e d a s => some (encR e 0x3D d a (ofLow s) 4)
  | .objprb e d a => some (encR e 0x3D d a 0 5)
  | .tagclr e a => some (encR e 0x3D 0 a 0 6)
  | .objfree e a => some (encR e 0x3D 0 a 0 7)
  | .ctxnew e d a => some (encR e 0x3E d a 0 0)
  | .ctxgrant e a b => some (encR e 0x3E 0 a b 1)
  | .ctxrevoke e a => some (encR e 0x3E 0 a 0 2)
  | .ctxrun e a b => some (encR e 0x3E 0 a b 3)
  | .ctxinfo e d a b => some (encR e 0x3E d a b 4)
  | .trapup e a b => some (encR e 0x3E 0 a b 5)
  | .launch e d a b => some (encR e 0x3E d a b 6)
  | .lwait e d a b => some (encR e 0x3E d a b 7)
  | .lprio e d a b => some (encR e 0x3E d a b 8)
  | .colr e d a => some (encR e 0x3F d a 0 0)
  | .colg e d a => some (encR e 0x3F d a 0 1)
  | .cols e d a => some (encR e 0x3F d a 0 2)
  | .colb e d a => some (encR e 0x3F d a 0 3)
  | .colw e d a b => some (encR e 0x3F d a b 4)
  | .cola e a => some (encR e 0x3F 0 a 0 5)
  | .trapEntry _ _ => none
  | .exitTestResolve => none
  | .stripResolve => none
  | .pageRequestAnswer _ => none
  | .pageRequestGroupResponse _ _ => none
  | .pendingPageEntryFree _ => none
  | .launchAccept _ _ => none
  | .crewBind _ _ => none
  | .preemptionComplete _ => none
  | .priorityAging _ => none
  | .homeBiasMove _ => none
  | .hintTimeout _ => none
  | .hartRetire _ => none
  | .launchCompletion _ => none
  | .barrierPhaseComplete _ _ => none
  | .waitwWake _ => none
  | .waitwTimeout _ => none
  | .waitEnd _ => none
  | .lwaitTimeout _ => none
  | .colwTimeout _ => none
  | .fenceScTick _ => none
  | .copyStrip _ _ => none
  | .copyCompletion _ _ => none
  | .mirrorAck _ _ => none
  | .matrixOpPerform _ => none
  | .queuedGatherPerform _ _ => none
  | .sampleRecordWrite _ => none
  | .traceFullStop _ => none
  | .traceDumpComplete _ => none
  | .collectiveChunk _ _ _ => none
  | .readyFlitReceive _ _ _ => none
  | .collectiveComplete _ _ => none
  | .abortFlitReceive _ _ => none
  | .lossFlitReceive _ => none
  | .linkDownTimeout _ => none
  | .linkTrain _ _ => none
  | .flitCrcReplay _ => none
  | .laneFailure _ => none
  | .channelFailure _ _ => none
  | .coreFailure _ _ _ => none
  | .clusterFailure _ _ => none
  | .hostPortTrain _ _ => none
  | .hostRetrainTimeout _ => none
  | .hostAccess _ _ _ _ => none
  | .atsInvalidate _ _ _ => none
  | .attestationRequest _ => none
  | .functionLevelReset _ _ => none
  | .powerGrantStep _ _ _ _ => none
  | .securityAlarm _ => none
  | .alarmRegisterWrite => none
  | .deviceReset _ _ => none
  | .recoveryImageWrite _ _ _ => none
  | .scanFreeze => none
  | .scanThaw => none
  | .scanRead => none
  | .scanWrite => none
  | .deviceRegisterWrite _ _ => none
  | .accessPerformed _ _ => none
  | .provisioningImage _ _ => none

/-- The bytes of an instruction, lowest address first (R32). -/
def encodeBytes (i : Instr) : List Byte :=
  match encode i with
  | some w => [w.extractLsb' 0 8, w.extractLsb' 8 8, w.extractLsb' 16 8, w.extractLsb' 24 8]
  | none => []

/-- The word of an opcode-table row whose bits are `w`, as the machine stores it: four bytes, lowest address first (R32). -/
def tableBytes (w : Nat) : List Byte := [BitVec.ofNat 8 w, BitVec.ofNat 8 (w / 256), BitVec.ofNat 8 (w / 65536), BitVec.ofNat 8 (w / 16777216)]

/-- What the decoder reads from a table word of `nbits` bits, the bits above them zero. -/
noncomputable def decodeTableWord (nbits w : Nat) : Option Instr :=
  match decode (tableBytes (w % 2 ^ nbits)) with
  | .ok (i, _) => some i
  | .error _ => none

end Sys2Proof
end

