-- ==== Sys2Proof/Machine/Members.lean ====
section
/-!
DEFINITION. What each member is to the machine, as tables over the syntax: its convoy class and its end bit (R33, R37, R41), the register
it writes (R43), its v fields and its scalar fields (R36, R264), and the mode it needs (R56).
-/
namespace Sys2Proof.Machine

/-- The convoy classes of R37 and R41. -/
inductive ConvoyClass where
  | m
  | x
  | a
  | d
  | s
  | c
  | o
  deriving DecidableEq, Repr

/-- A register that a member writes, for R43. -/
inductive Written where
  | g (i : GReg)
  | v (i : VReg)
  | m (i : MReg)
  | t (i : TReg)
  | lr
  deriving DecidableEq, Repr

/-- The E bit of an encoded instruction (R33); events have none and end nothing. -/
def endsConvoy : Instr → Bool
  | .add e _ _ _ => e
  | .sub e _ _ _ => e
  | .and e _ _ _ => e
  | .or e _ _ _ => e
  | .xor e _ _ _ => e
  | .andn e _ _ _ => e
  | .orn e _ _ _ => e
  | .sll e _ _ _ => e
  | .srl e _ _ _ => e
  | .sra e _ _ _ => e
  | .rol e _ _ _ => e
  | .ror e _ _ _ => e
  | .slt e _ _ _ => e
  | .sltn e _ _ _ => e
  | .min e _ _ _ => e
  | .max e _ _ _ => e
  | .minn e _ _ _ => e
  | .maxn e _ _ _ => e
  | .mul e _ _ _ => e
  | .mulh e _ _ _ => e
  | .mulhn e _ _ _ => e
  | .div e _ _ _ => e
  | .divn e _ _ _ => e
  | .rem e _ _ _ => e
  | .remn e _ _ _ => e
  | .addv e _ _ _ => e
  | .subv e _ _ _ => e
  | .mulv e _ _ _ => e
  | .clz e _ _ => e
  | .ctz e _ _ => e
  | .popc e _ _ => e
  | .bswap e _ _ => e
  | .sext8 e _ _ => e
  | .sext16 e _ _ => e
  | .sext32 e _ _ => e
  | .zext8 e _ _ => e
  | .zext16 e _ _ => e
  | .zext32 e _ _ => e
  | .addi e _ _ _ => e
  | .andi e _ _ _ => e
  | .ori e _ _ _ => e
  | .xori e _ _ _ => e
  | .slti e _ _ _ => e
  | .sltni e _ _ _ => e
  | .slli e _ _ _ => e
  | .srli e _ _ _ => e
  | .srai e _ _ _ => e
  | .roli e _ _ _ => e
  | .lim e _ _ => e
  | .lihi e _ _ => e
  | .addpc e _ _ => e
  | .ld e _ _ _ _ => e
  | .st e _ _ _ _ => e
  | .ldx e _ _ _ _ => e
  | .stx e _ _ _ _ => e
  | .beq e _ _ _ => e
  | .bne e _ _ _ => e
  | .blt e _ _ _ => e
  | .bge e _ _ _ => e
  | .bltn e _ _ _ => e
  | .bgen e _ _ _ => e
  | .jmp e _ => e
  | .call e _ => e
  | .jr e _ => e
  | .callr e _ => e
  | .ret e => e
  | .loop e _ _ _ => e
  | .loopi e _ _ _ => e
  | .mfs e _ _ => e
  | .mts e _ _ => e
  | .winb e _ => e
  | .nop e => e
  | .trap e _ => e
  | .rft e => e
  | .wait e => e
  | .yield e => e
  | .brkpt e => e
  | .halt e => e
  | .amoswapRlx e _ _ _ _ => e
  | .amoaddRlx e _ _ _ _ => e
  | .amoandRlx e _ _ _ _ => e
  | .amoorRlx e _ _ _ _ => e
  | .amoxorRlx e _ _ _ _ => e
  | .amomaxRlx e _ _ _ _ => e
  | .amominRlx e _ _ _ _ => e
  | .amocasRlx e _ _ _ _ => e
  | .amoswapAcq e _ _ _ _ => e
  | .amoaddAcq e _ _ _ _ => e
  | .amoandAcq e _ _ _ _ => e
  | .amoorAcq e _ _ _ _ => e
  | .amoxorAcq e _ _ _ _ => e
  | .amomaxAcq e _ _ _ _ => e
  | .amominAcq e _ _ _ _ => e
  | .amocasAcq e _ _ _ _ => e
  | .amoswapRel e _ _ _ _ => e
  | .amoaddRel e _ _ _ _ => e
  | .amoandRel e _ _ _ _ => e
  | .amoorRel e _ _ _ _ => e
  | .amoxorRel e _ _ _ _ => e
  | .amomaxRel e _ _ _ _ => e
  | .amominRel e _ _ _ _ => e
  | .amocasRel e _ _ _ _ => e
  | .amoswapAr e _ _ _ _ => e
  | .amoaddAr e _ _ _ _ => e
  | .amoandAr e _ _ _ _ => e
  | .amoorAr e _ _ _ _ => e
  | .amoxorAr e _ _ _ _ => e
  | .amomaxAr e _ _ _ _ => e
  | .amominAr e _ _ _ _ => e
  | .amocasAr e _ _ _ _ => e
  | .ldacq32 e _ _ => e
  | .ldacq64 e _ _ => e
  | .strel32 e _ _ => e
  | .strel64 e _ _ => e
  | .watch e _ => e
  | .waitw e _ => e
  | .fenceSv e => e
  | .fenceVs e => e
  | .fenceVv e => e
  | .fenceMem e _ => e
  | .fenceSc e _ => e
  | .fenceEng e _ => e
  | .vconf e _ => e
  | .vsetl e _ _ _ => e
  | .vgrant e _ => e
  | .vadd e _ _ _ _ => e
  | .vsub e _ _ _ _ => e
  | .vmul e _ _ _ _ => e
  | .vand e _ _ _ _ => e
  | .vor e _ _ _ _ => e
  | .vxor e _ _ _ _ => e
  | .vmin e _ _ _ _ => e
  | .vmax e _ _ _ _ => e
  | .vaddX e _ _ _ _ => e
  | .vsubX e _ _ _ _ => e
  | .vmulX e _ _ _ _ => e
  | .vandX e _ _ _ _ => e
  | .vorX e _ _ _ _ => e
  | .vxorX e _ _ _ _ => e
  | .vminX e _ _ _ _ => e
  | .vmaxX e _ _ _ _ => e
  | .vsll e _ _ _ _ => e
  | .vsrl e _ _ _ _ => e
  | .vsra e _ _ _ _ => e
  | .vmulh e _ _ _ _ => e
  | .vdiv e _ _ _ _ => e
  | .vrem e _ _ _ _ => e
  | .vaddsat e _ _ _ _ => e
  | .vsubsat e _ _ _ _ => e
  | .vminn e _ _ _ _ => e
  | .vmaxn e _ _ _ _ => e
  | .vmulhn e _ _ _ _ => e
  | .vdivn e _ _ _ _ => e
  | .vremn e _ _ _ _ => e
  | .vabs e _ _ _ => e
  | .vmerge e _ _ _ _ => e
  | .vmv e _ _ _ => e
  | .vfadd e _ _ _ _ => e
  | .vfsub e _ _ _ _ => e
  | .vfmul e _ _ _ _ => e
  | .vfdiv e _ _ _ _ => e
  | .vfmin e _ _ _ _ => e
  | .vfmax e _ _ _ _ => e
  | .vfma e _ _ _ _ => e
  | .vfnms e _ _ _ _ => e
  | .vfaddX e _ _ _ _ => e
  | .vfsubX e _ _ _ _ => e
  | .vfmulX e _ _ _ _ => e
  | .vfdivX e _ _ _ _ => e
  | .vfminX e _ _ _ _ => e
  | .vfmaxX e _ _ _ _ => e
  | .vfmaX e _ _ _ _ => e
  | .vfnmsX e _ _ _ _ => e
  | .vfsqrt e _ _ _ => e
  | .vfabs e _ _ _ => e
  | .vfneg e _ _ _ => e
  | .vfrcp e _ _ _ => e
  | .vfclass e _ _ _ => e
  | .vfscale e _ _ _ _ => e
  | .vfexp2 e _ _ _ => e
  | .vflog2 e _ _ _ => e
  | .vcmpEq e _ _ _ _ => e
  | .vcmpNe e _ _ _ _ => e
  | .vcmpLt e _ _ _ _ => e
  | .vcmpGe e _ _ _ _ => e
  | .vcmpLtn e _ _ _ _ => e
  | .vcmpGen e _ _ _ _ => e
  | .vcmpFlt e _ _ _ _ => e
  | .vcmpFle e _ _ _ _ => e
  | .vcmpEqX e _ _ _ _ => e
  | .vcmpNeX e _ _ _ _ => e
  | .vcmpLtX e _ _ _ _ => e
  | .vcmpGeX e _ _ _ _ => e
  | .vcmpLtnX e _ _ _ _ => e
  | .vcmpGenX e _ _ _ _ => e
  | .vcmpFltX e _ _ _ _ => e
  | .vcmpFleX e _ _ _ _ => e
  | .mand e _ _ _ _ => e
  | .mor e _ _ _ _ => e
  | .mxor e _ _ _ _ => e
  | .mandn e _ _ _ _ => e
  | .mnot e _ _ _ => e
  | .mfirst e _ _ _ => e
  | .mpop e _ _ _ => e
  | .mset e _ _ => e
  | .cvtF e _ _ _ _ => e
  | .cvtFi e _ _ _ _ => e
  | .cvtIf e _ _ _ _ => e
  | .cvtIi e _ _ _ _ => e
  | .vrin e _ _ _ => e
  | .vrout e _ _ _ => e
  | .vradd e _ _ _ _ => e
  | .vrmul e _ _ _ _ => e
  | .vsum e _ _ _ => e
  | .vfsumo e _ _ _ => e
  | .vfsumt e _ _ _ => e
  | .vrmax e _ _ _ => e
  | .vrmin e _ _ _ => e
  | .vrand e _ _ _ => e
  | .vror e _ _ _ => e
  | .vfrmax e _ _ _ => e
  | .vslup e _ _ _ _ => e
  | .vsldn e _ _ _ _ => e
  | .vcomp e _ _ _ _ => e
  | .vexpd e _ _ _ _ => e
  | .viota e _ _ _ => e
  | .vbcast e _ _ _ => e
  | .vextr e _ _ _ _ => e
  | .vrgath e _ _ _ _ => e
  | .vld e _ _ _ => e
  | .vlds e _ _ _ _ => e
  | .vst e _ _ _ => e
  | .vsts e _ _ _ _ => e
  | .vgth e _ _ _ _ => e
  | .vscto e _ _ _ _ => e
  | .vsctu e _ _ _ _ => e
  | .vxarm e _ => e
  | .vxit e _ _ => e
  | .vxclr e _ => e
  | .vxlen e _ _ => e
  | .vxwait e _ => e
  | .vxfx e _ _ => e
  | .bxany e _ => e
  | .bxnone e _ => e
  | .vseq e _ _ _ _ => e
  | .vrot e _ _ _ _ => e
  | .vrang e _ _ _ _ => e
  | .vgq e _ _ _ => e
  | .vgqpop e _ _ => e
  | .seqfork e _ _ _ _ => e
  | .seqmap e _ _ _ _ => e
  | .tconf e _ _ => e
  | .tshape e _ _ => e
  | .tzero e _ => e
  | .tld e _ _ _ => e
  | .tst e _ _ _ => e
  | .mrowin e _ _ _ => e
  | .mrowout e _ _ _ => e
  | .mcolin e _ _ _ => e
  | .mcolout e _ _ _ => e
  | .tsave e _ _ => e
  | .trst e _ _ => e
  | .tdirty e _ => e
  | .tcvt e _ _ _ => e
  | .mrwO e _ _ _ _ => e
  | .mrwF e _ _ _ _ => e
  | .mrsO e _ _ _ _ => e
  | .mrsF e _ _ _ _ => e
  | .mrwi e _ _ _ _ => e
  | .sxw e _ _ => e
  | .sxr e _ _ => e
  | .sxgo e _ _ => e
  | .sxgom e _ _ => e
  | .sxabt e _ => e
  | .sxstat e _ _ => e
  | .barr e _ _ => e
  | .barw e _ _ => e
  | .bara e _ _ => e
  | .tron e _ _ => e
  | .troff e _ _ => e
  | .samp e _ _ => e
  | .coord e _ _ _ => e
  | .grbind e _ => e
  | .grstep e _ _ _ => e
  | .grmaskM e _ _ => e
  | .grmaskV e _ _ => e
  | .grforce e _ => e
  | .grsave e _ => e
  | .grload e _ => e
  | .grreset e => e
  | .objnew e _ _ _ => e
  | .tagst e _ _ => e
  | .tagld e _ _ => e
  | .pub e _ _ _ => e
  | .pubw e _ _ _ => e
  | .objprb e _ _ => e
  | .tagclr e _ => e
  | .objfree e _ => e
  | .ctxnew e _ _ => e
  | .ctxgrant e _ _ => e
  | .ctxrevoke e _ => e
  | .ctxrun e _ _ => e
  | .ctxinfo e _ _ _ => e
  | .trapup e _ _ => e
  | .launch e _ _ _ => e
  | .lwait e _ _ _ => e
  | .lprio e _ _ _ => e
  | .colr e _ _ => e
  | .colg e _ _ => e
  | .cols e _ _ => e
  | .colb e _ _ => e
  | .colw e _ _ _ => e
  | .cola e _ => e
  | _ => true

/-- The convoy class of an instruction (R37). -/
def convoyClass : Instr → ConvoyClass
  | .add _ _ _ _ => .s
  | .sub _ _ _ _ => .s
  | .and _ _ _ _ => .s
  | .or _ _ _ _ => .s
  | .xor _ _ _ _ => .s
  | .andn _ _ _ _ => .s
  | .orn _ _ _ _ => .s
  | .sll _ _ _ _ => .s
  | .srl _ _ _ _ => .s
  | .sra _ _ _ _ => .s
  | .rol _ _ _ _ => .s
  | .ror _ _ _ _ => .s
  | .slt _ _ _ _ => .s
  | .sltn _ _ _ _ => .s
  | .min _ _ _ _ => .s
  | .max _ _ _ _ => .s
  | .minn _ _ _ _ => .s
  | .maxn _ _ _ _ => .s
  | .mul _ _ _ _ => .s
  | .mulh _ _ _ _ => .s
  | .mulhn _ _ _ _ => .s
  | .div _ _ _ _ => .s
  | .divn _ _ _ _ => .s
  | .rem _ _ _ _ => .s
  | .remn _ _ _ _ => .s
  | .addv _ _ _ _ => .s
  | .subv _ _ _ _ => .s
  | .mulv _ _ _ _ => .s
  | .clz _ _ _ => .s
  | .ctz _ _ _ => .s
  | .popc _ _ _ => .s
  | .bswap _ _ _ => .s
  | .sext8 _ _ _ => .s
  | .sext16 _ _ _ => .s
  | .sext32 _ _ _ => .s
  | .zext8 _ _ _ => .s
  | .zext16 _ _ _ => .s
  | .zext32 _ _ _ => .s
  | .addi _ _ _ _ => .s
  | .andi _ _ _ _ => .s
  | .ori _ _ _ _ => .s
  | .xori _ _ _ _ => .s
  | .slti _ _ _ _ => .s
  | .sltni _ _ _ _ => .s
  | .slli _ _ _ _ => .s
  | .srli _ _ _ _ => .s
  | .srai _ _ _ _ => .s
  | .roli _ _ _ _ => .s
  | .lim _ _ _ => .s
  | .lihi _ _ _ => .s
  | .addpc _ _ _ => .s
  | .ld _ _ _ _ _ => .s
  | .st _ _ _ _ _ => .s
  | .ldx _ _ _ _ _ => .s
  | .stx _ _ _ _ _ => .s
  | .beq _ _ _ _ => .c
  | .bne _ _ _ _ => .c
  | .blt _ _ _ _ => .c
  | .bge _ _ _ _ => .c
  | .bltn _ _ _ _ => .c
  | .bgen _ _ _ _ => .c
  | .jmp _ _ => .c
  | .call _ _ => .c
  | .jr _ _ => .c
  | .callr _ _ => .c
  | .ret _ => .c
  | .loop _ _ _ _ => .o
  | .loopi _ _ _ _ => .o
  | .mfs _ _ _ => .s
  | .mts _ _ _ => .o
  | .winb _ _ => .o
  | .nop _ => .s
  | .trap _ _ => .o
  | .rft _ => .o
  | .wait _ => .o
  | .yield _ => .o
  | .brkpt _ => .o
  | .halt _ => .o
  | .amoswapRlx _ _ _ _ _ => .o
  | .amoaddRlx _ _ _ _ _ => .o
  | .amoandRlx _ _ _ _ _ => .o
  | .amoorRlx _ _ _ _ _ => .o
  | .amoxorRlx _ _ _ _ _ => .o
  | .amomaxRlx _ _ _ _ _ => .o
  | .amominRlx _ _ _ _ _ => .o
  | .amocasRlx _ _ _ _ _ => .o
  | .amoswapAcq _ _ _ _ _ => .o
  | .amoaddAcq _ _ _ _ _ => .o
  | .amoandAcq _ _ _ _ _ => .o
  | .amoorAcq _ _ _ _ _ => .o
  | .amoxorAcq _ _ _ _ _ => .o
  | .amomaxAcq _ _ _ _ _ => .o
  | .amominAcq _ _ _ _ _ => .o
  | .amocasAcq _ _ _ _ _ => .o
  | .amoswapRel _ _ _ _ _ => .o
  | .amoaddRel _ _ _ _ _ => .o
  | .amoandRel _ _ _ _ _ => .o
  | .amoorRel _ _ _ _ _ => .o
  | .amoxorRel _ _ _ _ _ => .o
  | .amomaxRel _ _ _ _ _ => .o
  | .amominRel _ _ _ _ _ => .o
  | .amocasRel _ _ _ _ _ => .o
  | .amoswapAr _ _ _ _ _ => .o
  | .amoaddAr _ _ _ _ _ => .o
  | .amoandAr _ _ _ _ _ => .o
  | .amoorAr _ _ _ _ _ => .o
  | .amoxorAr _ _ _ _ _ => .o
  | .amomaxAr _ _ _ _ _ => .o
  | .amominAr _ _ _ _ _ => .o
  | .amocasAr _ _ _ _ _ => .o
  | .ldacq32 _ _ _ => .o
  | .ldacq64 _ _ _ => .o
  | .strel32 _ _ _ => .o
  | .strel64 _ _ _ => .o
  | .watch _ _ => .o
  | .waitw _ _ => .o
  | .fenceSv _ => .o
  | .fenceVs _ => .o
  | .fenceVv _ => .o
  | .fenceMem _ _ => .o
  | .fenceSc _ _ => .o
  | .fenceEng _ _ => .o
  | .vconf _ _ => .o
  | .vsetl _ _ _ _ => .o
  | .vgrant _ _ => .s
  | .vadd _ _ _ _ _ => .a
  | .vsub _ _ _ _ _ => .a
  | .vmul _ _ _ _ _ => .a
  | .vand _ _ _ _ _ => .a
  | .vor _ _ _ _ _ => .a
  | .vxor _ _ _ _ _ => .a
  | .vmin _ _ _ _ _ => .a
  | .vmax _ _ _ _ _ => .a
  | .vaddX _ _ _ _ _ => .a
  | .vsubX _ _ _ _ _ => .a
  | .vmulX _ _ _ _ _ => .a
  | .vandX _ _ _ _ _ => .a
  | .vorX _ _ _ _ _ => .a
  | .vxorX _ _ _ _ _ => .a
  | .vminX _ _ _ _ _ => .a
  | .vmaxX _ _ _ _ _ => .a
  | .vsll _ _ _ _ _ => .a
  | .vsrl _ _ _ _ _ => .a
  | .vsra _ _ _ _ _ => .a
  | .vmulh _ _ _ _ _ => .a
  | .vdiv _ _ _ _ _ => .a
  | .vrem _ _ _ _ _ => .a
  | .vaddsat _ _ _ _ _ => .a
  | .vsubsat _ _ _ _ _ => .a
  | .vminn _ _ _ _ _ => .a
  | .vmaxn _ _ _ _ _ => .a
  | .vmulhn _ _ _ _ _ => .a
  | .vdivn _ _ _ _ _ => .a
  | .vremn _ _ _ _ _ => .a
  | .vabs _ _ _ _ => .a
  | .vmerge _ _ _ _ _ => .a
  | .vmv _ _ _ _ => .a
  | .vfadd _ _ _ _ _ => .a
  | .vfsub _ _ _ _ _ => .a
  | .vfmul _ _ _ _ _ => .a
  | .vfdiv _ _ _ _ _ => .a
  | .vfmin _ _ _ _ _ => .a
  | .vfmax _ _ _ _ _ => .a
  | .vfma _ _ _ _ _ => .a
  | .vfnms _ _ _ _ _ => .a
  | .vfaddX _ _ _ _ _ => .a
  | .vfsubX _ _ _ _ _ => .a
  | .vfmulX _ _ _ _ _ => .a
  | .vfdivX _ _ _ _ _ => .a
  | .vfminX _ _ _ _ _ => .a
  | .vfmaxX _ _ _ _ _ => .a
  | .vfmaX _ _ _ _ _ => .a
  | .vfnmsX _ _ _ _ _ => .a
  | .vfsqrt _ _ _ _ => .a
  | .vfabs _ _ _ _ => .a
  | .vfneg _ _ _ _ => .a
  | .vfrcp _ _ _ _ => .a
  | .vfclass _ _ _ _ => .a
  | .vfscale _ _ _ _ _ => .a
  | .vfexp2 _ _ _ _ => .a
  | .vflog2 _ _ _ _ => .a
  | .vcmpEq _ _ _ _ _ => .a
  | .vcmpNe _ _ _ _ _ => .a
  | .vcmpLt _ _ _ _ _ => .a
  | .vcmpGe _ _ _ _ _ => .a
  | .vcmpLtn _ _ _ _ _ => .a
  | .vcmpGen _ _ _ _ _ => .a
  | .vcmpFlt _ _ _ _ _ => .a
  | .vcmpFle _ _ _ _ _ => .a
  | .vcmpEqX _ _ _ _ _ => .a
  | .vcmpNeX _ _ _ _ _ => .a
  | .vcmpLtX _ _ _ _ _ => .a
  | .vcmpGeX _ _ _ _ _ => .a
  | .vcmpLtnX _ _ _ _ _ => .a
  | .vcmpGenX _ _ _ _ _ => .a
  | .vcmpFltX _ _ _ _ _ => .a
  | .vcmpFleX _ _ _ _ _ => .a
  | .mand _ _ _ _ _ => .a
  | .mor _ _ _ _ _ => .a
  | .mxor _ _ _ _ _ => .a
  | .mandn _ _ _ _ _ => .a
  | .mnot _ _ _ _ => .a
  | .mfirst _ _ _ _ => .d
  | .mpop _ _ _ _ => .d
  | .mset _ _ _ => .a
  | .cvtF _ _ _ _ _ => .a
  | .cvtFi _ _ _ _ _ => .a
  | .cvtIf _ _ _ _ _ => .a
  | .cvtIi _ _ _ _ _ => .a
  | .vrin _ _ _ _ => .a
  | .vrout _ _ _ _ => .a
  | .vradd _ _ _ _ _ => .a
  | .vrmul _ _ _ _ _ => .a
  | .vsum _ _ _ _ => .d
  | .vfsumo _ _ _ _ => .d
  | .vfsumt _ _ _ _ => .d
  | .vrmax _ _ _ _ => .d
  | .vrmin _ _ _ _ => .d
  | .vrand _ _ _ _ => .d
  | .vror _ _ _ _ => .d
  | .vfrmax _ _ _ _ => .d
  | .vslup _ _ _ _ _ => .a
  | .vsldn _ _ _ _ _ => .a
  | .vcomp _ _ _ _ _ => .a
  | .vexpd _ _ _ _ _ => .a
  | .viota _ _ _ _ => .a
  | .vbcast _ _ _ _ => .a
  | .vextr _ _ _ _ _ => .d
  | .vrgath _ _ _ _ _ => .a
  | .vld _ _ _ _ => .m
  | .vlds _ _ _ _ _ => .m
  | .vst _ _ _ _ => .m
  | .vsts _ _ _ _ _ => .m
  | .vgth _ _ _ _ _ => .m
  | .vscto _ _ _ _ _ => .m
  | .vsctu _ _ _ _ _ => .m
  | .vxarm _ _ => .o
  | .vxit _ _ _ => .a
  | .vxclr _ _ => .o
  | .vxlen _ _ _ => .d
  | .vxwait _ _ => .o
  | .vxfx _ _ _ => .d
  | .bxany _ _ => .c
  | .bxnone _ _ => .c
  | .vseq _ _ _ _ _ => .m
  | .vrot _ _ _ _ _ => .a
  | .vrang _ _ _ _ _ => .a
  | .vgq _ _ _ _ => .m
  | .vgqpop _ _ _ => .m
  | .seqfork _ _ _ _ _ => .o
  | .seqmap _ _ _ _ _ => .o
  | .tconf _ _ _ => .x
  | .tshape _ _ _ => .x
  | .tzero _ _ => .x
  | .tld _ _ _ _ => .x
  | .tst _ _ _ _ => .x
  | .mrowin _ _ _ _ => .x
  | .mrowout _ _ _ _ => .x
  | .mcolin _ _ _ _ => .x
  | .mcolout _ _ _ _ => .x
  | .tsave _ _ _ => .x
  | .trst _ _ _ => .x
  | .tdirty _ _ => .x
  | .tcvt _ _ _ _ => .x
  | .mrwO _ _ _ _ _ => .x
  | .mrwF _ _ _ _ _ => .x
  | .mrsO _ _ _ _ _ => .x
  | .mrsF _ _ _ _ _ => .x
  | .mrwi _ _ _ _ _ => .x
  | .sxw _ _ _ => .s
  | .sxr _ _ _ => .s
  | .sxgo _ _ _ => .o
  | .sxgom _ _ _ => .o
  | .sxabt _ _ => .o
  | .sxstat _ _ _ => .o
  | .barr _ _ _ => .o
  | .barw _ _ _ => .o
  | .bara _ _ _ => .o
  | .tron _ _ _ => .o
  | .troff _ _ _ => .o
  | .samp _ _ _ => .o
  | .coord _ _ _ _ => .s
  | .grbind _ _ => .o
  | .grstep _ _ _ _ => .o
  | .grmaskM _ _ _ => .o
  | .grmaskV _ _ _ => .o
  | .grforce _ _ => .o
  | .grsave _ _ => .o
  | .grload _ _ => .o
  | .grreset _ => .o
  | .objnew _ _ _ _ => .o
  | .tagst _ _ _ => .o
  | .tagld _ _ _ => .o
  | .pub _ _ _ _ => .o
  | .pubw _ _ _ _ => .o
  | .objprb _ _ _ => .o
  | .tagclr _ _ => .o
  | .objfree _ _ => .o
  | .ctxnew _ _ _ => .o
  | .ctxgrant _ _ _ => .o
  | .ctxrevoke _ _ => .o
  | .ctxrun _ _ _ => .o
  | .ctxinfo _ _ _ _ => .o
  | .trapup _ _ _ => .o
  | .launch _ _ _ _ => .o
  | .lwait _ _ _ _ => .o
  | .lprio _ _ _ _ => .o
  | .colr _ _ _ => .o
  | .colg _ _ _ => .o
  | .cols _ _ _ => .o
  | .colb _ _ _ => .o
  | .colw _ _ _ _ => .o
  | .cola _ _ => .o
  | _ => .o

/-- The register that R43 counts as written, before g0 is set aside. -/
def writtenField : Instr → Option Written
  | .add _ d _ _ => some (.g d)
  | .sub _ d _ _ => some (.g d)
  | .and _ d _ _ => some (.g d)
  | .or _ d _ _ => some (.g d)
  | .xor _ d _ _ => some (.g d)
  | .andn _ d _ _ => some (.g d)
  | .orn _ d _ _ => some (.g d)
  | .sll _ d _ _ => some (.g d)
  | .srl _ d _ _ => some (.g d)
  | .sra _ d _ _ => some (.g d)
  | .rol _ d _ _ => some (.g d)
  | .ror _ d _ _ => some (.g d)
  | .slt _ d _ _ => some (.g d)
  | .sltn _ d _ _ => some (.g d)
  | .min _ d _ _ => some (.g d)
  | .max _ d _ _ => some (.g d)
  | .minn _ d _ _ => some (.g d)
  | .maxn _ d _ _ => some (.g d)
  | .mul _ d _ _ => some (.g d)
  | .mulh _ d _ _ => some (.g d)
  | .mulhn _ d _ _ => some (.g d)
  | .div _ d _ _ => some (.g d)
  | .divn _ d _ _ => some (.g d)
  | .rem _ d _ _ => some (.g d)
  | .remn _ d _ _ => some (.g d)
  | .addv _ d _ _ => some (.g d)
  | .subv _ d _ _ => some (.g d)
  | .mulv _ d _ _ => some (.g d)
  | .clz _ d _ => some (.g d)
  | .ctz _ d _ => some (.g d)
  | .popc _ d _ => some (.g d)
  | .bswap _ d _ => some (.g d)
  | .sext8 _ d _ => some (.g d)
  | .sext16 _ d _ => some (.g d)
  | .sext32 _ d _ => some (.g d)
  | .zext8 _ d _ => some (.g d)
  | .zext16 _ d _ => some (.g d)
  | .zext32 _ d _ => some (.g d)
  | .addi _ d _ _ => some (.g d)
  | .andi _ d _ _ => some (.g d)
  | .ori _ d _ _ => some (.g d)
  | .xori _ d _ _ => some (.g d)
  | .slti _ d _ _ => some (.g d)
  | .sltni _ d _ _ => some (.g d)
  | .slli _ d _ _ => some (.g d)
  | .srli _ d _ _ => some (.g d)
  | .srai _ d _ _ => some (.g d)
  | .roli _ d _ _ => some (.g d)
  | .lim _ d _ => some (.g d)
  | .lihi _ d _ => some (.g d)
  | .addpc _ d _ => some (.g d)
  | .ld _ d _ _ _ => some (.g d)
  | .ldx _ d _ _ _ => some (.g d)
  | .call _ _ => some (.lr)
  | .callr _ _ => some (.lr)
  | .mfs _ d _ => some (.g d)
  | .vgrant _ d => some (.g d)
  | .vadd _ d _ _ _ => some (.v d)
  | .vsub _ d _ _ _ => some (.v d)
  | .vmul _ d _ _ _ => some (.v d)
  | .vand _ d _ _ _ => some (.v d)
  | .vor _ d _ _ _ => some (.v d)
  | .vxor _ d _ _ _ => some (.v d)
  | .vmin _ d _ _ _ => some (.v d)
  | .vmax _ d _ _ _ => some (.v d)
  | .vaddX _ d _ _ _ => some (.v d)
  | .vsubX _ d _ _ _ => some (.v d)
  | .vmulX _ d _ _ _ => some (.v d)
  | .vandX _ d _ _ _ => some (.v d)
  | .vorX _ d _ _ _ => some (.v d)
  | .vxorX _ d _ _ _ => some (.v d)
  | .vminX _ d _ _ _ => some (.v d)
  | .vmaxX _ d _ _ _ => some (.v d)
  | .vsll _ d _ _ _ => some (.v d)
  | .vsrl _ d _ _ _ => some (.v d)
  | .vsra _ d _ _ _ => some (.v d)
  | .vmulh _ d _ _ _ => some (.v d)
  | .vdiv _ d _ _ _ => some (.v d)
  | .vrem _ d _ _ _ => some (.v d)
  | .vaddsat _ d _ _ _ => some (.v d)
  | .vsubsat _ d _ _ _ => some (.v d)
  | .vminn _ d _ _ _ => some (.v d)
  | .vmaxn _ d _ _ _ => some (.v d)
  | .vmulhn _ d _ _ _ => some (.v d)
  | .vdivn _ d _ _ _ => some (.v d)
  | .vremn _ d _ _ _ => some (.v d)
  | .vabs _ d _ _ => some (.v d)
  | .vmerge _ d _ _ _ => some (.v d)
  | .vmv _ d _ _ => some (.v d)
  | .vfadd _ d _ _ _ => some (.v d)
  | .vfsub _ d _ _ _ => some (.v d)
  | .vfmul _ d _ _ _ => some (.v d)
  | .vfdiv _ d _ _ _ => some (.v d)
  | .vfmin _ d _ _ _ => some (.v d)
  | .vfmax _ d _ _ _ => some (.v d)
  | .vfma _ d _ _ _ => some (.v d)
  | .vfnms _ d _ _ _ => some (.v d)
  | .vfaddX _ d _ _ _ => some (.v d)
  | .vfsubX _ d _ _ _ => some (.v d)
  | .vfmulX _ d _ _ _ => some (.v d)
  | .vfdivX _ d _ _ _ => some (.v d)
  | .vfminX _ d _ _ _ => some (.v d)
  | .vfmaxX _ d _ _ _ => some (.v d)
  | .vfmaX _ d _ _ _ => some (.v d)
  | .vfnmsX _ d _ _ _ => some (.v d)
  | .vfsqrt _ d _ _ => some (.v d)
  | .vfabs _ d _ _ => some (.v d)
  | .vfneg _ d _ _ => some (.v d)
  | .vfrcp _ d _ _ => some (.v d)
  | .vfclass _ d _ _ => some (.v d)
  | .vfscale _ d _ _ _ => some (.v d)
  | .vfexp2 _ d _ _ => some (.v d)
  | .vflog2 _ d _ _ => some (.v d)
  | .vcmpEq _ d _ _ _ => some (.m d)
  | .vcmpNe _ d _ _ _ => some (.m d)
  | .vcmpLt _ d _ _ _ => some (.m d)
  | .vcmpGe _ d _ _ _ => some (.m d)
  | .vcmpLtn _ d _ _ _ => some (.m d)
  | .vcmpGen _ d _ _ _ => some (.m d)
  | .vcmpFlt _ d _ _ _ => some (.m d)
  | .vcmpFle _ d _ _ _ => some (.m d)
  | .vcmpEqX _ d _ _ _ => some (.m d)
  | .vcmpNeX _ d _ _ _ => some (.m d)
  | .vcmpLtX _ d _ _ _ => some (.m d)
  | .vcmpGeX _ d _ _ _ => some (.m d)
  | .vcmpLtnX _ d _ _ _ => some (.m d)
  | .vcmpGenX _ d _ _ _ => some (.m d)
  | .vcmpFltX _ d _ _ _ => some (.m d)
  | .vcmpFleX _ d _ _ _ => some (.m d)
  | .mand _ d _ _ _ => some (.m d)
  | .mor _ d _ _ _ => some (.m d)
  | .mxor _ d _ _ _ => some (.m d)
  | .mandn _ d _ _ _ => some (.m d)
  | .mnot _ d _ _ => some (.m d)
  | .mfirst _ d _ _ => some (.g d)
  | .mpop _ d _ _ => some (.g d)
  | .mset _ d _ => some (.m d)
  | .cvtF _ d _ _ _ => some (.v d)
  | .cvtFi _ d _ _ _ => some (.v d)
  | .cvtIf _ d _ _ _ => some (.v d)
  | .cvtIi _ d _ _ _ => some (.v d)
  | .vrin _ d _ _ => some (.v d)
  | .vrout _ d _ _ => some (.v d)
  | .vradd _ d _ _ _ => some (.v d)
  | .vrmul _ d _ _ _ => some (.v d)
  | .vsum _ d _ _ => some (.g d)
  | .vfsumo _ d _ _ => some (.g d)
  | .vfsumt _ d _ _ => some (.g d)
  | .vrmax _ d _ _ => some (.g d)
  | .vrmin _ d _ _ => some (.g d)
  | .vrand _ d _ _ => some (.g d)
  | .vror _ d _ _ => some (.g d)
  | .vfrmax _ d _ _ => some (.g d)
  | .vslup _ d _ _ _ => some (.v d)
  | .vsldn _ d _ _ _ => some (.v d)
  | .vcomp _ d _ _ _ => some (.v d)
  | .vexpd _ d _ _ _ => some (.v d)
  | .viota _ d _ _ => some (.v d)
  | .vbcast _ d _ _ => some (.v d)
  | .vextr _ d _ _ _ => some (.g d)
  | .vrgath _ d _ _ _ => some (.v d)
  | .vld _ d _ _ => some (.v d)
  | .vlds _ d _ _ _ => some (.v d)
  | .vgth _ d _ _ _ => some (.v d)
  | .vxlen _ d _ => some (.g d)
  | .vxfx _ d _ => some (.g d)
  | .vseq _ d _ _ _ => some (.v d)
  | .vrot _ d _ _ _ => some (.v d)
  | .vrang _ d _ _ _ => some (.v d)
  | .vgqpop _ d _ => some (.v d)
  | .tshape _ d _ => some (.t d)
  | .tzero _ d => some (.t d)
  | .tld _ d _ _ => some (.t d)
  | .mrowin _ d _ _ => some (.t d)
  | .mrowout _ d _ _ => some (.v d)
  | .mcolin _ d _ _ => some (.t d)
  | .mcolout _ d _ _ => some (.v d)
  | .trst _ d _ => some (.t d)
  | .tcvt _ d _ _ => some (.t d)
  | .mrwO _ c _ _ _ => some (.t c)
  | .mrwF _ c _ _ _ => some (.t c)
  | .mrsO _ c _ _ _ => some (.t c)
  | .mrsF _ c _ _ _ => some (.t c)
  | .mrwi _ c _ _ _ => some (.t c)
  | .sxr _ d _ => some (.g d)
  | .coord _ d _ _ => some (.g d)
  | .tconf _ d _ => some (.g d)
  | .tdirty _ d => some (.g d)
  | _ => none

/-- The register that a member writes (R43): writes to g0 are not counted. -/
def written (i : Instr) : Option Written :=
  match writtenField i with
  | some (.g r) => if r = 0 then none else some (.g r)
  | w => w

/-- The fields of class v (R36). -/
def vFields : Instr → List VReg
  | .vadd _ d a b _ => [d, a, b]
  | .vsub _ d a b _ => [d, a, b]
  | .vmul _ d a b _ => [d, a, b]
  | .vand _ d a b _ => [d, a, b]
  | .vor _ d a b _ => [d, a, b]
  | .vxor _ d a b _ => [d, a, b]
  | .vmin _ d a b _ => [d, a, b]
  | .vmax _ d a b _ => [d, a, b]
  | .vaddX _ d a _ _ => [d, a]
  | .vsubX _ d a _ _ => [d, a]
  | .vmulX _ d a _ _ => [d, a]
  | .vandX _ d a _ _ => [d, a]
  | .vorX _ d a _ _ => [d, a]
  | .vxorX _ d a _ _ => [d, a]
  | .vminX _ d a _ _ => [d, a]
  | .vmaxX _ d a _ _ => [d, a]
  | .vsll _ d a b _ => [d, a, b]
  | .vsrl _ d a b _ => [d, a, b]
  | .vsra _ d a b _ => [d, a, b]
  | .vmulh _ d a b _ => [d, a, b]
  | .vdiv _ d a b _ => [d, a, b]
  | .vrem _ d a b _ => [d, a, b]
  | .vaddsat _ d a b _ => [d, a, b]
  | .vsubsat _ d a b _ => [d, a, b]
  | .vminn _ d a b _ => [d, a, b]
  | .vmaxn _ d a b _ => [d, a, b]
  | .vmulhn _ d a b _ => [d, a, b]
  | .vdivn _ d a b _ => [d, a, b]
  | .vremn _ d a b _ => [d, a, b]
  | .vabs _ d a _ => [d, a]
  | .vmerge _ d a b _ => [d, a, b]
  | .vmv _ d a _ => [d, a]
  | .vfadd _ d a b _ => [d, a, b]
  | .vfsub _ d a b _ => [d, a, b]
  | .vfmul _ d a b _ => [d, a, b]
  | .vfdiv _ d a b _ => [d, a, b]
  | .vfmin _ d a b _ => [d, a, b]
  | .vfmax _ d a b _ => [d, a, b]
  | .vfma _ d a b _ => [d, a, b]
  | .vfnms _ d a b _ => [d, a, b]
  | .vfaddX _ d a _ _ => [d, a]
  | .vfsubX _ d a _ _ => [d, a]
  | .vfmulX _ d a _ _ => [d, a]
  | .vfdivX _ d a _ _ => [d, a]
  | .vfminX _ d a _ _ => [d, a]
  | .vfmaxX _ d a _ _ => [d, a]
  | .vfmaX _ d a _ _ => [d, a]
  | .vfnmsX _ d a _ _ => [d, a]
  | .vfsqrt _ d a _ => [d, a]
  | .vfabs _ d a _ => [d, a]
  | .vfneg _ d a _ => [d, a]
  | .vfrcp _ d a _ => [d, a]
  | .vfclass _ d a _ => [d, a]
  | .vfscale _ d a b _ => [d, a, b]
  | .vfexp2 _ d a _ => [d, a]
  | .vflog2 _ d a _ => [d, a]
  | .vcmpEq _ _ a b _ => [a, b]
  | .vcmpNe _ _ a b _ => [a, b]
  | .vcmpLt _ _ a b _ => [a, b]
  | .vcmpGe _ _ a b _ => [a, b]
  | .vcmpLtn _ _ a b _ => [a, b]
  | .vcmpGen _ _ a b _ => [a, b]
  | .vcmpFlt _ _ a b _ => [a, b]
  | .vcmpFle _ _ a b _ => [a, b]
  | .vcmpEqX _ _ a _ _ => [a]
  | .vcmpNeX _ _ a _ _ => [a]
  | .vcmpLtX _ _ a _ _ => [a]
  | .vcmpGeX _ _ a _ _ => [a]
  | .vcmpLtnX _ _ a _ _ => [a]
  | .vcmpGenX _ _ a _ _ => [a]
  | .vcmpFltX _ _ a _ _ => [a]
  | .vcmpFleX _ _ a _ _ => [a]
  | .cvtF _ d a _ _ => [d, a]
  | .cvtFi _ d a _ _ => [d, a]
  | .cvtIf _ d a _ _ => [d, a]
  | .cvtIi _ d a _ _ => [d, a]
  | .vrin _ d a _ => [d, a]
  | .vrout _ d a _ => [d, a]
  | .vradd _ d a b _ => [d, a, b]
  | .vrmul _ d a b _ => [d, a, b]
  | .vsum _ _ a _ => [a]
  | .vfsumo _ _ a _ => [a]
  | .vfsumt _ _ a _ => [a]
  | .vrmax _ _ a _ => [a]
  | .vrmin _ _ a _ => [a]
  | .vrand _ _ a _ => [a]
  | .vror _ _ a _ => [a]
  | .vfrmax _ _ a _ => [a]
  | .vslup _ d a _ _ => [d, a]
  | .vsldn _ d a _ _ => [d, a]
  | .vcomp _ d a _ _ => [d, a]
  | .vexpd _ d a _ _ => [d, a]
  | .viota _ d _ _ => [d]
  | .vbcast _ d _ _ => [d]
  | .vextr _ _ a _ _ => [a]
  | .vrgath _ d a b _ => [d, a, b]
  | .vld _ d _ _ => [d]
  | .vlds _ d _ _ _ => [d]
  | .vst _ d _ _ => [d]
  | .vsts _ d _ _ _ => [d]
  | .vgth _ d _ b _ => [d, b]
  | .vscto _ d _ b _ => [d, b]
  | .vsctu _ d _ b _ => [d, b]
  | .vseq _ d _ _ _ => [d]
  | .vrot _ d a b _ => [d, a, b]
  | .vrang _ d a _ _ => [d, a]
  | .vgqpop _ d _ => [d]
  | .mrowin _ _ _ b => [b]
  | .mrowout _ d _ _ => [d]
  | .mcolin _ _ _ b => [b]
  | .mcolout _ d _ _ => [d]
  | .mrwO _ _ _ _ b => [b]
  | .mrwF _ _ _ _ b => [b]
  | .mrwi _ _ _ _ b => [b]
  | .grmaskV _ d _ => [d]
  | _ => []

/-- The scalar registers a member reads or writes through the scoreboard (R264): SXABT and SXSTAT read none. -/
def gFields : Instr → List GReg
  | .add _ d a b => [d, a, b]
  | .sub _ d a b => [d, a, b]
  | .and _ d a b => [d, a, b]
  | .or _ d a b => [d, a, b]
  | .xor _ d a b => [d, a, b]
  | .andn _ d a b => [d, a, b]
  | .orn _ d a b => [d, a, b]
  | .sll _ d a b => [d, a, b]
  | .srl _ d a b => [d, a, b]
  | .sra _ d a b => [d, a, b]
  | .rol _ d a b => [d, a, b]
  | .ror _ d a b => [d, a, b]
  | .slt _ d a b => [d, a, b]
  | .sltn _ d a b => [d, a, b]
  | .min _ d a b => [d, a, b]
  | .max _ d a b => [d, a, b]
  | .minn _ d a b => [d, a, b]
  | .maxn _ d a b => [d, a, b]
  | .mul _ d a b => [d, a, b]
  | .mulh _ d a b => [d, a, b]
  | .mulhn _ d a b => [d, a, b]
  | .div _ d a b => [d, a, b]
  | .divn _ d a b => [d, a, b]
  | .rem _ d a b => [d, a, b]
  | .remn _ d a b => [d, a, b]
  | .addv _ d a b => [d, a, b]
  | .subv _ d a b => [d, a, b]
  | .mulv _ d a b => [d, a, b]
  | .clz _ d a => [d, a]
  | .ctz _ d a => [d, a]
  | .popc _ d a => [d, a]
  | .bswap _ d a => [d, a]
  | .sext8 _ d a => [d, a]
  | .sext16 _ d a => [d, a]
  | .sext32 _ d a => [d, a]
  | .zext8 _ d a => [d, a]
  | .zext16 _ d a => [d, a]
  | .zext32 _ d a => [d, a]
  | .addi _ d a _ => [d, a]
  | .andi _ d a _ => [d, a]
  | .ori _ d a _ => [d, a]
  | .xori _ d a _ => [d, a]
  | .slti _ d a _ => [d, a]
  | .sltni _ d a _ => [d, a]
  | .slli _ d a _ => [d, a]
  | .srli _ d a _ => [d, a]
  | .srai _ d a _ => [d, a]
  | .roli _ d a _ => [d, a]
  | .lim _ d _ => [d]
  | .lihi _ d _ => [d]
  | .addpc _ d _ => [d]
  | .ld _ d a _ _ => [d, a]
  | .st _ d a _ _ => [d, a]
  | .ldx _ d a b _ => [d, a, b]
  | .stx _ d a b _ => [d, a, b]
  | .beq _ a b _ => [a, b]
  | .bne _ a b _ => [a, b]
  | .blt _ a b _ => [a, b]
  | .bge _ a b _ => [a, b]
  | .bltn _ a b _ => [a, b]
  | .bgen _ a b _ => [a, b]
  | .jr _ a => [a]
  | .callr _ a => [a]
  | .loop _ _ a _ => [a]
  | .mfs _ d _ => [d]
  | .mts _ a _ => [a]
  | .amoswapRlx _ d a b _ => [d, a, b]
  | .amoaddRlx _ d a b _ => [d, a, b]
  | .amoandRlx _ d a b _ => [d, a, b]
  | .amoorRlx _ d a b _ => [d, a, b]
  | .amoxorRlx _ d a b _ => [d, a, b]
  | .amomaxRlx _ d a b _ => [d, a, b]
  | .amominRlx _ d a b _ => [d, a, b]
  | .amocasRlx _ d a b _ => [d, a, b]
  | .amoswapAcq _ d a b _ => [d, a, b]
  | .amoaddAcq _ d a b _ => [d, a, b]
  | .amoandAcq _ d a b _ => [d, a, b]
  | .amoorAcq _ d a b _ => [d, a, b]
  | .amoxorAcq _ d a b _ => [d, a, b]
  | .amomaxAcq _ d a b _ => [d, a, b]
  | .amominAcq _ d a b _ => [d, a, b]
  | .amocasAcq _ d a b _ => [d, a, b]
  | .amoswapRel _ d a b _ => [d, a, b]
  | .amoaddRel _ d a b _ => [d, a, b]
  | .amoandRel _ d a b _ => [d, a, b]
  | .amoorRel _ d a b _ => [d, a, b]
  | .amoxorRel _ d a b _ => [d, a, b]
  | .amomaxRel _ d a b _ => [d, a, b]
  | .amominRel _ d a b _ => [d, a, b]
  | .amocasRel _ d a b _ => [d, a, b]
  | .amoswapAr _ d a b _ => [d, a, b]
  | .amoaddAr _ d a b _ => [d, a, b]
  | .amoandAr _ d a b _ => [d, a, b]
  | .amoorAr _ d a b _ => [d, a, b]
  | .amoxorAr _ d a b _ => [d, a, b]
  | .amomaxAr _ d a b _ => [d, a, b]
  | .amominAr _ d a b _ => [d, a, b]
  | .amocasAr _ d a b _ => [d, a, b]
  | .ldacq32 _ d a => [d, a]
  | .ldacq64 _ d a => [d, a]
  | .strel32 _ d a => [d, a]
  | .strel64 _ d a => [d, a]
  | .watch _ a => [a]
  | .waitw _ b => [b]
  | .vsetl _ d a _ => [d, a]
  | .vgrant _ d => [d]
  | .vaddX _ _ _ b _ => [b]
  | .vsubX _ _ _ b _ => [b]
  | .vmulX _ _ _ b _ => [b]
  | .vandX _ _ _ b _ => [b]
  | .vorX _ _ _ b _ => [b]
  | .vxorX _ _ _ b _ => [b]
  | .vminX _ _ _ b _ => [b]
  | .vmaxX _ _ _ b _ => [b]
  | .vfaddX _ _ _ b _ => [b]
  | .vfsubX _ _ _ b _ => [b]
  | .vfmulX _ _ _ b _ => [b]
  | .vfdivX _ _ _ b _ => [b]
  | .vfminX _ _ _ b _ => [b]
  | .vfmaxX _ _ _ b _ => [b]
  | .vfmaX _ _ _ b _ => [b]
  | .vfnmsX _ _ _ b _ => [b]
  | .vcmpEqX _ _ _ b _ => [b]
  | .vcmpNeX _ _ _ b _ => [b]
  | .vcmpLtX _ _ _ b _ => [b]
  | .vcmpGeX _ _ _ b _ => [b]
  | .vcmpLtnX _ _ _ b _ => [b]
  | .vcmpGenX _ _ _ b _ => [b]
  | .vcmpFltX _ _ _ b _ => [b]
  | .vcmpFleX _ _ _ b _ => [b]
  | .mfirst _ d _ _ => [d]
  | .mpop _ d _ _ => [d]
  | .vsum _ d _ _ => [d]
  | .vfsumo _ d _ _ => [d]
  | .vfsumt _ d _ _ => [d]
  | .vrmax _ d _ _ => [d]
  | .vrmin _ d _ _ => [d]
  | .vrand _ d _ _ => [d]
  | .vror _ d _ _ => [d]
  | .vfrmax _ d _ _ => [d]
  | .vslup _ _ _ b _ => [b]
  | .vsldn _ _ _ b _ => [b]
  | .vbcast _ _ a _ => [a]
  | .vextr _ d _ b _ => [d, b]
  | .vld _ _ a _ => [a]
  | .vlds _ _ a b _ => [a, b]
  | .vst _ _ a _ => [a]
  | .vsts _ _ a b _ => [a, b]
  | .vgth _ _ a _ _ => [a]
  | .vscto _ _ a _ _ => [a]
  | .vsctu _ _ a _ _ => [a]
  | .vxlen _ d _ => [d]
  | .vxfx _ d _ => [d]
  | .vseq _ _ a b _ => [a, b]
  | .vrang _ _ _ b _ => [b]
  | .vgq _ a b _ => [a, b]
  | .seqfork _ d a b _ => [d, a, b]
  | .seqmap _ d a b _ => [d, a, b]
  | .tconf _ d a => [d, a]
  | .tshape _ _ a => [a]
  | .tld _ _ a b => [a, b]
  | .tst _ _ a b => [a, b]
  | .mrowin _ _ a _ => [a]
  | .mrowout _ _ _ b => [b]
  | .mcolin _ _ a _ => [a]
  | .mcolout _ _ _ b => [b]
  | .tsave _ _ a => [a]
  | .trst _ _ a => [a]
  | .tdirty _ d => [d]
  | .mrwO _ _ _ a _ => [a]
  | .mrwF _ _ _ a _ => [a]
  | .mrsO _ _ _ a b => [a, b]
  | .mrsF _ _ _ a b => [a, b]
  | .mrwi _ _ _ a _ => [a]
  | .sxw _ a _ => [a]
  | .sxr _ d _ => [d]
  | .sxgo _ d a => [d, a]
  | .sxgom _ d a => [d, a]
  | .sxstat _ d _ => [d]
  | .tron _ d a => [d, a]
  | .troff _ d a => [d, a]
  | .samp _ d a => [d, a]
  | .coord _ d a _ => [d, a]
  | .grbind _ a => [a]
  | .grstep _ d a b => [d, a, b]
  | .grmaskM _ _ a => [a]
  | .grmaskV _ _ a => [a]
  | .grforce _ d => [d]
  | .grsave _ a => [a]
  | .grload _ a => [a]
  | .objnew _ d a b => [d, a, b]
  | .tagst _ d a => [d, a]
  | .tagld _ d a => [d, a]
  | .pub _ _ a b => [a, b]
  | .pubw _ d a _ => [d, a]
  | .objprb _ d a => [d, a]
  | .tagclr _ a => [a]
  | .objfree _ a => [a]
  | .ctxnew _ d a => [d, a]
  | .ctxgrant _ a b => [a, b]
  | .ctxrevoke _ a => [a]
  | .ctxrun _ a b => [a, b]
  | .ctxinfo _ d a _ => [d, a]
  | .trapup _ a _ => [a]
  | .launch _ d a b => [d, a, b]
  | .lwait _ d a b => [d, a, b]
  | .lprio _ d a b => [d, a, b]
  | .colr _ d a => [d, a]
  | .colg _ d a => [d, a]
  | .cols _ d a => [d, a]
  | .colb _ d a => [d, a]
  | .colw _ d _ b => [d, b]
  | .cola _ _ => []
  | _ => []

/-- The special registers that user mode may read, and those it may write (R56). -/
def userReads (n : BitVec 11) : Bool := n.toNat < 0x20 || n.toNat == 0x25 || 0x30 ≤ n.toNat
def userWrites (n : BitVec 11) : Bool :=
  [0x001, 0x002, 0x003, 0x004, 0x00A, 0x00B, 0x010, 0x011, 0x012, 0x013, 0x014, 0x015, 0x034, 0x036, 0x038, 0x040, 0x041, 0x042, 0x043].contains n.toNat

/-- Members that raise the privileged trap in user mode as they stand (R56, R72, R98, R389). -/
def needsSupervisor : Instr → Bool
  | .mfs _ _ n => !userReads n
  | .mts _ _ n => !userWrites n
  | .rft _ => true
  | .halt _ => true
  | .ctxnew _ _ _ => true
  | .ctxgrant _ _ _ => true
  | .ctxrevoke _ _ => true
  | .ctxrun _ _ _ => true
  | _ => false

/-- The class limits of R41; class O has its own rule (R42). -/
def classLimit : ConvoyClass → Nat
  | .m => 2
  | .x => 1
  | .a => 4
  | .d => 1
  | .s => 4
  | .c => 1
  | .o => 8

end Sys2Proof.Machine
end

