-- ==== Sys2Proof/Machine/Sparse.lean ====
section
/-!
DEFINITION. Sparse arrays: a list of (index, value) pairs in one canonical form, indices strictly rising and no entry equal
to what an unlisted index reads as. Memory, register files, tag bits and marks are all held so; equal arrays are equal lists.
-/
namespace Sys2Proof.Machine

/-- A sparse array. What an unlisted index reads as is given to each operation (`dflt`). -/
abbrev Sparse (α : Type) := List (Nat × α)

/-- The value at index `k`. -/
def Sparse.get {α : Type} (dflt : Nat → α) : Sparse α → Nat → α
  | [], k => dflt k
  | (j, v) :: rest, k => if k = j then v else Sparse.get dflt rest k

/-- `m` without an entry at `k`. -/
def Sparse.drop {α : Type} : Sparse α → Nat → Sparse α
  | [], _ => []
  | (j, v) :: rest, k => if k = j then Sparse.drop rest k else (j, v) :: Sparse.drop rest k

/-- `m` with `v` listed at `k`. -/
def Sparse.insert {α : Type} : Sparse α → Nat → α → Sparse α
  | [], k, v => [(k, v)]
  | (j, w) :: rest, k, v => if k = j then (k, v) :: rest else if k < j then (k, v) :: (j, w) :: rest else (j, w) :: Sparse.insert rest k v

/-- `m` with `v` at `k`: writing what an unlisted index reads as removes the entry. -/
def Sparse.put {α : Type} [DecidableEq α] (dflt : Nat → α) (m : Sparse α) (k : Nat) (v : α) : Sparse α :=
  if v = dflt k then m.drop k else m.insert k v

/-- Indices from `lo` on rise strictly. -/
def Sparse.rising {α : Type} : Nat → Sparse α → Bool
  | _, [] => true
  | lo, (j, _) :: rest => decide (lo ≤ j) && Sparse.rising (j + 1) rest

/-- The canonical form. -/
def Sparse.wf {α : Type} [DecidableEq α] (dflt : Nat → α) (m : Sparse α) : Bool :=
  Sparse.rising 0 m && m.all (fun e => decide (e.2 ≠ dflt e.1))

/-- Consecutive values from `k` on. -/
def Sparse.putList {α : Type} [DecidableEq α] (dflt : Nat → α) : Sparse α → Nat → List α → Sparse α
  | m, _, [] => m
  | m, k, v :: vs => Sparse.putList dflt (Sparse.put dflt m k v) (k + 1) vs

/-- `n` consecutive values from `k` on. -/
def Sparse.getList {α : Type} (dflt : Nat → α) (m : Sparse α) (k : Nat) : Nat → List α
  | 0 => []
  | n + 1 => Sparse.get dflt m k :: Sparse.getList dflt m (k + 1) n

/-- Every entry whose index lies in `[lo, hi)` removed: those indices read as the default. -/
def Sparse.clear {α : Type} (m : Sparse α) (lo hi : Nat) : Sparse α := m.filter (fun e => e.1 < lo || hi ≤ e.1)

/-- Whether some listed index lies in `[lo, hi)`. -/
def Sparse.anyIn {α : Type} (m : Sparse α) (lo hi : Nat) : Bool := m.any (fun e => lo ≤ e.1 && e.1 < hi)

/-- Unlisted scalar registers and words read 0. -/
def zeroWord (_ : Nat) : Word := 0
/-- Unlisted bytes of registers, tiles and scratchpads read 0. -/
def zeroByte (_ : Nat) : Byte := 0
/-- Unlisted bits read clear. -/
def clearBit (_ : Nat) : Bool := false
/-- Unlisted numbers read 0. -/
def zeroNat (_ : Nat) : Nat := 0

/-- The little-endian number that bytes hold (R29 `mem`). -/
def bytesToNat : List Byte → Nat
  | [] => 0
  | b :: bs => b.toNat + 256 * bytesToNat bs

/-- The `n` little-endian bytes of a number. -/
def natToBytes (x : Nat) : Nat → List Byte
  | 0 => []
  | n + 1 => BitVec.ofNat 8 x :: natToBytes (x / 256) n

/-- The 8 little-endian bytes of a register. -/
def wordBytes (w : Word) : List Byte := natToBytes w.toNat 8

end Sys2Proof.Machine
end

