-- ==== Sys2Proof/Machine/State.lean ====
section
/-!
DEFINITION. The state of the Usvex as plain data, and the machine right after reset. Everything a hart, a team, a crew, a
context and the package hold stands here, with the rule of spec/ that names it.
-/
namespace Sys2Proof.Machine

/-- Why the machine stops. -/
inductive Fault where
  /-- No hart can execute or wait and nothing is due (every hart has retired, halted or is stopped). Raised by `step` alone.
  Safe: the hardware too does nothing until the outside world acts. -/
  | idle
  deriving DecidableEq, Repr

/-- Why an instruction has no meaning. -/
inductive Refusal where
  /-- An instruction `exec` has no meaning for. Raised by `exec`'s refused arms alone. Safe: nothing is claimed of it. -/
  | notModelled (mnemonic : String)
  deriving DecidableEq, Repr

/-- What a byte of physical memory that nothing has written reads as: attr 3 in the frame table (R382, R427), 0 elsewhere
(DESIGN CHOICE, log 1). -/
def Memory.unlisted (a : Nat) : Byte :=
  if Config.frameTableBase ≤ a ∧ a < Config.frameTableBase + Config.frameTableSize then 3 else 0

/-- Where an access lands: a physical address, or an offset in the scratchpad of a team (R217, R422). -/
inductive Place where
  | phys (pa : Nat)
  | pad (team : Nat) (off : Nat)
  deriving DecidableEq, Repr

/-- The registers that a checkpoint of an exit test restores (R191). -/
structure Regs where
  /-- P0-P511 (R54). -/
  gpr : Sparse Word
  lr : Word
  /-- Window base (R54, R55). -/
  wb : Word
  /-- Vector type in the VT layout (R56). -/
  vt : BitVec 7
  /-- Vector length (R59). -/
  vl : Nat
  /-- Register count n (R58, R133). -/
  vnreg : Nat
  /-- Break and fault-trimming indices (R60); all ones when clear. -/
  bx : Word
  fx : Word
  /-- Hardware loop registers (R102). -/
  ls0 : Word
  le0 : Word
  lc0 : Word
  ls1 : Word
  le1 : Word
  lc1 : Word
  /-- Trap status and arithmetic status (R57). -/
  tstat : Word
  astat : Word
  /-- The bytes of the owned VRF rows, register after register (R131). -/
  vrf : Sparse Byte
  /-- Poison marks of the VRF by byte (R226): an 8-byte word is poisoned while a byte of it is marked, so a word all of whose bytes
  have been written again is clean. -/
  vpois : Sparse Bool
  /-- Bit i of mask register k stands at 65536 k + i (R132). -/
  masks : Sparse Bool
  deriving DecidableEq, Repr

/-- A store issued but not yet performed (R89, R177, R307). -/
structure Pending where
  place : Place
  data : List Byte
  /-- The store marks its 8-byte word as a reference (TAGST, R339). -/
  tag : Bool
  /-- By a vector instruction. -/
  vector : Bool
  /-- By VST or VSTS, which R176 orders among themselves. -/
  ordered : Bool
  /-- Owner tag of the line (R325). -/
  owner : Nat
  /-- Dirty bits of the translation that performing it sets: physical byte and bit (R372). -/
  dirty : List (Nat × Nat)
  /-- Page-table entries that its translation used, by physical address (R383). -/
  via : List Nat
  /-- Committed from the caddy: such stores become visible in program order (R196). -/
  released : Bool
  deriving DecidableEq, Repr

/-- One element of a vector store to an MX page (R119): it is encoded with its whole block when it is performed. -/
structure MxElem where
  /-- Virtual address of its byte, and whether it is the high half of it. -/
  va : Nat
  high : Bool
  /-- Its bits in the register format of `vt`, which gives the rounding, with RSEED as at issue (R115). -/
  bits : Nat
  vt : BitVec 7
  seed : Word
  fmt : Nat
  geom : Nat
  /-- Where the first byte of its line group and its scale byte stand (R120). -/
  group : Place
  scale : Place
  owner : Nat
  dirty : List (Nat × Nat)
  via : List Nat
  deriving DecidableEq, Repr

/-- A vector store held in the caddy (R195), and the caddy space it takes. -/
structure Held where
  stores : List Pending
  mx : List MxElem
  bytes : Nat
  deriving DecidableEq, Repr

/-- The scalar operands that a member read when it issued, with RSEED, by mode and address (R115, R143, R160). -/
structure Issue where
  supervisor : Bool
  pc : Word
  x : Word
  y : Word
  seed : Word
  deriving DecidableEq, Repr

/-- A trim whose decision is open (R186), with the state its strip returns to when it is genuine (R188, R191); or a trap that is held
until its strip is decided (R189). -/
structure Trim where
  /-- A held trap (R189). -/
  held : Bool
  /-- A younger exit test of the strip has a candidate, so the trim is suppressed at the decision point (R187, R452). -/
  suppressed : Bool
  /-- The member ran under m15 (R175, R205). -/
  m15 : Bool
  /-- Stores of the strip in the caddy that are older than it. -/
  caddy : Nat
  /-- The registers after the trimmed member, with BX and FX as in force for it. -/
  saved : Regs
  pc : Word
  /-- The rest of its convoy, itself first, and its index. -/
  convoy : List Instr
  index : Nat
  /-- The faulting element. -/
  element : Nat
  cause : BitVec 8
  tval : Word
  stage : Nat
  /-- Its elements from the faulting one on that are active without FX, each with its address where it is known (R188). -/
  addrs : List (Nat × Option Nat)
  /-- The base address, and the missing pages that the failing check itself found (R167, R120). -/
  base : Nat
  pages : List Word
  /-- On MX pages: format and geometry of the base page, and the scale planes (R120). -/
  mx : Option (Nat × Nat × List Word)
  /-- Whether some element below completed (R70, RFM). -/
  some : Bool
  /-- ELIX at the start of the pass, VL, VMEM minor and whether it stores, for the record (R170). -/
  elix : Nat
  vl : Nat
  minor : Nat
  store : Bool
  /-- The scalar operands it read at issue (R143). -/
  issued : List Issue
  deriving DecidableEq, Repr

/-- A strip that ended in a predicting XBR and has not resolved (R190 to R192). -/
structure Strip where
  /-- Its undecided trims and held traps, oldest first. -/
  trims : List Trim
  /-- Its stores in the caddy, oldest first (R195). -/
  caddy : List Held
  /-- Some exit test of it has not resolved (R184). -/
  pending : Bool
  /-- Its break index. -/
  bx : Word
  /-- Where the hart goes when it resolves with an exit: the registers of the XBR's checkpoint after the real direction, and that
  direction (R192). -/
  regs : Regs
  pc : Word
  deriving DecidableEq, Repr

/-- An open exit region (R181): whether its present strip is the exited strip, whether that strip has resolved (R184), whether some
exit test of it has not, its undecided trims and held traps, oldest first, and the older strips that have not resolved, oldest first. -/
structure Region where
  isOpen : Bool
  exited : Bool
  resolved : Bool
  pending : Bool
  trims : List Trim
  strips : List Strip
  deriving DecidableEq, Repr

/-- No open region. -/
def Region.closed : Region := ⟨false, false, false, false, [], []⟩

/-- An element of a vector load that is performed later (R177). -/
structure LateElem where
  index : Nat
  va : Nat
  high : Bool
  place : Place
  scale : Option Place
  /-- Page-table entries that its translation used (R383). -/
  via : List Nat
  deriving DecidableEq, Repr

/-- A vector load whose elements have passed their checks and are performed after later scalar members (R177). -/
structure LateLoad where
  reg : Nat
  minor : Nat
  vt : BitVec 7
  fmt : Nat
  seed : Word
  elems : List LateElem
  deriving DecidableEq, Repr

/-- A publication walk that waits for its turn or is in progress (R341 to R344): the reference and the scope code it walks for, and the
objects changed so far. -/
structure Walk where
  ref : Word
  scope : Nat
  changed : Nat
  /-- In progress. -/
  begun : Bool
  /-- Its place in the order in which the walks of the context wait (R342). -/
  ticket : Nat
  deriving DecidableEq, Repr

/-- The single watch of a hart (R315). -/
structure Watch where
  line : Place
  fired : Bool
  deriving DecidableEq, Repr

/-- What a hart waits for at its current member, with the TICK its limit ends at where it has one (R96, R315, R407, R445). -/
inductive Waiting where
  /-- Nothing: the hart executes. -/
  | none
  /-- WAIT: until TICK differs (R96). -/
  | tick (t : Nat)
  /-- WAITW, LWAIT, COLW: until the deadline (R315, R407, R445). -/
  | until (deadline : Nat)
  /-- FENCE.SC: until the tick boundary (R318). -/
  | boundary (t : Nat)
  deriving DecidableEq, Repr

/-- Which frame access of a hart failed (R416): of its start, of a stop, of the resumption of a stopped hart, of the restoration of its crew, or
of the end of a hart that retires or halts; or, of a hart that is in its frame already, what a stop of its crew writes there, or the team's
scratchpad that the restoration of its crew reads there. -/
inductive FrameAccess where
  | start
  | save
  | resume
  | restore
  | retire
  | halt
  | crewStop
  | pad
  deriving DecidableEq, Repr

/-- Whether a hart executes (R412, R415). -/
inductive Run where
  | ready
  /-- Stopped in its frame for a handler hart (R397). -/
  | reflected
  /-- Left stopped by a handler's HALT, until CTXRUN (R397). -/
  | stopped
  /-- Pre-empted with its crew (R412). -/
  | preempted
  /-- Stopped on page requests (R172). -/
  | paging
  /-- Started, with the state word of its frame still to be written (R415): the access has failed once. -/
  | starting
  /-- In its slot with a frame access that failed; `handled` once the handler hart has started (R416). -/
  | frameFault (access : FrameAccess) (handled : Bool)
  /-- In restoration when its context was revoked: the trap 0x17 goes to the context that revoked it, and the hart is discarded
  (R392). -/
  | withdrawn (issuer : Nat)
  /-- To be restored from its frame once its context runs and its crew is in place (R172, R393, R397). -/
  | resuming
  /-- A transfer to 0 or a HALT was executed: the hart stops for good once its stores and engines allow (R65, R98). -/
  | retiring
  | halting
  /-- Retired (R65), halted (R98), or halted in the crown context (R71). -/
  | retired
  | halted
  | crownHalted
  deriving DecidableEq, Repr

/-- A composed translation's attributes (R374). -/
structure Attr where
  fmt : Nat
  geom : Nat
  plane : Nat
  tracked : Bool
  cls : Nat
  deriving DecidableEq, Repr

/-- A queued gather of the hart (R363, R364): its operands as at issue; once performed, its failing element (VL if none) and
the results below it. -/
structure GatherDesc where
  vt : BitVec 7
  vl : Nat
  seed : Word
  table : Word
  packed : Word
  performed : Option (Nat × List Nat)
  /-- Elements that a VGQPOP which stopped part-way has written (R365, R367). -/
  popped : Nat := 0
  deriving DecidableEq, Repr

/-- What a queued matrix operation does (R234), with the scalar operands it read at fork (R236). Tiles are numbers. -/
inductive MatKind where
  | shape (w : Word)
  | zero
  /-- TLD and TRST, TST and TSAVE: their pieces say what moves; `image` marks the forms of R244. -/
  | load (image : Bool)
  | store (image : Bool)
  | rowIn (j : Nat)
  | rowOut (v j : Nat)
  | colIn (j : Nat)
  | colOut (v j : Nat)
  | convert (source imm : Nat)
  /-- A row operation of R247 with its stationary tile and row; `ordered` is .O, `stream` takes A from a scratchpad. -/
  | rowOp (ordered stream : Bool) (stationary y : Nat)
  deriving DecidableEq, Repr

/-- A matrix operation in the hart's queue with the operands it read at fork (R235, R236). -/
structure MatOp where
  kind : MatKind
  tile : Nat
  /-- The vector operand's bytes and their poison marks, as at fork (R237). -/
  vec : List Byte
  vpois : List Bool
  /-- Memory it reads or writes: byte of the tile (its scale side from 0x8000 on; for R244 byte of the image), place, bytes. -/
  pieces : List (Nat × Place × Nat)
  /-- Dirty bits of its stores (R372), and the page-table entries of its translations (R383). -/
  dirty : List (Nat × Nat)
  via : List Nat
  owner : Nat
  seed : Word
  /-- Of a transfer (R242, R244): base address and pitch, the rows or chunks performed, and the one before which it ends. -/
  addr : Word := 0
  pitch : Word := 0
  done : Nat := 0
  upto : Nat := 0
  deriving DecidableEq, Repr

/-- A copy of the streamer (R258): what is fixed at its fork, and how far it has come. -/
structure Copy where
  id : Nat
  /-- The snapshot of the shadow set, VL, VT, RSEED and the scale planes. -/
  sx : Sparse Word
  vl : Nat
  vt : BitVec 7
  seed : Word
  splane : List Word
  /-- SXGOM. -/
  multi : Bool
  /-- The physical register of its token, 0 for none. -/
  token : Nat
  op : Nat
  /-- Strips performed, and elements completed. -/
  strips : Nat
  count : Nat
  /-- Final status when ended (R76), and whether its token has it (R264). -/
  ended : Option Nat
  delivered : Bool
  /-- Elements sent to a mirror and not yet acknowledged (R448). -/
  unacked : Nat
  poisoned : Bool
  aborting : Bool
  deriving DecidableEq, Repr

/-- A collective's form (R441). -/
inductive CollKind where
  | reduce
  | gather
  | scatter
  | broadcast
  deriving DecidableEq, Repr

/-- A lost member for whom this device answers in a collective (R449): its rank, where the mirrors of its buffers stand in this device's
memory, the formats of their pages, and the elements for its receive buffer so far. -/
structure Answer where
  rank : Nat
  send : Nat
  recv : Nat
  sendFmt : Nat
  recvFmt : Nat
  out : List (Nat × Bool)
  deriving DecidableEq, Repr

/-- A collective of the fabric (R441 to R445): its descriptor as read at the fork, and how far it has come. -/
structure Coll where
  id : Nat
  kind : CollKind
  vt : BitVec 7
  reduction : Nat
  /-- Whether elements of RAW pages are floats, where VT alone does not say (R16, R442): a free choice made at the fork. -/
  asFloat : Bool
  root : Nat
  op : Nat
  count : Nat
  send : Word
  recv : Word
  stage : Word
  frec : Word
  seed : Word
  splane : List Word
  /-- Address of the group table, group number, members' devices and their backups by rank, the member's own rank, and its place in the group's order (R442, R443). -/
  table : Word
  group : Nat
  devices : List Nat
  backups : List Nat
  rank : Nat
  seqno : Nat
  token : Nat
  /-- Chunks reduced into stage, and the elements for recv so far with their poison, first first. -/
  chunks : Nat
  results : List (Nat × Bool)
  answers : List Answer
  /-- Ranks whose ready flit has come. -/
  ready : List Nat
  /-- Elements written to recv. -/
  written : Nat
  /-- Final status when ended (R76), and whether its token has it. -/
  ended : Option Nat
  delivered : Bool
  deriving DecidableEq, Repr

/-- A grammar descriptor (R286). -/
structure Grammar where
  vocab : Nat
  nst : Nat
  nsym : Nat
  ncls : Nat
  start : Nat
  depth : Nat
  classmap : Nat
  trans : Nat
  masks : Nat
  deriving DecidableEq, Repr

/-- A bound strainer session (R289): its descriptor's address and fields, its state, and its stack with the top first. -/
structure Session where
  desc : Nat
  gram : Grammar
  state : Nat
  stack : List Nat
  deriving DecidableEq, Repr

/-- A trap as the frame header records it (R415). -/
structure TrapField where
  cause : Word
  pc : Word
  elix : Word
  tval : Word
  tstat : Word
  deriving DecidableEq, Repr

/-- How far an armed sample has come (R284). -/
inductive Sampling where
  | armed
  /-- Its member has completed: head, info and elements by lane group of the record; `young` while an older trim is undecided. -/
  | done (young : Bool) (head info : Word) (elems : List Nat)
  /-- Its member trapped, trimmed or was squashed. -/
  | lost
  deriving DecidableEq, Repr

/-- An armed sample (R284): where its record goes, and its token. -/
structure Sample where
  place : Place
  dirty : List (Nat × Nat)
  via : List Nat
  token : Nat
  stage : Sampling
  deriving DecidableEq, Repr

/-- A hart: the registers, its position, and everything it has under way. -/
structure Hart where
  /-- The model's own name of the hart. -/
  id : Nat
  regs : Regs
  /-- The resumable position (R53). -/
  pc : Word
  elix : Nat
  /-- The members of the convoy not yet completed, the head's address and the index of the first (R40, R46). -/
  convoy : List Instr
  head : Word
  member : Nat
  /-- CYCLE at which the present convoy issued, and the one before it: the model's own, for loads in flight together (R89, R224). -/
  convoyAt : Nat
  priorAt : Nat
  /-- ASTAT and SPHW as every earlier convoy left them, for MFS (R100). -/
  headAstat : Word
  headSphw : Word
  xrd : Word
  grd : Word
  tcause : Word
  tpc : Word
  telix : Word
  tval : Word
  tvec : Word
  tscr : Word
  hartcrd : Word
  /-- Context number (R385). -/
  ctx : Nat
  rseed : Word
  spbase : Word
  splane0 : Word
  splane1 : Word
  splane2 : Word
  splane3 : Word
  /-- VRF rows owned (R211). -/
  rows : Nat
  /-- The member at PC re-executes under m15 alone (R72, R136). -/
  m15only : Bool
  /-- The operands that a member read when it issued, for its resumption (R143, R160). -/
  issued : List Issue
  /-- Where a pre-emption stops the member that executes: elements, tokens, lines, entries or sets from there on are left (R138, R174,
  R301, R338, R356). -/
  cut : Option Nat
  /-- Vector loads that are performed later, oldest first (R177). -/
  late : List LateLoad
  /-- The publication walk of the member at PC (R344). -/
  walk : Option Walk
  region : Region
  /-- Held vector stores of the present strip, oldest first (R195). -/
  caddy : List Held
  /-- Issued, not yet performed stores, oldest first (R177). -/
  stores : List Pending
  gathers : List GatherDesc
  matrix : List MatOp
  copies : List Copy
  colls : List Coll
  /-- Physical registers whose token is still pending (R264). -/
  pend : List Nat
  /-- The streamer's shadow set by number (R255). -/
  sx : Sparse Word
  session : Option Session
  watch : Option Watch
  waiting : Waiting
  run : Run
  /-- Arrival pending for each route tag (R272, R273), and the generation it arrived in. -/
  arrived : Sparse Bool
  arrivedGen : Sparse Nat
  /-- Trace: a breakpoint is due at the next convoy head (R283). -/
  breakDue : Bool
  sample : Option Sample
  crew : Nat
  slot : Nat
  hidx : Nat
  frame : Nat
  trap : TrapField
  /-- For a handler hart: the hart it serves (R397). -/
  serves : Option Nat
  /-- A page request of the hart failed, of this stage: it takes the trap path when it resumes (R172). -/
  pageFailed : Option Nat
  /-- What the device last wrote into or read from the pad area of its frame while the hart is in it: SPHW and the bytes below (R397,
  R414). -/
  padSaved : Option (Nat × Sparse Byte)
  /-- How a hart that is in its frame stood when an access of its crew there failed (R416). -/
  stood : Run
  /-- Its frame access waits for a host link that is down (R424). -/
  frameOut : Bool
  deriving DecidableEq, Repr

/-- A tile (R228). -/
structure Tile where
  data : Sparse Byte
  scale : Sparse Byte
  /-- Poison marks by byte, the scale side's from 0x8000 on: an 8-byte word is poisoned while a byte of it is marked. -/
  pois : Sparse Bool
  /-- Which hart of the team claims it (R225, R233). -/
  claim : Option Nat
  /-- The shape word (R229), none when unshaped. -/
  shape : Option Word
  dirty : Bool
  /-- Its frame records it as zero (R252). -/
  zeroMark : Bool
  deriving DecidableEq, Repr

/-- A unit of a core (R208, R387). -/
structure CoreUnit where
  die : Nat
  cluster : Nat
  core : Nat
  /-- 0 whole, 1 to 7 eighths of a split core (R209). -/
  eighths : Nat
  half : Nat
  deriving DecidableEq, Repr

/-- A team: the harts of one slot of a crew, their scratchpad and tiles (R208). -/
structure Team where
  id : Nat
  crew : Nat
  slot : Nat
  core : CoreUnit
  resident : Bool
  bytes : Sparse Byte
  pois : Sparse Bool
  /-- Scratchpad size in bytes (R216). -/
  size : Nat
  /-- SPHW (R62). -/
  sphw : Nat
  tiles : List Tile
  /-- How far the program time of its core is ahead of TICK (R311). -/
  lead : Nat
  deriving DecidableEq, Repr

/-- A crew (R269). -/
structure Crew where
  id : Nat
  launch : Nat
  ctx : Nat
  stage : Nat
  index : Nat
  rows : Nat
  cols : Nat
  hartsPerTeam : Nat
  die : Nat
  cluster : Nat
  /-- Route tags held (R271). -/
  tags : BitVec 8
  gen : Sparse Nat
  count : Sparse Nat
  /-- Cycle in which a complete phase is delivered (R273), by tag. -/
  due : Sparse Nat
  resident : Bool
  preempting : Bool
  /-- Order of binding, for R411. -/
  boundAt : Nat
  deriving DecidableEq, Repr

/-- The state of a context (R385). -/
inductive CtxState where
  | held
  | running
  | revoked
  deriving DecidableEq, Repr

/-- A region-overlay entry of a host-format stage (R378): base, bytes, attributes. -/
structure Overlay where
  base : Nat
  size : Nat
  attr : Word
  deriving DecidableEq, Repr

/-- How a context's own stage translates (R386, R377). -/
structure Stage where
  host : Bool
  /-- Page requests service missing pages (SVC, R172). -/
  svc : Bool
  root : Nat
  shape : Word
  bits : Word
  frameField : Word
  overlay : List Overlay
  deriving DecidableEq, Repr

/-- A context (R385). -/
structure Ctx where
  num : Nat
  parent : Option Nat
  depth : Nat
  state : CtxState
  stage : Stage
  tvec : Word
  enable : Word
  ring : Word
  prqBase : Nat
  prqCount : Nat
  prqHead : Nat
  frames : Nat
  ceiling : Nat
  pasid : Word
  vf : Word
  /-- Granted amounts (R387): memory, queues, children, objects. -/
  memory : Nat
  queues : Nat
  children : Nat
  objects : Nat
  /-- Core units in its placement map with their logical clusters (R388). -/
  units : List CoreUnit
  clusters : List (Nat × Nat)
  /-- Units received by grants of its parent, and route tags received, by cluster number (R387). -/
  granted : List CoreUnit
  grantedTags : Sparse Nat
  /-- Errors corrected in its partitions (R226). -/
  corrected : Nat
  deriving DecidableEq, Repr

/-- An object-table entry (R332). -/
structure Obj where
  die : Nat
  index : Nat
  ctx : Nat
  header : Nat
  rowbytes : Nat
  rows : Nat
  pitch : Nat
  /-- Owner team: its bound crew and slot, and its launch, stage and crew numbers (R332). -/
  crew : Nat
  slot : Nat
  launch : Nat
  stage : Nat
  crewIndex : Nat
  /-- 0 private, else the published scope code. -/
  scope : Nat
  /-- Created: an OBJNEW that a pre-emption has stopped leaves a partial object (R338). -/
  whole : Bool
  /-- Physical addresses of its lines, ascending rows. -/
  lines : List Nat
  /-- Its write timestamp, and the read lease of each team's core by the logical time at which it ends (R311, R336). -/
  stamp : Nat
  leases : List (Nat × Nat)
  deriving DecidableEq, Repr

/-- A registered launch queue (R400, R406). -/
structure Queue where
  ctx : Nat
  num : Nat
  desc : Nat
  deriving DecidableEq, Repr

/-- An accepted launch (R401 to R410). -/
structure Launch where
  id : Nat
  ctx : Nat
  queue : Nat
  seqno : Nat
  /-- The record's words (R402). -/
  entry : Word
  args : Word
  done : Nat
  op : Nat
  rows : Nat
  cols : Nat
  hartsPerTeam : Nat
  stages : Nat
  crewsPerStage : Nat
  big : Bool
  ign : Bool
  tags : BitVec 8
  deps : List Nat
  hintBase : Nat
  hint : Word
  base : Nat
  age : Nat
  /-- Ticks that count toward the next age step, and the TICK up to which they are counted (R409). -/
  waited : Nat
  agedAt : Nat
  /-- Crews not yet bound for the first time, as (stage, crew). -/
  unbound : List (Nat × Nat)
  /-- The hint of R413 is pending, and the TICK since which it waits for a quiesce point. -/
  hintPending : Bool
  hintAt : Nat
  /-- Harts that stopped for good, and what the final status takes from them (R404). -/
  stopped : Nat
  aborted : Bool
  faulted : Bool
  poisoned : Bool
  deriving DecidableEq, Repr

/-- A pending-page entry (R173): one missing page of one stage, and who waits for it. -/
structure PageReq where
  id : Nat
  die : Nat
  /-- Owner context of the stage, input page and size code. -/
  owner : Nat
  entry : Word
  stage : Nat
  write : Bool
  waiters : List Nat
  /-- Ring slot address in the owner's space, when the request has been placed. -/
  slot : Option Nat
  /-- Goes to the host as a Page Request Message (R380), with the function and the PASID that it carries (R396). -/
  viaHost : Bool
  function : Word
  pasid : Word
  /-- It holds an entry of its die's table (R173). -/
  entered : Bool
  deriving DecidableEq, Repr

/-- A dump of the trace SRAM under way (R282): for which hart and token, and where its 256-byte chunks go. -/
structure TraceDump where
  hart : Nat
  token : Nat
  places : List Place
  dirty : List (Nat × Nat)
  via : List Nat
  deriving DecidableEq, Repr

/-- A cluster's trace recorder (R279 to R283). Of the frames it holds the entries that the model's steps give; the entries of the cycles
between are free among those that R279 allows (log 35). -/
structure Recorder where
  die : Nat
  cluster : Nat
  crew : Nat
  control : Word
  /-- CYCLE of frame 0, and once stopped the reason and the cycle. -/
  start : Nat
  stop : Option (Nat × Nat)
  /-- Entries recorded: frame, slot and entry, newest first. -/
  log : List (Nat × Nat × Nat)
  /-- Spans of CYCLE, first and last, in which the crew's teams were not resident. -/
  away : List (Nat × Nat)
  /-- The first convoy recorded, by 2 k + h for slot k, hart h. -/
  heads : List (Nat × Word)
  dump : Option TraceDump
  deriving DecidableEq, Repr

/-- A GRBIND of a descriptor (R298): where, and the last CYCLE of one. -/
structure Bind where
  cluster : Nat
  ctx : Nat
  desc : Nat
  cycle : Nat
  deriving DecidableEq, Repr

/-- A cached strainer line of 64 bytes (R298), with the poison marks of its words. A line of a mask row is tagged with the state, the
top symbol and its index in the row; a line of the class map or of the transitions is named by its address alone. -/
structure CachedLine where
  cluster : Nat
  ctx : Nat
  desc : Nat
  row : Option (Nat × Nat × Nat)
  addr : Nat
  data : List Byte
  pois : List Bool
  deriving DecidableEq, Repr

/-- A host port (R423, R424). Mode: 5, 6, 7 for PCIe, 20 for CXL 2.0, 31 and 32 for CXL 3.x, 0 untrained. -/
structure HostPort where
  mode : Nat
  nextMode : Nat
  up : Bool
  downAt : Nat
  /-- 2^16 ticks have passed since the link went down (R424). -/
  expired : Bool
  atomicOps : Bool
  deriving DecidableEq, Repr

/-- A Kolras Link port (R439, R440). -/
structure LinkPort where
  /-- The device at the other end. -/
  peer : Nat
  slow : Bool
  lanes : Nat
  up : Bool
  downAt : Nat
  replays : Nat
  deriving DecidableEq, Repr

/-- What ECC finds in the accesses of a step (R226, R324, R325): nothing, a corrected error, an uncorrectable one in the
word accessed, or one in an 8-byte word, by its number, of a dirty line that is written back. -/
inductive Ecc where
  | clean
  | corrected
  | uncorrectable
  | writeback (word : Nat)
  deriving DecidableEq, Repr

/-- What ECC finds in the vector registers and tiles that an operation reads (R226): nothing, a corrected error, or an uncorrectable one
in the 8-byte word of a byte of the VRF or of a tile (its scale side from 0x8000 on). -/
inductive RegEcc where
  | clean
  | corrected
  | vrf (byte : Nat)
  | tile (k byte : Nat)
  deriving DecidableEq, Repr

/-- What the aligned 8-byte words that a store touches held before it: a plain load of another hart, or a fetch, may still read it (R39,
R309, R311). -/
structure Old where
  /-- The first of the words, what they held, and what they hold with the store. -/
  place : Place
  data : List Byte
  next : List Byte
  /-- The store is single-copy atomic byte by byte alone (R305). -/
  torn : Bool
  /-- The hart that stored over it, and its crew and slot. -/
  writer : Nat
  crew : Nat
  slot : Nat
  /-- CYCLE when it was overwritten. From 64 ticks on no load reads it (R311). -/
  since : Nat
  /-- Launches that ran when it was overwritten: their fetches may read it (R39). -/
  launches : List Nat
  /-- Harts that have read the new value or have synchronised since (R309). -/
  seen : List Nat
  deriving DecidableEq, Repr

/-- What the power controller measures (R430): the mean draw in watts, the hottest die that may be lowered, the coolest that may be raised, and
the cores above 105 °C. -/
structure PowerStep where
  draw : Nat
  hottest : Nat
  coolest : Nat
  hot : List Nat
  deriving DecidableEq, Repr

/-- The package (R422 to R449). -/
structure Package where
  /-- The manifest that the boot ROM applied, and the one that flash holds (R427, R428). -/
  manifest : Manifest
  stored : Manifest
  /-- CYCLE (R63). -/
  cycle : Nat
  /-- Compute clock in MHz (R430). -/
  clock : Nat
  /-- Grant steps below 4, by core (R430), indexed (die × 15 + cluster) × 16 + core. -/
  grant : Sparse Nat
  /-- What the power controller has measured for the next tick boundary; and whether a tick has just begun for which it has decided nothing
  yet (R430). -/
  power : Option PowerStep
  boundary : Bool
  alarm : Nat
  sessionKeys : Bool
  deviceKeys : Bool
  refuseAttest : Bool
  /-- Attestation requests, newest first: whether each was answered (R429). -/
  attested : List Bool
  fwVersion : Nat
  mfVersion : Nat
  idVersion : Nat
  /-- Security versions of the images that were accepted last (R426). -/
  fwAccepted : Nat
  mfAccepted : Nat
  idAccepted : Nat
  fwGood : Bool
  mfGood : Bool
  recovery : Bool
  port0 : HostPort
  port1 : HostPort
  /-- Device register values by offset in region 0xF that a rule names. -/
  devregs : Sparse Word
  sctl : Word
  saddr : Word
  sdata : Word
  sstat : Word
  frozen : List Nat
  links : List LinkPort
  fabricId : Nat
  lost : List Nat
  /-- Devices whose mirror this device has promoted (R449). -/
  promoted : List Nat
  collSeq : Sparse Nat
  failedCores : List (Nat × Nat × Nat)
  failedClusters : List (Nat × Nat)
  failedChannels : List (Nat × Nat)
  /-- ATS invalidations not yet completed: port and range (R384). -/
  invalidating : List (Bool × Nat × Nat)
  /-- Host writes that wait for accesses through a page-table entry they change, oldest first (R383). -/
  hostWrites : List (Nat × List Byte)
  /-- Host reads answered, newest first: all ones where R334 says so, nothing for an Unsupported Request. -/
  hostReads : List (List Byte)
  deriving DecidableEq, Repr

/-- The whole machine. `hart` is the hart that steps. -/
structure State where
  hart : Hart
  others : List Hart
  teams : List Team
  crews : List Crew
  ctxs : List Ctx
  objs : List Obj
  queues : List Queue
  launches : List Launch
  /-- Queue last served, by context (R410). -/
  served : Sparse Nat
  pages : List PageReq
  recorders : List Recorder
  cache : List CachedLine
  /-- The last GRBIND of each descriptor (R298). -/
  binds : List Bind
  /-- Physical memory (R422): the bytes that differ from `Memory.unlisted`. -/
  mem : List Host.Cell
  /-- Tag bits and poison marks by physical 8-byte word (R328, R324). -/
  tags : Sparse Bool
  pois : Sparse Bool
  /-- Context number of a dirty line, by physical line (R325); 0 for a clean line. -/
  owner : Sparse Nat
  /-- Home die of a frame (bits 1:0) and host bias (bit 2), where moved (R322). -/
  homes : Sparse Nat
  pkg : Package
  /-- What engines and the outside world do before the next member: the model's own list. -/
  events : List Instr
  /-- Harts to run next: the model's own list. -/
  turn : List Nat
  /-- Whether each store to come is held back (true) or performed at once: the model's own list (R177, R307). -/
  hold : List Bool
  /-- Events of contexts whose ring lies behind a host link that is down: context, code, address and src (R424, R434). -/
  unfiled : List (Nat × Nat × Nat × Nat)
  /-- Whether the background work of a convoy boundary to come is put off: the model's own list. -/
  lag : List Bool
  /-- What ECC finds in the accesses to come: the model's own list. -/
  ecc : List Ecc
  /-- What ECC finds in the registers and tiles that operations to come read: the model's own list. -/
  regEcc : List RegEcc
  /-- Whether each exit test to come is unresolved after it executes: the model's own list (R184, R190). -/
  unresolved : List Bool
  /-- Where pre-emptions to come stop the members they meet: the model's own list (R138, R412). -/
  cuts : List Nat
  /-- Whether what each store to come overwrites stays readable for a while: the model's own list (R39, R311). -/
  keep : List Bool
  /-- Overwritten values that may still be read, newest first. -/
  old : List Old
  /-- Free values drawn so far: the model's own counter. -/
  free : Nat
  /-- Next fresh number for harts, teams, crews, launches, copies and requests: the model's own counter. -/
  nextId : Nat
  deriving DecidableEq, Repr

/-- The registers at a hart start (R56, R64), with g1 and g2 given. -/
def Regs.atStart (g1 g2 : Word) : Regs :=
  { gpr := Sparse.put zeroWord (Sparse.put zeroWord [] 1 g1) 2 g2
    lr := 0, wb := 0, vt := 0x40, vl := 0, vnreg := 32, bx := Word.ones, fx := Word.ones
    ls0 := 0, le0 := 0, lc0 := 0, ls1 := 0, le1 := 0, lc1 := 0, tstat := 0, astat := 0, vrf := [], vpois := [], masks := [] }

/-- The streamer's shadow set at a hart start (R255): SXSTP0 = 1, SXEXT = one row, one column, and 0 elsewhere. -/
def sxAtStart : Sparse Word := [(2, 1), (7, 0x0000000100000001)]

/-- A hart at its start (R64): `pc` is the entry address. -/
def Hart.atStart (id ctx : Nat) (pc g1 crd tvec spbase : Word) (rows crew slot hidx frame : Nat) : Hart :=
  { id := id, regs := Regs.atStart g1 crd, pc := pc, elix := 0, convoy := [], head := pc, member := 0, convoyAt := 0, priorAt := 0
    headAstat := 0, headSphw := 0
    xrd := 0, grd := 1, tcause := 0, tpc := 0, telix := 0, tval := 0, tvec := tvec, tscr := 0, hartcrd := crd
    ctx := ctx, rseed := 0, spbase := spbase, splane0 := 0, splane1 := 0, splane2 := 0, splane3 := 0
    rows := rows, m15only := false, issued := [], cut := none, late := [], walk := none, region := Region.closed, caddy := [], stores := [], gathers := [], matrix := []
    copies := [], colls := [], pend := [], sx := sxAtStart, session := none, watch := none, waiting := .none, run := .ready
    arrived := [], arrivedGen := [], breakDue := false, sample := none, crew := crew, slot := slot, hidx := hidx
    frame := frame, trap := ⟨0, 0, 0, 0, 0⟩, serves := none, pageFailed := none, padSaved := none, stood := .ready, frameOut := false }

/-- A tile nobody claims (R233). -/
def Tile.empty : Tile := ⟨[], [], [], none, none, false, false⟩

/-- A team at its start: scratchpad and tiles clear (R216, R233). -/
def Team.atStart (id crew slot : Nat) (core : CoreUnit) (size : Nat) : Team :=
  { id := id, crew := crew, slot := slot, core := core, resident := true, bytes := [], pois := [], size := size, sphw := 0
    tiles := List.replicate 8 Tile.empty, lead := 0 }

/-- Every cluster that a manifest enables, in order (R428): the crown's logical clusters (R388). -/
def enabledClusters (m : Manifest) : List (Nat × Nat) :=
  (List.range 4).flatMap fun d => ((List.range 15).filter fun c => (m.clusters.getD d 0).testBit c).map fun c => (d, c)

/-- Every core that a manifest enables, whole (R2). -/
def enabledUnits (m : Manifest) : List CoreUnit := (enabledClusters m).flatMap fun c => (List.range 16).map fun k => ⟨c.1, c.2, k, 0, 0⟩

/-- The crown context as the boot ROM starts it under a manifest (R385, R387, R427), with every resource. Its control block's values are
the firmware's: DESIGN CHOICE (log 2). -/
def Ctx.crown (m : Manifest) : Ctx :=
  { num := 1, parent := none, depth := 0, state := .running
    stage := ⟨false, false, Config.crownRoot, 0, 0, 0, []⟩
    tvec := BitVec.ofNat 64 Config.crownTvec, enable := 0xFFFFFFFE, ring := BitVec.ofNat 64 Config.crownRing
    prqBase := 0, prqCount := 0, prqHead := 0, frames := 0, ceiling := 7, pasid := 0, vf := 0
    memory := m.hbmSize + m.lpddr + m.cxlSize, queues := 4096, children := 65534, objects := 4 * 65536
    units := enabledUnits m, clusters := enabledClusters m, granted := enabledUnits m
    grantedTags := (enabledClusters m).map fun c => (c.1 * 15 + c.2, 0xFF), corrected := 0 }

/-- The ports of the links at reset (R439): each runs on the lanes that the manifest enables. -/
def linkPorts (m : Manifest) : List LinkPort := (List.range 16).map fun k => ⟨0xFFFF, false, m.lanes.getD k 0, m.lanes.getD k 0 != 0, 0, 0⟩

/-- The package as the boot ROM starts it under a manifest (R63, R420, R423, R427, R429, R430, R439). Log 13 and 14 name the values the
spec does not state. -/
def Package.boot (m : Manifest) : Package :=
  { manifest := m, stored := m, cycle := 0, clock := 1900, grant := [], power := none, boundary := true, alarm := 0, sessionKeys := true, deviceKeys := true, refuseAttest := false, attested := []
    fwVersion := 0, mfVersion := 0, idVersion := 0, fwAccepted := 0, mfAccepted := 0, idAccepted := 0, fwGood := true, mfGood := true, recovery := false
    port0 := ⟨0, 0, false, 0, false, true⟩, port1 := ⟨0, 0, false, 0, false, true⟩, devregs := [], sctl := 0, saddr := 0, sdata := 0, sstat := 0
    frozen := [], links := linkPorts m, fabricId := m.fabricId, lost := [], promoted := []
    collSeq := [], failedCores := [], failedClusters := [], failedChannels := [], invalidating := [], hostWrites := [], hostReads := [] }

/-- The first enabled core, where the boot hart stands (DESIGN CHOICE, log 3). -/
def bootUnit (m : Manifest) : CoreUnit := (enabledUnits m).headD ⟨0, 0, 0, 0, 0⟩

/-- The machine as the boot ROM starts it under a manifest (R427): the firmware and the manifest are verified, the frame table holds attr
3 throughout, and one hart of the crown context stands at the firmware entry. -/
def State.booted (m : Manifest) : State :=
  { hart := Hart.atStart 0 1 (BitVec.ofNat 64 Config.firmwareEntry) 0 0 (BitVec.ofNat 64 Config.crownTvec) (BitVec.ofNat 64 Config.bootSpbase) 1024 0 0 0 0
    others := [], teams := [Team.atStart 0 0 0 (bootUnit m) 0x100000]
    crews := [{ id := 0, launch := 0, ctx := 1, stage := 0, index := 0, rows := 1, cols := 1, hartsPerTeam := 1, die := (bootUnit m).die
                cluster := (bootUnit m).cluster, tags := 0, gen := [], count := [], due := [], resident := true, preempting := false, boundAt := 0 }]
    ctxs := [Ctx.crown m], objs := [], queues := [], launches := [], served := [], pages := [], recorders := [], cache := [], binds := [], mem := []
    tags := [], pois := [], owner := [], homes := [], pkg := Package.boot m, events := [], turn := [], hold := [], unfiled := [], lag := [], ecc := []
    regEcc := [], unresolved := [], cuts := [], keep := [], old := [], free := 0, nextId := 1 }

/-- The machine right after reset (R427), of a nominal part (R2). -/
def State.reset : State := State.booted Manifest.nominal

end Sys2Proof.Machine
end

