-- ==== Sys2Proof/Machine/Memory.lean ====
section
/-!
DEFINITION. Bytes of memory and of the scratchpads, with their tags, poison marks and owner tags: the plain reads and writes
on which every access rests (R218, R304 to R306, R324, R328), the device registers of region 0xF (R420, R422), and the stores a
hart has issued but not yet performed (R177, R307).
-/
namespace Sys2Proof.Machine

/-- A byte of physical memory. -/
def Memory.read (m : List Host.Cell) (a : Nat) : Byte := Sparse.get Memory.unlisted m a

/-- One byte of physical memory written. -/
def Memory.write (m : List Host.Cell) (a : Nat) (b : Byte) : List Host.Cell := Sparse.put Memory.unlisted m a b

/-- Consecutive bytes of physical memory written. -/
def Memory.writeList (m : List Host.Cell) (a : Nat) (bs : List Byte) : List Host.Cell := Sparse.putList Memory.unlisted m a bs

/-- The canonical form of memory: addresses strictly rising, no entry equal to what an unlisted address reads as. -/
def Memory.wf (m : List Host.Cell) : Bool := Sparse.wf Memory.unlisted m

/-- A place `n` bytes further on. -/
def Place.add : Place → Nat → Place
  | .phys a, n => .phys (a + n)
  | .pad t o, n => .pad t (o + n)

/-- The 256-byte line that holds a place. -/
def Place.line : Place → Place
  | .phys a => .phys (a / 256 * 256)
  | .pad t o => .pad t (o / 256 * 256)

/-- The bytes from `p` to `q`, where `q` lies in the same memory at or above `p`. -/
def Place.dist : Place → Place → Option Nat
  | .phys a, .phys b => if a ≤ b then some (b - a) else none
  | .pad t a, .pad u b => if t = u ∧ a ≤ b then some (b - a) else none
  | _, _ => none

/-- A team by its name. -/
def State.team? (s : State) (t : Nat) : Option Team := s.teams.find? (fun x => x.id == t)

/-- The team of a crew in a slot (R217). -/
def State.slotTeam? (s : State) (crew slot : Nat) : Option Team := s.teams.find? (fun x => x.crew == crew && x.slot == slot)

/-- Every team named `t` changed. -/
def State.modTeam (s : State) (t : Nat) (f : Team → Team) : State :=
  { s with teams := s.teams.map fun x => if x.id = t then f x else x }

/-- Every hart changed, the one that steps included. -/
def State.mapHarts (s : State) (f : Hart → Hart) : State := { s with hart := f s.hart, others := s.others.map f }

/-- The hart that steps changed. -/
def State.modHart (s : State) (f : Hart → Hart) : State := { s with hart := f s.hart }

/-- The registers of the hart that steps changed. -/
def State.modRegs (s : State) (f : Regs → Regs) : State := { s with hart := { s.hart with regs := f s.hart.regs } }

/-- The package changed. -/
def State.modPkg (s : State) (f : Package → Package) : State := { s with pkg := f s.pkg }

/-- Whether a physical address lies in the scan controller's window (R420). -/
def inScan (a : Nat) : Bool := Config.scanBase ≤ a && a < Config.scanBase + Config.scanSize

/-- A device register's value by its offset in the scan controller's window (R420); other named registers hold what was
written last. -/
def Package.devReg (p : Package) (off : Nat) : Word :=
  if off = 0x00 then p.sctl else if off = 0x08 then p.saddr else if off = 0x10 then p.sdata else if off = 0x18 then p.sstat
  else Sparse.get zeroWord p.devregs off

/-- Records of four words in the device registers from `off` to `upto`, whose last word has bit 0 set, in order. Where the windows of R454
and the ranges of R448 stand among the device registers the spec leaves to the manifest: DESIGN CHOICE (log 18). -/
def Package.records (p : Package) (off upto : Nat) : List (Nat × Nat × Nat × Nat) :=
  p.devregs.filterMap fun e =>
    let w (j : Nat) : Nat := (Sparse.get zeroWord p.devregs (e.1 - 24 + 8 * j)).toNat
    if decide (off + 24 ≤ e.1) && decide (e.1 < upto) && (e.1 - off) % 32 == 24 && e.2.getLsbD 0 then some (w 0, w 1, w 2, w 3) else none

/-- A range of frames and its mirror (R448): base and bytes on the device that is mirrored, the device at the other end, and the base of the
frames there. -/
structure MirrorRange where
  base : Nat
  size : Nat
  device : Nat
  frames : Nat
  deriving DecidableEq, Repr

/-- The range of a record: base, bytes, frames, and in the last word the device at [31:16]. -/
def mirrorOf (r : Nat × Nat × Nat × Nat) : MirrorRange := ⟨r.1, r.2.1, bitsOf r.2.2.2 31 16, r.2.2.1⟩

/-- Whether a range lies in the second tier (R448, R422). -/
def MirrorRange.secondTier (m : MirrorRange) : Bool := (m.base / 2 ^ 48 == 1 || m.base / 2 ^ 48 == 2) && (m.base + m.size - 1) / 2 ^ 48 == m.base / 2 ^ 48

/-- The mirror ranges of a context (R448), 16 at most: records whose last word has the context's number at [47:32]. -/
def Package.mirrors (p : Package) (ctx : Nat) : List MirrorRange :=
  ((((p.records 0x4000 0x10000).filter fun r => bitsOf r.2.2.2 47 32 == ctx).map mirrorOf).filter MirrorRange.secondTier).take 16

/-- The mirrors that this device holds (R448): of ranges of the device that each names, in frames of this one. -/
def Package.held (p : Package) : List MirrorRange := (p.records 0x800 0x4000).map mirrorOf

/-- Where the mirror of `n` bytes of a device's memory stands in this one's (R449). -/
def Package.mirrorHere (p : Package) (device a n : Nat) : Option Nat :=
  (p.held.find? fun m => m.device == device && decide (m.base ≤ a) && decide (a + n ≤ m.base + m.size)).map fun m => m.frames + (a - m.base)

/-- Host windows onto device frames (R454): port, host base, bytes in units of 256 MiB, device base. -/
def Package.windows (p : Package) : List (Bool × Nat × Nat × Nat) :=
  (p.records 0x200 0x300).map fun r => (r.2.2.2 / 2 % 2 == 1, r.1, r.2.1 / 2 ^ 28 * 2 ^ 28, r.2.2.1)

/-- A byte at a place, as memory itself holds it. -/
def State.peek (s : State) : Place → Byte
  | .phys a => if inScan a then ((s.pkg.devReg ((a - Config.scanBase) / 8 * 8)).extractLsb' (8 * (a % 8)) 8) else Memory.read s.mem a
  | .pad t o => match s.team? t with
    | some x => Sparse.get zeroByte x.bytes o
    | none => 0

/-- `n` bytes from a place on. -/
def State.peekList (s : State) (p : Place) : Nat → List Byte
  | 0 => []
  | n + 1 => s.peek p :: s.peekList (p.add 1) n

/-- The 8-byte little-endian word at a physical address. -/
def State.physWord (s : State) (a : Nat) : Word := BitVec.ofNat 64 (bytesToNat (s.peekList (.phys a) 8))

/-- The poison mark of the 8-byte word that holds a place (R324, R226); a place that no longer exists reads as poisoned. -/
def State.poisoned (s : State) : Place → Bool
  | .phys a => Sparse.get clearBit s.pois (a / 8)
  | .pad t o => match s.team? t with
    | some x => Sparse.get clearBit x.pois (o / 8)
    | none => true

/-- Whether any word that `n` bytes from a place touch is poisoned. -/
def State.anyPoison (s : State) (p : Place) (n : Nat) : Bool :=
  s.poisoned p || ((List.range ((n + 7) / 8)).any fun k => s.poisoned (p.add (if 8 * k + 7 < n then 8 * k + 7 else n - 1)))

/-- The tag bit of the word that holds a place (R328): the scratchpads hold none. -/
def State.tagAt (s : State) : Place → Bool
  | .phys a => Sparse.get clearBit s.tags (a / 8)
  | .pad _ _ => false

/-- Marks of `cnt` words from word `w` on set to `v`. -/
def setMarks (m : Sparse Bool) (w : Nat) (v : Bool) : Nat → Sparse Bool
  | 0 => m
  | cnt + 1 => setMarks (Sparse.put clearBit m w v) (w + 1) v cnt

/-- Poison after a store of `n` bytes at byte `a`: a word all of whose bytes are written is clean (R314, R324). -/
def clearCovered (m : Sparse Bool) (a n : Nat) : Sparse Bool :=
  let lo := (a + 7) / 8
  let hi := (a + n) / 8
  setMarks m lo false (hi - lo)

/-- Owner tags of `cnt` lines from line `l` on (R325). -/
def setOwners (m : Sparse Nat) (l owner : Nat) : Nat → Sparse Nat
  | 0 => m
  | cnt + 1 => setOwners (Sparse.put zeroNat m l owner) (l + 1) owner cnt

/-- Whether a line has one of the `n` bytes from a place on. -/
def Place.meetsLine (p : Place) (n : Nat) (line : Place) : Bool :=
  match p.line.dist line with
  | some k => decide (k < (p.line.dist p).getD 0 + n)
  | none => false

/-- A performed write of `n` bytes wakes every hart that watches a line it touches (R315). -/
def State.wakeLines (s : State) (p : Place) (n : Nat) : State :=
  s.mapHarts fun h => match h.watch with
    | some w => if p.meetsLine n w.line then { h with watch := some { w with fired := true } } else h
    | none => h

/-- The security counter of a kind of image raised to the version accepted (R426): 1 firmware, 2 a manifest, 3 an identity statement. -/
def Package.raiseCounter (p : Package) (kind : Nat) : Package :=
  match kind with
  | 1 => { p with fwVersion := max p.fwVersion p.fwAccepted }
  | 2 => { p with mfVersion := max p.mfVersion p.mfAccepted }
  | 3 => { p with idVersion := max p.idVersion p.idAccepted }
  | _ => p

/-- A write to a device register: SCTL commands 1 to 4 ask for a freeze, a thaw, a read or a write, which the scan controller makes before
the next member (R420); the alarm register, which log 18 places, is cleared (R429), and a flash write raises the counter of a kind of image to the version
accepted (R426). -/
def State.deviceWrite (s : State) (off : Nat) (v : Word) : State :=
  if off = 0x00 then
    let s := s.modPkg fun p => { p with sctl := v }
    match v.toNat % 8 with
    | 1 => { s with events := s.events ++ [.scanFreeze] }
    | 2 => { s with events := s.events ++ [.scanThaw] }
    | 3 => { s with events := s.events ++ [.scanRead] }
    | 4 => { s with events := s.events ++ [.scanWrite] }
    | _ => s
  else if off = 0x08 then s.modPkg fun p => { p with saddr := v }
  else if off = 0x10 then s.modPkg fun p => { p with sdata := v }
  else if off = 0x18 then s
  else if off = 0x20 then
    let s := s.modPkg fun p => { p with devregs := Sparse.put zeroWord p.devregs off v }
    { s with events := s.events ++ [.alarmRegisterWrite] }
  else if off = 0x30 then s.modPkg fun p => p.raiseCounter (v.toNat % 4)
  else s.modPkg fun p => { p with devregs := Sparse.put zeroWord p.devregs off v }

/-- The host port whose window holds a physical address (R422). -/
def State.portOf (s : State) (pa : Nat) : Option HostPort :=
  if pa / 2 ^ 48 = 4 then some s.pkg.port0 else if pa / 2 ^ 48 = 5 then some s.pkg.port1 else none

/-- The host port of a place. -/
def State.portAt (s : State) : Place → Option HostPort
  | .phys a => s.portOf a
  | .pad _ _ => none

/-- Whether 2^16 ticks have passed since a port's link went down, in CYCLE `now` (R399, R424). -/
def HostPort.out (x : HostPort) (now : Nat) : Bool := x.expired || decide (x.downAt + 2 ^ 16 ≤ now / 256)

/-- Whether accesses to a place wait for a host link (R424), and whether they no longer do: it has been down for 2^16 ticks. -/
def State.linkWaits (s : State) (p : Place) : Bool := (s.portAt p).any fun x => !x.up && !x.out s.pkg.cycle
def State.linkLost (s : State) (p : Place) : Bool := (s.portAt p).any fun x => !x.up && x.out s.pkg.cycle

/-- A place that holds nothing: a store to it is dropped, and a read of it is poisoned (R424). -/
def nowhere : Place := .pad (2 ^ 64) 0

/-- Bytes written at a place, as the home performs a store (R306): a physical write sets or clears the tag of every word it
touches (R328), cleans the poison of every word it covers (R314) and gives its lines their owner tag (R325); a scratchpad write
raises the owner team's SPHW (R62, R218), from what it is: an MTS that lowered it is not undone by the writes before it (DESIGN CHOICE,
log 58). -/
def State.poke (s : State) (p : Place) (data : List Byte) (tag : Bool) (owner : Nat) : State :=
  let n := data.length
  if n = 0 then s else
  let s := match p with
    | .phys a =>
      if inScan a then s.deviceWrite ((a - Config.scanBase) / 8 * 8) (BitVec.ofNat 64 (bytesToNat data))
      else { s with
        mem := Memory.writeList s.mem a data
        tags := setMarks s.tags (a / 8) tag ((a + n - 1) / 8 + 1 - a / 8)
        pois := clearCovered s.pois a n
        owner := setOwners s.owner (a / 256) owner ((a + n - 1) / 256 + 1 - a / 256) }
    | .pad t o => s.modTeam t fun x =>
        { x with
          bytes := Sparse.putList zeroByte x.bytes o data
          pois := clearCovered x.pois o n
          sphw := max x.sphw (ceilDiv (o + n) 256 * 256) }
  s.wakeLines p n

/-- Poison marks set on the words that `n` bytes from a place touch (R324). -/
def State.poisonAt (s : State) (p : Place) (n : Nat) : State :=
  match p with
  | .phys a => { s with pois := setMarks s.pois (a / 8) true ((a + n - 1) / 8 + 1 - a / 8) }
  | .pad t o => s.modTeam t fun x => { x with pois := setMarks x.pois (o / 8) true ((o + n - 1) / 8 + 1 - o / 8) }

/-- One bit of physical memory set, as an atomic OR at its home (R372): the line is dirty for the context `owner` (R325), its word's tag
is 0 (R328), and who watches it wakes (R315). -/
def State.setMemBit (s : State) (owner a bit : Nat) : State :=
  ({ s with
    mem := Memory.write s.mem a (Memory.read s.mem a ||| BitVec.ofNat 8 (2 ^ bit))
    tags := Sparse.put clearBit s.tags (a / 8) false
    owner := setOwners s.owner (a / 256) owner 1 } : State).wakeLines (.phys a) 1

/-- The dirty bits of a translation set (R372). -/
def State.setDirty (s : State) (owner : Nat) (dirty : List (Nat × Nat)) : State := dirty.foldl (fun s d => s.setMemBit owner d.1 d.2) s

/-- The harts of the machine. -/
def State.harts (s : State) : List Hart := s.hart :: s.others

/-- The place's own number: a physical address or an offset. -/
def Place.number : Place → Nat
  | .phys a => a
  | .pad _ o => o

/-- A place with another number in the same memory. -/
def Place.setNumber : Place → Nat → Place
  | .phys _, n => .phys n
  | .pad t _, n => .pad t n

/-- The single-copy atomic units of an access of `n` bytes (R305), by offset and size: the whole where it is naturally aligned, aligned
8-byte words, or single bytes. -/
def unitsOf (p : Place) (n : Nat) : List (Nat × Nat) :=
  if (n = 1 ∨ n = 2 ∨ n = 4 ∨ n = 8) ∧ p.number % n = 0 then [(0, n)]
  else if p.number % 8 = 0 ∧ n % 8 = 0 then (List.range (n / 8)).map fun k => (8 * k, 8)
  else (List.range n).map fun k => (k, 1)

/-- The bytes `old` from `p` on with `data` written at `q`. -/
def overlay (p : Place) (old : List Byte) (q : Place) (data : List Byte) : List Byte :=
  (List.range old.length).map fun k =>
    match q.dist (p.add k) with
    | some j => data.getD j (old.getD k 0)
    | none => old.getD k 0

/-- What a store overwrites, kept readable for a while when `State.keep` says so (R39, R311). Launches that have started are those with a
crew bound. -/
def State.keepOld (s : State) (writer : Nat) (p : Place) (data : List Byte) : State :=
  match s.keep with
  | true :: rest =>
    let w := p.setNumber (p.number / 8 * 8)
    let was := s.peekList w ((p.number % 8 + data.length + 7) / 8 * 8)
    let who := (s.harts.find? fun h => h.id == writer).map fun h => (h.crew, h.slot)
    { s with
      keep := rest
      old := { place := w, data := was, next := overlay w was p data, torn := (unitsOf p data.length).any fun u => u.2 == 1 && data.length != 1
               writer := writer, crew := (who.map (·.1)).getD 0, slot := (who.map (·.2)).getD 0, since := s.pkg.cycle
               launches := s.crews.map (·.launch), seen := [] } :: s.old }
  | _ => { s with keep := s.keep.drop 1 }

/-- The byte that an overwritten value has for a place. -/
def Old.byteAt (o : Old) (p : Place) : Option Byte :=
  match o.place.dist p with
  | some k => o.data[k]?
  | none => none

/-- Whether an overwritten value has one of `n` bytes from a place. -/
def Old.touches (o : Old) (p : Place) (n : Nat) : Bool := (List.range n).any fun k => (o.byteAt (p.add k)).isSome

/-- Overwritten values that hart `id` reads no more. -/
def State.forgetBy (s : State) (id : Nat) (sel : Old → Bool) : State :=
  { s with old := s.old.map fun o => if sel o then { o with seen := id :: o.seen } else o }

/-! ## Leases of published objects (R311, R332, R336) -/

/-- The object that covers a physical address, if any (R331). -/
def State.objAt (s : State) (pa : Nat) : Option Obj := s.objs.find? (fun o => o.lines.contains (pa / 256 * 256))

/-- The object that covers a place, if any. -/
def State.objOf (s : State) : Place → Option Obj
  | .phys a => s.objAt a
  | .pad _ _ => none

/-- An object-table entry changed. -/
def State.modObj (s : State) (o : Obj) (f : Obj → Obj) : State :=
  { s with objs := s.objs.map fun x => if x.die = o.die ∧ x.index = o.index then f x else x }

/-- The program time of a team's core: it advances with TICK (R311). -/
def State.programTime (s : State) (t : Team) : Nat := s.pkg.cycle / 256 + t.lead

/-- The program time of a team's core brought up to `at` (R311). -/
def State.advance (s : State) (t : Team) (at' : Nat) : State := s.modTeam t.id fun t => { t with lead := max t.lead (at' - s.pkg.cycle / 256) }

/-- The end of the lease that a team's core holds on an object; 0 for none. -/
def Obj.leaseOf (o : Obj) (t : Team) : Nat := ((o.leases.find? fun l => l.1 == t.id).map (·.2)).getD 0

/-- A read that a published object's home answers renews the core's lease on it (R336): it ends 16 to 64 units past the program time, as the
device chooses, and no hart of the team reads an older value of any of its lines. -/
def State.renewed (s : State) (p : Place) : State :=
  match s.objOf p, s.slotTeam? s.hart.crew s.hart.slot with
  | some o, some t =>
    if o.scope = 0 then s
    else
      let ends := s.programTime t + 16 + Config.freeChoice s.free % 49
      let s := { s with free := s.free + 1 }.modObj o fun o => { o with leases := (t.id, ends) :: o.leases.filter fun l => l.1 != t.id }
      (s.harts.filter fun h => h.crew == t.crew && h.slot == t.slot).foldl (fun s h => s.forgetBy h.id fun x =>
        match x.place with
        | .phys a => o.lines.contains (a / 256 * 256)
        | .pad _ _ => false) s
  | _, _ => s

/-- A store of a hart that a published object's home performs moves the storing core's program time past every lease on the object, which is
its write timestamp (R311, R336). -/
def State.stampStore (s : State) (writer : Nat) (p : Place) : State :=
  match s.objOf p, (s.harts.find? fun h => h.id == writer).bind fun h => s.slotTeam? h.crew h.slot with
  | some o, some t =>
    if o.scope = 0 then s
    else
      let now := (o.leases.map (·.2 + 1)).foldl max (s.programTime t)
      (s.modObj o fun o => { o with stamp := max o.stamp now }).advance t now
  | _, _ => s

/-- An acquire at a published object renews, and raises the core's program time to its write timestamp (R311). -/
def State.acquireLease (s : State) (p : Place) : State :=
  match s.objOf p, s.slotTeam? s.hart.crew s.hart.slot with
  | some o, some t => if o.scope = 0 then s else (s.advance t o.stamp).renewed p
  | _, _ => s

/-! ## Performing a store -/

/-- Whether the translation of a pending store used an entry that lies in the `n` bytes from a place (R383). -/
def usesEntry (via : List Nat) (p : Place) (n : Nat) : Bool :=
  match p with
  | .phys a => via.any fun e => decide (e < a + n) && decide (a < e + 8)
  | .pad _ _ => false

/-- Whether a store that the hart holds in the caddy was translated through an entry in the `n` bytes from a place (R383). -/
def Hart.heldVia (h : Hart) (p : Place) (n : Nat) : Bool :=
  (h.caddy ++ h.region.strips.flatMap (·.caddy)).any fun c => c.stores.any (fun q => usesEntry q.via p n) || c.mx.any fun q => usesEntry q.via p n

/-- Whether an operation that the hart forked, or a vector load that it performs later, was translated through an entry in the `n` bytes from a
place (R383). -/
def Hart.engineVia (h : Hart) (p : Place) (n : Nat) : Bool :=
  h.matrix.any (fun m => usesEntry m.via p n) || h.sample.any (fun x => usesEntry x.via p n) || h.late.any fun l => l.elems.any fun x => usesEntry x.via p n

/-- Whether an entry in the `n` bytes from a place stands under an access that is yet to be performed or discarded, so that a store of the
hart to it waits (R383). Pending stores are performed by the store itself. -/
def State.entryInUse (s : State) (p : Place) (n : Nat) : Bool :=
  s.others.any (fun h => h.heldVia p n) || s.harts.any (fun h => h.engineVia p n) || s.recorders.any fun r => r.dump.any fun d => usesEntry d.via p n

/-- Whether an issued store cannot be performed yet: its host link is down (R424), or an access goes through the entry that it writes (R383). -/
def State.stuck (s : State) (q : Pending) : Bool := s.linkWaits q.place || s.entryInUse q.place q.data.length

/-- Whether an access that the hart has issued, or a store that it holds, cannot be performed yet. The hart executes nothing meanwhile. -/
def State.storesStuck (s : State) : Bool :=
  s.hart.stores.any s.stuck ||
  (s.hart.caddy ++ s.hart.region.strips.flatMap (·.caddy)).any (fun c => c.stores.any (fun q => s.linkWaits q.place) || c.mx.any fun q => s.linkWaits q.group) ||
  s.hart.late.any fun l => l.elems.any fun x => s.linkWaits x.place

/-- A pending store of hart `w` performed: first the dirty bits of its translation (R372), then its bytes. The hart itself reads no older
value of the words that it touches (R309). A store to a host window whose link is lost is dropped (R424). -/
def State.performOne (s : State) (w : Nat) (q : Pending) : State :=
  if s.linkLost q.place then s else
  let s := (s.setDirty q.owner q.dirty).forgetBy w fun o => o.touches (q.place.setNumber (q.place.number / 8 * 8)) (q.place.number % 8 + q.data.length)
  ((s.keepOld w q.place q.data).stampStore w q.place).poke q.place q.data q.tag q.owner

/-- A pending store of hart `w` performed, after every pending store of any hart that was translated through an entry that it writes
(R383); `fuel` bounds the chain of such stores. -/
def State.performAfter : Nat → State → Nat × Pending → State
  | 0, s, x => s.performOne x.1 x.2
  | fuel + 1, s, x =>
    match s.harts.flatMap fun h => (h.stores.filter fun y => usesEntry y.via x.2.place x.2.data.length).map fun y => (h.id, y) with
    | [] => s.performOne x.1 x.2
    | due =>
      let s := s.mapHarts fun h => { h with stores := h.stores.filter fun y => !usesEntry y.via x.2.place x.2.data.length }
      (due.foldl (State.performAfter fuel) s).performOne x.1 x.2

/-- A store of the hart performed. -/
def State.perform (s : State) (q : Pending) : State := s.performAfter (s.harts.map fun h => h.stores.length).sum (s.hart.id, q)

/-- The byte a pending store has for a place, if it covers it. -/
def Pending.byteAt (q : Pending) (p : Place) : Option Byte :=
  match q.place.dist p with
  | some k => q.data[k]?
  | none => none

/-- Whether a pending store touches one of `n` bytes from a place. -/
def Pending.touches (q : Pending) (p : Place) (n : Nat) : Bool :=
  (List.range n).any fun k => (q.byteAt (p.add k)).isSome

/-- A byte as a hart sees it behind its own pending stores of the kind `sel`: the latest of them, else memory (R89, R176). -/
def State.view (s : State) (sel : Pending → Bool) (p : Place) : Byte :=
  match (s.hart.stores.reverse.filter sel).findSome? (fun q => q.byteAt p) with
  | some b => b
  | none => s.peek p

/-- `n` bytes as the hart sees them. -/
def State.viewList (s : State) (sel : Pending → Bool) (p : Place) : Nat → List Byte
  | 0 => []
  | n + 1 => s.view sel p :: s.viewList sel (p.add 1) n

/-- Whether a pending store writes every byte of the 8-byte word that holds a place (R314). -/
def Pending.coversWord (q : Pending) (p : Place) : Bool :=
  let w : Place := match p with
    | .phys a => .phys (a / 8 * 8)
    | .pad t o => .pad t (o / 8 * 8)
  (List.range 8).all fun k => (q.byteAt (w.add k)).isSome

/-- Whether a word of `n` bytes is poisoned as the hart sees it behind its own pending stores of the kind `sel`. -/
def State.viewPoison (s : State) (sel : Pending → Bool) (p : Place) (n : Nat) : Bool :=
  (List.range n).any fun k => s.poisoned (p.add k) && !(s.hart.stores.any fun q => sel q && q.coversWord (p.add k))

/-- Every pending store of the kind `sel` that can be performed is, oldest first; with a store released from the caddy all that were released
(R196). -/
def State.drain (s : State) (sel : Pending → Bool) : State :=
  let all := s.hart.stores.any fun q => sel q && q.released
  let go (q : Pending) : Bool := (sel q || (all && q.released)) && !s.stuck q
  let due := s.hart.stores.filter go
  let s := s.modHart fun h => { h with stores := h.stores.filter fun q => !go q }
  due.foldl State.perform s

/-- Every pending store performed (R310, R317). -/
def State.drainAll (s : State) : State := s.drain fun _ => true

/-- A store issued: performed at once, after the hart's own earlier stores of its class to the same bytes (R89, R176) and, of a store
released from the caddy, after those released before (R196); or held back when `State.hold` says so (R177, R307). -/
def State.issueStore (s : State) (q : Pending) : State :=
  match s.hold with
  | true :: rest => { s with hold := rest, hart := { s.hart with stores := s.hart.stores ++ [q] } }
  | _ =>
    let s := { s with hold := s.hold.drop 1 }
    (s.drain fun p => p.vector == q.vector && (q.touches p.place p.data.length || p.touches q.place q.data.length || (p.released && q.released))).perform q

/-! ## Old values (R39, R309, R311) -/

/-- Whether a plain load of the hart may still read an overwritten value. A scratchpad, the L1 that the harts of a team share and a private
object's lines hold one copy, so that only a load that was in flight when the store was performed reads it: one of the present convoy or
of the one before it (R89, R224, R336; log 9). Elsewhere another core's copy stays for 64 ticks (R311), of a published object while the
core's lease on it lasts (R336). -/
def State.mayRead (s : State) (o : Old) : Bool :=
  let early := decide (s.hart.priorAt ≤ o.since)
  let recent := decide (s.pkg.cycle / 256 < o.since / 256 + 64)
  match o.place with
  | .pad _ _ => early
  | .phys a =>
    if o.crew = s.hart.crew ∧ o.slot = s.hart.slot then early
    else match s.objAt a with
      | none => recent
      | some x =>
        if x.scope = 0 then early
        else recent && ((s.slotTeam? s.hart.crew s.hart.slot).map fun t => decide (s.programTime t ≤ x.leaseOf t)).getD false

/-- The overwritten values that a plain load of `n` bytes by the hart may still read, newest first: stored over by another hart, with
nothing since that has shown the hart the new value. -/
def State.stale (s : State) (p : Place) (n : Nat) : List Old :=
  s.old.filter fun o => o.writer != s.hart.id && !o.seen.contains s.hart.id && o.touches p n && s.mayRead o

/-- The hart has synchronised: it reads no overwritten value any more (R309, R311). -/
def State.synced (s : State) : State := s.forgetBy s.hart.id fun _ => true

/-- The hart has read `n` bytes at their current state: it reads no older value of them any more (R311, R315). -/
def State.current (s : State) (p : Place) (n : Nat) : State := (s.forgetBy s.hart.id fun o => o.touches p n).acquireLease p

/-- An acquire at a place: the hart has synchronised (R309), with the bytes at their current state (R311). -/
def State.acquired (s : State) (p : Place) : State := (s.acquireLease p).synced

/-- The byte that a load reads of an overwritten value: of a store that is not single-copy atomic, the old one or the new one (R305). -/
def Old.read (o : Old) (mix : Nat) (p : Place) : Option Byte :=
  match o.place.dist p with
  | some k => if o.torn && mix.testBit k then o.next[k]? else o.data[k]?
  | none => none

/-- The byte at a place as the hart's own pending stores of the kind `sel` have it, or else `other`. -/
def State.ownOr (s : State) (sel : Pending → Bool) (p : Place) (other : Byte) : Byte :=
  ((s.hart.stores.reverse.filter sel).findSome? fun q => q.byteAt p).getD other

/-- A single-copy atomic unit of `n` bytes read by a plain load of the hart behind its own pending stores of the kind `sel`: as memory holds
it, or, of the overwritten values that it may still read, one that the device chooses; older ones it then reads no more. -/
def State.readUnit (s : State) (sel : Pending → Bool) (p : Place) (n : Nat) : State × List Byte :=
  match s.stale p n with
  | [] => (s.renewed p, s.viewList sel p n)
  | os =>
    let i := Config.freeChoice s.free % (os.length + 1)
    let t := { s with free := s.free + 2 }
    match os[i]? with
    | none => ((t.forgetBy s.hart.id os.contains).renewed p, s.viewList sel p n)
    | some o => (t.forgetBy s.hart.id (os.drop (if o.torn then i else i + 1)).contains,
        (List.range n).map fun k => s.ownOr sel (p.add k) ((o.read (Config.freeChoice (s.free + 1)) (p.add k)).getD (s.peek (p.add k))))

/-- `n` bytes read by a plain load, each single-copy atomic unit for itself (R305). -/
def State.readList (s : State) (sel : Pending → Bool) (p : Place) (n : Nat) : State × List Byte :=
  (unitsOf p n).foldl (fun r u =>
    let (s, bs) := r.1.readUnit sel (p.add u.1) u.2
    (s, r.2 ++ bs)) (s, [])

/-- Stores of one member with the 8-byte words that they fill between them made one store each, where `sel` asks it of the word (R305,
R314). -/
def joinWords (sel : Place → Bool) (qs : List Pending) : List Pending :=
  let wordOf (q : Pending) : Place := q.place.setNumber (q.place.number / 8 * 8)
  let part (q : Pending) : Bool := decide (q.place.number % 8 + q.data.length ≤ 8) && q.data.length != 8 && sel (wordOf q)
  let byteOf (w : Place) (k : Nat) : Option Byte := ((qs.filter part).reverse).findSome? fun q => q.byteAt (w.add k)
  let full (w : Place) : Bool := (List.range 8).all fun k => (byteOf w k).isSome
  (List.range qs.length).filterMap fun k =>
    match qs[k]? with
    | none => none
    | some q =>
      let w := wordOf q
      if !part q || !full w then some q
      else if (qs.drop (k + 1)).any fun x => part x && wordOf x == w then none
      else
        let mates := qs.filter fun x => part x && wordOf x == w
        some { q with
          place := w, data := (List.range 8).map fun j => (byteOf w j).getD 0
          dirty := (mates.flatMap (·.dirty)).eraseDups, via := (mates.flatMap (·.via)).eraseDups }

end Sys2Proof.Machine
end

