-- ==== Sys2Proof/Machine/Translate.lean ====
section
/-!
DEFINITION. Translation: device-native and host-format stages, their composition up to the crown context, the frame table, and
the accessed and dirty bits (R369 to R382, R422).
-/
namespace Sys2Proof.Machine

/-- A read, entry or check that fails in a translation: its cause, the stage, that stage's input address and log2 of the
smallest leaf its format allows (R375, R376, R171). -/
structure XFail where
  /-- 0xFF says that the read waits for a host link (R424). -/
  cause : BitVec 8
  stage : Nat
  va : Nat
  leafLog : Nat
  deriving DecidableEq, Repr

/-- An entry that a translation used: a leaf with its accessed and dirty bits (R372), or a pointer, which has none. -/
structure Leaf where
  stage : Nat
  /-- Physical address of the entry. -/
  entry : Nat
  abit : Option Nat
  dbit : Option Nat
  /-- The leaf translates the accessed address itself, not a table read. -/
  own : Bool
  /-- The stage that denies writing the page that holds the entry, if one does. -/
  denied : Option Nat
  deriving DecidableEq, Repr

/-- A composed translation (R374), before its permission and attribute checks. -/
structure Xl where
  pa : Nat
  /-- Smallest leaf size among the stages, in bytes. -/
  size : Nat
  /-- The lowest stage that denies every access (a clear user bit under UREQ, R377), writing, and execution. -/
  noU : Option Nat
  noW : Option Nat
  noX : Option Nat
  attr : Attr
  /-- Format of each native stage above the first, lowest first. -/
  fmts : List (Nat × Nat)
  /-- Tracked bit of each stage, lowest first. -/
  trks : List (Nat × Bool)
  /-- The input address of each stage, lowest first. -/
  inputs : List (Nat × Nat)
  leaves : List Leaf
  deriving DecidableEq, Repr

/-- RAW, untracked, class 2 (R378). -/
def Attr.raw : Attr := ⟨0, 0, 0, false, 2⟩

/-- What one stage's own walk yields. -/
structure StageWalk where
  out : Nat
  size : Nat
  u : Bool
  w : Bool
  x : Bool
  attr : Attr
  leaf : Leaf
  /-- Leaves used by the walk's table reads. -/
  used : List Leaf
  deriving DecidableEq, Repr

/-- A table entry as the walker reads it: its physical address, its value, the leaves that translated the read, and the stage
that denies writing it. -/
abbrev Entry := Nat × Word × List Leaf × Option Nat

/-- Attributes in bits [15:4] of a leaf (R370). -/
def attrOf (e : Nat) : Attr := ⟨bitsOf e 7 4, bitsOf e 9 8, bitsOf e 11 10, bitsOf e 12 12 == 1, bitsOf e 15 13⟩

/-- Whether a format has MX blocks: MXFP8 and MXFP4 (R26, R120). -/
def isMx (fmt : Nat) : Bool := fmt == 6 || fmt == 7

/-- Attributes that R370 allows: a class of 0 to 4, 3 and 4 only untracked, a format of 0 to 10, plane and geometry only for MX. -/
def Attr.legal (a : Attr) : Bool :=
  a.cls ≤ 4 && !(a.tracked && a.cls ≥ 3) && a.fmt ≤ 10 && (isMx a.fmt || (a.geom == 0 && a.plane == 0))

/-- The levels of a device-native walk from `table` down, by the bit where each index begins (R369, R370, R371). -/
def nativeLevels (read : Nat → Except XFail Entry) (j a : Nat) : List Nat → Nat → List Leaf → Except XFail StageWalk
  | [], _, _ => .error ⟨0x0A, j, a, 16⟩
  | sh :: rest, table, used => do
    let (pa, v, ls, denied) ← read (table + 8 * (a / 2 ^ sh % 8192))
    let e := v.toNat
    let used := used ++ ls
    if e % 2 = 0 then .error ⟨0x07, j, a, 16⟩
    else if bitsOf e 3 3 = 0 then
      if rest.isEmpty || bitsOf e 15 4 != 0 || bitsOf e 2 1 != 0 then .error ⟨0x0A, j, a, 16⟩
      else nativeLevels read j a rest (bitsOf e 51 16 * 65536) (used ++ [⟨j, pa, none, none, false, none⟩])
    else
      let base := bitsOf e 51 16 * 65536
      if base % 2 ^ sh != 0 || !(attrOf e).legal then .error ⟨0x0A, j, a, 16⟩
      else .ok { out := base + a % 2 ^ sh, size := 2 ^ sh, u := true, w := bitsOf e 1 1 == 1, x := bitsOf e 2 2 == 1, attr := attrOf e
                 leaf := ⟨j, pa, some 62, some 63, true, denied⟩, used := used }

/-- A device-native walk (R369). -/
def nativeWalk (read : Nat → Except XFail Entry) (j root a : Nat) : Except XFail StageWalk :=
  if a ≥ 2 ^ 55 then .error ⟨0x07, j, a, 16⟩ else nativeLevels read j a [42, 29, 16] root []

/-- The position of bit `i` of the list of R377 in a host entry, if it exists: present, write, user, no-execute, accessed,
dirty, leaf flag. -/
def Stage.bitPos (st : Stage) (i : Nat) : Option Nat :=
  let b := bitsOf st.bits.toNat (8 * i + 7) (8 * i)
  if bitsOf b 7 7 = 1 then some (bitsOf b 5 0) else none

/-- A bit of a host entry, with the value that a missing one has. -/
def Stage.bit (st : Stage) (i : Nat) (e : Nat) (missing : Bool) : Bool :=
  match st.bitPos i with
  | some p => bitsOf e p p == 1
  | none => missing

def Stage.levels (st : Stage) : Nat := bitsOf st.shape.toNat 2 0
def Stage.basePage (st : Stage) : Nat := bitsOf st.shape.toNat 11 4
def Stage.indexBits (st : Stage) : Nat := bitsOf st.shape.toNat 19 16

/-- The size code of a host-format stage's base page (R171, R376). -/
def sizeCodeOf (log : Nat) : Nat :=
  if log = 12 then 0 else if log = 16 then 1 else if log = 21 then 2 else if log = 29 then 3 else if log = 30 then 4 else if log = 42 then 5 else 6

/-- The device attributes of an input address of a host-format stage 0: the overlay entry that covers it (R378). -/
def Stage.overlayAttr (st : Stage) (a : Nat) : Attr :=
  match st.overlay.find? (fun o => o.base ≤ a && a < o.base + o.size) with
  | some o => attrOf o.attr.toNat
  | none => Attr.raw

/-- The levels of a host-format walk: `lvl` counts from the root, `left` levels remain (R377). -/
def hostLevels (st : Stage) (read : Nat → Except XFail Entry) (j a : Nat) : Nat → Nat → Nat → List Leaf → Except XFail StageWalk
  | 0, _, _, _ => .error ⟨0x07, j, a, st.basePage⟩
  | left + 1, lvl, table, used => do
    let sh := st.basePage + st.indexBits * left
    let (pa, v, ls, denied) ← read (table + 8 * (a / 2 ^ sh % 2 ^ st.indexBits))
    let e := v.toNat
    let used := used ++ ls
    let lo := bitsOf st.frameField.toNat 5 0
    let hi := bitsOf st.frameField.toNat 13 8
    let field := bitsOf e hi lo * 2 ^ lo
    if !st.bit 0 e false then .error ⟨0x07, j, a, st.basePage⟩
    else if left = 0 || (st.bit 6 e false && bitsOf st.shape.toNat (24 + lvl) (24 + lvl) == 1) then
      if j = 0 && !(st.overlayAttr a).legal then .error ⟨0x0A, j, a, st.basePage⟩
      else .ok { out := field / 2 ^ sh * 2 ^ sh + a % 2 ^ sh, size := 2 ^ sh, u := bitsOf st.frameField.toNat 16 16 == 0 || st.bit 2 e true
                 w := st.bit 1 e false, x := !st.bit 3 e false, attr := if j = 0 then st.overlayAttr a else Attr.raw
                 leaf := ⟨j, pa, st.bitPos 4, st.bitPos 5, true, denied⟩, used := used }
    else hostLevels st read j a left (lvl + 1) field (used ++ [⟨j, pa, none, none, false, none⟩])

/-- A host-format walk (R377). -/
def hostWalk (st : Stage) (read : Nat → Except XFail Entry) (j a : Nat) : Except XFail StageWalk :=
  if a ≥ 2 ^ (st.basePage + st.indexBits * st.levels) || a ≥ 2 ^ 55 then .error ⟨0x07, j, a, st.basePage⟩
  else hostLevels st read j a st.levels 0 st.root []

/-- The populated extents of the physical map under a manifest (R422, R428). -/
def populated (m : Manifest) (pa : Nat) : Bool :=
  let off := pa % 2 ^ 48
  match pa / 2 ^ 48 with
  | 0 => off < m.hbmSize
  | 1 => off < m.lpddr
  | 2 => off < m.cxlSize
  | 4 => true
  | 5 => true
  | 15 => (Config.frameTableBase ≤ pa && pa < Config.frameTableBase + Config.frameTableSize) || inScan pa ||
      (Config.crownFrames ≤ pa && pa < Config.crownFrames + Config.crownFramesSize)
  | _ => false

/-- The metadata bits per line of the expander that holds an offset of region 2, in manifest order (R422, R428). -/
def expanderBits : List (Nat × Nat) → Nat → Nat
  | [], _ => 0
  | x :: rest, off => if off < x.1 then x.2 else expanderBits rest (off - x.1)

/-- Whether a physical address lies in an expander that holds no tags (R425). -/
def untagged (m : Manifest) (pa : Nat) : Bool := pa / 2 ^ 48 == 2 && decide (expanderBits m.expanders (pa % 2 ^ 48) < 8)

/-- The frame-table attr of a physical address (R382, R422): 2 for an assigned frame of an expander without tags (R425). -/
def State.frameAttr (s : State) (pa : Nat) : Nat :=
  if !populated s.pkg.manifest pa then 3
  else
    let b := (Memory.read s.mem (Config.frameTableBase + s.pkg.manifest.address pa / 65536)).toNat
    if b ≥ 3 then 3 else if untagged s.pkg.manifest pa then 2 else b

/-- The attribute checks of R374 and R382, lowest failing stage first. -/
def State.attrFault (s : State) (x : Xl) : Option XFail :=
  let va (j : Nat) := ((x.inputs.find? (fun i => i.1 == j)).map (·.2)).getD 0
  let byFmt := x.fmts.filterMap fun f => if f.2 ≠ 0 ∧ f.2 ≠ x.attr.fmt then some f.1 else none
  let byTrk := (x.trks.zip x.trks.tail).filterMap fun p => if p.1.2 ≠ p.2.2 then some p.2.1 else none
  let last := (x.trks.getLast?).getD (0, x.attr.tracked)
  let fa := s.frameAttr x.pa
  let byTable := if fa = 3 ∨ (fa = 1) ≠ (last.2 = true) then [last.1] else []
  match (byFmt ++ byTrk ++ byTable).min? with
  | some j => some ⟨0x0A, j, va j, 16⟩
  | none => none

/-- The composed translation of input address `a` of the first stage of the chain, which is stage `j` of the hart's context
(R373, R374). The last stage's output is physical. -/
def translate (s : State) : Nat → List Ctx → Nat → Except XFail Xl
  | j, [], a => .ok { pa := s.pkg.manifest.place (a % 2 ^ 52), size := 2 ^ 42, noU := none, noW := none, noX := none, attr := Attr.raw, fmts := [], trks := [], inputs := [(j, a)], leaves := [] }
  | j, c :: up, a => do
    let read : Nat → Except XFail Entry := fun x => do
      let t ← translate s (j + 1) up x
      if s.linkWaits (.phys t.pa) then .error ⟨0xFF, j, a, 16⟩
      else if s.linkLost (.phys t.pa) then .error ⟨0x1A, j, a, 16⟩
      else if !up.isEmpty then
        match t.noU with
        | some k => .error ⟨0x08, k, x, 16⟩
        | none =>
          if t.attr.fmt ≠ 0 ∨ t.attr.tracked then .error ⟨0x0A, j + 1, x, 16⟩
          else match s.attrFault t with
            | some f => .error f
            | none => .ok (t.pa, s.physWord t.pa, t.leaves.map fun l => { l with own := false }, t.noW)
      else .ok (t.pa, s.physWord t.pa, [], none)
    let lf ← if c.stage.host then hostWalk c.stage read j a else nativeWalk read j c.stage.root a
    let t ← translate s (j + 1) up lf.out
    let trk := if c.stage.host && j > 0 then [] else [(j, lf.attr.tracked)]
    .ok { pa := t.pa, size := min lf.size t.size
          noU := if lf.u then t.noU else some j
          noW := if lf.w then t.noW else some j
          noX := if lf.x then t.noX else some j
          attr := { lf.attr with cls := if t.attr.cls = 3 && !up.isEmpty then 3 else lf.attr.cls }
          fmts := if c.stage.host || j = 0 then t.fmts else (j, lf.attr.fmt) :: t.fmts
          trks := trk ++ t.trks
          inputs := (j, a) :: t.inputs
          leaves := lf.leaf :: lf.used ++ t.leaves }

/-- A context by number. -/
def State.ctx? (s : State) (n : Nat) : Option Ctx := s.ctxs.find? (fun c => c.num == n)

/-- A context and its ancestors, the crown last (R373); the tree is at most four deep (R385). -/
def State.chainFrom (s : State) : Nat → Nat → List Ctx
  | 0, _ => []
  | fuel + 1, n => match s.ctx? n with
    | some c => c :: (match c.parent with
      | some p => s.chainFrom fuel p
      | none => [])
    | none => []

/-- The chain of stages of context `n`. -/
def State.chain (s : State) (n : Nat) : List Ctx := s.chainFrom 4 n

/-- The translation of a virtual address of context `n`, before permission and attribute checks. -/
def State.lookup (s : State) (n va : Nat) : Except XFail Xl := translate s 0 (s.chain n) va

/-- The accessed bits of a complete translation for context `owner` (R372): each clear one is set, or the set fails on permission, after
those before it. -/
def State.setAccessed (s : State) (owner : Nat) : List Leaf → State × Option XFail
  | [] => (s, none)
  | l :: rest =>
    match l.abit with
    | none => s.setAccessed owner rest
    | some b =>
      let byte := l.entry + b / 8
      if (Memory.read s.mem byte).getLsbD (b % 8) then s.setAccessed owner rest
      else match l.denied with
        | some j => (s, some ⟨0x08, j, l.entry, 16⟩)
        | none => (s.setMemBit owner byte (b % 8)).setAccessed owner rest

/-- The dirty bits that a write through a translation sets, as physical byte and bit (R372), or the failure of one. -/
def State.dirtyBits (s : State) : List Leaf → Except XFail (List (Nat × Nat))
  | [] => .ok []
  | l :: rest => do
    let more ← s.dirtyBits rest
    match l.dbit with
    | none => .ok more
    | some b =>
      if !l.own || (Memory.read s.mem (l.entry + b / 8)).getLsbD (b % 8) then .ok more
      else match l.denied with
        | some j => .error ⟨0x08, j, l.entry, 16⟩
        | none => .ok ((l.entry + b / 8, b % 8) :: more)

end Sys2Proof.Machine
end

