-- ==== Sys2Proof/Machine/Access.lean ====
section
/-!
DEFINITION. The checks of one access in the order of R87 and R167: scratchpad windows (R158, R217), translation, permission,
object headers (R331), attributes, private objects (R334) and the scratchpad bound.
-/
namespace Sys2Proof.Machine

/-- A page entry of R171 for a translation that is missing. -/
def pageEntry (f : XFail) : Word :=
  Word.ofNat (f.va / 2 ^ f.leafLog * 2 ^ f.leafLog + sizeCodeOf f.leafLog * 256 + f.stage)

/-- A trap as a member raises it: the cause and TVAL of R75, the translation stage it arises at (0 is the hart's own context;
R376), what TSTAT.RFM and FR become (R70), and for a missing translation the page entries and whether a write wants them. -/
structure Trap where
  cause : BitVec 8
  tval : Word
  stage : Nat := 0
  rfm : Bool := false
  fr : Bool := false
  pages : List Word := []
  write : Bool := false
  deriving DecidableEq, Repr

/-- A trap that the hart's own context is the first to receive (R71). -/
def Trap.own (cause : BitVec 8) (tval : Word) : Trap := { cause := cause, tval := tval }

/-- Why an access does not happen now: a trap, or a wait (R219, R342). -/
inductive Stop where
  | trap (t : Trap)
  | wait
  deriving DecidableEq, Repr

/-- What an access wants of its page. `claim` is OBJNEW's and OBJFREE's write, which may touch a header (R331); `engine` is a read by an
engine operation, `probe` an access that needs no data, and `record` OBJNEW's read of a shape record, and none of them traps where the data
cannot be had (R254, R327, R349). -/
inductive Use where
  | fetch
  | read
  | write
  | claim
  | engine
  | probe
  | record
  deriving DecidableEq, Repr

/-- An access that passed its checks: where it lands, its page's attributes and size, the dirty bits that performing a write sets, and
the entries that its translation used (R383). -/
structure Reached where
  place : Place
  attr : Attr
  size : Nat
  dirty : List (Nat × Nat)
  via : List Nat := []
  deriving DecidableEq, Repr

/-- The scratchpad offset of an address in the hart's peer windows (R158, R217). -/
def Hart.padOffset (h : Hart) (va : Word) : Option Nat :=
  if h.spbase.toNat ≤ va.toNat ∧ va.toNat < h.spbase.toNat + 0x2000000 then some (va.toNat - h.spbase.toNat) else none

/-- Whether `n` bytes at `pa` touch an object's header (R331). -/
def State.touchesHeader (s : State) (pa n : Nat) : Bool :=
  s.objs.any fun o => match o.lines.head? with
    | some l => decide (pa < l + 16) && decide (l < pa + n)
    | none => false

/-- Whether the hart's team owns an object (R332). -/
def Obj.ownedBy (o : Obj) (h : Hart) : Bool := o.crew == h.crew && o.slot == h.slot && o.ctx == h.ctx

/-- Whether the access touches an object private to another team (R334). -/
def State.otherPrivate (s : State) (h : Hart) (pa : Nat) : Bool :=
  match s.objAt pa with
  | some o => o.scope == 0 && !o.ownedBy h
  | none => false

/-- An access to the peer windows (R158, R217, R219): the team in the slot, its bound, and whether it is resident. -/
def State.reachPad (s : State) (off n : Nat) : Except Stop Reached :=
  match s.slotTeam? s.hart.crew (off / 0x200000) with
  | none => .error (.trap (.own 0x1C (Word.ofNat off)))
  | some t =>
    let y := off % 0x200000
    if y + n > t.size then .error (.trap (.own 0x1C (Word.ofNat off)))
    else if !t.resident then .error .wait
    else .ok ⟨.pad t.id y, Attr.raw, 0x200000, [], []⟩

/-- A failed translation as a trap of the access to `va`: TVAL is the address whatever the stage (R75, R376). One that reads a table behind a
host link waits (R424). -/
def XFail.stop (f : XFail) (va : Word) (write : Bool := false) : Stop :=
  if f.cause = 0xFF then .wait
  else .trap { cause := f.cause, tval := va, stage := f.stage, pages := if f.cause = 0x07 then [pageEntry f] else [], write := write }

/-- What a vector access asks of an element's page (R125, R158, R166): that it be like the base page, and that the base page's format
suits VT. -/
structure Want where
  /-- The base lies in a scratchpad window. -/
  window : Bool
  /-- Format and geometry of the base page. -/
  fmt : Nat
  geom : Nat
  /-- The format does not suit VT. -/
  conflict : Bool
  deriving DecidableEq, Repr

/-- Whether a page is unlike the base page. -/
def Want.differs (w : Want) (a : Attr) : Bool := w.window || a.fmt != w.fmt || a.geom != w.geom

/-- The checks of a complete translation that follow the accessed bits, in the order of R87 and R167. A page without the user bit under UREQ
refuses reads too (R377): TLD and TRST raise 0x08 there, as R242 has it, where the table of R254 lists TST and TSAVE alone (DESIGN CHOICE, log
78). -/
def State.reachXl (s : State) (va : Word) (n : Nat) (u : Use) (x : Xl) (want : Option Want := none) : Except Stop Reached :=
  let writes := u == .write || u == .claim
  let kind := if u == .fetch then x.noX else if writes then x.noW else none
  match (x.noU.toList ++ kind.toList).min? with
  | some j => .error (.trap { cause := 0x08, tval := va, stage := j })
  | none =>
    if u == .write && s.touchesHeader x.pa n then .error (.trap (.own 0x08 va))
    else match s.attrFault x with
      | some f => .error (f.stop va)
      | none =>
        if want.any (·.conflict) then .error (.trap (.own 0x0A va))
        else if want.any fun w => w.differs x.attr then .error (.trap (.own 0x09 va))
        else if u != .fetch && u != .claim && u != .record && s.otherPrivate s.hart x.pa then .error (.trap (.own 0x0C va))
        else match (if writes then s.dirtyBits x.leaves else .ok []) with
          | .error f => .error (f.stop va)
          | .ok d => .ok ⟨.phys x.pa, x.attr, x.size, d, x.leaves.map (·.entry)⟩

/-- The checks of an access of `n` bytes at `va` by the hart, from translation on (R87 steps 2 to 6). The state returned has the
accessed bits set (R372). What lies partly in a scratchpad window and partly on RAW pages raises 0x09, for a tile's transfer too, as R158 has it
for vector accesses; R242 counts a window as RAW alone (DESIGN CHOICE, log 77). -/
def State.reach (s : State) (va : Word) (n : Nat) (u : Use) (want : Option Want := none) : State × Except Stop Reached :=
  match s.hart.padOffset va with
  | some off => if u == .fetch then (s, .error (.trap (.own 0x08 va)))
    else if want.any (·.conflict) then (s, .error (.trap (.own 0x0A va)))
    else if want.any fun w => !w.window then (s, .error (.trap (.own 0x09 va)))
    else (s, s.reachPad off n)
  | none =>
    match s.lookup s.hart.ctx va.toNat with
    | .error f => (s, .error (f.stop va (u == .write || u == .claim)))
    | .ok x =>
      match s.setAccessed s.hart.ctx x.leaves with
      | (s, some f) => (s, .error (f.stop va))
      | (s, none) => (s, s.reachXl va n u x want)

/-- The alignment check of a scalar access: it may not cross a 256-byte line (R87 step 1). -/
def crossesLine (va : Word) (n : Nat) : Bool := va.toNat % 256 + n > 256

end Sys2Proof.Machine
end

