-- ==== Sys2Proof/Machine/Errors.lean ====
section
/-!
DEFINITION. Accesses that the device makes in a context's address space, error rings (R431 to R435), holding a context (R393,
R434), and what ECC does to an access (R226, R324, R325).
-/
namespace Sys2Proof.Machine

/-- A device access of context `c` to a translation: the place and the dirty bits of a write, or the state in which it failed, with the
accessed bits of a complete translation set (R372). A `plain` access needs a RAW, untracked page (R431). -/
def State.deviceReach (s : State) (c : Nat) (write plain : Bool) : Except XFail Xl → Except State (State × Nat × List (Nat × Nat))
  | .error _ => .error s
  | .ok x => match s.setAccessed c x.leaves with
    | (s, some _) => .error s
    | (s, none) =>
      if x.noU.isSome || (write && x.noW.isSome) || (s.attrFault x).isSome || (plain && (x.attr.fmt != 0 || x.attr.tracked)) || s.linkWaits (.phys x.pa) || s.linkLost (.phys x.pa) then .error s
      else match (if write then s.dirtyBits x.leaves else .ok []) with
        | .error _ => .error s
        | .ok d => .ok (s, x.pa, d)

/-- Where `va` of context `c` lands, for a device access. -/
def State.ctxReach (s : State) (c va : Nat) (write : Bool) (plain : Bool := true) : Except State (State × Nat × List (Nat × Nat)) :=
  s.deviceReach c write plain (s.lookup c va)

/-- `n` bytes read in a context's address space. -/
def State.ctxRead (s : State) (c va n : Nat) (plain : Bool := true) : Except State (State × List Byte) :=
  (s.ctxReach c va false plain).map fun r => (r.1, r.1.peekList (.phys r.2.1) n)

/-- Bytes written in a context's address space. -/
def State.ctxWrite (s : State) (c va : Nat) (data : List Byte) (plain : Bool := true) : Except State State :=
  (s.ctxReach c va true plain).map fun r => r.1.perform ⟨.phys r.2.1, data, false, false, false, c, r.2.2, [], false⟩

/-- An 8-byte word read in a context's address space. -/
def State.ctxWord (s : State) (c va : Nat) (plain : Bool := true) : Except State (State × Nat) :=
  (s.ctxRead c va 8 plain).map fun r => (r.1, bytesToNat r.2)

/-- An 8-byte word written in a context's address space. -/
def State.ctxPut (s : State) (c va v : Nat) (plain : Bool := true) : Except State State := s.ctxWrite c va (natToBytes v 8) plain

/-- The state that an attempt leads to, failed or not. -/
def outcome : Except State State → State
  | .ok s => s
  | .error s => s

/-- A context changed. -/
def State.modCtx (s : State) (n : Nat) (f : Ctx → Ctx) : State :=
  { s with ctxs := s.ctxs.map fun c => if c.num = n then f c else c }

/-- Whether context `n` is `root` or a descendant of it (R385). -/
def State.inSubtree (s : State) (root n : Nat) : Bool := (s.chain n).any fun c => c.num == root

/-- A context becomes held (R393, R434): the crews of its subtree are to be pre-empted. A revoked one stays revoked (R391). -/
def State.holdCtx (s : State) (n : Nat) : State :=
  let s := s.modCtx n fun c => if c.state = .revoked then c else { c with state := .held }
  { s with crews := s.crews.map fun c => if s.inSubtree n c.ctx && c.resident then { c with preempting := true } else c }

/-- The unit on which a hart's team stands (R208). -/
def State.unitOf (s : State) (h : Hart) : CoreUnit :=
  match s.slotTeam? h.crew h.slot with
  | some t => t.core
  | none => ⟨0, 0, 0, 0, 0⟩

/-- The context that owns a unit (R226): the one whose placement holds it, the crown context when none does. -/
def State.unitOwner (s : State) (u : CoreUnit) : Nat := ((s.ctxs.find? fun c => c.units.contains u).map (·.num)).getD 1

/-- The context that owns the partition whose ECC guards a place as the hart accesses it (R226): the team's that holds a scratchpad, else
the hart's own. -/
def State.partitionOwner (s : State) (p : Place) : Nat :=
  match p with
  | .pad t _ => s.unitOwner (((s.team? t).map (·.core)).getD ⟨0, 0, 0, 0, 0⟩)
  | .phys _ => s.unitOwner (s.unitOf s.hart)

/-- The handle of a context: its CTXID (R56, R385). -/
def Ctx.handle (c : Ctx) : Nat := c.depth * 65536 + c.num

/-- The launch operation id of a hart, 0 when its launch is gone. -/
def State.launchOp (s : State) (h : Hart) : Nat :=
  match s.crews.find? (fun c => c.id == h.crew) with
  | some c => match s.launches.find? (fun l => l.id == c.launch) with
    | some l => l.op
    | none => 0
  | none => 0

/-- The src word of an event of a hart (R433). -/
def State.hartSrc (s : State) (h : Hart) : Nat :=
  let u := s.unitOf h
  u.die + u.cluster * 8 + u.core * 128 + h.hidx * 2048 + s.launchOp h * 65536

/-- The src word of an event of the I/O die (R433). -/
def ioSrc : Nat := 4

/-- The severity of an event code (R435). -/
def severity (code : Nat) : Nat :=
  if code = 0x01 || code = 0x0D then 0 else if code = 0x05 || code = 0x06 || code = 0x07 || code = 0x0E then 2 else 1

/-- Steps 1 and 2 of R434: STATUS, FEP, then the entry or DROP; or the state in which a ring word could not be read or written. -/
def State.ringPut (s : State) (c : Ctx) (code addr src : Nat) : Except State State := do
  let base := c.ring.toNat / 256 * 256 % 2 ^ 55
  let n := 2 ^ (c.ring.toNat % 256)
  let (s, status) ← s.ctxWord c.num (base + 0x10)
  let s ← s.ctxPut c.num (base + 0x10) (status ||| 2 ^ code)
  let (s, fep) ← s.ctxWord c.num (base + 0x28)
  let s ← if bitsOf fep 8 8 = 1 then .ok s else s.ctxPut c.num (base + 0x28) (256 + code)
  let (s, mask) ← s.ctxWord c.num (base + 0x18)
  if bitsOf mask code code = 1 then .ok s
  else
    let (s, prod) ← s.ctxWord c.num base
    let (s, cons) ← s.ctxWord c.num (base + 8)
    if (prod + 2 ^ 64 - cons) % 2 ^ 64 < n then
      let e := base + 64 + 32 * (prod % n)
      let s ← s.ctxPut c.num e (code + severity code * 256 + c.handle * 2 ^ 32)
      let s ← s.ctxPut c.num (e + 8) src
      let s ← s.ctxPut c.num (e + 16) s.pkg.cycle
      let s ← s.ctxPut c.num (e + 24) addr
      s.ctxPut c.num base ((prod + 1) % 2 ^ 64)
    else
      let (s, drop) ← s.ctxWord c.num (base + 0x30)
      s.ctxPut c.num (base + 0x30) ((drop + 1) % 2 ^ 64)

/-- Whether SEV makes an event fatal in a context (R432, R434). -/
def State.sevFatal (s : State) (c : Ctx) (code : Nat) : Bool :=
  match s.ctxWord c.num (c.ring.toNat / 256 * 256 % 2 ^ 55 + 0x20) with
  | .ok (_, sev) => bitsOf sev code code == 1
  | .error _ => false

/-- Whether a context's ring lies behind a host link that is down for less than 2^16 ticks (R424). -/
def State.ringWaits (s : State) (c : Ctx) : Bool :=
  match s.lookup c.num (c.ring.toNat / 256 * 256 % 2 ^ 55) with
  | .ok x => s.linkWaits (.phys x.pa)
  | .error f => f.cause == 0xFF

/-- An event filed in a context's ring, and what follows in its ancestors' (R434): `fuel` bounds the climb to the crown. -/
def State.fileIn (s : State) : Nat → Nat → Nat → Nat → Nat → State
  | 0, _, _, _, _ => s
  | fuel + 1, n, code, addr, src =>
    match s.ctx? n with
    | none => s
    | some c => if s.ringWaits c then { s with unfiled := s.unfiled ++ [(n, code, addr, src)] } else
      let fatal := severity code = 2 || s.sevFatal c code
      let s := match s.ringPut c code addr src with
        | .ok t => t
        | .error s => match c.parent with
          | some p => s.fileIn fuel p 0x09 0 src
          | none => s
      if fatal then
        match c.parent with
        | some p => (s.holdCtx n).fileIn fuel p 0x10 0 src
        | none => s
      else s

/-- An event filed in the ring of context `n`, the crown's when the owner is gone or revoked (R434, R438). -/
def State.fileEvent (s : State) (n code addr src : Nat) : State :=
  match s.ctx? n with
  | some c => s.fileIn 8 (if c.state = .revoked then 1 else n) code addr src
  | none => s.fileIn 8 1 code addr src

/-- The events that waited for a ring which is in reach again, or lost, filed in order (R424, R434). -/
def State.fileWaiting (s : State) : State :=
  let waits (e : Nat × Nat × Nat × Nat) : Bool := (s.ctx? e.1).any s.ringWaits
  (s.unfiled.filter fun e => !waits e).foldl (fun s e => s.fileEvent e.1 e.2.1 e.2.2.1 e.2.2.2) { s with unfiled := s.unfiled.filter waits }

/-- What ECC finds in this access of `n` bytes (R226, R324, R325): a corrected error is counted and filed; an uncorrectable one
poisons the words; a write-back error poisons the written-back line's words and is charged to its owner tag. The event's address is the
physical one, for a scratchpad the offset in the slot, where TVAL would have the offset from SPBASE: R433 says only that it is an address or
TVAL, DESIGN CHOICE (log 75). -/
def State.eccAccess (s : State) (p : Place) (n : Nat) : State :=
  match s.ecc with
  | [] => s
  | e :: rest =>
    let s := { s with ecc := rest }
    let addr := match p with
      | .phys a => s.pkg.manifest.address a
      | .pad _ o => o
    match e with
    | .clean => s
    | .corrected => (s.modCtx (s.partitionOwner p) fun c => { c with corrected := c.corrected + 1 }).fileEvent (s.partitionOwner p) 0x01 addr (s.hartSrc s.hart)
    | .uncorrectable => (s.poisonAt p n).fileEvent (s.partitionOwner p) 0x03 addr (s.hartSrc s.hart)
    | .writeback w =>
      let l := w / 32
      match Sparse.get zeroNat s.owner l with
      | 0 => s
      | o => ((({ s with owner := Sparse.put zeroNat s.owner l 0 }).poisonAt (.phys (l * 256)) 256).fileEvent o 0x02 (8 * w) (s.hartSrc s.hart))

/-- What ECC finds in the vector registers and tiles that an operation of the hart reads (R226): a corrected error is counted and filed;
an uncorrectable one poisons its word and is filed. -/
def State.eccRegisters (s : State) : State :=
  match s.regEcc with
  | [] => s
  | e :: rest =>
    let s := { s with regEcc := rest }
    let owner := s.unitOwner (s.unitOf s.hart)
    match e with
    | .clean => s
    | .corrected => (s.modCtx owner fun c => { c with corrected := c.corrected + 1 }).fileEvent owner 0x01 0 (s.hartSrc s.hart)
    | .vrf b => (s.modRegs fun r => { r with vpois := setMarks r.vpois (b / 8 * 8) true 8 }).fileEvent owner 0x03 0 (s.hartSrc s.hart)
    | .tile k b =>
      match s.slotTeam? s.hart.crew s.hart.slot with
      | none => s
      | some t => (s.modTeam t.id fun t => { t with tiles := t.tiles.modify k fun x => { x with pois := setMarks x.pois (b / 8 * 8) true 8 } }).fileEvent owner 0x03 0
          (s.hartSrc s.hart)

/-- Whether a host port refuses an atomic (R423): trained to PCIe it takes those that are PCIe AtomicOps alone, and none where the partner
completes none. -/
def HostPort.refuses (x : HostPort) (native : Bool) : Bool := [5, 6, 7].contains x.mode && !(native && x.atomicOps)

/-- An access of the hart: the checks of `reach`, then the host link (R424): while it is down the access waits; after 2^16 ticks a
load raises the poisoned-data trap, a store is dropped, a read of an engine is poisoned, and event 0x0B is filed. A store to a
page-table entry in use waits too (R383). An atomic says in `atomic` whether it is a PCIe AtomicOp (R423). -/
def State.access (s : State) (va : Word) (n : Nat) (u : Use) (want : Option Want := none) (atomic : Option Bool := none) : State × Except Stop Reached :=
  let report (s : State) : State := s.fileEvent s.hart.ctx 0x0B va.toNat (s.hartSrc s.hart)
  match s.reach va n u want with
  | (s, .error (.trap t)) => (if t.cause = 0x1A then report s else s, .error (.trap t))
  | (s, .error .wait) => (s, .error .wait)
  | (s, .ok r) =>
    if (s.portAt r.place).any fun x => atomic.any x.refuses then (s, .error (.trap (.own 0x0A va)))
    else if (u == .write || u == .claim) && s.entryInUse r.place n || s.linkWaits r.place then (s, .error .wait)
    else if s.linkLost r.place then
      if u == .read || u == .fetch then (report s, .error (.trap (.own 0x1A va))) else (report s, .ok { r with place := nowhere, dirty := [], via := [] })
    else (s, .ok r)

/-- Stores that wait for a host link which is lost dropped, each with its event (R424). -/
def State.dropLost (s : State) : State :=
  let lost (q : Pending) : Bool := s.linkLost q.place
  let held := s.hart.caddy.flatMap (·.stores)
  let dead := (s.hart.stores ++ held).filter lost
  if dead.isEmpty then s
  else
    let s := s.modHart fun h => { h with stores := h.stores.filter fun q => !lost q, caddy := h.caddy.map fun c => { c with stores := c.stores.filter fun q => !lost q } }
    dead.foldl (fun s q => s.fileEvent s.hart.ctx 0x0B q.place.number (s.hartSrc s.hart)) s

end Sys2Proof.Machine
end

