-- ==== Sys2Proof/Machine/Operands.lean ====
section
/-!
DEFINITION. Operands: scalar registers through the window (R54), immediates (R35), vector elements, poison marks and mask bits
(R131, R132), the vector type (R16, R58) and active elements (R136).
-/
namespace Sys2Proof.Machine

/-- The physical register a g field names (R54); field 0 names none. -/
def Regs.phys (r : Regs) (i : GReg) : Nat := if i.toNat < 64 then i.toNat else (r.wb.toNat + i.toNat) % 512

/-- A scalar register read: g0 reads zero (R54). -/
def Regs.g (r : Regs) (i : GReg) : Word := if i = 0 then 0 else Sparse.get zeroWord r.gpr (r.phys i)

/-- A scalar register written: a write to g0 is discarded (R54). -/
def Regs.setG (r : Regs) (i : GReg) (v : Word) : Regs := if i = 0 then r else { r with gpr := Sparse.put zeroWord r.gpr (r.phys i) v }

/-- A physical register written, as a token is (R264); P0 is never named. -/
def Regs.setP (r : Regs) (p : Nat) (v : Word) : Regs := if p = 0 then r else { r with gpr := Sparse.put zeroWord r.gpr p v }

/-- A scalar register of the hart that steps. -/
def State.g (s : State) (i : GReg) : Word := s.hart.regs.g i

/-- A scalar register of the hart that steps, written. -/
def State.setG (s : State) (i : GReg) (v : Word) : State := { s with hart := { s.hart with regs := s.hart.regs.setG i v } }

/-- `sext(x, n)` of R29. -/
def sextWord {n : Nat} (x : BitVec n) : Word := x.signExtend 64

/-- `zext(x, n)` of R29. -/
def zextWord {n : Nat} (x : BitVec n) : Word := x.setWidth 64

/-- A number read as two's complement of `n` bits. -/
def toSigned (n x : Nat) : Int := if 2 * (x % 2 ^ n) < 2 ^ n then Int.ofNat (x % 2 ^ n) else Int.ofNat (x % 2 ^ n) - 2 ^ n

/-- The low `n` bits of an integer. -/
def ofSigned (n : Nat) (x : Int) : Nat := (x % 2 ^ n).toNat

/-- A branch target: the instruction's address plus a word offset (R35). -/
def targetOf {n : Nat} (pc : Word) (off : BitVec n) : Word := pc + sextWord off * 4

/-- Width in bytes of a VT value (R16). -/
def vtBytes (vt : BitVec 7) : Nat := 2 ^ (vt.extractLsb' 5 2).toNat

/-- Variant and rounding fields of a VT value (R16). -/
def vtVariant (vt : BitVec 7) : Nat := (vt.extractLsb' 3 2).toNat
def vtRound (vt : BitVec 7) : Nat := (vt.extractLsb' 0 3).toNat

/-- Bytes of one vector register (R131). -/
def Hart.rb (h : Hart) : Nat := h.rows / h.regs.vnreg * 256

/-- VLMAX under a vector type (R58). -/
def Hart.vlmaxOf (h : Hart) (vt : BitVec 7) : Nat := h.rb / vtBytes vt

/-- VLMAX (R58). -/
def Hart.vlmax (h : Hart) : Nat := h.vlmaxOf h.regs.vt

/-- The index of a core in the power controller's grant table. -/
def coreIndex (u : CoreUnit) : Nat := (u.die * 15 + u.cluster) * 16 + u.core

/-- The grant step k of a hart's core (R59, R430): the table holds 4 − k. -/
def State.grantK (s : State) : Nat := 4 - Sparse.get zeroNat s.pkg.grant (coreIndex (s.unitOf s.hart))

/-- VGRANTCAP (R59, R430): by the core's grant step at a hart start too, where the table of R56 says VLMAX (DESIGN CHOICE, log 66). -/
def State.grantCap (s : State) : Nat := s.hart.vlmax * s.grantK / 4

/-- The value of `w` bytes of element `i` of a vector register, as a number (R131). -/
def Hart.elem (h : Hart) (v : Nat) (w i : Nat) : Nat := bytesToNat (Sparse.getList zeroByte h.regs.vrf (v * h.rb + i * w) w)

/-- Element `i` of a vector register written at width `w`, and its bytes unmarked. -/
def Hart.setElem (h : Hart) (v : Nat) (w i : Nat) (x : Nat) : Hart :=
  { h with regs := { h.regs with
      vrf := Sparse.putList zeroByte h.regs.vrf (v * h.rb + i * w) (natToBytes x w)
      vpois := Sparse.clear h.regs.vpois (v * h.rb + i * w) (v * h.rb + i * w + w) } }

/-- The poison mark of element `i` (R226): that of the 8-byte word it lies in. -/
def Hart.elemPoison (h : Hart) (v w i : Nat) : Bool := Sparse.anyIn h.regs.vpois ((v * h.rb + i * w) / 8 * 8) ((v * h.rb + i * w) / 8 * 8 + 8)

/-- The word that element `i` lies in marked poisoned. -/
def Hart.poisonElem (h : Hart) (v w i : Nat) : Hart :=
  { h with regs := { h.regs with vpois := setMarks h.regs.vpois ((v * h.rb + i * w) / 8 * 8) true 8 } }

/-- Bit `i` of a mask register (R132). -/
def Regs.mask (r : Regs) (m i : Nat) : Bool := Sparse.get clearBit r.masks (m * 65536 + i)

/-- Bit `i` of a mask register written. -/
def Regs.setMask (r : Regs) (m i : Nat) (b : Bool) : Regs := { r with masks := Sparse.put clearBit r.masks (m * 65536 + i) b }

/-- An active element (R136): below VL, BX and FX, its bit in m0 where the word's m bit asks for it, and its bit in m15 on a
restart under m15. -/
def Hart.active (h : Hart) (m : Bool) (i : Nat) : Bool :=
  decide (i < h.regs.vl) && decide (i < h.regs.bx.toNat) && decide (i < h.regs.fx.toNat) && (!m || h.regs.mask 0 i) && (!h.m15only || h.regs.mask 15 i)

/-- Where the member stops: VL, or the element at which a pre-emption stops it (R138). -/
def Hart.last (h : Hart) : Nat :=
  match h.cut with
  | some c => min c h.regs.vl
  | none => h.regs.vl

/-- The elements from ELIX to VL − 1 (R29), or to where a pre-emption stops the member. -/
def Hart.elements (h : Hart) : List Nat := (List.range (h.last - h.elix)).map (· + h.elix)

end Sys2Proof.Machine
end

