-- ==== Sys2Proof/Machine/Float.lean ====
section
/-!
DEFINITION. Floating point: the formats of R111, exact values, one rounding in the modes of R113 with the stochastic value of R115,
special values (R112, R117), the operations of R145 to R148 and the conversions of R116.
-/
namespace Sys2Proof.Machine

/-- How a format treats its top encodings (R111). -/
inductive TopCode where
  /-- Infinities and NaNs. -/
  | ieee
  /-- E4M3: S.1111.111 is NaN, no infinity. -/
  | e4m3
  /-- E2M1: every encoding is finite. -/
  | finite
  deriving DecidableEq, Repr

/-- A floating-point format (R111). -/
structure Fmt where
  ebits : Nat
  fbits : Nat
  bias : Nat
  top : TopCode
  deriving DecidableEq, Repr

def fp32 : Fmt := ⟨8, 23, 127, .ieee⟩
def bf16 : Fmt := ⟨8, 7, 127, .ieee⟩
def fp16 : Fmt := ⟨5, 10, 15, .ieee⟩
def e4m3 : Fmt := ⟨4, 3, 7, .e4m3⟩
def e5m2 : Fmt := ⟨5, 2, 15, .ieee⟩
def e2m1 : Fmt := ⟨2, 1, 1, .finite⟩

def Fmt.bits (f : Fmt) : Nat := 1 + f.ebits + f.fbits

/-- The canonical NaN (R111). E2M1 has none. -/
def Fmt.nan (f : Fmt) : Nat :=
  match f.top with
  | .ieee => (2 ^ f.ebits - 1) * 2 ^ f.fbits + 2 ^ (f.fbits - 1)
  | .e4m3 => 0x7F
  | .finite => 0

/-- The largest finite magnitude's encoding (R111). -/
def Fmt.maxCode (f : Fmt) : Nat :=
  match f.top with
  | .ieee => (2 ^ f.ebits - 1) * 2 ^ f.fbits - 1
  | .e4m3 => 0x7E
  | .finite => 7

/-- A sign bit placed on a magnitude's encoding. -/
def Fmt.signed (f : Fmt) (neg : Bool) (code : Nat) : Nat := if neg then code + 2 ^ (f.ebits + f.fbits) else code

/-- Infinity, or ±max where the format has none (R117). -/
def Fmt.inf (f : Fmt) (neg : Bool) : Nat :=
  match f.top with
  | .ieee => f.signed neg ((2 ^ f.ebits - 1) * 2 ^ f.fbits)
  | _ => f.signed neg f.maxCode

/-- An exact value: a NaN, an infinity, or (−1)^neg × m × 2^e. -/
inductive FVal where
  | nan
  | inf (neg : Bool)
  | num (neg : Bool) (m : Nat) (e : Int)
  deriving DecidableEq, Repr

/-- The value of an encoding (R111). -/
def Fmt.decode (f : Fmt) (x : Nat) : FVal :=
  let neg := x / 2 ^ (f.ebits + f.fbits) % 2 == 1
  let ex := x / 2 ^ f.fbits % 2 ^ f.ebits
  let fr := x % 2 ^ f.fbits
  let allOnes := ex == 2 ^ f.ebits - 1
  if allOnes && f.top == .ieee then (if fr = 0 then .inf neg else .nan)
  else if allOnes && f.top == .e4m3 && fr == 7 then .nan
  else if ex = 0 then .num neg fr (1 - f.bias - f.fbits)
  else .num neg (2 ^ f.fbits + fr) (Int.ofNat ex - f.bias - f.fbits)

/-- A result that overflows (R114, R117). -/
def Fmt.overflow (f : Fmt) (rm : Nat) (neg : Bool) : Nat :=
  match f.top with
  | .ieee =>
    if rm = 1 || (rm = 2 && !neg) || (rm = 3 && neg) then f.signed neg f.maxCode else f.inf neg
  | _ => f.signed neg f.maxCode

/-- Whether a magnitude cut to `lo` with discarded part `r` of `2^sh`, and something nonzero below it when `sticky`, steps up
(R113, R114). -/
def roundsUp (rm rnd : Nat) (neg : Bool) (lo r sh : Nat) (sticky : Bool) : Bool :=
  match rm with
  | 0 => decide (2 * r > 2 ^ sh) || (decide (2 * r = 2 ^ sh) && (sticky || lo % 2 == 1))
  | 2 => neg && (r != 0 || sticky)
  | 3 => !neg && (r != 0 || sticky)
  | 4 => decide (r * 65536 / 2 ^ sh + rnd ≥ 65536)
  | _ => false

/-- The magnitude m × 2^e, and something below its last bit when `sticky`, rounded once into a format (R113). -/
def Fmt.round (f : Fmt) (rm rnd : Nat) (neg : Bool) (m : Nat) (e : Int) (sticky : Bool) : Nat :=
  if m = 0 && !sticky then f.signed neg 0
  else
    let lowest : Int := 1 - f.bias - f.fbits
    let u : Int := max (e + Int.ofNat (Nat.log2 m) - f.fbits) lowest
    let sh := (u - e).toNat
    let lo := if e ≥ u then m * 2 ^ (e - u).toNat else m / 2 ^ sh
    let r := if e ≥ u then 0 else m % 2 ^ sh
    let n := if roundsUp rm rnd neg lo r sh sticky then lo + 1 else lo
    -- n × 2^u, n at most 2^(fbits + 1)
    let carry := n == 2 ^ (f.fbits + 1)
    let n := if carry then n / 2 else n
    let u := if carry then u + 1 else u
    if n < 2 ^ f.fbits then f.signed neg n
    else
      let ex := (u + f.fbits + f.bias).toNat
      let code := ex * 2 ^ f.fbits + (n - 2 ^ f.fbits)
      if code > f.maxCode then f.overflow rm neg else f.signed neg code

/-- An exact value rounded into a format. -/
def Fmt.encode (f : Fmt) (rm rnd : Nat) : FVal → Nat
  | .nan => f.nan
  | .inf neg => f.inf neg
  | .num neg m e => f.round rm rnd neg m e false

/-- The stochastic value of an element (R115). -/
def rsrValue (seed loc : Word) : Nat :=
  let z := loc + seed * 0xB5AD4ECEDA1CE2A9
  let z := (z ^^^ (z >>> 31)) * 0x9FB21C651E98DF25
  let z := (z ^^^ (z >>> 29)) * 0xE7A35C1B6D24F8C9
  let z := z ^^^ (z >>> 32)
  z.toNat / 2 ^ 48

/-- The exact integer (−1)^neg × m × 2^e scaled by 2^(−k), for k at most e. -/
def scaled (neg : Bool) (m : Nat) (e k : Int) : Int :=
  let x := Int.ofNat (m * 2 ^ (e - k).toNat)
  if neg then -x else x

/-- The exact sum of two values; an exact zero is −0 only when both are −0 or, of unlike signs, under RDN (R112). -/
def FVal.add (rm : Nat) : FVal → FVal → FVal
  | .nan, _ => .nan
  | _, .nan => .nan
  | .inf a, .inf b => if a = b then .inf a else .nan
  | .inf a, .num _ _ _ => .inf a
  | .num _ _ _, .inf b => .inf b
  | .num a m e, .num b n f =>
    let k := min e f
    let x := scaled a m e k + scaled b n f k
    if x = 0 then .num (if m = 0 && n = 0 && a == b then a else rm == 2) 0 k
    else .num (decide (x < 0)) x.natAbs k

def FVal.neg : FVal → FVal
  | .nan => .nan
  | .inf a => .inf (!a)
  | .num a m e => .num (!a) m e

/-- The exact product (R145). -/
def FVal.mul : FVal → FVal → FVal
  | .nan, _ => .nan
  | _, .nan => .nan
  | .inf a, .inf b => .inf (a != b)
  | .inf a, .num b n _ => if n = 0 then .nan else .inf (a != b)
  | .num a m _, .inf b => if m = 0 then .nan else .inf (a != b)
  | .num a m e, .num b n f => .num (a != b) (m * n) (e + f)

/-- The quotient rounded once (R145). -/
def Fmt.div (f : Fmt) (rm rnd : Nat) : FVal → FVal → Nat
  | .nan, _ => f.nan
  | _, .nan => f.nan
  | .inf _, .inf _ => f.nan
  | .inf a, .num b _ _ => f.inf (a != b)
  | .num a _ _, .inf b => f.signed (a != b) 0
  | .num a m e, .num b n g =>
    if n = 0 then (if m = 0 then f.nan else f.inf (a != b))
    else
      let k := 64 + Nat.log2 n
      f.round rm rnd (a != b) (m * 2 ^ k / n) (e - g - k) (m * 2 ^ k % n != 0)

/-- The integer square root by bits, from bit `k` down. -/
def isqrt (x : Nat) : Nat → Nat → Nat
  | 0, acc => acc
  | k + 1, acc => let t := acc + 2 ^ k; isqrt x k (if t * t ≤ x then t else acc)

/-- The square root rounded once (R147). -/
def Fmt.sqrt (f : Fmt) (rm rnd : Nat) : FVal → Nat
  | .nan => f.nan
  | .inf neg => if neg then f.nan else f.inf false
  | .num neg m e =>
    if m = 0 then f.signed neg 0
    else if neg then f.nan
    else
      let odd := e % 2 != 0
      let m := if odd then 2 * m else m
      let e := if odd then e - 1 else e
      let x := m * 2 ^ 128
      let q := isqrt x (Nat.log2 x / 2 + 1) 0
      f.round rm rnd false q (e / 2 - 64) (q * q != x)

/-- Fraction bits of the fixed-point numbers below, enough to decide every rounding of R147 and R360 (DEDUCED, log 10). -/
def fixBits : Nat := 320

/-- ln 2 in fixed point: the sum of 1 / (k 2^k). -/
def ln2Fix : Nat := (List.range 330).foldl (fun acc k => acc + 2 ^ fixBits / ((k + 1) * 2 ^ (k + 1))) 0

/-- e^x for a fixed-point x in [0, 1): the series, `n` terms from term `k` on. -/
def expSeries (x : Nat) : Nat → Nat → Nat → Nat
  | 0, _, _ => 0
  | n + 1, k, term => term + expSeries x n (k + 1) (term * x / 2 ^ fixBits / (k + 1))

/-- 2 artanh z for a fixed-point z, `n` terms from power `2k + 1` on. -/
def artanhSeries (z2 : Nat) : Nat → Nat → Nat → Nat
  | 0, _, _ => 0
  | n + 1, k, power => 2 * power / (2 * k + 1) + artanhSeries z2 n (k + 1) (power * z2 / 2 ^ fixBits)

/-- 2^a correctly rounded (R147). -/
def Fmt.exp2 (f : Fmt) (rm rnd : Nat) : FVal → Nat
  | .nan => f.nan
  | .inf neg => if neg then 0 else f.inf false
  | .num neg m e =>
    let whole := e ≥ 0 || m % 2 ^ (-e).toNat == 0
    let n : Int := if e ≥ 0 then (if neg then -(Int.ofNat (m * 2 ^ (min e 400).toNat)) else Int.ofNat (m * 2 ^ (min e 400).toNat))
      else (if neg then -(Int.ofNat m) else Int.ofNat m) / 2 ^ (-e).toNat
    if n ≥ 4000 then f.round rm rnd false 1 4000 false
    else if n ≤ -4000 then f.round rm rnd false 1 (-4000) true
    else if whole then f.round rm rnd false 1 n false
    else
      let fr := ((if neg then -(Int.ofNat m) else Int.ofNat m) - n * 2 ^ (-e).toNat).toNat
      let x := fr * ln2Fix / 2 ^ (-e).toNat
      f.round rm rnd false (expSeries x 90 0 (2 ^ fixBits)) (n - fixBits) true

/-- log2 a correctly rounded (R147). -/
def Fmt.log2 (f : Fmt) (rm rnd : Nat) : FVal → Nat
  | .nan => f.nan
  | .inf neg => if neg then f.nan else f.inf false
  | .num neg m e =>
    if m = 0 then f.inf true
    else if neg then f.nan
    else
      let k := Nat.log2 m
      let ex : Int := e + Int.ofNat k
      if m = 2 ^ k then (if ex = 0 then 0 else f.round rm rnd (decide (ex < 0)) ex.natAbs 0 false)
      else
        let z := (m - 2 ^ k) * 2 ^ fixBits / (m + 2 ^ k)
        let ln := artanhSeries (z * z / 2 ^ fixBits) 110 0 z
        let v : Int := ex * 2 ^ fixBits + Int.ofNat (ln * 2 ^ fixBits / ln2Fix)
        if v ≥ 0 then f.round rm rnd false v.natAbs (-fixBits) true else f.round rm rnd true (v.natAbs - 1) (-fixBits) true

/-! ## Sine and cosine (R362) -/

/-- π/2 in units of 2^-512. -/
def halfPi : Nat :=
  0x1921fb54442d18469898cc51701b839a252049c1114cf98e804177d4c76273644a29410f31c6809bbdf2a33679a748636605614dbe4be286e9fc26adadaa3848b

/-- Fraction bits of an angle and of its series. -/
def trigBits : Nat := 384

/-- The rest of a series in the square `q` of an angle, in units of 2^-trigBits: each term is the one before times −q / (n (n + 1)). -/
def trigSeries (q : Int) : Nat → Int → Int → Int → Int
  | 0, _, _, acc => acc
  | fuel + 1, n, term, acc =>
    let next := -(term * q) / 2 ^ trigBits / (n * (n + 1))
    if next = 0 then acc else trigSeries q fuel (n + 2) next (acc + next)

/-- Sine and cosine of a finite angle, far beyond the last bit of FP32: the angle is taken modulo π/2. -/
def sinCos (neg : Bool) (m : Nat) (e : Int) : Int × Int :=
  let x : Int := Int.ofNat (if e + 384 ≥ 0 then m * 2 ^ (e + 384).toNat else m / 2 ^ (-(e + 384)).toNat)
  let x := if neg then -x else x
  let k := (x * 2 ^ 128 + Int.ofNat halfPi / 2) / Int.ofNat halfPi
  let r := (x * 2 ^ 128 - k * Int.ofNat halfPi) / 2 ^ 128
  let q := r * r / 2 ^ trigBits
  let s := trigSeries q 64 2 r r
  let c := trigSeries q 64 1 (2 ^ trigBits) (2 ^ trigBits)
  match (k % 4).toNat with
  | 0 => (s, c)
  | 1 => (c, -s)
  | 2 => (-s, -c)
  | _ => (-c, s)

/-- A number in units of 2^-trigBits as a value. -/
def FVal.ofTrig (x : Int) : FVal := .num (decide (x < 0)) x.natAbs (-384)

/-- RNE(sin θ) and RNE(cos θ) (R362): an infinity or a NaN gives NaN, and a zero keeps its sign. -/
def Fmt.sinCos (f : Fmt) (v : FVal) : Nat × Nat :=
  match v with
  | .num neg 0 _ => (f.signed neg 0, f.encode 0 0 (.num false 1 0))
  | .num neg m e => (f.encode 0 0 (.ofTrig (Machine.sinCos neg m e).1), f.encode 0 0 (.ofTrig (Machine.sinCos neg m e).2))
  | _ => (f.nan, f.nan)

/-- a × 2^k (R147, VFSCALE). -/
def FVal.scale (k : Int) : FVal → FVal
  | .nan => .nan
  | .inf a => .inf a
  | .num a m e => if m = 0 then .num a 0 e else .num a m (e + max (-100000) (min k 100000))

/-- Comparison of two values that are no NaN: a < b, with −0 equal to +0 (R149). -/
def FVal.lt : FVal → FVal → Bool
  | .nan, _ => false
  | _, .nan => false
  | .inf a, .inf b => a && !b
  | .inf a, .num _ _ _ => a
  | .num _ _ _, .inf b => !b
  | .num a m e, .num b n f => let k := min e f; decide (scaled a m e k < scaled b n f k)

def FVal.isNan : FVal → Bool
  | .nan => true
  | _ => false

def FVal.negative : FVal → Bool
  | .nan => false
  | .inf a => a
  | .num a _ _ => a

/-- Whether a value counts below another for minimum and maximum, −0 below +0 (R146). -/
def FVal.below (a b : FVal) : Bool := a.lt b || (!b.lt a && a.negative && !b.negative)

/-- VFMIN and VFMAX on encodings (R146). -/
def Fmt.minNum (f : Fmt) (x y : Nat) : Nat :=
  let a := f.decode x
  let b := f.decode y
  if a.isNan && b.isNan then f.nan else if a.isNan then y else if b.isNan then x else if b.below a then y else x
def Fmt.maxNum (f : Fmt) (x y : Nat) : Nat :=
  let a := f.decode x
  let b := f.decode y
  if a.isNan && b.isNan then f.nan else if a.isNan then y else if b.isNan then x else if a.below b then y else x

/-- The class number of an encoding (R148). -/
def Fmt.classOf (f : Fmt) (x : Nat) : Nat :=
  match f.decode x with
  | .nan => 8
  | .inf a => if a then 0 else 7
  | .num a m _ =>
    let sub := x / 2 ^ f.fbits % 2 ^ f.ebits == 0
    if m = 0 then (if a then 3 else 4) else if sub then (if a then 2 else 5) else (if a then 1 else 6)

/-- A value rounded to an integer by the mode (R116, R151): the magnitude on the integer grid. -/
def FVal.toInt (rm rnd : Nat) (lo hi : Int) : FVal → Int
  | .nan => 0
  | .inf a => if a then lo else hi
  | .num a m e =>
    let n := if e ≥ 0 then m * 2 ^ (min e 4000).toNat
      else
        let sh := (-e).toNat
        let c := m / 2 ^ sh
        if roundsUp rm rnd a c (m % 2 ^ sh) sh false then c + 1 else c
    let x := if a then -(Int.ofNat n) else Int.ofNat n
    max lo (min hi x)

/-- The signed range of a width in bits. -/
def minSigned (w : Nat) : Int := -(2 ^ (w - 1))
def maxSigned (w : Nat) : Int := 2 ^ (w - 1) - 1

/-- An integer clamped to a signed width (R116). -/
def clampSigned (w : Nat) (x : Int) : Int := max (minSigned w) (min (maxSigned w) x)

/-- The exact value of an integer. -/
def FVal.ofInt (x : Int) : FVal := .num (decide (x < 0)) x.natAbs 0

/-- The float format of a VT value (R139): none at width 64. -/
def floatOf (vt : BitVec 7) : Option Fmt :=
  match vtBytes vt with
  | 1 => some (if vtVariant vt = 1 then e5m2 else e4m3)
  | 2 => some (if vtVariant vt = 1 then fp16 else bf16)
  | 4 => some fp32
  | _ => none

/-! ## The residue format (R122 to R124) -/

/-- The product of the moduli. -/
def resM : Nat := 1073740800

/-- A valid res30 word (R122). -/
def resValid (w : Nat) : Bool := bitsOf w 31 31 == 0 && bitsOf w 30 20 < 1025 && bitsOf w 9 0 < 1023

/-- The word of an integer modulo M (R122). -/
def resWord (x : Int) : Nat := (x % 1025).toNat * 2 ^ 20 + (x % 1024).toNat * 1024 + (x % 1023).toNat

/-- The integer of a valid word (R123). -/
def resInt (w : Nat) : Int :=
  let x := (bitsOf w 9 0 * 537395200 + bitsOf w 19 10 * 1072692225 + bitsOf w 30 20 * 537394176) % resM
  if x < 536870400 then Int.ofNat x else Int.ofNat x - resM

/-- VRIN: none out of range (R123). -/
def resOfSigned (x : Int) : Option Nat := if -536870400 ≤ x ∧ x < 536870400 then some (resWord x) else none

/-- Residue sum and product of valid words, field by field (R124). -/
def resAdd (a b : Nat) : Nat :=
  (bitsOf a 30 20 + bitsOf b 30 20) % 1025 * 2 ^ 20 + (bitsOf a 19 10 + bitsOf b 19 10) % 1024 * 1024 + (bitsOf a 9 0 + bitsOf b 9 0) % 1023
def resMul (a b : Nat) : Nat :=
  (bitsOf a 30 20 * bitsOf b 30 20) % 1025 * 2 ^ 20 + (bitsOf a 19 10 * bitsOf b 19 10) % 1024 * 1024 + (bitsOf a 9 0 * bitsOf b 9 0) % 1023

end Sys2Proof.Machine
end

