-- ==== Sys2Proof/Machine/Formats.lean ====
section
/-!
DEFINITION. Page formats: how an element moves between memory and a register (R116, R125), and the MX blocks with their scales
(R118 to R121, R164).
-/
namespace Sys2Proof.Machine

/-- A value in a register or in memory: of a float format, or a signed integer of a width in bits. -/
inductive Kind where
  | float (f : Fmt)
  | int (n : Nat)
  deriving DecidableEq, Repr

/-- An element of one kind converted into another with one rounding (R116, R117). An integer beyond the largest finite value becomes
infinite only where R117's rounding says so; the row of R116 that names infinity is read with it (DESIGN CHOICE, log 60). -/
def convert (src dst : Kind) (rm rnd x : Nat) : Nat :=
  match src, dst with
  | .float f, .float g => g.encode rm rnd (f.decode x)
  | .float f, .int n => ofSigned n ((f.decode x).toInt rm rnd (minSigned n) (maxSigned n))
  | .int n, .float g => g.encode rm rnd (.ofInt (toSigned n x))
  | .int n, .int k => ofSigned k (clampSigned k (toSigned n x))

/-- The kind of an element on a page of a plain typed format (R125). -/
def pageKind (fmt : Nat) : Option Kind :=
  match fmt with
  | 1 => some (.float fp32)
  | 2 => some (.float bf16)
  | 3 => some (.float fp16)
  | 4 => some (.float e4m3)
  | 5 => some (.float e5m2)
  | 8 => some (.int 8)
  | 9 => some (.int 16)
  | _ => none

/-- Bits of one element in memory (R125): on a RAW page the VT width. -/
def elemBits (fmt : Nat) (vt : BitVec 7) : Nat :=
  match fmt with
  | 1 => 32
  | 2 => 16
  | 3 => 16
  | 4 => 8
  | 5 => 8
  | 6 => 8
  | 7 => 4
  | 8 => 8
  | 9 => 16
  | 10 => 32
  | _ => 8 * vtBytes vt

/-- Whether a page format does not suit VT (R125). -/
def formatConflict (fmt : Nat) (vt : BitVec 7) : Bool :=
  (1 ≤ fmt && fmt ≤ 7 && vtBytes vt == 8) || (fmt == 10 && vtBytes vt != 4)

/-- The register kind that a page of a typed format loads into under VT (R125). -/
def registerKind (fmt : Nat) (vt : BitVec 7) : Option Kind :=
  if fmt = 8 ∨ fmt = 9 then some (.int (8 * vtBytes vt)) else (floatOf vt).map .float

/-- The stochastic value of a locator under the mode of VT (R115). -/
def locate (vt : BitVec 7) (seed : Word) (loc : Nat) : Nat := if vtRound vt = 4 then rsrValue seed (Word.ofNat loc) else 0

/-- A memory element of a format other than MX decoded into a register element (R125): equal formats move bits unchanged. -/
def decodeElem (fmt : Nat) (vt : BitVec 7) (seed : Word) (i x : Nat) : Nat :=
  match pageKind fmt, registerKind fmt vt with
  | some src, some dst => if src = dst then x else convert src dst (vtRound vt) (locate vt seed i) x
  | _, _ => x

/-- A register element encoded for a page of a format other than MX (R125). -/
def encodeElem (fmt : Nat) (vt : BitVec 7) (seed : Word) (va x : Nat) : Nat :=
  match registerKind fmt vt, pageKind fmt with
  | some src, some dst => if src = dst then x else convert src dst (vtRound vt) (locate vt seed va) x
  | _, _ => x

/-! ## MX blocks -/

/-- The element format and the bytes of a block (R118). -/
def mxFmt (fmt : Nat) : Fmt := if fmt = 7 then e2m1 else e4m3
def mxBlockBytes (fmt : Nat) : Nat := if fmt = 7 then 16 else 32

/-- Bytes of a line group (R120). -/
def mxGroup (geom : Nat) : Nat := 256 * 2 ^ geom

/-- The scale index of the block that holds data address `a` (R120). -/
def mxIndex (fmt geom a : Nat) : Nat :=
  a / mxGroup geom * (mxGroup geom / mxBlockBytes fmt) + a % 256 / (mxBlockBytes fmt / 2 ^ geom)

/-- The bytes of the block that holds address `a`, as offsets in its line group, in element order (R120). -/
def mxOffsets (fmt geom a : Nat) : List Nat :=
  let seg := mxBlockBytes fmt / 2 ^ geom
  let off := a % 256 / seg * seg
  (List.range (2 ^ geom)).flatMap fun l => (List.range seg).map fun k => 256 * l + off + k

/-- The value of an MX element under its scale (R118). -/
def mxValue (fmt scale x : Nat) : FVal :=
  if scale = 255 then .nan else ((mxFmt fmt).decode x).scale (Int.ofNat scale - 127)

/-- The elements that a byte of a block holds. -/
def mxSplit (fmt : Nat) (b : Byte) : List Nat := if fmt = 7 then [b.toNat % 16, b.toNat / 16] else [b.toNat]

/-- The binary exponent of a magnitude: floor of log2. -/
def FVal.exponent : FVal → Option Int
  | .num _ m e => if m = 0 then none else some (e + Int.ofNat (Nat.log2 m))
  | _ => none

/-- A block encoded (R119): its scale and its elements; `rnd j` is the stochastic value of element j. -/
def mxEncode (fmt rm : Nat) (rnd : Nat → Nat) (vals : List FVal) : Nat × List Nat :=
  if vals.any fun v => match v with
    | .num _ _ _ => false
    | _ => true then (0xFF, vals.map fun _ => 0)
  else match (vals.filterMap FVal.exponent).max? with
    | none => (0x7F, vals.map fun _ => 0)
    | some top =>
      let x := top - (if fmt = 7 then 2 else 8)
      let scale := (max 0 (min 254 (x + 127))).toNat
      (scale, ((List.range vals.length).zip vals).map fun p => (mxFmt fmt).encode rm (rnd p.1) (p.2.scale (127 - Int.ofNat scale)))

/-- The value that an element of a store to an MX page has in its register (R125). -/
def MxElem.value (x : MxElem) : FVal :=
  match floatOf x.vt with
  | some f => f.decode x.bits
  | none => .nan

/-- The byte that elements of a block make. -/
def mxJoin (fmt : Nat) : List Nat → List Byte
  | [] => []
  | [x] => [BitVec.ofNat 8 x]
  | x :: y :: rest => if fmt = 7 then BitVec.ofNat 8 (x + 16 * y) :: mxJoin fmt rest else BitVec.ofNat 8 x :: mxJoin fmt (y :: rest)

/-- Whether two elements of a store to MX pages lie in one block with one scale byte. -/
def MxElem.sameBlock (x y : MxElem) : Bool :=
  y.scale == x.scale && y.group == x.group && mxOffsets y.fmt y.geom (y.va % mxGroup y.geom) == mxOffsets x.fmt x.geom (x.va % mxGroup x.geom)

/-- The element of a block that a store to it names: the last of those at an offset of the line group and in a half of its byte. -/
def storedAt (stored : List MxElem) (off : Nat) (high : Bool) : Option MxElem :=
  stored.reverse.find? fun y => y.va % mxGroup y.geom == off && (y.fmt != 7 || y.high == high)

/-- Bytes at places of a list read by the hart, each as a plain load of its own reads it (R121). -/
def State.readPlaces (s : State) : List Place → State × List Byte
  | [] => (s, [])
  | p :: rest =>
    let (s, b) := s.readList (fun q => q.vector && q.ordered) p 1
    let (s, more) := s.readPlaces rest
    (s, b.getD 0 0 :: more)

/-- Elements of one block stored (R119, R121): the block and its scale are read, encoded again with the stored elements in place,
and written back, each byte whole. The hart's own pending vector stores to it come first (R176), and so do those released from the caddy
before it (R196). -/
def State.mxStoreBlock (s : State) (x : MxElem) (stored : List MxElem) : State :=
  let base := x.va / mxGroup x.geom * mxGroup x.geom
  let offs := mxOffsets x.fmt x.geom x.va
  let s := s.drain fun q => q.released || (q.vector && (q.touches x.scale 1 || offs.any fun o => q.touches (x.group.add o) 1))
  let (s, scale) := s.readPlaces [x.scale]
  let (s, bytes) := s.readPlaces (offs.map x.group.add)
  let present := bytes.flatMap fun b => (mxSplit x.fmt b).map (mxValue x.fmt (bytesToNat scale))
  let per := if x.fmt = 7 then 2 else 1
  let vals := ((List.range present.length).zip present).map fun p =>
    match storedAt stored (offs.getD (p.1 / per) 0) (p.1 % 2 == 1) with
    | some y => y.value
    | none => p.2
  let r := mxEncode x.fmt (vtRound x.vt) (fun j => locate x.vt x.seed (base + offs.getD (j / per) 0)) vals
  let put (s : State) (p : Place) (b : Byte) : State := s.perform ⟨p, [b], false, true, false, x.owner, [], x.via, false⟩
  let s := stored.foldl (fun s y => s.setDirty y.owner y.dirty) s
  let s := (offs.zip (mxJoin x.fmt r.2)).foldl (fun s p => put s (x.group.add p.1) p.2) s
  put s x.scale (BitVec.ofNat 8 r.1)

/-- Elements of a store to MX pages performed, block by block, in the order of each block's first element: `fuel` bounds the
blocks. -/
def State.mxStore (s : State) : Nat → List MxElem → State
  | 0, _ => s
  | _ + 1, [] => s
  | fuel + 1, x :: rest => (s.mxStoreBlock x (x :: rest.filter x.sameBlock)).mxStore fuel (rest.filter fun y => !x.sameBlock y)

end Sys2Proof.Machine
end

