-- ==== Sys2Proof/Machine/Flags.lean ====
section
/-!
DEFINITION. The status registers: TSTAT and its entry and return (R57, R70, R72), ASTAT's sticky bits, and the hardware loop
levels with their active bits (R102, R105, R106).
-/
namespace Sys2Proof.Machine

/-- One bit of a status word set to `b`. -/
def setBit (w : Word) (i : Nat) (b : Bool) : Word :=
  if b then w ||| (1#64 <<< i) else w &&& ~~~(1#64 <<< i)

/-- TSTAT.M: supervisor mode (R57). -/
def Regs.supervisor (r : Regs) : Bool := r.tstat.getLsbD 0

/-- TSTAT as trap entry forms it (R70). -/
def enterStatus (t : Word) (rfm fr : Bool) : Word :=
  let t1 := setBit (setBit t 1 (t.getLsbD 0)) 0 true
  let t2 := setBit (setBit t1 4 (t.getLsbD 2)) 5 (t.getLsbD 3)
  setBit (setBit (setBit (setBit t2 2 false) 3 false) 6 rfm) 7 fr

/-- TSTAT as RFT leaves it (R72). -/
def returnStatus (t : Word) : Word :=
  let t1 := setBit t 0 (t.getLsbD 1)
  let t2 := setBit (setBit t1 2 (t.getLsbD 4)) 3 (t.getLsbD 5)
  setBit (setBit t2 6 false) 7 false

/-- ASTAT.RIV set: an invalid residue result was produced (R57). -/
def Regs.setRiv (r : Regs) : Regs := { r with astat := setBit r.astat 1 true }

/-- ASTAT.RIX set: a rotary angle came from an inexact position (R57). -/
def Regs.setRix (r : Regs) : Regs := { r with astat := setBit r.astat 0 true }

/-- A hardware loop level: false is level 0, true level 1 (R102). -/
abbrev Level := Bool

def Regs.ls (r : Regs) : Level → Word
  | false => r.ls0
  | true => r.ls1
def Regs.le (r : Regs) : Level → Word
  | false => r.le0
  | true => r.le1
def Regs.lc (r : Regs) : Level → Word
  | false => r.lc0
  | true => r.lc1
/-- TSTAT.LAk. -/
def Regs.la (r : Regs) : Level → Bool
  | false => r.tstat.getLsbD 2
  | true => r.tstat.getLsbD 3

def Regs.setLs (r : Regs) (k : Level) (v : Word) : Regs :=
  match k with
  | false => { r with ls0 := v }
  | true => { r with ls1 := v }
def Regs.setLe (r : Regs) (k : Level) (v : Word) : Regs :=
  match k with
  | false => { r with le0 := v }
  | true => { r with le1 := v }
def Regs.setLc (r : Regs) (k : Level) (v : Word) : Regs :=
  match k with
  | false => { r with lc0 := v }
  | true => { r with lc1 := v }
def Regs.setLa (r : Regs) (k : Level) (b : Bool) : Regs :=
  match k with
  | false => { r with tstat := setBit r.tstat 2 b }
  | true => { r with tstat := setBit r.tstat 3 b }

/-- Whether an address is the loop end of an active level (R42). -/
def Regs.isLoopEnd (r : Regs) (a : Word) : Bool := (r.la false && r.le0 == a) || (r.la true && r.le1 == a)

/-- End processing of one level (R105): the next PC, or none when the level has ended. -/
def Regs.endLevel (r : Regs) (k : Level) : Regs × Option Word :=
  let c := r.lc k - 1
  let r := r.setLc k c
  if c != 0 then (r, some (r.ls k)) else (r.setLa k false, none)

/-- End processing at the address of a convoy's last member (R105): level 1 first when both end there. -/
def Regs.loopEnd (r : Regs) (a : Word) : Regs × Word :=
  if r.la true && r.le1 == a then
    match r.endLevel true with
    | (r, some pc) => (r, pc)
    | (r, none) =>
      if r.la false && r.le0 == a then
        match r.endLevel false with
        | (r, some pc) => (r, pc)
        | (r, none) => (r, r.le0 + 4)
      else (r, r.le1 + 4)
  else if r.la false && r.le0 == a then
    match r.endLevel false with
    | (r, some pc) => (r, pc)
    | (r, none) => (r, r.le0 + 4)
  else (r, a + 4)

/-- Whether an address lies in the body of a level. -/
def Regs.inBody (r : Regs) (k : Level) (a : Word) : Bool := decide (r.ls k ≤ a) && decide (a ≤ r.le k)

/-- A taken transfer from `a` to `t` ends a level it leaves (R106). -/
def Regs.leaveLevel (r : Regs) (k : Level) (a t : Word) : Regs :=
  if r.la k && r.inBody k a && !r.inBody k t then (r.setLa k false).setLc k 0 else r

/-- A taken transfer from `a` to `t` ends every level it leaves (R106). -/
def Regs.leave (r : Regs) (a t : Word) : Regs := (r.leaveLevel false a t).leaveLevel true a t

end Sys2Proof.Machine
end

