-- ==== Sys2Proof/Machine/Frames.lean ====
section
/-!
DEFINITION. The special registers by number (R56), hart frames in memory (R414 to R416), fault records (R170, R171), and saving
a hart to its frame and reading it back (R397, R412, R417).
-/
namespace Sys2Proof.Machine

/-- TICK (R63). -/
def State.tick (s : State) : Nat := s.pkg.cycle / 256

/-- CTXID of a context number (R56). -/
def State.ctxid (s : State) (n : Nat) : Nat :=
  match s.ctx? n with
  | some c => c.handle
  | none => n

/-- SPHW of a hart's team (R62). -/
def State.sphw (s : State) : Nat :=
  match s.slotTeam? s.hart.crew s.hart.slot with
  | some t => t.sphw
  | none => 0

/-- The special register numbered `n` of the hart that steps (R56); numbers absent from the table read 0. -/
def State.special (s : State) (n : Nat) : Word :=
  let h := s.hart
  let r := h.regs
  match n with
  | 0x000 => h.pc
  | 0x001 => r.lr
  | 0x002 => r.wb
  | 0x003 => zextWord r.vt
  | 0x004 => Word.ofNat r.vl
  | 0x005 => Word.ofNat h.vlmax
  | 0x006 => Word.ofNat r.vnreg
  | 0x007 => Word.ofNat h.elix
  | 0x008 => r.bx
  | 0x009 => r.fx
  | 0x00A => h.xrd
  | 0x00B => h.grd
  | 0x010 => r.ls0
  | 0x011 => r.le0
  | 0x012 => r.lc0
  | 0x013 => r.ls1
  | 0x014 => r.le1
  | 0x015 => r.lc1
  | 0x020 => h.tcause
  | 0x021 => h.tpc
  | 0x022 => h.telix
  | 0x023 => h.tval
  | 0x024 => h.tvec
  | 0x025 => r.tstat
  | 0x026 => h.tscr
  | 0x030 => h.hartcrd
  | 0x031 => Word.ofNat (s.ctxid h.ctx)
  | 0x032 => Word.ofNat s.tick
  | 0x033 => Word.ofNat s.pkg.cycle
  | 0x034 => h.rseed
  | 0x035 => h.spbase
  | 0x036 => Word.ofNat s.sphw
  | 0x037 => Word.ofNat s.grantCap
  | 0x038 => r.astat
  | 0x040 => h.splane0
  | 0x041 => h.splane1
  | 0x042 => h.splane2
  | 0x043 => h.splane3
  | _ => 0

/-- The virtual address of a hart's frame in its context's parent's space; for the crown the physical address (R414, R416). -/
def State.frameAddr (s : State) (h : Hart) : Nat :=
  match s.ctx? h.ctx with
  | some c => if c.parent.isNone then Config.deviceRegion + s.pkg.manifest.windows.crownFrames + 0x400000 * h.frame else c.frames + 0x400000 * h.frame
  | none => 0

/-- Where an offset of a hart's frame lands, through the stages above its context (R414), with the accessed and dirty bits of the
translation set (R372); or the state in which the access failed. Its page must be writable even for a read. -/
def State.frameReach (s : State) (h : Hart) (off : Nat) (write : Bool) : Except State (State × Nat) :=
  match s.chain h.ctx with
  | _ :: up =>
    if up.isEmpty then .ok (s, Config.crownFrames + 0x400000 * h.frame + off)
    else
      let x := (translate s 1 up (s.frameAddr h + off)).map fun x => { x with noU := x.noU <|> x.noW }
      (s.deviceReach h.ctx write true x).map fun r => (r.1.setDirty h.ctx r.2.2, r.2.1)
  | [] => .error s

/-- Whether a hart's frame lies behind a host link that is down for less than 2^16 ticks (R424). -/
def State.frameWaits (s : State) (h : Hart) : Bool :=
  match s.chain h.ctx with
  | _ :: up =>
    if up.isEmpty then false
    else match translate s 1 up (s.frameAddr h) with
      | .ok x => s.linkWaits (.phys x.pa)
      | .error f => f.cause == 0xFF
  | [] => false

/-- The frame address as a virtual address of the ancestor at stage `j` of the hart's chain (R397). -/
def State.frameAddrAt (s : State) (h : Hart) (j : Nat) : Nat :=
  match s.chain h.ctx with
  | _ :: up =>
    if up.isEmpty || j ≤ 1 then s.frameAddr h
    else match translate s 1 up (s.frameAddr h) with
      | .ok x => ((x.inputs.find? (fun i => i.1 == j)).map (·.2)).getD (s.frameAddr h)
      | .error _ => s.frameAddr h
  | [] => 0

/-- The first `size` bytes of an image in canonical form. -/
def imagePart (img : Sparse Byte) (size : Nat) : Sparse Byte := img.foldr (fun e m => if e.1 < size then Sparse.put zeroByte m e.1 e.2 else m) []

/-- Memory with `size` bytes from `lo` on replaced by an image. -/
def Memory.fill (m : List Host.Cell) (lo size : Nat) (img : Sparse Byte) : List Host.Cell :=
  if lo + size ≤ Config.frameTableBase ∨ Config.frameTableBase + Config.frameTableSize ≤ lo then
    m.filter (fun e => e.1 < lo) ++ (imagePart img size).map (fun e => (lo + e.1, e.2)) ++ m.filter (fun e => lo + size ≤ e.1)
  else Memory.writeList m lo (Sparse.getList zeroByte img 0 size)

/-- The image of `size` bytes of memory from `lo` on. -/
def Memory.slice (m : List Host.Cell) (lo size : Nat) : Sparse Byte :=
  if lo + size ≤ Config.frameTableBase ∨ Config.frameTableBase + Config.frameTableSize ≤ lo then
    (m.filter (fun e => lo ≤ e.1 && e.1 < lo + size)).map (fun e => (e.1 - lo, e.2))
  else Sparse.putList zeroByte [] 0 ((List.range size).map fun k => Memory.read m (lo + k))

/-- An image shifted down by `lo` and cut to `size`. -/
def imageCut (img : Sparse Byte) (lo size : Nat) : Sparse Byte :=
  (img.filter (fun e => lo ≤ e.1 && e.1 < lo + size)).map fun e => (e.1 - lo, e.2)

/-- Owner tags of `cnt` lines from line `l` on, all at once (R325). -/
def fillOwners (m : Sparse Nat) (l owner cnt : Nat) : Sparse Nat :=
  m.filter (fun e => e.1 < l) ++ (if owner = 0 then [] else (List.range cnt).map fun k => (l + k, owner)) ++ m.filter (fun e => l + cnt ≤ e.1)

/-- Tags of the words of `size` bytes from `pa` on clear, all at once (R328). -/
def clearTags (m : Sparse Bool) (pa size : Nat) : Sparse Bool := m.filter fun e => decide (8 * e.1 + 8 ≤ pa) || decide (pa + size ≤ 8 * e.1)

/-- An image written into a frame from offset `off` on, page by page, as plain stores of the hart's context (R416), up to a page that
fails. -/
def State.frameWrite (s : State) (h : Hart) : Nat → Nat → Nat → Sparse Byte → Except State State
  | 0, _, _, _ => .ok s
  | fuel + 1, off, size, img =>
    if size = 0 then .ok s
    else
      let part := min size (65536 - off % 65536)
      match s.frameReach h off true with
      | .error s => .error s
      | .ok (s, pa) =>
        let s := ({ s with
          tags := clearTags s.tags pa part
          owner := fillOwners s.owner (pa / 256) h.ctx ((pa + part - 1) / 256 + 1 - pa / 256)
          mem := Memory.fill s.mem pa part (imageCut img 0 part)
          pois := s.pois.filter (fun e => !(pa ≤ 8 * e.1 && 8 * e.1 < pa + part)) } : State).wakeLines (.phys pa) part
        s.frameWrite h fuel (off + part) (size - part) (imageCut img part (size - part))

/-- An image read from a frame. -/
def State.frameRead (s : State) (h : Hart) : Nat → Nat → Nat → Except State (State × Sparse Byte)
  | 0, _, _ => .ok (s, [])
  | fuel + 1, off, size =>
    if size = 0 then .ok (s, [])
    else
      let part := min size (65536 - off % 65536)
      match s.frameReach h off false with
      | .error s => .error s
      | .ok (s, pa) =>
        match s.frameRead h fuel (off + part) (size - part) with
        | .error s => .error s
        | .ok (s, more) => .ok (s, Memory.slice s.mem pa part ++ more.map fun e => (e.1 + part, e.2))

/-- The frame pages an area of a frame spans at most. -/
def framePages : Nat := 64

/-- Words as an image: word `k` of the list at `8 k`. -/
def wordImage (ws : List Word) : Sparse Byte := Sparse.putList zeroByte [] 0 (ws.flatMap wordBytes)

/-- The word at `off` of an image. -/
def imageWord (img : Sparse Byte) (off : Nat) : Word := BitVec.ofNat 64 (bytesToNat (Sparse.getList zeroByte img off 8))

/-- Bits packed into bytes: bit `i` stands in byte `i / 8` (R170, R414). -/
def packBits (m : Sparse Bool) : Sparse Byte :=
  m.foldl (fun img e => if e.2 then Sparse.put zeroByte img (e.1 / 8) (Sparse.get zeroByte img (e.1 / 8) ||| BitVec.ofNat 8 (2 ^ (e.1 % 8))) else img) []

/-- Bytes unpacked into bits. -/
def unpackBits (img : Sparse Byte) : Sparse Bool :=
  img.flatMap fun e => (List.range 8).filterMap fun k => if e.2.getLsbD k then some (8 * e.1 + k, true) else none

/-- Eight 16-bit counters packed into two words (R415). -/
def packGens (m : Sparse Nat) : List Word :=
  [0, 4].map fun b => (List.range 4).foldl (fun w k => w ||| BitVec.ofNat 64 (Sparse.get zeroNat m (b + k) % 65536 * 2 ^ (16 * k))) 0

/-- Eight bytes packed into a word (R415). -/
def packCounts (m : Sparse Nat) : Word :=
  (List.range 8).foldl (fun w k => w ||| BitVec.ofNat 64 (Sparse.get zeroNat m k % 256 * 2 ^ (8 * k))) 0

/-- A crew by its name. -/
def State.crew? (s : State) (n : Nat) : Option Crew := s.crews.find? (fun c => c.id == n)

/-- The queue number of a hart's launch, 0 when its launch is gone. -/
def State.launchQueue (s : State) (h : Hart) : Nat :=
  match s.crew? h.crew with
  | some c => match s.launches.find? (fun l => l.id == c.launch) with
    | some l => l.queue
    | none => 0
  | none => 0

/-- The counters of eight tags read back from their bytes, `n` bytes each (R415). -/
def unpackTags (img : Sparse Byte) (off n : Nat) : Sparse Nat :=
  (List.range 8).foldl (fun m k => Sparse.put zeroNat m k (bytesToNat (Sparse.getList zeroByte img (off + n * k) n))) []

/-- A session's image of 128 bytes (R290). -/
def sessionImage : Option Session → List Byte
  | none => List.replicate 128 0
  | some x =>
    natToBytes x.desc 8 ++ natToBytes (x.state + x.stack.length * 65536) 8 ++ x.stack.reverse.map (BitVec.ofNat 8) ++
      List.replicate (112 - x.stack.length) 0

/-- A number of `n` bytes at offset `o` of a list of bytes. -/
def field (bs : List Byte) (o n : Nat) : Nat := bytesToNat ((bs.drop o).take n)

/-- The fields of a grammar descriptor's bytes (R286). -/
def grammarOf (bs : List Byte) : Grammar :=
  ⟨field bs 0 4, field bs 4 4, field bs 8 2, field bs 10 2, field bs 12 2, field bs 14 1, field bs 16 8, field bs 24 8, field bs 32 8⟩

/-- The grammar whose descriptor lies at an address of a hart, as memory holds it. -/
def State.grammarAt (s : State) (h : Hart) (desc : Nat) : Option Grammar :=
  match h.padOffset (Word.ofNat desc) with
  | some off => (s.slotTeam? h.crew (off / 0x200000)).map fun t => grammarOf (s.peekList (.pad t.id (off % 0x200000)) 64)
  | none => match s.lookup h.ctx desc with
    | .ok x => some (grammarOf (s.peekList (.phys x.pa) 64))
    | .error _ => none

/-- A hart's session as its image in the frame has it (R289, R290, R301): unbound for descriptor 0, else its state and stack. A descriptor that
the hart had not bound is read from memory, and where it cannot be read the session is unbound (DESIGN CHOICE, log 15). -/
def State.sessionBack (s : State) (h : Hart) (img : Sparse Byte) : Option Session :=
  let desc := (imageWord img 0).toNat
  let info := (imageWord img 8).toNat
  let gram := match h.session with
    | some x => if x.desc = desc then some x.gram else s.grammarAt h desc
    | none => s.grammarAt h desc
  if desc = 0 then none
  else gram.map fun g =>
    { desc := desc, gram := g, state := bitsOf info 15 0, stack := (((Sparse.getList zeroByte img 0x10 64).take (bitsOf info 22 16)).map (·.toNat)).reverse }

/-- The words of a copy in the frame (R267, R414): its shadow set, then VL, VT, RSEED, the scale planes, form, token and op, next strip,
count, the elements whose mirror writes are not acknowledged, and last the model's number of it, which is not 0 for a copy. The spec names these contents and no layout: DESIGN CHOICE (log 15). -/
def Copy.words (c : Copy) : List Word :=
  ((List.range 17).map fun k => Sparse.get zeroWord c.sx k) ++ [Word.ofNat c.vl, zextWord c.vt, c.seed] ++ (List.range 4).map (fun k => c.splane.getD k 0) ++
    [Word.ofNat ((if c.multi then 1 else 0) + (if c.poisoned then 2 else 0) + (if c.aborting then 4 else 0) + 8 * c.token), Word.ofNat c.op, Word.ofNat c.strips,
      Word.ofNat c.count, Word.ofNat c.unacked, Word.ofNat c.id]

/-- The copy that the words of a frame have, if one. -/
def copyBack (img : Sparse Byte) : Option Copy :=
  let w (k : Nat) : Word := imageWord img (8 * k)
  let form := (w 24).toNat
  if w 29 = 0 then none
  else some {
    id := (w 29).toNat, sx := (List.range 17).foldl (fun m k => Sparse.put zeroWord m k (w k)) [], vl := (w 17).toNat, vt := (w 18).setWidth 7, seed := w 19
    splane := [w 20, w 21, w 22, w 23], multi := form % 2 == 1, token := form / 8, op := (w 25).toNat, strips := (w 26).toNat, count := (w 27).toNat
    ended := none, delivered := false, unacked := (w 28).toNat, poisoned := form / 2 % 2 == 1, aborting := form / 4 % 2 == 1 }

/-- The strm area of a frame (R414): the shadow set, and the copies that run at 256-byte steps from 0x100 on. -/
def Hart.strmImage (h : Hart) : Sparse Byte :=
  wordImage ((List.range 17).map fun k => Sparse.get zeroWord h.sx k) ++
    (((h.copies.filter fun c => c.ended.isNone).take 8).zip (List.range 8)).flatMap fun p => (wordImage p.1.words).map fun e => (0x100 + 256 * p.2 + e.1, e.2)

/-- The words of a gather-queue descriptor in the frame (R367): VT and VL, RSEED, table and packed operand. DESIGN CHOICE of layout (log
15). -/
def GatherDesc.words (g : GatherDesc) : List Word := [Word.ofNat (g.vt.toNat + 256 * g.vl), g.seed, g.table, g.packed]

/-- The element from which a VGQPOP goes on with the head of the queue (R365, R367). -/
def Hart.popAt (h : Hart) : Nat := (h.gathers.head?.map (·.popped)).getD 0

/-- The gq area of a frame (R414): the head's ELIX and the number of descriptors, then the descriptors, head first. -/
def Hart.gatherImage (h : Hart) : Sparse Byte := wordImage (Word.ofNat (h.popAt + 65536 * h.gathers.length) :: h.gathers.flatMap (·.words))

/-- The gathers of the queue that a frame has: they are to be performed again (R367). -/
def gathersBack (img : Sparse Byte) : List GatherDesc :=
  (List.range (min 16 (bitsOf (imageWord img 0).toNat 63 16))).map fun k =>
    let w (j : Nat) : Word := imageWord img (8 + 32 * k + 8 * j)
    { vt := (w 0).setWidth 7, vl := (w 0).toNat / 256, seed := w 1, table := w 2, packed := w 3, performed := none
      popped := if k = 0 then bitsOf (imageWord img 0).toNat 15 0 else 0 }

/-- A matrix operation's form as a number (R234, R253), and its operand; a pre-emption completes those that are no transfers, 1 to 4, so that
the scan path alone shows them (R420). -/
def MatKind.code : MatKind → Nat × Word
  | .load false => (1, 0)
  | .store false => (2, 0)
  | .load true => (3, 0)
  | .store true => (4, 0)
  | .shape w => (5, w)
  | .zero => (6, 0)
  | .rowIn j => (7, Word.ofNat j)
  | .rowOut v j => (8, Word.ofNat (j + 65536 * v))
  | .colIn j => (9, Word.ofNat j)
  | .colOut v j => (10, Word.ofNat (j + 65536 * v))
  | .convert source imm => (11, Word.ofNat (imm + 65536 * source))
  | .rowOp ordered stream stationary y => (12, Word.ofNat (y + 65536 * stationary + (if ordered then 2 ^ 32 else 0) + if stream then 2 ^ 33 else 0))

/-- The words of a matrix operation in the frame (R253): form and tile, the row or chunk from which it continues and the one before which it
ends, base address, pitch, and operand. DESIGN CHOICE of layout (log 15). -/
def MatOp.words (m : MatOp) : List Word :=
  [Word.ofNat (m.kind.code.1 + 256 * m.tile + 65536 * m.done + 2 ^ 32 * m.upto), m.addr, m.pitch, m.kind.code.2]

/-- The mq area of a frame (R253, R414): the descriptors in order, in 64 bytes each. -/
def Hart.matrixImage (h : Hart) : Sparse Byte := wordImage (h.matrix.flatMap fun m => m.words ++ List.replicate 4 0)

/-- An operation of a frame's mq area, if there is one: as the hart had it queued, or a transfer anew where its words have been changed. -/
def Hart.matrixBack (h : Hart) (img : Sparse Byte) (k : Nat) : Option MatOp :=
  let w (j : Nat) : Word := imageWord img (64 * k + 8 * j)
  let op (kind : MatKind) : MatOp :=
    { kind := kind, tile := bitsOf (w 0).toNat 10 8, vec := [], vpois := [], pieces := [], dirty := [], via := [], owner := h.ctx, seed := h.rseed, addr := w 1
      pitch := w 2, done := bitsOf (w 0).toNat 31 16, upto := bitsOf (w 0).toNat 63 32 }
  let same (m : MatOp) : Bool := m.words == [w 0, w 1, w 2, w 3]
  match (h.matrix[k]?.filter same).orElse fun _ => h.matrix.find? same with
  | some m => some m
  | none => match bitsOf (w 0).toNat 7 0 with
    | 1 => some (op (.load false))
    | 2 => some (op (.store false))
    | 3 => some (op (.load true))
    | 4 => some (op (.store true))
    | _ => none

/-- A collective's form as a number (R441). -/
def CollKind.code : CollKind → Nat
  | .reduce => 0
  | .gather => 1
  | .scatter => 2
  | .broadcast => 3

/-- A collective's words in the frame (R446): VT and form, reduction, root and op, count, buffers, group table, group, sequence number, token,
the next chunk, and the model's number of it. DESIGN CHOICE of layout (log 15). -/
def Coll.words (c : Coll) : List Word :=
  [Word.ofNat (c.vt.toNat + 256 * c.kind.code), Word.ofNat (c.reduction + 256 * c.root + 65536 * c.op), Word.ofNat c.count, c.send, c.recv, c.stage, c.frec,
    c.table, Word.ofNat c.group, Word.ofNat c.seqno, Word.ofNat c.token, Word.ofNat c.chunks, Word.ofNat c.id]

/-- A collective as its words in the frame have it: its descriptor, and how many of its chunks are done. What has come from its peers stays. -/
def Coll.back (c : Coll) (img : Sparse Byte) : Coll :=
  let w (k : Nat) : Word := imageWord img (8 * k)
  let n := min (w 11).toNat c.chunks
  { c with
    kind := if bitsOf (w 0).toNat 15 8 = 0 then .reduce else if bitsOf (w 0).toNat 15 8 = 1 then .gather else if bitsOf (w 0).toNat 15 8 = 2 then .scatter else .broadcast
    vt := (w 0).setWidth 7, reduction := bitsOf (w 1).toNat 7 0, root := bitsOf (w 1).toNat 15 8, op := bitsOf (w 1).toNat 31 16, count := (w 2).toNat
    send := w 3, recv := w 4, stage := w 5, frec := w 6, table := w 7, group := (w 8).toNat, seqno := (w 9).toNat, token := (w 10).toNat, chunks := n
    results := c.results.take (n * (65536 / vtBytes c.vt)), answers := c.answers.map fun a => { a with out := a.out.take (n * (65536 / vtBytes c.vt)) } }

/-- The collectives of a frame (R446): four entries of 256 bytes. -/
def Hart.collImage (h : Hart) : Sparse Byte :=
  ((h.colls.filter fun c => c.ended.isNone).take 4 |>.zip (List.range 4)).flatMap fun p => (wordImage p.1.words).map fun e => (256 * p.2 + e.1, e.2)

/-- The header of a hart's frame (R415). -/
def State.headerImage (s : State) (h : Hart) (state : Nat) : Sparse Byte :=
  let c := s.crew? h.crew
  let bar := (List.range 8).foldl (fun (w : Word) k => if Sparse.get clearBit h.arrived k then w ||| BitVec.ofNat 64 (2 ^ k) else w) 0
  let pend := (List.range 8).map fun k => h.pend.foldl (fun (w : Word) p => if p / 64 = k then w ||| BitVec.ofNat 64 (2 ^ (p % 64)) else w) 0
  let region : Word := (if h.region.isOpen then 1 else 0) ||| (if h.region.exited then 2 else 0)
  wordImage ([Word.ofNat state, Word.ofNat (s.ctxid h.ctx), h.hartcrd, Word.ofNat (s.launchOp h + s.launchQueue h * 65536),
    h.trap.cause, h.trap.pc, h.trap.elix, h.trap.tval, h.trap.tstat, bar, region, 0, 0, 0, 0, 0] ++ pend ++
    packGens ((c.map (·.gen)).getD []) ++ packGens h.arrivedGen ++ [packCounts ((c.map (·.count)).getD []), 0, 0, 0])

/-- The scalar file of a frame (R414): P0 to P511. -/
def gfileImage (r : Regs) : Sparse Byte := r.gpr.foldl (fun img e => if e.1 = 0 || e.1 ≥ 512 then img else Sparse.putList zeroByte img (8 * e.1) (wordBytes e.2)) []

/-- The scalar file read back. -/
def gfileOf (img : Sparse Byte) : Sparse Word :=
  (List.range 512).foldl (fun m k => Sparse.put zeroWord m k (if k = 0 then 0 else imageWord img (8 * k))) []

/-- The special registers of a frame (R414): number x at 8x, numbers below 0x80. A member under m15 is recorded by TSTAT.RFM, from which
it resumes (R175, R417). -/
def State.specImage (s : State) (h : Hart) : Sparse Byte :=
  let h := if h.m15only then { h with regs := { h.regs with tstat := h.regs.tstat ||| 0x40 } } else h
  let t := { s with hart := h }
  wordImage ((List.range 0x80).map fun n => t.special n)

/-- A tile's image (R244): the shape word, 32 KiB of data from 0x100 and 2 KiB of scales from 0x8100. -/
def tileImage (t : Tile) : Sparse Byte :=
  wordImage [t.shape.getD 0] ++ t.data.map (fun e => (e.1 + 0x100, e.2)) ++ t.scale.map fun e => (e.1 + 0x8100, e.2)

/-- The tclaim area of a hart's frame (R414): claim group and zero marks, then the shape word of each claimed tile. -/
def Team.claimImage (t : Team) (hart : Nat) : Sparse Byte :=
  let tiles := t.tiles.zip (List.range 8)
  let mine (x : Tile) := x.claim == some hart
  let bits (f : Tile → Bool) : Nat := (tiles.map fun p => if f p.1 then 2 ^ p.2 else 0).foldl (· + ·) 0
  wordImage (Word.ofNat (bits mine + 256 * bits (fun x => mine x && x.zeroMark && !x.dirty)) :: tiles.map fun p => if mine p.1 then p.1.shape.getD 0 else 0)

/-- The areas of a frame that a stop writes: offset, size and image (R414, R416). `whole` adds the team's scratchpad
(in the frame of hart 0 alone). -/
def State.frameAreas (s : State) (h : Hart) (state : Nat) (whole : Bool) : List (Nat × Nat × Sparse Byte) :=
  let base := [(0x100, 0x400, s.specImage h), (0x500, 0x400, h.collImage), (0x1000, 0x1000, gfileImage h.regs), (0x2000, 0x900, h.strmImage),
    (0x3100, 0x400, h.matrixImage), (0x3500, 0x400, h.gatherImage), (0x3900, 0x80, Sparse.putList zeroByte [] 0 (sessionImage h.session)),
    (0x8000, 0x20000, packBits h.regs.masks), (0x28000, h.rows * 256, h.regs.vrf)]
  let team := match s.slotTeam? h.crew h.slot with
    | none => []
    | some t =>
      let mine := (t.tiles.zip (List.range 8)).filter fun p => p.1.claim == some h.id && p.1.dirty
      (0x3000, 0x48, t.claimImage h.id) :: (mine.map fun p => (0x68000 + 0x8900 * p.2, 0x8900, tileImage p.1)) ++
        (if whole && h.hidx == 0 then [(0xB0000, t.sphw, imageCut t.bytes 0 t.sphw)] else [])
  base ++ team ++ [(0, 0x100, s.headerImage h state)]

/-- A tile of hart `id` once its frame holds it (R252): clean, and a zero mark only if it was clean before. -/
def Tile.saved (id : Nat) (x : Tile) : Tile := if x.claim = some id then { x with zeroMark := x.zeroMark && !x.dirty, dirty := false } else x

/-- A hart's tiles once its frame holds them (R252). -/
def State.cleanTiles (s : State) (h : Hart) : State :=
  match s.slotTeam? h.crew h.slot with
  | none => s
  | some t => s.modTeam t.id fun t => { t with tiles := t.tiles.map (Tile.saved h.id) }

/-- A hart saved to its frame with the header's state last (R416), or the failure of a frame access. -/
def State.saveFrame (s : State) (h : Hart) (state : Nat) (whole : Bool) : Except State State :=
  ((s.frameAreas h state whole).foldl (fun (acc : Except State State) a => acc.bind fun s => s.frameWrite h framePages a.1 a.2.1 a.2.2) (.ok s)).map fun s => s.cleanTiles h

/-- The header's state word of a hart's frame written (R415), or the failure of the access. -/
def State.setFrameState (s : State) (h : Hart) (state : Nat) : Except State State := s.frameWrite h framePages 0 8 (wordImage [Word.ofNat state])

/-- A hart's registers read back from the areas of its frame (R397, R417). -/
def Hart.fromImages (h : Hart) (spec gf masks vrf : Sparse Byte) : Hart :=
  let w (n : Nat) : Word := imageWord spec (8 * n)
  { h with
    pc := w 0, elix := (w 7).toNat, xrd := w 0xA, grd := w 0xB, tcause := w 0x20, tpc := w 0x21, telix := w 0x22, tval := w 0x23
    tvec := w 0x24, tscr := w 0x26, rseed := w 0x34, splane0 := w 0x40, splane1 := w 0x41, splane2 := w 0x42, splane3 := w 0x43
    regs := { h.regs with
      gpr := gfileOf gf, lr := w 1, wb := w 2, vt := (w 3).setWidth 7, vl := (w 4).toNat, vnreg := (w 6).toNat, bx := w 8, fx := w 9
      ls0 := w 0x10, le0 := w 0x11, lc0 := w 0x12, ls1 := w 0x13, le1 := w 0x14, lc1 := w 0x15, tstat := w 0x25, astat := w 0x38
      masks := unpackBits masks, vrf := vrf } }

/-- What a hart has under way, as the areas of its frame have it (R253, R255, R267, R276, R289, R367, R446): the shadow set, the copies, the
collectives, the matrix and gather queues, the session, and the pending tokens, region and barrier flags of the header. -/
def State.underWay (s : State) (h : Hart) (strm coll mq gq gram hd : Sparse Byte) : Hart :=
  let entries := (List.range 4).map fun k => imageCut coll (256 * k) 256
  { h with
    colls := h.colls.filterMap fun c =>
      if c.ended.isSome then some c else (entries.find? fun x => imageWord x 0x60 == Word.ofNat c.id).map c.back
    sx := (List.range 17).foldl (fun m k => Sparse.put zeroWord m k (imageWord strm (8 * k))) []
    copies := (h.copies.filter fun c => c.ended.isSome) ++ (List.range 8).filterMap fun k => copyBack (imageCut strm (0x100 + 256 * k) 256)
    gathers := gathersBack gq
    matrix := (List.range 16).filterMap (h.matrixBack mq)
    session := s.sessionBack h gram
    pend := (List.range 512).filter fun p => (imageWord hd (0x80 + p / 64 * 8)).getLsbD (p % 64)
    region := { h.region with isOpen := (imageWord hd 0x50).getLsbD 0, exited := (imageWord hd 0x50).getLsbD 1 }
    arrived := (List.range 8).foldl (fun m k => Sparse.put clearBit m k ((imageWord hd 0x48).getLsbD k)) []
    arrivedGen := unpackTags hd 0xD0 2 }

/-- The trap field, the registers and what is under way of a stopped hart read back from its frame, which its handler may have changed, and
the state word of the header (R397, R415, R417). -/
def State.loadFrame (s : State) (h : Hart) : Except State (State × Hart × Nat) := do
  let (s, spec) ← s.frameRead h framePages 0x100 0x400
  let (s, gf) ← s.frameRead h framePages 0x1000 0x1000
  let (s, masks) ← s.frameRead h framePages 0x8000 0x20000
  let (s, vrf) ← s.frameRead h framePages 0x28000 (h.rows * 256)
  let (s, strm) ← s.frameRead h framePages 0x2000 0x900
  let (s, coll) ← s.frameRead h framePages 0x500 0x400
  let (s, mq) ← s.frameRead h framePages 0x3100 0x400
  let (s, gq) ← s.frameRead h framePages 0x3500 0x400
  let (s, gram) ← s.frameRead h framePages 0x3900 0x80
  let (s, hd) ← s.frameRead h framePages 0 0x100
  let w (k : Nat) := imageWord hd (0x20 + 8 * k)
  .ok (s, { s.underWay (h.fromImages spec gf masks vrf) strm coll mq gq gram hd with trap := ⟨w 0, w 1, w 2, w 3, w 4⟩ }, (imageWord hd 0).toNat)

/-- A tile read back from its image (R244, R253). -/
def Tile.fromImage (x : Tile) (hart : Nat) (shape : Word) (zero : Bool) (img : Sparse Byte) : Tile :=
  { x with
    claim := some hart, shape := if shape = 0 then none else some shape, zeroMark := zero, dirty := false
    data := if zero then [] else imageCut img 0x100 0x8000
    scale := if zero then [] else imageCut img 0x8100 0x800 }

/-- The tiles that a hart claims read back from its frame, of the tiles from `k` on (R253): those that its frame does not name it
claims no more, and one that its teammate claims stays there. -/
def State.loadTiles (s : State) (h : Hart) (t : Nat) (claims : Sparse Byte) : List Nat → Except State State
  | [] => .ok s
  | k :: rest =>
    let group := (imageWord claims 0).toNat
    let put (s : State) (f : Tile → Tile) : State := s.modTeam t fun t => { t with tiles := t.tiles.modify k f }
    let other := (((s.team? t).map fun t => t.tiles.getD k Tile.empty).bind (·.claim)).any (· != h.id)
    if other then s.loadTiles h t claims rest
    else if bitsOf group k k = 0 then (put s fun _ => Tile.empty).loadTiles h t claims rest
    else
      let zero := bitsOf group (8 + k) (8 + k) == 1
      match (if zero then .ok (s, []) else s.frameRead h framePages (0x68000 + 0x8900 * k) 0x8900) with
      | .error s => .error s
      | .ok (s, img) => (put s fun x => x.fromImage h.id (imageWord claims (8 + 8 * k)) zero img).loadTiles h t claims rest

/-- A hart's tiles read back from its frame (R253). -/
def State.restoreTiles (s : State) (h : Hart) : Except State State :=
  match s.slotTeam? h.crew h.slot with
  | none => .ok s
  | some t => (s.frameRead h framePages 0x3000 0x48).bind fun r => r.1.loadTiles h t.id r.2 (List.range 8)

/-- Where the pad area of a hart's frame differs from what the device last wrote there, a handler has changed it: the scratchpad follows as the
hart resumes (R397). Bytes that peers have stored meanwhile stay (DESIGN CHOICE, log 15). -/
def State.loadPad (s : State) (h : Hart) : Except State State :=
  match h.padSaved, s.slotTeam? h.crew h.slot with
  | some (n, was), some t => (s.frameRead h framePages 0xB0000 n).map fun r =>
      let changed := ((r.2 ++ was).map (·.1)).filter fun a => Sparse.get zeroByte r.2 a != Sparse.get zeroByte was a
      r.1.modTeam t.id fun t => { t with bytes := changed.foldl (fun m a => Sparse.put zeroByte m a (Sparse.get zeroByte r.2 a)) t.bytes }
  | _, _ => .ok s

/-- The crew's generations and arrival counts read back from the frame of one of its harts, which all hold them alike (R276, R415, R417). -/
def State.loadBarriers (s : State) (h : Hart) : Except State State :=
  (s.frameRead h framePages 0 0x100).map fun r => { r.1 with
    crews := r.1.crews.map fun c => if c.id = h.crew then { c with gen := unpackTags r.2 0xC0 2, count := unpackTags r.2 0xE0 1 } else c }

/-- The crew's generations and arrival counts written into the frame of a hart that is in it already (R415). -/
def State.saveBarriers (s : State) (h : Hart) : Except State State :=
  match s.crew? h.crew with
  | none => .ok s
  | some c =>
    (s.frameWrite h framePages 0xC0 0x10 (wordImage (packGens c.gen))).bind fun s => s.frameWrite h framePages 0xE0 8 (wordImage [packCounts c.count])

/-! ## Barrier phases -/

/-- A crew changed. -/
def State.modCrew (s : State) (id : Nat) (f : Crew → Crew) : State := { s with crews := s.crews.map fun c => if c.id = id then f c else c }

/-- Whether a crew holds a route tag (R271). -/
def Crew.holds (c : Crew) (t : Nat) : Bool := c.tags.getLsbD t

/-- Whether a hart has an arrival pending in the phase that the crew's counter counts (R274). -/
def Hart.counted (h : Hart) (c : Crew) (t : Nat) : Bool :=
  Sparse.get clearBit h.arrived t && Sparse.get zeroNat h.arrivedGen t == Sparse.get zeroNat c.gen t

/-- Whether a hart has stopped for good. -/
def Hart.gone (h : Hart) : Bool := h.run == .retired || h.run == .halted || h.run == .crownHalted

/-- The harts that take part in a crew's phases (R273): a handler hart takes none of its own. -/
def State.participants (s : State) (crew : Nat) : List Hart := s.harts.filter fun h => h.crew == crew && h.serves.isNone

/-- A phase whose last arrival has been counted, or whose last other hart has retired, is complete: gen counts on, the count is 0, and the
completion reaches the participants 24 cycles later (R273). -/
def State.settlePhase (s : State) (crew t : Nat) : State :=
  match s.crew? crew with
  | none => s
  | some c =>
    let ps := s.participants crew
    if c.holds t && Sparse.get zeroNat c.due t == 0 && ps.any (fun h => h.counted c t) && ps.all (fun h => h.gone || h.counted c t) then
      s.modCrew crew fun c => { c with
        gen := Sparse.put zeroNat c.gen t ((Sparse.get zeroNat c.gen t + 1) % 65536), count := Sparse.put zeroNat c.count t 0
        due := Sparse.put zeroNat c.due t (s.pkg.cycle + 24) }
    else s

/-- Every tag's phase of a crew looked at (R273). -/
def State.settlePhases (s : State) (crew : Nat) : State := (List.range 8).foldl (fun s t => s.settlePhase crew t) s

/-! ## Fault records -/

/-- The missing page of a virtual address of the hart, if its translation is not present (R168). -/
def State.missing (s : State) (va : Nat) : Option Word :=
  match s.hart.padOffset (Word.ofNat va) with
  | some _ => none
  | none => match s.lookup s.hart.ctx va with
    | .error f => if f.cause = 0x07 then some (pageEntry f) else none
    | .ok _ => none

/-- The distinct pages among a list, ascending (R171). -/
def sortPages (ps : List Word) : List Word :=
  (ps.foldl (fun (m : Sparse Bool) p => Sparse.put clearBit m p.toNat true) []).map fun e => Word.ofNat e.1

/-- The fault record of R170 as an image: `mask` lists the elements of m15 below VL. -/
def recordImage (cause : Nat) (kind minor : Nat) (pc : Word) (vl ctxid elix addr : Nat) (mask : List Nat) (pages : List Word) : Sparse Byte :=
  let shown := pages.take 64
  let info := cause + shown.length * 256 + (if pages.length > 64 then 65536 else 0) + kind * 131072 + minor * 262144
  let mlen := 8 * ceilDiv vl 64
  let bits : Sparse Bool := mask.foldl (fun m i => Sparse.put clearBit m i true) []
  wordImage [Word.ofNat info, pc, Word.ofNat vl, Word.ofNat ctxid, Word.ofNat elix, Word.ofNat addr, Word.ofNat mlen, 0] ++
    (packBits bits).map (fun e => (e.1 + 0x40, e.2)) ++ (wordImage shown).map fun e => (e.1 + 0x40 + mlen, e.2)

end Sys2Proof.Machine
end

