-- ==== Sys2Proof/Machine/Tiles.lean ====
section
/-!
DEFINITION. Tiles: shapes, claims, rows and columns, block arithmetic, and the performing of queued matrix operations (R128, R129,
R228 to R232, R235, R240 to R250).
-/
namespace Sys2Proof.Machine

/-! ## What engines share -/

/-- A free value's number drawn (State.free). -/
def State.draw (s : State) : State × Nat := ({ s with free := s.free + 1 }, s.free)

/-- `n` free values' numbers drawn, the first of them. -/
def State.drawMany (s : State) (n : Nat) : State × Nat := ({ s with free := s.free + n }, s.free)

/-- A scalar register of the hart written once an engine has its value (R237, R264): in every checkpoint too, for what wrote it is older than
the checkpoint's member or is not undone with it. -/
def Hart.lateWrite (h : Hart) (f : Regs → Regs) : Hart :=
  let trims (ts : List Trim) : List Trim := ts.map fun t => { t with saved := f t.saved }
  { h with
    regs := f h.regs
    region := { h.region with
      trims := trims h.region.trims
      strips := h.region.strips.map fun x => { x with regs := f x.regs, trims := trims x.trims } } }

/-! ## Shapes -/

def shapeFmt (w : Word) : Nat := bitsOf w.toNat 23 20
def shapeRowBytes (w : Word) : Nat := bitsOf w.toNat 19 10
def shapeRows (w : Word) : Nat := bitsOf w.toNat 9 0

/-- Bits of one element of a tile format (R230). -/
def tileBits (fmt : Nat) : Nat :=
  match fmt with
  | 1 => 32
  | 2 => 16
  | 3 => 16
  | 7 => 4
  | 9 => 16
  | 10 => 32
  | 11 => 32
  | _ => 8

/-- A shape word in the range of R229. -/
def shapeLegal (w : Word) : Bool :=
  let rb := shapeRowBytes w
  w.toNat < 2 ^ 24 && 1 ≤ shapeFmt w && shapeFmt w ≤ 11 && rb % 8 == 0 && 8 ≤ rb && rb ≤ 512 &&
    (shapeFmt w != 6 || rb % 32 == 0) && (shapeFmt w != 7 || rb % 16 == 0) &&
    1 ≤ shapeRows w && shapeRows w ≤ 512 && shapeRows w * rb ≤ 32768

/-- Columns (R229). -/
def shapeCols (w : Word) : Nat := shapeRowBytes w * 8 / tileBits (shapeFmt w)

/-- Bytes of an element, 1 for MXFP4 (R230). -/
def shapeElem (w : Word) : Nat := (tileBits (shapeFmt w) + 7) / 8

/-! ## A tile's bytes -/

/-- A byte of the data side, or of the scale side from 0x8000 on. -/
def Tile.byte (t : Tile) (k : Nat) : Byte := if k < 0x8000 then Sparse.get zeroByte t.data k else Sparse.get zeroByte t.scale (k - 0x8000)

/-- Whether the 8-byte word that holds a byte is poisoned (R228). -/
def Tile.poisoned (t : Tile) (k : Nat) : Bool := Sparse.anyIn t.pois (k / 8 * 8) (k / 8 * 8 + 8)

/-- A byte written, and its poison mark. -/
def Tile.put (t : Tile) (k : Nat) (b : Byte) (bad : Bool) : Tile :=
  let t := { t with pois := Sparse.put clearBit t.pois k bad }
  if k < 0x8000 then { t with data := Sparse.put zeroByte t.data k b } else { t with scale := Sparse.put zeroByte t.scale (k - 0x8000) b }

/-- Consecutive bytes written, with their marks. -/
def Tile.putList (t : Tile) (k : Nat) : List (Byte × Bool) → Tile
  | [] => t
  | x :: xs => (t.put k x.1 x.2).putList (k + 1) xs

/-- Consecutive bytes with the marks of their words. -/
def Tile.getList (t : Tile) (k n : Nat) : List (Byte × Bool) := (List.range n).map fun i => (t.byte (k + i), t.poisoned (k + i))

/-- The bits of element (r, c) and its mark (R231). -/
def Tile.elem (t : Tile) (w : Word) (r c : Nat) : Nat × Bool :=
  let at' := r * shapeRowBytes w + c * tileBits (shapeFmt w) / 8
  let n := shapeElem w
  let x := bytesToNat ((List.range n).map fun i => t.byte (at' + i))
  (if shapeFmt w = 7 then (if c % 2 = 0 then x % 16 else x / 16) else x, t.poisoned at')

/-- The scale of the block that holds column `c` of row `r`, and its mark (R231). -/
def Tile.scaleOf (t : Tile) (w : Word) (r c : Nat) : Nat × Bool :=
  let k := 0x8000 + r * (shapeCols w / 32) + c / 32
  ((t.byte k).toNat, t.poisoned k)

/-! ## The team's tiles -/

/-- The team of the hart that steps. -/
def State.myTeam? (s : State) : Option Team := s.slotTeam? s.hart.crew s.hart.slot

/-- Tile `k` of the hart's team, an empty one where there is none. -/
def State.tile (s : State) (k : Nat) : Tile := ((s.myTeam?.bind fun t => t.tiles[k]?)).getD Tile.empty

/-- Tile `k` changed. -/
def State.modTile (s : State) (k : Nat) (f : Tile → Tile) : State :=
  match s.myTeam? with
  | some t => s.modTeam t.id fun t => { t with tiles := t.tiles.modify k f }
  | none => s

/-! ## Block arithmetic (R128, R129) -/

/-- The float format of a tile format's elements. -/
def tileFloat (fmt : Nat) : Option Fmt :=
  match fmt with
  | 1 => some fp32
  | 2 => some bf16
  | 3 => some fp16
  | 4 => some e4m3
  | 5 => some e5m2
  | 6 => some e4m3
  | 7 => some e2m1
  | _ => none

/-- Bits kept (R128). -/
def keptBits (fmt : Nat) : Nat := if fmt = 2 then 10 else if fmt = 7 then 4 else 7

/-- x × 2^k truncated toward zero. -/
def truncScaled (neg : Bool) (m : Nat) (e k : Int) : Int :=
  let x := if e + k ≥ 0 then m * 2 ^ (e + k).toNat else m / 2 ^ (-(e + k)).toNat
  if neg then -(Int.ofNat x) else Int.ofNat x

/-- Whether a value is finite. -/
def FVal.finite : FVal → Bool
  | .num _ _ _ => true
  | _ => false

/-- The integers kept of a block and the power of two of one unit; none when every value is zero (R128). -/
def keptBlock (fmt : Nat) (f : Fmt) (vals : List FVal) : Option (List Int × Int) :=
  match (vals.filterMap FVal.exponent).max? with
  | none => none
  | some top =>
    let ex := max top (1 - f.bias)
    let unit : Int := if fmt = 7 then -1 else ex - (Int.ofNat (keptBits fmt) - 1)
    some (vals.map fun v => match v with
      | .num neg m e => truncScaled neg m e (-unit)
      | _ => 0, unit)

/-- A block sum in FP32 (R128): `k` is the exponent of the blocks' scales, none when one of them marks a NaN block. -/
def blockSum (fmt : Nat) (f : Fmt) (k : Option Int) (a b : List FVal) : Nat :=
  match k with
  | none => fp32.nan
  | some k =>
    if !(a.all FVal.finite && b.all FVal.finite) then fp32.nan
    else match keptBlock fmt f a, keptBlock fmt f b with
      | some (xs, ua), some (ys, ub) =>
        let sum := ((xs.zip ys).map fun p => p.1 * p.2).foldl (· + ·) 0
        if sum = 0 then 0 else fp32.encode 0 0 (.num (decide (sum < 0)) sum.natAbs (ua + ub + k))
      | _, _ => 0

/-- FP32 addition with RNE on encodings. -/
def addF32 (x y : Nat) : Nat := fp32.encode 0 0 ((fp32.decode x).add 0 (fp32.decode y))

/-- A `.F` form's sum over any binary tree (R129): two terms that the device chooses are added until one is left. `n` numbers the
free choices. -/
def freeSum : Nat → Nat → List Nat → Nat
  | 0, _, xs => xs.headD 0
  | _ + 1, _, [] => 0
  | _ + 1, _, [x] => x
  | fuel + 1, n, xs =>
    let i := Config.freeChoice n % xs.length
    let rest := xs.eraseIdx i
    let j := Config.freeChoice (n + 1) % rest.length
    freeSum fuel (n + 2) (addF32 (xs.getD i 0) (rest.getD j 0) :: rest.eraseIdx j)

/-- A list cut into parts of 32 (R128), `fuel` of them at most: a row of 512 bytes of MXFP4 holds 32 (R229). -/
def blocksOf {α : Type} : Nat → List α → List (List α)
  | 0, _ => []
  | _ + 1, [] => []
  | fuel + 1, xs => xs.take 32 :: blocksOf fuel (xs.drop 32)

/-- One result element of a float row operation (R249): `x` is the accumulator, `ka` and `kb` the scale exponents by block. -/
def rowElement (ordered : Bool) (n fmt : Nat) (f : Fmt) (x : Nat) (a b : List FVal) (scales : List (Option Int)) : Nat :=
  let sums := (((blocksOf 32 a).zip (blocksOf 32 b)).zip scales).map fun p => blockSum fmt f p.2 p.1.1 p.1.2
  let canon (v : Nat) : Nat := if (fp32.decode v).isNan then fp32.nan else v
  canon (if ordered then sums.foldl addF32 x else freeSum 33 n (x :: sums))

/-- The exponent of two MX scales (R128). -/
def scaleExp (sa sb : Nat) : Option Int := if sa = 255 ∨ sb = 255 then none else some (Int.ofNat sa + Int.ofNat sb - 254)

/-! ## Performing an operation -/

/-- The operand row of a row operation: its element bits and scales, and whether any word of it is poisoned. -/
structure ARow where
  elems : List Nat
  scales : List Nat
  bad : Bool

/-- The elements of a row's bytes in a tile format. -/
def splitElems (fmt : Nat) (bytes : List Byte) : List Nat :=
  if fmt = 7 then bytes.flatMap fun b => [b.toNat % 16, b.toNat / 16]
  else
    let n := tileBits fmt / 8
    (List.range (bytes.length / n)).map fun i => bytesToNat ((bytes.drop (i * n)).take n)

/-- The A row of a row operation (R247, R248): from the vector operand kept at fork, or from the scratchpad now. -/
def State.aRow (s : State) (op : MatOp) (stream : Bool) (w : Word) : ARow :=
  let fmt := shapeFmt w
  let len := shapeRowBytes w
  if stream then
    let data := (op.pieces.filter fun p => p.1 < 0x8000).flatMap fun p => s.peekList p.2.1 p.2.2
    let sc := (op.pieces.filter fun p => p.1 ≥ 0x8000).map fun p => s.peek p.2.1
    ⟨splitElems fmt data, sc.map (·.toNat), op.pieces.any fun p => s.anyPoison p.2.1 p.2.2⟩
  else ⟨splitElems fmt (op.vec.take len), [], (op.vpois.take len).any id⟩

/-- A row operation performed (R249, R250). -/
def State.performRow (s : State) (op : MatOp) (ordered stream : Bool) (st y : Nat) : State :=
  match (s.tile st).shape, (s.tile op.tile).shape with
  | some w, some cw =>
    let sT := s.tile st
    let c := s.tile op.tile
    let fmt := shapeFmt w
    let k := shapeCols w
    let n := shapeRows w
    let s := if stream then op.pieces.foldl (fun s p => s.eccAccess p.2.1 p.2.2) s else s
    let a := s.aRow op stream w
    let mx := isMx fmt
    let sBad := (List.range (n * shapeRowBytes w)).any (fun b => b % 8 == 0 && sT.poisoned b) ||
      (mx && (List.range (n * (k / 32))).any fun b => sT.poisoned (0x8000 + b))
    let cBad := (List.range n).any fun i => (c.elem cw y i).2
    let base := y * shapeRowBytes cw
    if a.bad || sBad || cBad then
      let (s, d) := s.drawMany (4 * n)
      let bytes := (List.range (4 * n)).map fun i => ((Config.freeWord (d + i)).setWidth 8, true)
      let s := s.modTile op.tile fun t => { t.putList base bytes with dirty := true }
      s.fileEvent (s.unitOwner (s.unitOf s.hart)) 0x03 0 (s.hartSrc s.hart)
    else
      match tileFloat fmt with
      | some f =>
        let av := a.elems.map f.decode
        let (s, d) := s.drawMany (66 * n)
        let out := (List.range n).map fun i =>
          let bv := (List.range k).map fun col => f.decode (sT.elem w i col).1
          let scales := (List.range ((k + 31) / 32)).map fun b => if mx then scaleExp (a.scales.getD b 0) (sT.scaleOf w i (32 * b)).1 else some 0
          rowElement ordered (d + 66 * i) fmt f (c.elem cw y i).1 av bv scales
        s.modTile op.tile fun t => { t.putList base (out.flatMap fun x => (natToBytes x 4).map fun b => (b, false)) with dirty := true }
      | none =>
        let out := (List.range n).map fun i =>
          let sum := ((List.range k).map fun col => toSigned 8 (a.elems.getD col 0) * toSigned 8 (sT.elem w i col).1).foldl (· + ·) 0
          let x := (c.elem cw y i).1
          if resValid x then (resAdd x (resWord sum), false) else (0xFFFFFFFF, true)
        let s := if out.any (·.2) then s.modHart fun h => h.lateWrite Regs.setRiv else s
        s.modTile op.tile fun t => { t.putList base (out.flatMap fun x => (natToBytes x.1 4).map fun b => (b, false)) with dirty := true }
  | _, _ => s

/-- The kind of a tile format's elements. -/
def tileKind (fmt : Nat) : Kind :=
  match tileFloat fmt with
  | some f => .float f
  | none => .int (tileBits fmt)

/-- One element converted by TCVT (R116, R123, R246), and whether it sets RIV: an invalid residue word gives 0, and an integer out of
the residue range the invalid word. -/
def tileConvert (src dst rm rnd x : Nat) : Nat × Bool :=
  if src = 10 && !resValid x then (0, true)
  else
    let k := if src = 10 then Kind.int 32 else tileKind src
    let v := if src = 10 then ofSigned 32 (resInt x) else x
    if dst = 10 then
      match resOfSigned (toSigned 32 (convert k (.int 32) rm rnd v)) with
      | some r => (r, false)
      | none => (0xFFFFFFFF, true)
    else (convert k (tileKind dst) rm rnd v, false)

/-- TCVT performed (R246). -/
def State.performConvert (s : State) (op : MatOp) (source imm : Nat) : State :=
  let a := s.tile source
  match a.shape with
  | none => s
  | some w =>
    let dst := imm % 16
    let rm := imm / 16
    let cols := shapeCols w
    let nb := cols * tileBits dst / 8
    let w' : Word := Word.ofNat (dst * 2 ^ 20 + nb * 2 ^ 10 + shapeRows w)
    let out := (List.range (shapeRows w)).flatMap fun r => (List.range cols).map fun c =>
      let x := a.elem w r c
      let rnd := if rm = 4 then rsrValue op.seed (Word.ofNat (r * 65536 + c)) else 0
      (tileConvert (shapeFmt w) dst rm rnd x.1, x.2)
    let s := if out.any fun x => x.1.2 then s.modHart fun h => h.lateWrite Regs.setRiv else s
    s.modTile op.tile fun t =>
      { t.putList 0 (out.flatMap fun x => (natToBytes x.1.1 (tileBits dst / 8)).map fun b => (b, x.2)) with shape := some w', dirty := true }

/-- Where byte `k` of an image of R244 stands in the tile; none in its header. -/
def imageByte (k : Nat) : Option Nat := if k < 0x100 then none else if k < 0x8100 then some (k - 0x100) else some (k - 0x8100 + 0x8000)

/-- A piece of memory loaded into the tile (R243, R244), where ECC may act on it (R226). -/
def State.loadPiece (s : State) (op : MatOp) (image : Bool) (p : Nat × Place × Nat) : State :=
  (List.range p.2.2).foldl (fun s i =>
    let b := s.peek (p.2.1.add i)
    let bad := s.poisoned (p.2.1.add i)
    let at' := if image then imageByte (p.1 + i) else some (p.1 + i)
    match at' with
    | none => s
    | some k => s.modTile op.tile fun t => t.put k b bad) (s.eccAccess p.2.1 p.2.2)

/-- The shape that the header of an image gives (R244). -/
def State.headerShape (s : State) (p : Place) : Option Word :=
  let w : Word := BitVec.ofNat 64 (bytesToNat (s.peekList p 8))
  let rest := s.peekList (p.add 8) 248
  if shapeLegal w && rest.all (· == 0) then some w else none

/-- A piece of the tile stored (R243, R244): a poisoned word goes out as poisoned. -/
def State.storePiece (s : State) (op : MatOp) (image : Bool) (p : Nat × Place × Nat) : State :=
  let t := s.tile op.tile
  let head := wordBytes (t.shape.getD 0)
  let bytes := (List.range p.2.2).map fun i =>
    let k := p.1 + i
    if image then
      match imageByte k with
      | none => (head.getD k 0, false)
      | some k => (t.byte k, t.poisoned k)
    else (t.byte k, t.poisoned k)
  let s := s.perform ⟨p.2.1, bytes.map (·.1), false, true, false, op.owner, [], op.via, false⟩
  ((List.range bytes.length).zip bytes).foldl (fun s x => if x.2.2 then s.poisonAt (p.2.1.add x.1) 1 else s) s

/-- A column's place of element `r` (R241). -/
def colByte (w : Word) (r j : Nat) : Nat := r * shapeRowBytes w + j * shapeElem w

/-- Bytes of the VRF written from byte `a` on, with their marks. -/
def Regs.putVrf (r : Regs) (a : Nat) : List (Byte × Bool) → Regs
  | [] => r
  | x :: xs => { r with vrf := Sparse.put zeroByte r.vrf a x.1, vpois := Sparse.put clearBit r.vpois a x.2 }.putVrf (a + 1) xs

/-- Bytes written into a vector register of the hart from its start on, with their marks, as an engine does (R237). -/
def Hart.putVector (h : Hart) (v : Nat) (xs : List (Byte × Bool)) : Hart := h.lateWrite fun r => r.putVrf (v * h.rb) xs

/-- A queued operation performed (R235, R240 to R250); ECC acts on the words that it reads (R226, R228). -/
def State.performMatrix (s : State) (op : MatOp) : State :=
  let s := s.eccRegisters
  let t := s.tile op.tile
  let w := t.shape.getD 0
  let vec := op.vec.zip op.vpois
  match op.kind with
  | .shape w => s.modTile op.tile fun t => { t with shape := some w }
  | .zero => s.modTile op.tile fun t => { t with data := [], scale := [], pois := [], dirty := true }
  | .load image =>
    let s := op.pieces.foldl (fun s p => s.loadPiece op image p) s
    let s := match image, op.pieces.head? with
      | true, some (0, p, _) => s.modTile op.tile fun t => { t with shape := s.headerShape p }
      | _, _ => s
    s.modTile op.tile fun t => { t with dirty := true }
  | .store image =>
    let s := s.setDirty op.owner op.dirty
    op.pieces.foldl (fun s p => s.storePiece op image p) s
  | .rowIn j => s.modTile op.tile fun t => { t.putList (j * shapeRowBytes w) (vec.take (shapeRowBytes w)) with dirty := true }
  | .rowOut v j => s.modHart fun h => h.putVector v (t.getList (j * shapeRowBytes w) (shapeRowBytes w))
  | .colIn j =>
    let eb := shapeElem w
    s.modTile op.tile fun t =>
      { (List.range (shapeRows w)).foldl (fun t r => t.putList (colByte w r j) ((vec.drop (r * eb)).take eb)) t with dirty := true }
  | .colOut v j =>
    s.modHart fun h => h.putVector v ((List.range (shapeRows w)).flatMap fun r => t.getList (colByte w r j) (shapeElem w))
  | .convert source imm => s.performConvert op source imm
  | .rowOp ordered stream st y => s.performRow op ordered stream st y

/-- The row or chunk of a transfer that a piece belongs to, for a tile of shape `w`. -/
def MatOp.rowOf (op : MatOp) (w : Word) (k : Nat) : Nat :=
  match op.kind with
  | .load true => k / 256
  | .store true => k / 256
  | _ => if k < 0x8000 then k / max 1 (shapeRowBytes w) else (k - 0x8000) / max 1 (shapeCols w / 32)

/-- Whether an operation is a transfer between a tile and memory, which a pre-emption may stop part-way (R253). -/
def MatOp.transfers (op : MatOp) : Bool :=
  match op.kind with
  | .load _ => true
  | .store _ => true
  | _ => false

/-- A transfer performed up to row or chunk `r`, and what is left of it (R253). -/
def State.performPart (s : State) (op : MatOp) (r : Nat) : State × MatOp :=
  let w := (s.tile op.tile).shape.getD 0
  let early (p : Nat × Place × Nat) : Bool := decide (op.rowOf w p.1 < r)
  (if op.pieces.any early then s.performMatrix { op with pieces := op.pieces.filter early } else s,
    { op with pieces := op.pieces.filter fun p => !early p, dirty := if op.pieces.any early then [] else op.dirty, done := max op.done r })

/-- The matrix queue as the hart leaves its slot (R253): every operation up to the last that is no transfer completes; of the transfers behind
it the device stops the first at a row or chunk of its choice, and the others are not started. -/
def State.settleMatrix (s : State) : State :=
  let behind := ((s.hart.matrix.reverse.takeWhile MatOp.transfers).reverse)
  let first := s.hart.matrix.take (s.hart.matrix.length - behind.length)
  let s := first.foldl State.performMatrix (s.modHart fun h => { h with matrix := behind })
  match behind with
  | [] => s
  | op :: rest =>
    let (s, n) := s.draw
    let (s, op) := s.performPart op (op.done + Config.freeChoice n % (op.upto + 1 - op.done))
    s.modHart fun h => { h with matrix := op :: rest }

end Sys2Proof.Machine
end

