-- ==== Sys2Proof/Machine/Ops.lean ====
section
/-!
DEFINITION. What every member shares: how it completes (R44, R48, R105), waits or stops; taking a trap, in the hart's own
handler (R70), reflected to an ancestor (R71, R397) or as page requests (R172); vector loads that are performed late (R177); strips,
trims, held traps and the caddy of an exit region (R184 to R197, R452); and stopping for good (R65, R98).
-/
namespace Sys2Proof.Machine

/-- What a member's own effect comes to. -/
inductive Res where
  /-- It completes. -/
  | ok (s : State)
  /-- It completes as a taken control transfer (R93). -/
  | jump (s : State) (target : Word)
  /-- It raises a trap; the state holds the effects that stand (R48). -/
  | trap (t : Trap) (s : State)
  /-- It does not complete yet: the hart stays at it. -/
  | hold (s : State)
  /-- The hart no longer stands at it: its position has been set. -/
  | moved (s : State)
  deriving DecidableEq, Repr

/-- A member completes (R44): the hart stands at the next member, or, after the convoy's last, where end processing puts it
(R105). ELIX is 0, a restart under m15 is over (R53, R72), and the operands kept for a resumption are let go (R143). End processing reads
the registers as the member leaves them, an MTS to LCk, LEk or TSTAT included (DESIGN CHOICE, log 59). -/
def State.retire (s : State) (e : Bool) : State :=
  let h := { s.hart with
    elix := 0, m15only := false, waiting := .none, issued := s.hart.issued.filter fun x => x.supervisor != s.hart.regs.supervisor, cut := none
    walk := none }
  if e then { s with hart := { h with regs := (h.regs.loopEnd h.pc).1, pc := (h.regs.loopEnd h.pc).2, convoy := [], member := 0 } }
  else { s with hart := { h with pc := h.pc + 4, convoy := h.convoy.tail, member := h.member + 1 } }

/-- A taken transfer completes: a new convoy starts at the target (R40, R93). -/
def State.goto (s : State) (t : Word) : State :=
  { s with hart := { s.hart with pc := t, elix := 0, convoy := [], member := 0, m15only := false, waiting := .none } }

/-- A hart brought into focus. -/
def State.focus (s : State) (id : Nat) : State :=
  if s.hart.id = id then s
  else match s.others.find? (fun h => h.id == id) with
    | some h => { s with hart := h, others := s.hart :: s.others.filter (fun x => x.id != id) }
    | none => s

/-- An action of an engine or of the outside world on hart `id`; the hart that steps next stays the same. -/
def State.onHart (s : State) (id : Nat) (f : State → State) : State := (f (s.focus id)).focus s.hart.id

/-- Whether a hart of that name exists. -/
def State.hasHart (s : State) (id : Nat) : Bool := s.hart.id == id || s.others.any (fun h => h.id == id)

/-- The lowest frame number free in a context (R414). -/
def State.freeFrame (s : State) (ctx : Nat) : Nat :=
  let used := (s.harts.filter fun h => h.ctx == ctx && !h.gone).map (·.frame)
  ((List.range 4096).find? (fun n => !used.contains n)).getD 0

/-- The value that trap entry gives TSTAT (R70). -/
def Trap.status (t : Trap) (r : Regs) : Word := enterStatus r.tstat t.rfm t.fr

/-- Entry to the hart's own handler (R70). -/
def State.enterHandler (s : State) (t : Trap) : State :=
  let h := s.hart
  { s with hart := { h with
      tcause := zextWord t.cause, tpc := h.pc, telix := Word.ofNat h.elix, tval := t.tval
      regs := { h.regs with tstat := t.status h.regs }
      elix := 0, pc := h.tvec, convoy := [], member := 0, m15only := false, waiting := .none, cut := none, walk := none } }

/-- What the frame's trap field records for a trap (R172, R397). -/
def Trap.field (t : Trap) (h : Hart) : TrapField := ⟨zextWord t.cause, h.pc, Word.ofNat h.elix, t.tval, t.status h.regs⟩

/-- A handler hart of context `a` for the hart that steps (R397): supervisor mode, at the context's trap vector, with g1 the
frame address, g2 the trapping context's handle, and the trap registers as recorded. -/
def State.handlerHart (s : State) (a : Ctx) (g1 : Word) (f : TrapField) (core slot : Nat) : Hart :=
  let h := s.hart
  let b := Hart.atStart s.nextId a.num a.tvec g1 h.hartcrd a.tvec h.spbase h.rows core slot h.hidx (s.freeFrame a.num)
  { b with
    regs := { b.regs with gpr := Sparse.put zeroWord b.regs.gpr 2 (Word.ofNat (s.ctxid h.ctx)), tstat := f.tstat ||| 1 }
    tcause := f.cause, tpc := f.pc, telix := f.elix, tval := f.tval, serves := some h.id, convoyAt := s.pkg.cycle, priorAt := s.pkg.cycle }

/-- A hart stops for good: it counts toward its launch (R98, R404); a handler hart belongs to no launch. -/
def State.countStop (s : State) (aborted faulted : Bool) : State :=
  match s.hart.serves, s.crew? s.hart.crew with
  | none, some c => { s with launches := s.launches.map fun l =>
      if l.id = c.launch then { l with stopped := l.stopped + 1, aborted := l.aborted || aborted, faulted := l.faulted || faulted } else l }
  | _, _ => s

/-- The hart halts in the crown context and files event 0x05 (R71, R435): its frame is free (R415), and a barrier phase waits for it no more
(R273). -/
def State.crownHalt (s : State) (t : Trap) : State :=
  let s := (s.modHart fun h => { h with trap := t.field h, run := .crownHalted, convoy := [], waiting := .none }).countStop false true
  let s := (outcome (s.setFrameState s.hart 0)).settlePhases s.hart.crew
  s.fileEvent 1 0x05 t.tval.toNat (s.hartSrc s.hart)

/-- The hart stays in its slot with a frame access that failed, with its state as it was (R416). A handler hart of the first ancestor that
enables cause 0x1E, from the parent on, is to start in the background; with none, the hart halts (R71). Where the frame lies behind a host link
that is down, the access waits (R424). -/
def State.frameFault (s : State) (access : FrameAccess) : State :=
  if s.frameWaits s.hart then s.modHart fun h => { h with run := .frameFault access true, frameOut := true, convoy := [], waiting := .none }
  else if (s.chain s.hart.ctx).tail.any (fun c => c.enable.getLsbD 0x1E) then s.modHart fun h => { h with run := .frameFault access false, convoy := [], waiting := .none }
  else s.crownHalt (.own 0x1E (Word.ofNat (s.frameAddr s.hart)))

/-- A frame access of its crew that failed for a hart that is in its frame already (R416): it will stand there as before. -/
def State.crewFault (s : State) (access : FrameAccess) : State := (s.modHart fun h => { h with stood := h.run }).frameFault access

/-- A hart that starts marked resident in its frame (R415, R416). It reads no value that was overwritten before it started (R418). -/
def State.startFrame (s : State) : State :=
  match s.synced.setFrameState s.hart 1 with
  | .ok s => s.modHart fun h => { h with run := .ready }
  | .error s => s.frameFault .start

/-! ## Vector loads that are performed late (R177) -/

/-- The stores of the hart that a vector load of minor 0 or 1 sees (R176). -/
def ownOrdered (minor : Nat) (q : Pending) : Bool := minor < 4 && q.ordered

/-- The register bits of an element read from memory (R125, R160): `loc` is its locator, and `scale` stands for its scale byte on an MX
page. -/
def State.loadBits (s : State) (minor fmt : Nat) (vt : BitVec 7) (seed : Word) (loc : Nat) (high : Bool) (p : Place) (scale : Option Place) : State × Nat :=
  let (s, bs) := s.readList (ownOrdered minor) p ((elemBits fmt vt + 7) / 8)
  let x := bytesToNat bs
  match scale, floatOf vt with
  | some q, some f =>
    let (s, b) := s.readList (ownOrdered minor) q 1
    let x := if fmt = 7 then (if high then x / 16 else x % 16) else x
    (s, f.encode (vtRound vt) (locate vt seed loc) (mxValue fmt (bytesToNat b) x))
  | _, _ => (s, decodeElem fmt vt seed loc x)

/-- One element of a late load performed. -/
def State.loadLate (l : LateLoad) (s : State) (x : LateElem) : State :=
  let (s, v) := s.loadBits l.minor l.fmt l.vt l.seed x.index x.high x.place x.scale
  s.modHart fun h => h.setElem l.reg (vtBytes l.vt) x.index v

/-- Every vector load that the hart has under way performed, oldest first. -/
def State.performLate (s : State) : State :=
  match s.hart.late with
  | [] => s
  | ls => ls.foldl (fun s l => l.elems.foldl (State.loadLate l) s) (s.modHart fun h => { h with late := [] })

/-- Every access of the hart performed, its matrix queue stopped, its watch cleared and its gathers abandoned, as it leaves its slot (R253,
R315, R326, R367). -/
def State.settleOut (s : State) : State :=
  s.performLate.drainAll.settleMatrix.modHart fun h => { h with
    watch := none, cut := none, walk := none, gathers := h.gathers.map fun (g : GatherDesc) => { g with performed := none } }

/-! ## Delivery of traps -/

/-- Reflection to the ancestor at stage `j` (R397): the hart is saved to its frame and a handler hart takes its slot. -/
def State.reflect (s : State) (t : Trap) (j : Nat) (a : Ctx) : State :=
  let s := s.settleOut
  let pad := if s.hart.hidx = 0 then (s.slotTeam? s.hart.crew s.hart.slot).map fun t => (t.sphw, imageCut t.bytes 0 t.sphw) else none
  let h := { s.hart with trap := t.field s.hart, convoy := [], waiting := .none, padSaved := pad }
  match s.saveFrame h 2 true with
  | .error s => s.frameFault .save
  | .ok s =>
    let hh := s.handlerHart a (Word.ofNat (s.frameAddrAt h j)) h.trap h.crew h.slot
    ({ s with hart := hh, others := { h with run := .reflected } :: s.others, nextId := s.nextId + 1 } : State).startFrame

/-- The device function of a context's requests: its own, or its nearest depth-1 ancestor's (R396). -/
def State.functionOf (s : State) (ctx : Nat) : Word := (((s.chain ctx).find? fun c => c.depth == 1).map (·.vf)).getD 0

/-- A page request that enters the pending-page table of its die when it holds fewer than 4,096 entries (R173), and is then placed in
the owner's ring or sent to the host (R380, R381). A ring slot is taken again only when what was asked in it has been answered. -/
def State.placeRequest (s : State) (q : PageReq) (ctxid : Nat) : State × PageReq :=
  match s.ctx? q.owner with
  | none => (s, q)
  | some o =>
    if !q.entered && (s.pages.filter fun p => p.die == q.die && p.entered).length ≥ 4096 then (s, q)
    else
      let q := { q with entered := true }
      if o.stage.host then (s, { q with viaHost := true, slot := some 0, function := s.functionOf q.owner, pasid := o.pasid })
      else
        let a := o.prqBase + 32 * (o.prqHead % max 1 o.prqCount)
        if o.prqCount = 0 || s.pages.any (fun p => p.owner == q.owner && p.slot == some a) then (s, q)
        else
          let who := q.stage + if q.write then 65536 else 0
          let space := o.parent.getD o.num
          match s.ctxWrite space a (natToBytes q.entry.toNat 8 ++ natToBytes who 8 ++ natToBytes ctxid 8 ++ natToBytes 0 8) false with
          | .error s => (s, q)
          | .ok s => (s.modCtx q.owner fun c => { c with prqHead := c.prqHead + 1 }, { q with slot := some a })

/-- A page entry without its stage: the page and its size (R171). Contexts of different depths see one page of an owner at different
stages. -/
def pageOf (entry : Word) : Word := entry &&& ~~~3#64

/-- One request for a missing page, or a link to an outstanding one (R172, R173). -/
def State.requestPage (s : State) (owner stage : Nat) (entry : Word) (write : Bool) : State :=
  let id := s.hart.id
  match s.pages.find? (fun p => p.owner == owner && pageOf p.entry == pageOf entry) with
  | some p => { s with pages := s.pages.map fun x => if x.id = p.id then { x with waiters := x.waiters ++ [id] } else x }
  | none =>
    let q : PageReq := { id := s.nextId, die := (s.unitOf s.hart).die, owner := owner, entry := entry, stage := stage, write := write
                         waiters := [id], slot := none, viaHost := false, function := 0, pasid := 0, entered := false }
    let (s, q) := { s with nextId := s.nextId + 1 }.placeRequest q (s.ctxid s.hart.ctx)
    { s with pages := s.pages ++ [q] }

/-- Whether the context at a stage services its missing pages by page request (R172, R381). -/
def servicesPages (chain : List Ctx) (stage : Nat) : Option Ctx := (chain[stage]?).filter fun c => c.stage.svc && c.parent.isSome

/-- The stage of a page entry (R171). -/
def entryStage (entry : Word) : Nat := entry.toNat % 4

/-- The requests for the missing pages of a fault, each to the owner of its own stage (R172, R381). A page of a stage that is serviced by
trap faults again when the hart resumes. -/
def State.requestPages (s : State) (pages : List Word) (write : Bool) : State :=
  let chain := s.chain s.hart.ctx
  pages.foldl (fun s p => match servicesPages chain (entryStage p) with
    | some o => s.requestPage o.num (entryStage p) p write
    | none => s) s

/-- The hart stops on page requests (R172): no trap entry, its context saved with the restart condition in the trap field, TSTAT as it is. -/
def State.pageStop (s : State) (t : Trap) : State :=
  let s := s.settleOut
  let h := { s.hart with trap := t.field s.hart, m15only := false, convoy := [], waiting := .none }
  match s.saveFrame h 3 false with
  | .error s => s.frameFault .save
  | .ok s => { s with hart := { h with run := .paging } }.requestPages t.pages t.write

/-- The trap path (R70, R71, R376): the hart's own handler when its context enables the cause and it runs in user mode; else the
nearest ancestor that enables it, from the owner of the failing stage on; else the hart halts. -/
def State.trapPath (s : State) (t : Trap) : State :=
  let chain := s.chain s.hart.ctx
  let enables (c : Ctx) := c.enable.getLsbD t.cause.toNat
  if t.stage = 0 && !s.hart.regs.supervisor && (match chain.head? with
      | some c => enables c
      | none => false) then s.enterHandler t
  else
    match ((chain.zip (List.range 4)).drop (max t.stage 1)).find? (fun p => enables p.1) with
    | some (a, j) => s.reflect t j a
    | none => s.crownHalt t

/-- Delivery of a trap (R70, R172): page requests where the stage's owner services so, else the trap path. A residue-invalid trap has
set ASTAT.RIV (R124). Of a member that runs under m15, some elements have completed and m15 names the rest, so TSTAT.RFM is set (R70, R175). -/
def State.deliver (s : State) (t : Trap) : State :=
  let s := if t.cause = 0x14 then s.modRegs Regs.setRiv else s
  let t := { t with rfm := t.rfm || s.hart.m15only }
  match (if t.cause = 0x07 then servicesPages (s.chain s.hart.ctx) t.stage else none) with
  | some _ => s.pageStop t
  | none => s.trapPath t

/-! ## Strips, trims and held stores -/

/-- A held store released (R196): its elements become plain stores, visible in program order among those released, and those on MX pages
are encoded. Elements that write every byte of a poisoned word between them clean it (R314, R324). -/
def State.commitHeld (s : State) (h : Held) : State :=
  ((joinWords s.poisoned h.stores).foldl (fun s q => s.issueStore { q with released := true }) s).mxStore h.mx.length h.mx

/-- A sample whose member is squashed (R284). -/
def Sample.squash (x : Sample) : Sample :=
  match x.stage with
  | .done true _ _ _ => { x with stage := .lost }
  | _ => x

/-- A sample whose member is squashed no more (R187, R284). -/
def Sample.settle (x : Sample) : Sample :=
  match x.stage with
  | .done _ a b c => { x with stage := .done false a b c }
  | _ => x

/-- The region changed. -/
def State.modRegion (s : State) (f : Region → Region) : State := s.modHart fun h => { h with region := f h.region }

/-- Whether every member of the hart stands on settled ground: no trim, held trap or older strip is open, and no exit test. -/
def Hart.sure (h : Hart) : Bool := h.region.trims.isEmpty && h.region.strips.isEmpty && !h.region.pending

/-- The stores of the present strip that nothing holds any more released (R196): those older than its oldest undecided trim, once the exit
tests and the older strips have resolved. -/
def State.releaseCaddy (s : State) : State :=
  if s.hart.region.pending || !s.hart.region.strips.isEmpty then s
  else
    let n := match s.hart.region.trims with
      | tr :: _ => tr.caddy
      | [] => s.hart.caddy.length
    let due := s.hart.caddy.take n
    let s := s.modHart fun h => { h with
      caddy := h.caddy.drop n, region := { h.region with trims := h.region.trims.map fun t => { t with caddy := t.caddy - n } }
      sample := if h.region.trims.isEmpty then h.sample.map Sample.settle else h.sample }
    due.foldl State.commitHeld s

/-- m15 made to name exactly `js` below a vector length (R168, R169, R188). -/
def Regs.nameElements (r : Regs) (vl : Nat) (js : List Nat) : Regs :=
  let base := 15 * 65536
  { r with masks := js.foldl (fun m j => Sparse.put clearBit m (base + j) true) (Sparse.clear r.masks base (base + vl)) }

/-- A fault record written to the hart's frame (R170), or the failure of the frame access (R416). -/
def State.writeRecord (s : State) (img : Sparse Byte) : Except State State := s.frameWrite s.hart framePages 0x4000 (64 + 8192 + 512) img

/-- The hart back at a member `tr` of a strip (R188, R205): every effect of the members younger than it is undone. `caddy` holds the stores
of its strip, of which those older than the member are released and the others discarded. -/
def State.backTo (s : State) (caddy : List Held) (tr : Trim) : State :=
  let s := (caddy.take tr.caddy).foldl State.commitHeld s
  s.modHart fun h => { h with
    regs := tr.saved, pc := tr.pc, convoy := tr.convoy, member := tr.index, elix := tr.element, issued := tr.issued, caddy := [], m15only := tr.m15
    late := [], waiting := .none, sample := h.sample.map Sample.squash
    region := { h.region with trims := [], strips := [], pending := false, resolved := false } }

/-- Where the scale byte of an element stands whose base page has a format and geometry (R120): none for an element on another page. -/
def State.scaleAddress (s : State) (fmt geom : Nat) (planes : List Word) (va : Word) : Option Word :=
  match s.hart.padOffset va, s.lookup s.hart.ctx va.toNat with
  | none, .ok x => if isMx fmt ∧ x.attr.fmt = fmt ∧ x.attr.geom = geom then some (planes.getD x.attr.plane 0 + Word.ofNat (mxIndex fmt geom va.toNat)) else none
  | _, _ => none

/-- The missing pages of an element that a trim withholds, its scale byte's included (R188, R120). -/
def State.missingOf (s : State) (tr : Trim) (va : Nat) : List Word :=
  (s.missing va).toList ++ ((tr.mx.bind fun m => s.scaleAddress m.1 m.2.1 m.2.2 (Word.ofNat va)).bind fun a => s.missing a.toNat).toList

/-- A genuine trim or a held trap taken (R188): everything younger is undone and the trap is raised there; a missing translation first
names the withheld elements in m15 and writes a record, whose pages are asked for. Any other cause leaves TSTAT.RFM clear. -/
def State.takeTrim (s : State) (caddy : List Held) (tr : Trim) : State :=
  let s := s.backTo caddy tr
  let s := s.modHart fun h => { h with m15only := false }
  if tr.held then s.deliver { cause := tr.cause, tval := tr.tval, stage := tr.stage, pages := tr.pages, write := tr.store }
  else
    if tr.cause = 0x07 then
      let pages := match s.missing tr.base with
        | some p => [p]
        | none => sortPages (tr.pages ++ tr.addrs.flatMap fun a => a.2.toList.flatMap (s.missingOf tr))
      let js := tr.addrs.map (·.1)
      let t := s.modRegs fun r => r.nameElements tr.vl js
      let kind := if tr.minor ≥ 4 then 1 else 0
      match t.writeRecord (recordImage 7 kind tr.minor tr.pc tr.vl (t.ctxid t.hart.ctx) tr.elix tr.tval.toNat js pages) with
      | .ok t => t.deliver { cause := 0x07, tval := tr.tval, stage := tr.stage, rfm := tr.some, fr := true, pages := pages.take 64, write := tr.store }
      | .error u => ((u.modRegs fun _ => s.hart.regs).modHart fun h => { h with m15only := tr.m15 }).frameFault .save
    else s.deliver { cause := tr.cause, tval := tr.tval, stage := tr.stage }

/-- The trim or held trap of a strip that is taken when the strip resolves (R187, R188): the oldest that no candidate suppresses. -/
def genuine (ts : List Trim) : Option Trim := ts.find? fun t => !t.suppressed

/-- A strip that ended in a predicting XBR and resolves with an exit (R192): every younger strip is squashed, and the XBR takes its real
direction. -/
def State.squashTo (s : State) (x : Strip) : State :=
  s.modHart fun h => { h with
    regs := x.regs, pc := x.pc, convoy := [], member := 0, elix := 0, m15only := false, cut := none, walk := none, late := [], caddy := []
    waiting := .none, sample := h.sample.map Sample.squash
    region := { h.region with exited := true, resolved := true, pending := false, trims := [], strips := [] } }

/-- Older strips resolved, oldest first (R184): one takes its trap or its exit, and the hart has gone elsewhere (`error`), or its stores are
released. -/
def State.resolveEach : List Strip → State → Except State State
  | [], s => .ok (s.modRegion fun r => { r with strips := [] })
  | x :: rest, s =>
    match genuine x.trims with
    | some tr => .error (s.takeTrim x.caddy tr)
    | none =>
      let s := x.caddy.foldl State.commitHeld s
      if x.bx != Word.ones then .error (s.squashTo x) else State.resolveEach rest s

/-- Every older strip resolved. -/
def State.resolveStrips (s : State) : Except State State := State.resolveEach s.hart.region.strips s

/-- Every exit test and every older strip resolved, and what they alone held released (R184, R196). -/
def State.resolveTests (s : State) : Except State State :=
  match s.resolveStrips with
  | .error t => .error t
  | .ok s => .ok (s.modRegion fun r => { r with pending := false }).releaseCaddy

/-- The exit tests of the present strip resolved (R185). -/
def State.awaitTests (s : State) : State := if s.hart.region.pending then (s.modRegion fun r => { r with pending := false }).releaseCaddy else s

/-- The trims and held traps of the present strip decided (R187, R452): the oldest genuine one is taken, or every held store is released. The
strip counts as ended there (R184) when one of them was undecided, or when `ends` says so. -/
def State.decideTrims (s : State) (ends : Bool) : Except State State :=
  match s.resolveTests with
  | .error t => .error t
  | .ok s =>
    match genuine s.hart.region.trims with
    | some tr => .error (s.takeTrim s.hart.caddy tr)
    | none =>
      let ended := ends || !s.hart.region.trims.isEmpty
      .ok (s.modRegion fun r => { r with trims := [], resolved := r.resolved || (ended && r.isOpen) }).releaseCaddy

/-- A member that waits until every older exit test has resolved and no older trim or held trap is undecided (R193, R452). -/
def settled (s : State) (k : State → Res) : Res :=
  if s.hart.sure then k s
  else match s.decideTrims false with
    | .error t => .moved t
    | .ok s => k s

/-- The checkpoints that the hart holds (R191): one for each trimming instruction and each predicting XBR. -/
def Region.checkpoints (r : Region) : Nat :=
  let trims (ts : List Trim) : Nat := (ts.filter fun t => !t.held).length
  r.strips.length + trims r.trims + (r.strips.map fun x => trims x.trims).sum

/-- The destination of a member whose trap is held: what it holds until the trap is taken the spec does not say, a free value (log 7). -/
def State.heldDest (s : State) (i : Instr) : State :=
  match written i with
  | some (.g d) => { s with free := s.free + 1 }.setG d (Config.freeWord s.free)
  | some .lr => { s with free := s.free + 1 }.modRegs fun r => { r with lr := Config.freeWord s.free }
  | _ => s

/-- The trap of the member `i` held until its strip resolves (R189), and the hart goes on. -/
def State.holdTrap (s : State) (t : Trap) (e : Bool) (i : Instr) : State :=
  let h := s.hart
  let tr : Trim := { held := true, suppressed := false, m15 := h.m15only, caddy := h.caddy.length, saved := h.regs, pc := h.pc, convoy := h.convoy
                     index := h.member, element := h.elix, cause := t.cause, tval := t.tval, stage := t.stage, addrs := [], base := 0, pages := t.pages
                     mx := none, some := false, elix := h.elix, vl := h.regs.vl, minor := 0, store := t.write, issued := h.issued }
  ((s.modRegion fun r => { r with trims := r.trims ++ [tr] }).heldDest i).retire e

/-- A trap of a member (R70): it waits for the exit tests older than it; behind an undecided trim or an older strip that has not resolved
it is held (R189). -/
def State.takeTrap (s : State) (t : Trap) (e : Bool) : State :=
  if s.hart.sure then s.performLate.deliver t
  else match s.resolveTests with
    | .error t => t
    | .ok s =>
      match s.hart.region.trims, s.hart.convoy with
      | [], _ => s.performLate.deliver t
      | _, i :: _ => s.performLate.holdTrap t e i
      | _, [] => s.performLate.deliver t

/-- A trap that arises where a convoy would begin: nothing younger issues behind it, so the trims of the strip are decided first (log 7). -/
def State.trapAtHead (s : State) (t : Trap) : State :=
  if s.hart.sure then s.performLate.deliver t
  else match s.decideTrims false with
    | .error u => u
    | .ok s => s.performLate.deliver t

/-- The state that a member's effect leads to. -/
def complete (e : Bool) : Res → State
  | .ok s => s.retire e
  | .jump s t => s.goto t
  | .trap t s => s.takeTrap t e
  | .hold s => s
  | .moved s => s

/-- A member's outcome: the machine always goes on. -/
def member (e : Bool) (r : Res) : Host.Outcome State Fault Refusal := .next (complete e r)

/-- An event's outcome. -/
def event (s : State) : Host.Outcome State Fault Refusal := .next s

/-- A failed access as a member's effect. -/
def Stop.res (p : Stop) (s : State) : Res :=
  match p with
  | .trap t => .trap t s
  | .wait => .hold s

/-- TVAL of a trap that takes its value as at decode (R46): the offending word and the member's index. -/
def wordTval (w : Code) (index : Nat) : Word := zextWord w + Word.ofNat (index % 8 * 2 ^ 32)

/-- The privileged trap before effect (R75): TVAL is the offending word. -/
def privileged (s : State) (w : Code) (k : State → Res) : Res :=
  if s.hart.regs.supervisor then k s else .trap (.own 0x05 (wordTval w s.hart.member)) s

end Sys2Proof.Machine
end

