-- ==== Sys2Proof/Machine/Convoy.lean ====
section
/-!
DEFINITION. Convoys: the checks before any member has an effect (R40 to R43, R46, R47), and fetching (R32, R39, R40).
-/
namespace Sys2Proof.Machine

/-- The lowest reason of R47 that holds at member `k` of a convoy, if any. -/
def reasonAt (r : Regs) (head : Word) (is : List Instr) (k : Nat) : Option Nat :=
  match is[k]? with
  | none => none
  | some i =>
    let before := is.take k
    let last := k + 1 == is.length
    if k == 7 && !endsConvoy i then some 1
    else if (before.filter fun j => convoyClass j == convoyClass i).length ≥ classLimit (convoyClass i) then some 2
    else if convoyClass i == .o && is.length ≥ 2 then some 3
    else if convoyClass i == .c && !last then some 4
    else if (written i).isSome && before.any (fun j => written j == written i) then some 5
    else if r.isLoopEnd (head + Word.ofNat (4 * k)) && !last then some 6
    else none

/-- The first member at which a condition of R47 holds, with the lowest reason there. -/
def illegalConvoy (r : Regs) (head : Word) (is : List Instr) : Option (Nat × Nat) :=
  (List.range is.length).findSome? fun k => (reasonAt r head is k).map fun n => (k, n)

/-- Overwritten words that a fetch of the hart may still see: those stored over while its launch ran (R39). -/
def State.oldCode (s : State) (p : Place) : List Old :=
  s.old.filter fun o => o.touches p 4 && o.launches.contains (((s.crew? s.hart.crew).map (·.launch)).getD 0)

/-- The bytes of an instruction word as a fetch sees them (R39): memory's, or of the overwritten words that it may still see one that the
device chooses, each word for itself. -/
def State.codeAt (s : State) (p : Place) : State × List Byte :=
  match s.oldCode p with
  | [] => (s, s.peekList p 4)
  | os => ({ s with free := s.free + 1 }, match os[Config.freeChoice s.free % (os.length + 1)]? with
    | none => s.peekList p 4
    | some o => (List.range 4).map fun k => (o.byteAt (p.add k)).getD (s.peek (p.add k)))

/-- One instruction word fetched (R32). The state returned has the accessed bits set. -/
def State.fetchWord (s : State) (a : Word) : State × Except Stop Code :=
  if a.toNat % 4 ≠ 0 then (s, .error (.trap (.own 0x06 a)))
  else match s.access a 4 .fetch with
    | (s, .error p) => (s, .error p)
    | (s, .ok r) =>
      let (s, bs) := s.codeAt r.place
      (s, .ok (BitVec.ofNat 32 (bytesToNat bs)))

/-- The words of the convoy at `a` (R40): to the first with E = 1, eight at most. -/
def State.fetchConvoy (s : State) : Nat → Word → State × Except Stop (List Code)
  | 0, _ => (s, .ok [])
  | n + 1, a =>
    match s.fetchWord a with
    | (s, .error t) => (s, .error t)
    | (s, .ok w) =>
      if w.e then (s, .ok [w])
      else match s.fetchConvoy n (a + 4) with
        | (s, .error t) => (s, .error t)
        | (s, .ok ws) => (s, .ok (w :: ws))

/-- TVAL of a check that fails at member `k` (R46), with the reason of an illegal convoy. -/
def checkTval (ws : List Code) (k reason : Nat) : Word := zextWord (ws.getD k 0) + Word.ofNat (k * 2 ^ 32 + reason * 2 ^ 36)

/-- The members of a list of words, or the first that is no instruction (R38). -/
noncomputable def decodeAll : List Code → Nat → Except Nat (List Instr)
  | [], _ => .ok []
  | w :: ws, k =>
    match decodeWord w with
    | .error _ => .error k
    | .ok i => match decodeAll ws (k + 1) with
      | .error n => .error n
      | .ok is => .ok (i :: is)

/-- The checks of R46 from the second on, in order; the members when all pass. -/
noncomputable def State.checkConvoy (s : State) (head : Word) (ws : List Code) : Except Trap (List Instr) :=
  match decodeAll ws 0 with
  | .error k => .error (.own 0x01 (checkTval ws k 0))
  | .ok is =>
    match illegalConvoy s.hart.regs head is with
    | some (k, reason) => .error (.own 0x02 (checkTval ws k reason))
    | none =>
      match (List.range is.length).find? (fun k => !s.hart.regs.supervisor && ((is[k]?).map needsSupervisor).getD false) with
      | some k => .error (.own 0x05 (checkTval ws k 0))
      | none =>
        match (List.range is.length).find? (fun k => (((is[k]?).map vFields).getD []).any fun v => v.toNat ≥ s.hart.regs.vnreg) with
        | some k => .error (.own 0x03 (checkTval ws k 0))
        | none => .ok is

/-- The convoy at the hart's PC formed (R40, R46): the hart holds its members, waits for its fetch (R424), or takes the trap of the first
check that fails. -/
noncomputable def State.formConvoy (s : State) : State × Bool :=
  let head := s.hart.pc
  match s.fetchConvoy 8 head with
  | (s, .error (.trap t)) => (s.trapAtHead t, false)
  | (s, .error .wait) => (s, false)
  | (s, .ok ws) =>
    match s.checkConvoy head ws with
    | .error t => (s.trapAtHead t, false)
    | .ok is =>
      ({ s with hart := { s.hart with
          convoy := is, head := head, member := 0, convoyAt := s.pkg.cycle, priorAt := s.hart.convoyAt, headAstat := s.hart.regs.astat, headSphw := Word.ofNat s.sphw } }, true)

/-- Whether a member must wait for a token that is still pending (R264), or for a queued tile row or column that goes to a vector
register it names (R237). -/
def State.tokenStall (s : State) (i : Instr) : Bool :=
  ((gFields i).any fun r => r != 0 && s.hart.pend.contains (s.hart.regs.phys r)) ||
  s.hart.matrix.any fun op => match op.kind with
    | .rowOut v _ => (vFields i).any fun x => x.toNat == v
    | .colOut v _ => (vFields i).any fun x => x.toNat == v
    | _ => false

end Sys2Proof.Machine
end

