-- ==== Sys2Proof/Machine/Scalar.lean ====
section
/-!
DEFINITION. The scalar instructions: register arithmetic (R77 to R80), immediates and constants (R81 to R84), loads and stores
(R85 to R89).
-/
namespace Sys2Proof.Machine

/-- The outcome of a step of the model. -/
abbrev Out := Host.Outcome State Fault Refusal

/-! ## Operations on words (R78, R79) -/

def shiftAmount (b : Word) : Nat := b.toNat % 64
def signedMin (a b : Word) : Word := if a.slt b then a else b
def signedMax (a b : Word) : Word := if a.slt b then b else a
def unsignedMin (a b : Word) : Word := if a < b then a else b
def unsignedMax (a b : Word) : Word := if a < b then b else a
def boolWord (b : Bool) : Word := if b then 1 else 0

/-- The high half of the signed product (MULH). -/
def highSigned (a b : Word) : Word := BitVec.ofInt 64 (a.toInt * b.toInt / 2 ^ 64)
/-- The high half of the unsigned product (MULHN). -/
def highUnsigned (a b : Word) : Word := BitVec.ofNat 64 (a.toNat * b.toNat / 2 ^ 64)

/-- Quotient and remainder of DIV and REM (R79): rounding toward zero, all ones and the dividend for a zero divisor. -/
def signedDiv (a b : Word) : Word := if b = 0 then Word.ones else BitVec.ofInt 64 (Int.tdiv a.toInt b.toInt)
def signedRem (a b : Word) : Word := if b = 0 then a else BitVec.ofInt 64 (Int.tmod a.toInt b.toInt)
/-- Quotient and remainder of DIVN and REMN (R79). -/
def unsignedDiv (a b : Word) : Word := if b = 0 then Word.ones else BitVec.ofNat 64 (a.toNat / b.toNat)
def unsignedRem (a b : Word) : Word := if b = 0 then a else BitVec.ofNat 64 (a.toNat % b.toNat)

/-- Leading zero bits; 64 for 0. -/
def leadingZeros (a : Word) : Word := Word.ofNat (if a = 0 then 64 else 63 - Nat.log2 a.toNat)
/-- Trailing zero bits; 64 for 0. -/
def trailingZeros (a : Word) : Word := Word.ofNat (((List.range 64).find? fun i => a.getLsbD i).getD 64)
/-- One bits. -/
def onesCount (a : Word) : Word := Word.ofNat ((List.range 64).filter fun i => a.getLsbD i).length
/-- The bytes in reverse order. -/
def byteSwap (a : Word) : Word := BitVec.ofNat 64 (bytesToNat (wordBytes a).reverse)

/-! ## Shared forms -/

/-- Two registers in, one out (R77). -/
def binary (f : Word → Word → Word) (e : Bool) (d a b : GReg) (s : State) : Out := member e (.ok (s.setG d (f (s.g a) (s.g b))))

/-- One register in, one out (R77). -/
def unary (f : Word → Word) (e : Bool) (d a : GReg) (s : State) : Out := member e (.ok (s.setG d (f (s.g a))))

/-- The exact result of ADDV, SUBV or MULV, or the arithmetic-overflow trap before effect (R80). -/
def checked (f : Int → Int → Int) (e : Bool) (d a b : GReg) (s : State) : Out :=
  let x := f (s.g a).toInt (s.g b).toInt
  member e (if -(2 ^ 63) ≤ x ∧ x < 2 ^ 63 then .ok (s.setG d (BitVec.ofInt 64 x)) else .trap (.own 0x0D 0) s)

/-- One register and an 11-bit immediate (R81). -/
def immediate (f : Word → Word → Word) (e : Bool) (d a : GReg) (i : BitVec 11) (s : State) : Out :=
  member e (.ok (s.setG d (f (s.g a) (sextWord i))))

/-- A shift by an immediate amount (R82). -/
def shiftBy (f : Word → Nat → Word) (e : Bool) (d a : GReg) (k : BitVec 6) (s : State) : Out :=
  member e (.ok (s.setG d (f (s.g a) k.toNat)))

def shiftLeft (a : Word) (k : Nat) : Word := a <<< k
def shiftRight (a : Word) (k : Nat) : Word := a >>> k
def shiftArith (a : Word) (k : Nat) : Word := a.sshiftRight k
def rotLeft (a : Word) (k : Nat) : Word := a.rotateLeft k
def rotRight (a : Word) (k : Nat) : Word := a.rotateRight k

/-! ## Register arithmetic -/

def execAdd (e : Bool) (d a b : GReg) (s : State) : Out := binary (· + ·) e d a b s
def execSub (e : Bool) (d a b : GReg) (s : State) : Out := binary (· - ·) e d a b s
def execAnd (e : Bool) (d a b : GReg) (s : State) : Out := binary (· &&& ·) e d a b s
def execOr (e : Bool) (d a b : GReg) (s : State) : Out := binary (· ||| ·) e d a b s
def execXor (e : Bool) (d a b : GReg) (s : State) : Out := binary (· ^^^ ·) e d a b s
def execAndn (e : Bool) (d a b : GReg) (s : State) : Out := binary (fun x y => x &&& ~~~y) e d a b s
def execOrn (e : Bool) (d a b : GReg) (s : State) : Out := binary (fun x y => x ||| ~~~y) e d a b s
def execSll (e : Bool) (d a b : GReg) (s : State) : Out := binary (fun x y => shiftLeft x (shiftAmount y)) e d a b s
def execSrl (e : Bool) (d a b : GReg) (s : State) : Out := binary (fun x y => shiftRight x (shiftAmount y)) e d a b s
def execSra (e : Bool) (d a b : GReg) (s : State) : Out := binary (fun x y => shiftArith x (shiftAmount y)) e d a b s
def execRol (e : Bool) (d a b : GReg) (s : State) : Out := binary (fun x y => rotLeft x (shiftAmount y)) e d a b s
def execRor (e : Bool) (d a b : GReg) (s : State) : Out := binary (fun x y => rotRight x (shiftAmount y)) e d a b s
def execSlt (e : Bool) (d a b : GReg) (s : State) : Out := binary (fun x y => boolWord (x.slt y)) e d a b s
def execSltn (e : Bool) (d a b : GReg) (s : State) : Out := binary (fun x y => boolWord (x.ult y)) e d a b s
def execMin (e : Bool) (d a b : GReg) (s : State) : Out := binary signedMin e d a b s
def execMax (e : Bool) (d a b : GReg) (s : State) : Out := binary signedMax e d a b s
def execMinn (e : Bool) (d a b : GReg) (s : State) : Out := binary unsignedMin e d a b s
def execMaxn (e : Bool) (d a b : GReg) (s : State) : Out := binary unsignedMax e d a b s
def execMul (e : Bool) (d a b : GReg) (s : State) : Out := binary (· * ·) e d a b s
def execMulh (e : Bool) (d a b : GReg) (s : State) : Out := binary highSigned e d a b s
def execMulhn (e : Bool) (d a b : GReg) (s : State) : Out := binary highUnsigned e d a b s
def execDiv (e : Bool) (d a b : GReg) (s : State) : Out := binary signedDiv e d a b s
def execDivn (e : Bool) (d a b : GReg) (s : State) : Out := binary unsignedDiv e d a b s
def execRem (e : Bool) (d a b : GReg) (s : State) : Out := binary signedRem e d a b s
def execRemn (e : Bool) (d a b : GReg) (s : State) : Out := binary unsignedRem e d a b s
def execAddv (e : Bool) (d a b : GReg) (s : State) : Out := checked (· + ·) e d a b s
def execSubv (e : Bool) (d a b : GReg) (s : State) : Out := checked (· - ·) e d a b s
def execMulv (e : Bool) (d a b : GReg) (s : State) : Out := checked (· * ·) e d a b s
def execClz (e : Bool) (d a : GReg) (s : State) : Out := unary leadingZeros e d a s
def execCtz (e : Bool) (d a : GReg) (s : State) : Out := unary trailingZeros e d a s
def execPopc (e : Bool) (d a : GReg) (s : State) : Out := unary onesCount e d a s
def execBswap (e : Bool) (d a : GReg) (s : State) : Out := unary byteSwap e d a s
def execSext8 (e : Bool) (d a : GReg) (s : State) : Out := unary (fun x => sextWord (x.setWidth 8)) e d a s
def execSext16 (e : Bool) (d a : GReg) (s : State) : Out := unary (fun x => sextWord (x.setWidth 16)) e d a s
def execSext32 (e : Bool) (d a : GReg) (s : State) : Out := unary (fun x => sextWord (x.setWidth 32)) e d a s
def execZext8 (e : Bool) (d a : GReg) (s : State) : Out := unary (fun x => zextWord (x.setWidth 8)) e d a s
def execZext16 (e : Bool) (d a : GReg) (s : State) : Out := unary (fun x => zextWord (x.setWidth 16)) e d a s
def execZext32 (e : Bool) (d a : GReg) (s : State) : Out := unary (fun x => zextWord (x.setWidth 32)) e d a s

/-! ## Immediates and constants -/

def execAddi (e : Bool) (d a : GReg) (i : BitVec 11) (s : State) : Out := immediate (· + ·) e d a i s
def execAndi (e : Bool) (d a : GReg) (i : BitVec 11) (s : State) : Out := immediate (· &&& ·) e d a i s
def execOri (e : Bool) (d a : GReg) (i : BitVec 11) (s : State) : Out := immediate (· ||| ·) e d a i s
def execXori (e : Bool) (d a : GReg) (i : BitVec 11) (s : State) : Out := immediate (· ^^^ ·) e d a i s
def execSlti (e : Bool) (d a : GReg) (i : BitVec 11) (s : State) : Out := immediate (fun x y => boolWord (x.slt y)) e d a i s
def execSltni (e : Bool) (d a : GReg) (i : BitVec 11) (s : State) : Out := immediate (fun x y => boolWord (x.ult y)) e d a i s
def execSlli (e : Bool) (d a : GReg) (k : BitVec 6) (s : State) : Out := shiftBy shiftLeft e d a k s
def execSrli (e : Bool) (d a : GReg) (k : BitVec 6) (s : State) : Out := shiftBy shiftRight e d a k s
def execSrai (e : Bool) (d a : GReg) (k : BitVec 6) (s : State) : Out := shiftBy shiftArith e d a k s
def execRoli (e : Bool) (d a : GReg) (k : BitVec 6) (s : State) : Out := shiftBy rotLeft e d a k s

/-- LIM writes the sign-extended 18-bit immediate (R83). -/
def execLim (e : Bool) (d : GReg) (i : BitVec 18) (s : State) : Out := member e (.ok (s.setG d (sextWord i)))

/-- LIHI shifts its destination left by 18 and ORs the immediate in (R83). -/
def execLihi (e : Bool) (d : GReg) (i : BitVec 18) (s : State) : Out := member e (.ok (s.setG d ((s.g d <<< 18) ||| zextWord i)))

/-- ADDPC adds a word offset to its own address (R84). -/
def execAddpc (e : Bool) (d : GReg) (i : BitVec 18) (s : State) : Out := member e (.ok (s.setG d (targetOf s.hart.pc i)))

/-! ## Loads and stores -/

/-- Access size of a width code (R85). -/
def widthBytes (w : BitVec 3) : Nat := 2 ^ (w.toNat / 2)

/-- A loaded number extended as its width code says (R85): even codes by sign. -/
def extendLoad (w : BitVec 3) (x : Nat) : Word :=
  if w.toNat % 2 = 0 then BitVec.ofInt 64 (toSigned (8 * widthBytes w) x) else Word.ofNat x

/-- Own scalar stores, which a scalar load of the hart sees (R89). -/
def ownScalar (q : Pending) : Bool := !q.vector

/-- TVAL of poisoned data: the address, or the scratchpad offset (R226, log 61). -/
def Hart.poisonTval (h : Hart) (ea : Word) : Word := ((h.padOffset ea).map Word.ofNat).getD ea

/-- `n` bytes read by the hart at a place: by an acquire as they stand (R310, R311), by a plain load as R89 and R309 allow. -/
def State.loadBytes (s : State) (acquire : Bool) (p : Place) (n : Nat) : State × List Byte :=
  if acquire then (s.acquired p, s.viewList ownScalar p n) else s.readList ownScalar p n

/-- `n` bytes loaded by a scalar access at `ea`, in the order of checks of R87. -/
def State.scalarLoad (s : State) (ea : Word) (n : Nat) (acquire : Bool := false) : State × Except Stop Nat :=
  if crossesLine ea n then (s, .error (.trap (.own 0x06 ea)))
  else match s.access ea n .read with
    | (s, .error p) => (s, .error p)
    | (s, .ok r) =>
      let s := s.eccAccess r.place n
      if s.viewPoison ownScalar r.place n then (s, .error (.trap (.own 0x1A (s.hart.poisonTval ea))))
      else
        let (s, bs) := s.loadBytes acquire r.place n
        (s, .ok (bytesToNat bs))

/-- The low `n` bytes of a value stored by a scalar access at `ea` (R85, R87, R88). -/
def State.scalarStore (s : State) (ea : Word) (n : Nat) (v : Nat) : State × Except Stop Unit :=
  if crossesLine ea n then (s, .error (.trap (.own 0x06 ea)))
  else match s.access ea n .write with
    | (s, .error p) => (s, .error p)
    | (s, .ok r) =>
      let s := s.eccAccess r.place n
      (s.issueStore ⟨r.place, natToBytes v n, false, false, false, s.hart.ctx, r.dirty, r.via, false⟩, .ok ())

/-- LD and LDX (R85, R86). -/
def loadTo (d : GReg) (w : BitVec 3) (ea : Word) (s : State) : Res :=
  match s.scalarLoad ea (widthBytes w) with
  | (s, .ok x) => .ok (s.setG d (extendLoad w x))
  | (s, .error p) => p.res s

/-- ST and STX (R85, R86), which wait for older trims of an exit region (R193). -/
def storeFrom (d : GReg) (w : BitVec 3) (ea : Word) (s : State) : Res :=
  settled s fun s =>
    match s.scalarStore ea (widthBytes w) (s.g d).toNat with
    | (s, .ok _) => .ok s
    | (s, .error p) => p.res s

/-- The effective address of the M format (R85). -/
def mAddress (s : State) (a : GReg) (w : BitVec 3) (off : BitVec 8) : Word := s.g a + sextWord off * Word.ofNat (widthBytes w)

/-- LD (R85). -/
def execLd (e : Bool) (d a : GReg) (w : BitVec 3) (o : BitVec 8) (s : State) : Out := member e (loadTo d w (mAddress s a w o) s)
/-- ST (R85). -/
def execSt (e : Bool) (d a : GReg) (w : BitVec 3) (o : BitVec 8) (s : State) : Out := member e (storeFrom d w (mAddress s a w o) s)
/-- LDX (R86). -/
def execLdx (e : Bool) (d a b : GReg) (w : BitVec 3) (s : State) : Out := member e (loadTo d w (s.g a + s.g b) s)
/-- STX (R86). -/
def execStx (e : Bool) (d a b : GReg) (w : BitVec 3) (s : State) : Out := member e (storeFrom d w (s.g a + s.g b) s)

end Sys2Proof.Machine
end

