-- ==== Sys2Proof/Machine/Atomics.lean ====
section
/-!
DEFINITION. Atomics, acquire loads, release stores, watches and the fences of a hart's own accesses (R178, R310 to R318, R324).
-/
namespace Sys2Proof.Machine

/-- An atomic operation on units of `n` bits: old value, g[b] and g[d], all below 2^n; none writes nothing (R312). -/
abbrev AtomicOp := Nat → Nat → Nat → Nat → Option Nat

def amoSwap : AtomicOp := fun _ _ b _ => some b
def amoAdd : AtomicOp := fun n o b _ => some ((o + b) % 2 ^ n)
def amoAnd : AtomicOp := fun _ o b _ => some (o &&& b)
def amoOr : AtomicOp := fun _ o b _ => some (o ||| b)
def amoXor : AtomicOp := fun _ o b _ => some (o ^^^ b)
def amoMax : AtomicOp := fun n o b _ => some (if toSigned n o < toSigned n b then b else o)
def amoMin : AtomicOp := fun n o b _ => some (if toSigned n b < toSigned n o then b else o)
def amoCas : AtomicOp := fun _ o b d => if o = d then some b else none

/-- Bytes of an atomic's unit: f[3] (R312). -/
def unitBytes (eight : Bool) : Nat := if eight then 8 else 4

/-- The low `n` bytes of a register as a number. -/
def lowBytes (x : Word) (n : Nat) : Nat := x.toNat % 2 ^ (8 * n)

/-- A unit's number sign-extended into a register. -/
def sextUnit (n x : Nat) : Word := BitVec.ofInt 64 (toSigned (8 * n) x)

/-- An atomic (R312, R313): checked in the order of R87; `native` says whether it is a PCIe AtomicOp (R423); `release` waits for every earlier
access (R310). The write is performed at its home at once; it reads the line as it stands (R311), and an acquire synchronises the hart
(R309). -/
def atomic (op : AtomicOp) (native acquire release : Bool) (e : Bool) (d a b : GReg) (eight : Bool) (s : State) : Out :=
  let n := unitBytes eight
  member e (settled s fun s =>
    let ea := s.g a
    if ea.toNat % n ≠ 0 then .trap (.own 0x06 ea) s
    else match s.access ea n .write none (some native) with
      | (s, .error p) => p.res s
      | (s, .ok r) =>
        let s := s.eccAccess r.place n
        if r.place = nowhere then .trap (.own 0x1A ea) s
        else if s.viewPoison ownScalar r.place n then .trap (.own 0x1A (s.hart.poisonTval ea)) s
        else
          let s := if release then s.drainAll else s.drain fun q => ownScalar q && q.touches r.place n
          let s := if acquire then s.acquired r.place else s.current r.place n
          let old := bytesToNat (s.peekList r.place n)
          let s := match op (8 * n) old (lowBytes (s.g b) n) (lowBytes (s.g d) n) with
            | some new => s.perform ⟨r.place, natToBytes new n, false, false, false, s.hart.ctx, r.dirty, r.via, false⟩
            | none => s
          .ok (s.setG d (sextUnit n old)))

def execAmoswapRlx (e : Bool) (d a b : GReg) (w : Bool) (s : State) : Out := atomic amoSwap true false false e d a b w s
def execAmoaddRlx (e : Bool) (d a b : GReg) (w : Bool) (s : State) : Out := atomic amoAdd true false false e d a b w s
def execAmoandRlx (e : Bool) (d a b : GReg) (w : Bool) (s : State) : Out := atomic amoAnd false false false e d a b w s
def execAmoorRlx (e : Bool) (d a b : GReg) (w : Bool) (s : State) : Out := atomic amoOr false false false e d a b w s
def execAmoxorRlx (e : Bool) (d a b : GReg) (w : Bool) (s : State) : Out := atomic amoXor false false false e d a b w s
def execAmomaxRlx (e : Bool) (d a b : GReg) (w : Bool) (s : State) : Out := atomic amoMax false false false e d a b w s
def execAmominRlx (e : Bool) (d a b : GReg) (w : Bool) (s : State) : Out := atomic amoMin false false false e d a b w s
def execAmocasRlx (e : Bool) (d a b : GReg) (w : Bool) (s : State) : Out := atomic amoCas w false false e d a b w s
def execAmoswapAcq (e : Bool) (d a b : GReg) (w : Bool) (s : State) : Out := atomic amoSwap true true false e d a b w s
def execAmoaddAcq (e : Bool) (d a b : GReg) (w : Bool) (s : State) : Out := atomic amoAdd true true false e d a b w s
def execAmoandAcq (e : Bool) (d a b : GReg) (w : Bool) (s : State) : Out := atomic amoAnd false true false e d a b w s
def execAmoorAcq (e : Bool) (d a b : GReg) (w : Bool) (s : State) : Out := atomic amoOr false true false e d a b w s
def execAmoxorAcq (e : Bool) (d a b : GReg) (w : Bool) (s : State) : Out := atomic amoXor false true false e d a b w s
def execAmomaxAcq (e : Bool) (d a b : GReg) (w : Bool) (s : State) : Out := atomic amoMax false true false e d a b w s
def execAmominAcq (e : Bool) (d a b : GReg) (w : Bool) (s : State) : Out := atomic amoMin false true false e d a b w s
def execAmocasAcq (e : Bool) (d a b : GReg) (w : Bool) (s : State) : Out := atomic amoCas w true false e d a b w s
def execAmoswapRel (e : Bool) (d a b : GReg) (w : Bool) (s : State) : Out := atomic amoSwap true false true e d a b w s
def execAmoaddRel (e : Bool) (d a b : GReg) (w : Bool) (s : State) : Out := atomic amoAdd true false true e d a b w s
def execAmoandRel (e : Bool) (d a b : GReg) (w : Bool) (s : State) : Out := atomic amoAnd false false true e d a b w s
def execAmoorRel (e : Bool) (d a b : GReg) (w : Bool) (s : State) : Out := atomic amoOr false false true e d a b w s
def execAmoxorRel (e : Bool) (d a b : GReg) (w : Bool) (s : State) : Out := atomic amoXor false false true e d a b w s
def execAmomaxRel (e : Bool) (d a b : GReg) (w : Bool) (s : State) : Out := atomic amoMax false false true e d a b w s
def execAmominRel (e : Bool) (d a b : GReg) (w : Bool) (s : State) : Out := atomic amoMin false false true e d a b w s
def execAmocasRel (e : Bool) (d a b : GReg) (w : Bool) (s : State) : Out := atomic amoCas w false true e d a b w s
def execAmoswapAr (e : Bool) (d a b : GReg) (w : Bool) (s : State) : Out := atomic amoSwap true true true e d a b w s
def execAmoaddAr (e : Bool) (d a b : GReg) (w : Bool) (s : State) : Out := atomic amoAdd true true true e d a b w s
def execAmoandAr (e : Bool) (d a b : GReg) (w : Bool) (s : State) : Out := atomic amoAnd false true true e d a b w s
def execAmoorAr (e : Bool) (d a b : GReg) (w : Bool) (s : State) : Out := atomic amoOr false true true e d a b w s
def execAmoxorAr (e : Bool) (d a b : GReg) (w : Bool) (s : State) : Out := atomic amoXor false true true e d a b w s
def execAmomaxAr (e : Bool) (d a b : GReg) (w : Bool) (s : State) : Out := atomic amoMax false true true e d a b w s
def execAmominAr (e : Bool) (d a b : GReg) (w : Bool) (s : State) : Out := atomic amoMin false true true e d a b w s
def execAmocasAr (e : Bool) (d a b : GReg) (w : Bool) (s : State) : Out := atomic amoCas w true true e d a b w s

/-- LDACQ (R310, R314): nothing later is performed before it. -/
def acquireLoad (n : Nat) (e : Bool) (d a : GReg) (s : State) : Out :=
  member e (settled s fun s =>
    let ea := s.g a
    if ea.toNat % n ≠ 0 then .trap (.own 0x06 ea) s
    else match s.scalarLoad ea n true with
      | (s, .error p) => p.res s
      | (s, .ok x) => .ok (s.setG d (sextUnit n x)))

/-- STREL (R310, R314): every earlier scalar and vector access is performed first. -/
def releaseStore (n : Nat) (e : Bool) (d a : GReg) (s : State) : Out :=
  member e (settled s fun s =>
    let ea := s.g a
    if ea.toNat % n ≠ 0 then .trap (.own 0x06 ea) s
    else match s.access ea n .write with
      | (s, .error p) => p.res s
      | (s, .ok r) =>
        let s := (s.eccAccess r.place n).drainAll
        .ok (s.issueStore ⟨r.place, natToBytes (s.g d).toNat n, false, false, false, s.hart.ctx, r.dirty, r.via, false⟩))

def execLdacq32 (e : Bool) (d a : GReg) (s : State) : Out := acquireLoad 4 e d a s
def execLdacq64 (e : Bool) (d a : GReg) (s : State) : Out := acquireLoad 8 e d a s
def execStrel32 (e : Bool) (d a : GReg) (s : State) : Out := releaseStore 4 e d a s
def execStrel64 (e : Bool) (d a : GReg) (s : State) : Out := releaseStore 8 e d a s

/-- WATCH (R315): checked as a one-byte load, which reads no data (R327), but the line's state: the hart's later loads return nothing older. -/
def execWatch (e : Bool) (a : GReg) (s : State) : Out :=
  member e (settled s fun s =>
    match s.access (s.g a) 1 .probe with
    | (s, .error p) => p.res s
    | (s, .ok r) => .ok ((s.current r.place.line 256).modHart fun h => { h with watch := some ⟨r.place.line, false⟩ }))

/-- Whether the hart's crew is being pre-empted (R412). -/
def State.preemptDue (s : State) : Bool :=
  match s.crew? s.hart.crew with
  | some c => c.preempting
  | none => false

/-- The hart waits until a TICK value, from now on if it does not wait yet (R399). -/
def State.waitUntil (s : State) (limit : Nat) : State :=
  match s.hart.waiting with
  | .until _ => s
  | _ => s.modHart fun h => { h with waiting := .until (s.tick + limit) }

/-- Whether the limit of a wait has passed (R399). -/
def State.limitPassed (s : State) : Bool :=
  match s.hart.waiting with
  | .until t => decide (t ≤ s.tick)
  | _ => false

/-- WAITW completes (R315): the watch is cleared. -/
def State.endWatch (s : State) : State := s.modHart fun h => { h with watch := none }

/-- WAITW (R315). -/
def execWaitw (e : Bool) (b : GReg) (s : State) : Out :=
  member e (settled s fun s =>
    match s.hart.watch with
    | none => .ok s
    | some w =>
      let s := s.waitUntil (s.g b).toNat
      if w.fired || s.limitPassed || s.preemptDue then .ok s.endWatch else .hold s)

/-- FENCE.SV (R178): earlier scalar accesses are performed. -/
def execFenceSv (e : Bool) (s : State) : Out := member e (settled s fun s => .ok (s.drain fun q => !q.vector))
/-- FENCE.VS and FENCE.VV (R178): earlier vector accesses are performed. -/
def execFenceVs (e : Bool) (s : State) : Out := member e (settled s fun s => .ok (s.drain fun q => q.vector))
def execFenceVv (e : Bool) (s : State) : Out := member e (settled s fun s => .ok (s.drain fun q => q.vector))
/-- FENCE.MEM (R317): what is performed is performed toward every agent of the model, whatever the scope. -/
def execFenceMem (e : Bool) (_scope : BitVec 3) (s : State) : Out := member e (settled s fun s => .ok s.drainAll.synced)

/-- FENCE.SC (R318): it drains, then waits for the first tick boundary after the drain. -/
def execFenceSc (e : Bool) (_scope : BitVec 3) (s : State) : Out :=
  member e (settled s fun s =>
    match s.hart.waiting with
    | .boundary t => if t < s.tick then .ok s.synced else .hold s
    | _ => .hold (s.drainAll.modHart fun h => { h with waiting := .boundary s.tick }))

end Sys2Proof.Machine
end

