-- ==== Sys2Proof/Machine/VecOps.lean ====
section
/-!
DEFINITION. How a vector member runs: element by element from ELIX (R138), or to completion; operands read once at issue (R143);
poisoned elements (R226); traps that trim in an open exit region (R186, R191).
-/
namespace Sys2Proof.Machine

/-- An unsettled position (R186): an open region whose present strip has not resolved. -/
def State.unsettled (s : State) : Bool := s.hart.region.isOpen && !s.hart.region.resolved

/-- What a vector memory member that stops at an element withholds, for its fault record (R170, R188). -/
structure Withheld where
  /-- Its active elements from the stop on, each with its address. -/
  addrs : List (Nat × Option Nat) := []
  base : Nat := 0
  minor : Nat := 0
  store : Bool := false
  /-- On MX pages: format and geometry of the base page, and the scale planes. -/
  mx : Option (Nat × Nat × List Word) := none

/-- A trim of the hart's member at element `j` (R186): FX falls to j, and a checkpoint keeps the way back. -/
def Hart.trim (h : Hart) (elix0 j : Nat) (some : Bool) (t : Trap) (w : Withheld) : Hart :=
  let tr : Trim := { held := false, suppressed := false, m15 := h.m15only, caddy := h.caddy.length, saved := h.regs, pc := h.pc, convoy := h.convoy
                     index := h.member, element := j, cause := t.cause, tval := t.tval, stage := t.stage, addrs := w.addrs, base := w.base, pages := t.pages, mx := w.mx
                     some := some || h.m15only, elix := elix0, vl := h.regs.vl, minor := w.minor, store := w.store, issued := h.issued }
  { h with
    regs := { h.regs with fx := if j < h.regs.fx.toNat then Word.ofNat j else h.regs.fx }
    region := { h.region with trims := h.region.trims ++ [tr] } }

/-- A trap of a vector member at element `j` (R168, R186): taken with ELIX = j, or a trim with which the member completes. With no
checkpoint free, issue waits until one is released (R191): the older strips resolve, and where trims of the present strip hold all four
they are decided, since nothing younger can suppress one (log 11); where they are suppressed the position is settled, and the trap is taken.
Vector loads older than a checkpoint are performed before it. -/
def State.stopAt (s : State) (elix0 j : Nat) (some : Bool) (t : Trap) (w : Withheld) : Res :=
  let s := s.performLate
  if !s.unsettled then .trap t (s.modHart fun h => { h with elix := j })
  else if s.hart.region.checkpoints < 4 then .ok (s.modHart fun h => h.trim elix0 j some t w)
  else match s.resolveTests with
    | .error t => .moved t
    | .ok s =>
      if s.hart.region.checkpoints < 4 then .ok (s.modHart fun h => h.trim elix0 j some t w)
      else match s.decideTrims false with
        | .error t => .moved t
        | .ok s => .trap t (s.modHart fun h => { h with elix := j })

/-- A member is through with its `n` elements: it completes, or stops where a pre-emption takes it, with ELIX there (R138, R174). -/
def State.throughTo (s : State) (n : Nat) : Res :=
  match s.hart.cut with
  | some c => if c < n then .hold (s.modHart fun h => { h with elix := c, cut := none }) else .ok s
  | none => .ok s

/-- A vector member is through with its elements. -/
def State.through (s : State) : Res := s.throughTo s.hart.regs.vl

/-- Whether the member at the PC resumes part-way, from ELIX or under m15. -/
def Hart.resumes (h : Hart) : Bool := h.elix != 0 || h.m15only

/-- What the member at the PC read when it issued, on a resumption. -/
def Hart.issuedHere (h : Hart) : Option Issue := if h.resumes then h.issued.find? fun z => z.supervisor == h.regs.supervisor && z.pc == h.pc else none

/-- The scalar operands of a member as it read them at issue (R143, R160): read now, and kept for a resumption with RSEED (R115). -/
def State.atIssue (s : State) (x y : Word) : State × Word × Word :=
  let h := s.hart
  match h.issuedHere with
  | some z => (s, z.x, z.y)
  | none => ({ s with hart := { h with issued := ⟨h.regs.supervisor, h.pc, x, y, h.rseed⟩ :: h.issued.filter fun z => z.supervisor != h.regs.supervisor } }, x, y)

/-- RSEED as it stood when the member at the PC issued (R115). -/
def Hart.seed (h : Hart) : Word := (h.issuedHere.map (·.seed)).getD h.rseed

/-- What one element does: a change of the hart, or a trap at it. -/
abbrev Element := Except Trap (Hart → Hart)

/-- The poisoned-data trap of a register or tile word (R226). -/
def poisonTrap : Trap := .own 0x1A 0

/-- An element that consumes register elements, each a register, a width in bytes and an index. -/
def consumes (h : Hart) (src : List (Nat × Nat × Nat)) (k : Element) : Element :=
  if src.any fun x => h.elemPoison x.1 x.2.1 x.2.2 then .error poisonTrap else k

/-- The active elements of a list in order, until one traps. -/
def runElements (act : Nat → Bool) (f : Nat → Element) : List Nat → Hart → Hart × Option (Nat × Trap)
  | [], h => (h, none)
  | i :: is, h =>
    if act i then
      match f i with
      | .error t => (h, some (i, t))
      | .ok g => runElements act f is (g h)
    else runElements act f is h

/-- A member that applies one rule to each element, from ELIX to VL − 1 (R138). -/
def elementwise (m : Bool) (f : Hart → Nat → Element) (s : State) : Res :=
  let h := s.hart
  match runElements (h.active m) (f h) h.elements h with
  | (h', none) => { s with hart := h' }.through
  | (h', some (i, t)) => { s with hart := h' }.stopAt h.elix i (h.elements.any fun j => decide (j < i) && h.active m j) t {}

/-- A member that runs to completion (R138), which no pre-emption stops part-way: `f` is its whole effect on the elements that are active; `src` names the register
elements that element i consumes. A poisoned one traps before effect, or trims there (R186, R226). How such a member executes again after a
genuine trim, with the elements below ELIX already written, the spec leaves open: VCOMP, VEXPD, VIOTA and VFSUMT begin again at element 0, from
the registers as they are then, and the others go on at ELIX (DESIGN CHOICE, log 73). -/
def toCompletion (m : Bool) (src : Hart → Nat → List (Nat × Nat × Nat)) (f : Hart → (Nat → Bool) → Hart) (s : State) : Res :=
  let h := { s.hart with cut := none }
  let all := List.range h.regs.vl
  match all.find? (fun i => h.active m i && (src h i).any fun x => h.elemPoison x.1 x.2.1 x.2.2) with
  | none => .ok { s with hart := f h (h.active m) }
  | some j =>
    if s.unsettled then
      { s with hart := f h fun i => h.active m i && decide (i < j) }.stopAt h.elix j (all.any fun i => decide (i < j) && h.active m i) poisonTrap {}
    else .trap poisonTrap s

/-- The illegal-register trap before effect (R46, R139, R152): TVAL holds the word and the member's index. -/
def illegalRegister (ok : Bool) (w : Code) (s : State) (k : State → Res) : Res :=
  if ok then k s else .trap (.own 0x03 (wordTval w s.hart.member)) s

/-- The VT width in bytes (R139). -/
def Hart.width (h : Hart) : Nat := vtBytes h.regs.vt

/-- The element of a scalar operand at a width in bytes (R143). -/
def scalarElem (x : Word) (w : Nat) : Nat := x.toNat % 2 ^ (8 * w)

end Sys2Proof.Machine
end

