-- ==== Sys2Proof/Machine/VecSweep.lean ====
section
/-!
DEFINITION. One pass of a vector memory member over its elements (R157, R160, R165 to R171): checks, data, the fate of a failing
element, and the stores, held in the caddy where trims are undecided (R195).
-/
namespace Sys2Proof.Machine

/-- The base page of a pass (R157, R158). -/
inductive Base where
  /-- Its translation fails. -/
  | missing (f : XFail)
  | window
  | page (fmt geom : Nat)
  /-- Not known: the lowest active element of a VSEQ has no row (R354). -/
  | unknown
  deriving DecidableEq, Repr

/-- The page that holds an address, as the base of a pass; the accessed bits of its translation are set (R372). -/
def State.baseOf (s : State) (va : Word) : State × Base :=
  match s.hart.padOffset va with
  | some _ => (s, .window)
  | none =>
    match s.lookup s.hart.ctx va.toNat with
    | .error f => (s, .missing f)
    | .ok x =>
      match s.setAccessed s.hart.ctx x.leaves with
      | (s, some f) => (s, .missing f)
      | (s, none) => (s, .page x.attr.fmt x.attr.geom)

/-- The format of a base page; RAW where it is not known (R157, R158). -/
def Base.fmt : Base → Nat
  | .page f _ => f
  | _ => 0
def Base.geom : Base → Nat
  | .page _ g => g
  | _ => 0

/-- What a base asks of the element pages. -/
def Base.want (b : Base) (vt : BitVec 7) : Option Want :=
  match b with
  | .page f g => some ⟨false, f, g, formatConflict f vt⟩
  | .unknown => none
  | _ => some ⟨true, 0, 0, false⟩

/-- One pass over the elements. -/
structure Sweep where
  store : Bool
  /-- A gather or a scatter: the fate of R169. -/
  indexed : Bool
  /-- Vector register. -/
  reg : Nat
  /-- VMEM minor, for the record (R170). -/
  minor : Nat
  /-- VT of the pass: a popped gather has its own (R365). -/
  vt : BitVec 7
  /-- VL of the pass, for m15 and the record. -/
  vl : Nat
  /-- RSEED of the pass (R115). -/
  seed : Word
  /-- An element whose address its size does not divide traps (R167); no element of a looked-up row does (R354, R368). -/
  aligned : Bool
  base : Base
  baseVa : Word
  /-- The scale planes of the pass (R120). -/
  planes : List Word
  /-- Some element completed in an earlier pass (R70). -/
  prior : Bool
  /-- The active elements in order, each with its address and the half of its byte, or the trap that forming the address
  raises. -/
  elems : List (Nat × Except Trap (Word × Bool))

/-- What the scale bytes of a pass on MX pages need (R120). -/
def Sweep.scales (w : Sweep) : Option (Nat × Nat × List Word) := if isMx w.base.fmt then some (w.base.fmt, w.base.geom, w.planes) else none

/-- An element that has passed its checks: where it is, and its register bits (loaded, or to be stored). -/
structure Got where
  index : Nat
  va : Word
  high : Bool
  place : Place
  dirty : List (Nat × Nat)
  via : List Nat
  /-- Where the first byte of its line group and its scale byte stand, on an MX page. -/
  mx : Option (Place × Place)
  value : Nat
  deriving DecidableEq, Repr

/-- The order of causes at one element (R69). -/
def causeRank (c : BitVec 8) : Nat :=
  if c = 0x06 then 0 else if c = 0x07 then 1 else if c = 0x08 then 2 else if c = 0x0A then 3 else if c = 0x09 then 4
  else if c = 0x0C then 5 else if c = 0x1C then 7 else 8

/-- The failure that comes first of an element's and its scale byte's. -/
def firstStop (a b : Stop) : Stop :=
  match a, b with
  | .trap x, .trap y => if causeRank y.cause < causeRank x.cause then b else a
  | .wait, .trap _ => b
  | _, _ => a

/-- Where the line group of an MX element begins, from where the element is. -/
def Place.back : Place → Nat → Place
  | .phys a, n => .phys (a - n)
  | .pad t o, n => .pad t (o - n)

/-- The bases of the scale planes (R120). -/
def Hart.splanes (h : Hart) : List Word := [h.splane0, h.splane1, h.splane2, h.splane3]

/-- The checks of an element of a pass on an MX base page, with those of its scale byte (R120, R164): of two failures the one whose cause
comes first. An element on a page unlike the base page has no scale byte. -/
def State.checkMx (s : State) (w : Sweep) (va : Word) (r : Except Stop Reached) : State × Except Stop (Reached × Option Place) :=
  match s.scaleAddress w.base.fmt w.base.geom w.planes va with
  | none => (s, r.map fun x => (x, none))
  | some a =>
    let scale (s : State) := s.access a 1 (if w.store then .write else .read)
    match r with
    | .error .wait => (s, .error .wait)
    | .error (.trap t) =>
      if causeRank t.cause ≤ 1 then (s, .error (.trap t))
      else match scale s with
        | (s, .error q) => (s, .error (firstStop (.trap t) q))
        | (s, .ok _) => (s, .error (.trap t))
    | .ok x =>
      match scale s with
      | (s, .error q) => (s, .error q)
      | (s, .ok y) => (s, .ok ({ x with dirty := x.dirty ++ y.dirty, via := x.via ++ y.via }, some y.place))

/-- The register bits of a checked element (R125): `loc` is its locator. -/
def State.elemValue (s : State) (w : Sweep) (loc : Nat) (high : Bool) (p : Place) (scale : Option Place) : State × Nat :=
  s.loadBits w.minor w.base.fmt w.vt w.seed loc high p scale

/-- Whether a checked element or its scale byte is poisoned. -/
def State.elemBad (s : State) (w : Sweep) (p : Place) (scale : Option Place) : Bool :=
  s.viewPoison (ownOrdered w.minor) p ((elemBits w.base.fmt w.vt + 7) / 8) || scale.any fun q => s.viewPoison (ownOrdered w.minor) q 1

/-- The stores that the hart holds, of every strip. -/
def Hart.heldAll (h : Hart) : List Held := h.region.strips.flatMap (·.caddy) ++ h.caddy

/-- The places that a held store writes, its scale bytes and whole blocks on MX pages included. -/
def Held.touches (c : Held) (p : Place) : Bool :=
  c.stores.any (fun q => q.touches p 1) || c.mx.any fun x => x.scale == p || (mxOffsets x.fmt x.geom x.va).any fun o => x.group.add o == p

/-- Whether a load of `n` bytes, with a scale byte on an MX page, touches a byte of a store held in the caddy (R197). -/
def Hart.touchesHeld (h : Hart) (p : Place) (n : Nat) (scale : Option Place) : Bool :=
  h.heldAll.any fun c => ((List.range n).any fun k => c.touches (p.add k)) || scale.any c.touches

/-- Whether an element that a pass loads waits for a held store (R197). -/
def State.behindHeld (s : State) (w : Sweep) (p : Place) (scale : Option Place) : Bool :=
  decide (w.minor < 4) && s.hart.touchesHeld p ((elemBits w.base.fmt w.vt + 7) / 8) scale

/-- The data of a checked element (R160): a load's decoded register bits, or the poison trap. One that waits for a held store has yet to meet
the data that the store leaves (R197). -/
def State.loadElem (s : State) (w : Sweep) (i : Nat) (va : Word) (high : Bool) (p : Place) (scale : Option Place) : State × Except Trap Nat :=
  let s := s.eccAccess p ((elemBits w.base.fmt w.vt + 7) / 8)
  if s.elemBad w p scale && !s.behindHeld w p scale then (s, .error (.own 0x1A (s.hart.poisonTval va)))
  else
    let (s, v) := s.elemValue w i high p scale
    (s, .ok v)

/-- The checks of one element in the order of R167, up to its data: where it is, and where its scale byte is on an MX page. Where the base page
is absent the alignment check too takes s as the VT width, which R157 does not list among its purposes, and it comes first (DESIGN CHOICE, log
74). -/
def State.reachElem (s : State) (w : Sweep) (va : Word) : State × Except Stop (Reached × Option Place) :=
  let n := (elemBits w.base.fmt w.vt + 7) / 8
  if w.aligned && va.toNat % n != 0 then (s, .error (.trap (.own 0x06 va)))
  else match w.base with
    | .missing f => (s, .error (f.stop va w.store))
    | base =>
      let (s, r) := s.access va n (if w.store then .write else .read) (base.want w.vt)
      if isMx base.fmt then s.checkMx w va r else (s, r.map fun x => (x, none))

/-- An element that passed its checks, with its register bits. -/
def Sweep.got (w : Sweep) (i : Nat) (va : Word) (high : Bool) (x : Reached × Option Place) (value : Nat) : Got :=
  ⟨i, va, high, x.1.place, x.1.dirty, x.1.via, x.2.map fun q => (x.1.place.back (va.toNat % mxGroup w.base.geom), q), value⟩

/-- The checks of one element in the order of R167, and a load's data. -/
def State.checkElem (s : State) (w : Sweep) (i : Nat) (va : Word) (high : Bool) : State × Except Stop Got :=
  match s.reachElem w va with
  | (s, .error p) => (s, .error p)
  | (s, .ok x) =>
    if w.store then
      let b := vtBytes w.vt
      if s.hart.elemPoison w.reg b i then (s, .error (.trap poisonTrap)) else (s, .ok (w.got i va high x (s.hart.elem w.reg b i)))
    else
      match s.loadElem w i va high x.1.place x.2 with
      | (s, .error t) => (s, .error (.trap t))
      | (s, .ok v) => (s, .ok (w.got i va high x v))

/-- Every active element checked, in order. -/
def State.checkAll (s : State) (w : Sweep) : List (Nat × Except Trap (Word × Bool)) → State × List (Nat × Except Stop Got)
  | [] => (s, [])
  | (i, .error t) :: rest =>
    let (s, more) := s.checkAll w rest
    (s, (i, .error (.trap t)) :: more)
  | (i, .ok (va, high)) :: rest =>
    let (s, r) := s.checkElem w i va high
    let (s, more) := s.checkAll w rest
    (s, (i, r) :: more)

/-- The failure of an element, if it failed. -/
def stopOf (r : Nat × Except Stop Got) : Option (Nat × Stop) :=
  match r.2 with
  | .error p => some (r.1, p)
  | .ok _ => none

/-- The elements that passed. -/
def gotOf (r : Nat × Except Stop Got) : Option Got :=
  match r.2 with
  | .ok g => some g
  | .error _ => none

/-- Whether a failure is a missing translation. -/
def isMissing (p : Stop) : Bool :=
  match p with
  | .trap t => t.cause == 0x07
  | .wait => false

/-- The page entries of failures. -/
def pagesOf (ps : List (Nat × Stop)) : List Word := ps.flatMap fun p => match p.2 with
  | .trap t => t.pages
  | .wait => []

/-- The store of an element as a plain store, encoded for its page (R125, R163, R176). -/
def Got.pending (g : Got) (w : Sweep) (h : Hart) : Pending :=
  let n := (elemBits w.base.fmt w.vt + 7) / 8
  ⟨g.place, natToBytes (encodeElem w.base.fmt w.vt w.seed g.va.toNat g.value) n, false, true, w.minor < 4, h.ctx, g.dirty, g.via, false⟩

/-- The store of an element to an MX page (R119). -/
def Got.mxElem (g : Got) (w : Sweep) (h : Hart) : Option MxElem :=
  g.mx.map fun m => ⟨g.va.toNat, g.high, g.value, w.vt, w.seed, w.base.fmt, w.base.geom, m.1, m.2, h.ctx, g.dirty, g.via⟩

/-- Of the elements of a VSCTU with one address, the one that the device chooses (R162). -/
def State.chooseUnordered (s : State) : Nat → List Got → State × List Got
  | 0, gs => (s, gs)
  | _ + 1, [] => (s, [])
  | fuel + 1, g :: rest =>
    let same := rest.filter fun x => x.va == g.va && x.high == g.high
    let others := rest.filter fun x => !(x.va == g.va && x.high == g.high)
    if same.isEmpty then
      let (s, more) := s.chooseUnordered fuel others
      (s, g :: more)
    else
      let (s, k) := s.draw
      let group := g :: same
      let pick := group.getD (Config.freeChoice k % group.length) g
      let (s, more) := s.chooseUnordered fuel others
      (s, pick :: more)

/-- A load's elements take effect: they write their register, now or when the load is performed after later members (R177). -/
def State.performLoad (s : State) (w : Sweep) (gs : List Got) : State :=
  let now (s : State) : State := s.modHart fun h => gs.foldl (fun h g => h.setElem w.reg (vtBytes w.vt) g.index g.value) h
  match s.hold with
  | true :: rest =>
    let l : LateLoad := ⟨w.reg, w.minor, w.vt, w.base.fmt, w.seed, gs.map fun g => ⟨g.index, g.va.toNat, g.high, g.place, g.mx.map (·.2), g.via⟩⟩
    { s with hold := rest }.modHart fun h => { h with late := h.late ++ [l] }
  | _ => now { s with hold := s.hold.drop 1 }

/-- A vector store of the elements `gs` as the caddy would hold it (R195). -/
def heldStore (w : Sweep) (h : Hart) (gs : List Got) : Held :=
  { stores := (gs.filter fun g => g.mx.isNone).map fun g => g.pending w h
    mx := gs.filterMap fun g => g.mxElem w h
    bytes := h.rb }

/-- Whether the caddy has room for one more store (R195). -/
def Hart.caddyRoom (h : Hart) : Bool := decide (h.heldAll.length < 16) && decide ((h.heldAll.map (·.bytes)).foldl (· + ·) h.rb ≤ 65536)

/-- A member waits for stores that the caddy holds (R195, R197): those that wait for exit tests and older strips are released, and where
`still` says that it waits for a trim of its own strip, that is decided here (R452). -/
def State.awaitCaddy (s : State) (still : State → Bool) : Res :=
  match s.resolveTests with
  | .error t => .moved t
  | .ok s => if still s then settled s .hold else .hold s

/-- A vector store issues (R195): its elements are released at once, or held in the caddy while an exit test, an older strip or a trim is
open; one that finds no room waits. -/
def State.storeIssue (s : State) (x : Held) (k : State → Res) : Res :=
  if s.hart.sure then k (s.commitHeld x)
  else if s.hart.caddyRoom then k (s.modHart fun h => { h with caddy := h.caddy ++ [x] })
  else s.awaitCaddy fun s => !s.hart.caddyRoom

/-- m15 and the fault record of a pass that misses translations (R168, R169, R170), and its trap. Where the record cannot be written, the
hart stays with the elements that m15 names to do (R416). -/
def State.faultMask (s : State) (w : Sweep) (elix0 at' : Nat) (tval : Word) (t : Trap) (js : List Nat) (pages : List Word) (rfm : Bool) : Res :=
  let h := s.hart
  let pages := match w.base with
    | .missing f => if f.cause = 0x07 then [pageEntry f] else sortPages pages
    | _ => sortPages pages
  let s := s.modHart fun h => { h with regs := h.regs.nameElements w.vl js, elix := at' }
  match s.writeRecord (recordImage 7 (if w.indexed then 1 else 0) w.minor h.pc w.vl (s.ctxid h.ctx) elix0 tval.toNat js pages) with
  | .ok s => .trap { t with tval := tval, rfm := rfm, fr := true, pages := pages.take 64, write := w.store } s
  | .error s => .moved ((s.modHart fun h => { h with m15only := rfm }).frameFault .save)

/-- The end of a pass whose elements `gs` complete: their effects, then what `k` says. -/
def State.finishSweep (s : State) (w : Sweep) (gs : List Got) (k : State → Res) : Res :=
  if w.store then
    let (s, gs) := if w.minor = 6 then s.chooseUnordered gs.length gs else (s, gs)
    s.storeIssue (heldStore w s.hart gs) k
  else
    let behind (s : State) : Bool := gs.any fun g => s.behindHeld w g.place (g.mx.map (·.2))
    if behind s then s.awaitCaddy behind else k (s.performLoad w gs)

/-- Whether an element of a VLD, VLDS, VST or VSTS may touch a byte of an earlier VLD or VLDS that is still to be performed (R176): on an MX
page it may touch any of its block. -/
def State.behindLate (s : State) (w : Sweep) : Bool :=
  let place (va : Word) : Option Place := match s.hart.padOffset va, s.lookup s.hart.ctx va.toNat with
    | some off, _ => (s.slotTeam? s.hart.crew (off / 0x200000)).map fun t => .pad t.id (off % 0x200000)
    | none, .ok x => some (.phys x.pa)
    | none, .error _ => none
  let near (p q : Place) (n m : Nat) : Bool := (p.dist q).any (fun k => decide (k < n)) || (q.dist p).any fun k => decide (k < m)
  let width := (elemBits w.base.fmt w.vt + 7) / 8
  decide (w.minor < 4) && s.hart.late.any fun l => decide (l.minor < 4) && (isMx l.fmt || isMx w.base.fmt || l.elems.any fun x => w.elems.any fun y =>
    match y.2 with
    | .ok (va, _) => (place va).any fun p => near p x.place width ((elemBits l.fmt l.vt + 7) / 8)
    | .error _ => false)

/-- The pass (R168, R169, R186). `lost` gives the elements that a trim at `j` withholds, with their addresses. -/
def sweep (w : Sweep) (lost : Nat → List (Nat × Option Nat)) (trims : Bool) (s : State) : Res :=
  let s := if s.behindLate w then s.performLate else s
  let h := s.hart
  let (s, rs) := s.checkAll w w.elems
  let fails := rs.filterMap stopOf
  let gots := rs.filterMap gotOf
  match fails.find? (fun p => p.2 == .wait) with
  | some _ => .hold s
  | none =>
    match fails with
    | [] => s.finishSweep w gots fun s => s.throughTo w.vl
    | (_, .wait) :: _ => .hold s
    | (j, .trap t) :: _ =>
      let below (o : Nat) := gots.filter fun g => decide (g.index < o)
      if trims && s.unsettled then
        s.finishSweep w (below j) fun s => s.stopAt h.elix j (w.prior || !(below j).isEmpty) t ⟨lost j, w.baseVa.toNat, w.minor, w.store, w.scales⟩
      else if !w.indexed then
        s.finishSweep w (below j) fun s =>
          if t.cause = 0x07 then
            let missed := fails.filter fun p => isMissing p.2
            let js := if h.m15only then (w.elems.map (·.1)).filter (fun i => decide (j ≤ i)) else missed.map (·.1)
            s.faultMask w h.elix j t.tval t js (pagesOf missed) h.m15only
          else .trap t (s.modHart fun h => { h with elix := j })
      else
        let others := fails.filter fun p => !isMissing p.2
        let missed := fails.filter fun p => isMissing p.2
        let o := (others.head?.map (·.1)).getD w.vl
        match missed with
        | (f, .trap tf) :: _ =>
          if o < f then
            s.finishSweep w (below o) fun s => .trap t (s.modHart fun h => { h with elix := o })
          else
            s.finishSweep w (below o) fun s =>
              let js := (w.elems.map (·.1)).filter fun i => decide (o ≤ i) || missed.any fun p => p.1 == i
              s.faultMask w h.elix f tf.tval tf js (pagesOf missed)
                (w.prior || !(below o).isEmpty)
        | _ => s.finishSweep w (below o) fun s => .trap t (s.modHart fun h => { h with elix := o })

end Sys2Proof.Machine
end

