-- ==== Sys2Proof/Machine/Matrix.lean ====
section
/-!
DEFINITION. The matrix members: MTX and MMUL, with the checks before their fork (R232 to R249).
-/
namespace Sys2Proof.Machine

/-- The head of the hart's matrix queue performed (R235), after every earlier access of the hart (R238). -/
def State.matrixStep (s : State) : State :=
  match s.hart.matrix with
  | [] => s
  | op :: rest => (s.performLate.drainAll.modHart fun h => { h with matrix := rest }).performMatrix op

/-- Whether a queued operation accesses memory (R238). -/
def MatOp.touchesMemory (op : MatOp) : Bool := !op.pieces.isEmpty

/-- A member forks (R236): it is performed at once when nothing stands before it and, for one that accesses memory, the device does
not hold it back; else it joins the queue. -/
def State.forkMatrix (s : State) (op : MatOp) : State :=
  if !s.hart.matrix.isEmpty then s.modHart fun h => { h with matrix := h.matrix ++ [op] }
  else if op.touchesMemory then
    match s.hold with
    | true :: rest => { s with hold := rest, hart := { s.hart with matrix := [op] } }
    | _ => ({ s with hold := s.hold.drop 1 }.performLate.drainAll).performMatrix op
  else s.performMatrix op

/-- Entries of the matrix queue (R235). -/
def matrixDepth : Nat := 16

/-- A matrix member holds while the engine performs the head of the queue. -/
def holdMatrix (s : State) : Res := .hold s.matrixStep

/-- Whether tile `k` is the hart's (R232). -/
def State.claims (s : State) (k : Nat) : Bool := (s.tile k).claim == some s.hart.id

/-- The shapes of the tiles once an operation has been performed, from those before it; none where a TRST decides one. -/
def MatOp.shapesAfter (op : MatOp) (shapes : List (Option (Option Word))) : List (Option (Option Word)) :=
  match op.kind with
  | .shape w => shapes.set op.tile (some (some w))
  | .load true => shapes.set op.tile none
  | .convert source imm => shapes.set op.tile ((shapes.getD source none).map fun x => x.map fun w =>
      Word.ofNat (imm % 16 * 2 ^ 20 + shapeCols w * tileBits (imm % 16) / 8 * 2 ^ 10 + shapeRows w))
  | _ => shapes

/-- The shape of a tile as the queued operations will leave it (R236); none when a queued TRST decides it. -/
def State.shapeAhead (s : State) (k : Nat) : Option (Option Word) :=
  if s.hart.matrix.isEmpty then some (s.tile k).shape
  else (s.hart.matrix.foldl (fun shapes op => op.shapesAfter shapes) ((List.range 8).map fun k => some (s.tile k).shape)).getD k none

/-- A member that names tile `k` in a shaped role (R232): it waits while the queue decides the shape. -/
def shapedTile (k : Nat) (s : State) (go : Word → State → Res) : Res :=
  if !s.claims k then .trap (.own 0x04 (Word.ofNat k)) s
  else match s.shapeAhead k with
    | none => holdMatrix s
    | some none => .trap (.own 0x04 (Word.ofNat k)) s
    | some (some w) => go w s

/-- A member that names tile `k` in a role that needs no shape (R232). -/
def claimedTile (k : Nat) (s : State) (go : State → Res) : Res := if s.claims k then go s else .trap (.own 0x04 (Word.ofNat k)) s

/-- Every matrix member: it waits for older trims (R239) and for room in the queue (R235). -/
def matrixMember (e : Bool) (go : State → Res) (s : State) : Out :=
  member e (settled s fun s => if s.hart.matrix.length ≥ matrixDepth then holdMatrix s else go s)

/-- An operation with no memory and no vector operand. -/
def State.plainOp (s : State) (kind : MatKind) (tile : Nat) : MatOp :=
  { kind := kind, tile := tile, vec := [], vpois := [], pieces := [], dirty := [], via := [], owner := s.hart.ctx, seed := s.hart.rseed }

/-- An operation with its vector operand's first `n` bytes (R237). -/
def State.vectorOperand (s : State) (kind : MatKind) (tile v n : Nat) : MatOp :=
  let h := s.hart
  { s.plainOp kind tile with
    vec := Sparse.getList zeroByte h.regs.vrf (v * h.rb) n
    vpois := (List.range n).map fun i => Sparse.anyIn h.regs.vpois ((v * h.rb + i) / 8 * 8) ((v * h.rb + i) / 8 * 8 + 8) }

/-- An illegal-register trap with its own TVAL. -/
def badRegister (v : Word) (s : State) : Res := .trap (.own 0x03 v) s

/-- TCONF (R233). -/
def State.setClaims (s : State) (req : Nat) : State :=
  match s.myTeam? with
  | none => s
  | some t =>
    let me := s.hart.id
    s.modTeam t.id fun t => { t with tiles := ((List.range t.tiles.length).zip t.tiles).map fun p =>
      let want := bitsOf req p.1 p.1 == 1
      let mine := p.2.claim == some me
      if mine && !want then { Tile.empty with zeroMark := true }
      else if want && !mine then { Tile.empty with claim := some me, zeroMark := true }
      else p.2 }

/-- The tiles of a request that the hart cannot claim (R233). -/
def State.refusedTiles (s : State) (req : Nat) : Nat :=
  let split := (s.unitOf s.hart).eighths != 0
  (List.range 8).foldl (fun acc k =>
    let taken := match (s.tile k).claim with
      | some x => x != s.hart.id
      | none => false
    if bitsOf req k k = 1 && (taken || (split && k ≥ 4)) then acc + 2 ^ k else acc) 0

def execTconf (e : Bool) (d a : GReg) (s : State) : Out :=
  member e (settled s fun s =>
    let req := (s.g a).toNat
    if req ≥ 256 then badRegister (s.g a) s
    else if !s.hart.matrix.isEmpty then holdMatrix s
    else
      let bad := s.refusedTiles req
      if bad ≠ 0 then .ok (s.setG d (Word.ofNat bad)) else .ok ((s.setClaims req).setG d 0))

/-- TSHAPE (R240). -/
def execTshape (e : Bool) (d : TReg) (a : GReg) (s : State) : Out :=
  matrixMember e (fun s => claimedTile d.toNat s fun s =>
    if shapeLegal (s.g a) then .ok (s.forkMatrix (s.plainOp (.shape (s.g a)) d.toNat)) else badRegister (s.g a) s) s

/-- TZERO (R240). -/
def execTzero (e : Bool) (d : TReg) (s : State) : Out :=
  matrixMember e (fun s => claimedTile d.toNat s fun s => .ok (s.forkMatrix (s.plainOp .zero d.toNat))) s

/-- TDIRTY (R245). -/
def execTdirty (e : Bool) (d : GReg) (s : State) : Out :=
  member e (settled s fun s =>
    if !s.hart.matrix.isEmpty then holdMatrix s
    else .ok (s.setG d (Word.ofNat ((List.range 8).foldl (fun acc k => if s.claims k && (s.tile k).dirty then acc + 2 ^ k else acc) 0))))

/-- MROWIN and MCOLIN (R241): a row's bytes, or the bytes of a column's elements. -/
def moveLimit (col : Bool) (w : Word) (j : Word) (s : State) (go : State → Res) : Res :=
  if j.toNat ≥ (if col then shapeCols w else shapeRows w) then badRegister j s
  else if col && (shapeFmt w == 7 || decide (shapeRows w * shapeElem w > s.hart.rb)) then badRegister w s
  else go s

def execMrowin (e : Bool) (d : TReg) (a : GReg) (b : VReg) (s : State) : Out :=
  matrixMember e (fun s => shapedTile d.toNat s fun w s => moveLimit false w (s.g a) s fun s =>
    .ok (s.forkMatrix (s.vectorOperand (.rowIn (s.g a).toNat) d.toNat b.toNat (shapeRowBytes w)))) s
def execMcolin (e : Bool) (d : TReg) (a : GReg) (b : VReg) (s : State) : Out :=
  matrixMember e (fun s => shapedTile d.toNat s fun w s => moveLimit true w (s.g a) s fun s =>
    .ok (s.forkMatrix (s.vectorOperand (.colIn (s.g a).toNat) d.toNat b.toNat (shapeRows w * shapeElem w)))) s
def execMrowout (e : Bool) (d : VReg) (a : TReg) (b : GReg) (s : State) : Out :=
  matrixMember e (fun s => shapedTile a.toNat s fun w s => moveLimit false w (s.g b) s fun s =>
    .ok (s.forkMatrix (s.plainOp (.rowOut d.toNat (s.g b).toNat) a.toNat))) s
def execMcolout (e : Bool) (d : VReg) (a : TReg) (b : GReg) (s : State) : Out :=
  matrixMember e (fun s => shapedTile a.toNat s fun w s => moveLimit true w (s.g b) s fun s =>
    .ok (s.forkMatrix (s.plainOp (.colOut d.toNat (s.g b).toNat) a.toNat))) s

/-- TCVT (R246). -/
def execTcvt (e : Bool) (d a : TReg) (b : BitVec 7) (s : State) : Out :=
  matrixMember e (fun s => shapedTile d.toNat s fun _ s => shapedTile a.toNat s fun w s =>
    let nb := shapeCols w * tileBits (b.toNat % 16) / 8
    if isMx (shapeFmt w) || decide (nb > 512) || nb % 8 != 0 || decide (shapeRows w * nb > 32768) then badRegister w s
    else .ok (s.forkMatrix (s.plainOp (.convert a.toNat b.toNat) d.toNat))) s

/-! ## Memory -/

/-- The parts of `n` bytes at `va` that lie in one 256-byte line each: address and bytes. -/
def lineParts : Nat → Word → Nat → List (Word × Nat)
  | 0, _, _ => []
  | fuel + 1, va, n =>
    if n = 0 then []
    else
      let k := min n (256 - va.toNat % 256)
      (va, k) :: lineParts fuel (va + Word.ofNat k) (n - k)

/-- One unit of a tile's memory (a row with its scale bytes, or a chunk): its parts by byte of the tile, each with an address. -/
abbrev Unit' := List (Nat × Word × Nat)

/-- The checks of one unit (R242): every part, and the first failure in the order of the list; where the parts lie. Of rows a part of the
scale side (from byte 0x8000 on) may lie on any page. -/
def State.checkUnit (s : State) (write rows : Bool) (want : Want) : Unit' → State × Option Stop × List (Nat × Reached × Nat)
  | [] => (s, none, [])
  | (k, va, n) :: rest =>
    let (s, r) := s.access va n (if write then .write else .engine) (if rows && k ≥ 0x8000 then none else some want)
    let (s, stop, ps) := s.checkUnit write rows want rest
    match r with
    | .ok x => (s, stop, (k, x, n) :: ps)
    | .error p => (s, some (match stop with
        | some q => firstStop p q
        | none => p), ps)

/-- The units from `i` on checked: those that pass, and the first that fails with its failure (R242). -/
def State.checkUnits (s : State) (write rows : Bool) (want : Want) (align : Nat) :
    List (Nat × Word × Unit') → State × Option (Nat × Stop) × List (Nat × Reached × Nat)
  | [] => (s, none, [])
  | (i, va, u) :: rest =>
    if va.toNat % align ≠ 0 then (s, some (i, .trap (.own 0x06 va)), [])
    else
      let (s, stop, ps) := s.checkUnit write rows want u
      match stop with
      | some p => (s, some (i, p), [])
      | none =>
        let (s, f, more) := s.checkUnits write rows want align rest
        (s, f, ps ++ more)

/-- An operation with the memory that its checked parts name. -/
def MatOp.withPieces (op : MatOp) (ps : List (Nat × Reached × Nat)) : MatOp :=
  { op with pieces := ps.map fun p => (p.1, p.2.1.place, p.2.2), dirty := ps.flatMap fun p => p.2.1.dirty, via := ps.flatMap fun p => p.2.1.via }

/-- What the base page of a transfer asks of its pages, for a tile of format `tfmt` (R242), or on RAW pages for 0 (R244, R282, R284). -/
def Base.rowWant (b : Base) (tfmt : Nat) : Want :=
  match b with
  | .page f g => ⟨false, f, g, !(f == 0 || (f == tfmt && tfmt != 11)) || (isMx tfmt && g != 0)⟩
  | .window => ⟨true, 0, 0, false⟩
  | .missing _ => ⟨false, 0, 0, false⟩
  | .unknown => ⟨false, 0, 0, false⟩

/-- TLD, TST, TSAVE and TRST (R242, R244): the units that pass fork; a failing one traps with ELIX at it. -/
def tileTransfer (kind : MatKind) (write rows : Bool) (align tfmt tile : Nat) (a b : Word) (units : List (Nat × Word × Unit')) (s : State) : Res :=
  match units with
  | [] => .ok s
  | (i0, va, _) :: _ =>
    let (s, base) := s.baseOf va
    let op (s : State) (upto : Nat) : MatOp := { s.plainOp kind tile with addr := a, pitch := b, done := i0, upto := upto }
    let (s, fail, ps) := s.checkUnits write rows (base.rowWant tfmt) align units
    match fail with
    | some (_, .wait) => .hold s
    | some (i, .trap t) =>
      let s := if ps.isEmpty then s else s.forkMatrix ((op s i).withPieces ps)
      .trap t (s.modHart fun h => { h with elix := i })
    | none => .ok (s.forkMatrix ((op s (i0 + units.length)).withPieces ps))

/-- The rows of a tile in memory from ELIX on (R242, R243): a row's data, then its scale bytes. -/
def State.tileRows (s : State) (w a b : Word) (from' : Nat) : List (Nat × Word × Unit') :=
  let rb := shapeRowBytes w
  let plane (va : Word) : Nat := match s.lookup s.hart.ctx va.toNat with
    | .ok x => x.attr.plane
    | .error _ => 0
  ((List.range (shapeRows w)).drop from').map fun i =>
    let va := a + Word.ofNat i * b
    let data := (lineParts 4 va rb).map fun p => (i * rb + (p.1 - va).toNat, p.1, p.2)
    let scales := if isMx (shapeFmt w) then
        let nb := shapeCols w / 32
        (List.range nb).map fun k =>
          let block := va + Word.ofNat (k * mxBlockBytes (shapeFmt w))
          (0x8000 + i * nb + k, s.hart.splanes.getD (plane block) 0 + Word.ofNat (mxIndex (shapeFmt w) 0 block.toNat), 1)
      else []
    (i, va, data ++ scales)

/-- The alignment of a tile's rows in memory (R242). -/
def rowAlign (fmt : Nat) : Nat := if fmt = 6 then 32 else if fmt = 7 then 16 else 8

/-- TLD and TST (R242). -/
def rowTransfer (write : Bool) (e : Bool) (d : TReg) (a b : GReg) (s : State) : Out :=
  matrixMember e (fun s => shapedTile d.toNat s fun w s =>
    let units := s.tileRows w (s.g a) (s.g b) s.hart.elix
    tileTransfer (if write then .store false else .load false) write true (rowAlign (shapeFmt w)) (shapeFmt w) d.toNat (s.g a) (s.g b) units s) s

def execTld (e : Bool) (d : TReg) (a b : GReg) (s : State) : Out := rowTransfer false e d a b s
def execTst (e : Bool) (d : TReg) (a b : GReg) (s : State) : Out := rowTransfer true e d a b s

/-- The chunks of a tile's image from chunk `i` on (R244). -/
def imageChunks (a : Word) (i : Nat) : List (Nat × Word × Unit') :=
  ((List.range 137).drop i).map fun c => (c, a + Word.ofNat (256 * c), [(256 * c, a + Word.ofNat (256 * c), 256)])

/-- TSAVE and TRST (R244): 137 chunks of 256 bytes on RAW pages. -/
def imageTransfer (write : Bool) (e : Bool) (d : TReg) (a : GReg) (s : State) : Out :=
  matrixMember e (fun s => claimedTile d.toNat s fun s =>
    tileTransfer (if write then .store true else .load true) write false 256 0 d.toNat (s.g a) 0 (imageChunks (s.g a) s.hart.elix) s) s

def execTsave (e : Bool) (d : TReg) (a : GReg) (s : State) : Out := imageTransfer true e d a s
def execTrst (e : Bool) (d : TReg) (a : GReg) (s : State) : Out := imageTransfer false e d a s

/-- A queued transfer of the hart's frame queued again (R253). One whose descriptor the hart's handler has changed is translated anew: the
rows or chunks up to the first that fails move (DESIGN CHOICE, log 15). -/
def State.requeueOp (s : State) (op : MatOp) : State × MatOp :=
  if !op.pieces.isEmpty then (s, op)
  else
    let w := (s.tile op.tile).shape.getD 0
    let write := match op.kind with
      | .store _ => true
      | _ => false
    let image := match op.kind with
      | .load x => x
      | .store x => x
      | _ => false
    let units := (if image then imageChunks op.addr op.done else s.tileRows w op.addr op.pitch op.done).take (op.upto - op.done)
    let (s, base) := s.baseOf ((units.head?.map fun u => u.2.1).getD 0)
    let (s, _, ps) := s.checkUnits write (!image) (base.rowWant (if image then 0 else shapeFmt w)) (if image then 256 else rowAlign (shapeFmt w)) units
    (s, op.withPieces ps)

/-- The matrix queue of a hart that has been read back from its frame (R253). -/
def State.requeue (s : State) : State :=
  s.hart.matrix.foldl (fun s op =>
    let (s, op) := s.requeueOp op
    s.modHart fun h => { h with matrix := h.matrix ++ [op] }) (s.modHart fun h => { h with matrix := [] })

/-! ## Row operations -/

/-- The accumulator format that a stationary format asks for in a form (R247): none where the form does not take it. -/
def accumulatorOf (integer stream : Bool) (fmt : Nat) : Option Nat :=
  if integer then (if fmt = 8 then some 10 else none)
  else if fmt = 2 ∨ fmt = 4 ∨ fmt = 5 then some 1
  else if stream && isMx fmt then some 1
  else if stream && fmt == 8 then some 10
  else none

/-- The checks of R247 in order, after those of the tiles and after `first`. One tile in both roles has no shape that suits both: it is
the pair, the whole field d, that the trap names. -/
def rowChecks (integer stream : Bool) (first : Option Trap) (c st : TReg) (y : Word) (s : State) (go : Word → State → Res) : Res :=
  shapedTile c.toNat s fun cw s => shapedTile st.toNat s fun w s =>
    match first with
    | some t => .trap t s
    | none =>
      if c = st then badRegister (zextWord (c ++ (0 : BitVec 1) ++ st)) s
      else match accumulatorOf integer stream (shapeFmt w) with
        | none => badRegister w s
        | some f =>
          if shapeFmt cw ≠ f ∨ shapeRowBytes cw ≠ 4 * shapeRows w then badRegister cw s
          else if y.toNat ≥ shapeRows cw then badRegister y s
          else go w s

/-- MRW.O, MRW.F and MRWI (R247): A is the vector operand as it stands now. -/
def rowFromVector (integer ordered : Bool) (e : Bool) (c st : TReg) (a : GReg) (b : VReg) (s : State) : Out :=
  matrixMember e (fun s => rowChecks integer false none c st (s.g a) s fun w s =>
    .ok (s.forkMatrix (s.vectorOperand (.rowOp ordered false st.toNat (s.g a).toNat) c.toNat b.toNat (shapeRowBytes w)))) s

def execMrwO (e : Bool) (c st : TReg) (a : GReg) (b : VReg) (s : State) : Out := rowFromVector false true e c st a b s
def execMrwF (e : Bool) (c st : TReg) (a : GReg) (b : VReg) (s : State) : Out := rowFromVector false false e c st a b s
def execMrwi (e : Bool) (c st : TReg) (a : GReg) (b : VReg) (s : State) : Out := rowFromVector true true e c st a b s

/-- A scratchpad byte range of an MRS form (R248): outside the windows too it is the scratchpad-bound trap. -/
def State.padRange (s : State) (va : Word) (n : Nat) : Except Stop Place :=
  let off := va - s.hart.spbase
  if off.toNat ≥ 0x2000000 then .error (.trap (.own 0x1C off))
  else match s.reachPad off.toNat n with
    | .ok r => .ok r.place
    | .error p => .error p

/-- Of two failures of a scratchpad row the one with the lower offset (R217); a wait gives way to a trap. -/
def lowerStop (p q : Stop) : Stop :=
  match p, q with
  | .trap x, .trap y => if y.tval < x.tval then q else p
  | .wait, _ => q
  | _, .wait => p

/-- The parts of an MRS form's row and scales as places, or the failure with the lowest offset (R217, R248). -/
def State.padParts (s : State) : List (Nat × Word × Nat) → Except Stop (List (Nat × Place × Nat))
  | [] => .ok []
  | (k, va, n) :: rest =>
    match s.padRange va n, s.padParts rest with
    | .ok p, .ok more => .ok ((k, p, n) :: more)
    | .ok _, .error q => .error q
    | .error p, .ok _ => .error p
    | .error p, .error q => .error (lowerStop p q)

/-- MRS.O and MRS.F (R247, R248): a row pitch that is no multiple of 8 traps whatever the row is. Of the other checks those of R247 come first,
then bits 58:57, then the alignment of the row: the spec does not order them (DESIGN CHOICE, log 76). -/
def rowFromPad (ordered : Bool) (e : Bool) (c st : TReg) (a b : GReg) (s : State) : Out :=
  matrixMember e (fun s =>
    let g := (s.g b).toNat
    let y := bitsOf g 15 0
    let rpitch := bitsOf g 35 16
    let start := s.g a + Word.ofNat (y * rpitch)
    rowChecks false true (if rpitch % 8 = 0 then none else some (.own 0x06 start)) c st (Word.ofNat y) s fun w s =>
      if bitsOf g 58 57 ≠ 0 then badRegister (s.g b) s
      else if start.toNat % 8 ≠ 0 then .trap (.own 0x06 start) s
      else
        let words := shapeRowBytes w / 8
        let row := (List.range words).map fun j => (8 * j, start + Word.ofNat ((j + bitsOf g 63 59) % words * 8), 8)
        let nb := shapeCols w / 32
        let scales := if isMx (shapeFmt w) then
            (List.range nb).map fun k => (0x8000 + k, s.g a + Word.ofNat (bitsOf g 56 36 + y * nb + k), 1)
          else []
        match s.padParts (row ++ scales) with
        | .error p => p.res s
        | .ok ps => .ok (s.forkMatrix { s.plainOp (.rowOp ordered true st.toNat y) c.toNat with pieces := ps })) s

def execMrsO (e : Bool) (c st : TReg) (a b : GReg) (s : State) : Out := rowFromPad true e c st a b s
def execMrsF (e : Bool) (c st : TReg) (a b : GReg) (s : State) : Out := rowFromPad false e c st a b s

end Sys2Proof.Machine
end

