-- ==== Sys2Proof/Machine/VecMemory.lean ====
section
/-!
DEFINITION. Vector loads and stores: VLD, VLDS, VST, VSTS, VGTH, VSCTO and VSCTU (R157 to R163).
-/
namespace Sys2Proof.Machine

/-- The address of element offset `off` with elements of `bits` bits, and the half of its byte (R157). -/
def elemAddress (base : Word) (off : Int) (bits : Nat) : Word × Bool :=
  (base + BitVec.ofInt 64 (off * Int.ofNat bits / 8), bits == 4 && off % 2 == 1)

/-- Bytes of an index (R161). -/
def indexBytes (vt : BitVec 7) : Nat := if vtBytes vt = 8 then 8 else 4

/-- Whether some element that the member touches lies below ELIX, or the member resumes under m15. -/
def Hart.priorElements (h : Hart) (m : Bool) : Bool :=
  h.m15only || (List.range h.elix).any fun i => h.active m i

/-- A unit-stride, strided or indexed access (R160). `off h i` is the element offset, or the trap that reading it raises. -/
def vectorAccess (store indexed : Bool) (minor : Nat) (off : Hart → Nat → Except Trap Int) (d : VReg) (base : Word) (m : Bool) (s : State) : Res :=
  let h := s.hart
  let act := h.elements.filter (h.active m)
  if act.isEmpty then (if store then s.storeIssue ⟨[], [], h.rb⟩ State.through else s.through)
  else
    let (s, b) := s.baseOf base
    let vt := h.regs.vt
    let bits := elemBits b.fmt vt
    let at' (i : Nat) : Except Trap (Word × Bool) := (off h i).map fun o => elemAddress base o bits
    let w : Sweep := { store := store, indexed := indexed, reg := d.toNat, minor := minor, vt := vt, vl := h.regs.vl, seed := h.seed, aligned := true, planes := h.splanes, base := b, baseVa := base
                       prior := h.priorElements m, elems := act.map fun i => (i, at' i) }
    let lost (j : Nat) : List (Nat × Option Nat) :=
      let wide := { h with regs := { h.regs with fx := Word.ones } }
      (h.elements.filter fun i => decide (j ≤ i) && wide.active m i).map fun i =>
        (i, match at' i with
          | .ok a => some a.1.toNat
          | .error _ => none)
    sweep w lost true s

/-- VLD and VST: off(i) = i. -/
def unitStride (store : Bool) (minor : Nat) (e : Bool) (d : VReg) (a : GReg) (m : Bool) (s : State) : Out :=
  let (s, x, _) := s.atIssue (s.g a) 0
  member e (vectorAccess store false minor (fun _ i => .ok (Int.ofNat i)) d x m s)

/-- VLDS and VSTS: off(i) = i × sext(g[b]). -/
def strided (store : Bool) (minor : Nat) (e : Bool) (d : VReg) (a b : GReg) (m : Bool) (s : State) : Out :=
  let (s, x, y) := s.atIssue (s.g a) (s.g b)
  member e (vectorAccess store false minor (fun _ i => .ok (Int.ofNat i * y.toInt)) d x m s)

/-- VGTH, VSCTO and VSCTU: off(i) = idx(i) (R161). The illegal-register trap comes before effect whatever VL and the active elements are,
R157's rule that no active element raises nothing notwithstanding (DESIGN CHOICE, log 62). -/
def indexedAccess (store : Bool) (minor : Nat) (e : Bool) (d : VReg) (a : GReg) (b : VReg) (m : Bool) (s : State) : Out :=
  let (s, x, _) := s.atIssue (s.g a) 0
  let q := indexBytes s.hart.regs.vt
  member e (illegalRegister (decide (s.hart.regs.vl ≤ s.hart.rb / q) && (store || d != b || vtBytes s.hart.regs.vt == q))
    (encV e 0x34 d a b m (BitVec.ofNat 3 minor)) s
    (vectorAccess store true minor (fun h i =>
      if h.elemPoison b.toNat q i then .error poisonTrap else .ok (Int.ofNat (h.elem b.toNat q i))) d x m))

def execVld (e : Bool) (d : VReg) (a : GReg) (m : Bool) (s : State) : Out := unitStride false 0 e d a m s
def execVlds (e : Bool) (d : VReg) (a b : GReg) (m : Bool) (s : State) : Out := strided false 1 e d a b m s
def execVst (e : Bool) (d : VReg) (a : GReg) (m : Bool) (s : State) : Out := unitStride true 2 e d a m s
def execVsts (e : Bool) (d : VReg) (a b : GReg) (m : Bool) (s : State) : Out := strided true 3 e d a b m s
def execVgth (e : Bool) (d : VReg) (a : GReg) (b : VReg) (m : Bool) (s : State) : Out := indexedAccess false 4 e d a b m s
def execVscto (e : Bool) (d : VReg) (a : GReg) (b : VReg) (m : Bool) (s : State) : Out := indexedAccess true 5 e d a b m s
def execVsctu (e : Bool) (d : VReg) (a : GReg) (b : VReg) (m : Bool) (s : State) : Out := indexedAccess true 6 e d a b m s

end Sys2Proof.Machine
end

