-- ==== Sys2Proof/Machine/Streamer.lean ====
section
/-!
DEFINITION. The copy streamer: its control registers, the strips of a copy, fault records, tokens and the STRM members (R255 to
R268), with the mirroring of R448.
-/
namespace Sys2Proof.Machine

/-! ## A copy's description -/

/-- A control register of a copy's snapshot. -/
def Copy.reg (c : Copy) (n : Nat) : Word := Sparse.get zeroWord c.sx n

/-- Bits `[hi:lo]` of a control register. -/
def Copy.field (c : Copy) (n hi lo : Nat) : Nat := bitsOf (c.reg n).toNat hi lo

def Copy.conv (c : Copy) : Bool := c.field 8 0 0 == 1
def Copy.own (c : Copy) : Bool := c.field 8 1 1 == 1

/-- Strips of a copy (R259). -/
def Copy.total (c : Copy) : Nat := if c.vl = 0 then 0 else c.field 7 31 0 * c.field 7 63 32

/-- Elements of each strip (R259, R260). -/
def Copy.length (c : Copy) : Nat :=
  if c.conv then min c.vl (c.field 10 47 32 * c.field 10 31 16 * c.field 10 15 0 - (c.reg 12).toNat) else c.vl

/-- The first control register whose value SXGO or SXGOM refuses (R255, R258). -/
def badControl (sx : Sparse Word) (multi : Bool) : Option Nat :=
  let f (n hi lo : Nat) : Nat := bitsOf (Sparse.get zeroWord sx n).toNat hi lo
  let conv := f 8 0 0 == 1
  if f 8 63 2 ≠ 0 ∨ (!multi && f 8 1 1 == 1) then some 8
  else if conv && (f 10 63 48 != 0 || f 10 47 32 == 0 || f 10 31 16 == 0 || f 10 15 0 == 0) then some 10
  else if conv && f 11 63 32 != 0 then some 11
  else if multi && (f 13 31 16 != 0 || f 13 15 0 == 0) then some 13
  else if f 16 63 0 = 0 ∨ f 16 4 0 ≠ 0 then some 16
  else none

/-- The receiver slots of a SXGOM, ascending (R255). -/
def receivers (set : Nat) : List Nat := (List.range 16).filter fun k => bitsOf set k k == 1

/-! ## A strip -/

/-- One movement of an element: its index, its locator dst(e) (R259), its source address with the half of its byte, none for a pad, and its
destination. -/
structure Move where
  element : Nat
  loc : Nat
  src : Option (Word × Bool)
  dst : Word × Bool
  deriving DecidableEq, Repr

/-- A signed stride times an index. -/
def strideTimes (x : Word) (i : Nat) : Word := x * Word.ofNat i

/-- The source of element `e` of strip (i1, i2) at a base, with elements of `bits` bits; none where R260 pads. -/
def Copy.source (c : Copy) (base : Word) (bits i1 i2 e : Nat) : Option (Word × Bool) :=
  let step := (c.reg 2).toInt
  if c.conv then
    let w := c.field 10 15 0
    let h := c.field 10 31 16
    let q := (c.reg 12).toNat + e
    let img := q / (h * w)
    let yy : Int := Int.ofNat (q / w % h) + toSigned 16 (c.field 11 31 16) + Int.ofNat i2
    let xx : Int := Int.ofNat (q % w) + toSigned 16 (c.field 11 15 0) + Int.ofNat i1
    if 0 ≤ yy ∧ yy < Int.ofNat h ∧ 0 ≤ xx ∧ xx < Int.ofNat w then
      some (elemAddress base (((Int.ofNat (img * h) + yy) * Int.ofNat w + xx) * step) bits)
    else none
  else some (elemAddress (base + strideTimes (c.reg 4) i2 + strideTimes (c.reg 3) i1) (Int.ofNat e * step) bits)

/-- The movements of strip `k`, element by element (R259 to R261). -/
def Copy.moves (c : Copy) (spbase : Word) (sbits dbits k : Nat) : List Move :=
  let i1 := k % max 1 (c.field 7 31 0)
  let i2 := k / max 1 (c.field 7 31 0)
  let dstBase := c.reg 1 + strideTimes (c.reg 6) i2 + strideTimes (c.reg 5) i1
  (List.range c.length).flatMap fun e =>
    let loc := (elemAddress dstBase (Int.ofNat e) dbits).1.toNat
    let dst (base : Word) : Word × Bool := elemAddress base (Int.ofNat e) dbits
    if c.multi then
      let slots := receivers (c.field 13 15 0)
      ((List.range slots.length).zip slots).flatMap fun p =>
        let d := spbase + Word.ofNat (p.2 * 0x200000) + dstBase
        ⟨e, loc, c.source (c.reg 0) sbits i1 i2 e, dst d⟩ ::
          if c.own then [⟨e, loc, c.source (c.reg 14 + strideTimes (c.reg 15) p.1) sbits i1 i2 e, dst (d + Word.ofNat (c.field 13 63 32))⟩] else []
    else [⟨e, loc, c.source (c.reg 0) sbits i1 i2 e, dst dstBase⟩]

/-- A pass of the streamer over one side's elements. -/
def Copy.side (c : Copy) (store : Bool) (base : Base) : Sweep :=
  { store := store, indexed := false, reg := 0, minor := 0, vt := c.vt, vl := c.vl, seed := c.seed, aligned := true, base := base, baseVa := 0
    planes := c.splane, prior := false, elems := [] }

/-- A failed check with the address that the fault record names (R263): that of the element or scale byte that failed, where TVAL has its
offset in the scratchpad windows (R217). -/
def namedStop (spbase : Word) (p : Stop) : Stop :=
  match p with
  | .trap t => if t.cause = 0x1C then .trap { t with tval := spbase + t.tval } else p
  | .wait => .wait

/-- What a movement needs, once checked: where its source is, and its destination. -/
abbrev Checked := Move × Option (Reached × Option Place) × (Reached × Option Place)

/-- The checks of one movement: its source, then its destination; the first in the order of R69 decides. -/
def State.checkMove (s : State) (src dst : Sweep) (m : Move) : State × Except Stop Checked :=
  let (s, a) : State × Except Stop (Option (Reached × Option Place)) :=
    match m.src with
    | none => (s, .ok none)
    | some x => match s.reachElem src x.1 with
      | (s, .ok r) => (s, .ok (some r))
      | (s, .error p) => (s, .error (namedStop s.hart.spbase p))
  match s.reachElem dst m.dst.1 with
  | (s, .ok b) => (s, a.map fun a => (m, a, b))
  | (s, .error q) =>
    let q := namedStop s.hart.spbase q
    (s, .error (match a with
      | .ok _ => q
      | .error p => firstStop p q))

/-- Every movement of a strip checked: all, or the first failing element with its failure (R262). -/
def State.checkMoves (s : State) (src dst : Sweep) : List Move → State × Except (Nat × Stop) (List Checked)
  | [] => (s, .ok [])
  | m :: rest =>
    let (s, r) := s.checkMove src dst m
    let (s, more) := s.checkMoves src dst rest
    (s, match r, more with
      | .ok x, .ok xs => .ok (x :: xs)
      | .ok _, .error f => .error f
      | .error p, .ok _ => .error (m.element, p)
      | .error p, .error (e, q) => if e = m.element then .error (e, firstStop p q) else .error (m.element, p))

/-- Whether a place lies in a mirror range of a context (R448). -/
def State.mirrored (s : State) (ctx : Nat) (p : Place) : Bool :=
  match p with
  | .phys a => (s.pkg.mirrors ctx).any fun m => decide (m.base ≤ a) && decide (a < m.base + m.size)
  | .pad _ _ => false

/-- One element read and put in VT format (R259): what its destination takes, and whether it is poisoned. -/
def State.readMove (s : State) (c : Copy) (src dst : Sweep) (x : Checked) : State × Got × Bool :=
  let m := x.1
  match m.src, x.2.1 with
  | some a, some r =>
    let s := s.eccAccess r.1.place ((elemBits src.base.fmt c.vt + 7) / 8)
    let (s, value) := s.elemValue src m.loc a.2 r.1.place r.2
    (s, dst.got 0 m.dst.1 m.dst.2 x.2.2 value, s.elemBad src r.1.place r.2)
  | _, _ => (s, dst.got 0 m.dst.1 m.dst.2 x.2.2 ((c.reg 9).toNat % 2 ^ (8 * vtBytes c.vt)), false)

/-- The elements of a strip read. -/
def State.readMoves (s : State) (c : Copy) (src dst : Sweep) : List Checked → State × List (Got × Bool)
  | [] => (s, [])
  | x :: rest =>
    let (s, g, bad) := s.readMove c src dst x
    let (s, more) := s.readMoves c src dst rest
    (s, (g, bad) :: more)

/-- A copy of the hart changed. -/
def State.modCopy (s : State) (id : Nat) (f : Copy → Copy) : State :=
  s.modHart fun h => { h with copies := h.copies.map fun c => if c.id = id then f c else c }

/-- The end of a copy (R262). -/
def State.endCopy (s : State) (id status : Nat) : State := s.modCopy id fun c => { c with ended := some status }

/-- The fault record of R263: cause and stage, address, strip and element. -/
def copyRecord (t : Trap) (op k e : Nat) : List Byte :=
  wordBytes (Word.ofNat (t.cause.toNat + t.stage * 256 + op * 65536)) ++ wordBytes t.tval ++ natToBytes k 8 ++ natToBytes e 8

/-- A failing strip (R262, R263): the record, then the end with status 1, or 2 where the record cannot be written. -/
def State.faultCopy (s : State) (c : Copy) (k e : Nat) (t : Trap) : State :=
  match s.access (c.reg 16) 32 .write with
  | (s, .ok r) => (s.perform ⟨r.place, copyRecord t c.op k e, false, false, false, s.hart.ctx, r.dirty, r.via, false⟩).endCopy c.id 1
  | (s, .error .wait) => s
  | (s, .error (.trap _)) => (s.endCopy c.id 2).fileEvent s.hart.ctx 0x09 (c.reg 16).toNat (s.hartSrc s.hart)

/-- A strip written (R262): each MX block once (R164), and poisoned elements as poisoned. Elements that fill an 8-byte word are one access,
the engine's unit (R305), which cleans a poisoned word (R314). -/
def State.writeStrip (s : State) (dst : Sweep) (gs : List (Got × Bool)) : State :=
  let s := (joinWords (fun _ => true) ((gs.filter fun g => g.1.mx.isNone).map fun g => g.1.pending dst s.hart)).foldl State.perform s
  let mx := gs.filterMap fun g => g.1.mxElem dst s.hart
  let s := s.mxStore mx.length mx
  gs.foldl (fun s g => if g.2 then s.poisonAt g.1.place ((elemBits dst.base.fmt dst.vt + 7) / 8) else s) s

/-- The next strip of a copy begun and ended (R262), after every earlier access of the hart (R266). -/
def State.runStrip (s : State) (c : Copy) : State :=
  let s := s.performLate.drainAll
  let n := c.length
  let (s, sb) := if n = 0 then (s, .window) else s.baseOf (c.reg 0)
  let (s, db) := if n = 0 || c.multi then (s, .window) else s.baseOf (c.reg 1)
  let src := c.side false sb
  let dst := c.side true db
  match s.checkMoves src dst (c.moves s.hart.spbase (elemBits sb.fmt c.vt) (elemBits db.fmt c.vt) c.strips) with
  | (s, .error (_, .wait)) => s
  | (s, .error (e, .trap t)) => s.faultCopy c c.strips e t
  | (s, .ok xs) =>
    let (s, gs) := s.readMoves c src dst xs
    let s := s.writeStrip dst gs
    let bad := gs.any (·.2)
    let sent := (gs.filter fun g => s.mirrored s.hart.ctx g.1.place).length
    s.modCopy c.id fun c => { c with
      strips := c.strips + 1, count := c.count + n, poisoned := c.poisoned || bad, unacked := c.unacked + sent
      ended := if c.strips + 1 < c.total then none else some (if c.poisoned || bad then 4 else 0) }

/-- A copy of the hart by its name. -/
def State.copy? (s : State) (id : Nat) : Option Copy := s.hart.copies.find? (fun c => c.id == id)

/-- COPY_STRIP (R262): a copy that SXABT has stopped ends at the strip boundary, with status 2 even if it has written poisoned elements, for
which the rule names 4 as well (DESIGN CHOICE, log 68). -/
def State.copyStrip (s : State) (id : Nat) : State :=
  match s.copy? id with
  | none => s
  | some c => if c.ended.isSome then s else if c.aborting then s.endCopy id 2 else s.runStrip c

/-- The status word of R76. -/
def statusWord (status op count : Nat) : Word := Word.ofNat (status * 2 ^ 48 + op % 65536 * 2 ^ 32 + count % 2 ^ 32)

/-- A token's status word written to its register, which is no longer pending; the token of a retired hart goes nowhere (R264). -/
def State.deliverToken (s : State) (token : Nat) (w : Word) : State :=
  if token = 0 then s
  else if s.hart.gone then s.modHart fun h => { h with pend := h.pend.filter (· != token) }
  else s.modHart fun h => { h.lateWrite (fun r => r.setP token w) with pend := h.pend.filter (· != token) }

/-- An operation of the hart's launch ended with status 4 (R404). -/
def State.notePoison (s : State) (status : Nat) : State :=
  match s.crew? s.hart.crew with
  | some c => if status = 4 then { s with launches := s.launches.map fun l => if l.id = c.launch then { l with poisoned := true } else l } else s
  | none => s

/-- The status of a copy that has ended: it has not before the neighbour has acknowledged every mirrored element (R448). -/
def Copy.status (c : Copy) : Option Nat := if c.unacked = 0 then c.ended else none

/-- COPY_COMPLETION (R264). -/
def State.copyDeliver (s : State) (id : Nat) : State :=
  match s.copy? id with
  | none => s
  | some c =>
    match c.status with
    | none => s
    | some st =>
      if c.delivered then s
      else ((s.notePoison st).deliverToken c.token (statusWord st c.op c.count)).modCopy id fun c => { c with delivered := true }

/-- A copy run to its end, unless it must wait; `fuel` bounds the strips. -/
def State.copyRun (s : State) (id : Nat) : Nat → State
  | 0 => s.copyDeliver id
  | fuel + 1 =>
    match s.copy? id with
    | none => s
    | some c =>
      if c.ended.isSome then s.copyDeliver id
      else
        let s' := s.copyStrip id
        match s'.copy? id with
        | none => s'
        | some c' => if c'.strips = c.strips && c'.ended.isNone then s' else s'.copyRun id fuel

/-- The oldest copy of the hart that the device itself can move on, moved on by one strip or by its completion. -/
def State.copyStep (s : State) : State :=
  match s.hart.copies.find? (fun c => !c.delivered && (c.ended.isNone || c.unacked == 0)) with
  | none => s
  | some c => if c.ended.isSome then s.copyDeliver c.id else s.copyStrip c.id

/-! ## The members -/

/-- SXW (R257). -/
def execSxw (e : Bool) (a : GReg) (b : BitVec 7) (s : State) : Out :=
  member e (settled s fun s => .ok (s.modHart fun h => { h with sx := Sparse.put zeroWord h.sx b.toNat (s.g a) }))

/-- SXR (R257). -/
def execSxr (e : Bool) (d : GReg) (b : BitVec 7) (s : State) : Out :=
  member e (settled s fun s => .ok (s.setG d (Sparse.get zeroWord s.hart.sx b.toNat)))

/-- The physical register that a token field names; field 0 names none (R258). -/
def Regs.tokenOf (r : Regs) (d : GReg) : Nat := if d = 0 then 0 else r.phys d

/-- A token made pending (R258, R264). -/
def State.pendToken (s : State) (token : Nat) : State := if token = 0 then s else s.modHart fun h => { h with pend := h.pend ++ [token] }

/-- SXGO and SXGOM (R258): the copy runs at once, or later when `State.hold` says so. -/
def startCopy (multi : Bool) (d a : GReg) (s : State) : Res :=
  let h := s.hart
  let open' := (h.copies.filter fun c => !c.delivered).length
  if open' ≥ 8 then .hold s.copyStep
  else match badControl h.sx multi with
    | some n => .trap (.own 0x03 (Word.ofNat n)) s
    | none =>
      let set := bitsOf (Sparse.get zeroWord h.sx 13).toNat 15 0
      match (if multi then (receivers set).find? fun k => (s.slotTeam? h.crew k).isNone else none) with
      | some k => .trap (.own 0x1C (Word.ofNat (k * 0x200000))) s
      | none =>
        let token := h.regs.tokenOf d
        let c : Copy := { id := s.nextId, sx := h.sx, vl := h.regs.vl, vt := h.regs.vt, seed := h.rseed, splane := h.splanes, multi := multi, token := token
                          op := (s.g a).toNat % 65536, strips := 0, count := 0, ended := none, delivered := false, unacked := 0
                          poisoned := false, aborting := false }
        let c := if c.total = 0 then { c with ended := some 0 } else c
        let s := ({ s with nextId := s.nextId + 1 }.pendToken token).modHart fun h =>
          { h with copies := (h.copies.filter fun (x : Copy) => !(x.delivered && (x.token == token || x.token == 0))) ++ [c] }
        let late := s.hold.headD false
        let s := { s with hold := s.hold.drop 1 }
        .ok (if late then s else s.copyRun c.id (c.total + 1))

def execSxgo (e : Bool) (d a : GReg) (s : State) : Out := member e (settled s fun s => startCopy false d a s)
def execSxgom (e : Bool) (d a : GReg) (s : State) : Out := member e (settled s fun s => startCopy true d a s)

/-- The copy that a token register names (R265): the outstanding one, else the last that ended. -/
def Hart.copyOf (h : Hart) (a : GReg) : Option Copy :=
  let mine := h.copies.filter fun c => a != 0 && c.token == h.regs.phys a
  (mine.find? fun c => c.status.isNone).orElse fun _ => mine.getLast?

/-- SXABT (R265). -/
def execSxabt (e : Bool) (a : GReg) (s : State) : Out :=
  member e (settled s fun s =>
    match s.hart.copyOf a with
    | some c => if c.ended.isNone then .ok (s.modCopy c.id fun c => { c with aborting := true }) else .ok s
    | none => .ok s)

/-- SXSTAT (R265). -/
def execSxstat (e : Bool) (d a : GReg) (s : State) : Out :=
  member e (settled s fun s =>
    match s.hart.copyOf a with
    | some c => .ok (s.setG d (statusWord (c.status.getD 0xFFFF) c.op c.count))
    | none => .ok (s.setG d 0))

/-! ## Events -/

/-- Whether a hart stands stopped in its frame: its engines have stopped with it (R172, R397, R412). -/
def Hart.inFrame (h : Hart) : Bool :=
  match h.run with
  | .reflected => true
  | .stopped => true
  | .preempted => true
  | .paging => true
  | .resuming => true
  | .frameFault _ _ => true
  | .withdrawn _ => true
  | _ => false

/-- Whether a context or an ancestor of it is frozen (R419). -/
def State.frozenCtx (s : State) (n : Nat) : Bool := (s.chain n).any fun c => s.pkg.frozen.contains c.num

/-- A hart whose engines run: it is not in its frame, its crew is in place and its context runs (R267, R412, R419). -/
def State.enginesRun (s : State) (h : Hart) : Bool :=
  !h.inFrame &&
  (s.chain h.ctx).all (fun c => c.state == .running && !s.pkg.frozen.contains c.num) &&
  (match s.crew? h.crew with
    | some c => c.resident
    | none => true)

/-- An action of an engine of hart `id`, where its engines run. -/
def State.onEngine (s : State) (id : Nat) (f : State → State) : State :=
  match s.harts.find? (fun h => h.id == id) with
  | some h => if s.enginesRun h then s.onHart id f else s
  | none => s

/-- COPY_STRIP (R262). -/
def execCopyStrip (hart copy : Nat) (s : State) : Out := event (s.onEngine hart fun s => s.copyStrip copy)

/-- COPY_COMPLETION (R264). -/
def execCopyCompletion (hart copy : Nat) (s : State) : Out := event (s.onEngine hart fun s => s.copyDeliver copy)

/-- MIRROR_ACK (R448): a neighbour acknowledges elements of a copy. -/
def execMirrorAck (copy count : Nat) (s : State) : Out :=
  event (s.mapHarts fun h => { h with copies := h.copies.map fun c => if c.id = copy then { c with unacked := c.unacked - count } else c })

end Sys2Proof.Machine
end

