-- ==== Sys2Proof/Machine/Trace.lean ====
section
/-!
DEFINITION. The trace recorders of the clusters and the sampling of vector members: what is recorded, how a recording stops, and the
records in memory (R279 to R284).
-/
namespace Sys2Proof.Machine

/-- The number of a cluster in the package. -/
def clusterIndex (die cluster : Nat) : Nat := die * 15 + cluster

/-- Frames of a trace SRAM (R279). -/
def traceFrames : Nat := 65536

def Recorder.ring (r : Recorder) : Bool := r.control.getLsbD 0
def Recorder.onBreak (r : Recorder) : Bool := r.control.getLsbD 1
def Recorder.stops (r : Recorder) : Bool := r.control.getLsbD 2

/-- The recorder of a crew. -/
def State.recorderOf (s : State) (crew : Nat) : Option Recorder := s.recorders.find? (fun r => r.crew == crew)

/-- A crew's recorder changed. -/
def State.modRecorder (s : State) (crew : Nat) (f : Recorder → Recorder) : State :=
  { s with recorders := s.recorders.map fun r => if r.crew = crew then f r else r }

/-- A recording stops (R283): with STOP, every hart of the crew but `except` is to trap at its next convoy head. -/
def State.stopTrace (s : State) (crew reason : Nat) (except : Option Nat) : State :=
  match s.recorderOf crew with
  | none => s
  | some r =>
    if r.stop.isSome then s
    else
      let s := s.modRecorder crew fun r => { r with stop := some (reason, if reason = 1 then r.start + traceFrames else s.pkg.cycle) }
      if r.stops then s.mapHarts fun h => if h.crew = crew ∧ !h.gone ∧ except ≠ some h.id then { h with breakDue := true } else h else s

/-- Recording stops of itself when its last frame is written without RING (R281). -/
def State.traceFull (s : State) (crew : Nat) : State :=
  match s.recorderOf crew with
  | some r => if !r.ring && decide (s.pkg.cycle ≥ r.start + traceFrames) then s.stopTrace crew 1 none else s
  | none => s

/-- BRKPT of the hart that steps (R281, R283). -/
def State.traceBreak (s : State) : State :=
  match s.recorderOf s.hart.crew with
  | some r => if r.onBreak then (s.traceFull s.hart.crew).stopTrace s.hart.crew 2 (some s.hart.id) else s
  | none => s

/-- An entry of kind 1 (R279): vector classes, members of the convoy, and its head. -/
def issueEntry (h : Hart) (what count : Nat) (head : Word) : Nat :=
  2 ^ 30 + h.hidx % 2 * 2 ^ 29 + what * 2 ^ 25 + (count - 1) % 8 * 2 ^ 22 + bitsOf head.toNat 23 2

/-- An entry of kind 3 (R279): a stall of a convoy for a reason. -/
def stallEntry (h : Hart) (reason count : Nat) (head : Word) : Nat :=
  3 * 2 ^ 30 + h.hidx % 2 * 2 ^ 29 + reason * 2 ^ 25 + (count - 1) % 8 * 2 ^ 22 + bitsOf head.toNat 23 2

/-- An entry of this cycle for the slot of a hart of a recording crew; the first convoy of a slot's hart is noted (R279, R282). -/
def State.traceEntry (s : State) (h : Hart) (entry : Nat) (head : Word) : State :=
  s.modRecorder h.crew fun r =>
    if r.stop.isSome || s.pkg.cycle < r.start then r
    else
      let f := s.pkg.cycle - r.start
      let key := 2 * h.slot + h.hidx
      { r with
        log := (f, h.slot, entry) :: r.log.filter (fun e => f < e.1 + traceFrames)
        heads := if r.heads.any fun e => e.1 == key then r.heads else r.heads ++ [(key, head)] }

/-- An issue of a hart of a recording crew (R279). -/
def State.traceIssue (s : State) (h : Hart) (what count : Nat) (head : Word) : State := s.traceEntry h (issueEntry h what count head) head

/-- A stall of a hart of a recording crew (R279). An issue in the same cycle stays. -/
def State.traceStall (s : State) (h : Hart) (reason count : Nat) (head : Word) : State :=
  if (s.recorderOf h.crew).any fun r => r.log.any fun e => e.1 + r.start == s.pkg.cycle && e.2.1 == h.slot then s
  else s.traceEntry h (stallEntry h reason count head) head

/-- Cycles after `since` up to now have passed: recordings whose crews are not resident note them (R279), and full ones stop (R281). -/
def State.traceTime (s : State) (since : Nat) : State :=
  let note (r : Recorder) : Recorder :=
    if r.stop.isNone && (s.crew? r.crew).any (fun c => !c.resident) then { r with away := (since + 1, s.pkg.cycle) :: r.away } else r
  s.recorders.foldl (fun s r => s.traceFull r.crew) { s with recorders := s.recorders.map note }

/-- Frames that a recording has written, and how many of them are valid. -/
def Recorder.written (r : Recorder) (cycle : Nat) : Nat :=
  match r.stop with
  | some (_, c) => c - r.start
  | none => cycle - r.start
def Recorder.valid (r : Recorder) (cycle : Nat) : Nat := min traceFrames (r.written cycle)

/-- Occupied slots of a crew's grid (R269). -/
def Crew.slots (c : Crew) : List Nat := (List.range 16).filter fun k => decide (k / 4 < c.rows) && decide (k % 4 < c.cols)

/-- The entry of a cycle that no step of the model stands in (R279): no issue, or an issue or a stall of the convoy that the slot's nearest
entry `e` names; `x` is free. -/
def idleEntry (e : Option Nat) (x : Word) : Nat :=
  match e, bitsOf x.toNat 1 0 with
  | some y, 1 => 2 ^ 30 + bitsOf x.toNat 5 2 * 2 ^ 25 + bitsOf y 29 29 * 2 ^ 29 + bitsOf y 24 0
  | some y, 3 => 3 * 2 ^ 30 + bitsOf x.toNat 4 2 * 2 ^ 25 + bitsOf y 29 29 * 2 ^ 29 + bitsOf y 24 0
  | _, _ => 0

/-- The entry of slot `k` in frame `f` (R279): kind 2 while the crew was out, what a step recorded, or that of a cycle between, of the convoy
recorded last before it or first after it. `x` is free. -/
def Recorder.entry (r : Recorder) (f k : Nat) (x : Word) : Nat :=
  let mine := r.log.filter fun e => e.2.1 == k
  if r.away.any fun w => decide (w.1 ≤ r.start + f) && decide (r.start + f ≤ w.2) then 2 ^ 31
  else match mine.find? fun e => e.1 == f with
    | some e => e.2.2
    | none =>
      let before := mine.find? fun e => decide (e.1 < f)
      let after := (mine.filter fun e => decide (f < e.1)).getLast?
      idleEntry ((if x.getLsbD 8 then before <|> after else after <|> before).map (·.2.2)) x

/-- Frame `f` as 64 bytes; `d` numbers its free values. -/
def Recorder.frame (r : Recorder) (slots : List Nat) (d f : Nat) : List Byte :=
  (List.range 16).flatMap fun k => natToBytes (if slots.contains k then r.entry f k (Config.freeWord (d + 16 * f + k)) else 0) 4

/-- The dump's image (R282): the header, then the valid frames, oldest first. -/
def Recorder.image (r : Recorder) (slots : List Nat) (d cycle : Nat) : List Byte :=
  let n := r.valid cycle
  let first := r.written cycle - n
  let reason := (r.stop.map (·.1)).getD 0
  natToBytes n 8 ++ natToBytes r.start 8 ++ natToBytes reason 8 ++ List.replicate 0xE8 0 ++
    ((List.range 32).flatMap fun k => wordBytes (((r.heads.find? fun e => e.1 == k).map (·.2)).getD 0)) ++
    (List.range n).flatMap fun f => r.frame slots d (first + f)

/-- Bytes cut into parts of 256. -/
def chunksOf : Nat → List Byte → List (List Byte)
  | 0, _ => []
  | _ + 1, [] => []
  | fuel + 1, xs => xs.take 256 :: chunksOf fuel (xs.drop 256)

/-- A record of a completed sample (R284): the cycle counts of the lane groups are free values. -/
def sampleRecord (d : Nat) (head info : Word) (elems : List Nat) : List Byte :=
  wordBytes head ++ wordBytes info ++ (List.range 4).flatMap fun g => natToBytes (Config.freeWord (d + g)).toNat 8 ++ natToBytes (elems.getD g 0) 4

end Sys2Proof.Machine
end

