-- ==== Sys2Proof/Machine/Cluster.lean ====
section
/-!
DEFINITION. The cluster: barriers (R271 to R277), COORD (R278), the trace members (R281, R282) and SAMP (R284), with their events.
-/
namespace Sys2Proof.Machine

/-! ## Barriers -/

/-- Whether a hart has an arrival pending whose phase is open as the hart sees it (R274): a completion on its way has not reached it
(R273). No participant arrives meanwhile, so every pending arrival is of that phase. -/
def Hart.openArrival (h : Hart) (c : Crew) (t : Nat) : Bool :=
  h.counted c t || (Sparse.get clearBit h.arrived t && Sparse.get zeroNat c.due t != 0)

/-- A completion reaches the participants (R273); not while the crew is out (R276). -/
def State.deliverPhase (s : State) (crew t : Nat) : State :=
  match s.crew? crew with
  | none => s
  | some c =>
    let due := Sparse.get zeroNat c.due t
    if c.resident && due != 0 && decide (due ≤ s.pkg.cycle) then
      s.modCrew crew fun c => { c with due := Sparse.put zeroNat c.due t 0 }
    else s

/-- BARRIER_PHASE_COMPLETE (R273). -/
def execBarrierPhaseComplete (crew : Nat) (tag : BitVec 3) (s : State) : Out :=
  event ((s.settlePhase crew tag.toNat).deliverPhase crew tag.toNat)

/-- An arrival of the hart (R274). -/
def State.arrive (s : State) (t : Nat) : State :=
  match s.crew? s.hart.crew with
  | none => s
  | some c =>
    let s := s.modCrew c.id fun c => { c with count := Sparse.put zeroNat c.count t (Sparse.get zeroNat c.count t + 1) }
    (s.modHart fun h => { h with
      arrived := Sparse.put clearBit h.arrived t true, arrivedGen := Sparse.put zeroNat h.arrivedGen t (Sparse.get zeroNat c.gen t) }).settlePhase c.id t

/-- Whether the phase of the hart's arrival is open. -/
def State.phaseOpen (s : State) (t : Nat) : Bool :=
  match s.crew? s.hart.crew with
  | some c => s.hart.openArrival c t
  | none => false

/-- A barrier member that waits: a stop of the trace takes the hart there (R283). -/
def waitAtBarrier (s : State) : Res :=
  if s.hart.breakDue then .trap (.own 0x18 0) (s.modHart fun h => { h with breakDue := false }) else .hold s

/-- The wait and the end of BARR and BARW (R274). With a scope other than 0 the hart has synchronised with every participant: it reads no
value any more that was overwritten before an arrival (R275, R309). -/
def awaitPhase (scope t : Nat) (s : State) : Res :=
  if s.phaseOpen t then waitAtBarrier s
  else .ok ((if scope = 0 then s else s.synced).modHart fun h => { h with arrived := Sparse.put clearBit h.arrived t false })

/-- BARR, BARW and BARA (R274): `arrives` and `waits` tell them apart. -/
def barrier (arrives waits : Bool) (e : Bool) (scope tag : BitVec 3) (s : State) : Out :=
  let t := tag.toNat
  member e (settled s fun s =>
    let held := match s.crew? s.hart.crew with
      | some c => c.holds t
      | none => false
    if !held then .trap (.own 0x1D (Word.ofNat t)) s
    else
      let s := (s.settlePhase s.hart.crew t).deliverPhase s.hart.crew t
      if arrives && s.hart.elix == 0 then
        if s.phaseOpen t then waitAtBarrier s
        else
          let s := if scope = 0 then s else s.drain fun q => q.vector
          let s := s.arrive t
          if waits then awaitPhase scope.toNat t (s.modHart fun h => { h with elix := 1 }) else .ok s
      else if waits then awaitPhase scope.toNat t s
      else .ok s)

def execBarr (e : Bool) (c t : BitVec 3) (s : State) : Out := barrier true true e c t s
def execBarw (e : Bool) (c t : BitVec 3) (s : State) : Out := barrier false true e c t s
def execBara (e : Bool) (c t : BitVec 3) (s : State) : Out := barrier true false e c t s

/-! ## COORD -/

/-- The launch of the hart's crew. -/
def State.launch? (s : State) (id : Nat) : Option Launch := s.launches.find? (fun l => l.id == id)

/-- What COORD gives for a selector (R278). -/
def State.coord (s : State) (sel : Nat) (x : Word) : Word :=
  match s.crew? s.hart.crew with
  | none => 0
  | some c =>
    match sel with
    | 0 => Word.ofNat ((c.slots.map fun k => 2 ^ (16 + k)).foldl (· + ·) 0 + (c.rows - 1) * 2 ^ 10 + (c.cols - 1) * 2 ^ 8 + (c.hartsPerTeam - 1))
    | 1 => match s.launch? c.launch with
      | some l => Word.ofNat ((l.stages - 1) * 2 ^ 16 + (l.crewsPerStage - 1) * 2 ^ 8)
      | none => 0
    | 2 => if c.slots.contains x.toNat then s.hart.spbase + x * 0x200000 else 0
    | 3 => zextWord c.tags
    | _ => 0

/-- COORD (R278). -/
def execCoord (e : Bool) (d a : GReg) (sel : BitVec 7) (s : State) : Out :=
  member e (settled s fun s => .ok (s.setG d (s.coord sel.toNat (s.g a))))

/-! ## Trace members -/

/-- What ECC finds in a frame word of a dump (R285): an error goes out as a poisoned word. -/
def State.sramWord (s : State) (p : Place) : State :=
  match s.ecc with
  | .uncorrectable :: rest => { s with ecc := rest }.poisonAt p 8
  | _ => { s with ecc := s.ecc.drop 1 }

/-- What ECC finds in the `bytes` bytes of frames of a dump, chunk by chunk and word by word. -/
def State.sramErrors (s : State) : Nat → List Place → State
  | _, [] => s
  | bytes, p :: ps =>
    if s.ecc.isEmpty then s
    else ((List.range (min 256 bytes / 8)).foldl (fun s j => s.sramWord (p.add (8 * j))) s).sramErrors (bytes - 256) ps

/-- The dump of a crew's recording written, and its token (R282), whose op field is 0: no issuer supplies one (DESIGN CHOICE, log 35). An
error in the SRAM goes out as poison (R285). -/
def State.traceDump (s : State) (crew : Nat) : State :=
  match s.recorderOf crew, s.crew? crew with
  | some r, some c =>
    match r.dump with
    | none => s
    | some d =>
      s.onHart d.hart fun s =>
        let (s, n) := s.performLate.drainAll.drawMany (16 * (r.written s.pkg.cycle + 1))
        let image := r.image c.slots n s.pkg.cycle
        let s := s.setDirty s.hart.ctx d.dirty
        let s := (d.places.zip (chunksOf d.places.length image)).foldl (fun s x => s.perform ⟨x.1, x.2, false, false, false, s.hart.ctx, [], d.via, false⟩) s
        let s := s.sramErrors (image.length - 512) (d.places.drop 2)
        let s := { s with recorders := s.recorders.filter fun x => x.crew != crew }
        s.deliverToken d.token (statusWord 0 0 image.length)
  | _, _ => s

/-- TRON (R281). -/
def execTron (e : Bool) (d a : GReg) (s : State) : Out :=
  member e (settled s fun s =>
    let w := s.g a
    let crew := s.hart.crew
    match s.crew? crew with
    | none => .ok s
    | some c =>
      let busy := s.recorders.any fun r => r.die == c.die && r.cluster == c.cluster && r.crew != crew && (s.crew? r.crew).isSome
      if w.toNat ≥ 8 then .trap (.own 0x03 w) s
      else if busy then .ok (s.setG d 1)
      else
        let s := s.traceDump crew
        let r : Recorder := { die := c.die, cluster := c.cluster, crew := crew, control := w, start := s.pkg.cycle + 1, stop := none, log := [], away := [], heads := [], dump := none }
        .ok ({ s with recorders := r :: s.recorders.filter fun x => x.crew != crew && (s.crew? x.crew).isSome }.setG d 0))

/-- The chunks of a dump of `size` bytes at `va`, as units to be checked (R282, R242). -/
def dumpUnits (va : Word) (size : Nat) : List (Nat × Word × Unit') :=
  (List.range (ceilDiv size 256)).map fun k => (k, va + Word.ofNat (256 * k), [(256 * k, va + Word.ofNat (256 * k), min 256 (size - 256 * k))])

/-- TROFF (R282): the dump is written at once, or later when `State.hold` says so. -/
def execTroff (e : Bool) (d a : GReg) (s : State) : Out :=
  member e (settled s fun s =>
    let va := s.g a
    let token := s.hart.regs.tokenOf d
    if va.toNat % 256 ≠ 0 then .trap (.own 0x06 va) s
    else
      let s := s.traceFull s.hart.crew
      match s.recorderOf s.hart.crew with
      | none => .ok (s.deliverToken token (statusWord 2 0 0))
      | some r =>
        if r.dump.isSome then .hold (s.traceDump s.hart.crew)
        else
          let size := 512 + 64 * r.valid s.pkg.cycle
          let (s, base) := s.baseOf va
          match s.checkUnits true false (base.rowWant 0) 256 (dumpUnits va size) with
          | (s, some (_, p), _) => p.res s
          | (s, none, ps) =>
            let s := s.stopTrace s.hart.crew 0 none
            let s := (s.modRecorder s.hart.crew fun r => { r with dump := some ⟨s.hart.id, token, ps.map (·.2.1.place), ps.flatMap (·.2.1.dirty), ps.flatMap (·.2.1.via)⟩ }).pendToken token
            let late := s.hold.headD false
            let s := { s with hold := s.hold.drop 1 }
            .ok (if late then s else s.traceDump s.hart.crew))

/-- TRACE_DUMP_COMPLETE (R282): of the cluster of that number. -/
def execTraceDumpComplete (cluster : Nat) (s : State) : Out :=
  event (match s.recorders.find? (fun r => clusterIndex r.die r.cluster == cluster && r.dump.isSome) with
    | some r => s.traceDump r.crew
    | none => s)

/-- TRACE_FULL_STOP (R281): of the cluster of that number. -/
def execTraceFullStop (cluster : Nat) (s : State) : Out :=
  event (match s.recorders.find? (fun r => clusterIndex r.die r.cluster == cluster && r.stop.isNone) with
    | some r => s.traceFull r.crew
    | none => s)

/-! ## Sampling -/

/-- The armed sample ends without a record (R284). -/
def State.dropSample (s : State) : State :=
  match s.hart.sample with
  | none => s
  | some x => (s.modHart fun h => { h with sample := none }).deliverToken x.token (statusWord 2 0 0)

/-- The record of a completed sample written, then its status (R284), whose op field is 0: no issuer supplies one (DESIGN CHOICE, log 35). -/
def State.writeSample (s : State) : State :=
  match s.hart.sample with
  | none => s
  | some x =>
    match x.stage with
    | .armed => s
    | .lost => s.dropSample
    | .done true _ _ _ => s
    | .done false head info elems =>
      let (s, n) := s.drawMany 4
      let s := s.perform ⟨x.place, sampleRecord n head info elems, false, false, false, s.hart.ctx, x.dirty, x.via, false⟩
      (s.modHart fun h => { h with sample := none }).deliverToken x.token (statusWord 0 0 64)

/-- The armed sample ends as its hart retires (R284): a completed record that is still to be written is written. -/
def State.endSample (s : State) : State :=
  match s.hart.sample.map fun (x : Sample) => x.stage with
  | some (Sampling.done _ _ _ _) => (s.modHart fun h => { h with sample := h.sample.map Sample.settle }).writeSample
  | _ => s.dropSample

/-- SAMP (R284). -/
def execSamp (e : Bool) (d a : GReg) (s : State) : Out :=
  member e (settled s fun s =>
    let va := s.g a
    if va.toNat % 64 ≠ 0 then .trap (.own 0x06 va) s
    else
      let (s, base) := s.baseOf va
      match s.access va 64 .write (some (base.rowWant 0)) with
      | (s, .error p) => p.res s
      | (s, .ok r) =>
        let token := s.hart.regs.tokenOf d
        let s := (match s.hart.sample with
          | some x => (match x.stage with
            | .done _ _ _ _ => s.writeSample
            | _ => s.dropSample)
          | none => s)
        .ok ((s.pendToken token).modHart fun h => { h with sample := some ⟨r.place, r.dirty, r.via, token, .armed⟩ }))

/-- SAMPLE_RECORD_WRITE (R284). -/
def execSampleRecordWrite (hart : Nat) (s : State) : Out := event (s.onEngine hart State.writeSample)

/-- Elements that a member completes from ELIX on, by lane group (R284): 8 lanes of 8 bytes to a group, 4 groups to a row. -/
def Hart.groupCounts (h : Hart) (m : Bool) : List Nat :=
  (List.range 4).map fun g => (h.elements.filter fun i => h.active m i && i * h.width / 64 % 4 == g).length

end Sys2Proof.Machine
end

