-- ==== Sys2Proof/Machine/Placement.lean ====
section
/-!
DEFINITION. Who stands where: harts that have ended, units that are free, what a context has left of each resource (R387, R388), and the
end of a hart, a team and a crew (R65, R98, R233, R271).
-/
namespace Sys2Proof.Machine

/-! ## Ended harts, teams and crews -/

/-- Whether an engine operation of the hart is outstanding (R319, R404): a dump of the trace is ordered like a copy (R282). -/
def State.enginesBusy (s : State) (h : Hart) : Bool :=
  !h.matrix.isEmpty || (h.gathers.any fun g => g.performed.isNone) || (h.copies.any fun c => !c.delivered) || (h.colls.any fun c => !c.delivered) ||
    s.recorders.any fun r => r.dump.any fun d => d.hart == h.id

/-- Whether a hart has stopped for good and everything it forked has ended (R404). -/
def State.finished (s : State) (h : Hart) : Bool := h.gone && h.stores.isEmpty && !s.enginesBusy h

/-- Whether a team still has a hart that is not finished. -/
def State.teamLives (s : State) (t : Team) : Bool := s.harts.any fun h => h.crew == t.crew && h.slot == t.slot && !s.finished h

/-- A hart that has not ended brought into focus in place of one that has, where there is one. -/
def State.leaveFinished (s : State) : State :=
  if s.finished s.hart then
    match s.others.find? (fun h => !s.finished h) with
    | some h => s.focus h.id
    | none => s
  else s

/-- Finished harts leave, and with them teams that have no other and crews that have no other team: their units are free and their tags
are held no more (R271). Its slot then counts as one where no team is placed (R217; DESIGN CHOICE, log 64). -/
def State.reap (s : State) : State :=
  let s := s.leaveFinished
  let s := { s with others := s.others.filter fun h => !s.finished h }
  let s := { s with teams := s.teams.filter s.teamLives }
  { s with crews := s.crews.filter fun c => s.teams.any fun t => t.crew == c.id }

/-- A hart that is to stop for good stops (R65, R98): its stores are performed, its sample ends with its record if its member has completed (R284), its claims are released once its
queue is empty (R233), it counts toward its launch, and its frame is free (R415). A handler hart leaves the frame that it serves
stopped (R397). Where the frame access fails, it stays (R416). -/
def State.finishStop (s : State) : State :=
  let halts := s.hart.run == .halting
  let s := s.performLate.drainAll
  if s.storesStuck then s else
  if !s.hart.matrix.isEmpty then s.matrixStep
  else match s.setFrameState s.hart 0 with
  | .error s => s.frameFault (if halts then .halt else .retire)
  | .ok s =>
    let s := s.endSample
    let s := (s.countStop halts false).modHart fun h => { h with run := if halts then .halted else .retired, watch := none, session := none }
    let me := s.hart
    let s := match s.slotTeam? me.crew me.slot with
      | some t => s.modTeam t.id fun t => { t with tiles := t.tiles.map fun (x : Tile) => if x.claim == some me.id then Tile.empty else x }
      | none => s
    let s := if halts then s.fileEvent me.ctx 0x04 0 (s.hartSrc me) else s
    let s := match me.serves with
      | some n => s.mapHarts fun (h : Hart) => if h.id = n ∧ h.run = Run.reflected then { h with run := Run.stopped } else h
      | none => s
    (s.settlePhases me.crew).reap

/-- HART_RETIRE (R65): the hart stops where it is due to. -/
def execHartRetire (hart : Nat) (s : State) : Out :=
  event (s.onEngine hart fun s => if s.hart.run = .retiring ∨ s.hart.run = .halting then s.finishStop else s)

/-! ## Units -/

/-- Whether two units share a part of a core (R208). -/
def CoreUnit.overlaps (u v : CoreUnit) : Bool :=
  u.die == v.die && u.cluster == v.cluster && u.core == v.core && (u.eighths == 0 || v.eighths == 0 || u.half == v.half)

/-- The teams that occupy a part of a unit. -/
def State.occupants (s : State) (u : CoreUnit) : List Team := s.teams.filter fun t => t.resident && t.core.overlaps u && s.teamLives t

/-- Whether a unit is free. -/
def State.unitFree (s : State) (u : CoreUnit) : Bool := (s.occupants u).isEmpty

/-- Rows and scratchpad bytes of a team of one hart on a unit (R209, R211, R216). -/
def CoreUnit.rows (u : CoreUnit) : Nat := if u.eighths = 0 then 1024 else 128 * u.eighths
def CoreUnit.pad (u : CoreUnit) (big : Bool) : Nat := (if big then 0x180000 else 0x100000) / if u.eighths = 0 then 1 else 2

/-- The crews that stand on a unit are to be pre-empted (R388). -/
def State.vacate (s : State) (u : CoreUnit) : State :=
  let gone := (s.occupants u).map (·.crew)
  { s with crews := s.crews.map fun c => if gone.contains c.id && c.resident then { c with preempting := true } else c }

/-! ## What a context has -/

/-- The children of a context that are not revoked. -/
def State.childrenOf (s : State) (n : Nat) : List Ctx := s.ctxs.filter fun c => c.parent == some n && c.state != .revoked

/-- A sum over the children. -/
def State.passedOn (s : State) (n : Nat) (f : Ctx → Nat) : Nat := ((s.childrenOf n).map f).foldl (· + ·) 0

/-- Route tags of a cluster that a context holds: received and not passed on (R387). -/
def State.tagsHeld (s : State) (c : Ctx) (cluster : Nat) : Nat :=
  (s.childrenOf c.num).foldl (fun m k => m - (m &&& Sparse.get zeroNat k.grantedTags cluster)) (Sparse.get zeroNat c.grantedTags cluster)

/-- Route tags of a cluster that a crew in place holds (R271), of any context. -/
def State.tagsInUse (s : State) (cluster : Nat) : Nat :=
  (s.crews.filter fun c => c.resident && clusterIndex c.die c.cluster == cluster).foldl (fun m c => m ||| c.tags.toNat) 0

/-- The bits of a mask. -/
def bitCount (m : Nat) : Nat := ((List.range 8).filter fun k => bitsOf m k k == 1).length

/-- Tags over all clusters. -/
def tagCount (m : Sparse Nat) : Nat := (m.map fun e => bitCount e.2).foldl (· + ·) 0

/-- The amount granted of a kind (R387, R394): units and tags are counted. -/
def Ctx.amount (c : Ctx) (kind : Nat) : Nat :=
  match kind with
  | 0 => c.memory
  | 1 => c.granted.length
  | 2 => tagCount c.grantedTags
  | 3 => c.queues
  | 4 => c.children
  | 5 => c.objects
  | _ => c.ceiling

/-- What a context has in use of a kind (R387). -/
def State.inUse (s : State) (c : Ctx) (kind : Nat) : Nat :=
  match kind with
  | 1 => (s.teams.filter fun t => t.resident && s.teamLives t && s.crews.any fun x => x.id == t.crew && x.ctx == c.num).length
  | 2 => ((s.crews.filter fun x => x.resident && x.ctx == c.num).map fun x => bitCount x.tags.toNat).foldl (· + ·) 0
  | 3 => (s.queues.filter fun q => q.ctx == c.num).length
  | 4 => (s.childrenOf c.num).length
  | 5 => (s.objs.filter fun o => o.ctx == c.num).length
  | _ => 0

/-- The remaining amount of a kind (R387); kind 6 is the ceiling. -/
def State.remaining (s : State) (c : Ctx) (kind : Nat) : Nat :=
  if kind ≥ 6 then c.ceiling else c.amount kind - s.passedOn c.num (fun k => k.amount kind) - s.inUse c kind

/-- Whether a unit's core or cluster has failed (R227, R285). -/
def State.broken (s : State) (u : CoreUnit) : Bool :=
  s.pkg.failedCores.contains (u.die, u.cluster, u.core) || s.pkg.failedClusters.contains (u.die, u.cluster)

/-- A unit enters a placement map (R388): a cluster new to the context takes its next number. -/
def Ctx.addUnit (c : Ctx) (u : CoreUnit) : Ctx :=
  { c with
    units := c.units ++ [u]
    clusters := if c.clusters.contains (u.die, u.cluster) then c.clusters else c.clusters ++ [(u.die, u.cluster)] }

end Sys2Proof.Machine
end

