-- ==== Sys2Proof/Machine/Contexts.lean ====
section
/-!
DEFINITION. Recursive contexts: control blocks (R386, R377, R378), CTXNEW, CTXGRANT, CTXREVOKE, CTXRUN, CTXINFO and TRAPUP (R389 to
R395), and a Function Level Reset (R396).
-/
namespace Sys2Proof.Machine

/-! ## Naming contexts -/

/-- The context that a handle names; a revoked one until its number is taken again (R392). -/
def State.byHandle (s : State) (h : Word) : Option Ctx := s.ctxs.find? fun c => h.toNat == c.handle

/-- The context of the hart that steps. -/
def State.issuer (s : State) : Option Ctx := s.ctx? s.hart.ctx

/-- Whether context `n` is a proper descendant of `root`. -/
def State.descends (s : State) (root n : Nat) : Bool := n != root && s.inSubtree root n

/-- A member's first checks of a handle (R391 to R393): it names what `ok` asks for, and is not revoked. -/
def namedCtx (h : Word) (ok : State → Ctx → Bool) (s : State) (go : Ctx → State → Res) : Res :=
  match s.byHandle h with
  | none => .trap (.own 0x03 h) s
  | some c => if !ok s c then .trap (.own 0x03 h) s else if c.state = .revoked then .trap (.own 0x17 h) s else go c s

/-- Whether a context is a child of the issuer. -/
def isChild (s : State) (c : Ctx) : Bool := c.parent == some s.hart.ctx

/-- Whether a context is a descendant of the issuer. -/
def isDescendant (s : State) (c : Ctx) : Bool := s.descends s.hart.ctx c.num

/-! ## Control blocks -/

/-- 8-byte words read as scalar loads (R87), or the first that fails. -/
def State.loadWords (s : State) (a : Word) : Nat → State × Except Stop (List Nat)
  | 0 => (s, .ok [])
  | n + 1 =>
    match s.scalarLoad a 8 with
    | (s, .error p) => (s, .error p)
    | (s, .ok x) =>
      match s.loadWords (a + 8) n with
      | (s, .error p) => (s, .error p)
      | (s, .ok xs) => (s, .ok (x :: xs))

/-- A power of two in a range. -/
def powerIn (n lo hi : Nat) : Bool := decide (lo ≤ n) && decide (n ≤ hi) && n == 2 ^ Nat.log2 n

/-- Whether the fields of a CCB keep R386 and R431, for an issuer. -/
def ccbLegal (issuer : Ctx) (w : List Nat) : Bool :=
  let f (k hi lo : Nat) : Nat := bitsOf (w.getD k 0) hi lo
  let native := f 0 0 0 == 0
  f 0 63 2 == 0 && (!native || f 1 15 0 == 0) && f 4 63 8 == 0 && f 4 7 0 ≤ 64 && f 5 1 0 == 0 && f 6 0 0 == 0 && f 6 63 32 == 0 &&
    f 7 63 55 == 0 && 4 ≤ f 7 7 0 && f 7 7 0 ≤ 16 && (f 0 1 1 == 0 || powerIn (w.getD 9 0) 16 65536) && w.getD 11 0 ≤ issuer.ceiling &&
    f 12 63 21 == 0 && f 13 63 17 == 0 && f 13 14 6 == 0 && (f 13 16 16 == 0 || issuer.parent.isNone) &&
    (f 4 7 0 == 0 || w.getD 14 0 % 16 == 0) && (w.drop 15).all (· == 0)

/-- Whether a format descriptor keeps R377. -/
def formatLegal (w : List Nat) : Bool :=
  let f (k hi lo : Nat) : Nat := bitsOf (w.getD k 0) hi lo
  w.getD 3 0 == 0 && f 2 5 0 ≤ f 2 13 8 && f 2 63 17 == 0 && f 1 7 7 == 1 && f 1 63 56 == 0 &&
    2 ≤ f 0 2 0 && f 0 2 0 ≤ 5 && 12 ≤ f 0 11 4 && f 0 11 4 ≤ 16 && 9 ≤ f 0 19 16 && f 0 19 16 ≤ 13 && f 0 63 32 == 0 &&
    f 0 2 0 * f 0 19 16 + f 0 11 4 ≤ 55

/-- Overlay entries from their words (R378). -/
def overlayOf : List Nat → List Overlay
  | r :: a :: rest => ⟨bitsOf r 54 16 * 65536, (bitsOf r 63 55 + 1) * 65536, Word.ofNat a⟩ :: overlayOf rest
  | _ => []

/-- Whether the attr fields of overlay entries keep their zeros. -/
def overlayZeros (es : List Overlay) : Bool := es.all fun e => bitsOf e.attr.toNat 63 16 == 0 && bitsOf e.attr.toNat 3 0 == 0

/-- Whether overlay entries are sorted by base and do not overlap. -/
def overlaySorted : List Overlay → Bool
  | a :: b :: rest => decide (a.base + a.size ≤ b.base) && overlaySorted (b :: rest)
  | _ => true

/-- The child that a CCB describes (R390). -/
def childOf (issuer : Ctx) (n : Nat) (w fmt : List Nat) (overlay : List Overlay) : Ctx :=
  let x (k : Nat) : Nat := w.getD k 0
  { num := n, parent := some issuer.num, depth := issuer.depth + 1, state := .held
    stage := ⟨bitsOf (x 0) 0 0 == 1, bitsOf (x 0) 1 1 == 1, x 1, Word.ofNat (fmt.getD 0 0), Word.ofNat (fmt.getD 1 0), Word.ofNat (fmt.getD 2 0), overlay⟩
    tvec := Word.ofNat (x 5), enable := Word.ofNat (x 6), ring := Word.ofNat (x 7), prqBase := x 8, prqCount := x 9, prqHead := 0
    frames := x 10, ceiling := x 11, pasid := Word.ofNat (x 12), vf := Word.ofNat (x 13), memory := 0, queues := 0, children := 0
    objects := 0, units := [], clusters := [], granted := [], grantedTags := [], corrected := 0 }

/-- The first number from `k` on that no context has; `fuel` bounds the search. -/
def freeNumber (used : List Nat) : Nat → Nat → Nat
  | 0, k => k
  | fuel + 1, k =>
    let n := k % 65535 + 1
    if used.contains n then freeNumber used fuel (k + 1) else n

/-- A context number taken again: the revoked context that had it goes, and what descended from it hangs from its parent (R392). -/
def State.forgetCtx (s : State) (n : Nat) : State :=
  let up := (s.ctx? n).bind (·.parent)
  { s with ctxs := (s.ctxs.filter fun c => c.num != n).map fun c => if c.parent = some n then { c with parent := up } else c }

/-- A child created (R390). Which free number it takes the spec leaves open: a free value. -/
def createChild (d : GReg) (issuer : Ctx) (w fmt : List Nat) (overlay : List Overlay) (s : State) : Res :=
  if s.remaining issuer 4 = 0 then .trap (.own 0x16 1) s
  else
    let used := (s.ctxs.filter fun c => c.state != .revoked).map (·.num)
    if used.length ≥ 65535 then .ok (s.setG d 0)
    else
      let (s, k) := s.draw
      let n := freeNumber used (used.length + 1) (Config.freeChoice k)
      let child := childOf issuer n w fmt overlay
      let s := s.forgetCtx n
      .ok ({ s with ctxs := s.ctxs ++ [child] }.setG d (Word.ofNat child.handle))

/-- CTXNEW once privileged (R390). -/
def newContext (d : GReg) (a : Word) (s : State) : Res :=
  match s.issuer with
  | none => .ok s
  | some issuer =>
    if a.toNat % 256 ≠ 0 then .trap (.own 0x06 a) s
    else match s.loadWords a 32 with
      | (s, .error p) => p.res s
      | (s, .ok w) =>
        if !ccbLegal issuer w then .trap (.own 0x03 a) s
        else
          let host := bitsOf (w.getD 0 0) 0 0 == 1
          match (if host then s.loadWords (Word.ofNat (w.getD 2 0)) 4 else (s, .ok [])) with
          | (s, .error p) => p.res s
          | (s, .ok fmt) =>
            if host && !formatLegal fmt then .trap (.own 0x03 a) s
            else
              let base := Word.ofNat (w.getD 14 0)
              match s.loadWords base (2 * bitsOf (w.getD 4 0) 7 0) with
              | (s, .error p) => p.res s
              | (s, .ok rs) =>
                if !overlayZeros (overlayOf rs) then .trap (.own 0x03 a) s
                else if !overlaySorted (overlayOf rs) then .trap (.own 0x03 base) s
                else createChild d issuer w fmt (overlayOf rs) s

/-- The issuer's word, for the privileged trap of a CTX member (R389). -/
def ctxWordOf (e : Bool) (d a b : BitVec 7) (f : BitVec 4) : Code := encR e 0x3E d a b f

def execCtxnew (e : Bool) (d a : GReg) (s : State) : Out :=
  member e (settled s fun s => privileged s (ctxWordOf e d a 0 0) (newContext d (s.g a)))

/-! ## Grants -/

/-- A unit named by an amount of kind 1, on a physical cluster (R387, R209): half B of a core split at p has 8 − p eighths. -/
def unitNamed (at' : Nat × Nat) (x : Nat) : CoreUnit :=
  let p := bitsOf x 11 8
  ⟨at'.1, at'.2, bitsOf x 15 12, if p = 0 then 0 else if bitsOf x 0 0 = 0 then p else 8 - p, if p = 0 then 0 else bitsOf x 0 0⟩

/-- The other half of a split core. -/
def CoreUnit.other (u : CoreUnit) : CoreUnit := { u with eighths := 8 - u.eighths, half := 1 - u.half }

/-- Whether an amount keeps R387, for what the child has. -/
def amountLegal (child : Ctx) (kind x : Nat) : Bool :=
  match kind with
  | 0 => x % 65536 == 0
  | 1 => bitsOf x 55 32 == 0 && bitsOf x 7 1 == 0 && bitsOf x 11 8 ≤ 7
  | 2 => bitsOf x 55 32 == 0 && bitsOf x 15 8 == 0
  | 3 => child.queues + x ≤ 64
  | 6 => x ≤ 7
  | _ => true

/-- A context with an amount of kind 0, 3, 4 or 5 more, or less. -/
def Ctx.add (c : Ctx) (kind x : Nat) : Ctx :=
  match kind with
  | 0 => { c with memory := c.memory + x }
  | 3 => { c with queues := c.queues + x }
  | 4 => { c with children := c.children + x }
  | 5 => { c with objects := c.objects + x }
  | _ => { c with ceiling := x }
def Ctx.less (c : Ctx) (kind x : Nat) : Ctx :=
  match kind with
  | 0 => { c with memory := c.memory - x }
  | 3 => { c with queues := c.queues - x }
  | 4 => { c with children := c.children - x }
  | 5 => { c with objects := c.objects - x }
  | _ => c

/-- What of a list of units must go for a unit, and what stays of it: the unit itself, or the whole core or both its halves split anew
(R391). -/
def cutUnit (us : List CoreUnit) (u : CoreUnit) : Option (List CoreUnit × List CoreUnit) :=
  let whole : CoreUnit := { u with eighths := 0, half := 0 }
  let stays := if u.eighths = 0 then [] else [u.other]
  let halves := us.filter fun v => v.eighths != 0 && v.overlaps whole
  if us.contains u then some ([u], [])
  else if us.contains whole then some ([whole], stays)
  else if halves.length = 2 then some (halves, stays)
  else none

/-- What of a context's map must go for a unit, and what stays of it. -/
def Ctx.cut (c : Ctx) (u : CoreUnit) : Option (List CoreUnit × List CoreUnit) := cutUnit c.units u

/-- A list of units without a unit. -/
def dropUnit (us : List CoreUnit) (u : CoreUnit) : List CoreUnit :=
  match cutUnit us u with
  | some (out, back) => us.filter (fun v => !out.contains v) ++ back
  | none => us

/-- A unit moves from its holder's map to another (R388). -/
def State.moveUnit (s : State) (from' to' : Nat) (u : CoreUnit) : State :=
  (s.modCtx from' fun c => { c with units := dropUnit c.units u }).modCtx to' fun c => c.addUnit u

/-- Whether teams of a context stand on a unit. -/
def State.stands (s : State) (ctx : Nat) (u : CoreUnit) : Bool :=
  (s.occupants u).any fun t => s.crews.any fun c => c.id == t.crew && c.ctx == ctx

/-- A grant (R391). A unit leaves the issuer's map at once; the member completes when no team of the issuer stands on it (R388). -/
def grant (issuer child : Ctx) (w : Word) (kind x : Nat) (s : State) : Res :=
  let deny : Res := .trap (.own 0x16 (Word.ofNat x)) s
  match kind with
  | 1 =>
    match issuer.clusters[bitsOf x 31 16]? with
    | none => deny
    | some at' =>
      let u := unitNamed at' x
      if s.hart.elix = 1 then (if s.stands issuer.num u then .hold s else .ok s)
      else match issuer.cut u with
        | none => deny
        | some (out, _) =>
          let s := out.foldl State.vacate s
          let s := (s.moveUnit issuer.num child.num u).modCtx child.num fun c => { c with granted := c.granted ++ [u] }
          if s.stands issuer.num u then .hold (s.modHart fun h => { h with elix := 1 }) else .ok s
  | 2 =>
    match issuer.clusters[bitsOf x 31 16]? with
    | none => deny
    | some at' =>
      let k := clusterIndex at'.1 at'.2
      let free := s.tagsHeld issuer k - (s.tagsHeld issuer k &&& s.tagsInUse k)
      let m := bitsOf x 7 0
      if m &&& free != m then deny
      else .ok (s.modCtx child.num fun c => { c with grantedTags := Sparse.put zeroNat c.grantedTags k (Sparse.get zeroNat c.grantedTags k ||| m) })
  | 6 => if x > issuer.ceiling then deny else .ok (s.modCtx child.num fun c => { c with ceiling := x })
  | 4 => if child.depth ≥ 3 || s.remaining issuer 4 < x then deny else .ok (s.modCtx child.num fun c => c.add 4 x)
  | k => if k > 6 then .trap (.own 0x03 w) s else if s.remaining issuer k < x then deny else .ok (s.modCtx child.num fun c => c.add k x)

/-- A reclaim (R391). A core that the child was granted whole and has split again in halves is the one unit, whole or by halves. -/
def reclaim (issuer child : Ctx) (kind x : Nat) (s : State) : Res :=
  let deny : Res := .trap (.own 0x16 (Word.ofNat x)) s
  match kind with
  | 1 =>
    match issuer.clusters[bitsOf x 31 16]? with
    | none => deny
    | some at' =>
      let u := unitNamed at' x
      match cutUnit child.units u, cutUnit child.granted u with
      | some (out, _), some _ =>
        if !out.all s.unitFree then deny
        else .ok ((s.moveUnit child.num issuer.num u).modCtx child.num fun c => { c with granted := dropUnit c.granted u })
      | _, _ => deny
  | 2 =>
    match issuer.clusters[bitsOf x 31 16]? with
    | none => deny
    | some at' =>
      let k := clusterIndex at'.1 at'.2
      let free := s.tagsHeld child k - (s.tagsHeld child k &&& s.tagsInUse k)
      let m := bitsOf x 7 0
      if m &&& free != m then deny
      else .ok (s.modCtx child.num fun c =>
        let old := Sparse.get zeroNat c.grantedTags k
        { c with grantedTags := Sparse.put zeroNat c.grantedTags k (old - (old &&& m)) })
  | k => if s.remaining child k < x then deny else .ok (s.modCtx child.num fun c => c.less k x)

/-- CTXGRANT (R391). -/
def execCtxgrant (e : Bool) (a b : GReg) (s : State) : Out :=
  member e (settled s fun s => privileged s (ctxWordOf e 0 a b 1) fun s =>
    namedCtx (s.g a) isChild s fun child s =>
      match s.issuer with
      | none => .ok s
      | some issuer =>
        let w := s.g b
        let kind := bitsOf w.toNat 62 56
        let x := bitsOf w.toNat 55 0
        let ret := w.getLsbD 63
        if kind ≥ 7 || !amountLegal (if ret then { child with queues := 0 } else child) kind x || (ret && kind == 6) then .trap (.own 0x03 w) s
        else if ret then reclaim issuer child kind x s else grant issuer child w kind x s)

/-! ## Revocation -/

/-- The contexts of a subtree that are not revoked. -/
def State.subtree (s : State) (root : Nat) : List Ctx := s.ctxs.filter fun c => c.state != .revoked && s.inSubtree root c.num

/-- The final word of a launch or of a record written as a release (R404, R418), where there is a completion object. -/
def State.writeDone (s : State) (ctx done op status count : Nat) : State :=
  if done = 0 || done % 8 != 0 then s
  else outcome (s.ctxPut ctx done (status * 2 ^ 48 + op % 65536 * 2 ^ 32 + count % 2 ^ 32) false)

/-- A word in a context's address space, 0 where it cannot be read. -/
def State.tryWord (s : State) (ctx va : Nat) : State × Nat :=
  match s.ctxWord ctx va false with
  | .ok r => r
  | .error s => (s, 0)

/-- Every record that stands in a queue's ring completed with status 2 (R392); `n` records from `head` on. -/
def State.abortSlots (s : State) (q : Queue) (ring size : Nat) : Nat → Nat → State
  | _, 0 => s
  | head, n + 1 =>
    let rec' := ring + 256 * (head % max 1 size)
    let (s, done) := s.tryWord q.ctx (rec' + 0x10)
    let (s, op) := s.tryWord q.ctx (rec' + 0x18)
    (s.writeDone q.ctx done op 2 0).abortSlots q ring size (head + 1) n

/-- A queue's descriptor as the scheduler reads it: ring, size, tail and head (R400). -/
def State.queueWords (s : State) (q : Queue) : Except State (State × Nat × Nat × Nat × Nat) := do
  let (s, r) ← s.ctxWord q.ctx q.desc false
  let (s, n) ← s.ctxWord q.ctx (q.desc + 8) false
  let (s, t) ← s.ctxWord q.ctx (q.desc + 0x18) false
  let (s, h) ← s.ctxWord q.ctx (q.desc + 0x20) false
  .ok (s, r, n, t % 2 ^ 32, h % 2 ^ 32)

/-- The records enqueued and not accepted: a tail more than n ahead counts as head + n (R400). -/
def waitingRecords (n t h : Nat) : Nat := min n ((t + 2 ^ 32 - h) % 2 ^ 32)

/-- Every launch and queue slot of a subtree completes with status 2, and its queues are gone (R392). -/
def State.abortLaunches (s : State) (gone : List Nat) : State :=
  let s := (s.launches.filter fun l => gone.contains l.ctx).foldl (fun s l => s.writeDone l.ctx l.done l.op 2 l.stopped) s
  let s := (s.queues.filter fun q => gone.contains q.ctx).foldl (fun s q =>
    match s.queueWords q with
    | .ok (s, r, n, t, h) => s.abortSlots q r n h (waitingRecords n t h)
    | .error s => s) s
  { s with launches := s.launches.filter fun l => !gone.contains l.ctx, queues := s.queues.filter fun q => !gone.contains q.ctx }

/-- Whether the restoration of a hart has begun and it has not reached its first convoy head (R392). -/
def State.restoring (s : State) (h : Hart) : Bool :=
  ((s.crew? h.crew).map (·.resident)).getD false &&
  match h.run with
  | .resuming => true
  | .preempted => true
  | .frameFault a _ => a != .save
  | _ => false

/-- A hart in restoration, withdrawn (R392): it holds its slot until it has raised 0x17. -/
def Hart.withdraw (issuer : Nat) (h : Hart) : Hart := { h with run := .withdrawn issuer, copies := [], colls := [], matrix := [], gathers := [], stores := [], late := [], caddy := [], pend := [] }

/-- The harts of a subtree are gone, their frames marked revoked (R392), and everything that hung on them; those in restoration stay to
raise 0x17, on a crew that is the issuer's. -/
def State.dropHarts (s : State) (issuer : Nat) (gone : List Nat) : State :=
  let lost := s.others.filter fun h => gone.contains h.ctx
  let s := lost.foldl (fun s h => if h.gone then s else outcome (s.setFrameState h 4)) s
  let ids := lost.map (·.id)
  let kept := s.others.filter fun h => gone.contains h.ctx && s.restoring h
  let slots := kept.map (·.crew)
  let s := { s with crews := s.crews.map fun (c : Crew) => if slots.contains c.id then { c with ctx := issuer, launch := 0, tags := 0, preempting := false } else c }
  let s := { s with others := (s.others.filter fun (h : Hart) => !gone.contains h.ctx) ++ kept.map (Hart.withdraw issuer)
                    pages := (s.pages.map fun (p : PageReq) => { p with waiters := p.waiters.filter fun w => !ids.contains w }).filter fun p => !p.waiters.isEmpty && !gone.contains p.owner
                    recorders := s.recorders.filter fun r => s.crews.any fun c => c.id == r.crew && !gone.contains c.ctx }
  let s := { s with teams := s.teams.filter fun t => s.harts.any fun h => h.crew == t.crew && h.slot == t.slot }
  { s with crews := s.crews.filter fun c => s.teams.any fun t => t.crew == c.id }

/-- What a revoked context had goes back (R392): the target's to context `to'`, and is taken out of the contexts between. -/
def State.giveBack (s : State) (target : Ctx) (to' : Nat) : State :=
  let between := ((s.chain target.num).drop 1).takeWhile fun c => c.num != to'
  let take' (c : Ctx) : Ctx :=
    { c with
      memory := c.memory - target.memory, queues := c.queues - target.queues, children := c.children - target.children
      objects := c.objects - target.objects, granted := target.granted.foldl dropUnit c.granted
      grantedTags := target.grantedTags.foldl (fun m e => let old := Sparse.get zeroNat m e.1; Sparse.put zeroNat m e.1 (old - (old &&& e.2))) c.grantedTags }
  let s := between.foldl (fun s c => s.modCtx c.num take') s
  s.modCtx to' fun c => (target.granted.filter fun u => !s.broken u).foldl Ctx.addUnit c

/-- CTXREVOKE of a context, for an issuer (R392). What is charged to its subtree from now on is the crown's (R434, R438): the lines that it
left dirty (R325), and its events that wait for a ring. -/
def State.revoke (s : State) (issuer : Nat) (target : Ctx) : State :=
  let gone := (s.subtree target.num).map (·.num)
  let path := (s.chain target.num).map (·.num)
  let child := ((path.zip (path.drop 1)).find? fun p => p.2 == issuer).map (·.1)
  let to' := if child = some target.num then issuer else child.getD issuer
  let s := (s.abortLaunches gone).dropHarts issuer gone
  let heir (n : Nat) : Nat := if gone.contains n then 1 else n
  let s := { s with
    objs := s.objs.filter fun o => !gone.contains o.ctx, cache := s.cache.filter fun l => !gone.contains l.ctx, binds := s.binds.filter fun b => !gone.contains b.ctx
    owner := s.owner.map fun (e : Nat × Nat) => (e.1, heir e.2), unfiled := s.unfiled.map fun (e : Nat × Nat × Nat × Nat) => (heir e.1, e.2) }
  let s := s.giveBack target to'
  { s with
    ctxs := s.ctxs.map fun c =>
      if gone.contains c.num then
        { c with state := .revoked, units := [], clusters := [], granted := [], grantedTags := [], memory := 0, queues := 0, children := 0, objects := 0 }
      else c
    pkg := { s.pkg with frozen := s.pkg.frozen.filter fun n => !gone.contains n } }

/-- CTXREVOKE (R392): in the model every step of it is made at once. -/
def execCtxrevoke (e : Bool) (a : GReg) (s : State) : Out :=
  member e (settled s fun s => privileged s (ctxWordOf e 0 a 0 2) fun s =>
    namedCtx (s.g a) isDescendant s fun c s => .ok (s.drainAll.revoke s.hart.ctx c))

/-- FUNCTION_LEVEL_RESET (R396): event 0x11, then the bound context is revoked as by the crown, and the function is unbound. -/
def execFunctionLevelReset (port : Bool) (function : BitVec 6) (s : State) : Out :=
  let bound (c : Ctx) : Bool := c.state != .revoked && c.vf.getLsbD 16 && c.vf.getLsbD 15 == port && bitsOf c.vf.toNat 5 0 == function.toNat
  event (match s.ctxs.find? bound with
    | none => s
    | some c =>
      let s := s.fileIn 8 1 0x11 0 ioSrc
      let s := if s.inSubtree c.num s.hart.ctx then
          (match s.others.find? fun h => !s.inSubtree c.num h.ctx with
            | some h => s.focus h.id
            | none => s.modHart fun h => { h with run := .retired })
        else s
      (s.revoke 1 c).modCtx c.num fun c => { c with vf := 0 })

/-! ## CTXRUN, CTXINFO and TRAPUP -/

/-- Whether a hart of a subtree is not yet out of its slot (R393): a handler hart of an ancestor in the slot is no hart of it. -/
def State.subtreeRuns (s : State) (root : Nat) : Bool := s.harts.any fun h => s.inSubtree root h.ctx && !h.gone && !h.inFrame

/-- The stopped hart of a subtree whose frame has an address in the issuer's space (R393). -/
def State.stoppedAt (s : State) (root : Nat) (va : Nat) : Option Hart :=
  s.harts.find? fun h =>
    (h.run == .stopped || h.run == .reflected) && s.inSubtree root h.ctx &&
      (match ((s.chain h.ctx).map (·.num)).idxOf? s.hart.ctx with
        | some j => s.frameAddrAt h j == va
        | none => false)

/-- Whether an address in the issuer's space is that of a revoked frame of the subtree (R392): its header says so. -/
def State.revokedAt (s : State) (root : Nat) (va : Nat) : State × Bool :=
  if s.ctxs.any fun c => c.state == .revoked && s.descends root c.num then
    match s.ctxWord s.hart.ctx va with
    | .ok (s, w) => (s, w == 4)
    | .error s => (s, false)
  else (s, false)

/-- A stopped hart becomes ready, and a handler hart that serves it ends (R393, R397). -/
def State.release (s : State) (id : Nat) : State :=
  let s := s.mapHarts fun h => if h.id = id then { h with run := .resuming } else h
  let s := if s.hart.serves = some id then s.focus id else s
  (s.mapHarts fun h => if h.serves = some id then { h with run := .retired, watch := none, session := none } else h).reap

/-- CTXRUN of a stopped hart's frame (R393): the handler hart that serves it, if there is one, has its own frame marked free first (R415);
where that access fails, it stays in its slot and the member waits (R416). -/
def State.runFrame (s : State) (id : Nat) : Res :=
  match s.harts.find? fun h => h.serves == some id && !h.gone with
  | none => .ok (s.release id)
  | some k =>
    match k.run, s.setFrameState k 0 with
    | .frameFault _ _, _ => .hold s
    | _, .error s => .moved (s.onHart k.id fun s => s.frameFault .save)
    | _, .ok s => if s.hart.id = k.id then .moved (s.release id) else .ok (s.release id)

/-- CTXRUN (R393). -/
def execCtxrun (e : Bool) (a b : GReg) (s : State) : Out :=
  member e (settled s fun s => privileged s (ctxWordOf e 0 a b 3) fun s =>
    namedCtx (s.g a) isDescendant s fun c s =>
      let w := s.g b
      if w = 0 then .ok (s.modCtx c.num fun c => { c with state := .running })
      else if w = 1 then
        let s := s.holdCtx c.num
        if s.subtreeRuns c.num then .hold s else .ok s
      else if w.toNat % 256 ≠ 0 then .trap (.own 0x03 w) s
      else match s.stoppedAt c.num w.toNat with
        | none =>
          let (s, revoked) := s.revokedAt c.num w.toNat
          .trap (if revoked then .own 0x17 (s.g a) else .own 0x03 w) s
        | some h => s.runFrame h.id)

/-- The number of a context's state (R394). -/
def CtxState.code : CtxState → Nat
  | .held => 0
  | .running => 1
  | .revoked => 2

/-- What CTXINFO gives for a selector (R394). -/
def State.ctxInfo (s : State) (c : Ctx) (sel : Nat) : Word :=
  match sel with
  | 0 => Word.ofNat c.handle
  | 1 => match c.parent with
    | some p => Word.ofNat (s.ctxid p)
    | none => Word.ones
  | 2 => Word.ofNat (c.state.code + (s.childrenOf c.num).length % 256 * 4 + c.depth * 65536)
  | 3 => if c.num = s.hart.ctx then Word.ofNat (s.frameAddr s.hart) else 0
  | _ => if sel ≥ 16 then Word.ofNat (c.amount (sel - 16)) else Word.ofNat (s.remaining c (sel - 8))

/-- CTXINFO (R394): in user mode of the own context alone. -/
def execCtxinfo (e : Bool) (d a : GReg) (b : BitVec 7) (s : State) : Out :=
  member e (settled s fun s =>
    let x := s.g a
    if x = Word.ones then
      match s.issuer with
      | some c => .ok (s.setG d (s.ctxInfo c b.toNat))
      | none => .ok s
    else privileged s (ctxWordOf e d a b 4) fun s =>
      namedCtx x (fun s c => s.inSubtree s.hart.ctx c.num) s fun c s => .ok (s.setG d (s.ctxInfo c b.toNat)))

/-- A withdrawn hart at its first convoy head (R392): it raises the revoked trap, which goes to the issuer's context or the nearest
ancestor of it that enables the cause (R71), and is discarded. -/
def State.raiseRevoked (s : State) (issuer : Nat) : State :=
  let t : Trap := .own 0x17 0
  let me := s.hart
  match (s.chain issuer).find? fun c => c.enable.getLsbD 0x17 with
  | none => s.crownHalt t
  | some a =>
    let j := (((s.chain me.ctx).map (·.num)).idxOf? a.num).getD 1
    ({ s with hart := s.handlerHart a (Word.ofNat (s.frameAddrAt me j)) (t.field me) me.crew me.slot, nextId := s.nextId + 1 } : State).startFrame

/-- TRAPUP (R395): it completes, then the software trap is delivered from the parent on. -/
def execTrapup (e : Bool) (_a : GReg) (b : BitVec 7) (s : State) : Out :=
  member e (settled s fun s => .moved ((s.retire e).deliver { cause := 0x19, tval := Word.ofNat (0x80 + b.toNat), stage := 1 }))

end Sys2Proof.Machine
end

