-- ==== Sys2Proof/Machine/Control.lean ====
section
/-!
DEFINITION. Control transfers (R90 to R93, R106) and the hardware loop instructions (R103, R104).
-/
namespace Sys2Proof.Machine

/-- A taken transfer from the hart's PC to `t`, which ends the loop levels it leaves (R93, R106). -/
def take (s : State) (t : Word) : Res := .jump (s.modRegs fun r => r.leave s.hart.pc t) t

/-- A conditional branch (R90): taken, or the next convoy begins after it. -/
def branch (c : Word → Word → Bool) (e : Bool) (a b : GReg) (o : BitVec 11) (s : State) : Out :=
  member e (if c (s.g a) (s.g b) then take s (targetOf s.hart.pc o) else .ok s)

def execBeq (e : Bool) (a b : GReg) (o : BitVec 11) (s : State) : Out := branch (fun x y => x == y) e a b o s
def execBne (e : Bool) (a b : GReg) (o : BitVec 11) (s : State) : Out := branch (fun x y => x != y) e a b o s
def execBlt (e : Bool) (a b : GReg) (o : BitVec 11) (s : State) : Out := branch (fun x y => x.slt y) e a b o s
def execBge (e : Bool) (a b : GReg) (o : BitVec 11) (s : State) : Out := branch (fun x y => !x.slt y) e a b o s
def execBltn (e : Bool) (a b : GReg) (o : BitVec 11) (s : State) : Out := branch (fun x y => x.ult y) e a b o s
def execBgen (e : Bool) (a b : GReg) (o : BitVec 11) (s : State) : Out := branch (fun x y => !x.ult y) e a b o s

/-- JMP (R91). -/
def execJmp (e : Bool) (o : BitVec 25) (s : State) : Out := member e (take s (targetOf s.hart.pc o))

/-- LR := the address after the call (R91, R92). -/
def State.link (s : State) : State := s.modRegs fun r => { r with lr := s.hart.pc + 4 }

/-- A call may not stand at the end of an active level (R104). -/
def callAt (s : State) (k : State → Res) : Res := if s.hart.regs.isLoopEnd s.hart.pc then .trap (.own 0x1B 0) s else k s

/-- CALL (R91): the callee returns into the body, so it ends no level (R106). -/
def execCall (e : Bool) (o : BitVec 25) (s : State) : Out := member e (callAt s fun s => .jump s.link (targetOf s.hart.pc o))

/-- The hart is to stop for good (R65, R98): it issues nothing more. -/
def State.leaveWith (s : State) (r : Run) : State := s.modHart fun h => { h with run := r, convoy := [], waiting := .none }

/-- A transfer to a register's value; a target of 0 retires the hart, once its trims are decided (R65, R92, R206). -/
def jumpReg (s : State) (t : Word) (go : State → Res) : Res :=
  if t = 0 then settled s fun s => .moved (s.leaveWith .retiring) else go s

/-- JR (R92). -/
def execJr (e : Bool) (a : GReg) (s : State) : Out := member e (jumpReg s (s.g a) fun s => take s (s.g a))

/-- CALLR (R92): the target is read before LR is written. -/
def execCallr (e : Bool) (a : GReg) (s : State) : Out :=
  let t := s.g a
  member e (callAt s fun s => jumpReg s.link t fun s => .jump s t)

/-- RET (R92). -/
def execRet (e : Bool) (s : State) : Out := member e (jumpReg s s.hart.regs.lr fun s => take s s.hart.regs.lr)

/-- LOOP and LOOPI with their count (R103, R104). -/
def openLoop (s : State) (l : Level) (count : Word) (off : Nat) : Res :=
  let r := s.hart.regs
  let p := s.hart.pc
  let last := p + Word.ofNat (4 * off)
  if r.la l then .trap (.own 0x1B 0) s
  else if r.la (!l) && !(decide (r.ls (!l) ≤ p) && decide (last < r.le (!l))) then .trap (.own 0x1B 0) s
  else
    let r := ((r.setLs l (p + 4)).setLe l last).setLc l count
    if count = 0 then .jump (s.modRegs fun _ => r) (last + 4) else .jump (s.modRegs fun _ => r.setLa l true) (p + 4)

/-- LOOP (R103). -/
def execLoop (e : Bool) (l : Bool) (a : GReg) (o : BitVec 11) (s : State) : Out := member e (openLoop s l (s.g a) o.toNat)

/-- LOOPI (R103). -/
def execLoopi (e : Bool) (l : Bool) (c o : BitVec 12) (s : State) : Out := member e (openLoop s l (zextWord c) o.toNat)

end Sys2Proof.Machine
end

