-- ==== Sys2Proof/Machine/Fabric.lean ====
section
/-!
DEFINITION. The fabric: collectives (R441 to R447), and the links with the loss of devices (R437, R439, R440, R449). Other members are
other devices: what they send comes as the arguments of events.
-/
namespace Sys2Proof.Machine

/-! ## A collective's streams -/

/-- Members of a collective's group. -/
def Coll.size (c : Coll) : Nat := c.devices.length

/-- Elements of the receive buffer (R443). -/
def Coll.total (c : Coll) : Nat :=
  match c.kind with
  | .gather => c.size * c.count
  | _ => c.count

/-- Elements of a chunk of 64 KiB, and the number of chunks (R446). -/
def Coll.perChunk (c : Coll) : Nat := 65536 / vtBytes c.vt
def Coll.chunkCount (c : Coll) : Nat := (c.total + c.perChunk - 1) / c.perChunk

/-- The receive elements of the next chunk. -/
def Coll.chunk (c : Coll) : List Nat := ((List.range c.perChunk).map (· + c.chunks * c.perChunk)).filter fun i => decide (i < c.total)

/-- The element of rank `j`'s send buffer that it contributes to element `i` of rank `to`'s receive buffer (R443). -/
def Coll.contributes (c : Coll) (j to' i : Nat) : Option Nat :=
  match c.kind with
  | .reduce => some i
  | .gather => if i / max 1 c.count = j then some (i % max 1 c.count) else none
  | .scatter => some (to' * c.count + i)
  | .broadcast => if j = c.root then some i else none

/-- The element of its own send buffer that the member contributes to its receive element `i`. -/
def Coll.own (c : Coll) (i : Nat) : Option Nat := c.contributes c.rank c.rank i

/-- The receive element that element `x` of the member's send buffer goes to. -/
def Coll.recvIndex (c : Coll) (x : Nat) : Nat :=
  match c.kind with
  | .gather => c.rank * c.count + x
  | .scatter => x % max 1 c.count
  | _ => x

/-- The RSR locator of receive element `i` (R443): its address, where elements have `bits` bits. -/
def Coll.locator (c : Coll) (bits i : Nat) : Nat := (elemAddress c.recv (Int.ofNat i) bits).1.toNat

/-- The elements of its send buffer that the member reads for a chunk, for itself and for the others. -/
def Coll.reads (c : Coll) (is : List Nat) : List Nat :=
  let others := match c.kind with
    | .gather => is.filter fun i => decide (i < c.count)
    | .scatter => is.flatMap fun i => (List.range c.size).map fun r => r * c.count + i
    | _ => []
  (others ++ is.filterMap c.own).eraseDups

/-- How a chunk's elements are combined: as floats, as residues, or as integers (R16, R125, R442). -/
inductive Reckon where
  | float (f : Fmt)
  | residue
  | integer
  deriving DecidableEq, Repr

/-- The reckoning that the send page gives. -/
def Coll.reckon (c : Coll) (fmt : Nat) : Reckon :=
  match floatOf c.vt with
  | none => .integer
  | some f =>
    if fmt = 10 then .residue
    else if fmt = 8 ∨ fmt = 9 then .integer
    else if (1 ≤ fmt && fmt ≤ 7) || c.asFloat then .float f
    else .integer

/-- Two contributions combined (R443); `loc` is the receive element's address. -/
def Coll.combine (c : Coll) (k : Reckon) (loc x y : Nat) : Nat :=
  let n := 8 * vtBytes c.vt
  match c.reduction, k with
  | 0, .float f => f.encode (vtRound c.vt) (locate c.vt c.seed loc) ((f.decode x).add (vtRound c.vt) (f.decode y))
  | 0, .residue => resAdd x y
  | 0, .integer => (x + y) % 2 ^ n
  | 1, .float f => f.maxNum x y
  | 1, _ => if toSigned n x < toSigned n y then y else x
  | 2, .float f => f.minNum x y
  | 2, _ => if toSigned n x < toSigned n y then x else y
  | 3, _ => x &&& y
  | 4, _ => x ||| y
  | _, _ => x ^^^ y

/-- A list combined in a binary tree that the device chooses (R130, R443): two terms at a time. `n` numbers the free choices. -/
def freeReduce (op : Nat → Nat → Nat) : Nat → Nat → List Nat → Nat
  | 0, _, xs => xs.headD 0
  | _ + 1, _, [] => 0
  | _ + 1, _, [x] => x
  | fuel + 1, n, xs =>
    let i := Config.freeChoice n % xs.length
    let rest := xs.eraseIdx i
    let j := Config.freeChoice (n + 1) % rest.length
    freeReduce op fuel (n + 2) (op (xs.getD i 0) (rest.getD j 0) :: rest.eraseIdx j)

/-- One side's pass over elements. -/
def Coll.side (c : Coll) (store : Bool) (base : Base) : Sweep :=
  { store := store, indexed := false, reg := 0, minor := 0, vt := c.vt, vl := c.count, seed := c.seed, aligned := true, base := base, baseVa := 0
    planes := c.splane, prior := false, elems := [] }

/-- A collective of the hart changed. -/
def State.modColl (s : State) (id : Nat) (f : Coll → Coll) : State :=
  s.modHart fun h => { h with colls := h.colls.map fun c => if c.id = id then f c else c }

/-- The end of a collective. -/
def State.endColl (s : State) (id status : Nat) : State := s.modColl id fun c => { c with ended := some status }

/-- A failed access (R444): the record in the layout of R263, then status 1, or 2 where the record cannot be written. -/
def State.faultColl (s : State) (c : Coll) (chunk e : Nat) (t : Trap) : State :=
  match s.access c.frec 32 .write with
  | (s, .ok r) => (s.perform ⟨r.place, copyRecord t c.op chunk e, false, false, false, s.hart.ctx, r.dirty, r.via, false⟩).endColl c.id 1
  | (s, .error .wait) => s
  | (s, .error (.trap _)) => (s.endColl c.id 2).fileEvent s.hart.ctx 0x09 c.frec.toNat (s.hartSrc s.hart)

/-- Elements of one side checked in order: where each lands, or the first failure. -/
def State.reachAll (s : State) (w : Sweep) (at' : Word) : List Nat → State × Except (Nat × Stop) (List (Nat × (Word × Bool) × (Reached × Option Place)))
  | [] => (s, .ok [])
  | i :: rest =>
    let a := elemAddress at' (Int.ofNat i) (elemBits w.base.fmt w.vt)
    match s.reachElem w a.1 with
    | (s, .error p) => (s, .error (i, namedStop s.hart.spbase p))
    | (s, .ok r) =>
      match s.reachAll w at' rest with
      | (s, .error p) => (s, .error p)
      | (s, .ok xs) => (s, .ok ((i, a, r) :: xs))

/-- The base of a buffer. -/
def State.bufferBase (s : State) (c : Coll) (va : Word) : State × Base := if c.total = 0 then (s, .window) else s.baseOf va

/-- Elements written to a buffer (R443): all checked, then all written. -/
def State.writeElems (s : State) (c : Coll) (at' : Word) (xs : List (Nat × Nat × Bool)) : State × Except (Nat × Stop) Unit :=
  let (s, base) := s.bufferBase c at'
  let w := c.side true base
  match s.reachAll w at' (xs.map (·.1)) with
  | (s, .error p) => (s, .error p)
  | (s, .ok rs) => (s.writeStrip w ((rs.zip xs).map fun p => (w.got p.1.1 p.1.2.1.1 p.1.2.1.2 p.1.2.2 p.2.2.1, p.2.2.2)), .ok ())

/-- One element of the send buffer read and put in VT format, with its poison: index, bits, poison. `bits` are those of a receive element. -/
def State.readElem (s : State) (c : Coll) (w : Sweep) (bits : Nat) (r : Nat × (Word × Bool) × (Reached × Option Place)) : State × (Nat × Nat × Bool) :=
  let s := s.eccAccess r.2.2.1.place ((elemBits w.base.fmt c.vt + 7) / 8)
  let (s, v) := s.elemValue w (c.locator bits (c.recvIndex r.1)) r.2.1.2 r.2.2.1.place r.2.2.2
  (s, r.1, v, s.elemBad w r.2.2.1.place r.2.2.2)

/-- Checked elements read in order. -/
def State.readEach (s : State) (c : Coll) (w : Sweep) (bits : Nat) :
    List (Nat × (Word × Bool) × (Reached × Option Place)) → State × List (Nat × Nat × Bool)
  | [] => (s, [])
  | r :: rest =>
    let (s, x) := s.readElem c w bits r
    let (s, xs) := s.readEach c w bits rest
    (s, x :: xs)

/-- The elements of the send buffer that a chunk needs, in VT format with their poison: index, bits, poison. -/
def State.readElems (s : State) (c : Coll) (base : Base) (bits : Nat) (is : List Nat) : State × Except (Nat × Stop) (List (Nat × Nat × Bool)) :=
  let w := c.side false base
  match s.reachAll w c.send is with
  | (s, .error p) => (s, .error p)
  | (s, .ok rs) =>
    let (s, xs) := s.readEach c w bits rs
    (s, .ok xs)

/-! ## Lost members (R449) -/

/-- The ranks of lost members for whom this device answers: it is their backup and has promoted the mirror. -/
def Package.answersFor (p : Package) (c : Coll) : List Nat :=
  (List.range c.size).filter fun j =>
    j != c.rank && p.promoted.contains (c.devices.getD j 0) && p.lost.contains (c.devices.getD j 0) && c.backups.getD j 0xFFFF == p.fabricId

/-- The mirrors of a lost member's buffers, where each lies wholly in a mirrored range and on pages without MX blocks, of which a mirror of
data bytes alone holds no scales (DESIGN CHOICE, log 45). -/
def Package.answer (p : Package) (c : Coll) (j : Nat) (b : LostBuffers) : Option Answer :=
  let device := c.devices.getD j 0
  let sends := match c.kind with
    | .scatter => c.size * c.count
    | .broadcast => if j = c.root then c.count else 0
    | _ => c.count
  let mirror (a n : Nat) : Option Nat := if n = 0 then some 0 else p.mirrorHere device a n
  if isMx b.sendFmt || isMx b.recvFmt then none
  else match mirror b.send (sends * elemBits b.sendFmt c.vt / 8), mirror b.recv (c.total * elemBits b.recvFmt c.vt / 8) with
    | some send, some recv => some ⟨j, send, recv, b.sendFmt, b.recvFmt, []⟩
    | _, _ => none

/-- The lost members that the device answers for in a collective, as its first chunk finds them; none where a buffer of one is not mirrored. -/
def Package.answers (p : Package) (c : Coll) (peers : List PeerChunk) : Option (List Answer) :=
  if c.chunks ≠ 0 then some c.answers
  else (p.answersFor c).mapM fun j => (peers[j]?.bind (·.lost)).bind (p.answer c j)

/-- Element `x` of a lost member's send buffer read from the mirror, with its poison. -/
def State.lostElem (s : State) (c : Coll) (bits : Nat) (a : Answer) (x : Nat) : Nat × Bool :=
  let n := elemBits a.sendFmt c.vt / 8
  let p : Place := .phys (a.send + x * n)
  (decodeElem a.sendFmt c.vt c.seed (c.locator bits (c.recvIndex x)) (bytesToNat (s.peekList p n)), s.anyPoison p n)

/-- Elements `is` of a lost member's results written into the mirror of its receive buffer (R449). -/
def State.mirrorResults (s : State) (c : Coll) (bits : Nat) (is : List Nat) (a : Answer) : State :=
  let n := elemBits a.recvFmt c.vt / 8
  is.foldl (fun s i =>
    let x := a.out.getD i (0, false)
    let p : Place := .phys (a.recv + i * n)
    let s := s.perform ⟨p, natToBytes (encodeElem a.recvFmt c.vt c.seed (c.locator bits i) x.1) n, false, true, false, s.hart.ctx, [], [], false⟩
    if x.2 then s.poisonAt p n else s) s

/-! ## Chunks -/

/-- The contributions to element `i`, the `k`-th of its chunk, of the receive buffer of rank `to`, by rank, each with its poison (R444). -/
def State.gathered (s : State) (c : Coll) (bits : Nat) (answers : List Answer) (own : List (Nat × Nat × Bool)) (peers : List PeerChunk)
    (to' k i : Nat) : List (Nat × Bool) :=
  (List.range c.size).map fun j =>
    if j = c.rank then
      match (c.contributes j to' i).bind fun x => own.find? fun o => o.1 == x with
      | some o => (o.2.1, o.2.2)
      | none => (0, false)
    else match answers.find? fun a => a.rank == j with
      | some a => ((c.contributes j to' i).map (s.lostElem c bits a)).getD (0, false)
      | none =>
        let sent := match peers[j]? with
          | some x => if c.kind == CollKind.scatter && to' != c.rank then x.others.getD ((answers.map Answer.rank).idxOf to') [] else x.elems
          | none => []
        ((sent.getD k (0, false)).1.toNat % 2 ^ (8 * vtBytes c.vt), (sent.getD k (0, false)).2)

/-- Receive element `i` from the contributions (R443). From a root rank that no member has, the spec states no value: a free one (log 45). -/
def Coll.result (c : Coll) (k : Reckon) (bits n i : Nat) (xs : List (Nat × Bool)) : Nat × Bool :=
  match c.kind with
  | .gather => xs.getD (i / max 1 c.count) (0, false)
  | .broadcast => xs.getD c.root ((Config.freeWord n).toNat % 2 ^ (8 * vtBytes c.vt), false)
  | _ => (freeReduce (c.combine k (c.locator bits i)) (xs.length + 1) n (xs.map (·.1)), xs.any (·.2))

/-- Whether what a member sends matches the collective: the same form, N, VT byte, reduction and root, and elements for the chunk (R443). -/
def Coll.matches (c : Coll) (answered : Nat) (x : PeerChunk) : Bool :=
  x.form == c.kind.code && x.count == c.count && x.vt == c.vt && x.reduction == c.reduction && x.root == c.root && x.elems.length == c.chunk.length &&
    (c.kind != .scatter || (x.others.length == answered && x.others.all fun xs => xs.length == c.chunk.length))

/-- Whether what the other members send matches the member's own collective; of the ranks `lost` this device has the elements itself. -/
def Coll.matched (c : Coll) (lost : List Nat) (peers : List PeerChunk) : Bool :=
  peers.length == c.size && ((List.range c.size).all fun j => j == c.rank || lost.contains j || (peers[j]?).any (c.matches lost.length))

/-- The results of a chunk for the receive buffer of rank `to`; `n` numbers the free choices. -/
def State.chunkResults (s : State) (c : Coll) (k : Reckon) (bits : Nat) (answers : List Answer) (own : List (Nat × Nat × Bool)) (peers : List PeerChunk)
    (n to' : Nat) : List (Nat × Bool) :=
  ((List.range c.chunk.length).zip c.chunk).map fun p => c.result k bits (n + 2 * c.size * p.1) p.2 (s.gathered c bits answers own peers to' p.1 p.2)

/-- Ranks added to those that are ready. -/
def addReady (ready rs : List Nat) : List Nat := (rs.filter fun r => !ready.contains r) ++ ready

/-- COLLECTIVE_CHUNK (R443): a mismatch at the first chunk ends the collective with status 2, and a buffer of a lost member that is not
mirrored with status 3 (R449); a chunk is reduced into stage. -/
def State.collChunk (s : State) (c : Coll) (peers : List PeerChunk) : State :=
  if c.ended.isSome || c.chunks ≥ c.chunkCount then s
  else if !c.matched (s.pkg.answersFor c) peers then (if c.chunks = 0 then s.endColl c.id 2 else s)
  else match s.pkg.answers c peers with
  | none => s.endColl c.id 3
  | some answers =>
    let s := s.performLate.drainAll
    let reads := c.reads c.chunk
    let (s, base) := if reads.isEmpty then (s, .window) else s.bufferBase c c.send
    let (s, rbase) := s.bufferBase c c.recv
    let bits := elemBits rbase.fmt c.vt
    match s.readElems c base bits reads with
    | (s, .error (_, .wait)) => s
    | (s, .error (e, .trap t)) => s.faultColl c c.chunks e t
    | (s, .ok own) =>
      let each := 2 * c.size * (c.chunk.length + 1)
      let (s, n) := s.drawMany (each * (answers.length + 1))
      let out := s.chunkResults c (c.reckon base.fmt) bits answers own peers n c.rank
      let lost := answers.zipIdx.map fun a => { a.1 with
        out := a.1.out ++ if c.kind == CollKind.scatter then s.chunkResults c (c.reckon base.fmt) bits answers own peers (n + each * (a.2 + 1)) a.1.rank else out }
      match s.writeElems c c.stage ((c.chunk.zip out).map fun x => (x.1, x.2.1, x.2.2)) with
      | (s, .error (_, .wait)) => s
      | (s, .error (e, .trap t)) => s.faultColl c c.chunks e t
      | (s, .ok ()) => s.modColl c.id fun c =>
          { c with chunks := c.chunks + 1, results := c.results ++ out, answers := lost
                   ready := if c.chunks + 1 ≥ c.chunkCount then addReady c.ready (c.rank :: lost.map Answer.rank) else c.ready }

/-- Whether the member has every rank's ready flit (R443). -/
def Coll.allReady (c : Coll) : Bool := (List.range c.size).all c.ready.contains

/-- The commit phase (R443): recv is written chunk by chunk; `fuel` bounds the chunks. -/
def State.commitColl (s : State) (id : Nat) : Nat → State
  | 0 => s
  | fuel + 1 =>
    match s.hart.colls.find? (fun c => c.id == id) with
    | none => s
    | some c =>
      if c.ended.isSome then s
      else
        let is := (List.range (min c.perChunk (c.total - c.written))).map (· + c.written)
        if is.isEmpty then s.endColl id (if c.results.any (·.2) then 4 else 0)
        else
          match s.writeElems c c.recv (is.map fun i => (i, c.results.getD i (0, false))) with
          | (s, .error (_, .wait)) => s
          | (s, .error (e, .trap t)) => s.faultColl c (e / c.perChunk) e t
          | (s, .ok ()) =>
            let (s, base) := s.bufferBase c c.recv
            let s := c.answers.foldl (fun s a => s.mirrorResults c (elemBits base.fmt c.vt) is a) s
            (s.modColl id fun c => { c with written := c.written + is.length }).commitColl id fuel

/-- COLLECTIVE_COMPLETE (R443): recv is written once every rank is ready, and then the status goes to the token. -/
def State.completeColl (s : State) (c : Coll) : State :=
  let s := if c.ended.isNone && c.chunks ≥ c.chunkCount && c.allReady then s.commitColl c.id (c.chunkCount + 2) else s
  match s.hart.colls.find? (fun x => x.id == c.id) with
  | none => s
  | some c =>
    match c.ended with
    | none => s
    | some st =>
      if c.delivered then s
      else ((s.notePoison st).deliverToken c.token (statusWord st c.op c.written)).modColl c.id fun c => { c with delivered := true }

/-- An event of collective `coll` of hart `hart`. -/
def State.onColl (s : State) (hart coll : Nat) (f : State → Coll → State) : State :=
  s.onEngine hart fun s => match s.hart.colls.find? (fun c => c.id == coll) with
    | some c => f s c
    | none => s

/-- A flit for collective `coll` of hart `hart`: it reaches the member whether its hart runs or not (R419, R447). -/
def State.onFlit (s : State) (hart coll : Nat) (f : State → Coll → State) : State :=
  if s.hasHart hart then s.onHart hart fun s => (match s.hart.colls.find? (fun c => c.id == coll) with
    | some c => f s c
    | none => s)
  else s

def execCollectiveChunk (hart coll : Nat) (peers : List PeerChunk) (s : State) : Out := event (s.onColl hart coll fun s c => s.collChunk c peers)
def execCollectiveComplete (hart coll : Nat) (s : State) : Out := event (s.onColl hart coll State.completeColl)

/-- READY_FLIT_RECEIVE (R443). -/
def execReadyFlitReceive (hart coll rank : Nat) (s : State) : Out :=
  event (s.onFlit hart coll fun s c => if c.ready.contains rank || c.rank = rank then s else s.modColl c.id fun c => { c with ready := rank :: c.ready })

/-- ABORT_FLIT_RECEIVE (R447): the collective is withdrawn unless every ready flit has come. -/
def execAbortFlitReceive (hart coll : Nat) (s : State) : Out :=
  event (s.onFlit hart coll fun s c => if c.ended.isSome || c.allReady then s else s.endColl c.id 3)

/-! ## The members -/

/-- Whether a collective's descriptor keeps R442: a type that is a float whatever the pages admits no bitwise reduction. -/
def collLegal (w : List Nat) : Bool :=
  let x (k : Nat) : Nat := w.getD k 0
  let vt := BitVec.ofNat 7 (bitsOf (x 0) 6 0)
  vtLegal vt && bitsOf (x 0) 7 7 == 0 && bitsOf (x 0) 10 8 ≤ 5 && bitsOf (x 0) 15 11 == 0 && bitsOf (x 0) 31 24 == 0 && bitsOf (x 0) 63 48 == 0 &&
    !(vtVariant vt == 1 && bitsOf (x 0) 10 8 ≥ 3) && x 1 < 2 ^ 32 && x 2 % 8 == 0 && x 6 != 0 && x 6 % 32 == 0 && x 7 == 0

/-- Whether a group table's header keeps R442. -/
def groupLegal (header : Nat) : Bool := bitsOf header 31 8 == 0 && bitsOf header 7 0 ≥ 1

/-- The one rank whose entry holds a device (R442). -/
def rankOf (device : Nat) (entries : List Nat) : Option Nat :=
  match (List.range entries.length).filter fun j => entries.getD j 0 % 65536 == device with
  | [j] => some j
  | _ => none

/-- The backup that answers for a device of a collective's group, 0xFFFF for none (R442, R449). -/
def Coll.backup (c : Coll) (device : Nat) : Nat := ((c.devices.zip c.backups).find? fun p => p.1 == device).elim 0xFFFF (·.2)

/-- Whether a lost device's backup in a group answers for it (R449): another device that is not lost itself, or this device when it has
promoted the mirror. -/
def Package.answered (p : Package) (c : Coll) (device : Nat) : Bool :=
  let b := c.backup device
  b != 0xFFFF && !p.lost.contains b && (b != p.fabricId || p.promoted.contains device)

/-- COLR, COLG, COLS and COLB (R443). A group with a lost member for whom no device answers withdraws the collective (R447). -/
def startColl (kind : CollKind) (d : GReg) (a : Word) (s : State) : Res :=
  if (s.hart.colls.filter fun c => !c.delivered).length ≥ 4 then .hold s
  else if a.toNat % 64 ≠ 0 then .trap (.own 0x06 a) s
  else match s.loadWords a 8 with
    | (s, .error p) => p.res s
    | (s, .ok w) =>
      if !collLegal w then .trap (.own 0x03 a) s
      else
        let table := Word.ofNat (w.getD 2 0)
        match s.loadWords table 1 with
        | (s, .error p) => p.res s
        | (s, .ok header) =>
          let hd := header.headD 0
          if !groupLegal hd then .trap (.own 0x03 a) s
          else match s.loadWords (table + 8) (bitsOf hd 7 0 + 1) with
            | (s, .error p) => p.res s
            | (s, .ok entries) =>
              match rankOf s.pkg.fabricId entries with
              | none => .trap (.own 0x03 a) s
              | some rank =>
                let x (k : Nat) : Nat := w.getD k 0
                let vt := BitVec.ofNat 7 (bitsOf (x 0) 6 0)
                let group := bitsOf hd 63 32
                let seqno := Sparse.get zeroNat s.pkg.collSeq group
                let token := s.hart.regs.tokenOf d
                let (s, n) := s.draw
                let c : Coll := { id := s.nextId, kind := kind, vt := vt, reduction := bitsOf (x 0) 10 8
                                  asFloat := vtVariant vt == 1 || Config.freeChoice n % 2 == 1, root := bitsOf (x 0) 23 16
                                  op := bitsOf (x 0) 47 32, count := x 1, send := Word.ofNat (x 3), recv := Word.ofNat (x 4), stage := Word.ofNat (x 5)
                                  frec := Word.ofNat (x 6), seed := s.hart.rseed, splane := s.hart.splanes, table := table, group := group, devices := entries.map (· % 65536)
                                  backups := entries.map (bitsOf · 31 16), rank := rank
                                  seqno := seqno, token := token, chunks := 0, results := [], answers := [], ready := [], written := 0
                                  ended := none, delivered := false }
                let c := if c.chunkCount = 0 then { c with ready := rank :: s.pkg.answersFor c } else c
                let c := if c.devices.any fun x => s.pkg.lost.contains x && !s.pkg.answered c x then { c with ended := some 3 } else c
                let s := { s with nextId := s.nextId + 1 }.modPkg fun p => { p with collSeq := Sparse.put zeroNat p.collSeq group (seqno + 1) }
                .ok ((s.pendToken token).modHart fun h =>
                  { h with colls := (h.colls.filter fun (x : Coll) => !(x.delivered && (x.token == token || x.token == 0))) ++ [c] })

def execColr (e : Bool) (d a : GReg) (s : State) : Out := member e (settled s fun s => startColl .reduce d (s.g a) s)
def execColg (e : Bool) (d a : GReg) (s : State) : Out := member e (settled s fun s => startColl .gather d (s.g a) s)
def execCols (e : Bool) (d a : GReg) (s : State) : Out := member e (settled s fun s => startColl .scatter d (s.g a) s)
def execColb (e : Bool) (d a : GReg) (s : State) : Out := member e (settled s fun s => startColl .broadcast d (s.g a) s)

/-- The collective whose token is a register: the outstanding one, else the last that ended (R445). -/
def Hart.collOf (h : Hart) (a : GReg) : Option Coll :=
  let mine := h.colls.filter fun c => a != 0 && c.token == h.regs.phys a
  (mine.find? fun c => c.ended.isNone).orElse fun _ => mine.getLast?

/-- COLW (R445). -/
def execColw (e : Bool) (d a b : GReg) (s : State) : Out :=
  member e (settled s fun s =>
    match s.hart.collOf a with
    | none => .ok (s.setG d 0)
    | some c =>
      let s := s.waitUntil (s.g b).toNat
      match c.ended with
      | none => if s.limitPassed then .ok (s.setG d (statusWord 0xFFFF c.op c.written)) else .hold s
      | some st =>
        let s := (s.completeColl c).setG d (statusWord st c.op c.written)
        if st = 3 then .trap (.own 0x1F (Word.ofNat c.op)) s else .ok s)

/-- COLA (R445). -/
def execCola (e : Bool) (a : GReg) (s : State) : Out :=
  member e (settled s fun s =>
    match s.hart.collOf a with
    | some c => if c.ended.isNone then .ok (s.endColl c.id 2) else .ok s
    | none => .ok s)

/-! ## Links and lost devices -/

/-- A Kolras Link port changed. -/
def State.modLink (s : State) (port : Nat) (f : LinkPort → LinkPort) : State := s.modPkg fun p => { p with links := p.links.modify port f }

/-- LINK_TRAIN (R439): a port with enabled lanes trains to the rate that both partners support, with its neighbour at its other end; or
its link goes down until it trains again. -/
def execLinkTrain (port : BitVec 4) (training : Training) (s : State) : Out :=
  event (s.modLink port.toNat fun l =>
    if training.up then { l with slow := training.slow, up := l.lanes != 0, peer := training.peer.toNat } else { l with up := false, downAt := if l.up then s.tick else l.downAt })

/-- FLIT_CRC_REPLAY (R439): the link layer replays the flit; software never sees it. -/
def execFlitCrcReplay (port : BitVec 4) (s : State) : Out := event (s.modLink port.toNat fun l => { l with replays := l.replays + 1 })

/-- LANE_FAILURE (R437): event 0x0F in the crown context's ring, and the port retrains to 4 lanes. -/
def execLaneFailure (port : BitVec 4) (s : State) : Out :=
  event ((s.modLink port.toNat fun l => { l with lanes := min l.lanes 4 }).fileIn 8 1 0x0F 0 ioSrc)

/-- A collective at the loss of a member (R447, R449): the loss is that member's abort, which a collective that holds every ready flit
outlives; but where the lost member has a backup in the group, a collective that runs at the loss ends with status 3 at every member. -/
def Coll.loses (device : Nat) (c : Coll) : Coll :=
  if c.ended.isNone && c.devices.contains device && (!c.allReady || c.backup device != 0xFFFF) then { c with ended := some 3 } else c

/-- A device is lost (R440, R449): running collectives lose the member, and its mirror here is promoted. -/
def State.loseDevice (s : State) (device : Nat) : State :=
  if s.pkg.lost.contains device then s
  else
    let s := s.mapHarts fun h => { h with colls := h.colls.map (Coll.loses device) }
    s.modPkg fun p => { p with
      lost := device :: p.lost
      promoted := if p.held.any (fun m => m.device == device) then device :: p.promoted else p.promoted }

/-- LOSS_FLIT_RECEIVE (R440): the flit tells every device, whichever device's firmware declared the loss. -/
def execLossFlitReceive (device : BitVec 16) (s : State) : Out := event (s.loseDevice device.toNat)

/-- Whether every port that joins a neighbour has been down for 2^12 ticks (R440). -/
def State.unlinked (s : State) (device : Nat) : Bool :=
  let ports := s.pkg.links.filter fun l => l.peer == device
  !ports.isEmpty && ports.all fun l => !l.up && decide (l.downAt + 2 ^ 12 ≤ s.tick)

/-- The neighbours none of whose ports has been up for 2^12 ticks lost, in the cycle in which that comes to hold (R399, R440). -/
def State.loseUnlinked (s : State) : State :=
  ((s.pkg.links.filter fun l => !l.up && l.peer != 0xFFFF).map (·.peer)).foldl (fun s d => if s.unlinked d then s.loseDevice d else s) s

/-- LINK_DOWN_TIMEOUT (R440): a neighbour none of whose ports has been up for 2^12 ticks is lost. -/
def execLinkDownTimeout (device : BitVec 16) (s : State) : Out := event (if s.unlinked device.toNat then s.loseDevice device.toNat else s)

end Sys2Proof.Machine
end

