-- ==== Sys2Proof/Machine/Publication.lean ====
section
/-!
DEFINITION. Objects on tracked pages: location scopes (R303, R304, R333), references, the escape rule, creating and freeing objects,
and publication by reachability (R328 to R349).
-/
namespace Sys2Proof.Machine

/-! ## Scopes -/

/-- The scope of an agent that has a team (R303): the code, and the team, crew and die it is measured from. -/
structure ScopeOf where
  code : Nat
  crew : Nat
  slot : Nat
  die : Nat
  /-- The crew has one team. -/
  alone : Bool
  deriving DecidableEq, Repr

/-- The die on which a crew stands; `other` where the crew is gone. -/
def State.crewDie (s : State) (crew other : Nat) : Nat :=
  match s.crew? crew with
  | some c => c.die
  | none => other

/-- Whether a crew has one team. -/
def State.crewAlone (s : State) (crew : Nat) : Bool := ((s.crew? crew).map fun c => c.rows * c.cols == 1).getD false

/-- Whether the first scope contains every member of the second (R303, R333). A team's scope contains its crew's where the crew has no other
team, and its harts'; which hart of its team a scope of code 0 names nothing asks (DEDUCED, log 17). -/
def ScopeOf.contains (x y : ScopeOf) : Bool :=
  if x.code ≥ 5 then true
  else if y.code ≥ 5 then false
  else if x.code = 4 then true
  else if y.code = 4 then false
  else if x.code = 3 then x.die == y.die
  else if y.code = 3 then false
  else if x.code = 2 then x.crew == y.crew
  else if y.code = 2 then x.code == 1 && x.crew == y.crew && y.alone
  else decide (y.code ≤ x.code) && x.crew == y.crew && x.slot == y.slot

/-- Scope `c` of the hart that steps. -/
def State.hartScope (s : State) (c : Nat) : ScopeOf := ⟨c, s.hart.crew, s.hart.slot, s.crewDie s.hart.crew 0, s.crewAlone s.hart.crew⟩

/-- Scope `c` measured from an object's owner team (R333). -/
def State.ownerScope (s : State) (o : Obj) (c : Nat) : ScopeOf := ⟨c, o.crew, o.slot, s.crewDie o.crew o.die, s.crewAlone o.crew⟩

/-- The location scope of an object's words (R333). -/
def State.objectScope (s : State) (o : Obj) : ScopeOf := s.ownerScope o (if o.scope = 0 then 1 else o.scope)

/-- The home die of a physical address (R322; log 12). -/
def State.homeDie (s : State) (pa : Nat) : Nat := Sparse.get zeroNat s.homes (pa / 65536) % 4

/-- The location scope of a place on a page with the attributes `a` (R304). -/
def State.locationScope (s : State) (p : Place) (a : Attr) : ScopeOf :=
  match p with
  | .pad t _ => match s.team? t with
    | some x => ⟨2, x.crew, x.slot, s.crewDie x.crew 0, s.crewAlone x.crew⟩
    | none => ⟨5, 0, 0, 0, false⟩
  | .phys pa =>
    match s.objAt pa with
    | some o => s.objectScope o
    | none =>
      if pa / 2 ^ 48 = 4 ∨ pa / 2 ^ 48 = 5 then ⟨5, 0, 0, 0, false⟩
      else match a.cls with
        | 0 => ⟨3, 0, 0, s.homeDie pa, false⟩
        | 1 => ⟨4, 0, 0, 0, false⟩
        | 4 => ⟨4, 0, 0, 0, false⟩
        | _ => ⟨5, 0, 0, 0, false⟩

/-! ## References -/

/-- The object that a reference names for the hart's context, if it is live (R329). -/
def State.live (s : State) (r : Word) : Option Obj :=
  if r = 0 ∨ r.toNat ≥ 2 ^ 55 then none else s.objs.find? fun o => o.ctx == s.hart.ctx && o.header == r.toNat && o.whole

/-- Whether an object is private to another team (R334). -/
def Obj.privateToOther (o : Obj) (h : Hart) : Bool := o.scope == 0 && !o.ownedBy h

/-- The first checks of a member that takes a reference (R339, R341, R347): stale, then private to another team. -/
def checkedRef (r : Word) (s : State) (go : Option Obj → State → Res) : Res :=
  match s.live r with
  | none => if r = 0 then go none s else .trap (.own 0x03 r) s
  | some o => if o.privateToOther s.hart then .trap (.own 0x0C r) s else go (some o) s

/-- An 8-byte store's checks at `va` with 8-byte alignment (R337). -/
def wordTarget (va : Word) (s : State) (go : Reached → State → Res) : Res :=
  if va.toNat % 8 ≠ 0 then .trap (.own 0x06 va) s
  else match s.access va 8 .write with
    | (s, .error p) => p.res s
    | (s, .ok r) => go r s

/-- Whether a reference to an object may be stored at a place (R335). -/
def State.mayHold (s : State) (o : Obj) (r : Reached) : Bool :=
  if o.scope = 0 then
    match r.place with
    | .phys pa => match s.objAt pa with
      | some l => l.scope == 0 && l.crew == o.crew && l.slot == o.slot && l.ctx == o.ctx
      | none => false
    | .pad _ _ => false
  else (s.objectScope o).contains (s.locationScope r.place r.attr)

/-- A reference stored at once, with tag 1 where the page is tracked (R328, R339), after the hart's own earlier stores to the word. -/
def State.putReference (s : State) (r : Reached) (v : Word) : State :=
  (s.drain fun q => q.touches r.place 8).perform ⟨r.place, wordBytes v, r.attr.tracked, false, false, s.hart.ctx, r.dirty, r.via, false⟩

/-- Whether a publication walk of another hart of the context is in progress (R342). -/
def State.walkElsewhere (s : State) : Bool := s.others.any fun h => h.ctx == s.hart.ctx && h.walk.any (·.begun)

/-- A member that waits until no walk of its context is in progress (R338, R339, R341, R347). -/
def afterWalks (s : State) (go : State → Res) : Res := if s.walkElsewhere then .hold s else go s

/-- The checks and the store of TAGST in the order of R339, of which SEQFORK's parent word makes use (R356): the whole list of an ST.64 comes
before the escape check, where R69 has escape before the scratchpad bound (DESIGN CHOICE, log 67). -/
def tagStore (v va : Word) (s : State) (go : State → Res) : Res :=
  checkedRef v s fun o s => wordTarget va s fun r s => afterWalks s fun s =>
    match o with
    | some x => if s.mayHold x r then go (s.putReference r v) else .trap (.own 0x0B va) s
    | none => go (s.putReference r v)

/-- TAGST (R339). -/
def execTagst (e : Bool) (d a : GReg) (s : State) : Out := member e (settled s fun s => tagStore (s.g d) (s.g a) s .ok)

/-- The tag of a word as the hart sees it behind its own pending scalar stores (R89, R328). -/
def State.viewTag (s : State) (p : Place) : Bool :=
  match (s.hart.stores.reverse.filter ownScalar).find? (fun q => q.touches p 8) with
  | some q => q.tag
  | none => s.tagAt p

/-- TAGLD (R340), an acquire (R348). -/
def execTagld (e : Bool) (d a : GReg) (s : State) : Out :=
  member e (settled s fun s =>
    let va := s.g a
    if va.toNat % 8 ≠ 0 then .trap (.own 0x06 va) s
    else match s.access va 8 .read with
      | (s, .error p) => p.res s
      | (s, .ok r) =>
        let s := s.eccAccess r.place 8
        if s.viewPoison ownScalar r.place 8 then .trap (.own 0x1A (s.hart.poisonTval va)) s
        else
          let s := s.acquired r.place
          if r.attr.tracked && s.viewTag r.place then .ok (s.setG d (BitVec.ofNat 64 (bytesToNat (s.viewList ownScalar r.place 8))))
          else .ok (s.setG d Word.ones))

/-- TAGCLR (R346): the data bits stay. -/
def execTagclr (e : Bool) (a : GReg) (s : State) : Out :=
  member e (settled s fun s => wordTarget (s.g a) s fun r s =>
    let s := s.drain fun q => q.touches r.place 8
    match r.place with
    | .phys pa => if r.attr.tracked then .ok { s with tags := Sparse.put clearBit s.tags (pa / 8) false } else .ok s
    | .pad _ _ => .ok s)

/-! ## Creating and freeing -/

/-- Objects that a context may still create (R338, R387): what it was granted, less its objects and its children's grants. -/
def State.objectsLeft (s : State) (n : Nat) : Nat :=
  match s.ctx? n with
  | some c => c.objects - (s.objs.filter fun o => o.ctx == n).length - ((s.ctxs.filter fun k => k.parent == some n).map (·.objects)).foldl (· + ·) 0
  | none => 0

/-- The first free entry of a die's object table from `k` on, round the table (R332). -/
def freeEntry (used : List Nat) : Nat → Nat → Nat
  | 0, k => k % 65536
  | fuel + 1, k => if used.contains (k % 65536) then freeEntry used fuel (k + 1) else k % 65536

/-- A shape in the limits of R330: rowbytes, rows, pitch and the two reserved bytes. -/
def shapeRecordLegal (rowbytes rows pitch top : Nat) : Bool :=
  top == 0 && 256 ≤ rowbytes && rowbytes % 256 == 0 && 1 ≤ rows && rows ≤ 2 ^ 24 && rows * rowbytes ≤ 2 ^ 32 &&
    (rows == 1 || (pitch % 256 == 0 && rowbytes ≤ pitch && pitch < 2 ^ 40))

/-- The lines that a shape covers, ascending rows (R330). -/
def coveredLines (base : Word) (rowbytes rows pitch : Nat) : List Word :=
  (List.range rows).flatMap fun r => (List.range (rowbytes / 256)).map fun k => base + Word.ofNat (r * pitch + 256 * k)

/-- The covered lines checked in order (R338), of which those of `claimed` are claimed already: their physical addresses after these, or the
first failure. `home` is the header's home die. -/
def State.claimLines (s : State) (home : Nat) (claimed : List Nat) : List Word → State × Except Stop (List Nat)
  | [] => (s, .ok claimed)
  | va :: rest =>
    match s.access va 256 .claim with
    | (s, .error p) => (s, .error p)
    | (s, .ok r) =>
      match r.place with
      | .pad _ _ => (s, .error (.trap (.own 0x0A va)))
      | .phys pa =>
        if !r.attr.tracked || s.homeDie pa != home then (s, .error (.trap (.own 0x0A va)))
        else if (s.objAt pa).isSome || claimed.contains pa then (s, .error (.trap (.own 0x03 va)))
        else s.claimLines home (claimed ++ [pa]) rest

/-- The header words of an object (R331). -/
def Obj.headerWords (o : Obj) : List Byte :=
  natToBytes (o.pitch / 256 % 2 ^ 32 * 2 ^ 18 + o.die * 2 ^ 16 + o.index) 8 ++ natToBytes o.rowbytes 4 ++ natToBytes o.rows 4

/-- The home die that an address's page has, where it translates. -/
def State.homeOf (s : State) (va : Word) : Nat :=
  match s.lookup s.hart.ctx va.toNat with
  | .ok x => s.homeDie x.pa
  | .error _ => 0

/-- Lines of an object claimed (R338): what the hart stored there before is performed, and every tag is clear. -/
def State.clearLines (s : State) (lines : List Nat) : State :=
  let s := s.drain fun q => match q.place with
    | .phys a => lines.any fun l => decide (l < a + q.data.length) && decide (a < l + 256)
    | .pad _ _ => false
  { s with tags := lines.foldl (fun m l => setMarks m (l / 8) false 32) s.tags }

/-- An object entered with every tag of its lines clear and its header written (R338). -/
def State.enterObject (s : State) (o : Obj) (dirty : List (Nat × Nat)) : State :=
  let s := s.clearLines o.lines
  { s with objs := s.objs ++ [o] }.perform ⟨.phys (o.lines.headD 0), o.headerWords, false, false, false, o.ctx, dirty, [], false⟩

/-- A word of a shape record (R338): neither another team's object nor poison stops the read, and a poisoned word's bits are a free value
(R349, log 63). -/
def State.recordWord (s : State) (va : Word) : State × Except Stop Nat :=
  match s.access va 8 .record with
  | (s, .error p) => (s, .error p)
  | (s, .ok r) =>
    let s := s.eccAccess r.place 8
    if s.viewPoison ownScalar r.place 8 then
      let (s, k) := s.draw
      (s, .ok (Config.freeWord k).toNat)
    else
      let (s, bs) := s.readList ownScalar r.place 8
      (s, .ok (bytesToNat bs))

/-- The partial object that an OBJNEW of the hart at `a` has left where a pre-emption stopped it (R338). -/
def State.partialAt (s : State) (a : Word) : Option Obj :=
  if s.hart.elix = 0 then none else s.objs.find? fun o => !o.whole && o.header == a.toNat && o.ownedBy s.hart

/-- The dirty bits of the page that holds a header. -/
def State.headerDirty (s : State) (a : Word) : List (Nat × Nat) :=
  match s.reach a 16 .claim with
  | (_, .ok r) => r.dirty
  | (_, .error _) => []

/-- The object of an OBJNEW: private to the hart's team (R332, R338). -/
def State.teamObject (s : State) (a : Word) (die index rowbytes rows pitch : Nat) (lines : List Nat) (whole : Bool) : Obj :=
  let c := s.crew? s.hart.crew
  { die := die, index := index, ctx := s.hart.ctx, header := a.toNat, rowbytes := rowbytes, rows := rows, pitch := pitch, crew := s.hart.crew, slot := s.hart.slot
    launch := (c.map (·.launch)).getD 0, stage := (c.map (·.stage)).getD 0, crewIndex := (c.map (·.index)).getD 0, scope := 0, lines := lines, whole := whole
    stamp := 0, leases := [] }

/-- The claims of OBJNEW from line ELIX on (R338): `before` is the partial object of an execution that a pre-emption has stopped. A failure
releases every line and the entry. -/
def createObject (d : GReg) (a : Word) (before : Option Obj) (home index rowbytes rows pitch : Nat) (s : State) : Res :=
  let all := coveredLines a rowbytes rows pitch
  let from' := (before.map fun o => o.lines.length).getD 0
  let upto := (s.hart.cut.map fun c => min c all.length).getD all.length
  let s := { s with objs := s.objs.filter fun o => o.whole || before != some o }
  match s.claimLines home ((before.map (·.lines)).getD []) ((all.take upto).drop from') with
  | (s, .error (.trap t)) => .trap t (s.modHart fun h => { h with elix := 0 })
  | (s, .error .wait) => .hold { s with objs := s.objs ++ before.toList }
  | (s, .ok ls) =>
    if upto < all.length then
      .hold (({ s.clearLines ls with objs := s.objs ++ [s.teamObject a home index rowbytes rows pitch ls false] } : State).modHart fun h => { h with elix := upto, cut := none })
    else .ok ((s.enterObject (s.teamObject a home index rowbytes rows pitch ls true) (s.headerDirty a)).setG d a)

/-- OBJNEW (R338). Which free entry it takes the spec leaves open: a free value. -/
def newObject (d : GReg) (a b : Word) (s : State) : Res :=
  if a.toNat % 256 ≠ 0 then .trap (.own 0x06 a) s
  else if b.toNat % 8 ≠ 0 then .trap (.own 0x06 b) s
  else match s.recordWord b with
    | (s, .error p) => p.res s
    | (s, .ok w0) =>
      match s.recordWord (b + 8) with
      | (s, .error p) => p.res s
      | (s, .ok w1) =>
        let rowbytes := w0 % 2 ^ 32
        let rows := w0 / 2 ^ 32
        let pitch := w1 % 2 ^ 48
        let home := s.homeOf a
        let used := (s.objs.filter fun o => o.die == home).map (·.index)
        if !shapeRecordLegal rowbytes rows pitch (w1 / 2 ^ 48) then .trap (.own 0x03 b) s
        else match s.partialAt a with
          | some o => afterWalks s (createObject d a (some o) o.die o.index rowbytes rows pitch)
          | none =>
            if s.objectsLeft s.hart.ctx = 0 then .trap (.own 0x16 1) s
            else if used.length ≥ 65536 then .ok (s.setG d 0)
            else afterWalks s fun s =>
              let (s, k) := s.draw
              createObject d a none home (freeEntry used (used.length + 1) (Config.freeChoice k)) rowbytes rows pitch s

/-- OBJNEW: its operands are read once, at issue (R143). -/
def execObjnew (e : Bool) (d a b : GReg) (s : State) : Out :=
  member e (settled s fun s =>
    let (s, x, y) := s.atIssue (s.g a) (s.g b)
    newObject d x y s)

/-- OBJFREE (R347): the header words become 0, and every line a plain tracked line. -/
def execObjfree (e : Bool) (a : GReg) (s : State) : Out :=
  member e (settled s fun s =>
    let r := s.g a
    if r = 0 then .trap (.own 0x03 r) s
    else checkedRef r s fun o s =>
      match o with
      | none => .ok s
      | some o => afterWalks s fun s =>
        let s := s.drainAll
        let s := { s with objs := s.objs.filter fun x => !(x.die == o.die && x.index == o.index) }
        .ok (s.perform ⟨.phys (o.lines.headD 0), List.replicate 16 0, false, false, false, o.ctx, [], [], false⟩))

/-- OBJPRB (R345). -/
def execObjprb (e : Bool) (d a : GReg) (s : State) : Out :=
  member e (settled s fun s =>
    let va := s.g a
    match s.hart.padOffset va with
    | some _ => .ok (s.setG d 0)
    | none =>
      match s.lookup s.hart.ctx va.toNat with
      | .error f => (f.stop va).res s
      | .ok x =>
        match s.setAccessed s.hart.ctx x.leaves with
        | (s, some f) => (f.stop va).res s
        | (s, none) =>
          match s.attrFault x with
          | some f => (f.stop va).res s
          | none =>
            match s.objAt x.pa with
            | some o =>
              if o.ctx != s.hart.ctx || !o.whole then .ok (s.setG d 0)
              else
                .ok (s.setG d (Word.ofNat (o.header + (if o.ownedBy s.hart then 2 ^ 59 else 0) + max 1 o.scope * 2 ^ 60 + if o.scope = 0 then 0 else 2 ^ 63)))
            | none => .ok (s.setG d 0))

/-! ## The walk -/

/-- The scope that the condition of R342 asks of an object for a publication at `want`: the least that contains it, and never less
than its present one. -/
def State.targetScope (s : State) (want : ScopeOf) (o : Obj) : Nat :=
  max o.scope ((([1, 2, 3, 4].find? fun c => (s.ownerScope o c).contains want)).getD 5)

/-- Whether an object satisfies the condition already. -/
def State.meetsScope (s : State) (want : ScopeOf) (o : Obj) : Bool := o.scope != 0 && decide (s.targetScope want o ≤ o.scope)

/-- Two names of one entry. -/
def Obj.same (x y : Obj) : Bool := x.die == y.die && x.index == y.index

/-- Whether the walk enters an object: it is not private to another team, and does not satisfy the condition (R342). -/
def State.enters (s : State) (want : ScopeOf) (o : Obj) : Bool := !o.privateToOther s.hart && !s.meetsScope want o

/-- The objects that the tagged words of an object name (R342). -/
def State.references (s : State) (o : Obj) : List Obj :=
  o.lines.flatMap fun l => (List.range 32).filterMap fun k =>
    if s.tagAt (.phys (l + 8 * k)) then s.live (s.physWord (l + 8 * k)) else none

/-- The objects among `objs` that are reached from those of `front`, which are counted in `seen`; `fuel` bounds the steps. -/
def State.reachFrom (s : State) (ok : Obj → Bool) : Nat → List Obj → List Obj → List Obj
  | 0, seen, _ => seen
  | fuel + 1, seen, front =>
    let step := front.foldl (fun (acc : List Obj × List Obj) o => (s.references o).foldl (fun acc x =>
      if ok x && !acc.1.any x.same then (acc.1 ++ [x], acc.2 ++ [x]) else acc) acc) (seen, [])
    if step.2.isEmpty then step.1 else s.reachFrom ok fuel step.1 step.2

/-- The closure of an object: what it reaches that the walk enters, itself included. -/
def State.closure (s : State) (want : ScopeOf) (o : Obj) : List Obj := s.reachFrom (s.enters want) (s.objs.length + 1) [o] [o]

/-- The member of a list with the least closure, which is a strongly connected set that reaches nothing outside it. -/
def leastClosure : List (List Obj) → List Obj
  | [] => []
  | [c] => c
  | c :: rest => let m := leastClosure rest; if c.length ≤ m.length then c else m

/-- A set published as one step (R342). -/
def State.publishSet (s : State) (want : ScopeOf) (set : List Obj) : State :=
  { s with objs := s.objs.map fun o => if set.any o.same then { o with scope := s.targetScope want o } else o }

/-- What a walk does next (R342, R343). -/
inductive WalkStep where
  /-- Every object reached satisfies the condition. -/
  | done
  /-- The next set would pass the limit. -/
  | limit
  /-- One more set has changed, of `n` objects. -/
  | changed (n : Nat)
  deriving DecidableEq, Repr

/-- One set of a walk from `root`, which has changed `n` objects (R342, R343): strongly connected sets are changed in reverse topological
order, and which of those that may come next does so is a free choice. -/
def State.walkStep (s : State) (want : ScopeOf) (root : Obj) (n : Nat) : State × WalkStep :=
  if !s.enters want root then (s, .done)
  else
    let rest := s.closure want root
    let (s, k) := s.draw
    let from' := s.closure want (rest.getD (Config.freeChoice k % rest.length) root)
    let set := leastClosure (from'.map (s.closure want))
    if n + set.length > 4096 then (s, .limit) else (s.publishSet want set, .changed set.length)

/-- The hart's walk, which joins the walks of its context that wait if it has not yet (R342). -/
def State.joinWalks (s : State) (v : Word) (c : Nat) : State × Walk :=
  match s.hart.walk with
  | some w => (s, w)
  | none =>
    let w : Walk := ⟨v, c, 0, false, s.nextId⟩
    ({ s with nextId := s.nextId + 1 }.modHart fun h => { h with walk := some w }, w)

/-- Whether a walk of the hart is next in its context: no other is in progress, and none has waited longer (R342). -/
def State.walksNext (s : State) (w : Walk) : Bool :=
  !s.others.any fun h => h.ctx == s.hart.ctx && h.walk.any fun x => x.begun || decide (x.ticket < w.ticket)

/-- Publication of everything that `v` reaches at scope code `c` of the hart (R341 to R344), after every earlier access of the hart, one set
in a step: between sets a pre-emption may stop the walk or a freeze may gate it, and the other walks of the context wait. -/
def publish (v : Word) (c : Nat) (o : Option Obj) (s : State) (go : Nat → State → Res) : Res :=
  let (s, w) := s.joinWalks v c
  if !s.walksNext w then .hold s
  else
    let s := s.drainAll
    let ended (s : State) : State := s.modHart fun h => { h with walk := none }
    match o with
    | none => go w.changed (ended s)
    | some o =>
      match s.walkStep (s.hartScope c) o w.changed with
      | (s, .done) => go w.changed (ended s)
      | (s, .limit) => .trap (.own 0x15 v) (ended s)
      | (s, .changed k) => .hold (s.modHart fun h => { h with walk := some { w with changed := w.changed + k, begun := true } })

/-- PUB (R341): the store is a release, performed after the walk. -/
def execPub (e : Bool) (c : BitVec 3) (a b : GReg) (s : State) : Out :=
  member e (settled s fun s =>
    let v := s.g b
    checkedRef v s fun o s => wordTarget (s.g a) s fun r s =>
      let loc := s.locationScope r.place r.attr
      let code := ([1, 2, 3, 4].find? fun k => decide (c.toNat ≤ k) && (s.hartScope k).contains loc).getD 5
      publish v code o s fun _ s => .ok (s.putReference r v))

/-- PUBW (R341). -/
def execPubw (e : Bool) (d a : GReg) (c : BitVec 3) (s : State) : Out :=
  member e (settled s fun s =>
    let v := s.g a
    checkedRef v s fun o s => publish v c.toNat o s fun n s => .ok (s.setG d (Word.ofNat n)))

end Sys2Proof.Machine
end

