-- ==== Sys2Proof/Machine/Region.lean ====
section
/-!
DEFINITION. Exit regions: VXARM, VXIT, VXCLR, VXLEN, VXWAIT, VXFX, BXANY and BXNONE (R181 to R203, R452). When an exit test resolves
is the device's (R184): the model takes it from `State.unresolved` and from the events of R184 (log 16). Its candidate counts for every
younger instruction from the test on, as R185 has it whenever the test resolves.
-/
namespace Sys2Proof.Machine

/-- The region closed, with BX and FX clear (R201). -/
def State.closeRegion (s : State) : State :=
  s.modHart fun h => { h with region := Region.closed, regs := { h.regs with bx := Word.ones, fx := Word.ones } }

/-- VXARM closes an open region first, then opens one (R199). -/
def execVxarm (e : Bool) (_m : Bool) (s : State) : Out :=
  member e (settled s fun s => .ok (s.closeRegion.modRegion fun r => { r with isOpen := true }))

/-- The candidate of an exit test (R183). -/
def Hart.candidate (h : Hart) (a : MReg) (m : Bool) : Option Nat :=
  (List.range h.regs.vl).find? fun i => h.active m i && h.regs.mask a.toNat i

/-- A candidate of an exit test: it lowers BX, and the older trims of the strip that are undecided will be suppressed (R187, R452). -/
def State.exitFound (s : State) (c : Nat) : State :=
  (s.modRegs fun r => { r with bx := if c < r.bx.toNat then Word.ofNat c else r.bx }).modRegion fun r =>
    { r with trims := r.trims.map fun t => if t.held then t else { t with suppressed := true } }

/-- An exit test issued: it has resolved, or stays open (R184). -/
def State.testIssued (s : State) : State :=
  { s with unresolved := s.unresolved.drop 1 }.modRegion fun r => { r with pending := r.pending || s.unresolved.headD false }

/-- VXIT (R183, R187, R200). -/
def execVxit (e : Bool) (a : MReg) (m : Bool) (s : State) : Out :=
  member e (illegalRegister s.hart.region.isOpen (encV e 0x35 0 (ofMask a) 0 m 1) s fun s =>
    match s.hart.candidate a m with
    | none => .ok s.testIssued
    | some c => .ok (s.exitFound c).testIssued)

/-- VXCLR (R201). -/
def execVxclr (e : Bool) (_m : Bool) (s : State) : Out := member e (settled s fun s => .ok s.closeRegion)

/-- VXLEN (R202). -/
def execVxlen (e : Bool) (d : GReg) (_m : Bool) (s : State) : Out :=
  member e (.ok (s.setG d (Word.ofNat (min s.hart.regs.vl s.hart.regs.bx.toNat))))

/-- The present strip of an open region resolved (R184). -/
def Region.settle (r : Region) : Region := { r with resolved := r.resolved || r.isOpen }

/-- A member at which the strip ends, and which waits until every strip has resolved (R184, R190, R201). -/
def stripEnd (s : State) (k : State → Res) : Res :=
  if s.hart.sure then k (s.modRegion Region.settle)
  else match s.decideTrims true with
    | .error t => .moved t
    | .ok s => k s

/-- VXWAIT (R201). -/
def execVxwait (e : Bool) (_m : Bool) (s : State) : Out := member e (stripEnd s .ok)

/-- VXFX (R202). -/
def execVxfx (e : Bool) (d : GReg) (_m : Bool) (s : State) : Out := member e (.ok (s.setG d s.hart.regs.fx))

/-- The next strip begins (R181, R182). -/
def State.nextStrip (s : State) : State :=
  s.modHart fun h => { h with region := { h.region with resolved := false }, regs := { h.regs with bx := Word.ones, fx := Word.ones } }

/-- Whether an XBR goes on without waiting for its strip (R190): the strip that follows would be speculative, as XRD and the checkpoints
allow. Where no exit test of its own strip is open, its direction is known, and an exit waits for the older strips. -/
def Hart.predicts (h : Hart) : Bool :=
  h.region.isOpen && !h.region.exited && !h.region.resolved && (h.region.pending || (!h.region.strips.isEmpty && h.regs.bx == Word.ones)) &&
    decide (h.region.strips.length + 1 ≤ h.xrd.toNat) && decide (h.region.checkpoints < 4)

/-- The strip ended by a predicting XBR (R190): it waits for its tests with what it holds, and `exit` is where an exit takes the hart. -/
def State.endStrip (s : State) (exit : State) : State :=
  s.modHart fun h => { h with
    caddy := []
    region := { h.region with
      pending := false, trims := []
      strips := h.region.strips ++ [⟨h.region.trims, h.caddy, h.region.pending, h.regs.bx, exit.hart.regs, exit.hart.pc⟩] } }

/-- BXANY and BXNONE (R181, R190, R203): `onExit` is the direction taken at an exit. One that predicts takes the direction of no exit. One
that does not waits until its strip resolves (a checkpoint has every older vector load performed): an undecided trim is genuine there (R452); an exit makes the strip the exited one, and no
exit ends the strip. -/
def exitBranch (onExit : Bool) (e : Bool) (o : BitVec 11) (s : State) : Out :=
  let go (exit : Bool) (s : State) : Res := if exit == onExit then take s (targetOf s.hart.pc o) else .ok s
  member e (
    if s.hart.predicts then
      let s := s.performLate
      go false (s.endStrip (complete e (go true s))).nextStrip
    else stripEnd s fun s =>
      let exit := s.hart.regs.bx != Word.ones
      go exit (
        if !s.hart.region.isOpen then s
        else if exit then s.modRegion fun r => { r with exited := true, resolved := true }
        else s.nextStrip))

def execBxany (e : Bool) (o : BitVec 11) (s : State) : Out := exitBranch true e o s
def execBxnone (e : Bool) (o : BitVec 11) (s : State) : Out := exitBranch false e o s

end Sys2Proof.Machine
end

