-- ==== Sys2Proof/Machine/Sequences.lean ====
section
/-!
DEFINITION. Key-value sequences, rotary angles and run-ahead gathers (R350 to R368).
-/
namespace Sys2Proof.Machine

/-! ## Table words -/

/-- What an access to a table word asks of its page: RAW (R350, R352). The windows are RAW too. -/
def State.rawWant (s : State) (va : Word) : Option Want :=
  match s.hart.padOffset va with
  | some _ => none
  | none => match s.lookup s.hart.ctx va.toNat with
    | .ok x => some ⟨false, x.attr.fmt, x.attr.geom, x.attr.fmt != 0⟩
    | .error _ => none

/-- A table word read, behind the hart's own pending stores of the kind `sel`. -/
def State.tableLoad (s : State) (sel : Pending → Bool) (va : Word) : State × Except Stop Nat :=
  match s.access va 8 .read (s.rawWant va) with
  | (s, .error p) => (s, .error p)
  | (s, .ok r) =>
    let s := s.eccAccess r.place 8
    if s.viewPoison sel r.place 8 then (s, .error (.trap (.own 0x1A (s.hart.poisonTval va))))
    else
      let (s, bs) := s.readList sel r.place 8
      (s, .ok (bytesToNat bs))

/-- The checks of a store to a table word. -/
def State.tableTarget (s : State) (va : Word) : State × Except Stop Reached := s.access va 8 .write (s.rawWant va)

/-- A plain store of a table word that passed its checks (R356, R357). -/
def State.tableStore (s : State) (r : Reached) (v : Nat) : State :=
  (s.eccAccess r.place 8).issueStore ⟨r.place, natToBytes v 8, false, false, false, s.hart.ctx, r.dirty, r.via, false⟩

/-- Table words read in order. -/
def State.tableWords (s : State) (sel : Pending → Bool) : List Word → State × Except Stop (List Nat)
  | [] => (s, .ok [])
  | va :: rest =>
    match s.tableLoad sel va with
    | (s, .error p) => (s, .error p)
    | (s, .ok x) =>
      match s.tableWords sel rest with
      | (s, .error p) => (s, .error p)
      | (s, .ok xs) => (s, .ok (x :: xs))

/-- The descriptor of a table: extent, depth, C and rowbytes (R350). -/
structure SeqTable where
  extent : Nat
  depth : Nat
  cap : Nat
  rowbytes : Nat
  deriving DecidableEq, Repr

/-- The descriptor words of R350 as a table, if they are well formed: info, cap, row and the zero words. -/
def seqTable (info cap row z0 z1 : Nat) : Option SeqTable :=
  let rb := row % 65536
  if z0 ≠ 0 ∨ z1 ≠ 0 ∨ info / 2 ^ 35 ≠ 0 ∨ bitsOf info 34 32 > 4 ∨ cap / 2 ^ 28 ≠ 0 ∨ row / 65536 ≠ 0 ∨ rb % 8 ≠ 0 ∨ rb < 8 ∨ rb > 4096 then none
  else some ⟨info % 2 ^ 32, bitsOf info 34 32, cap, rb⟩

/-- The descriptor of the table at `x`, whose info word has been read, read on and checked (R350). -/
def State.describe (s : State) (sel : Pending → Bool) (x : Word) (info : Nat) : State × Except Stop SeqTable :=
  match s.tableWords sel [x + 0x20, x + 0x28, x + 0x30, x + 0x38] with
  | (s, .error p) => (s, .error p)
  | (s, .ok ws) =>
    match seqTable info (ws.getD 0 0) (ws.getD 1 0) (ws.getD 2 0) (ws.getD 3 0) with
    | none => (s, .error (.trap (.own 0x03 x)))
    | some t => (s, .ok t)

/-- The descriptor of the table at `x` read and checked (R350). -/
def State.descriptor (s : State) (sel : Pending → Bool) (x : Word) : State × Except Stop SeqTable :=
  match s.tableLoad sel (x + 0x18) with
  | (s, .error p) => (s, .error p)
  | (s, .ok info) => s.describe sel x info

/-- An entry that R351 allows. -/
def entryLegal (e : Nat) : Bool := e / 2 ^ 55 == 0 && bitsOf e 7 1 == 0

/-- The lookup of block `blk` of position `p` from table `x` on, whose descriptor is `d` (R352): `t` is the first table, `left` the levels
below this one. -/
def State.seqWalk (s : State) (sel : Pending → Bool) (t : Word) (p : Nat) : Nat → Word → SeqTable → State × Except Stop Nat
  | left, x, d =>
    let blk := p / 16
    let entry : State × Except Stop Nat := if blk < d.cap then s.tableLoad sel (x + Word.ofNat (0x40 + 8 * blk)) else (s, .ok 0)
    match entry with
    | (s, .error q) => (s, .error q)
    | (s, .ok e) =>
      if blk < d.cap && !entryLegal e then (s, .error (.trap (.own 0x03 x)))
      else if e % 2 = 1 then (s, .ok (bitsOf e 54 8 * 256))
      else
        match s.tableLoad sel (x + 0x10) with
        | (s, .error q) => (s, .error q)
        | (s, .ok w) =>
          let y := Word.ofNat (w % 2 ^ 55)
          if y = 0 then (s, .error (.trap (.own 0x13 (Word.ofNat p))))
          else match left with
            | 0 => (s, .error (.trap (.own 0x12 t)))
            | left + 1 =>
              if y.toNat % 256 ≠ 0 then (s, .error (.trap (.own 0x03 y)))
              else match s.descriptor sel y with
                | (s, .error q) => (s, .error q)
                | (s, .ok d) => s.seqWalk sel t p left y d

/-- The lookup of R352: the page of position `p` and the rowbytes of `t`. Each word is read once. -/
def State.seqLookup (s : State) (sel : Pending → Bool) (t : Word) (p : Nat) : State × Except Stop (Nat × Nat) :=
  match s.tableLoad sel (t + 0x18) with
  | (s, .error q) => (s, .error q)
  | (s, .ok info) =>
    if p ≥ info % 2 ^ 32 then (s, .error (.trap (.own 0x13 (Word.ofNat p))))
    else match s.describe sel t info with
      | (s, .error q) => (s, .error q)
      | (s, .ok d) =>
        match s.seqWalk sel t p 4 t d with
        | (s, .error q) => (s, .error q)
        | (s, .ok page) => (s, .ok (page, d.rowbytes))

/-! ## VSEQ -/

/-- The row of element `i` (R354): its address, and rowbytes. -/
def State.seqRow (s : State) (sel : Pending → Bool) (t packed : Word) (i : Nat) : State × Except Stop (Word × Nat) :=
  let p := packed.toNat % 2 ^ 32 + i
  if p ≥ 2 ^ 32 then (s, .error (.trap (.own 0x13 (Word.ofNat p))))
  else if t.toNat % 256 ≠ 0 then (s, .error (.trap (.own 0x06 t)))
  else match s.seqLookup sel t p with
    | (s, .error q) => (s, .error q)
    | (s, .ok (page, rb)) => (s, .ok (Word.ofNat (page + bitsOf packed.toNat 63 63 * 16 * rb + p % 16 * rb), rb))

/-- The address of element `i` and the half of its byte, or why it has none (R354). Where the row's own page has no translation, the
element's address is formed with the VT width, and the fault is that page's, whatever page that address lies on. -/
def State.seqElement (s : State) (sel : Pending → Bool) (t packed : Word) (vt : BitVec 7) (i : Nat) : State × Except Stop (Word × Bool) :=
  match s.seqRow sel t packed i with
  | (s, .error q) => (s, .error q)
  | (s, .ok (a, rb)) =>
    let c := bitsOf packed.toNat 62 32
    let at' (bits : Nat) : Word := a + Word.ofNat (c * bits / 8)
    match s.baseOf a with
    | (s, .missing f) => (s, .error (f.stop (at' (8 * vtBytes vt))))
    | (s, base) =>
      let bits := elemBits base.fmt vt
      if c * bits ≥ rb * 8 then (s, .error (.trap (.own 0x03 packed)))
      else (s, .ok (at' bits, bits == 4 && c % 2 == 1))

/-- The base page of a VSEQ: the page of its lowest active element's row. Of one that resumes, and of a popped gather, some of whose elements
have been read, it is the first page of `act` that can be had. An element whose row or page cannot be had fails by itself, and the record lists the missing pages
of table words and rows alike (R354). -/
def State.seqBase (s : State) (sel : Pending → Bool) (t packed : Word) : List Nat → State × Base
  | [] => (s, .unknown)
  | i :: rest =>
    match s.seqRow sel t packed i with
    | (s, .error _) => s.seqBase sel t packed rest
    | (s, .ok (a, _)) =>
      match s.baseOf a with
      | (s, .missing _) => s.seqBase sel t packed rest
      | r => r

/-- The addresses of elements, and whether one of them waits. -/
def State.seqElements (s : State) (sel : Pending → Bool) (t packed : Word) (vt : BitVec 7) :
    List Nat → State × Bool × List (Nat × Except Trap (Word × Bool))
  | [] => (s, false, [])
  | i :: is =>
    let (s, r) := s.seqElement sel t packed vt i
    let (s, waits, more) := s.seqElements sel t packed vt is
    match r with
    | .ok a => (s, waits, (i, .ok a) :: more)
    | .error (.trap q) => (s, waits, (i, .error q) :: more)
    | .error .wait => (s, true, more)

/-- The elements `act` read through a table into register `d` under `vt` (R354): as a strided load that never trims (R355). -/
def seqRead (d : Nat) (vt : BitVec 7) (vl : Nat) (t packed : Word) (seed : Word) (prior : Bool) (base : Base) (act : List Nat) (s : State) : Res :=
  let sel := ownOrdered 0
  let (s, waits, elems) := s.seqElements sel t packed vt act
  if waits then .hold s
  else sweep { store := false, indexed := false, reg := d, minor := 0, vt := vt, vl := vl, seed := seed, aligned := false, planes := s.hart.splanes, base := base
               baseVa := t, prior := prior, elems := elems }
    (fun _ => []) false s

/-- VSEQ (R354). -/
def execVseq (e : Bool) (d : VReg) (a b : GReg) (m : Bool) (s : State) : Out :=
  member e (settled s fun s =>
    let (s, t, packed) := s.atIssue (s.g a) (s.g b)
    let h := s.hart
    match h.elements.filter (h.active m) with
    | [] => s.through
    | i :: rest =>
      let (s, base) := s.seqBase (ownOrdered 0) t packed (if h.resumes then (List.range h.regs.vl).filter (h.active m) else [i])
      seqRead d.toNat h.regs.vt h.regs.vl t packed h.seed h.m15only base (i :: rest) s)

/-! ## Run-ahead gathers -/

/-- The results of a queued gather from element `i` on (R364): those below its lowest failing element, whose index ends them; none when
the device must wait. -/
def State.gatherRun (s : State) (g : GatherDesc) (base : Base) : List Nat → State × Option (Nat × List Nat)
  | [] => (s, some (g.vl, []))
  | i :: is =>
    let w : Sweep := { store := false, indexed := false, reg := 0, minor := 0, vt := g.vt, vl := g.vl, seed := g.seed, aligned := false, planes := s.hart.splanes, base := base, baseVa := g.table, prior := false, elems := [] }
    match s.seqElement (fun _ => true) g.table g.packed g.vt i with
    | (s, .error .wait) => (s, none)
    | (s, .error (.trap _)) => (s, some (i, []))
    | (s, .ok a) =>
      match s.checkElem w i a.1 a.2 with
      | (s, .error .wait) => (s, none)
      | (s, .error (.trap _)) => (s, some (i, []))
      | (s, .ok x) =>
        match s.gatherRun g base is with
        | (s, none) => (s, none)
        | (s, some (j, xs)) => (s, some (j, x.value :: xs))

/-- Queued gather `k` of the hart performed, after every earlier store of the hart (R364, R366). -/
def State.performGather (s : State) (k : Nat) : State :=
  match s.hart.gathers[k]? with
  | none => s
  | some g =>
    if g.performed.isSome then s
    else
      let s := s.drainAll
      let (s, base) := s.seqBase (fun _ => true) g.table g.packed [0]
      let (s, r) := s.gatherRun g base (List.range g.vl)
      s.modHart fun h => { h with gathers := h.gathers.modify k fun g => { g with performed := r } }

/-- Every gather of the hart's queue performed, head first: after a restoration, before the hart issues its first convoy (R367). -/
def State.performGathers (s : State) : State := (List.range s.hart.gathers.length).foldl State.performGather s

/-- VGQ (R363, R364): the device performs the gather at once, or later when `State.hold` says so. -/
def execVgq (e : Bool) (a b : GReg) (_m : Bool) (s : State) : Out :=
  member e (settled s fun s =>
    if s.hart.gathers.length ≥ min 16 s.hart.grd.toNat then .hold s
    else
      let k := s.hart.gathers.length
      let g : GatherDesc := { vt := s.hart.regs.vt, vl := s.hart.regs.vl, seed := s.hart.rseed, table := s.g a, packed := s.g b, performed := none }
      let late := s.hold.headD false
      let s := { s with hold := s.hold.drop 1, hart := { s.hart with gathers := s.hart.gathers ++ [g] } }
      .ok (if late then s else s.performGather k))

/-- A result's change of the state where the member completes. -/
def Res.whenDone (f : State → State) : Res → Res
  | .ok s => .ok (f s)
  | r => r

/-- The head of the queue notes the element at which its VGQPOP has stopped (R365, R367). -/
def State.notePop (s : State) : State :=
  s.modHart fun h => { h with gathers := h.gathers.modifyHead fun g => { g with popped := h.elix } }

/-- A VGQPOP that has not completed notes where it has stopped. -/
def Res.notePop : Res → Res
  | .ok s => .ok s
  | .jump s t => .jump s t
  | .trap t s => .trap t s.notePop
  | .hold s => .hold s.notePop
  | .moved s => .moved s.notePop

/-- VGQPOP (R365). -/
def execVgqpop (e : Bool) (d : VReg) (m : Bool) (s : State) : Out :=
  let w := encV e 0x37 d 0 0 m 4
  member e (settled s fun s => illegalRegister (!s.hart.gathers.isEmpty) w s fun s =>
    let s := s.performGather 0
    match s.hart.gathers with
    | [] => .ok s
    | g :: rest =>
      match g.performed with
      | none => .hold s
      | some (j, xs) =>
        illegalRegister (decide (g.vl * vtBytes g.vt ≤ s.hart.rb)) w s fun s =>
          let width := vtBytes g.vt
          let upto := (s.hart.cut.map fun c => min c g.vl).getD g.vl
          let from' := s.hart.elix
          let todo := (List.range upto).filter fun i => decide (from' ≤ i)
          let s := s.modHart fun h => (todo.filter fun i => decide (i < j)).foldl (fun h i => h.setElem d.toNat width i (xs.getD i 0)) h
          let again := todo.filter fun i => decide (j ≤ i)
          let (s, base) := if again.isEmpty then (s, Base.unknown) else s.seqBase (ownOrdered 0) g.table g.packed (0 :: again)
          (if again.isEmpty then s.throughTo g.vl else seqRead d.toNat g.vt g.vl g.table g.packed g.seed false base again s).notePop.whenDone
            fun s => s.modHart fun h => { h with gathers := rest })

/-! ## Building tables -/

/-- The entries of a child from `k` on cleared (R356): the state, and the failure with the entry that it stopped at. -/
def State.clearEntries (s : State) (child : Word) : Nat → Nat → State × Option (Nat × Stop)
  | 0, _ => (s, none)
  | left + 1, k =>
    match s.tableTarget (child + Word.ofNat (0x40 + 8 * k)) with
    | (s, .error p) => (s, some (k, p))
    | (s, .ok r) => (s.tableStore r 0).clearEntries child left (k + 1)

/-- Table words stored in order, until one fails. -/
def State.tableStores (s : State) : List (Word × Nat) → State × Option Stop
  | [] => (s, none)
  | (va, v) :: rest =>
    match s.tableTarget va with
    | (s, .error p) => (s, some p)
    | (s, .ok r) => (s.tableStore r v).tableStores rest

/-- A failure of SEQFORK at entry `k`. -/
def seqStop (k : Nat) (p : Stop) (s : State) : Res :=
  match p with
  | .trap t => .trap t (s.modHart fun h => { h with elix := k })
  | .wait => .hold (s.modHart fun h => { h with elix := k })

/-- The end of SEQFORK: the descriptor words, then g[d] (R356). -/
def forkWords (d : GReg) (child parent : Word) (t : SeqTable) (cap : Nat) (s : State) : Res :=
  let rest (s : State) : Res :=
    match s.tableStores [(child + 0x18, min t.extent (16 * cap) + (t.depth + 1) * 2 ^ 32), (child + 0x28, t.rowbytes), (child + 0x30, 0), (child + 0x38, 0)] with
    | (s, some p) => seqStop cap p s
    | (s, none) => .ok (s.setG d (Word.ofNat (t.depth + 1)))
  if (s.live parent).isSome then
    match s.tableTarget (child + 0x10) with
    | (s, .error p) => seqStop cap p s
    | (s, .ok _) =>
      match tagStore parent (child + 0x10) s .ok with
      | .ok s => rest s
      | .trap q s => seqStop cap (.trap q) s
      | r => r
  else
    match s.tableStores [(child + 0x10, parent.toNat)] with
    | (s, some p) => seqStop cap p s
    | (s, none) => rest s

/-- SEQFORK (R356): its operands are read once, at issue (R353), and a pre-emption may stop it at an entry. -/
def execSeqfork (e : Bool) (d a b : GReg) (_m : Bool) (s : State) : Out :=
  member e (settled s fun s =>
    let (s, child, parent) := s.atIssue (s.g a) (s.g b)
    if child.toNat % 256 ≠ 0 then .trap (.own 0x06 child) s
    else if parent.toNat % 256 ≠ 0 then .trap (.own 0x06 parent) s
    else match s.descriptor ownScalar parent with
      | (s, .error p) => p.res s
      | (s, .ok t) =>
        if t.depth = 4 then .trap (.own 0x12 parent) s
        else if s.walkElsewhere then .hold s
        else match s.tableLoad ownScalar (child + 0x20) with
          | (s, .error p) => p.res s
          | (s, .ok cap) =>
            if cap / 2 ^ 28 ≠ 0 then .trap (.own 0x03 child) s
            else
              let upto := (s.hart.cut.map fun c => min c cap).getD cap
              match s.clearEntries child (upto - s.hart.elix) s.hart.elix with
              | (s, some (k, p)) => seqStop k p s
              | (s, none) => match s.throughTo cap with
                | .ok s => forkWords d child parent t cap s
                | r => r)

/-- SEQMAP (R357): both words are checked before either is written. -/
def execSeqmap (e : Bool) (d a b : GReg) (_m : Bool) (s : State) : Out :=
  member e (settled s fun s =>
    let table := s.g a
    let p := (s.g b).toNat
    let entry := s.g d
    if table.toNat % 256 ≠ 0 then .trap (.own 0x06 table) s
    else match s.descriptor ownScalar table with
      | (s, .error q) => q.res s
      | (s, .ok t) =>
        if p ≥ 2 ^ 32 ∨ p / 16 ≥ t.cap then .trap (.own 0x13 (Word.ofNat p)) s
        else if !entryLegal entry.toNat then .trap (.own 0x03 entry) s
        else match s.tableTarget (table + Word.ofNat (0x40 + 8 * (p / 16))) with
          | (s, .error q) => q.res s
          | (s, .ok r) =>
            if entry.toNat % 2 = 1 then
              match s.tableTarget (table + 0x18) with
              | (s, .error q) => q.res s
              | (s, .ok i) => .ok ((s.tableStore r entry.toNat).tableStore i (max t.extent (p + 1) + t.depth * 2 ^ 32))
            else .ok (s.tableStore r entry.toNat))

/-! ## Rotary angles -/

/-- VRANG and VROT run at VT width 32 with variant 0 alone (R360). -/
def rotaryVt (s : State) : Bool := s.hart.width == 4 && vtVariant s.hart.regs.vt == 0

/-- VRANG (R361). -/
def execVrang (e : Bool) (d a : VReg) (b : GReg) (m : Bool) (s : State) : Out :=
  let (s, p, _) := s.atIssue (s.g b) 0
  member e (illegalRegister (rotaryVt s) (encV e 0x37 d a b m 2) s fun s =>
    if p.toNat ≥ 2 ^ 32 then .trap (.own 0x13 p) s
    else
      let pos := fp32.decode (fp32.encode 0 0 (.num false p.toNat 0))
      let some' := (List.range s.hart.regs.vl).any (s.hart.active m)
      (elementwise m (fun h i => consumes h [(a.toNat, 4, i)] (.ok fun t =>
        t.setElem d.toNat 4 i (fp32.encode 0 0 (pos.mul (fp32.decode (h.elem a.toNat 4 i)))))) s).whenDone
        fun s => if p.toNat ≥ 2 ^ 24 && some' then s.modRegs Regs.setRix else s)

/-- A pair of R362 rotated: its two results. -/
def rotate (x y θ : Nat) : Nat × Nat :=
  let sc := fp32.sinCos (fp32.decode θ)
  let c := fp32.decode sc.2
  let n := fp32.decode sc.1
  let x := fp32.decode x
  let y := fp32.decode y
  (fp32.encode 0 0 ((x.mul c).add 0 (y.mul n).neg), fp32.encode 0 0 ((x.mul n).add 0 (y.mul c)))

/-- VROT (R362): a pair is one unit of the member. -/
def execVrot (e : Bool) (d a b : VReg) (m : Bool) (s : State) : Out :=
  let w := encV e 0x37 d a b m 1
  member e (illegalRegister (rotaryVt s && s.hart.regs.vl % 2 == 0) w s fun s =>
    let h := s.hart
    let pair (i : Nat) : Element := consumes h [(a.toNat, 4, i), (b.toNat, 4, i)] (.ok fun t =>
      let r := rotate (h.elem a.toNat 4 i) (h.elem a.toNat 4 (i + 1)) (h.elem b.toNat 4 i)
      let t := if h.active m i then t.setElem d.toNat 4 i r.1 else t
      if h.active m (i + 1) then t.setElem d.toNat 4 (i + 1) r.2 else t)
    let act (i : Nat) : Bool := h.active m i || h.active m (i + 1)
    let evens := ((List.range (h.last / 2)).drop (h.elix / 2)).map (2 * ·)
    match runElements act pair evens h with
    | (h', none) => { s with hart := h' }.through
    | (h', some (i, t)) => { s with hart := h' }.stopAt h.elix i (evens.any fun k => decide (k < i) && act k) t {})

end Sys2Proof.Machine
end

