-- ==== Sys2Proof/Machine/System.lean ====
section
/-!
DEFINITION. System instructions: SYS but for YIELD (R72, R94 to R98), WINB (R99), and the special registers by MFS and MTS (R55
to R60, R100, R101, R107).
-/
namespace Sys2Proof.Machine

/-- NOP has no effect (R94). -/
def execNop (e : Bool) (s : State) : Out := member e (.ok s)

/-- TRAP raises the software trap with its cause in TVAL (R95). -/
def execTrap (e : Bool) (c : BitVec 7) (s : State) : Out := member e (settled s fun s => .trap (.own 0x19 (zextWord c)) s)

/-- BRKPT raises the breakpoint trap (R95); it may stop a recording (R281). -/
def execBrkpt (e : Bool) (s : State) : Out := member e (settled s fun s => .trap (.own 0x18 0) s.traceBreak)

/-- The hart that steps as RFT leaves it (R72). -/
def Hart.fromTrap (h : Hart) : Hart :=
  { h with
    pc := h.tpc, elix := h.telix.toNat, regs := { h.regs with tstat := returnStatus h.regs.tstat }, m15only := h.regs.tstat.getLsbD 6
    convoy := [], member := 0, waiting := .none }

/-- A stopped hart as its frame's trap field has it resume (R72, R397): TPC, TELIX and TSTAT from the frame, in CYCLE `now`. After a page
request no trap entry took place, and TSTAT keeps its value (R172). After a reflected trap TSTAT is that of R70 as RFT leaves it, so that a
hart reflected inside its own handler has lost PM, PLA, RFM and FR of the trap that it handles, though it changed none of them (R73):
DESIGN CHOICE (log 69). -/
def Hart.fromField (h : Hart) (paged : Bool) (now : Nat) : Hart :=
  { h with
    pc := h.trap.pc, elix := h.trap.elix.toNat, regs := { h.regs with tstat := if paged then h.regs.tstat else returnStatus h.trap.tstat }
    m15only := h.trap.tstat.getLsbD 6, convoy := [], member := 0, waiting := .none, run := .ready, padSaved := none, convoyAt := now, priorAt := now }

/-- The hart that steps marked resident in its frame again (R415), or its resumption to be tried again (R416). -/
def State.markResident (s : State) (access : FrameAccess) : Except State State :=
  match s.setFrameState s.hart 1 with
  | .ok s => .ok s
  | .error s => .error (s.frameFault access)

/-- The trap that a frame's trap field records, at a stage (R172). -/
def TrapField.again (f : TrapField) (stage : Nat) : Trap :=
  { cause := f.cause.setWidth 8, tval := f.tval, stage := stage, rfm := f.tstat.getLsbD 6, fr := f.tstat.getLsbD 7 }

/-- A hart stopped in its frame restored from it (R397, R393): it takes the focus. One whose page request failed takes the trap path
with the record that its frame holds (R172). -/
def State.resumeStopped (s : State) (h : Hart) : State :=
  let s := s.focus h.id
  match (s.loadFrame s.hart).bind fun r => ((r.1.restoreTiles r.2.1).bind fun s => s.loadPad r.2.1).map fun s => (s, r.2) with
  | .error s => s.frameFault .resume
  | .ok (s, h, word) =>
    let back := h.fromField (word == 3) s.pkg.cycle
    match h.pageFailed with
    | none =>
      match ({ s with hart := back } : State).markResident .resume with
      | .error s => s
      | .ok s => s.requeue.performGathers
    | some j =>
      match ({ s with hart := { back with m15only := false, pageFailed := none } } : State).markResident .resume with
      | .error s => s
      | .ok s => s.requeue.performGathers.trapPath (h.trap.again j)

/-- How a hart stands when its frame access is to be tried again (R416); one that was in its frame stands as it stood. -/
def FrameAccess.again (stood : Run) : FrameAccess → Run
  | .start => .starting
  | .save => .ready
  | .resume => .resuming
  | .restore => .preempted
  | .retire => .retiring
  | .halt => .halting
  | .crewStop => stood
  | .pad => stood

/-- A handler hart ends (R397): it executes no more, and leaves the machine once what it forked has ended; a crew of its own (R416) with
it. Tiles that it has claimed and not released stay claimed, since R233 frees tiles where a hart retires or halts: DESIGN CHOICE (log 70). -/
def State.endHandler (s : State) (h : Hart) : State :=
  (s.mapHarts fun x => if x.id = h.id then { x with run := .retired, watch := none, session := none } else x).reap

/-- Whether a team's scratchpad is in the frame of a hart: of its hart 0 (R414). -/
def Hart.holdsPad (h : Hart) (t : Team) : Bool := h.crew == t.crew && h.slot == t.slot && h.hidx == 0 && h.serves.isNone && !h.gone

/-- A team's scratchpad below SPHW read back from the frame of its hart 0 (R414); what it held above SPHW is lost: free values. -/
def State.restorePad (s : State) (h : Hart) : Except State State :=
  match s.teams.find? h.holdsPad with
  | none => .ok s
  | some t => (s.frameRead h framePages 0xB0000 t.sphw).map fun r =>
      let (s, n) := r.1.draw
      let above := (t.bytes.filter fun e => t.sphw ≤ e.1).map (·.1)
      let bytes := above.foldl (fun m a => Sparse.put zeroByte m a ((Config.freeWord (n + a)).setWidth 8)) r.2
      (s.modTeam t.id fun t => { t with bytes := bytes }).mapHarts fun k => if k.id = h.id then { k with padSaved := some (t.sphw, r.2) } else k

/-- The scratchpad of a team whose hart 0 stays in its frame read back, or its access to be tried again (R416, R417). -/
def State.retryPad (s : State) : State :=
  match s.restorePad s.hart with
  | .ok s => s.modHart fun h => { h with run := h.stood, frameOut := false }
  | .error s => s.frameFault .pad

/-- The frame access of the hart that steps tried again (R416, R424). -/
def State.retryFrame (s : State) : State :=
  match s.hart.run with
  | .frameFault .pad _ => s.retryPad
  | .frameFault a _ => s.modHart fun h => { h with run := a.again h.stood, frameOut := false }
  | _ => s

/-- RFT of a handler hart (R397, R416): it ends, and the hart it serves resumes from its frame, or tries its frame access again. Where its own
frame cannot be marked free, it stays at the RFT (R415, R416). -/
def State.returnServed (s : State) (served : Nat) : State :=
  let me := s.hart
  match s.others.find? (fun h => h.id == served), s.setFrameState me 0 with
  | none, _ => s.leaveWith .retiring
  | some _, .error s => s.frameFault .save
  | some h, .ok s =>
    match h.run with
    | .frameFault _ _ => (s.focus served).retryFrame.endHandler me
    | _ => (s.resumeStopped h).endHandler me

/-- RFT (R72). -/
def execRft (e : Bool) (s : State) : Out :=
  member e (settled s fun s => privileged s (encR e 0x1E 0 0 0 2) fun s =>
    match s.hart.serves with
    | some n => .moved (s.returnServed n)
    | none => .moved (s.modHart Hart.fromTrap))

/-- WAIT completes, then holds the hart's issue until TICK differs (R96). -/
def execWait (e : Bool) (s : State) : Out :=
  member e (settled s fun s => .moved ((s.retire e).modHart fun h => { h with waiting := .tick s.tick }))

/-- HALT (R98). -/
def execHalt (e : Bool) (s : State) : Out :=
  member e (settled s fun s => privileged s (encR e 0x1E 0 0 0 6) fun s => .moved (s.leaveWith .halting))

/-- WINB (R99). -/
def execWinb (e : Bool) (i : BitVec 11) (s : State) : Out := member e (.ok (s.modRegs fun r => { r with wb := zextWord i }))

/-- MFS (R56, R100, R182): PC is its own address, ELIX reads 0, ASTAT and SPHW are as every earlier convoy left them. -/
def State.readSpecial (s : State) (n : BitVec 11) : Word :=
  if n = 0x007 then 0
  else if n = 0x038 then s.hart.headAstat
  else if n = 0x036 then s.hart.headSphw
  else s.special n.toNat

def execMfs (e : Bool) (d : GReg) (n : BitVec 11) (s : State) : Out :=
  member e (
    if !userReads n && !s.hart.regs.supervisor then .trap (.own 0x05 (wordTval (encI e 0x1B d 0 n) s.hart.member)) s
    else .ok (s.setG d (s.readSpecial n)))

/-- Whether a value lies in a special register's range (R55 to R57, R62, R107). -/
def State.specialInRange (s : State) (n : BitVec 11) (v : Word) : Bool :=
  match n.toNat with
  | 0x002 => v.toNat % 16 == 0 && v.toNat ≤ 384
  | 0x003 => v.toNat < 128 && vtLegal (v.setWidth 7)
  | 0x00A => v.toNat ≤ 3
  | 0x00B => 1 ≤ v.toNat && v.toNat ≤ 16
  | 0x010 => v.toNat % 4 == 0
  | 0x011 => v.toNat % 4 == 0
  | 0x013 => v.toNat % 4 == 0
  | 0x014 => v.toNat % 4 == 0
  | 0x020 => v.toNat < 256
  | 0x024 => v.toNat % 4 == 0
  | 0x025 => v.toNat < 256
  | 0x036 => v.toNat % 256 == 0 && v.toNat ≤ ((s.slotTeam? s.hart.crew s.hart.slot).map (·.size)).getD 0
  | 0x038 => v.toNat < 8
  | 0x040 => v.toNat < 2 ^ 55
  | 0x041 => v.toNat < 2 ^ 55
  | 0x042 => v.toNat < 2 ^ 55
  | 0x043 => v.toNat < 2 ^ 55
  | _ => true

/-- VT written: VL stays when the new VLMAX allows it and falls to it otherwise (R59). -/
def Hart.setVt (h : Hart) (vt : BitVec 7) : Hart :=
  { h with regs := { h.regs with vt := vt, vl := if h.regs.vl ≤ h.vlmaxOf vt then h.regs.vl else h.vlmaxOf vt } }

/-- What VL becomes for a request (R59). -/
def State.grantedVl (s : State) (req : Nat) : Nat := min req (min s.hart.vlmax s.grantCap)

/-- LCk written: in user mode it sets LAk by whether the value is nonzero (R107). -/
def Regs.writeLc (r : Regs) (k : Level) (v : Word) : Regs :=
  if r.supervisor then r.setLc k v else (r.setLc k v).setLa k (v != 0)

/-- A special register written (R101); numbers MTS may not name change nothing. -/
def State.writeSpecial (s : State) (n : BitVec 11) (v : Word) : State :=
  match n.toNat with
  | 0x001 => s.modRegs fun r => { r with lr := v }
  | 0x002 => s.modRegs fun r => { r with wb := v }
  | 0x003 => s.modHart fun h => h.setVt (v.setWidth 7)
  | 0x004 => s.modRegs fun r => { r with vl := s.grantedVl v.toNat }
  | 0x008 => s.modRegs fun r => { r with bx := v }
  | 0x009 => s.modRegs fun r => { r with fx := v }
  | 0x00A => s.modHart fun h => { h with xrd := v }
  | 0x00B => s.modHart fun h => { h with grd := v }
  | 0x010 => s.modRegs fun r => { r with ls0 := v }
  | 0x011 => s.modRegs fun r => { r with le0 := v }
  | 0x012 => s.modRegs fun r => r.writeLc false v
  | 0x013 => s.modRegs fun r => { r with ls1 := v }
  | 0x014 => s.modRegs fun r => { r with le1 := v }
  | 0x015 => s.modRegs fun r => r.writeLc true v
  | 0x020 => s.modHart fun h => { h with tcause := v }
  | 0x021 => s.modHart fun h => { h with tpc := v }
  | 0x022 => s.modHart fun h => { h with telix := v }
  | 0x023 => s.modHart fun h => { h with tval := v }
  | 0x024 => s.modHart fun h => { h with tvec := v }
  | 0x025 => s.modRegs fun r => { r with tstat := v }
  | 0x026 => s.modHart fun h => { h with tscr := v }
  | 0x034 => s.modHart fun h => { h with rseed := v }
  | 0x036 => match s.slotTeam? s.hart.crew s.hart.slot with
    | some t => s.modTeam t.id fun x => { x with sphw := v.toNat }
    | none => s
  | 0x038 => s.modRegs fun r => { r with astat := v }
  | 0x040 => s.modHart fun h => { h with splane0 := v }
  | 0x041 => s.modHart fun h => { h with splane1 := v }
  | 0x042 => s.modHart fun h => { h with splane2 := v }
  | 0x043 => s.modHart fun h => { h with splane3 := v }
  | _ => s

/-- MTS (R56, R57, R101). -/
def execMts (e : Bool) (a : GReg) (n : BitVec 11) (s : State) : Out :=
  member e (settled s fun s =>
    if !userWrites n && !s.hart.regs.supervisor then .trap (.own 0x05 (wordTval (encI e 0x1C 0 a n) s.hart.member)) s
    else if !s.specialInRange n (s.g a) then .trap (.own 0x03 (zextWord n)) s
    else .ok (s.writeSpecial n (s.g a)))

end Sys2Proof.Machine
end

