-- ==== Sys2Proof/Machine/Launch.lean ====
section
/-!
DEFINITION. Launch scheduling: queues and records (R400 to R404), LAUNCH, LWAIT and LPRIO (R405 to R408), priority and binding (R409 to
R411), pre-emption and restoration (R412 to R417), YIELD (R97), and the events of the scheduler.
-/
namespace Sys2Proof.Machine

/-! ## Records and queues -/

/-- Whether a record's 32 words keep R402. -/
def recordLegal (w : List Nat) : Bool :=
  let x (k : Nat) : Nat := w.getD k 0
  x 0 % 4 == 0 && x 2 % 8 == 0 && x 3 < 65536 && bitsOf (x 4) 23 21 == 0 && x 4 < 2 ^ 32 &&
    ((List.range 4).all fun k => x (5 + k) % 8 == 0) && x 9 % 65536 == 0 && x 10 < 2 ^ 37 && (w.drop 11).all (· == 0)

/-- The launch that a record asks for (R402), of a context with a priority ceiling, accepted in `tick`. -/
def launchOf (id ctx queue seqno ceiling tick : Nat) (w : List Nat) : Launch :=
  let x (k : Nat) : Nat := w.getD k 0
  let g (hi lo : Nat) : Nat := bitsOf (x 4) hi lo
  let stages := g 7 5 + 1
  let crews := g 15 8 + 1
  { id := id, ctx := ctx, queue := queue, seqno := seqno, entry := Word.ofNat (x 0), args := Word.ofNat (x 1), done := x 2, op := x 3 % 65536
    rows := g 1 0 + 1, cols := g 3 2 + 1, hartsPerTeam := g 4 4 + 1, stages := stages, crewsPerStage := crews, big := g 16 16 == 1
    ign := g 20 20 == 1, tags := BitVec.ofNat 8 (g 31 24), deps := ((List.range 4).map fun k => x (5 + k)).filter (· != 0)
    hintBase := x 9, hint := Word.ofNat (x 10), base := min (g 19 17) ceiling, age := 0, waited := 0, agedAt := tick
    unbound := (List.range stages).flatMap fun s => (List.range crews).map fun c => (s, c)
    hintPending := bitsOf (x 10) 31 0 != 0, hintAt := tick, stopped := 0, aborted := false, faulted := false, poisoned := false }

/-- Whether a queue descriptor's 32 words keep R400 and it is empty (R406). -/
def queueLegal (w : List Nat) : Bool :=
  let x (k : Nat) : Nat := w.getD k 0
  x 0 % 256 == 0 && powerIn (x 1) 16 4096 && x 2 == 0 && x 3 < 2 ^ 32 && x 4 < 2 ^ 32 && x 3 == x 4 && (w.drop 5).all (· == 0)

/-- Whether the page of a descriptor is RAW and untracked, or in host memory (R400). -/
def State.plainPage (s : State) (va : Word) : Bool :=
  match s.lookup s.hart.ctx va.toNat with
  | .ok x => (x.attr.fmt == 0 && !x.attr.tracked) || (s.portOf x.pa).isSome
  | .error _ => false

/-- The registered queue of the hart's context with a descriptor address. -/
def State.queueAt (s : State) (q : Word) : Option Queue := s.queues.find? fun x => x.ctx == s.hart.ctx && x.desc == q.toNat

/-- The launches of a context. -/
def State.launchesOf (s : State) (ctx : Nat) : List Launch := s.launches.filter fun l => l.ctx == ctx

/-- Places for stores of 8 bytes checked in order (R87), or the first that fails. -/
def State.storeTargets (s : State) : List Word → State × Except Stop (List Reached)
  | [] => (s, .ok [])
  | a :: rest =>
    if crossesLine a 8 then (s, .error (.trap (.own 0x06 a)))
    else match s.access a 8 .write with
      | (s, .error p) => (s, .error p)
      | (s, .ok r) =>
        match s.storeTargets rest with
        | (s, .error p) => (s, .error p)
        | (s, .ok rs) => (s, .ok (r :: rs))

/-- Words stored at checked places, in order. -/
def State.storeWords (s : State) (xs : List (Reached × Nat)) : State :=
  xs.foldl (fun s x => s.perform ⟨x.1.place, natToBytes x.2 8, false, false, false, s.hart.ctx, x.1.dirty, x.1.via, false⟩) s

/-- LAUNCH with g[b] = 0 (R406). Which free number the queue gets the spec leaves open: a free value. -/
def registerQueue (d : GReg) (q : Word) (s : State) : Res :=
  match s.loadWords q 32 with
  | (s, .error p) => p.res s
  | (s, .ok w) =>
    if !queueLegal w || !s.plainPage q || (s.queueAt q).isSome then .trap (.own 0x03 q) s
    else
      let left := match s.issuer with
        | some c => s.remaining c 3
        | none => 0
      let used := (s.queues.filter fun x => x.ctx == s.hart.ctx).map (·.num)
      if left = 0 || used.length ≥ 64 then .trap (.own 0x16 1) s
      else
        let (s, k) := s.draw
        let free := (List.range 64).filter fun n => !used.contains n
        let n := free.getD (Config.freeChoice k % free.length) 0
        .ok ({ s with queues := s.queues ++ [(⟨s.hart.ctx, n, q.toNat⟩ : Queue)] }.setG d (Word.ofNat n))

/-- LAUNCH with g[b] = 1 (R406). -/
def unregisterQueue (d : GReg) (q : Word) (s : State) : Res :=
  match s.queueAt q with
  | none => .trap (.own 0x03 q) s
  | some x =>
    match s.loadWords q 5 with
    | (s, .error p) => p.res s
    | (s, .ok w) =>
      if w.getD 3 0 % 2 ^ 32 != w.getD 4 0 % 2 ^ 32 || (s.launchesOf s.hart.ctx).any (fun l => l.queue == x.num) then .hold s
      else .ok ({ s with queues := s.queues.filter fun y => y != x }.setG d 0)

/-- LAUNCH with a record (R406): one indivisible step. -/
def enqueueRecord (d : GReg) (q rec' : Word) (s : State) : Res :=
  if rec'.toNat % 256 ≠ 0 then .trap (.own 0x06 rec') s
  else match s.queueAt q with
    | none => .trap (.own 0x03 q) s
    | some _ =>
      match s.loadWords rec' 32 with
      | (s, .error p) => p.res s
      | (s, .ok w) =>
        if !recordLegal w then .trap (.own 0x03 rec') s
        else match s.loadWords q 5 with
          | (s, .error p) => p.res s
          | (s, .ok x) =>
            let n := x.getD 1 0
            let t := x.getD 3 0 % 2 ^ 32
            if (t + 2 ^ 32 - x.getD 4 0 % 2 ^ 32) % 2 ^ 32 ≥ n then .ok (s.setG d Word.ones)
            else
              let done := w.getD 2 0
              let slot := Word.ofNat (x.getD 0 0 + 256 * (t % max 1 n))
              let targets := (if done = 0 then [] else [Word.ofNat done]) ++ ((List.range 32).map fun k => slot + Word.ofNat (8 * k)) ++ [q + 0x18]
              let values := (if done = 0 then [] else [0xFFFF * 2 ^ 48 + w.getD 3 0 % 65536 * 2 ^ 32]) ++ w ++ [(t + 1) % 2 ^ 32]
              match s.storeTargets targets with
              | (s, .error p) => p.res s
              | (s, .ok rs) => .ok ((s.drainAll.storeWords (rs.zip values)).setG d (Word.ofNat t))

/-- LAUNCH (R406). -/
def execLaunch (e : Bool) (d a b : GReg) (s : State) : Out :=
  member e (settled s fun s =>
    let q := s.g a
    if q.toNat % 256 ≠ 0 then .trap (.own 0x06 q) s
    else if s.g b = 0 then registerQueue d q s
    else if s.g b = 1 then unregisterQueue d q s
    else enqueueRecord d q (s.g b) s)

/-- LWAIT (R407): the read is an acquire. -/
def execLwait (e : Bool) (d a b : GReg) (s : State) : Out :=
  member e (settled s fun s =>
    let va := s.g a
    if va.toNat % 8 ≠ 0 then .trap (.own 0x06 va) s
    else match s.scalarLoad va 8 true with
      | (s, .error p) => p.res s
      | (s, .ok x) =>
        let s := s.waitUntil (s.g b).toNat
        if x / 2 ^ 48 != 0xFFFF || s.limitPassed then .ok (s.setG d (Word.ofNat x)) else .hold s)

/-- The incomplete launch of a context with a done word. -/
def State.launchAt (s : State) (ctx done : Nat) : Option Launch := if done = 0 then none else (s.launchesOf ctx).find? fun l => l.done == done

/-- A launch changed. -/
def State.modLaunch (s : State) (id : Nat) (f : Launch → Launch) : State := { s with launches := s.launches.map fun l => if l.id = id then f l else l }

/-- The priority ceiling of a context. -/
def State.ceilingOf (s : State) (ctx : Nat) : Nat := ((s.ctx? ctx).map (·.ceiling)).getD 0

/-- LPRIO (R408). -/
def execLprio (e : Bool) (d a b : GReg) (s : State) : Out :=
  member e (settled s fun s =>
    let p := s.g b
    if p.toNat > 7 then .trap (.own 0x03 p) s
    else match s.launchAt s.hart.ctx (s.g a).toNat with
      | none => .ok (s.setG d Word.ones)
      | some l => .ok ((s.modLaunch l.id fun l => { l with base := min p.toNat (s.ceilingOf l.ctx) }).setG d (Word.ofNat l.base)))

/-! ## Readiness and priority -/

/-- A dependence's status, pending where it cannot be read (R404, R409). -/
def State.depStatus (s : State) (l : Launch) (va : Nat) : Nat :=
  match s.ctxWord l.ctx va false with
  | .ok (_, w) => w / 2 ^ 48 % 65536
  | .error _ => 0xFFFF

/-- The dependences of a launch that are not final. -/
def State.unmet (s : State) (l : Launch) : List Nat := l.deps.filter fun va => s.depStatus l va == 0xFFFF

/-- Whether a dependence has ended with a status other than 0 that the launch does not ignore (R404). -/
def State.depFailed (s : State) (l : Launch) : Bool := !l.ign && l.deps.any fun va => s.depStatus l va != 0xFFFF && s.depStatus l va != 0

/-- Whether a context and every ancestor run (R385). -/
def State.ctxRuns (s : State) (ctx : Nat) : Bool := !(s.chain ctx).isEmpty && (s.chain ctx).all fun c => c.state == .running

/-- Whether a launch is ready (R409). -/
def State.ready (s : State) (l : Launch) : Bool := (s.unmet l).isEmpty && !s.depFailed l && s.ctxRuns l.ctx && !l.hintPending

/-- Crews of a launch that are not in place: never bound, or pre-empted. -/
def State.outCrews (s : State) (l : Launch) : List Crew := s.crews.filter fun c => c.launch == l.id && !c.resident

/-- Whether a launch has a crew to bind. -/
def State.hasUnbound (s : State) (l : Launch) : Bool := !l.unbound.isEmpty || !(s.outCrews l).isEmpty

/-- Ticks counted toward aging up to now (R409): those in which the launch is ready with a crew unbound; the age is 0 once every crew
is bound. A hint waits only while nothing else holds the launch (R413). -/
def State.tally (s : State) (l : Launch) : Launch :=
  let l := if l.hintPending && !((s.unmet l).isEmpty && s.ctxRuns l.ctx) then { l with hintAt := s.tick } else l
  if !s.hasUnbound l then { l with age := 0, waited := 0, agedAt := s.tick }
  else if s.ready l then { l with waited := l.waited + (s.tick - l.agedAt), agedAt := s.tick }
  else { l with agedAt := s.tick }

/-- Every launch tallied. -/
def State.tallyAll (s : State) : State := { s with launches := s.launches.map s.tally }

/-- Age steps, one for each 2^16 counted ticks (R409). -/
def Launch.grow (l : Launch) : Launch := { l with age := l.age + l.waited / 2 ^ 16, waited := l.waited % 2 ^ 16 }

/-- PRIORITY_AGING (R409). -/
def execPriorityAging (launch : Nat) (s : State) : Out := event (s.tallyAll.modLaunch launch Launch.grow)

/-- The word a hart waits on in LWAIT (R407). -/
def Hart.lwaitOn (h : Hart) : Option Nat :=
  match h.waiting, h.convoy with
  | .until _, .lwait _ _ a _ :: _ => some (h.regs.g a).toNat
  | _, _ => none

/-- The launch number of a hart. -/
def State.launchIdOf (s : State) (h : Hart) : Nat := ((s.crew? h.crew).map (·.launch)).getD 0

/-- Whether launch `m` lends launch `l` its priority (R409). -/
def State.lends (s : State) (m l : Launch) : Bool :=
  m.ctx == l.ctx && m.id != l.id && l.done != 0 &&
    ((s.unmet m).contains l.done || s.harts.any fun h => h.ctx == l.ctx && h.lwaitOn == some l.done && s.launchIdOf h == m.id)

/-- The effective priority of a launch (R409); `fuel` bounds the chain of inheritance. -/
def State.effective (s : State) : Nat → Launch → Nat
  | 0, l => min (l.base + l.age) (s.ceilingOf l.ctx)
  | fuel + 1, l => (s.launches.filter fun m => s.lends m l).foldl (fun p m => max p (s.effective fuel m)) (min (l.base + l.age) (s.ceilingOf l.ctx))

/-- The effective priority in a state. -/
def State.priority (s : State) (l : Launch) : Nat := s.effective s.launches.length l

/-- The launch of a crew; a crew of none (the boot crew, a handler's crew of R416) counts as one of the highest priority. -/
def State.launchOfCrew (s : State) (c : Crew) : Option Launch := s.launch? c.launch
def State.crewPriority (s : State) (c : Crew) : Nat := ((s.launchOfCrew c).map s.priority).getD 7

/-! ## Binding -/

/-- A crew to bind: a pre-empted one, or one of a launch that was never bound. -/
structure Candidate where
  launch : Option Launch
  crew : Option Crew
  stage : Nat
  index : Nat
  deriving DecidableEq, Repr

/-- Where a crew binds (R410). -/
structure Fit where
  die : Nat
  cluster : Nat
  units : List CoreUnit
  deriving DecidableEq, Repr

/-- Units picked for a list of needs, none of them twice. -/
def pickUnits : List CoreUnit → List (CoreUnit → Bool) → Option (List CoreUnit)
  | _, [] => some []
  | free, p :: ps =>
    match free.find? p with
    | none => none
    | some u => (pickUnits (free.filter fun v => !v.overlaps u) ps).map (u :: ·)

/-- A list begun at another place. -/
def startingAt {α : Type} (xs : List α) (n : Nat) : List α := xs.drop (n % max 1 xs.length) ++ xs.take (n % max 1 xs.length)

/-- The units that a crew needs (R403, R409, R417): whole cores for teams of two harts; a restored team one of its own core mode and
partition size. -/
def State.needs (s : State) (k : Candidate) : List (CoreUnit → Bool) :=
  match k.crew, k.launch with
  | some c, _ => (s.teams.filter fun t => t.crew == c.id).map fun t u => u.eighths == t.core.eighths
  | none, some l => List.replicate (l.rows * l.cols) fun u => u.eighths == 0 || l.hartsPerTeam == 1
  | none, none => []

/-- The tags that a crew holds while bound (R271). -/
def Candidate.tags (k : Candidate) : Nat :=
  match k.crew, k.launch with
  | some c, _ => c.tags.toNat
  | none, some l => l.tags.toNat
  | none, none => 0

/-- The context of a candidate. -/
def Candidate.ctx (k : Candidate) : Nat :=
  match k.crew, k.launch with
  | some c, _ => c.ctx
  | none, some l => l.ctx
  | none, none => 0

/-- Whether a crew fits on a logical cluster with the units of crew `without` counted as free (R410, R411). `choice` says which of the
free units it takes. -/
def State.fitOn (s : State) (c : Ctx) (k : Candidate) (without choice : Nat) (at' : Nat × Nat) : Option Fit :=
  let n := clusterIndex at'.1 at'.2
  let held := s.tagsHeld c n
  let used := ({ s with crews := s.crews.filter fun x => x.id != without }).tagsInUse n
  if held &&& k.tags != k.tags || used &&& k.tags != 0 then none
  else
    let free := c.units.filter fun u => u.die == at'.1 && u.cluster == at'.2 && (s.occupants u).all fun t => t.crew == without
    (pickUnits (startingAt free choice) (s.needs k)).map fun us => ⟨at'.1, at'.2, us⟩

/-- Frames that a context has for new harts (R414). -/
def State.framesLeft (s : State) (ctx : Nat) : Nat := 4096 - (s.harts.filter fun h => h.ctx == ctx && !h.gone).length

/-- Where a crew can bind (R410); `without` is a crew whose units count as free, or a name no crew has. -/
def State.fit (s : State) (k : Candidate) (without choice : Nat) : Option Fit :=
  match s.ctx? k.ctx with
  | none => none
  | some c =>
    let harts := match k.crew, k.launch with
      | none, some l => l.rows * l.cols * l.hartsPerTeam
      | _, _ => 0
    if s.framesLeft k.ctx < harts then none else (startingAt c.clusters choice).findSome? (s.fitOn c k without choice)

/-- A hart of a new team at its start (R61, R64, R211, R414). -/
def State.startHart (s : State) (l : Launch) (k : Candidate) (crew slot : Nat) (u : CoreUnit) (hidx : Nat) : State :=
  let crd := Word.ofNat (k.stage * 65536 + k.index * 256 + slot * 2 + hidx)
  let tvec := ((s.ctx? l.ctx).map (·.tvec)).getD 0
  let h := Hart.atStart s.nextId l.ctx l.entry l.args crd tvec (BitVec.ofNat 64 Config.bootSpbase) (u.rows / l.hartsPerTeam) crew slot hidx (s.freeFrame l.ctx)
  { s with others := s.others ++ [h], nextId := s.nextId + 1 }.onHart h.id State.startFrame

/-- A new team with its harts (R216, R269). -/
def State.startTeam (s : State) (l : Launch) (k : Candidate) (crew : Nat) (x : Nat × CoreUnit) : State :=
  let t := Team.atStart s.nextId crew x.1 x.2 (x.2.pad l.big)
  (List.range l.hartsPerTeam).foldl (fun s h => s.startHart l k crew x.1 x.2 h) { s with teams := s.teams ++ [t], nextId := s.nextId + 1 }

/-- A crew bound for the first time (R269, R410). -/
def State.bindNew (s : State) (l : Launch) (k : Candidate) (f : Fit) : State :=
  let c : Crew := { id := s.nextId, launch := l.id, ctx := l.ctx, stage := k.stage, index := k.index, rows := l.rows, cols := l.cols
                    hartsPerTeam := l.hartsPerTeam, die := f.die, cluster := f.cluster, tags := l.tags, gen := [], count := [], due := []
                    resident := true, preempting := false, boundAt := s.pkg.cycle }
  let s := { s with nextId := s.nextId + 1, crews := s.crews ++ [c] }.modLaunch l.id fun l => { l with unbound := l.unbound.filter (· != (k.stage, k.index)) }
  (c.slots.zip f.units).foldl (fun s x => s.startTeam l k c.id x) s

/-! ## Restoration -/

/-- A hart's registers, tiles, barrier state and scratchpad read back from its frame (R417). -/
def State.readBack (s : State) : Except State (State × Hart) := do
  let (s, h, _) ← s.loadFrame s.hart
  let s ← s.restoreTiles h
  let s ← s.loadBarriers h
  let s ← s.restorePad h
  .ok (s, h)

/-- How a hart stands once its frame has been read back (R417), in CYCLE `now`: at (PC, ELIX), under m15 when TSTAT.RFM = 1. RFT has cleared
RFM by then (R72), and so the frame has it set for a hart that runs under m15 (log 15). In user mode it is cleared again here; in supervisor
mode, where the frame does not tell it from the RFM of the trap that the hart handles, it stays: DESIGN CHOICE (log 71). -/
def Hart.restored (h : Hart) (now : Nat) : Hart :=
  { h with
    run := .ready, m15only := h.regs.tstat.getLsbD 6, convoy := [], member := 0, padSaved := none, convoyAt := now, priorAt := now
    regs := if h.regs.supervisor then h.regs else { h.regs with tstat := h.regs.tstat &&& ~~~0x40#64 } }

/-- A pre-empted hart restored from its frame (R417), with its matrix queue and its queued gathers begun anew (R253, R367). -/
def State.restoreHart (s : State) : State :=
  match s.readBack with
  | .error s => s.frameFault .restore
  | .ok (s, h) =>
    match ({ s with hart := h.restored s.pkg.cycle } : State).markResident .restore with
    | .error s => s
    | .ok s => s.requeue.performGathers

/-- The scratchpad of a team whose hart 0 stays in its frame read back as the crew is bound again (R417), or the failure of the access (R416). -/
def State.padBack (s : State) (h : Hart) : State :=
  match s.restorePad h with
  | .ok s => s
  | .error s => s.onHart h.id fun s => s.crewFault .pad

/-- A pre-empted crew bound again (R417). -/
def State.bindAgain (s : State) (c : Crew) (f : Fit) : State :=
  let teams := s.teams.filter fun t => t.crew == c.id
  let s := (teams.zip f.units).foldl (fun s x => s.modTeam x.1.id fun t => { t with core := x.2, resident := true }) s
  let s := s.modCrew c.id fun c => { c with die := f.die, cluster := f.cluster, resident := true, preempting := false, boundAt := s.pkg.cycle }
  let s := (s.harts.filter fun h => h.crew == c.id && h.run != .preempted).foldl State.padBack s
  (s.harts.filter fun h => h.crew == c.id && h.run == .preempted).foldl (fun s h => s.onHart h.id State.restoreHart) s

/-! ## Decisions -/

/-- Whether a context maps a physical address of which `p` holds (R322, R413). -/
def State.maps (s : State) (ctx : Nat) (p : Nat → Bool) : Bool :=
  decide (∃ va, va < 2 ^ 55 ∧ (match s.lookup ctx va with
    | .ok x => p x.pa
    | .error _ => false) = true)

/-- Where the pages of a launch's hinted range lie (R413). -/
def State.hintPages (s : State) (l : Launch) : List Nat :=
  (List.range (bitsOf l.hint.toNat 31 0)).filterMap fun k => match s.lookup l.ctx (l.hintBase + 65536 * k) with
    | .ok x => some (x.pa / 65536)
    | .error _ => none

/-- Whether a hint may be made now (R413): nothing else holds its launch. -/
def State.hintOpen (s : State) (l : Launch) : Bool := l.hintPending && (s.unmet l).isEmpty && s.ctxRuns l.ctx

/-- Whether a hint holds the bindings of a context (R413): one that maps a page of its range. -/
def State.hintHolds (s : State) (ctx : Nat) : Bool :=
  s.launches.any fun l => s.hintOpen l && (l.ctx == ctx || s.maps ctx fun pa => (s.hintPages l).contains (pa / 65536))

/-- The ready crews of a context in no order; crews of no launch among them. None is bound while the context is frozen (R419). -/
def State.readyCrews (s : State) (ctx : Nat) : List Candidate :=
  if s.frozenCtx ctx then [] else
  let loose := (s.crews.filter fun c => c.ctx == ctx && !c.resident && (s.launchOfCrew c).isNone && s.ctxRuns ctx).map fun c => ⟨none, some c, c.stage, c.index⟩
  loose ++ if s.hintHolds ctx then [] else
    ((s.launchesOf ctx).filter s.ready).flatMap fun l =>
      (l.unbound.map fun x => (⟨some l, none, x.1, x.2⟩ : Candidate)) ++ (s.outCrews l).map fun c => ⟨some l, some c, c.stage, c.index⟩

/-- The order of R410 as a number: effective priority, how many older launches of its queue stand at its level, the queue's place after
the one last served, then stage and crew. -/
def State.bindKey (s : State) (ready : List Launch) (k : Candidate) : Nat :=
  match k.launch with
  | none => 0
  | some l =>
    let p := s.priority l
    let rank := (ready.filter fun m => m.queue == l.queue && m.id < l.id && s.priority m == p).length
    let turn := (l.queue + 64 - Sparse.get zeroNat s.served l.ctx) % 64
    1 + ((((7 - p) * 4096 + rank) * 64 + turn) * 8 + k.stage) * 256 + k.index

/-- A candidate put in its place by key. -/
def insertKeyed (x : Nat × Candidate) : List (Nat × Candidate) → List (Nat × Candidate)
  | [] => [x]
  | y :: rest => if x.1 < y.1 then x :: y :: rest else y :: insertKeyed x rest

/-- The ready crews of a context in the order of R410: a launch all of whose crews are bound has no turn. -/
def State.bindOrder (s : State) (ctx : Nat) : List Candidate :=
  let ks := s.readyCrews ctx
  let ready := (s.launchesOf ctx).filter fun l => s.ready l && s.hasUnbound l
  (ks.foldl (fun acc k => insertKeyed (s.bindKey ready k, k) acc) []).map (·.2)

/-- Whether a crew is idle (R411): each of its harts has retired, waits in LWAIT, or is stopped on page requests. -/
def State.idleCrew (s : State) (c : Crew) : Bool := s.harts.all fun h => h.crew != c.id || h.gone || h.run == .paging || h.lwaitOn.isSome

/-- Whether a crew may be pre-empted for a crew of effective priority `p` (R411). -/
def State.mayPreempt (s : State) (p : Nat) (c : Crew) : Bool :=
  c.resident && !c.preempting && (s.crewPriority c < p || (s.idleCrew c && s.crewPriority c ≤ p))

/-- Of two crews the one to pre-empt (R411): the lower effective priority, then the one bound later. -/
def State.worse (s : State) (a b : Crew) : Crew :=
  if s.crewPriority b < s.crewPriority a then b
  else if s.crewPriority a < s.crewPriority b then a
  else if a.boundAt ≤ b.boundAt then b else a

/-- The crew that R411 pre-empts for a candidate. -/
def State.victim (s : State) (k : Candidate) (choice : Nat) : Option Crew :=
  let p := (k.launch.map s.priority).getD 7
  match s.crews.filter fun c => c.ctx == k.ctx && s.mayPreempt p c && (s.fit k c.id choice).isSome with
  | [] => none
  | c :: rest => some (rest.foldl s.worse c)

/-- Whether a frame access of a stop of some hart of a crew has failed. -/
def State.saveFailed (s : State) (c : Crew) : Bool :=
  s.harts.any fun h => h.crew == c.id && match h.run with
    | .frameFault .save _ => true
    | .frameFault .crewStop _ => true
    | _ => false

/-- One candidate's turn: it binds, or it waits for a crew that is on its way out and for which no candidate before it waits (`awaited`), or
a crew is pre-empted for it (R411). -/
def State.tryBind (choice : Nat) (x : State × List Nat) (k : Candidate) : State × List Nat :=
  let (s, awaited) := x
  match s.fit k s.nextId choice with
  | some f =>
    let s := match k.crew, k.launch with
      | some c, _ => s.bindAgain c f
      | none, some l => s.bindNew l k f
      | none, none => s
    (match k.launch with
    | some l => { s with served := Sparse.put zeroNat s.served l.ctx ((l.queue + 1) % 64) }
    | none => s, awaited)
  | none =>
    match s.crews.find? fun c => c.ctx == k.ctx && c.resident && c.preempting && !s.saveFailed c && !awaited.contains c.id && (s.fit k c.id choice).isSome with
    | some c => (s, c.id :: awaited)
    | none =>
      match s.victim k choice with
      | some c => (s.modCrew c.id fun c => { c with preempting := true }, c.id :: awaited)
      | none => (s, awaited)

/-- The dependence words of a context's launches read by the scheduler (R409): the accessed bits of their pages are set (R372). -/
def State.readDeps (s : State) (ctx : Nat) : State :=
  (s.launchesOf ctx).foldl (fun s l => l.deps.foldl (fun s va => (s.tryWord ctx va).1) s) s

/-- The scheduler's decision for a context (R410, R411). -/
def State.schedule (s : State) (ctx choice : Nat) : State :=
  let s := s.readDeps ctx
  let s := { s.tallyAll with launches := s.tallyAll.launches.map Launch.grow }
  ((s.bindOrder ctx).foldl (State.tryBind choice) (s, [])).1

/-- CREW_BIND (R410). -/
def execCrewBind (ctx choice : Nat) (s : State) : Out := event (s.reap.schedule ctx choice)

/-! ## Pre-emption -/

/-- Whether a hart stands where a pre-emption may take it (R412): it does not execute, it stands at a convoy boundary, at a member that
begins its convoy or part-way through one (R138), it waits for a token, or its context does not run. A hart that waits in WAITW first
completes it (R315). -/
def State.atStop (s : State) (h : Hart) : Bool :=
  h.run != .ready || !s.ctxRuns h.ctx ||
    (match h.waiting, h.convoy with
      | _, [] => true
      | .until _, .waitw _ _ :: _ => false
      | _, i :: _ => h.member == 0 || h.elix != 0 || { s with hart := h }.tokenStall i)

/-- A hart in an open region stops (R205): its exit tests and the strips that have ended resolve, which may take it elsewhere; with an
undecided trim or held trap in its strip it goes back to the oldest, and stops there. -/
def State.undoTrims (s : State) : State :=
  match s.resolveTests with
  | .error t => t
  | .ok s =>
    match s.hart.region.trims with
    | [] => s
    | tr :: _ => (s.backTo s.hart.caddy tr).modHart fun h => { h with convoy := [], member := 0 }

/-- The hart that steps, whose accesses are performed, saved to its frame at a pre-emption (R367, R412, R416): hart 0 with the team's
scratchpad, the header's state last. -/
def State.saveHart (s : State) : State :=
  let s := s.modHart fun h => { h with convoy := [], member := 0, waiting := .none }
  match s.saveFrame s.hart 3 true with
  | .error s => s.frameFault .save
  | .ok s => s.modHart fun h => { h with run := .preempted }

/-- A team's scratchpad saved to the frame of its hart 0 where that hart was in its frame before the harts `out` were saved (R414), or the
failure of the access (R416). -/
def State.savePad (out : List Nat) (s : State) (t : Team) : State :=
  match s.harts.find? fun h => h.holdsPad t && h.inFrame && !out.contains h.id with
  | none => s
  | some h =>
    let img := imageCut t.bytes 0 t.sphw
    match s.frameWrite h framePages 0xB0000 t.sphw img with
    | .ok s => s.mapHarts fun k => if k.id = h.id then { k with padSaved := some (t.sphw, img) } else k
    | .error s => s.onHart h.id fun s => s.crewFault .crewStop

/-- Whether a pre-emption of a crew takes a hart of it (R397, R412): a handler hart of an ancestor is taken as a hart of its own context
alone, and ends before the crew leaves its units. -/
def State.takes (s : State) (c : Crew) (h : Hart) : Bool := h.crew == c.id && !h.gone && (h.ctx == c.ctx || !s.ctxRuns h.ctx)

/-- Whether a store that hart `h` has issued, or its frame, waits for a host link or for an access through an entry (R383, R424). -/
def State.waitsOut (s : State) (h : Hart) : Bool := (s.focus h.id).storesStuck || s.frameWaits h

/-- Whether every hart that a pre-emption of a crew takes has stopped (R412): none is frozen, waits for what it has issued or has a frame
access that failed. -/
def State.crewStopped (s : State) (c : Crew) : Bool :=
  s.harts.all fun h => !s.takes c h || (s.atStop h &&
    (match h.run with
      | .frameFault _ _ => false
      | _ => true) && !s.frozenCtx h.ctx && !s.waitsOut h)

/-- A team of crew `crew` leaves its unit. -/
def Team.leave (crew : Nat) (t : Team) : Team := if t.crew = crew then { t with resident := false } else t

/-- The generations and counts of a crew written alike into the frames of those of its harts that were in their frames before the harts `out`
were saved (R415), or the failure of an access (R416). -/
def State.alignBarriers (s : State) (out : List Nat) (c : Crew) : State :=
  (s.harts.filter fun h => s.takes c h && h.inFrame && !out.contains h.id).foldl (fun s h =>
    match s.saveBarriers h with
    | .ok s => s
    | .error s => s.onHart h.id fun s => s.crewFault .crewStop) s

/-- A pre-emption completes (R412): harts in exit regions are taken to their stopping points first (R205); then every access of the crew is
performed (R326), every hart and scratchpad is in its frame, and the units and tags are free. A frame access that fails leaves the crew in
place (R416). -/
def State.completePreemption (s : State) (c : Crew) : State :=
  if !(c.resident && c.preempting && s.crewStopped c) then s
  else match s.harts.find? fun h => s.takes c h && h.run == .ready && !h.sure with
    | some h => s.onHart h.id State.undoTrims
    | none =>
      let out := (s.harts.filter fun h => s.takes c h && !h.inFrame).map (·.id)
      let s := out.foldl (fun s h => s.onHart h State.settleOut) s
      let s := out.foldl (fun s h => s.onHart h State.saveHart) s
      if s.saveFailed c || (s.harts.any fun h => h.crew == c.id && !h.gone && !s.takes c h) then s
      else
        let s := ((s.teams.filter fun t => t.crew == c.id).foldl (State.savePad out) s).alignBarriers out c
        if s.saveFailed c then s
        else
          let s := { s with teams := s.teams.map (Team.leave c.id) }
          s.modCrew c.id fun c => { c with resident := false, preempting := false }

/-- PREEMPTION_COMPLETE (R412). -/
def execPreemptionComplete (crew : Nat) (s : State) : Out :=
  event (match s.crew? crew with
    | some c => s.completePreemption c
    | none => s)

/-- YIELD (R97): it completes; the crew is to be pre-empted when a ready crew of its context of equal or higher priority could bind in its
place. A handler hart of another context pre-empts none. -/
def execYield (e : Bool) (s : State) : Out :=
  member e (settled s fun s =>
    let s := s.retire e
    match s.crew? s.hart.crew with
    | none => .moved s
    | some c =>
      let p := s.crewPriority c
      let wants (k : Candidate) : Bool := decide (p ≤ (k.launch.map s.priority).getD 7) && (s.fit k c.id 0).isSome
      if c.ctx == s.hart.ctx && (s.readyCrews c.ctx).any wants then .moved (s.modCrew c.id fun c => { c with preempting := true }) else .moved s)

/-! ## Acceptance and completion -/

/-- Whether some logical cluster of a context's placement has the units and tags that a launch needs (R403). -/
def State.placeable (s : State) (c : Ctx) (l : Launch) : Bool :=
  c.clusters.any fun at' =>
    let units := c.units.filter fun u => u.die == at'.1 && u.cluster == at'.2 && (u.eighths == 0 || l.hartsPerTeam == 1)
    decide (l.rows * l.cols ≤ units.length) && s.tagsHeld c (clusterIndex at'.1 at'.2) &&& l.tags.toNat == l.tags.toNat

/-- `n` words of a record as the scheduler reads them. -/
def State.recordWords (s : State) (ctx va : Nat) : Nat → Except State (State × List Nat)
  | 0 => .ok (s, [])
  | n + 1 => do
    let (s, w) ← s.ctxWord ctx va false
    let (s, ws) ← s.recordWords ctx (va + 8) n
    .ok (s, w :: ws)

/-- A record accepted (R401 to R403): it becomes a launch, or completes at once with status 2 and an error in the context's ring. -/
def State.acceptRecord (s : State) (c : Ctx) (q : Queue) (head : Nat) (w : List Nat) : State :=
  let l := launchOf s.nextId c.num q.num head c.ceiling s.tick w
  let s := { s with nextId := s.nextId + 1 }
  if !recordLegal w || (s.launchAt c.num l.done).isSome || !s.placeable c l then
    (s.writeDone c.num l.done l.op 2 0).fileEvent c.num 0x08 0 (l.op * 65536)
  else { s with launches := s.launches ++ [l] }

/-- LAUNCH_ACCEPT (R401): queue `queue` of context `ctx`. -/
def State.accept (s : State) (q : Queue) : State :=
  match s.ctx? q.ctx, s.queueWords q with
  | some c, .ok (s, ring, n, t, h) =>
    if t = h || s.launches.length ≥ 4096 then s
    else match s.recordWords q.ctx (ring + 256 * (h % max 1 n)) 32 with
      | .error s => s
      | .ok (s, w) =>
        match (s.acceptRecord c q h w).ctxPut q.ctx (q.desc + 0x20) ((h + 1) % 2 ^ 32) false with
        | .ok t => t
        | .error _ => s
  | some _, .error s => s
  | none, _ => s

def execLaunchAccept (ctx queue : Nat) (s : State) : Out :=
  event (match s.queues.find? fun q => q.ctx == ctx && q.num == queue with
    | some q => s.accept q
    | none => s)

/-- The final status of a launch (R404). -/
def Launch.status (l : Launch) : Nat := if l.aborted then 2 else if l.faulted then 1 else if l.poisoned then 4 else 0

/-- Whether a launch's done word lies behind a host link that is down (R424): the final write waits. -/
def State.doneWaits (s : State) (l : Launch) : Bool :=
  l.done != 0 && match s.lookup l.ctx l.done with
    | .ok x => s.linkWaits (.phys x.pa)
    | .error f => f.cause == 0xFF

/-- A launch completes (R404): when no crew of it is left, or at once where a dependence failed. -/
def State.completeLaunch (s : State) (l : Launch) : State :=
  if s.doneWaits l then s else
  let gone (s : State) : State := { s with launches := s.launches.filter fun x => x.id != l.id }
  if s.depFailed l && l.unbound.length = l.stages * l.crewsPerStage then gone (s.writeDone l.ctx l.done l.op 2 l.stopped)
  else if l.unbound.isEmpty && s.crews.all (fun c => c.launch != l.id) then gone (s.writeDone l.ctx l.done l.op l.status l.stopped)
  else s

/-- LAUNCH_COMPLETION (R404). -/
def execLaunchCompletion (launch : Nat) (s : State) : Out :=
  event (match s.reap.launch? launch with
    | some l => s.reap.completeLaunch l
    | none => s)

/-! ## Hints -/

/-- Whether no hart runs and no engine operation is outstanding in any launch whose context maps an address of which `p` holds: a quiesce
point (R322). -/
def State.quiet (s : State) (p : Nat → Bool) : Bool :=
  s.harts.all fun h => s.launchIdOf h == 0 || ((h.gone || h.inFrame) && !s.enginesBusy h) || !s.maps h.ctx p

/-- An object-table entry whose header's page has moved to another die (R332): it stands in that die's table. Which free entry it takes the
spec leaves open: a free value. -/
def State.moveEntry (s : State) (die : Nat) (o : Obj) : State :=
  let used := (s.objs.filter fun x => x.die == die).map (·.index)
  let (s, k) := s.draw
  let n := freeEntry used (used.length + 1) (Config.freeChoice k)
  { s with objs := s.objs.map fun x => if x = o then { x with die := die, index := n } else x }

/-- A page changes its home die or its bias (R322): dirty copies are written back, every store is visible from there on, object entries
move along, and watches on its lines are cleared, which wakes them. -/
def State.movePage (s : State) (hint : Nat) (page : Nat) : State :=
  let old := Sparse.get zeroNat s.homes page
  let die := if bitsOf hint 34 34 = 1 then bitsOf hint 33 32 else old % 4
  let bias := if bitsOf hint 36 36 = 1 then bitsOf hint 35 35 else old / 4
  let inPage (p : Place) : Bool := match p with
    | .phys a => a / 65536 == page
    | .pad _ _ => false
  let s := if die = old % 4 then s else (s.objs.filter fun o => o.lines.headD 0 / 65536 == page).foldl (fun s o => s.moveEntry die o) s
  { s with
    homes := Sparse.put zeroNat s.homes page (die + 4 * bias), owner := s.owner.filter fun e => e.1 / 256 != page
    old := s.old.filter fun o => !inPage o.place }.mapHarts fun h => if h.watch.any fun (w : Watch) => inPage w.line then { h with watch := none } else h

/-- A port's change of mode takes effect at a quiesce point of its window (R424). -/
def State.applyModes (s : State) : State :=
  let due (x : HostPort) (region : Nat) : HostPort := if s.quiet fun pa => pa / 2 ^ 48 == region then { x with mode := x.nextMode } else x
  s.modPkg fun p => { p with port0 := due p.port0 4, port1 := due p.port1 5 }

/-- HOME_BIAS_MOVE (R322, R413): at a quiesce point the pages of a hint's range move, once a retraining port's link is back (R438). -/
def State.moveHint (s : State) (l : Launch) : State :=
  let pages := s.hintPages l
  if !(s.hintOpen l && s.quiet fun pa => pages.contains (pa / 65536)) || pages.any (fun p => s.linkWaits (.phys (65536 * p))) then s
  else
    let s := pages.foldl (fun s page => s.movePage l.hint.toNat page) s
    s.modLaunch l.id fun l => { l with hintPending := false }

def execHomeBiasMove (launch : Nat) (s : State) : Out :=
  event (match s.launch? launch with
    | some l => s.applyModes.moveHint l
    | none => s.applyModes)

/-- HINT_TIMEOUT (R413). -/
def execHintTimeout (launch : Nat) (s : State) : Out :=
  event (s.tallyAll.modLaunch launch fun l => if l.hintPending && decide (l.hintAt + 2 ^ 16 ≤ s.tick) then { l with hintPending := false } else l)

end Sys2Proof.Machine
end

