-- ==== Sys2Proof/Machine/Package.lean ====
section
/-!
DEFINITION. The package: failures (R227, R285, R437), the host ports and host accesses (R423, R424, R454), boot and recovery (R427), alarms
(R429), power (R430), and the scan path (R419, R420).
-/
namespace Sys2Proof.Machine

/-! ## Failures -/

/-- Crews withdrawn whole (R285): their harts and teams are lost. -/
def State.dropCrews (s : State) (ids : List Nat) : State :=
  let s := if ids.contains s.hart.crew then
      (match s.others.find? fun h => !ids.contains h.crew with
        | some h => s.focus h.id
        | none => s.modHart fun h => { h with run := .retired, convoy := [], stores := [], late := [], caddy := [], region := Region.closed, matrix := [], gathers := [], copies := [], colls := [], sample := none, walk := none })
    else s
  let lost := (s.others.filter fun h => ids.contains h.crew).map (·.id)
  { s with
    others := s.others.filter fun h => !ids.contains h.crew
    teams := s.teams.filter fun t => !ids.contains t.crew
    crews := s.crews.filter fun c => !ids.contains c.id
    recorders := s.recorders.filter fun r => !ids.contains r.crew
    pages := (s.pages.map fun (p : PageReq) => { p with waiters := p.waiters.filter fun w => !lost.contains w }).filter fun p => !p.waiters.isEmpty }

/-- Units that fail: the launches of the crews on them complete aborted, event `code` is filed in the ring of each context that owned
one, and every map loses them (R227, R285). `src` names the failed core or cluster: which unit the word names the spec does not say, DESIGN
CHOICE (log 48). -/
def State.failUnits (s : State) (bad : CoreUnit → Bool) (code src : Nat) : State :=
  let teams := s.teams.filter fun t => t.resident && bad t.core
  let ids := (s.crews.filter fun c => teams.any fun t => t.crew == c.id).map (·.id)
  let launches := (s.crews.filter fun c => ids.contains c.id).map (·.launch)
  let owners := (s.ctxs.filter fun c => c.state != .revoked && c.units.any bad).map (·.num)
  let s := { s with launches := s.launches.map fun (l : Launch) => if launches.contains l.id then { l with aborted := true } else l }.dropCrews ids
  let s := { s with ctxs := s.ctxs.map fun (c : Ctx) => { c with units := c.units.filter fun u => !bad u } }
  owners.foldl (fun s n => s.fileEvent n code 0 src) s

/-- CORE_FAILURE (R227). -/
def execCoreFailure (die cluster core : Nat) (s : State) : Out :=
  event ((s.modPkg fun p => { p with failedCores := (die, cluster, core) :: p.failedCores }).failUnits
    (fun u => u.die == die && u.cluster == cluster && u.core == core) 0x06 (die + cluster * 8 + core * 128))

/-- CLUSTER_FAILURE (R285). -/
def execClusterFailure (die cluster : Nat) (s : State) : Out :=
  event ((s.modPkg fun p => { p with failedClusters := (die, cluster) :: p.failedClusters }).failUnits
    (fun u => u.die == die && u.cluster == cluster) 0x07 (die + cluster * 8))

/-- CHANNEL_FAILURE (R437): every word of the channel is poisoned; event 0x0E goes to each context that owns a dirty line there and to the
crown. -/
def execChannelFailure (base size : Nat) (s : State) : Out :=
  let owners := ((s.owner.filter fun e => base ≤ e.1 * 256 && e.1 * 256 < base + size && e.2 != 0 && e.2 != 1).map (·.2)).eraseDups
  let s := if size = 0 then s else s.poisonAt (.phys base) size
  let s := s.modPkg fun p => { p with failedChannels := (base, size) :: p.failedChannels }
  event (owners.foldl (fun s n => s.fileEvent n 0x0E base ioSrc) (s.fileIn 8 1 0x0E base ioSrc))

/-! ## Host ports -/

/-- A host port changed. -/
def State.modPort (s : State) (port : Bool) (f : HostPort → HostPort) : State :=
  s.modPkg fun p => if port then { p with port1 := f p.port1 } else { p with port0 := f p.port0 }

/-- The modes that a port trains to (R423); PCIe alone in recovery (R427). -/
def trainable (recovery : Bool) (mode : Nat) : Bool := [5, 6, 7].contains mode || (!recovery && [20, 31, 32].contains mode)

/-- HOST_PORT_TRAIN (R423, R424): the port trains to a mode, which takes effect at a quiesce point. With mode 0 a retrain begins: the link
is down. -/
def execHostPortTrain (port : Bool) (training : HostTraining) (s : State) : Out :=
  let mode := training.mode
  event (if mode = 0 then s.modPort port fun x => { x with up := false, downAt := s.tick, expired := false }
    else if !trainable s.pkg.recovery mode then s
    else (s.modPort port fun x => { x with
      up := true, expired := false, atomicOps := training.atomicOps, nextMode := mode, mode := if x.mode = 0 then mode else x.mode }).applyModes)

/-- HOST_RETRAIN_TIMEOUT (R424): it finds what `HostPort.out` says from that tick on (R399). -/
def execHostRetrainTimeout (port : Bool) (s : State) : Out :=
  event (s.modPort port fun x => if !x.up && decide (x.downAt + 2 ^ 16 ≤ s.tick) then { x with expired := true } else x)

/-- The device address that a host access reaches (R454). -/
def State.hostReach (s : State) (port : Bool) (addr n : Nat) : Option Nat :=
  match s.pkg.windows.find? fun w => w.1 == port && w.2.1 ≤ addr && addr + n ≤ w.2.1 + w.2.2.1 with
  | none => none
  | some w =>
    let pa := w.2.2.2 + (addr - w.2.1)
    if (if port then s.pkg.port1 else s.pkg.port0).up && pa / 2 ^ 48 ≤ 2 && s.frameAttr pa != 3 then some pa else none

/-- Host writes performed at device memory, oldest first, up to one that must wait for accesses through an entry it changes (R383). -/
def State.hostStores (s : State) : List (Nat × List Byte) → State
  | [] => s.modPkg fun p => { p with hostWrites := [] }
  | w :: rest =>
    if s.entryInUse (.phys w.1) w.2.length then s.modPkg fun p => { p with hostWrites := w :: rest }
    else (s.perform ⟨.phys w.1, w.2, false, false, false, 0, [], [], false⟩).hostStores rest

/-- What a host read answers, newest first. -/
def State.answerHost (s : State) (write : Bool) (xs : List Byte) : State := if write then s else s.modPkg fun p => { p with hostReads := xs :: p.hostReads }

/-- A host access to device memory through the physical function's windows (R454), as a system-scope access; a private object answers all
ones or drops the write, with an event in its owner context's ring (R334). -/
def State.hostMemory (s : State) (pa : Nat) (write : Bool) (data : List Byte) : State :=
  match s.objs.find? fun o => o.scope == 0 && o.lines.any fun l => decide (l < pa + data.length) && decide (pa < l + 256) with
  | some o => (s.answerHost write (List.replicate data.length 0xFF)).fileEvent o.ctx 0x0A pa ioSrc
  | none =>
    let s := s.hostStores (s.pkg.hostWrites ++ if write then [(pa, data)] else [])
    s.answerHost write (s.peekList (.phys pa) data.length)

/-- The context bound to virtual function `function` − 1 of a port (R396, R423): revoked contexts are bound to none. -/
def State.boundTo (s : State) (port : Bool) (function : Nat) : Option Ctx :=
  s.ctxs.find? fun c => c.state != .revoked && c.vf.getLsbD 16 && c.vf.getLsbD 15 == port && bitsOf c.vf.toNat 5 0 + 1 == function

/-- A host access to the registers of a virtual function (R396, R432): the words of its context's control block. None for an Unsupported
Request: no context is bound, it was revoked (R392), or no register stands there (R454). -/
def State.hostRegister (s : State) (port : Bool) (function addr : Nat) (write : Bool) (data : List Byte) : Option State :=
  match s.boundTo port function with
  | none => none
  | some c =>
    if !(if port then s.pkg.port1 else s.pkg.port0).up || addr + data.length > 64 then none
    else
      let va := c.ring.toNat / 256 * 256 % 2 ^ 55 + addr
      match (if write then s.ctxWrite c.num va data else (s.ctxRead c.num va data.length).map fun r => r.1.answerHost false r.2) with
      | .ok s => some s
      | .error _ => none

/-- HOST_ACCESS (R432, R454): function 0 is the port's physical function with its memory windows, function i + 1 its virtual function i with
its registers alone. An Unsupported Request has no effect and reads nothing. -/
def execHostAccess (port : Bool) (target : HostTarget) (write : Bool) (data : List Byte) (s : State) : Out :=
  event (if target.function = 0 then
      (match s.hostReach port target.addr data.length with
      | none => s.answerHost write []
      | some pa => s.hostMemory pa write data)
    else (s.hostRegister port target.function target.addr write data).getD (s.answerHost write []))

/-- Whether a hart that translates through a host-format stage has accesses translated and neither performed nor discarded, beyond those
that can be performed at once (R383, R384). -/
def State.translated (s : State) (h : Hart) : Bool :=
  ((s.chain h.ctx).any fun c => c.stage.host) &&
    (!h.heldAll.isEmpty || !h.matrix.isEmpty || h.sample.isSome || s.recorders.any fun r => r.dump.any fun d => d.hart == h.id)

/-- The ATS invalidations that wait completed (R384), once nothing translated through a host-format stage is outstanding: pending accesses are
performed then. -/
def State.finishInvalidations (s : State) : State :=
  if s.pkg.invalidating.isEmpty || s.harts.any s.translated then s
  else
    let through (h : Hart) : Bool := (s.chain h.ctx).any fun c => c.stage.host
    let s := (s.harts.filter through).foldl (fun s h => s.onHart h.id fun s => s.performLate.drainAll) s
    if s.harts.any fun h => through h && !h.stores.isEmpty then s else s.modPkg fun p => { p with invalidating := [] }

/-- ATS_INVALIDATE (R384): it completes when the accesses translated through the old entries are done. -/
def execAtsInvalidate (port : Bool) (lo hi : Nat) (s : State) : Out :=
  event (s.modPkg fun p => { p with invalidating := p.invalidating ++ [(port, lo, hi)] }).finishInvalidations

/-- ATTESTATION_REQUEST (R429). -/
def execAttestationRequest (_port : Bool) (s : State) : Out :=
  event (s.modPkg fun p => { p with attested := (!p.refuseAttest) :: p.attested })

/-! ## Alarms and power -/

/-- The contexts directly below the crown. -/
def State.tenants (s : State) : List Nat := (s.childrenOf 1).map (·.num)

/-- A freeze or thaw edge (R419, R420): the frozen subtrees by root, with SSTAT. -/
def State.setFrozen (s : State) (roots : List Nat) : State :=
  s.modPkg fun p => { p with frozen := roots, sstat := Word.ofNat (p.cycle % 2 ^ 48 * 65536 + if roots.isEmpty then 0 else 2) }

/-- SECURITY_ALARM (R429), at the level that the manifest gives the sensor. -/
def execSecurityAlarm (sensor : BitVec 2) (s : State) : Out :=
  let level := s.pkg.manifest.alarmLevel sensor
  let s := s.fileIn 8 1 0x0C 0 ioSrc
  let s := s.modPkg fun p => { p with
    alarm := max p.alarm level
    sessionKeys := p.sessionKeys && decide (level < 2)
    deviceKeys := p.deviceKeys && decide (level < 3)
    refuseAttest := p.refuseAttest || decide (3 ≤ level) }
  event (if level < 2 then s else s.setFrozen ((s.pkg.frozen ++ s.tenants).eraseDups))

/-- ALARM_REGISTER_WRITE (R429): an alarm of level 1 or 2 is cleared; only re-provisioning clears one of level 3. -/
def execAlarmRegisterWrite (s : State) : Out :=
  event (s.modPkg fun p => { p with alarm := if p.alarm ≤ 2 then 0 else p.alarm })

/-- PROVISIONING_IMAGE (R426, R429): a Golmond-signed image of no lower version ends the refusal of level 3 and clears an alarm of that level;
one of level 1 or 2 stays for crown firmware to clear. -/
def execProvisioningImage (accepted : Bool) (version : BitVec 32) (s : State) : Out :=
  event (if accepted && decide (s.pkg.idVersion ≤ version.toNat) then
      s.modPkg fun p => { p with alarm := if p.alarm = 3 then 0 else p.alarm, deviceKeys := true, refuseAttest := false, idAccepted := version.toNat }
    else s)

/-- A core's grant step, as steps below 4, lowered or raised by one (R430). -/
def stepCores (g : Sparse Nat) (cores : List CoreUnit) (down : Bool) : Sparse Nat :=
  cores.foldl (fun g u =>
    let x := Sparse.get zeroNat g (coreIndex u)
    Sparse.put zeroNat g (coreIndex u) (if down then min 3 (x + 1) else x - 1)) g

/-- The decision of the power controller at a tick boundary (R430). The clock rises again when the draw lies below 95 % of the budget (DESIGN
CHOICE, log 13: the spec does not say when). -/
def State.powerStep (m : PowerStep) (s : State) : State :=
  let g := s.pkg.grant
  let units := enabledUnits s.pkg.manifest
  let die (d : Nat) : List CoreUnit := units.filter fun u => u.die == d
  let least := units.all fun u => Sparse.get zeroNat g (coreIndex u) == 3
  let above := decide (s.pkg.manifest.budget < m.draw)
  let below := decide (m.draw * 100 < s.pkg.manifest.budget * 95)
  let clock := if above && least then max 1200 (s.pkg.clock - 100) else if below then min 1900 (s.pkg.clock + 100) else s.pkg.clock
  let g' := if above && !least then stepCores g (die m.hottest) true
    else if below then stepCores g (die m.coolest) false
    else g
  let g' := m.hot.foldl (fun g n => Sparse.put zeroNat g n 3) g'
  let t := s.modPkg fun p => { p with grant := g', clock := clock, power := none, boundary := false }
  let file (changed : Bool) (u : State) : State := if changed then u.fileIn 8 1 0x0D 0 ioSrc else u
  file (clock != s.pkg.clock) (file (g' != g) t)

/-- POWER_GRANT_STEP (R430): the controller decides at a tick boundary, once for a tick: at this one, if the tick has just begun, else at the
next. -/
def execPowerGrantStep (draw hottest coolest : Nat) (hotCores : List Nat) (s : State) : Out :=
  let m : PowerStep := ⟨draw, hottest, coolest, hotCores⟩
  event (if s.pkg.boundary then s.powerStep m else s.modPkg fun p => { p with power := some m })

/-- A step that ends in another tick than CYCLE `before` stands at the tick's boundary, for which the power controller may have measured
(R430). -/
def State.tickBoundary (before : Nat) (s : State) : State :=
  let s := s.modPkg fun p => { p with boundary := decide (before / 256 < p.cycle / 256) }
  match s.pkg.power with
  | none => s
  | some m => if s.pkg.boundary then s.powerStep m else s

/-! ## Boot and recovery -/

/-- The machine as the boot ROM starts it with the stored images (R427): attr 3 throughout the frame table, the crown context at the
firmware entry, and the units that the stored manifest enables (R428, R437). Memory outside the table and what flash holds stand; the
model's own lists too. -/
def State.boot (s : State) : State :=
  let r := State.booted s.pkg.stored
  { r with
    mem := s.mem.filter fun e => e.1 < Config.frameTableBase || Config.frameTableBase + Config.frameTableSize ≤ e.1
    tags := s.tags, pois := s.pois, events := s.events, turn := s.turn, hold := s.hold, lag := s.lag, ecc := s.ecc, regEcc := s.regEcc
    unresolved := s.unresolved, cuts := s.cuts, keep := s.keep, free := s.free
    pkg := { r.pkg with
      deviceKeys := s.pkg.deviceKeys, refuseAttest := s.pkg.refuseAttest, attested := s.pkg.attested, alarm := if s.pkg.alarm ≤ 2 then 0 else s.pkg.alarm
      fwVersion := s.pkg.fwVersion, mfVersion := s.pkg.mfVersion, idVersion := s.pkg.idVersion, fwAccepted := s.pkg.fwAccepted
      mfAccepted := s.pkg.mfAccepted, idAccepted := s.pkg.idAccepted, hostReads := s.pkg.hostReads } }

/-- The machine in recovery (R427): no context, no launch; its ports train PCIe alone. -/
def State.recover (s : State) (fw mf : Bool) : State :=
  let b := s.boot
  { b with
    hart := { b.hart with run := .retired }, teams := [], crews := [], ctxs := []
    pkg := { b.pkg with fwGood := fw, mfGood := mf, recovery := true } }

/-- A manifest of a security version put into flash. -/
def State.storeManifest (s : State) (version : BitVec 32) (m : Manifest) : State := s.modPkg fun p => { p with stored := m, mfAccepted := version.toNat }

/-- A firmware image of a security version put into flash. -/
def State.storeFirmware (s : State) (version : BitVec 32) : State := s.modPkg fun p => { p with fwAccepted := version.toNat }

/-- DEVICE_RESET (R427, R437), with the images that crown firmware has written to flash before it, if any: an image is accepted whose
signatures verify and whose version is no lower than its counter (R426). -/
def execDeviceReset (firmwareOk : Bool) (flash : FlashManifest) (s : State) : Out :=
  let s := flash.firmware.elim (flash.written.elim s (s.storeManifest flash.version)) (flash.written.elim s (s.storeManifest flash.version)).storeFirmware
  let fw := firmwareOk && decide (s.pkg.fwVersion ≤ s.pkg.fwAccepted)
  let mf := flash.ok && decide (s.pkg.mfVersion ≤ s.pkg.mfAccepted)
  event (if fw && mf then s.boot else s.recover fw mf)

/-- RECOVERY_IMAGE_WRITE (R426, R427): of a manifest, or of firmware. An accepted image of no lower version replaces the stored one; when both
verify the device goes on. -/
def execRecoveryImageWrite (manifest : Option Manifest) (accepted : Bool) (version : BitVec 32) (s : State) : Out :=
  let kind := manifest.isSome
  let least := if kind then s.pkg.mfVersion else s.pkg.fwVersion
  event (if !s.pkg.recovery || !accepted || decide (version.toNat < least) then s
    else
      let s := manifest.elim (s.storeFirmware version) (s.storeManifest version)
      let fw := s.pkg.fwGood || !kind
      let mf := s.pkg.mfGood || kind
      if fw && mf then s.boot else s.modPkg fun p => { p with fwGood := fw, mfGood := mf })

/-! ## The scan path -/

/-- The context that SCTL names (R420). -/
def State.scanRoot (s : State) : Option Ctx :=
  (s.byHandle (Word.ofNat (bitsOf s.pkg.sctl.toNat 47 16))).bind fun c => if c.state = .revoked then none else some c

/-- SCAN_FREEZE (R420). -/
def execScanFreeze (s : State) : Out :=
  event (match s.scanRoot with
    | some c => s.setFrozen ((s.pkg.frozen ++ [c.num]).eraseDups)
    | none => s)

/-- SCAN_THAW (R420): every unit of the subtree is released. -/
def execScanThaw (s : State) : Out :=
  event (match s.scanRoot with
    | some c => s.setFrozen (s.pkg.frozen.filter fun n => !s.inSubtree c.num n)
    | none => s)

/-- The frozen hart that SADDR names (R420): the one in the slot, or one that is in its frame and keeps the slot. -/
def State.scanned (s : State) : Option Hart :=
  let a := s.pkg.saddr.toNat
  let here := s.harts.filter fun h =>
    let u := s.unitOf h
    !h.gone && (s.slotTeam? h.crew h.slot).any (·.resident) && u.die == bitsOf a 55 54 && u.cluster == bitsOf a 53 50 && u.core == bitsOf a 49 46 &&
      (if u.eighths = 0 then h.hidx else u.half) == bitsOf a 45 45 && (s.chain h.ctx).any fun c => s.pkg.frozen.contains c.num
  (here.find? fun h => !h.inFrame).orElse fun _ => here.head?

/-- Where a place is, as a word of the scan path: a physical address, or from 2^63 on a team and an offset. -/
def Place.word : Place → Word
  | .phys a => Word.ofNat a
  | .pad t o => Word.ofNat (2 ^ 63 + t % 2 ^ 31 * 2 ^ 32 + o)

/-- A checkpoint on the scan path: words that say what it is, the position it restores, and its registers. -/
structure CheckpointView where
  words : List Word
  pc : Word
  elix : Nat
  regs : Regs

/-- An undecided trim or a held trap on the scan path (R206). -/
def Trim.view (t : Trim) : CheckpointView :=
  ⟨[Word.ofNat ((if t.held then 1 else 0) + (if t.suppressed then 2 else 0) + (if t.m15 then 4 else 0)), Word.ofNat t.caddy, zextWord t.cause, t.tval], t.pc,
    t.element, t.saved⟩

/-- The checkpoints of a hart's exit region, oldest first (R191, R206): a strip's trims, then its predicting XBR. -/
def Region.views (r : Region) : List CheckpointView :=
  (r.strips.flatMap fun x => x.trims.map Trim.view ++ [⟨[Word.ofNat (8 + if x.pending then 16 else 0), x.bx, 0, 0], x.pc, 0, x.regs⟩]) ++ r.trims.map Trim.view

/-- A checkpoint in the layout of a frame. -/
def State.viewImage (s : State) (h : Hart) (v : CheckpointView) : Sparse Byte :=
  let shifted (n : Nat) (img : Sparse Byte) : Sparse Byte := img.map fun e => (n + e.1, e.2)
  wordImage v.words ++ shifted 0x100 (s.specImage { h with regs := v.regs, pc := v.pc, elix := v.elix }) ++ shifted 0x1000 (gfileImage v.regs) ++
    shifted 0x8000 (packBits v.regs.masks) ++ shifted 0x28000 v.regs.vrf

/-- A held vector store on the scan path: caddy bytes and elements, then each element's place, size and data. -/
def Held.words (x : Held) : List Word :=
  Word.ofNat x.bytes :: Word.ofNat (x.stores.length + x.mx.length) ::
    (x.stores.flatMap fun q => [q.place.word, Word.ofNat q.data.length, Word.ofNat (bytesToNat q.data)]) ++ x.mx.flatMap fun q => [Word.ofNat q.va, 0, Word.ofNat q.bits]

/-- A line of a strainer cache on the scan path (R301): its tags, the poison marks of its words, and its bytes. -/
def CachedLine.words (l : CachedLine) : List Word :=
  let marks := (List.range 8).foldl (fun n k => if l.pois.getD k false then n + 2 ^ k else n) 0
  Word.ofNat l.addr :: Word.ofNat l.desc :: Word.ofNat (l.ctx + 65536 * marks) :: (match l.row with
    | some (a, b, c) => [1, Word.ofNat a, Word.ofNat b, Word.ofNat c]
    | none => [0, 0, 0, 0]) ++ (List.range 8).map fun k => Word.ofNat (bytesToNat ((l.data.drop (8 * k)).take 8))

/-- What the scan path presents of a hart beyond its frame layout: the exit region's tests and checkpoints, the caddy, the publication walk and
the caches of its cluster's strainer (R206, R301, R344). The spec gives no place for them: from 0x400000 on, DESIGN CHOICE (log 65). -/
def State.innerAreas (s : State) (h : Hart) : List (Nat × Nat × Sparse Byte) :=
  let views := (h.region.views.take 8).zip (List.range 8)
  let walk := match h.walk with
    | some w => [if w.begun then 1 else 2, w.ref, Word.ofNat w.scope, Word.ofNat w.changed, Word.ofNat w.ticket]
    | none => [0, 0, 0, 0, 0]
  let u := s.unitOf h
  let lines := s.cache.filter fun l => l.cluster == clusterIndex u.die u.cluster && (s.chain h.ctx).any fun c => c.num == l.ctx
  (views.map fun v => (0x400000 + 0x80000 * v.2, 0x80000, s.viewImage h v.1)) ++
    [(0x800000, 0x600000, wordImage (h.heldAll.flatMap Held.words)), (0xE00000, 0x80000, wordImage ((if h.region.pending then 1 else 0) :: walk)),
      (0xE80000, 0x180000, wordImage (lines.flatMap CachedLine.words))]

/-- Bytes of a hart's frame as memory has them; nothing where they cannot be read. -/
def State.framePart (s : State) (h : Hart) (off size : Nat) : Sparse Byte :=
  match s.frameRead h framePages off size with
  | .ok r => r.2
  | .error _ => []

/-- What the scan path presents of a hart (R420): the areas of the frame layout of R414 with every tile and scratchpad byte and the fault
record and the state word as its frame holds them, and what stands beyond the frame. -/
def State.scanAreas (s : State) (h : Hart) : List (Nat × Nat × Sparse Byte) :=
  let team := match s.slotTeam? h.crew h.slot with
    | none => []
    | some t => ((t.tiles.zip (List.range 8)).map fun p => (0x68000 + 0x8900 * p.2, 0x8900, tileImage p.1)) ++ [(0xB0000, t.size, t.bytes)]
  ((s.frameAreas h (imageWord (s.framePart h 0 8) 0).toNat false).filter fun a => decide (a.1 < 0x68000)) ++ [(0x4000, 0x4000, s.framePart h 0x4000 0x4000)] ++
    team ++ s.innerAreas h

/-- The area of a frame that an offset lies in. -/
def areaAt (areas : List (Nat × Nat × Sparse Byte)) (off : Nat) : Option (Nat × Nat × Sparse Byte) := areas.find? fun a => a.1 ≤ off && off < a.1 + a.2.1

/-- SCAN_READ (R420). The frame of a hart that is in it is read itself. -/
def execScanRead (s : State) : Out :=
  let off := bitsOf s.pkg.saddr.toNat 23 0
  event (match s.scanned with
    | none => s
    | some h =>
      let w := if h.inFrame && decide (off < 0x68000) then imageWord (s.framePart h off 8) 0
        else match areaAt (s.scanAreas h) off with
        | some a => imageWord a.2.2 (off - a.1)
        | none => 0
      s.modPkg fun p => { p with sdata := w })

/-- The image of the area at `lo` as the scan path presents it. -/
def State.scanImage (s : State) (h : Hart) (lo : Nat) : Sparse Byte := ((((s.scanAreas h).find? fun a => a.1 == lo)).map (·.2.2)).getD []

/-- The team of the hart changed. -/
def State.modOwnTeam (s : State) (f : Team → Team) : State :=
  match s.slotTeam? s.hart.crew s.hart.slot with
  | some t => s.modTeam t.id f
  | none => s

/-- The claims and shapes of a hart's tiles as their area of the frame has them (R414). -/
def Team.claims (t : Team) (hart : Nat) (img : Sparse Byte) : Team :=
  let group := (imageWord img 0).toNat
  let shape (k : Nat) : Word := imageWord img (8 + 8 * k)
  { t with tiles := (t.tiles.zip (List.range 8)).map fun p =>
      if bitsOf group p.2 p.2 = 1 then
        let zero := bitsOf group (8 + p.2) (8 + p.2) == 1
        let same := zero == (p.1.claim == some hart && p.1.zeroMark && !p.1.dirty)
        { p.1 with
          claim := some hart, shape := if shape p.2 = 0 then none else some (shape p.2)
          zeroMark := if same then p.1.zeroMark else zero, dirty := p.1.dirty && !zero }
      else if p.1.claim = some hart then { p.1 with claim := none } else p.1 }

/-- The special registers of a hart put back as changed (R420): those that MTS does not reach, too. A member that runs under m15 is shown by
TSTAT.RFM. -/
def Hart.fromScan (h : Hart) (spec gf masks vrf : Sparse Byte) : Hart :=
  let u := h.fromImages spec gf masks vrf
  let u := { u with hartcrd := imageWord spec (8 * 0x30), spbase := imageWord spec (8 * 0x35) }
  if h.m15only then
    { u with
      m15only := u.regs.tstat.getLsbD 6, regs := { u.regs with tstat := (u.regs.tstat &&& ~~~0x40#64) ||| (h.regs.tstat &&& 0x40#64) } }
  else u

/-- The header of a hart put back as changed (R415, R420): the state word into its frame, the context, the coordinate, the launch's op and
queue, the trap field, and the crew's generations and counts. -/
def State.scanHeader (s : State) (h : Hart) (hd : Sparse Byte) : State :=
  let w (k : Nat) : Word := imageWord hd (8 * k)
  let s := s.modHart fun u => { u with
    ctx := ((s.byHandle (w 1)).map (·.num)).getD u.ctx, hartcrd := w 2, trap := ⟨w 4, w 5, w 6, w 7, w 8⟩ }
  let launch := ((s.crew? h.crew).map (·.launch)).getD 0
  let s := { s with launches := s.launches.map fun (l : Launch) =>
    if l.id = launch then { l with op := bitsOf (w 3).toNat 15 0, queue := bitsOf (w 3).toNat 63 16 } else l }
  let s := s.modCrew h.crew fun c => { c with gen := unpackTags hd 0xC0 2, count := unpackTags hd 0xE0 1 }
  outcome (s.setFrameState h (w 0).toNat)

/-- The area at `lo` of a hart's frame layout put back as changed (R420): registers, masks and VRF; what is under way; the header; tiles and
scratchpad; the fault record. The areas that the model's own layout shows (log 65) stay as they are. -/
def State.scanPut (s : State) (lo : Nat) (img : Sparse Byte) : State :=
  let h := s.hart
  let pick (at' : Nat) : Sparse Byte := if lo = at' then img else s.scanImage h at'
  if lo ∈ [0x100, 0x1000, 0x8000, 0x28000] then
    (s.modHart fun h => h.fromScan (pick 0x100) (pick 0x1000) (pick 0x8000) (pick 0x28000)).modOwnTeam fun t => { t with sphw := (imageWord (pick 0x100) (8 * 0x36)).toNat }
  else if lo ∈ [0, 0x500, 0x2000, 0x3100, 0x3500, 0x3900] then
    let u := s.underWay h (pick 0x2000) (pick 0x500) (pick 0x3100) (pick 0x3500) (pick 0x3900) (pick 0)
    let u := if lo = 0x3500 then u else { u with gathers := h.gathers }
    let s := { s with hart := u }
    if lo = 0 then s.scanHeader h img else s
  else if lo = 0x3000 then s.modOwnTeam fun t => t.claims h.id img
  else if lo = 0x4000 then outcome (s.frameWrite h framePages 0x4000 0x4000 img)
  else if lo = 0xB0000 then s.modOwnTeam fun t => { t with bytes := img }
  else if 0x68000 ≤ lo ∧ lo < 0xB0000 then
    s.modOwnTeam fun t => { t with tiles := t.tiles.modify ((lo - 0x68000) / 0x8900) fun x => { x with
      shape := if imageWord img 0 = 0 then none else some (imageWord img 0), data := imageCut img 0x100 0x8000, scale := imageCut img 0x8100 0x800, dirty := true } }
  else s

/-- SCAN_WRITE (R420). -/
def execScanWrite (s : State) : Out :=
  let off := bitsOf s.pkg.saddr.toNat 23 0
  event (match s.scanned with
    | none => s
    | some h =>
      if h.inFrame && decide (off < 0x68000) then outcome (s.frameWrite h framePages off 8 (wordImage [s.pkg.sdata]))
      else match areaAt (s.scanAreas h) off with
      | some a => s.onHart h.id fun s => s.scanPut a.1 (Sparse.putList zeroByte a.2.2 (off - a.1) (wordBytes s.pkg.sdata))
      | none => s)

/-- DEVICE_REGISTER_WRITE (R420). -/
def execDeviceRegisterWrite (offset : Nat) (value : Word) (s : State) : Out := event (s.deviceWrite offset value)

end Sys2Proof.Machine
end

