-- ==== Sys2Proof/Machine/Engines.lean ====
section
/-!
DEFINITION. What goes on beside the harts' members: the engines of a hart with FENCE.ENG (R319), page requests and their answers (R172,
R173, R380, R381), the ends of waits (R96, R315, R318, R407, R445), the events of traps and exit regions, and the work that is due in the
background.
-/
namespace Sys2Proof.Machine

/-! ## Engines -/

/-- A state that differs from another. -/
def State.changed (s t : State) : Option State := if t = s then none else some t

/-- The hart's first queued gather not yet performed. -/
def Hart.openGather (h : Hart) : Option Nat := (List.range h.gathers.length).find? fun k => ((h.gathers[k]?).map (·.performed.isNone)).getD false

/-- A collective that the device itself can move on: it has ended, or it holds every ready flit. -/
def Coll.due (c : Coll) : Bool := !c.delivered && (c.ended.isSome || (decide (c.chunkCount ≤ c.chunks) && c.allReady))

/-- What the engines of the hart do next, if anything: its matrix queue, queued gathers, copies, collectives, its sample, its trace dump,
and its late loads and stores. -/
def State.engineWork (s : State) : Option State :=
  (if s.hart.matrix.isEmpty then none else some s.matrixStep)
  <|> (s.hart.openGather.bind fun k => s.changed (s.performGather k))
  <|> (if s.hart.copies.any (fun c => !c.delivered) then s.changed s.copyStep else none)
  <|> ((s.hart.colls.find? Coll.due).bind fun c => s.changed (s.completeColl c))
  <|> (if s.hart.sample.isSome then s.changed s.writeSample else none)
  <|> ((s.recorders.find? fun r => ((r.dump.map (·.hart)) == some s.hart.id)).map fun r => s.traceDump r.crew)
  <|> (if s.hart.stores.isEmpty && s.hart.late.isEmpty then none else s.changed s.performLate.drainAll)

/-- The engines of the hart moved on by one unit of their work. -/
def State.engineStep (s : State) : State := s.engineWork.getD s

/-- FENCE.ENG (R319): it completes once every engine operation of the hart is complete, with everything performed. -/
def execFenceEng (e : Bool) (_scope : BitVec 3) (s : State) : Out :=
  member e (settled s fun s => if s.enginesBusy s.hart then .hold s.engineStep else .ok s.performLate.drainAll)

/-- MATRIX_OP_PERFORM (R235). -/
def execMatrixOpPerform (hart : Nat) (s : State) : Out := event (s.onEngine hart fun s => s.matrixStep)

/-- QUEUED_GATHER_PERFORM (R364). -/
def execQueuedGatherPerform (hart index : Nat) (s : State) : Out := event (s.onEngine hart fun s => s.performGather index)

/-- The hart's oldest pending access of a class performed: its vector loads (R177), else its oldest pending store of the class. -/
def State.performOldest (s : State) (vector : Bool) : State :=
  if vector && !s.hart.late.isEmpty then s.performLate
  else match (List.range s.hart.stores.length).find? fun k => ((s.hart.stores[k]?).map (·.vector == vector)).getD false with
  | none => s
  | some k =>
    match s.hart.stores[k]? with
    | none => s
    | some q => if s.stuck q then s else (s.modHart fun h => { h with stores := h.stores.eraseIdx k }).perform q

/-- ACCESS_PERFORMED (R311). -/
def execAccessPerformed (hart : Nat) (vector : Bool) (s : State) : Out :=
  event (if s.hasHart hart then s.onHart hart fun s => s.performOldest vector else s)

/-! ## Page requests -/

/-- A request answered (R172, R380, R381): its entry is free, and a hart none of whose pages is open is to resume; one with a failed page
takes the trap path then. -/
def State.answerPage (s : State) (p : PageReq) (good : Bool) : State :=
  let rest := s.pages.filter fun x => x.id != p.id
  let stage (h : Hart) : Nat := (((s.chain h.ctx).map (·.num)).idxOf? p.owner).getD p.stage
  let fix (h : Hart) : Hart :=
    if p.waiters.contains h.id && h.run == .paging then
      { h with
        pageFailed := if good then h.pageFailed else some (stage h)
        run := if rest.any (fun x => x.waiters.contains h.id) then h.run else .resuming }
    else h
  { s with pages := rest }.mapHarts fix

/-- What the owner of a stage has answered in the ring slot of a request (R381). -/
def State.pageAnswer (s : State) (p : PageReq) : Option (State × Bool) :=
  match p.slot, s.ctx? p.owner with
  | some a, some o =>
    if p.viaHost then none
    else match s.ctxWord (o.parent.getD o.num) (a + 0x18) false with
      | .ok (s, 1) => some (s, true)
      | .ok (s, 2) => some (s, false)
      | _ => none
  | _, _ => none

/-- The pending-page entry of a number. -/
def State.page? (s : State) (id : Nat) : Option PageReq := s.pages.find? fun p => p.id == id

/-- PAGE_REQUEST_ANSWER (R381). -/
def execPageRequestAnswer (id : Nat) (s : State) : Out :=
  event (match s.page? id with
    | some p => (match s.pageAnswer p with
      | some (s, good) => s.answerPage p good
      | none => s)
    | none => s)

/-- PAGE_REQUEST_GROUP_RESPONSE (R380): code 0 is Success. -/
def execPageRequestGroupResponse (id : Nat) (code : BitVec 4) (s : State) : Out :=
  event (match s.page? id with
    | some p => if p.viaHost then s.answerPage p (code == 0) else s
    | none => s)

/-- A waiting request placed, where there is room now (R173, R381). -/
def State.placeWaiting (s : State) (p : PageReq) : State :=
  match p.slot, s.harts.find? fun h => p.waiters.contains h.id with
  | none, some h =>
    let (s, q) := s.placeRequest p (s.ctxid h.ctx)
    { s with pages := s.pages.map fun (x : PageReq) => if x.id = p.id then q else x }
  | _, _ => s

/-- PENDING_PAGE_ENTRY_FREE (R173). -/
def execPendingPageEntryFree (id : Nat) (s : State) : Out :=
  event (match s.page? id with
    | some p => s.placeWaiting p
    | none => s)

/-! ## The ends of waits -/

/-- The state that an outcome goes on with. -/
def State.after (s : State) (o : Out) : State :=
  match o with
  | .next t => t
  | _ => s

/-- WAIT_END (R96). -/
def execWaitEnd (hart : Nat) (s : State) : Out :=
  event (s.onEngine hart fun s => match s.hart.waiting with
    | .tick t => if s.tick = t then s else s.modHart fun h => { h with waiting := .none }
    | _ => s)

/-- The member at which a hart waits with a limit, executed again when its limit has passed. -/
def State.timeOut (s : State) (again : Instr → Option Out) : State :=
  match s.hart.convoy with
  | i :: _ => if s.limitPassed then ((again i).map s.after).getD s else s
  | [] => s

/-- WAITW_TIMEOUT (R315). -/
def execWaitwTimeout (hart : Nat) (s : State) : Out :=
  event (s.onEngine hart fun s => s.timeOut fun i => match i with
    | .waitw e b => some (execWaitw e b s)
    | _ => none)

/-- LWAIT_TIMEOUT (R407). -/
def execLwaitTimeout (hart : Nat) (s : State) : Out :=
  event (s.onEngine hart fun s => s.timeOut fun i => match i with
    | .lwait e d a b => some (execLwait e d a b s)
    | _ => none)

/-- COLW_TIMEOUT (R445). -/
def execColwTimeout (hart : Nat) (s : State) : Out :=
  event (s.onEngine hart fun s => s.timeOut fun i => match i with
    | .colw e d a b => some (execColw e d a b s)
    | _ => none)

/-- WAITW_WAKE (R315): the watched line was written or its page moved. -/
def execWaitwWake (hart : Nat) (s : State) : Out :=
  event (s.onEngine hart fun s => match s.hart.waiting, s.hart.convoy with
    | .until _, .waitw e b :: _ => if (s.hart.watch.map (·.fired)).getD true then s.after (execWaitw e b s) else s
    | _, _ => s)

/-- FENCE_SC_TICK (R318). -/
def execFenceScTick (hart : Nat) (s : State) : Out :=
  event (s.onEngine hart fun s => match s.hart.waiting, s.hart.convoy with
    | .boundary _, .fenceSc e c :: _ => s.after (execFenceSc e c s)
    | _, _ => s)

/-! ## Traps and exit regions -/

/-- Whether the hart executes. -/
def State.executes (s : State) : Bool := s.hart.run == .ready && s.enginesRun s.hart

/-- The causes that are ever raised (R75). -/
def raised (cause : BitVec 8) : Bool := (1 ≤ cause.toNat && cause.toNat ≤ 0x0D) || (0x10 ≤ cause.toNat && cause.toNat ≤ 0x1F)

/-- TRAP_ENTRY (R70): of the hart that steps, at the member it stands at. -/
def execTrapEntry (cause : BitVec 8) (tval : Word) (s : State) : Out :=
  event (if !s.executes || !raised cause then s
    else match s.hart.convoy with
      | i :: _ => s.takeTrap (.own cause tval) (endsConvoy i)
      | [] => s.trapAtHead (.own cause tval))

/-- The oldest strip that has ended resolved (R184): its trap or its exit is taken, or its stores are released. -/
def State.resolveFirst (s : State) : State :=
  match s.hart.region.strips with
  | [] => s
  | x :: rest =>
    match genuine x.trims with
    | some tr => s.takeTrim x.caddy tr
    | none =>
      let s := x.caddy.foldl State.commitHeld s
      if x.bx != Word.ones then s.squashTo x else (s.modRegion fun r => { r with strips := rest }).releaseCaddy

/-- The strips that have ended and have no open exit test resolved, as far as the oldest allow; `fuel` bounds them. -/
def State.resolveLeading (s : State) : Nat → State
  | 0 => s
  | fuel + 1 =>
    match s.hart.region.strips with
    | [] => s
    | x :: _ => if x.pending then s else s.resolveFirst.resolveLeading fuel

/-- Every exit test of the oldest strip that has ended resolved. -/
def State.settleFirst (s : State) : State :=
  s.modRegion fun r => { r with strips := match r.strips with
    | x :: rest => { x with pending := false } :: rest
    | [] => [] }

/-- EXIT_TEST_RESOLVE (R184): the exit tests of the oldest strip that has open ones resolve. -/
def execExitTestResolve (s : State) : Out :=
  event (if !s.executes then s
    else if s.hart.region.strips.isEmpty then s.awaitTests
    else s.settleFirst.resolveLeading (s.hart.region.strips.length + 1))

/-- Whether a member waits until no older trim is undecided (R193, R452): the decision points of a strip. -/
def decidesTrims (i : Instr) : Bool :=
  match i with
  | .loop _ _ _ _ => false
  | .loopi _ _ _ _ => false
  | .winb _ _ => false
  | .vsetl _ _ _ _ => false
  | .vconf _ _ => false
  | .st _ _ _ _ _ => true
  | .stx _ _ _ _ _ => true
  | .vseq _ _ _ _ _ => true
  | .vgq _ _ _ _ => true
  | .vgqpop _ _ _ => true
  | .bxany _ _ => true
  | .bxnone _ _ => true
  | .sxw _ _ _ => true
  | .sxr _ _ _ => true
  | .coord _ _ _ _ => true
  | i => convoyClass i == .o || convoyClass i == .x

/-- STRIP_RESOLVE (R184, R188, R452): the oldest strip that has ended resolves; with none, the hart's own strip does where it stands at the
strip's decision point. -/
def execStripResolve (s : State) : Out :=
  event (if !s.executes then s
    else match s.hart.region.strips, s.hart.convoy with
      | _ :: _, _ => s.settleFirst.resolveFirst
      | [], i :: _ => if decidesTrims i then (match s.decideTrims false with
        | .error t => t
        | .ok t => t)
        else s
      | [], [] => s)

/-! ## Work due in the background -/

/-- A queue with a record to accept (R401). -/
def State.acceptDue (s : State) : Option State := s.queues.findSome? fun q => s.changed (s.accept q)

/-- A launch to complete (R404). -/
def State.completeDue (s : State) : Option State :=
  s.launches.findSome? fun l =>
    let t := s.reap.completeLaunch l
    if t.launches.length < s.launches.length then some t else none

/-- A hint to make or to drop (R413). -/
def State.hintDue (s : State) : Option State :=
  s.launches.findSome? fun l =>
    if !l.hintPending then none
    else (s.changed (s.moveHint l)).orElse fun _ =>
      if (s.tally l).hintAt + 2 ^ 16 ≤ s.tick then some (s.tallyAll.modLaunch l.id fun l => { l with hintPending := false }) else none

/-- Crews to bind, or to pre-empt for others (R410, R411). -/
def State.bindDue (s : State) : Option State :=
  s.ctxs.findSome? fun c =>
    if (s.readyCrews c.num).isEmpty then none
    else
      let (t, n) := s.draw
      let t := t.reap.schedule c.num (Config.freeChoice n)
      if t.crews = s.crews then none else some t

/-- A barrier phase to deliver (R273). -/
def State.phaseDue (s : State) : Option State :=
  s.crews.findSome? fun c => (List.range 8).findSome? fun t =>
    if Sparse.get zeroNat c.due t = 0 then none else s.changed (s.deliverPhase c.id t)

/-- The engines of some hart (R267). -/
def State.enginesDue (s : State) : Option State :=
  s.harts.findSome? fun h => if s.enginesRun h then (s.focus h.id).engineWork.map fun t => t.focus s.hart.id else none

/-- The address that a frame access of a hart fails at (R416): of the first page of the frame that does not translate. Which of several the
spec leaves open: DESIGN CHOICE (log 28). -/
def State.failingAddress (s : State) (h : Hart) : Nat :=
  s.frameAddr h + 65536 * ((List.range 35).find? fun k => !(s.frameReach h (65536 * k) true).isOk).getD 0

/-- A handler hart of context `a` for the frame fault of the hart that steps, on a free unit of its placement (R416): g1 is the failing
address and g2 the handle. Its team has the plain division of its unit's SRAM: DESIGN CHOICE (log 28). -/
def State.bindHandler (s : State) (access : FrameAccess) (a : Ctx) (u : CoreUnit) : State :=
  let crew := s.nextId + 1
  let f := (Trap.own 0x1E (Word.ofNat (s.frameAddr s.hart))).field s.hart
  let hh := { s.handlerHart a (Word.ofNat (s.failingAddress s.hart)) f crew 0 with hidx := 0, rows := u.rows }
  let c : Crew := { id := crew, launch := 0, ctx := a.num, stage := 0, index := 0, rows := 1, cols := 1, hartsPerTeam := 1, die := u.die
                    cluster := u.cluster, tags := 0, gen := [], count := [], due := [], resident := true, preempting := false, boundAt := s.pkg.cycle }
  ({ s with
    nextId := s.nextId + 3, crews := s.crews ++ [c], teams := s.teams ++ [Team.atStart (s.nextId + 2) crew 0 u (u.pad false)]
    others := hh :: s.others, hart := { s.hart with run := .frameFault access true } } : State).onHart hh.id State.startFrame

/-- The handler hart of a frame fault started where a unit of its context is free (R416), or a crew there pre-empted for it as R411 has
it. -/
def State.startHandler (s : State) (h : Hart) (access : FrameAccess) : State :=
  match (s.chain h.ctx).tail.find? fun c => c.enable.getLsbD 0x1E with
  | none => s.onHart h.id fun s => s.crownHalt (.own 0x1E (Word.ofNat (s.frameAddr h)))
  | some a =>
    if !s.ctxRuns a.num || s.frozenCtx a.num then s
    else match a.units.find? s.unitFree with
      | some u => s.onHart h.id fun s => s.bindHandler access a u
      | none =>
        if s.crews.any fun c => c.ctx == a.num && c.preempting && !s.saveFailed c then s
        else match s.crews.filter fun c => c.ctx == a.num && s.mayPreempt 7 c with
          | [] => s
          | c :: rest => s.modCrew (rest.foldl s.worse c).id fun c => { c with preempting := true }

/-- A frame access that waited for a host link, tried again (R424). -/
def State.frameBack (s : State) : Option State :=
  (s.harts.find? fun h => h.frameOut && !s.frameWaits h).map fun h => s.onHart h.id State.retryFrame

/-- A handler hart to start for a frame access that failed (R416). -/
def State.handlerDue (s : State) : Option State :=
  s.harts.findSome? fun h => match h.run with
    | .frameFault access false => s.changed (s.startHandler h access)
    | _ => none

/-- A loss that crown firmware has declared through a device register (R440): its bit 16 asks for it, and its low bits name the device. Where
the register stands is the manifest's: DESIGN CHOICE (log 18). -/
def State.lossDue (s : State) : Option State :=
  let w := s.pkg.devReg 0x28
  if w.getLsbD 16 then
    let s := s.modPkg fun p => { p with devregs := Sparse.put zeroWord p.devregs 0x28 0 }
    some (if bitsOf w.toNat 15 0 = 0xFFFF then s else s.loseDevice (bitsOf w.toNat 15 0))
  else none

/-- What is due first, if anything: a pre-emption to complete, a frame fault to handle, a frame access to try again, page requests to answer or to place, a declared loss,
invalidations and host writes, records, launches, hints, changes of mode, crews, barrier phases, and engines. -/
def State.dueWork (s : State) : Option State :=
  (s.crews.findSome? fun c => if c.resident && c.preempting then s.changed (s.completePreemption c) else none)
  <|> s.handlerDue
  <|> s.frameBack
  <|> (s.pages.findSome? fun p => (s.pageAnswer p).map fun r => r.1.answerPage p r.2)
  <|> (s.pages.findSome? fun p => if p.slot.isNone then s.changed (s.placeWaiting p) else none)
  <|> s.lossDue
  <|> (if s.pkg.invalidating.isEmpty then none else s.changed s.finishInvalidations)
  <|> (if s.pkg.hostWrites.isEmpty then none else s.changed (s.hostStores s.pkg.hostWrites))
  <|> s.acceptDue
  <|> s.completeDue
  <|> s.hintDue
  <|> (if s.pkg.port0.mode != s.pkg.port0.nextMode || s.pkg.port1.mode != s.pkg.port1.nextMode then s.changed s.applyModes else none)
  <|> s.bindDue
  <|> s.phaseDue
  <|> s.enginesDue

/-- The background at a convoy boundary: one piece of work, unless `State.lag` puts it off. -/
def State.background (s : State) : State :=
  match s.lag with
  | true :: rest => { s with lag := rest }
  | _ => let s := { s with lag := s.lag.drop 1 }
    s.dueWork.getD s

end Sys2Proof.Machine
end

