-- ==== Sys2Proof/Machine/Strainer.lean ====
section
/-!
DEFINITION. The strainer: grammar descriptors and tables, the hart's session, and the GRAM members (R286 to R302).
-/
namespace Sys2Proof.Machine

/-- `n` bytes of an image word read at `va` from a RAW page, checked like a scalar load (R286, R297). -/
def State.imageLoad (s : State) (va : Word) (n : Nat) : State × Except Stop (List Byte) :=
  match s.access va n .read (s.rawWant va) with
  | (s, .error p) => (s, .error p)
  | (s, .ok r) =>
    let s := s.eccAccess r.place n
    match (List.range n).find? (fun k => s.poisoned (r.place.add k)) with
    | some k => (s, .error (.trap (.own 0x1A (s.hart.poisonTval (va + Word.ofNat (k / 8 * 8))))))
    | none =>
      let (s, bs) := s.readList (fun _ => true) r.place n
      (s, .ok bs)

/-! ## Descriptors -/

/-- The checks of R286 in the order of its table, bottom row first: the cause and TVAL of the first failure (R292). -/
def grammarFault (bs : List Byte) (at' : Word) : Option Trap :=
  let g := grammarOf bs
  let bad (ok : Bool) : Option Trap := if ok then none else some (.own 0x03 at')
  (bad (g.vocab % 512 == 0 && 512 ≤ g.vocab && g.vocab ≤ 262144)) <|> (bad (1 ≤ g.nst && g.nst ≤ 65536)) <|>
    (bad (1 ≤ g.nsym && g.nsym ≤ 256)) <|> (bad (1 ≤ g.ncls && g.ncls ≤ 256)) <|>
    (if g.start < g.nst then none else some (.own 0x11 (Word.ofNat g.start))) <|> (bad (1 ≤ g.depth && g.depth ≤ 64)) <|>
    (bad (field bs 15 1 == 0)) <|> (bad (g.trans % 4 == 0)) <|> (bad (g.masks % 64 == 0)) <|> (bad (field bs 0x28 24 == 0))

/-- The descriptor at `va` read and checked (R292). -/
def State.readGrammar (s : State) (va : Word) : State × Except Stop Grammar :=
  if va.toNat % 64 ≠ 0 then (s, .error (.trap (.own 0x06 va)))
  else match s.imageLoad va 64 with
    | (s, .error p) => (s, .error p)
    | (s, .ok bs) =>
      match grammarFault bs va with
      | some t => (s, .error (.trap t))
      | none => (s, .ok (grammarOf bs))

/-! ## The tables -/

/-- The number of the hart's cluster. -/
def State.myCluster (s : State) : Nat := clusterIndex (s.unitOf s.hart).die (s.unitOf s.hart).cluster

/-- The top symbol of a session (R287). -/
def Session.top (x : Session) : Nat := x.stack.headD 0

/-- A cached line of the hart's context and cluster under the descriptor at `desc`. -/
def State.ownLine (s : State) (desc : Nat) (l : CachedLine) : Bool := l.cluster == s.myCluster && l.ctx == s.hart.ctx && l.desc == desc

/-- Whether a cached line is the one wanted (R298): of a mask row by its tag, of another table by its address. -/
def State.isLine (s : State) (x : Session) (row : Option (Nat × Nat × Nat)) (addr : Nat) (l : CachedLine) : Bool :=
  s.ownLine x.desc l && l.row == row && (row.isSome || l.addr == addr)

/-- `n` bytes of a line that are used, unless one of their words is poisoned (R298): TVAL names that word. -/
def useLine (l : CachedLine) (va : Word) (n : Nat) (s : State) : State × Except Stop (List Byte) :=
  let o := va.toNat % 64
  match (List.range n).find? (fun k => l.pois.getD ((o + k) / 8) false) with
  | some k => (s, .error (.trap (.own 0x1A (s.hart.poisonTval (Word.ofNat (l.addr + (o + k) / 8 * 8))))))
  | none => (s, .ok ((l.data.drop o).take n))

/-- CYCLE of the last GRBIND of a descriptor on the hart's cluster for its context. -/
def State.lastBind (s : State) (desc : Nat) : Option Nat :=
  (s.binds.find? fun b => b.cluster == s.myCluster && b.ctx == s.hart.ctx && b.desc == desc).map (·.cycle)

/-- What the 64 bytes of a table line held before each store that has touched it since the last GRBIND of its descriptor (R298), as far as
`State.keep` has kept it: a line that the caches hold no more, or that was fetched ahead, may be any of these. -/
def State.oldLines (s : State) (desc : Nat) (base : Place) : List (List Byte) :=
  let os := s.old.filter fun o => o.touches base 64 && (s.lastBind desc).all (fun c => decide (c < o.since))
  (List.range os.length).map fun k => (os.take (k + 1)).foldl (fun bs o => overlay base bs o.place o.data) (s.peekList base 64)

/-- Lines of the mask cache (R298). -/
def maskLines : Nat := 4096

/-- A line put into its cache. Of a full mask cache a line makes room that the device chooses. -/
def State.cacheLine (s : State) (l : CachedLine) (same : CachedLine → Bool) : State :=
  let rest := s.cache.filter fun c => !same c
  let masks := rest.filter fun c => c.cluster == l.cluster && c.row.isSome
  if l.row.isSome && decide (maskLines ≤ masks.length) then
    let (s, k) := s.draw
    { s with cache := l :: rest.filter fun c => some c != masks[Config.freeChoice k % masks.length]? }
  else { s with cache := l :: rest }

/-- A table line fetched and cached, then used (R298): `n` bytes at `va`, which one line holds. -/
def State.fetchLine (s : State) (x : Session) (row : Option (Nat × Nat × Nat)) (va : Word) (n : Nat) : State × Except Stop (List Byte) :=
  match s.access va n .read (s.rawWant va) with
  | (s, .error p) => (s, .error p)
  | (s, .ok r) =>
    let base := r.place.back (va.toNat % 64)
    let addr := va.toNat / 64 * 64
    let (s, k) := (s.eccAccess base 64).draw
    let olds := s.oldLines x.desc base
    let bs := (olds[Config.freeChoice k % (olds.length + 1)]?).getD (s.peekList base 64)
    let l : CachedLine := ⟨s.myCluster, s.hart.ctx, x.desc, row, addr, bs, (List.range 8).map fun k => s.poisoned (base.add (8 * k))⟩
    useLine l va n (s.cacheLine l (s.isLine x row addr))

/-- `n` bytes of a table at `va` (R298): a line in the cache serves as it was when it was fetched, or is fetched anew, as the device
chooses where that makes a difference. -/
def State.tableRead (s : State) (x : Session) (row : Option (Nat × Nat × Nat)) (va : Word) (n : Nat) : State × Except Stop (List Byte) :=
  match s.cache.find? (s.isLine x row (va.toNat / 64 * 64)) with
  | none => s.fetchLine x row va n
  | some l =>
    let (s, k) := s.draw
    if Config.freeChoice k % 2 = 0 then useLine l va n s else s.fetchLine x row va n

/-! ## Members -/

/-- The trap of an unbound session (R292 to R297). -/
def unboundTrap : Trap := .own 0x11 0x10000

/-- A GRAM member: it waits for older exit tests, and works after every earlier access of the hart (R291, R299). -/
def gramMember (e : Bool) (go : State → Res) (s : State) : Out := member e (settled s fun s => go s.drainAll)

/-- A member that needs a bound session. -/
def bound (s : State) (go : Session → State → Res) : Res :=
  match s.hart.session with
  | none => .trap unboundTrap s
  | some x => go x s

/-- The session replaced. -/
def State.setSession (s : State) (x : Option Session) : State := s.modHart fun h => { h with session := x }

/-- A GRBIND of a descriptor noted: its lines in the caches of the cluster are dropped, and none older is read again (R292, R298). -/
def State.noteBind (s : State) (desc : Nat) : State :=
  let b : Bind := ⟨s.myCluster, s.hart.ctx, desc, s.pkg.cycle⟩
  { s with
    cache := s.cache.filter fun l => !s.ownLine desc l
    binds := b :: s.binds.filter fun c => !(c.cluster == b.cluster && c.ctx == b.ctx && c.desc == b.desc) }

/-- GRBIND (R292). -/
def execGrbind (e : Bool) (a : GReg) (s : State) : Out :=
  gramMember e (fun s =>
    match s.readGrammar (s.g a) with
    | (s, .error p) => p.res s
    | (s, .ok g) =>
      let x : Session := ⟨(s.g a).toNat, g, g.start, []⟩
      .ok ((s.noteBind x.desc).setSession (some x))) s

/-- What a token does (R293): rejected, a trap, or the session after it. -/
inductive TokenStep where
  | reject
  | stop (p : Stop)
  | next (x : Session)

/-- The transition that an entry makes (R288, R293). -/
def Session.transition (x : Session) (entry : Nat) : TokenStep :=
  let op := bitsOf entry 30 29
  let sym := bitsOf entry 23 16
  let next := bitsOf entry 15 0
  if bitsOf entry 31 31 = 0 ∨ (op = 2 ∧ x.stack = []) then .reject
  else if op = 3 ∨ bitsOf entry 28 24 ≠ 0 ∨ (op = 1 ∧ (sym = 0 ∨ sym ≥ x.gram.nsym)) ∨ next ≥ x.gram.nst then .stop (.trap (.own 0x11 (Word.ofNat x.state)))
  else if op = 1 ∧ x.stack.length ≥ x.gram.depth then .stop (.trap (.own 0x10 (Word.ofNat x.state)))
  else .next { x with state := next, stack := if op = 1 then sym :: x.stack else if op = 2 then x.stack.tail else x.stack }

/-- One token consumed (R293). -/
def State.stepToken (s : State) (x : Session) (va : Word) : State × TokenStep :=
  match s.scalarLoad va 4 with
  | (s, .error p) => (s, .stop p)
  | (s, .ok t) =>
    if t ≥ x.gram.vocab then (s, .reject)
    else match s.tableRead x none (Word.ofNat (x.gram.classmap + t)) 1 with
      | (s, .error p) => (s, .stop p)
      | (s, .ok c) =>
        let c := bytesToNat c
        if c ≥ x.gram.ncls then (s, .stop (.trap (.own 0x11 (Word.ofNat x.state))))
        else match s.tableRead x none (Word.ofNat (x.gram.trans + ((x.state * x.gram.nsym + x.top) * x.gram.ncls + c) * 4)) 4 with
          | (s, .error p) => (s, .stop p)
          | (s, .ok w) => (s, x.transition (bytesToNat w))

/-- A run of tokens from token `i` on, `left` of them: where it ends, and why it stops there (R293). -/
def State.stepRun (s : State) (base : Word) : Nat → Nat → State × Nat × Option (Option Stop)
  | 0, i => (s, i, none)
  | left + 1, i =>
    match s.hart.session with
    | none => (s, i, none)
    | some x =>
      match s.stepToken x (base + Word.ofNat (4 * i)) with
      | (s, .reject) => (s, i, some none)
      | (s, .stop p) => (s, i, some (some p))
      | (s, .next x) => (s.setSession (some x)).stepRun base left (i + 1)

/-- GRSTEP (R293, R294); a pre-emption stops it at a token boundary (R301). -/
def execGrstep (e : Bool) (d a b : GReg) (s : State) : Out :=
  gramMember e (fun s => bound s fun _ s =>
    let base := s.g a
    let len := (s.g b).toNat
    if base.toNat % 4 ≠ 0 then .trap (.own 0x06 base) s
    else
      let n := min len 65536
      let till := min n (s.hart.cut.getD n)
      match s.stepRun base (till - s.hart.elix) s.hart.elix with
      | (s, i, some (some (.trap t))) => .trap t (s.modHart fun h => { h with elix := i })
      | (s, i, some (some .wait)) => .hold (s.modHart fun h => { h with elix := i })
      | (s, i, some none) => .ok (s.setG d (Word.ofNat (2 * 2 ^ 32 + i)))
      | (s, i, none) =>
        if i < n then .hold (s.modHart fun h => { h with elix := i, cut := none })
        else .ok (s.setG d (Word.ofNat ((if len > 65536 then 2 ^ 32 else 0) + i)))) s

/-- The bits of the current mask row for tokens from `first`, a multiple of 512, to `last` − 1, line by line (R287, R295): bits at and
above VOCAB read 0. -/
def State.rowBits (s : State) (x : Session) (first last : Nat) : Nat → State × Except Stop Nat
  | 0 => (s, .ok 0)
  | fuel + 1 =>
    let last := min last x.gram.vocab
    if last ≤ first then (s, .ok 0)
    else
      let row := x.gram.masks + (x.state * x.gram.nsym + x.top) * (x.gram.vocab / 8)
      match s.tableRead x (some (x.state, x.top, first / 512)) (Word.ofNat (row + first / 8)) (min 64 (ceilDiv (last - first) 8)) with
      | (s, .error p) => (s, .error p)
      | (s, .ok bs) =>
        match s.rowBits x (first + 512) last fuel with
        | (s, .error p) => (s, .error p)
        | (s, .ok more) => (s, .ok (bytesToNat bs + more * 2 ^ 512))

/-- GRMASK in either form (R295): `bits` is how many tokens an element takes. -/
def grmask (bits : Nat) (put : Hart → Nat → Nat → Hart) (a : GReg) (s : State) : Res :=
  bound s fun x s =>
    let first := (s.g a).toNat
    if first % 512 ≠ 0 then .trap (.own 0x03 (s.g a)) s
    else match s.rowBits x first (first + s.hart.regs.vl * bits) 513 with
      | (s, .error p) => p.res s
      | (s, .ok row) => .ok (s.modHart fun h => (List.range h.regs.vl).foldl (fun h i => put h i (row / 2 ^ (i * bits) % 2 ^ bits)) h)

/-- GRMASK into a mask register (R295). -/
def execGrmaskM (e : Bool) (d : MReg) (a : GReg) (s : State) : Out :=
  gramMember e (grmask 1 (fun h i x => { h with regs := h.regs.setMask d.toNat i (x == 1) }) a) s

/-- GRMASK into a vector register (R295). -/
def execGrmaskV (e : Bool) (d : VReg) (a : GReg) (s : State) : Out :=
  gramMember e (fun s => grmask (8 * s.hart.width) (fun h i x => h.setElem d.toNat h.width i x) a s) s

/-- GRFORCE (R296). -/
def execGrforce (e : Bool) (d : GReg) (s : State) : Out :=
  gramMember e (fun s => bound s fun x s =>
    match s.rowBits x 0 x.gram.vocab 513 with
    | (s, .error p) => p.res s
    | (s, .ok row) =>
      .ok (s.setG d (if row = 0 then Word.ones else if row = 2 ^ Nat.log2 row then Word.ofNat (Nat.log2 row) else Word.ones - 1))) s

/-- GRSAVE (R297): both halves are checked, then the 128 bytes of the image go out as plain stores, in the 8-byte units of R305. -/
def execGrsave (e : Bool) (a : GReg) (s : State) : Out :=
  gramMember e (fun s =>
    let va := s.g a
    if va.toNat % 64 ≠ 0 then .trap (.own 0x06 va) s
    else match s.access va 64 .write (s.rawWant va) with
      | (s, .error p) => p.res s
      | (s, .ok r) =>
        match s.access (va + 64) 64 .write (s.rawWant (va + 64)) with
        | (s, .error p) => p.res s
        | (s, .ok q) =>
          let img := sessionImage s.hart.session
          .ok ((List.range 16).foldl (fun s k =>
            let x := if k < 8 then r else q
            s.perform ⟨x.place.add (8 * (k % 8)), (img.drop (8 * k)).take 8, false, false, false, s.hart.ctx, x.dirty, x.via, false⟩) s)) s

/-- The session that an image holds under its descriptor, if R290 allows it. -/
def sessionOf (desc : Nat) (g : Grammar) (bs : List Byte) : Option Session :=
  let info := field bs 8 8
  let state := bitsOf info 15 0
  let depth := bitsOf info 22 16
  let stack := ((bs.drop 0x10).take 64).map (·.toNat)
  if field bs 0x50 48 ≠ 0 ∨ state ≥ g.nst ∨ depth > g.depth ∨ info / 2 ^ 23 ≠ 0 ∨ ((stack.take depth).any fun y => y == 0 || decide (y ≥ g.nsym)) ∨
      ((stack.drop depth).any fun y => y != 0) then none
  else some ⟨desc, g, state, (stack.take depth).reverse⟩

/-- GRLOAD (R297). -/
def execGrload (e : Bool) (a : GReg) (s : State) : Out :=
  gramMember e (fun s =>
    let va := s.g a
    if va.toNat % 64 ≠ 0 then .trap (.own 0x06 va) s
    else match s.imageLoad va 64 with
      | (s, .error p) => p.res s
      | (s, .ok lo) =>
        match s.imageLoad (va + 64) 64 with
        | (s, .error p) => p.res s
        | (s, .ok hi) =>
          let bs := lo ++ hi
          let desc := field bs 0 8
          if desc = 0 then .ok (s.setSession none)
          else match s.readGrammar (Word.ofNat desc) with
            | (s, .error p) => p.res s
            | (s, .ok g) =>
              match sessionOf desc g bs with
              | none => .trap (.own 0x11 (Word.ofNat (bitsOf (field bs 8 8) 15 0))) s
              | some x => .ok (s.setSession (some x))) s

/-- GRRESET (R297). -/
def execGrreset (e : Bool) (s : State) : Out :=
  gramMember e (fun s => bound s fun x s => .ok (s.setSession (some { x with state := x.gram.start, stack := [] }))) s

end Sys2Proof.Machine
end

