-- ==== Sys2Proof/Machine/VecConf.lean ====
section
/-!
DEFINITION. Vector configuration (R133 to R135).
-/
namespace Sys2Proof.Machine

/-- Every queued engine operation of the hart that reads or writes a vector or mask register has completed (R133). -/
def Hart.vectorQuiet (h : Hart) : Bool := h.matrix.isEmpty && h.gathers.all fun g => g.performed.isSome

/-- VNREG becomes `n`, every vector and mask register is cleared, and VL keeps within the new VLMAX (R133). -/
def Hart.confVectors (h : Hart) (n : Nat) : Hart :=
  { h with regs := { h.regs with vnreg := n, vrf := [], vpois := [], masks := [] } }.setVt h.regs.vt

/-- VCONF (R133). -/
def execVconf (e : Bool) (b : BitVec 7) (s : State) : Out :=
  let n := 2 ^ b.toNat
  member e (
    if s.hart.region.isOpen || decide (n > s.hart.rows) then .trap (.own 0x03 (Word.ofNat n)) s
    else if !s.hart.vectorQuiet then .hold s
    else .ok (s.modHart fun h => h.confVectors n))

/-- VSETL (R134). -/
def execVsetl (e : Bool) (d a : GReg) (b : BitVec 7) (s : State) : Out :=
  let req := (s.g a).toNat
  let t := s.modHart fun h => { h with regs := { h.regs with vt := b } }
  let vl := t.grantedVl req
  member e (.ok ((t.modRegs fun r => { r with vl := vl }).setG d (Word.ofNat vl)))

/-- VGRANT (R135). -/
def execVgrant (e : Bool) (d : GReg) (s : State) : Out := member e (.ok (s.setG d (Word.ofNat s.grantCap)))

end Sys2Proof.Machine
end

