-- ==== Sys2Proof/Machine/VecFloat.lean ====
section
/-!
DEFINITION. Floating-point vector instructions: VFLT, VFLTX and VFUN (R139, R143, R145 to R148).
-/
namespace Sys2Proof.Machine

/-- The stochastic value of a register result at element `i` under the mode of VT (R113, R115). -/
def Hart.stochastic (h : Hart) (i : Nat) : Nat := if vtRound h.regs.vt = 4 then rsrValue h.seed (Word.ofNat i) else 0

/-- A float operation: the format, the mode, the stochastic value, then a, b and the old d. -/
abbrev FloatOp := Fmt → Nat → Nat → Nat → Nat → Nat → Nat

def flAdd : FloatOp := fun f rm r a b _ => f.encode rm r ((f.decode a).add rm (f.decode b))
def flSub : FloatOp := fun f rm r a b _ => f.encode rm r ((f.decode a).add rm (f.decode b).neg)
def flMul : FloatOp := fun f rm r a b _ => f.encode rm r ((f.decode a).mul (f.decode b))
def flDiv : FloatOp := fun f rm r a b _ => f.div rm r (f.decode a) (f.decode b)
def flMin : FloatOp := fun f _ _ a b _ => f.minNum a b
def flMax : FloatOp := fun f _ _ a b _ => f.maxNum a b
def flFma : FloatOp := fun f rm r a b d => f.encode rm r (((f.decode a).mul (f.decode b)).add rm (f.decode d))
def flFnms : FloatOp := fun f rm r a b d => f.encode rm r ((f.decode d).add rm ((f.decode a).mul (f.decode b)).neg)

/-- VFABS and VFNEG (R147). -/
def flAbs (f : Fmt) (a : Nat) : Nat := if (f.decode a).isNan then f.nan else a % 2 ^ (f.ebits + f.fbits)
def flNeg (f : Fmt) (a : Nat) : Nat :=
  if (f.decode a).isNan then f.nan
  else if a / 2 ^ (f.ebits + f.fbits) % 2 = 1 then a % 2 ^ (f.ebits + f.fbits) else a + 2 ^ (f.ebits + f.fbits)

/-- The value 1. -/
def FVal.one : FVal := .num false 1 0

/-- A member of the float family: illegal at VT width 64 (R139), else `k` on the format of VT. -/
def floatFamily (w : Code) (s : State) (k : Fmt → State → Res) : Res :=
  illegalRegister (floatOf s.hart.regs.vt).isSome w s fun s =>
    match floatOf s.hart.regs.vt with
    | some f => k f s
    | none => .ok s

/-- Vector and vector (R145); `fused` operations read the old d too. -/
def floatVV (op : FloatOp) (fused : Bool) (f3 : BitVec 3) (e : Bool) (d a b : VReg) (m : Bool) (s : State) : Out :=
  member e (floatFamily (encV e 0x2B d a b m f3) s fun f => elementwise m fun h i =>
    let w := h.width
    consumes h ([(a.toNat, w, i), (b.toNat, w, i)] ++ if fused then [(d.toNat, w, i)] else []) (.ok fun t =>
      t.setElem d.toNat w i (op f (vtRound h.regs.vt) (h.stochastic i) (h.elem a.toNat w i) (h.elem b.toNat w i) (h.elem d.toNat w i))))

/-- Vector and scalar (R143, R145). -/
def floatVX (op : FloatOp) (fused : Bool) (f3 : BitVec 3) (e : Bool) (d a : VReg) (b : GReg) (m : Bool) (s : State) : Out :=
  let (s, x, _) := s.atIssue (s.g b) 0
  member e (floatFamily (encV e 0x2C d a b m f3) s fun f => elementwise m fun h i =>
    let w := h.width
    consumes h ((a.toNat, w, i) :: if fused then [(d.toNat, w, i)] else []) (.ok fun t =>
      t.setElem d.toNat w i (op f (vtRound h.regs.vt) (h.stochastic i) (h.elem a.toNat w i) (scalarElem x w) (h.elem d.toNat w i))))

/-- One vector (R147). -/
def floatUnary (op : Fmt → Nat → Nat → Nat → Nat) (f3 : BitVec 3) (e : Bool) (d a : VReg) (m : Bool) (s : State) : Out :=
  member e (floatFamily (encV e 0x2D d a 0 m f3) s fun f => elementwise m fun h i =>
    let w := h.width
    consumes h [(a.toNat, w, i)] (.ok fun t =>
      t.setElem d.toNat w i (op f (vtRound h.regs.vt) (h.stochastic i) (h.elem a.toNat w i))))

def execVfadd (e : Bool) (d a b : VReg) (m : Bool) (s : State) : Out := floatVV flAdd false 0 e d a b m s
def execVfsub (e : Bool) (d a b : VReg) (m : Bool) (s : State) : Out := floatVV flSub false 1 e d a b m s
def execVfmul (e : Bool) (d a b : VReg) (m : Bool) (s : State) : Out := floatVV flMul false 2 e d a b m s
def execVfdiv (e : Bool) (d a b : VReg) (m : Bool) (s : State) : Out := floatVV flDiv false 3 e d a b m s
def execVfmin (e : Bool) (d a b : VReg) (m : Bool) (s : State) : Out := floatVV flMin false 4 e d a b m s
def execVfmax (e : Bool) (d a b : VReg) (m : Bool) (s : State) : Out := floatVV flMax false 5 e d a b m s
def execVfma (e : Bool) (d a b : VReg) (m : Bool) (s : State) : Out := floatVV flFma true 6 e d a b m s
def execVfnms (e : Bool) (d a b : VReg) (m : Bool) (s : State) : Out := floatVV flFnms true 7 e d a b m s
def execVfaddX (e : Bool) (d a : VReg) (b : GReg) (m : Bool) (s : State) : Out := floatVX flAdd false 0 e d a b m s
def execVfsubX (e : Bool) (d a : VReg) (b : GReg) (m : Bool) (s : State) : Out := floatVX flSub false 1 e d a b m s
def execVfmulX (e : Bool) (d a : VReg) (b : GReg) (m : Bool) (s : State) : Out := floatVX flMul false 2 e d a b m s
def execVfdivX (e : Bool) (d a : VReg) (b : GReg) (m : Bool) (s : State) : Out := floatVX flDiv false 3 e d a b m s
def execVfminX (e : Bool) (d a : VReg) (b : GReg) (m : Bool) (s : State) : Out := floatVX flMin false 4 e d a b m s
def execVfmaxX (e : Bool) (d a : VReg) (b : GReg) (m : Bool) (s : State) : Out := floatVX flMax false 5 e d a b m s
def execVfmaX (e : Bool) (d a : VReg) (b : GReg) (m : Bool) (s : State) : Out := floatVX flFma true 6 e d a b m s
def execVfnmsX (e : Bool) (d a : VReg) (b : GReg) (m : Bool) (s : State) : Out := floatVX flFnms true 7 e d a b m s

def execVfsqrt (e : Bool) (d a : VReg) (m : Bool) (s : State) : Out := floatUnary (fun f rm r x => f.sqrt rm r (f.decode x)) 0 e d a m s
def execVfabs (e : Bool) (d a : VReg) (m : Bool) (s : State) : Out := floatUnary (fun f _ _ x => flAbs f x) 1 e d a m s
def execVfneg (e : Bool) (d a : VReg) (m : Bool) (s : State) : Out := floatUnary (fun f _ _ x => flNeg f x) 2 e d a m s
def execVfrcp (e : Bool) (d a : VReg) (m : Bool) (s : State) : Out := floatUnary (fun f rm r x => f.div rm r FVal.one (f.decode x)) 3 e d a m s
def execVfclass (e : Bool) (d a : VReg) (m : Bool) (s : State) : Out := floatUnary (fun f _ _ x => f.classOf x) 4 e d a m s
def execVfexp2 (e : Bool) (d a : VReg) (m : Bool) (s : State) : Out := floatUnary (fun f rm r x => f.exp2 rm r (f.decode x)) 6 e d a m s
def execVflog2 (e : Bool) (d a : VReg) (m : Bool) (s : State) : Out := floatUnary (fun f rm r x => f.log2 rm r (f.decode x)) 7 e d a m s

/-- VFSCALE (R147): the exponent is the element of b, read as signed. -/
def execVfscale (e : Bool) (d a b : VReg) (m : Bool) (s : State) : Out :=
  member e (floatFamily (encV e 0x2D d a b m 5) s fun f => elementwise m fun h i =>
    let w := h.width
    consumes h [(a.toNat, w, i), (b.toNat, w, i)] (.ok fun t =>
      t.setElem d.toNat w i (f.encode (vtRound h.regs.vt) (h.stochastic i) ((f.decode (h.elem a.toNat w i)).scale (toSigned (8 * w) (h.elem b.toNat w i))))))

end Sys2Proof.Machine
end

