-- ==== Sys2Proof/Machine/VecConvert.lean ====
section
/-!
DEFINITION. Conversions (R116, R117, R151, R152) and residue instructions (R122 to R124, R153).
-/
namespace Sys2Proof.Machine

/-- The kind that a VT value names, as a float or as a signed integer; none for a float of width 64. -/
def kindOf (float : Bool) (vt : BitVec 7) : Option Kind := if float then (floatOf vt).map .float else some (.int (8 * vtBytes vt))

/-- CVT (R151, R152): `b` names the target and its rounding. Between unequal widths it runs to completion. -/
def convertOp (srcFloat dstFloat : Bool) (f3 : BitVec 3) (e : Bool) (d a : VReg) (b : BitVec 7) (m : Bool) (s : State) : Out :=
  let vt := s.hart.regs.vt
  let sw := vtBytes vt
  let tw := vtBytes b
  member e (illegalRegister ((kindOf srcFloat vt).isSome && (kindOf dstFloat b).isSome && decide (s.hart.regs.vl ≤ s.hart.rb / max sw tw) &&
      (sw == tw || d != a)) (encV e 0x31 d a b m f3) s fun s =>
    match kindOf srcFloat vt, kindOf dstFloat b with
    | some src, some dst =>
      let rnd (h : Hart) (i : Nat) : Nat := if vtRound b = 4 then rsrValue h.seed (Word.ofNat i) else 0
      let put (h : Hart) (i : Nat) (t : Hart) : Hart :=
        t.setElem d.toNat tw i (convert src dst (vtRound b) (rnd h i) (h.elem a.toNat sw i))
      if sw = tw then elementwise m (fun h i => consumes h [(a.toNat, sw, i)] (.ok (put h i))) s
      else toCompletion m (fun _ i => [(a.toNat, sw, i)]) (fun h act => (h.elements.filter act).foldl (fun t i => put h i t) h) s
    | _, _ => .ok s)

def execCvtF (e : Bool) (d a : VReg) (b : BitVec 7) (m : Bool) (s : State) : Out := convertOp true true 0 e d a b m s
def execCvtFi (e : Bool) (d a : VReg) (b : BitVec 7) (m : Bool) (s : State) : Out := convertOp true false 1 e d a b m s
def execCvtIf (e : Bool) (d a : VReg) (b : BitVec 7) (m : Bool) (s : State) : Out := convertOp false true 2 e d a b m s
def execCvtIi (e : Bool) (d a : VReg) (b : BitVec 7) (m : Bool) (s : State) : Out := convertOp false false 3 e d a b m s

/-- A residue instruction (R124, R153): an invalid input gives `bad` and sets RIV, or traps before the element when RIE is set. -/
def residueOp (f : Nat → Nat → Option Nat) (bad : Nat) (f3 : BitVec 3) (e : Bool) (d a b : VReg) (two : Bool) (m : Bool) (s : State) : Out :=
  member e (illegalRegister (s.hart.width == 4) (encV e 0x31 d a b m f3) s (elementwise m fun h i =>
    consumes h ((a.toNat, 4, i) :: if two then [(b.toNat, 4, i)] else []) (
      match f (h.elem a.toNat 4 i) (h.elem b.toNat 4 i) with
      | some x => .ok fun t => t.setElem d.toNat 4 i x
      | none =>
        if h.regs.astat.getLsbD 2 then .error (.own 0x14 (Word.ofNat i))
        else .ok fun t => { t.setElem d.toNat 4 i bad with regs := (t.setElem d.toNat 4 i bad).regs.setRiv })))

def execVrin (e : Bool) (d a : VReg) (m : Bool) (s : State) : Out :=
  residueOp (fun x _ => resOfSigned (toSigned 32 x)) 0xFFFFFFFF 4 e d a 0 false m s
def execVrout (e : Bool) (d a : VReg) (m : Bool) (s : State) : Out :=
  residueOp (fun x _ => if resValid x then some (ofSigned 32 (resInt x)) else none) 0 5 e d a 0 false m s
def execVradd (e : Bool) (d a b : VReg) (m : Bool) (s : State) : Out :=
  residueOp (fun x y => if resValid x && resValid y then some (resAdd x y) else none) 0xFFFFFFFF 6 e d a b true m s
def execVrmul (e : Bool) (d a b : VReg) (m : Bool) (s : State) : Out :=
  residueOp (fun x y => if resValid x && resValid y then some (resMul x y) else none) 0xFFFFFFFF 7 e d a b true m s

end Sys2Proof.Machine
end

