-- ==== Sys2Proof/Machine/VecInt.lean ====
section
/-!
DEFINITION. Integer vector instructions: VINT, VINTX, VINT2 and VINT3 (R143, R144).
-/
namespace Sys2Proof.Machine

/-- An integer operation on elements of `n` bits, given and answered as numbers below 2^n. -/
abbrev IntOp := Nat → Nat → Nat → Nat

def opAdd : IntOp := fun n a b => (a + b) % 2 ^ n
def opSub : IntOp := fun n a b => (a + 2 ^ n - b) % 2 ^ n
def opMul : IntOp := fun n a b => a * b % 2 ^ n
def opAnd : IntOp := fun _ a b => a &&& b
def opOr : IntOp := fun _ a b => a ||| b
def opXor : IntOp := fun _ a b => a ^^^ b
def opMin : IntOp := fun n a b => if toSigned n a < toSigned n b then a else b
def opMax : IntOp := fun n a b => if toSigned n a < toSigned n b then b else a
def opSll : IntOp := fun n a b => a * 2 ^ (b % n) % 2 ^ n
def opSrl : IntOp := fun n a b => a / 2 ^ (b % n)
def opSra : IntOp := fun n a b => ofSigned n (toSigned n a / 2 ^ (b % n))
def opMulh : IntOp := fun n a b => ofSigned n (toSigned n a * toSigned n b / 2 ^ n)
def opDiv : IntOp := fun n a b => if b = 0 then 2 ^ n - 1 else ofSigned n (Int.tdiv (toSigned n a) (toSigned n b))
def opRem : IntOp := fun n a b => if b = 0 then a else ofSigned n (Int.tmod (toSigned n a) (toSigned n b))
def opAddSat : IntOp := fun n a b => ofSigned n (max (-(2 ^ (n - 1))) (min (2 ^ (n - 1) - 1) (toSigned n a + toSigned n b)))
def opSubSat : IntOp := fun n a b => ofSigned n (max (-(2 ^ (n - 1))) (min (2 ^ (n - 1) - 1) (toSigned n a - toSigned n b)))
def opMinn : IntOp := fun _ a b => min a b
def opMaxn : IntOp := fun _ a b => max a b
def opMulhn : IntOp := fun n a b => a * b / 2 ^ n
def opDivn : IntOp := fun n a b => if b = 0 then 2 ^ n - 1 else a / b
def opRemn : IntOp := fun _ a b => if b = 0 then a else a % b
def opAbs (n a : Nat) : Nat := ofSigned n (Int.ofNat (toSigned n a).natAbs)

/-- Vector and vector (R144). -/
def vectorOp (f : IntOp) (e : Bool) (d a b : VReg) (m : Bool) (s : State) : Out :=
  member e (elementwise m (fun h i =>
    let w := h.width
    consumes h [(a.toNat, w, i), (b.toNat, w, i)] (.ok fun t =>
      t.setElem d.toNat w i (f (8 * w) (h.elem a.toNat w i) (h.elem b.toNat w i)))) s)

/-- Vector and scalar (R143). -/
def vectorOpX (f : IntOp) (e : Bool) (d a : VReg) (b : GReg) (m : Bool) (s : State) : Out :=
  let (s, x, _) := s.atIssue (s.g b) 0
  member e (elementwise m (fun h i =>
    let w := h.width
    consumes h [(a.toNat, w, i)] (.ok fun t => t.setElem d.toNat w i (f (8 * w) (h.elem a.toNat w i) (scalarElem x w)))) s)

/-- One vector (R144). -/
def vectorUnary (f : Nat → Nat → Nat) (e : Bool) (d a : VReg) (m : Bool) (s : State) : Out :=
  member e (elementwise m (fun h i =>
    let w := h.width
    consumes h [(a.toNat, w, i)] (.ok fun t => t.setElem d.toNat w i (f (8 * w) (h.elem a.toNat w i)))) s)

def execVadd (e : Bool) (d a b : VReg) (m : Bool) (s : State) : Out := vectorOp opAdd e d a b m s
def execVsub (e : Bool) (d a b : VReg) (m : Bool) (s : State) : Out := vectorOp opSub e d a b m s
def execVmul (e : Bool) (d a b : VReg) (m : Bool) (s : State) : Out := vectorOp opMul e d a b m s
def execVand (e : Bool) (d a b : VReg) (m : Bool) (s : State) : Out := vectorOp opAnd e d a b m s
def execVor (e : Bool) (d a b : VReg) (m : Bool) (s : State) : Out := vectorOp opOr e d a b m s
def execVxor (e : Bool) (d a b : VReg) (m : Bool) (s : State) : Out := vectorOp opXor e d a b m s
def execVmin (e : Bool) (d a b : VReg) (m : Bool) (s : State) : Out := vectorOp opMin e d a b m s
def execVmax (e : Bool) (d a b : VReg) (m : Bool) (s : State) : Out := vectorOp opMax e d a b m s
def execVaddX (e : Bool) (d a : VReg) (b : GReg) (m : Bool) (s : State) : Out := vectorOpX opAdd e d a b m s
def execVsubX (e : Bool) (d a : VReg) (b : GReg) (m : Bool) (s : State) : Out := vectorOpX opSub e d a b m s
def execVmulX (e : Bool) (d a : VReg) (b : GReg) (m : Bool) (s : State) : Out := vectorOpX opMul e d a b m s
def execVandX (e : Bool) (d a : VReg) (b : GReg) (m : Bool) (s : State) : Out := vectorOpX opAnd e d a b m s
def execVorX (e : Bool) (d a : VReg) (b : GReg) (m : Bool) (s : State) : Out := vectorOpX opOr e d a b m s
def execVxorX (e : Bool) (d a : VReg) (b : GReg) (m : Bool) (s : State) : Out := vectorOpX opXor e d a b m s
def execVminX (e : Bool) (d a : VReg) (b : GReg) (m : Bool) (s : State) : Out := vectorOpX opMin e d a b m s
def execVmaxX (e : Bool) (d a : VReg) (b : GReg) (m : Bool) (s : State) : Out := vectorOpX opMax e d a b m s
def execVsll (e : Bool) (d a b : VReg) (m : Bool) (s : State) : Out := vectorOp opSll e d a b m s
def execVsrl (e : Bool) (d a b : VReg) (m : Bool) (s : State) : Out := vectorOp opSrl e d a b m s
def execVsra (e : Bool) (d a b : VReg) (m : Bool) (s : State) : Out := vectorOp opSra e d a b m s
def execVmulh (e : Bool) (d a b : VReg) (m : Bool) (s : State) : Out := vectorOp opMulh e d a b m s
def execVdiv (e : Bool) (d a b : VReg) (m : Bool) (s : State) : Out := vectorOp opDiv e d a b m s
def execVrem (e : Bool) (d a b : VReg) (m : Bool) (s : State) : Out := vectorOp opRem e d a b m s
def execVaddsat (e : Bool) (d a b : VReg) (m : Bool) (s : State) : Out := vectorOp opAddSat e d a b m s
def execVsubsat (e : Bool) (d a b : VReg) (m : Bool) (s : State) : Out := vectorOp opSubSat e d a b m s
def execVminn (e : Bool) (d a b : VReg) (m : Bool) (s : State) : Out := vectorOp opMinn e d a b m s
def execVmaxn (e : Bool) (d a b : VReg) (m : Bool) (s : State) : Out := vectorOp opMaxn e d a b m s
def execVmulhn (e : Bool) (d a b : VReg) (m : Bool) (s : State) : Out := vectorOp opMulhn e d a b m s
def execVdivn (e : Bool) (d a b : VReg) (m : Bool) (s : State) : Out := vectorOp opDivn e d a b m s
def execVremn (e : Bool) (d a b : VReg) (m : Bool) (s : State) : Out := vectorOp opRemn e d a b m s
/-- VMERGE (R144): m0 selects, and the m bit has no effect. -/
def execVmerge (e : Bool) (d a b : VReg) (_m : Bool) (s : State) : Out :=
  member e (elementwise false (fun h i =>
    let w := h.width
    let v := (if h.regs.mask 0 i then b else a).toNat
    consumes h [(v, w, i)] (.ok fun t => t.setElem d.toNat w i (h.elem v w i))) s)
/-- VABS (R144). -/
def execVabs (e : Bool) (d a : VReg) (m : Bool) (s : State) : Out := vectorUnary opAbs e d a m s
/-- VMV (R144). -/
def execVmv (e : Bool) (d a : VReg) (m : Bool) (s : State) : Out := vectorUnary (fun _ x => x) e d a m s

end Sys2Proof.Machine
end

