-- ==== Sys2Proof/Machine/VecMask.lean ====
section
/-!
DEFINITION. Compares and mask instructions: VCMP, VCMPX and VMASK (R143, R149, R150).
-/
namespace Sys2Proof.Machine

/-- A condition on elements of `n` bits. -/
abbrev Cond := Nat → Nat → Nat → Bool

def condEq : Cond := fun _ a b => a == b
def condNe : Cond := fun _ a b => a != b
def condLt : Cond := fun n a b => decide (toSigned n a < toSigned n b)
def condGe : Cond := fun n a b => decide (toSigned n b ≤ toSigned n a)
def condLtn : Cond := fun _ a b => decide (a < b)
def condGen : Cond := fun _ a b => decide (b ≤ a)

/-- The float conditions (R149): false when either is NaN. -/
def flLt (f : Fmt) (a b : Nat) : Bool := (f.decode a).lt (f.decode b)
def flLe (f : Fmt) (a b : Nat) : Bool := !(f.decode a).isNan && !(f.decode b).isNan && !(f.decode b).lt (f.decode a)

/-- Bit `i` of a mask register of the hart set to `b`. -/
def Hart.setMask (h : Hart) (k i : Nat) (b : Bool) : Hart := { h with regs := h.regs.setMask k i b }

/-- A compare of two vectors. -/
def compareVV (c : Hart → Nat → Nat → Bool) (d : MReg) (a b : VReg) (m : Bool) : State → Res :=
  elementwise m fun h i =>
    let w := h.width
    consumes h [(a.toNat, w, i), (b.toNat, w, i)] (.ok fun t => t.setMask d.toNat i (c h (h.elem a.toNat w i) (h.elem b.toNat w i)))

/-- A compare of a vector with a scalar. -/
def compareVX (c : Hart → Nat → Nat → Bool) (d : MReg) (a : VReg) (x : Word) (m : Bool) : State → Res :=
  elementwise m fun h i =>
    let w := h.width
    consumes h [(a.toNat, w, i)] (.ok fun t => t.setMask d.toNat i (c h (h.elem a.toNat w i) (scalarElem x w)))

/-- An integer compare (R149). -/
def compareInt (c : Cond) (e : Bool) (d : MReg) (a b : VReg) (m : Bool) (s : State) : Out :=
  member e (compareVV (fun h => c (8 * h.width)) d a b m s)
def compareIntX (c : Cond) (e : Bool) (d : MReg) (a : VReg) (b : GReg) (m : Bool) (s : State) : Out :=
  let (s, x, _) := s.atIssue (s.g b) 0
  member e (compareVX (fun h => c (8 * h.width)) d a x m s)

/-- A float compare (R149). -/
def compareFloat (c : Fmt → Nat → Nat → Bool) (f3 : BitVec 3) (e : Bool) (d : MReg) (a b : VReg) (m : Bool) (s : State) : Out :=
  member e (floatFamily (encV e 0x2E (ofMask d) a b m f3) s fun f => compareVV (fun _ => c f) d a b m)
def compareFloatX (c : Fmt → Nat → Nat → Bool) (f3 : BitVec 3) (e : Bool) (d : MReg) (a : VReg) (b : GReg) (m : Bool) (s : State) : Out :=
  let (s, x, _) := s.atIssue (s.g b) 0
  member e (floatFamily (encV e 0x2F (ofMask d) a b m f3) s fun f => compareVX (fun _ => c f) d a x m)

def execVcmpEq (e : Bool) (d : MReg) (a b : VReg) (m : Bool) (s : State) : Out := compareInt condEq e d a b m s
def execVcmpNe (e : Bool) (d : MReg) (a b : VReg) (m : Bool) (s : State) : Out := compareInt condNe e d a b m s
def execVcmpLt (e : Bool) (d : MReg) (a b : VReg) (m : Bool) (s : State) : Out := compareInt condLt e d a b m s
def execVcmpGe (e : Bool) (d : MReg) (a b : VReg) (m : Bool) (s : State) : Out := compareInt condGe e d a b m s
def execVcmpLtn (e : Bool) (d : MReg) (a b : VReg) (m : Bool) (s : State) : Out := compareInt condLtn e d a b m s
def execVcmpGen (e : Bool) (d : MReg) (a b : VReg) (m : Bool) (s : State) : Out := compareInt condGen e d a b m s
def execVcmpFlt (e : Bool) (d : MReg) (a b : VReg) (m : Bool) (s : State) : Out := compareFloat flLt 6 e d a b m s
def execVcmpFle (e : Bool) (d : MReg) (a b : VReg) (m : Bool) (s : State) : Out := compareFloat flLe 7 e d a b m s
def execVcmpEqX (e : Bool) (d : MReg) (a : VReg) (b : GReg) (m : Bool) (s : State) : Out := compareIntX condEq e d a b m s
def execVcmpNeX (e : Bool) (d : MReg) (a : VReg) (b : GReg) (m : Bool) (s : State) : Out := compareIntX condNe e d a b m s
def execVcmpLtX (e : Bool) (d : MReg) (a : VReg) (b : GReg) (m : Bool) (s : State) : Out := compareIntX condLt e d a b m s
def execVcmpGeX (e : Bool) (d : MReg) (a : VReg) (b : GReg) (m : Bool) (s : State) : Out := compareIntX condGe e d a b m s
def execVcmpLtnX (e : Bool) (d : MReg) (a : VReg) (b : GReg) (m : Bool) (s : State) : Out := compareIntX condLtn e d a b m s
def execVcmpGenX (e : Bool) (d : MReg) (a : VReg) (b : GReg) (m : Bool) (s : State) : Out := compareIntX condGen e d a b m s
def execVcmpFltX (e : Bool) (d : MReg) (a : VReg) (b : GReg) (m : Bool) (s : State) : Out := compareFloatX flLt 6 e d a b m s
def execVcmpFleX (e : Bool) (d : MReg) (a : VReg) (b : GReg) (m : Bool) (s : State) : Out := compareFloatX flLe 7 e d a b m s

/-- A mask instruction on bits (R150): mask registers hold no poison. -/
def maskOp (f : Bool → Bool → Bool) (e : Bool) (d a b : MReg) (m : Bool) (s : State) : Out :=
  member e (elementwise m (fun h i => .ok fun t => t.setMask d.toNat i (f (h.regs.mask a.toNat i) (h.regs.mask b.toNat i))) s)

def execMand (e : Bool) (d a b : MReg) (m : Bool) (s : State) : Out := maskOp (fun x y => x && y) e d a b m s
def execMor (e : Bool) (d a b : MReg) (m : Bool) (s : State) : Out := maskOp (fun x y => x || y) e d a b m s
def execMxor (e : Bool) (d a b : MReg) (m : Bool) (s : State) : Out := maskOp (fun x y => x != y) e d a b m s
def execMandn (e : Bool) (d a b : MReg) (m : Bool) (s : State) : Out := maskOp (fun x y => x && !y) e d a b m s
def execMnot (e : Bool) (d a : MReg) (m : Bool) (s : State) : Out := maskOp (fun x _ => !x) e d a a m s
def execMset (e : Bool) (d : MReg) (m : Bool) (s : State) : Out := maskOp (fun _ _ => true) e d d d m s

/-- MFIRST (R150): a value below ELIX that a stopped scan left in its destination is the result; VL there marks that none is found so far. -/
def execMfirst (e : Bool) (d : GReg) (a : MReg) (m : Bool) (s : State) : Out :=
  let h := s.hart
  let found := h.elements.find? fun i => h.active m i && h.regs.mask a.toNat i
  member e (
    if h.elix ≠ 0 ∧ (s.g d).toNat < h.elix then .ok s
    else match found with
      | some i => .ok (s.setG d (Word.ofNat i))
      | none => (s.setG d (Word.ofNat h.regs.vl)).through)

/-- MPOP (R150): a stopped count stands in its destination, and goes on from there. -/
def execMpop (e : Bool) (d : GReg) (a : MReg) (m : Bool) (s : State) : Out :=
  let h := s.hart
  let count := (h.elements.filter fun i => h.active m i && h.regs.mask a.toNat i).length
  member e (s.setG d ((if h.elix = 0 then 0 else s.g d) + Word.ofNat count)).through

end Sys2Proof.Machine
end

