-- ==== Sys2Proof/Machine/VecPerm.lean ====
section
/-!
DEFINITION. Permutes (R156). Every read takes the values from before the instruction.
-/
namespace Sys2Proof.Machine

/-- Element `k` of a register below VL, else 0. -/
def Hart.elemBelowVl (h : Hart) (v k : Nat) : Nat := if k < h.regs.vl then h.elem v h.width k else 0

/-- The register element `k` as consumed, when it lies below VL. -/
def srcBelowVl (h : Hart) (v k : Nat) : List (Nat × Nat × Nat) := if k < h.regs.vl then [(v, h.width, k)] else []

/-- Elements written from pairs of an index and a value. -/
def Hart.putAll (h : Hart) (d w : Nat) (xs : List (Nat × Nat)) : Hart := xs.foldl (fun t x => t.setElem d w x.1 x.2) h

/-- VSLUP: active elements from k on (R156). -/
def execVslup (e : Bool) (d a : VReg) (b : GReg) (m : Bool) (s : State) : Out :=
  let k := (s.g b).toNat
  member e (toCompletion m (fun h i => if k ≤ i then [(a.toNat, h.width, i - k)] else [])
    (fun h act => h.putAll d.toNat h.width ((h.elements.filter fun i => act i && decide (k ≤ i)).map fun i => (i, h.elem a.toNat h.width (i - k)))) s)

/-- VSLDN (R156). -/
def execVsldn (e : Bool) (d a : VReg) (b : GReg) (m : Bool) (s : State) : Out :=
  let k := (s.g b).toNat
  member e (toCompletion m (fun h i => srcBelowVl h a.toNat (i + k))
    (fun h act => h.putAll d.toNat h.width ((h.elements.filter act).map fun i => (i, h.elemBelowVl a.toNat (i + k)))) s)

/-- The active elements that a mask register selects, ascending. -/
def Hart.chosen (h : Hart) (act : Nat → Bool) (k : Nat) : List Nat := (List.range h.regs.vl).filter fun i => act i && h.regs.mask k i

/-- VCOMP packs the selected elements down (R156). -/
def execVcomp (e : Bool) (d a : VReg) (b : MReg) (m : Bool) (s : State) : Out :=
  member e (toCompletion m (fun h i => if h.regs.mask b.toNat i then [(a.toNat, h.width, i)] else [])
    (fun h act => let c := h.chosen act b.toNat
      h.putAll d.toNat h.width (((List.range c.length).zip c).map fun p => (p.1, h.elem a.toNat h.width p.2))) s)

/-- VEXPD spreads elements out to the selected places (R156). -/
def execVexpd (e : Bool) (d a : VReg) (b : MReg) (m : Bool) (s : State) : Out :=
  member e (toCompletion m
    (fun h i => if h.regs.mask b.toNat i then [(a.toNat, h.width, ((h.chosen (h.active m) b.toNat).filter fun x => decide (x < i)).length)] else [])
    (fun h act => let c := h.chosen act b.toNat
      h.putAll d.toNat h.width ((c.zip (List.range c.length)).map fun p => (p.1, h.elem a.toNat h.width p.2))) s)

/-- VIOTA counts the mask bits below each active element (R156). -/
def iotaPairs (r : Regs) (k : Nat) : List Nat → Nat → List (Nat × Nat)
  | [], _ => []
  | i :: is, c => (i, c) :: iotaPairs r k is (if r.mask k i then c + 1 else c)

def execViota (e : Bool) (d : VReg) (a : MReg) (m : Bool) (s : State) : Out :=
  member e (toCompletion m (fun _ _ => [])
    (fun h act => h.putAll d.toNat h.width (iotaPairs h.regs a.toNat ((List.range h.regs.vl).filter act) 0)) s)

/-- VBCAST (R156). On a resumption it reads g[a] again, as R138 has source elements read again; R143 keeps the operand of X forms alone (DESIGN
CHOICE, log 72). -/
def execVbcast (e : Bool) (d : VReg) (a : GReg) (m : Bool) (s : State) : Out :=
  let x := s.g a
  member e (elementwise m (fun h i => .ok fun t => t.setElem d.toNat h.width i (scalarElem x h.width)) s)

/-- VEXTR reads element k whatever its activity; the m bit has no effect (R156). -/
def execVextr (e : Bool) (d : GReg) (a : VReg) (b : GReg) (_m : Bool) (s : State) : Out :=
  let h := s.hart
  let k := (s.g b).toNat
  member e (
    if h.regs.vl ≤ k then .ok (s.setG d 0)
    else if h.elemPoison a.toNat h.width k then .trap poisonTrap s
    else .ok (s.setG d (BitVec.ofInt 64 (toSigned (8 * h.width) (h.elem a.toNat h.width k)))))

/-- VRGATH (R156). -/
def execVrgath (e : Bool) (d a b : VReg) (m : Bool) (s : State) : Out :=
  member e (toCompletion m (fun h i => (b.toNat, h.width, i) :: srcBelowVl h a.toNat (h.elem b.toNat h.width i))
    (fun h act => h.putAll d.toNat h.width ((h.elements.filter act).map fun i => (i, h.elemBelowVl a.toNat (h.elem b.toNat h.width i)))) s)

end Sys2Proof.Machine
end

