-- ==== Sys2Proof/Machine/VecReduce.lean ====
section
/-!
DEFINITION. Reductions (R126, R127, R154, R155).
-/
namespace Sys2Proof.Machine

/-- A reduction in index order (R154, R155): a partial result in the form of the final one stands in `d` when it stops at an
element or a pre-emption stops it, and it goes on from there when ELIX is above 0. `step` takes the partial result and an element. -/
def reduction (init : Word) (step : Word → Nat → Word) (d : GReg) (a : VReg) (m : Bool) (s : State) : Res :=
  let h := s.hart
  let w := h.width
  let start := if h.elix = 0 then init else s.g d
  let act := h.elements.filter (h.active m)
  match act.find? (fun i => h.elemPoison a.toNat w i) with
  | none => (s.setG d (act.foldl (fun x i => step x (h.elem a.toNat w i)) start)).through
  | some j =>
    let below := act.filter fun i => decide (i < j)
    (s.setG d (below.foldl (fun x i => step x (h.elem a.toNat w i)) start)).stopAt h.elix j (!below.isEmpty) poisonTrap {}

/-- The VT width in bits. -/
def Hart.bits (h : Hart) : Nat := 8 * h.width

/-- VSUM. -/
def execVsum (e : Bool) (d : GReg) (a : VReg) (m : Bool) (s : State) : Out :=
  member e (reduction 0 (fun x y => x + BitVec.ofInt 64 (toSigned s.hart.bits y)) d a m s)

/-- An extremum by sign: `d` holds the sign-extended element. -/
def signedPick (better : Int → Int → Bool) (n : Nat) (x : Word) (y : Nat) : Word :=
  if better (toSigned n y) x.toInt then BitVec.ofInt 64 (toSigned n y) else x

/-- VRMAX and VRMIN. -/
def execVrmax (e : Bool) (d : GReg) (a : VReg) (m : Bool) (s : State) : Out :=
  member e (reduction (BitVec.ofInt 64 (minSigned s.hart.bits)) (signedPick (fun x y => decide (y < x)) s.hart.bits) d a m s)
def execVrmin (e : Bool) (d : GReg) (a : VReg) (m : Bool) (s : State) : Out :=
  member e (reduction (BitVec.ofInt 64 (maxSigned s.hart.bits)) (signedPick (fun x y => decide (x < y)) s.hart.bits) d a m s)

/-- VRAND and VROR. -/
def execVrand (e : Bool) (d : GReg) (a : VReg) (m : Bool) (s : State) : Out :=
  member e (reduction (Word.ofNat (2 ^ s.hart.bits - 1)) (fun x y => x &&& Word.ofNat y) d a m s)
def execVror (e : Bool) (d : GReg) (a : VReg) (m : Bool) (s : State) : Out :=
  member e (reduction 0 (fun x y => x ||| Word.ofNat y) d a m s)

/-- The mark of a VFSUMO that has taken no element yet (R155). -/
def emptySum : Word := 0x8000000000000000#64

/-- The next sum of VFSUMO (R126): the first element as it is, then one RNE rounding for each. -/
def orderedStep (f : Fmt) (x : Word) (y : Nat) : Word :=
  if x = emptySum then Word.ofNat (if (f.decode y).isNan then f.nan else y)
  else Word.ofNat (f.encode 0 0 ((f.decode (x.toNat % 2 ^ f.bits)).add 0 (f.decode y)))

/-- VFSUMO (R126, R155). A sum of no element is +0. -/
def execVfsumo (e : Bool) (d : GReg) (a : VReg) (m : Bool) (s : State) : Out :=
  member e (floatFamily (encV e 0x32 d a 0 m 1) s fun f s =>
    match reduction emptySum (orderedStep f) d a m s with
    | .ok t => .ok (if t.g d = emptySum then t.setG d 0 else t)
    | r => r)

/-- Two partial sums combined (R127). -/
def combineSums (f : Fmt) : Option Nat → Option Nat → Option Nat
  | none, y => y
  | x, none => x
  | some x, some y => some (f.encode 0 0 ((f.decode x).add 0 (f.decode y)))

/-- One level of the tree: neighbours combined (R127). -/
def sumLevel (f : Fmt) : List (Option Nat) → List (Option Nat)
  | x :: y :: rest => combineSums f x y :: sumLevel f rest
  | rest => rest

/-- The tree of R127: `fuel` levels suffice. -/
def sumTree (f : Fmt) : Nat → List (Option Nat) → Option Nat
  | 0, xs => xs.headD none
  | _ + 1, [] => none
  | _ + 1, [x] => x
  | fuel + 1, xs => sumTree f fuel (sumLevel f xs)

/-- VFSUMT (R127): it runs to completion. -/
def execVfsumt (e : Bool) (d : GReg) (a : VReg) (m : Bool) (s : State) : Out :=
  member e (floatFamily (encV e 0x32 d a 0 m 2) s fun f =>
    toCompletion m (fun h i => [(a.toNat, h.width, i)]) fun h act =>
      let leaves := (List.range h.regs.vl).map fun i => if act i then some (h.elem a.toNat h.width i) else none
      let r := match sumTree f 17 leaves with
        | none => 0
        | some x => if (f.decode x).isNan then f.nan else x
      { h with regs := h.regs.setG d (Word.ofNat r) })

/-- The larger of two, where any NaN gives the canonical NaN (R154). -/
def nanMax (f : Fmt) (x y : Nat) : Nat := if (f.decode x).isNan || (f.decode y).isNan then f.nan else f.maxNum x y

/-- VFRMAX (R154). -/
def execVfrmax (e : Bool) (d : GReg) (a : VReg) (m : Bool) (s : State) : Out :=
  member e (floatFamily (encV e 0x32 d a 0 m 7) s fun f =>
    reduction (Word.ofNat (f.inf true)) (fun x y => Word.ofNat (nanMax f (x.toNat % 2 ^ f.bits) y)) d a m)

end Sys2Proof.Machine
end

