-- ==== Sys2Proof/Machine/Dispatch.lean ====
section
/-!
DEFINITION. The dispatch: one arm per constructor of Instr, each one call of that instruction's own meaning.
-/
namespace Sys2Proof.Machine

/-- The outcome of one member, or of one event, at a state. -/
def exec (i : Instr) (s : State) : Host.Outcome State Fault Refusal :=
  match i with
  | .add e d a b => Sys2Proof.Machine.execAdd e d a b s
  | .sub e d a b => Sys2Proof.Machine.execSub e d a b s
  | .and e d a b => Sys2Proof.Machine.execAnd e d a b s
  | .or e d a b => Sys2Proof.Machine.execOr e d a b s
  | .xor e d a b => Sys2Proof.Machine.execXor e d a b s
  | .andn e d a b => Sys2Proof.Machine.execAndn e d a b s
  | .orn e d a b => Sys2Proof.Machine.execOrn e d a b s
  | .sll e d a b => Sys2Proof.Machine.execSll e d a b s
  | .srl e d a b => Sys2Proof.Machine.execSrl e d a b s
  | .sra e d a b => Sys2Proof.Machine.execSra e d a b s
  | .rol e d a b => Sys2Proof.Machine.execRol e d a b s
  | .ror e d a b => Sys2Proof.Machine.execRor e d a b s
  | .slt e d a b => Sys2Proof.Machine.execSlt e d a b s
  | .sltn e d a b => Sys2Proof.Machine.execSltn e d a b s
  | .min e d a b => Sys2Proof.Machine.execMin e d a b s
  | .max e d a b => Sys2Proof.Machine.execMax e d a b s
  | .minn e d a b => Sys2Proof.Machine.execMinn e d a b s
  | .maxn e d a b => Sys2Proof.Machine.execMaxn e d a b s
  | .mul e d a b => Sys2Proof.Machine.execMul e d a b s
  | .mulh e d a b => Sys2Proof.Machine.execMulh e d a b s
  | .mulhn e d a b => Sys2Proof.Machine.execMulhn e d a b s
  | .div e d a b => Sys2Proof.Machine.execDiv e d a b s
  | .divn e d a b => Sys2Proof.Machine.execDivn e d a b s
  | .rem e d a b => Sys2Proof.Machine.execRem e d a b s
  | .remn e d a b => Sys2Proof.Machine.execRemn e d a b s
  | .addv e d a b => Sys2Proof.Machine.execAddv e d a b s
  | .subv e d a b => Sys2Proof.Machine.execSubv e d a b s
  | .mulv e d a b => Sys2Proof.Machine.execMulv e d a b s
  | .clz e d a => Sys2Proof.Machine.execClz e d a s
  | .ctz e d a => Sys2Proof.Machine.execCtz e d a s
  | .popc e d a => Sys2Proof.Machine.execPopc e d a s
  | .bswap e d a => Sys2Proof.Machine.execBswap e d a s
  | .sext8 e d a => Sys2Proof.Machine.execSext8 e d a s
  | .sext16 e d a => Sys2Proof.Machine.execSext16 e d a s
  | .sext32 e d a => Sys2Proof.Machine.execSext32 e d a s
  | .zext8 e d a => Sys2Proof.Machine.execZext8 e d a s
  | .zext16 e d a => Sys2Proof.Machine.execZext16 e d a s
  | .zext32 e d a => Sys2Proof.Machine.execZext32 e d a s
  | .addi e d a imm => Sys2Proof.Machine.execAddi e d a imm s
  | .andi e d a imm => Sys2Proof.Machine.execAndi e d a imm s
  | .ori e d a imm => Sys2Proof.Machine.execOri e d a imm s
  | .xori e d a imm => Sys2Proof.Machine.execXori e d a imm s
  | .slti e d a imm => Sys2Proof.Machine.execSlti e d a imm s
  | .sltni e d a imm => Sys2Proof.Machine.execSltni e d a imm s
  | .slli e d a x => Sys2Proof.Machine.execSlli e d a x s
  | .srli e d a x => Sys2Proof.Machine.execSrli e d a x s
  | .srai e d a x => Sys2Proof.Machine.execSrai e d a x s
  | .roli e d a x => Sys2Proof.Machine.execRoli e d a x s
  | .lim e d imm => Sys2Proof.Machine.execLim e d imm s
  | .lihi e d imm => Sys2Proof.Machine.execLihi e d imm s
  | .addpc e d imm => Sys2Proof.Machine.execAddpc e d imm s
  | .ld e d a w o => Sys2Proof.Machine.execLd e d a w o s
  | .st e d a w o => Sys2Proof.Machine.execSt e d a w o s
  | .ldx e d a b w => Sys2Proof.Machine.execLdx e d a b w s
  | .stx e d a b w => Sys2Proof.Machine.execStx e d a b w s
  | .beq e a b o => Sys2Proof.Machine.execBeq e a b o s
  | .bne e a b o => Sys2Proof.Machine.execBne e a b o s
  | .blt e a b o => Sys2Proof.Machine.execBlt e a b o s
  | .bge e a b o => Sys2Proof.Machine.execBge e a b o s
  | .bltn e a b o => Sys2Proof.Machine.execBltn e a b o s
  | .bgen e a b o => Sys2Proof.Machine.execBgen e a b o s
  | .jmp e o => Sys2Proof.Machine.execJmp e o s
  | .call e o => Sys2Proof.Machine.execCall e o s
  | .jr e a => Sys2Proof.Machine.execJr e a s
  | .callr e a => Sys2Proof.Machine.execCallr e a s
  | .ret e => Sys2Proof.Machine.execRet e s
  | .loop e l a o => Sys2Proof.Machine.execLoop e l a o s
  | .loopi e l c o => Sys2Proof.Machine.execLoopi e l c o s
  | .mfs e d n => Sys2Proof.Machine.execMfs e d n s
  | .mts e a n => Sys2Proof.Machine.execMts e a n s
  | .winb e imm => Sys2Proof.Machine.execWinb e imm s
  | .nop e => Sys2Proof.Machine.execNop e s
  | .trap e c => Sys2Proof.Machine.execTrap e c s
  | .rft e => Sys2Proof.Machine.execRft e s
  | .wait e => Sys2Proof.Machine.execWait e s
  | .yield e => Sys2Proof.Machine.execYield e s
  | .brkpt e => Sys2Proof.Machine.execBrkpt e s
  | .halt e => Sys2Proof.Machine.execHalt e s
  | .amoswapRlx e d a b x => Sys2Proof.Machine.execAmoswapRlx e d a b x s
  | .amoaddRlx e d a b x => Sys2Proof.Machine.execAmoaddRlx e d a b x s
  | .amoandRlx e d a b x => Sys2Proof.Machine.execAmoandRlx e d a b x s
  | .amoorRlx e d a b x => Sys2Proof.Machine.execAmoorRlx e d a b x s
  | .amoxorRlx e d a b x => Sys2Proof.Machine.execAmoxorRlx e d a b x s
  | .amomaxRlx e d a b x => Sys2Proof.Machine.execAmomaxRlx e d a b x s
  | .amominRlx e d a b x => Sys2Proof.Machine.execAmominRlx e d a b x s
  | .amocasRlx e d a b x => Sys2Proof.Machine.execAmocasRlx e d a b x s
  | .amoswapAcq e d a b x => Sys2Proof.Machine.execAmoswapAcq e d a b x s
  | .amoaddAcq e d a b x => Sys2Proof.Machine.execAmoaddAcq e d a b x s
  | .amoandAcq e d a b x => Sys2Proof.Machine.execAmoandAcq e d a b x s
  | .amoorAcq e d a b x => Sys2Proof.Machine.execAmoorAcq e d a b x s
  | .amoxorAcq e d a b x => Sys2Proof.Machine.execAmoxorAcq e d a b x s
  | .amomaxAcq e d a b x => Sys2Proof.Machine.execAmomaxAcq e d a b x s
  | .amominAcq e d a b x => Sys2Proof.Machine.execAmominAcq e d a b x s
  | .amocasAcq e d a b x => Sys2Proof.Machine.execAmocasAcq e d a b x s
  | .amoswapRel e d a b x => Sys2Proof.Machine.execAmoswapRel e d a b x s
  | .amoaddRel e d a b x => Sys2Proof.Machine.execAmoaddRel e d a b x s
  | .amoandRel e d a b x => Sys2Proof.Machine.execAmoandRel e d a b x s
  | .amoorRel e d a b x => Sys2Proof.Machine.execAmoorRel e d a b x s
  | .amoxorRel e d a b x => Sys2Proof.Machine.execAmoxorRel e d a b x s
  | .amomaxRel e d a b x => Sys2Proof.Machine.execAmomaxRel e d a b x s
  | .amominRel e d a b x => Sys2Proof.Machine.execAmominRel e d a b x s
  | .amocasRel e d a b x => Sys2Proof.Machine.execAmocasRel e d a b x s
  | .amoswapAr e d a b x => Sys2Proof.Machine.execAmoswapAr e d a b x s
  | .amoaddAr e d a b x => Sys2Proof.Machine.execAmoaddAr e d a b x s
  | .amoandAr e d a b x => Sys2Proof.Machine.execAmoandAr e d a b x s
  | .amoorAr e d a b x => Sys2Proof.Machine.execAmoorAr e d a b x s
  | .amoxorAr e d a b x => Sys2Proof.Machine.execAmoxorAr e d a b x s
  | .amomaxAr e d a b x => Sys2Proof.Machine.execAmomaxAr e d a b x s
  | .amominAr e d a b x => Sys2Proof.Machine.execAmominAr e d a b x s
  | .amocasAr e d a b x => Sys2Proof.Machine.execAmocasAr e d a b x s
  | .ldacq32 e d a => Sys2Proof.Machine.execLdacq32 e d a s
  | .ldacq64 e d a => Sys2Proof.Machine.execLdacq64 e d a s
  | .strel32 e d a => Sys2Proof.Machine.execStrel32 e d a s
  | .strel64 e d a => Sys2Proof.Machine.execStrel64 e d a s
  | .watch e a => Sys2Proof.Machine.execWatch e a s
  | .waitw e b => Sys2Proof.Machine.execWaitw e b s
  | .fenceSv e => Sys2Proof.Machine.execFenceSv e s
  | .fenceVs e => Sys2Proof.Machine.execFenceVs e s
  | .fenceVv e => Sys2Proof.Machine.execFenceVv e s
  | .fenceMem e x => Sys2Proof.Machine.execFenceMem e x s
  | .fenceSc e x => Sys2Proof.Machine.execFenceSc e x s
  | .fenceEng e x => Sys2Proof.Machine.execFenceEng e x s
  | .vconf e b => Sys2Proof.Machine.execVconf e b s
  | .vsetl e d a b => Sys2Proof.Machine.execVsetl e d a b s
  | .vgrant e d => Sys2Proof.Machine.execVgrant e d s
  | .vadd e d a b m => Sys2Proof.Machine.execVadd e d a b m s
  | .vsub e d a b m => Sys2Proof.Machine.execVsub e d a b m s
  | .vmul e d a b m => Sys2Proof.Machine.execVmul e d a b m s
  | .vand e d a b m => Sys2Proof.Machine.execVand e d a b m s
  | .vor e d a b m => Sys2Proof.Machine.execVor e d a b m s
  | .vxor e d a b m => Sys2Proof.Machine.execVxor e d a b m s
  | .vmin e d a b m => Sys2Proof.Machine.execVmin e d a b m s
  | .vmax e d a b m => Sys2Proof.Machine.execVmax e d a b m s
  | .vaddX e d a b m => Sys2Proof.Machine.execVaddX e d a b m s
  | .vsubX e d a b m => Sys2Proof.Machine.execVsubX e d a b m s
  | .vmulX e d a b m => Sys2Proof.Machine.execVmulX e d a b m s
  | .vandX e d a b m => Sys2Proof.Machine.execVandX e d a b m s
  | .vorX e d a b m => Sys2Proof.Machine.execVorX e d a b m s
  | .vxorX e d a b m => Sys2Proof.Machine.execVxorX e d a b m s
  | .vminX e d a b m => Sys2Proof.Machine.execVminX e d a b m s
  | .vmaxX e d a b m => Sys2Proof.Machine.execVmaxX e d a b m s
  | .vsll e d a b m => Sys2Proof.Machine.execVsll e d a b m s
  | .vsrl e d a b m => Sys2Proof.Machine.execVsrl e d a b m s
  | .vsra e d a b m => Sys2Proof.Machine.execVsra e d a b m s
  | .vmulh e d a b m => Sys2Proof.Machine.execVmulh e d a b m s
  | .vdiv e d a b m => Sys2Proof.Machine.execVdiv e d a b m s
  | .vrem e d a b m => Sys2Proof.Machine.execVrem e d a b m s
  | .vaddsat e d a b m => Sys2Proof.Machine.execVaddsat e d a b m s
  | .vsubsat e d a b m => Sys2Proof.Machine.execVsubsat e d a b m s
  | .vminn e d a b m => Sys2Proof.Machine.execVminn e d a b m s
  | .vmaxn e d a b m => Sys2Proof.Machine.execVmaxn e d a b m s
  | .vmulhn e d a b m => Sys2Proof.Machine.execVmulhn e d a b m s
  | .vdivn e d a b m => Sys2Proof.Machine.execVdivn e d a b m s
  | .vremn e d a b m => Sys2Proof.Machine.execVremn e d a b m s
  | .vabs e d a m => Sys2Proof.Machine.execVabs e d a m s
  | .vmerge e d a b m => Sys2Proof.Machine.execVmerge e d a b m s
  | .vmv e d a m => Sys2Proof.Machine.execVmv e d a m s
  | .vfadd e d a b m => Sys2Proof.Machine.execVfadd e d a b m s
  | .vfsub e d a b m => Sys2Proof.Machine.execVfsub e d a b m s
  | .vfmul e d a b m => Sys2Proof.Machine.execVfmul e d a b m s
  | .vfdiv e d a b m => Sys2Proof.Machine.execVfdiv e d a b m s
  | .vfmin e d a b m => Sys2Proof.Machine.execVfmin e d a b m s
  | .vfmax e d a b m => Sys2Proof.Machine.execVfmax e d a b m s
  | .vfma e d a b m => Sys2Proof.Machine.execVfma e d a b m s
  | .vfnms e d a b m => Sys2Proof.Machine.execVfnms e d a b m s
  | .vfaddX e d a b m => Sys2Proof.Machine.execVfaddX e d a b m s
  | .vfsubX e d a b m => Sys2Proof.Machine.execVfsubX e d a b m s
  | .vfmulX e d a b m => Sys2Proof.Machine.execVfmulX e d a b m s
  | .vfdivX e d a b m => Sys2Proof.Machine.execVfdivX e d a b m s
  | .vfminX e d a b m => Sys2Proof.Machine.execVfminX e d a b m s
  | .vfmaxX e d a b m => Sys2Proof.Machine.execVfmaxX e d a b m s
  | .vfmaX e d a b m => Sys2Proof.Machine.execVfmaX e d a b m s
  | .vfnmsX e d a b m => Sys2Proof.Machine.execVfnmsX e d a b m s
  | .vfsqrt e d a m => Sys2Proof.Machine.execVfsqrt e d a m s
  | .vfabs e d a m => Sys2Proof.Machine.execVfabs e d a m s
  | .vfneg e d a m => Sys2Proof.Machine.execVfneg e d a m s
  | .vfrcp e d a m => Sys2Proof.Machine.execVfrcp e d a m s
  | .vfclass e d a m => Sys2Proof.Machine.execVfclass e d a m s
  | .vfscale e d a b m => Sys2Proof.Machine.execVfscale e d a b m s
  | .vfexp2 e d a m => Sys2Proof.Machine.execVfexp2 e d a m s
  | .vflog2 e d a m => Sys2Proof.Machine.execVflog2 e d a m s
  | .vcmpEq e d a b m => Sys2Proof.Machine.execVcmpEq e d a b m s
  | .vcmpNe e d a b m => Sys2Proof.Machine.execVcmpNe e d a b m s
  | .vcmpLt e d a b m => Sys2Proof.Machine.execVcmpLt e d a b m s
  | .vcmpGe e d a b m => Sys2Proof.Machine.execVcmpGe e d a b m s
  | .vcmpLtn e d a b m => Sys2Proof.Machine.execVcmpLtn e d a b m s
  | .vcmpGen e d a b m => Sys2Proof.Machine.execVcmpGen e d a b m s
  | .vcmpFlt e d a b m => Sys2Proof.Machine.execVcmpFlt e d a b m s
  | .vcmpFle e d a b m => Sys2Proof.Machine.execVcmpFle e d a b m s
  | .vcmpEqX e d a b m => Sys2Proof.Machine.execVcmpEqX e d a b m s
  | .vcmpNeX e d a b m => Sys2Proof.Machine.execVcmpNeX e d a b m s
  | .vcmpLtX e d a b m => Sys2Proof.Machine.execVcmpLtX e d a b m s
  | .vcmpGeX e d a b m => Sys2Proof.Machine.execVcmpGeX e d a b m s
  | .vcmpLtnX e d a b m => Sys2Proof.Machine.execVcmpLtnX e d a b m s
  | .vcmpGenX e d a b m => Sys2Proof.Machine.execVcmpGenX e d a b m s
  | .vcmpFltX e d a b m => Sys2Proof.Machine.execVcmpFltX e d a b m s
  | .vcmpFleX e d a b m => Sys2Proof.Machine.execVcmpFleX e d a b m s
  | .mand e d a b m => Sys2Proof.Machine.execMand e d a b m s
  | .mor e d a b m => Sys2Proof.Machine.execMor e d a b m s
  | .mxor e d a b m => Sys2Proof.Machine.execMxor e d a b m s
  | .mandn e d a b m => Sys2Proof.Machine.execMandn e d a b m s
  | .mnot e d a m => Sys2Proof.Machine.execMnot e d a m s
  | .mfirst e d a m => Sys2Proof.Machine.execMfirst e d a m s
  | .mpop e d a m => Sys2Proof.Machine.execMpop e d a m s
  | .mset e d m => Sys2Proof.Machine.execMset e d m s
  | .cvtF e d a b m => Sys2Proof.Machine.execCvtF e d a b m s
  | .cvtFi e d a b m => Sys2Proof.Machine.execCvtFi e d a b m s
  | .cvtIf e d a b m => Sys2Proof.Machine.execCvtIf e d a b m s
  | .cvtIi e d a b m => Sys2Proof.Machine.execCvtIi e d a b m s
  | .vrin e d a m => Sys2Proof.Machine.execVrin e d a m s
  | .vrout e d a m => Sys2Proof.Machine.execVrout e d a m s
  | .vradd e d a b m => Sys2Proof.Machine.execVradd e d a b m s
  | .vrmul e d a b m => Sys2Proof.Machine.execVrmul e d a b m s
  | .vsum e d a m => Sys2Proof.Machine.execVsum e d a m s
  | .vfsumo e d a m => Sys2Proof.Machine.execVfsumo e d a m s
  | .vfsumt e d a m => Sys2Proof.Machine.execVfsumt e d a m s
  | .vrmax e d a m => Sys2Proof.Machine.execVrmax e d a m s
  | .vrmin e d a m => Sys2Proof.Machine.execVrmin e d a m s
  | .vrand e d a m => Sys2Proof.Machine.execVrand e d a m s
  | .vror e d a m => Sys2Proof.Machine.execVror e d a m s
  | .vfrmax e d a m => Sys2Proof.Machine.execVfrmax e d a m s
  | .vslup e d a b m => Sys2Proof.Machine.execVslup e d a b m s
  | .vsldn e d a b m => Sys2Proof.Machine.execVsldn e d a b m s
  | .vcomp e d a b m => Sys2Proof.Machine.execVcomp e d a b m s
  | .vexpd e d a b m => Sys2Proof.Machine.execVexpd e d a b m s
  | .viota e d a m => Sys2Proof.Machine.execViota e d a m s
  | .vbcast e d a m => Sys2Proof.Machine.execVbcast e d a m s
  | .vextr e d a b m => Sys2Proof.Machine.execVextr e d a b m s
  | .vrgath e d a b m => Sys2Proof.Machine.execVrgath e d a b m s
  | .vld e d a m => Sys2Proof.Machine.execVld e d a m s
  | .vlds e d a b m => Sys2Proof.Machine.execVlds e d a b m s
  | .vst e d a m => Sys2Proof.Machine.execVst e d a m s
  | .vsts e d a b m => Sys2Proof.Machine.execVsts e d a b m s
  | .vgth e d a b m => Sys2Proof.Machine.execVgth e d a b m s
  | .vscto e d a b m => Sys2Proof.Machine.execVscto e d a b m s
  | .vsctu e d a b m => Sys2Proof.Machine.execVsctu e d a b m s
  | .vxarm e m => Sys2Proof.Machine.execVxarm e m s
  | .vxit e a m => Sys2Proof.Machine.execVxit e a m s
  | .vxclr e m => Sys2Proof.Machine.execVxclr e m s
  | .vxlen e d m => Sys2Proof.Machine.execVxlen e d m s
  | .vxwait e m => Sys2Proof.Machine.execVxwait e m s
  | .vxfx e d m => Sys2Proof.Machine.execVxfx e d m s
  | .bxany e o => Sys2Proof.Machine.execBxany e o s
  | .bxnone e o => Sys2Proof.Machine.execBxnone e o s
  | .vseq e d a b m => Sys2Proof.Machine.execVseq e d a b m s
  | .vrot e d a b m => Sys2Proof.Machine.execVrot e d a b m s
  | .vrang e d a b m => Sys2Proof.Machine.execVrang e d a b m s
  | .vgq e a b m => Sys2Proof.Machine.execVgq e a b m s
  | .vgqpop e d m => Sys2Proof.Machine.execVgqpop e d m s
  | .seqfork e d a b m => Sys2Proof.Machine.execSeqfork e d a b m s
  | .seqmap e d a b m => Sys2Proof.Machine.execSeqmap e d a b m s
  | .tconf e d a => Sys2Proof.Machine.execTconf e d a s
  | .tshape e d a => Sys2Proof.Machine.execTshape e d a s
  | .tzero e d => Sys2Proof.Machine.execTzero e d s
  | .tld e d a b => Sys2Proof.Machine.execTld e d a b s
  | .tst e d a b => Sys2Proof.Machine.execTst e d a b s
  | .mrowin e d a b => Sys2Proof.Machine.execMrowin e d a b s
  | .mrowout e d a b => Sys2Proof.Machine.execMrowout e d a b s
  | .mcolin e d a b => Sys2Proof.Machine.execMcolin e d a b s
  | .mcolout e d a b => Sys2Proof.Machine.execMcolout e d a b s
  | .tsave e d a => Sys2Proof.Machine.execTsave e d a s
  | .trst e d a => Sys2Proof.Machine.execTrst e d a s
  | .tdirty e d => Sys2Proof.Machine.execTdirty e d s
  | .tcvt e d a b => Sys2Proof.Machine.execTcvt e d a b s
  | .mrwO e c x a b => Sys2Proof.Machine.execMrwO e c x a b s
  | .mrwF e c x a b => Sys2Proof.Machine.execMrwF e c x a b s
  | .mrsO e c x a b => Sys2Proof.Machine.execMrsO e c x a b s
  | .mrsF e c x a b => Sys2Proof.Machine.execMrsF e c x a b s
  | .mrwi e c x a b => Sys2Proof.Machine.execMrwi e c x a b s
  | .sxw e a b => Sys2Proof.Machine.execSxw e a b s
  | .sxr e d b => Sys2Proof.Machine.execSxr e d b s
  | .sxgo e d a => Sys2Proof.Machine.execSxgo e d a s
  | .sxgom e d a => Sys2Proof.Machine.execSxgom e d a s
  | .sxabt e a => Sys2Proof.Machine.execSxabt e a s
  | .sxstat e d a => Sys2Proof.Machine.execSxstat e d a s
  | .barr e x t => Sys2Proof.Machine.execBarr e x t s
  | .barw e x t => Sys2Proof.Machine.execBarw e x t s
  | .bara e x t => Sys2Proof.Machine.execBara e x t s
  | .tron e d a => Sys2Proof.Machine.execTron e d a s
  | .troff e d a => Sys2Proof.Machine.execTroff e d a s
  | .samp e d a => Sys2Proof.Machine.execSamp e d a s
  | .coord e d a b => Sys2Proof.Machine.execCoord e d a b s
  | .grbind e a => Sys2Proof.Machine.execGrbind e a s
  | .grstep e d a b => Sys2Proof.Machine.execGrstep e d a b s
  | .grmaskM e d a => Sys2Proof.Machine.execGrmaskM e d a s
  | .grmaskV e d a => Sys2Proof.Machine.execGrmaskV e d a s
  | .grforce e d => Sys2Proof.Machine.execGrforce e d s
  | .grsave e a => Sys2Proof.Machine.execGrsave e a s
  | .grload e a => Sys2Proof.Machine.execGrload e a s
  | .grreset e => Sys2Proof.Machine.execGrreset e s
  | .objnew e d a b => Sys2Proof.Machine.execObjnew e d a b s
  | .tagst e d a => Sys2Proof.Machine.execTagst e d a s
  | .tagld e d a => Sys2Proof.Machine.execTagld e d a s
  | .pub e x a b => Sys2Proof.Machine.execPub e x a b s
  | .pubw e d a x => Sys2Proof.Machine.execPubw e d a x s
  | .objprb e d a => Sys2Proof.Machine.execObjprb e d a s
  | .tagclr e a => Sys2Proof.Machine.execTagclr e a s
  | .objfree e a => Sys2Proof.Machine.execObjfree e a s
  | .ctxnew e d a => Sys2Proof.Machine.execCtxnew e d a s
  | .ctxgrant e a b => Sys2Proof.Machine.execCtxgrant e a b s
  | .ctxrevoke e a => Sys2Proof.Machine.execCtxrevoke e a s
  | .ctxrun e a b => Sys2Proof.Machine.execCtxrun e a b s
  | .ctxinfo e d a b => Sys2Proof.Machine.execCtxinfo e d a b s
  | .trapup e a b => Sys2Proof.Machine.execTrapup e a b s
  | .launch e d a b => Sys2Proof.Machine.execLaunch e d a b s
  | .lwait e d a b => Sys2Proof.Machine.execLwait e d a b s
  | .lprio e d a b => Sys2Proof.Machine.execLprio e d a b s
  | .colr e d a => Sys2Proof.Machine.execColr e d a s
  | .colg e d a => Sys2Proof.Machine.execColg e d a s
  | .cols e d a => Sys2Proof.Machine.execCols e d a s
  | .colb e d a => Sys2Proof.Machine.execColb e d a s
  | .colw e d a b => Sys2Proof.Machine.execColw e d a b s
  | .cola e a => Sys2Proof.Machine.execCola e a s
  | .trapEntry cause tval => Sys2Proof.Machine.execTrapEntry cause tval s
  | .exitTestResolve => Sys2Proof.Machine.execExitTestResolve s
  | .stripResolve => Sys2Proof.Machine.execStripResolve s
  | .pageRequestAnswer id => Sys2Proof.Machine.execPageRequestAnswer id s
  | .pageRequestGroupResponse id code => Sys2Proof.Machine.execPageRequestGroupResponse id code s
  | .pendingPageEntryFree id => Sys2Proof.Machine.execPendingPageEntryFree id s
  | .launchAccept ctx queue => Sys2Proof.Machine.execLaunchAccept ctx queue s
  | .crewBind ctx choice => Sys2Proof.Machine.execCrewBind ctx choice s
  | .preemptionComplete crew => Sys2Proof.Machine.execPreemptionComplete crew s
  | .priorityAging launch => Sys2Proof.Machine.execPriorityAging launch s
  | .homeBiasMove launch => Sys2Proof.Machine.execHomeBiasMove launch s
  | .hintTimeout launch => Sys2Proof.Machine.execHintTimeout launch s
  | .hartRetire hart => Sys2Proof.Machine.execHartRetire hart s
  | .launchCompletion launch => Sys2Proof.Machine.execLaunchCompletion launch s
  | .barrierPhaseComplete crew tag => Sys2Proof.Machine.execBarrierPhaseComplete crew tag s
  | .waitwWake hart => Sys2Proof.Machine.execWaitwWake hart s
  | .waitwTimeout hart => Sys2Proof.Machine.execWaitwTimeout hart s
  | .waitEnd hart => Sys2Proof.Machine.execWaitEnd hart s
  | .lwaitTimeout hart => Sys2Proof.Machine.execLwaitTimeout hart s
  | .colwTimeout hart => Sys2Proof.Machine.execColwTimeout hart s
  | .fenceScTick hart => Sys2Proof.Machine.execFenceScTick hart s
  | .copyStrip hart copy => Sys2Proof.Machine.execCopyStrip hart copy s
  | .copyCompletion hart copy => Sys2Proof.Machine.execCopyCompletion hart copy s
  | .mirrorAck copy count => Sys2Proof.Machine.execMirrorAck copy count s
  | .matrixOpPerform hart => Sys2Proof.Machine.execMatrixOpPerform hart s
  | .queuedGatherPerform hart index => Sys2Proof.Machine.execQueuedGatherPerform hart index s
  | .sampleRecordWrite hart => Sys2Proof.Machine.execSampleRecordWrite hart s
  | .traceFullStop cluster => Sys2Proof.Machine.execTraceFullStop cluster s
  | .traceDumpComplete cluster => Sys2Proof.Machine.execTraceDumpComplete cluster s
  | .collectiveChunk hart coll peers => Sys2Proof.Machine.execCollectiveChunk hart coll peers s
  | .readyFlitReceive hart coll rank => Sys2Proof.Machine.execReadyFlitReceive hart coll rank s
  | .collectiveComplete hart coll => Sys2Proof.Machine.execCollectiveComplete hart coll s
  | .abortFlitReceive hart coll => Sys2Proof.Machine.execAbortFlitReceive hart coll s
  | .lossFlitReceive device => Sys2Proof.Machine.execLossFlitReceive device s
  | .linkDownTimeout device => Sys2Proof.Machine.execLinkDownTimeout device s
  | .linkTrain port training => Sys2Proof.Machine.execLinkTrain port training s
  | .flitCrcReplay port => Sys2Proof.Machine.execFlitCrcReplay port s
  | .laneFailure port => Sys2Proof.Machine.execLaneFailure port s
  | .channelFailure base size => Sys2Proof.Machine.execChannelFailure base size s
  | .coreFailure die cluster core => Sys2Proof.Machine.execCoreFailure die cluster core s
  | .clusterFailure die cluster => Sys2Proof.Machine.execClusterFailure die cluster s
  | .hostPortTrain port mode => Sys2Proof.Machine.execHostPortTrain port mode s
  | .hostRetrainTimeout port => Sys2Proof.Machine.execHostRetrainTimeout port s
  | .hostAccess port target write data => Sys2Proof.Machine.execHostAccess port target write data s
  | .atsInvalidate port lo hi => Sys2Proof.Machine.execAtsInvalidate port lo hi s
  | .attestationRequest port => Sys2Proof.Machine.execAttestationRequest port s
  | .functionLevelReset port function => Sys2Proof.Machine.execFunctionLevelReset port function s
  | .powerGrantStep draw hottest coolest hotCores => Sys2Proof.Machine.execPowerGrantStep draw hottest coolest hotCores s
  | .securityAlarm sensor => Sys2Proof.Machine.execSecurityAlarm sensor s
  | .alarmRegisterWrite => Sys2Proof.Machine.execAlarmRegisterWrite s
  | .deviceReset firmwareOk flash => Sys2Proof.Machine.execDeviceReset firmwareOk flash s
  | .recoveryImageWrite manifest accepted version => Sys2Proof.Machine.execRecoveryImageWrite manifest accepted version s
  | .scanFreeze => Sys2Proof.Machine.execScanFreeze s
  | .scanThaw => Sys2Proof.Machine.execScanThaw s
  | .scanRead => Sys2Proof.Machine.execScanRead s
  | .scanWrite => Sys2Proof.Machine.execScanWrite s
  | .deviceRegisterWrite offset value => Sys2Proof.Machine.execDeviceRegisterWrite offset value s
  | .accessPerformed hart vector => Sys2Proof.Machine.execAccessPerformed hart vector s
  | .provisioningImage accepted version => Sys2Proof.Machine.execProvisioningImage accepted version s

end Sys2Proof.Machine
end

