-- ==== Sys2Proof/Machine/Fetch.lean ====
section
/-!
DEFINITION. What a step does around a member: which hart moves, time, waits, and placing an instruction where the machine
fetches next (R40, R63, R96, R213, R283, R303).
-/
namespace Sys2Proof.Machine

/-- Whether a hart has something to do (R172, R397, R412, R417): it executes, is to stop for good, or is to be restored. -/
def Hart.awake (h : Hart) : Bool :=
  match h.run with
  | .ready => true
  | .starting => true
  | .retiring => true
  | .halting => true
  | .resuming => true
  | .preempted => true
  | .withdrawn _ => true
  | _ => false

/-- The context under which a hart moves: a withdrawn hart's trap is its issuer's (R392). -/
def Hart.under (h : Hart) : Nat :=
  match h.run with
  | .withdrawn issuer => issuer
  | _ => h.ctx

/-- Whether a hart has not been restored with its crew (R417). -/
def Hart.unrestored (h : Hart) : Bool :=
  match h.run with
  | .preempted => true
  | .frameFault .restore _ => true
  | .frameFault .pad _ => true
  | _ => false

/-- Whether a hart can move (R385, R412, R417, R419): it has something to do, its context and every ancestor run and none is frozen, its
crew is in place and, before it issues, restored whole, and no pre-emption takes it where it stands. -/
def State.runnable (s : State) (h : Hart) : Bool :=
  h.awake &&
  (s.chain h.under).all (fun c => c.state == .running && !s.pkg.frozen.contains c.num) &&
  !(h.run == .ready && h.serves.isNone && s.harts.any fun x => x.crew == h.crew && x.unrestored) &&
  (match s.crew? h.crew with
    | some c => c.resident && !(c.preempting && !(h.run == .retiring || h.run == .halting) && s.takes c h && s.atStop h)
    | none => true)

/-- The state with the hart that moves next in focus (R303): the next in `turn`, else the present one, else the first that can
move. None when no hart can move. -/
def State.pick (s : State) : Option State :=
  match s.turn with
  | t :: rest =>
    let u := { s with turn := rest }.focus t
    if u.runnable u.hart then some u
    else if s.runnable s.hart then some { s with turn := rest }
    else (s.others.find? s.runnable).map fun h => { s with turn := rest }.focus h.id
  | [] =>
    if s.runnable s.hart then some s else (s.others.find? s.runnable).map fun h => s.focus h.id

/-- Compute cycles pass (R63): at least one, and a free number beyond (R453). Launches age by the ticks in which they wait (R409), and a
recording of a crew that is not in place goes on (R279). Links that are down run out (R440), events whose ring is in reach again are filed
(R424), and at a tick boundary the power controller decides (R430). -/
def State.passTime (s : State) : State :=
  let before := s.pkg.cycle
  let s := { s with pkg := { s.pkg with cycle := s.pkg.cycle + 1 + Config.freeCycles s.free }, free := s.free + 1 }
  (({ s with launches := s.launches.map fun l => (s.tally l).grow } : State).traceTime before).loseUnlinked.fileWaiting.tickBoundary before

/-- Whether the hart that moves holds its issue: after WAIT, until TICK differs (R96). -/
def State.heldByWait (s : State) : Bool :=
  match s.hart.waiting with
  | .tick t => s.tick == t
  | _ => false

/-- Another hart that can move takes its turn (R213, R303), in order; the present one goes last. -/
def State.rotate (s : State) : State :=
  match s.others.find? s.runnable with
  | some h => { s with hart := h, others := (s.others.filter fun x => x.id != h.id) ++ [s.hart] }
  | none => s

/-- Between convoys, and where a hart waits: the background work, and the next hart's turn. -/
def State.turnOver (s : State) : State := s.background.rotate

/-- Whether a hart stands where it stood: its member has not completed. -/
def Hart.standsAs (h k : Hart) : Bool :=
  h.id == k.id && h.pc == k.pc && h.elix == k.elix && h.convoy.length == k.convoy.length && h.run == k.run

/-- The word of a member, for its major and minor. -/
def codeOf (i : Instr) : Code := (encode i).getD 0

/-- The vector classes that an issue entry names (R279): memory, arithmetic, reduction, permute. -/
def issueClasses (i : Instr) : Nat :=
  match convoyClass i with
  | .m => 1
  | .a => if (codeOf i).extractLsb' 25 6 = 0x33 then 8 else 2
  | .d => 4
  | _ => 0

/-- The issue of a member `i` of hart `h` recorded (R279). -/
def State.noteIssue (s : State) (h : Hart) (i : Instr) : State := s.traceIssue h (issueClasses i) (h.member + h.convoy.length) h.head

/-- Whether a member is sampled (R284). -/
def sampled (i : Instr) : Bool := convoyClass i == .a || convoyClass i == .d || convoyClass i == .m

/-- The info word of a sample's record (R284). -/
def sampleInfo (h : Hart) (i : Instr) : Word :=
  let w := codeOf i
  Word.ofNat (h.member % 8 + (h.member + h.convoy.length - 1) % 8 * 8 + (w.extractLsb' 25 6).toNat * 64 + (w.extractLsb' 0 3).toNat * 4096 + h.regs.vl * 65536)

/-- What becomes of the sample of hart `h` once its member `i` has been executed (R284): a member that trapped, trimmed or was
stopped part-way leaves no record. -/
def State.noteSample (s : State) (h : Hart) (i : Instr) : State :=
  match h.sample with
  | some x =>
    if x.stage != .armed || !sampled i || s.hart.standsAs h then s
    else
      let whole := s.hart.id == h.id && s.hart.run == .ready && s.hart.regs.supervisor == h.regs.supervisor &&
        decide (s.hart.region.trims.length ≤ h.region.trims.length) && decide (s.hart.convoy.length < h.convoy.length)
      let stage : Sampling := if whole then .done (!s.hart.sure) h.head (sampleInfo h i) (h.groupCounts ((codeOf i).getLsbD 3)) else .lost
      let s := s.mapHarts fun (k : Hart) => if k.id = h.id then { k with sample := some { x with stage := stage } } else k
      match s.hold with
      | true :: rest => { s with hold := rest }
      | _ => if s.hart.id = h.id && !s.hart.inFrame then { s with hold := s.hold.drop 1 }.writeSample else s
  | none => s

/-- Why hart `h` stands still at member `i`, as the trace names it (R279). -/
def stallReason (h : Hart) (i : Instr) : Nat :=
  match i with
  | .barr _ _ _ => 6
  | .barw _ _ _ => 6
  | .bara _ _ _ => 6
  | .fenceEng _ _ => 5
  | .lwait _ _ _ _ => 5
  | .colw _ _ _ _ => 5
  | .sxgo _ _ _ => 4
  | .sxgom _ _ _ => 4
  | i =>
    if convoyClass i == .x then 4
    else if !h.sure then 3
    else if convoyClass i == .m then 2 else 0

/-- Hart `h` stands still at its member: the trace says why (R279), and the turn passes on. -/
def State.standStill (s : State) (h : Hart) (reason : Nat) : State :=
  (s.traceStall h reason (h.member + h.convoy.length) h.head).turnOver

/-- What follows a member `i` that hart `h` executed: the records of the trace and of sampling, and another hart's turn where the convoy
has ended or the hart waits. -/
def State.follow (s : State) (h : Hart) (i : Instr) : State :=
  if s.hart.standsAs h then s.standStill h (stallReason h i)
  else
    let s := (s.noteIssue h i).noteSample h i
    if s.hart.convoy.isEmpty then s.turnOver else s

/-- Whether a trace breakpoint is due where the hart stands (R283): at a convoy head, not part-way through a member that it resumes. -/
def Hart.breaks (h : Hart) : Bool := h.breakDue && h.elix == 0 && !h.m15only

/-- A trace breakpoint taken at a convoy head (R283): cause 0x18, once the trims of the strip are decided; where one is taken first, the
breakpoint stays due. -/
def State.takeBreak (s : State) : State :=
  match s.decideTrims false with
  | .error t => t
  | .ok s => (s.modHart fun h => { h with breakDue := false }).trapAtHead (.own 0x18 0)

/-! ## Before a member -/

/-- Whether a member waits until the exit tests of its strip have resolved (R182, R185). -/
def awaitsTests (i : Instr) : Bool :=
  match i with
  | .vcomp _ _ _ _ _ => true
  | .vexpd _ _ _ _ _ => true
  | .viota _ _ _ _ => true
  | .mfs _ _ n => n == 0x008 || n == 0x009
  | i => convoyClass i == .d

/-- Whether a member is a vector member: of class A, D or M. -/
def isVector (i : Instr) : Bool := convoyClass i == .a || convoyClass i == .d || convoyClass i == .m

/-- RSEED as a vector member issues kept for its resumption (R115). -/
def Hart.keepSeed (h : Hart) : Hart :=
  if h.resumes then h
  else { h with issued := ⟨h.regs.supervisor, h.pc, 0, 0, h.rseed⟩ :: h.issued.filter fun z => z.supervisor != h.regs.supervisor }

/-- Whether a member may execute before an earlier vector load is performed (R177): none that orders, releases or forks, or that lays the
VRF out anew. -/
def passesLate (i : Instr) : Bool :=
  match i with
  | .loop _ _ _ _ => true
  | .loopi _ _ _ _ => true
  | .mts _ _ _ => true
  | .winb _ _ => true
  | .vsetl _ _ _ _ => true
  | .wait _ => true
  | .fenceSv _ => true
  | .ldacq32 _ _ _ => true
  | .ldacq64 _ _ _ => true
  | .watch _ _ => true
  | .waitw _ _ => true
  | i => convoyClass i != .o && convoyClass i != .x

/-- Whether a member names the register of a vector load that is still to be performed: it waits for it. -/
def Hart.namesLate (h : Hart) (i : Instr) : Bool := h.late.any fun l => (vFields i).any fun v => v.toNat == l.reg

/-- What comes before a member has its effect: vector loads that it waits for are performed (R177), the exit tests that it waits for
resolve (R185), and a vector member meets the errors of the registers that it reads (R226). -/
def State.prepare (s : State) (i : Instr) : State :=
  let s := if passesLate i && !s.hart.namesLate i then s else s.performLate
  let s := if awaitsTests i then s.awaitTests else s
  if isVector i then s.eccRegisters.modHart Hart.keepSeed else s

/-- The unit at which a pre-emption stops a member part-way (R138, R174, R301, R338, R356): an element group of 256 bytes, a token, a line, or
an entry; none for a member that it does not stop. -/
def cutUnitOf (h : Hart) (i : Instr) : Option Nat :=
  match i with
  | .grstep _ _ _ _ => some 1
  | .objnew _ _ _ _ => some 1
  | .seqfork _ _ _ _ _ => some 1
  | .vgqpop _ _ _ => some 256
  | i => if isVector i then some (256 / h.width) else none

/-- The member of a hart made to stop part-way (R138), where the device's choice (`State.cuts`) says so: its crew is being pre-empted, or it
begins its convoy, where a pre-emption that comes while it executes would find it (log 19). Inside an exit region members are not stopped
(R205). -/
def State.cutFor (s : State) (i : Instr) : State :=
  match s.cuts, cutUnitOf s.hart i with
  | n :: rest, some unit =>
    if (((s.crew? s.hart.crew).map (·.preempting)).getD false || s.hart.member == 0) && !s.hart.region.isOpen then
      { s with cuts := rest }.modHart fun h => { h with cut := some ((h.elix / unit + 1 + n) * unit) }
    else s
  | _, _ => s

/-- Whether hart `h` has gone on without a trap: it is the same, it executes, and its mode is the same. -/
def State.wentOn (s : State) (h : Hart) : Bool := s.hart.id == h.id && s.hart.run == .ready && s.hart.regs.supervisor == h.regs.supervisor

/-- A member that ends its convoy and does nothing: the NOP 0xBC000000 (R94). -/
def nopWord : Code := 0xBC000000

/-- The bytes placed for a table word: the word, and behind a word with E = 0 a NOP that ends the convoy (R40). -/
def placedBytes (nbits w : Nat) : List Byte :=
  let x : Code := BitVec.ofNat 32 (w % 2 ^ nbits)
  let bytes (c : Code) : List Byte := natToBytes c.toNat 4
  if x.e then bytes x else bytes x ++ bytes nopWord

/-- Where withFetchWord maps the page of the PC when it is not mapped: a frame of HBM. -/
def loadFrame : Nat := 0x400000

/-- A device-native mapping of the page of `va` in the crown context's tables onto `loadFrame`, readable, writable and
executable, RAW and untracked, with its frame assigned (R369, R370, R382). -/
def mapPage (m : List Host.Cell) (va : Nat) : List Host.Cell :=
  let put (m : List Host.Cell) (a v : Nat) := Memory.writeList m a (natToBytes v 8)
  let t1 := Config.crownRoot
  let t2 := Config.crownRoot + 0x10000
  let t3 := Config.crownRoot + 0x20000
  let m := put m (t1 + 8 * (va / 2 ^ 42 % 8192)) (t2 + 1)
  let m := put m (t2 + 8 * (va / 2 ^ 29 % 8192)) (t3 + 1)
  let m := put m (t3 + 8 * (va / 2 ^ 16 % 8192)) (loadFrame + 0xF)
  Memory.write m (Config.frameTableBase + loadFrame / 65536) 0

/-- The hart ready at a convoy boundary, in the crown context if its PC does not fetch where it stands. -/
def State.readyToFetch (s : State) : State :=
  let s := { s with events := [], turn := [], hart := { s.hart with
    convoy := [], member := 0, elix := 0, run := .ready, waiting := .none, breakDue := false, m15only := false, cut := none } }
  match s.reach s.hart.pc 4 .fetch with
  | (_, .ok _) => if s.runnable s.hart then s else { s with hart := { s.hart with ctx := 1, crew := 0 } }
  | _ =>
    let pc := s.hart.pc &&& 0x7FFFFFFFFFFFFC#64
    let pc := if (s.hart.padOffset pc).isSome || pc.toNat % 65536 > 65528 then BitVec.ofNat 64 Config.firmwareEntry else pc
    { s with
      mem := mapPage s.mem pc.toNat
      ctxs := Ctx.crown s.pkg.manifest :: s.ctxs.filter (fun c => c.num != 1)
      crews := s.crews.map fun c => if c.id = 0 then { c with resident := true, preempting := false } else c
      pkg := { s.pkg with frozen := [] }
      hart := { s.hart with ctx := 1, crew := 0, pc := pc } }

end Sys2Proof.Machine
end

