-- ==== Sys2Proof/Machine/Step.lean ====
section
/-!
DEFINITION. One step of the machine: what engines and the outside world do next, or one member of one hart.
-/
namespace Sys2Proof.Machine

/-- The member `i` at which the hart stands: it waits for a token, with the engines going on, or it is executed. One that a pre-emption stops
part-way is executed up to there, unless it traps on the way: then it is executed whole, for the trap names all that it misses (R168). -/
noncomputable def runMember (i : Instr) (s : State) : Host.Outcome State Fault Refusal :=
  if s.tokenStall i then .next (s.engineStep.standStill s.hart 5)
  else
    let s := s.prepare i
    let whole := match exec i s with
      | .next t => .next (t.follow s.hart i)
      | .fault f => .fault f
      | .refused r => .refused r
    let u := s.cutFor i
    if u.hart.cut.isNone then whole
    else match exec i u with
      | .next t => if t.wentOn s.hart then .next (t.follow s.hart i) else whole
      | .fault f => .fault f
      | .refused r => .refused r

/-- The hart that executes moves: it waits, forms its convoy (R40, R46), or executes the member it stands at (R44). -/
noncomputable def stepReady (s : State) : Host.Outcome State Fault Refusal :=
  if s.heldByWait then .next s.engineStep.turnOver
  else match s.hart.convoy with
    | i :: _ => runMember i s
    | [] =>
      if s.hart.breaks then .next s.takeBreak
      else match s.formConvoy with
        | (s, false) => .next s
        | (s, true) =>
          match s.hart.convoy with
          | i :: _ => runMember i s
          | [] => .next s

/-- The hart in focus moves: it executes, stops for good (R65, R98), is marked resident where its start has failed (R416), is restored from its
frame (R172, R397, R417), or raises the revoked trap and is discarded (R392). While an access that it has issued waits for a host link or for
an access through an entry, only its engines go on (R383, R424). -/
noncomputable def stepHart (s : State) : Host.Outcome State Fault Refusal :=
  let s := s.dropLost
  if s.storesStuck then .next s.engineStep.turnOver
  else match s.hart.run with
  | .starting => .next s.startFrame
  | .retiring => .next s.finishStop.turnOver
  | .halting => .next s.finishStop.turnOver
  | .resuming => .next (s.resumeStopped s.hart)
  | .preempted => .next s.restoreHart
  | .withdrawn issuer => .next (s.raiseRevoked issuer)
  | _ => stepReady s

/-- No hart can move: what is due in the background goes on, or time passes; with every hart gone and nothing due, the machine is idle. -/
noncomputable def stepIdle (s : State) : Host.Outcome State Fault Refusal :=
  match s.dueWork with
  | some t => .next t
  | none => if s.harts.all Hart.gone && s.launches.isEmpty then .fault .idle else .next s

/-- One step: the first event that is due, else a member of the hart that moves next. `State.events` holds events of the table: an
encoded instruction in it does nothing. -/
noncomputable def step (s : State) : Host.Outcome State Fault Refusal :=
  match s.events with
  | i :: rest =>
    let s := { s with events := rest }.passTime
    if (encode i).isSome then .next s else exec i s
  | [] =>
    match s.pick with
    | none => stepIdle s.passTime
    | some s => stepHart s.passTime

/-- A table word placed where the next step fetches its instruction; see log 4. -/
def State.withFetchWord (s : State) (nbits w : Nat) : State :=
  let s := s.readyToFetch
  match s.reach s.hart.pc 4 .fetch with
  | (_, .ok r) => { s with old := s.old.filter fun o => !o.touches r.place 8 }.poke r.place (placedBytes nbits w) false 0
  | _ => s

end Sys2Proof.Machine
end

