-- ==== Sys2Proof/Safety.lean ====
section
/-!
DEFINITION. What claims call a safe run.
-/
namespace Sys2Proof

/-- A step that goes on: no fault and no refusal. -/
def goesOn (o : Host.Outcome Machine.State Machine.Fault Machine.Refusal) : Prop := ∃ t, o = .next t

end Sys2Proof
end

