-- ==== Sys2Proof/Certificates/Slice0/Obligations.lean ====
section
/-!
DEFINITION. Statements about the machine for the provers. `Obligations.<Name>` are the statements; the names under
`Sys2Proof.Claims` are what they are said with: for each group of instructions a table of what the spec gives each of them.
-/
namespace Sys2Proof.Claims
open Sys2Proof.Machine

/-- No trim or held trap of the hart is undecided, no exit test is open and every strip that ended has resolved (R184 to R193): a member
waits for nothing older. -/
abbrev Settled (s : State) : Prop := s.hart.region.trims = [] ∧ s.hart.region.strips = [] ∧ s.hart.region.pending = false

/-- Settled, and no vector load of the hart is performed late (R177): a trap is delivered from the state as it stands. -/
abbrev Quiet (s : State) : Prop := Settled s ∧ s.hart.late = []

/-- What every member that writes the hart's registers alone leaves: everything but the hart, and of the hart everything but its
registers and its position. `r` are the registers it leaves, before end processing. -/
def Wrote (s : State) (e : Bool) (r : Regs) : Host.Outcome State Fault Refusal := .next ((s.modRegs fun _ => r).retire e)

/-- Register arithmetic by R78 and R79: convoy-end bit, destination and result. -/
def arithmetic (s : State) : Instr → Option (Bool × GReg × Word)
  | .add e d a b => some (e, d, s.g a + s.g b)
  | .sub e d a b => some (e, d, s.g a - s.g b)
  | .and e d a b => some (e, d, s.g a &&& s.g b)
  | .or e d a b => some (e, d, s.g a ||| s.g b)
  | .xor e d a b => some (e, d, s.g a ^^^ s.g b)
  | .andn e d a b => some (e, d, s.g a &&& ~~~(s.g b))
  | .orn e d a b => some (e, d, s.g a ||| ~~~(s.g b))
  | .sll e d a b => some (e, d, s.g a <<< ((s.g b).toNat % 64))
  | .srl e d a b => some (e, d, s.g a >>> ((s.g b).toNat % 64))
  | .sra e d a b => some (e, d, BitVec.ofInt 64 ((s.g a).toInt / 2 ^ ((s.g b).toNat % 64)))
  | .rol e d a b => some (e, d, (s.g a).rotateLeft ((s.g b).toNat % 64))
  | .ror e d a b => some (e, d, (s.g a).rotateRight ((s.g b).toNat % 64))
  | .slt e d a b => some (e, d, if (s.g a).toInt < (s.g b).toInt then 1 else 0)
  | .sltn e d a b => some (e, d, if (s.g a).toNat < (s.g b).toNat then 1 else 0)
  | .min e d a b => some (e, d, BitVec.ofInt 64 (min (s.g a).toInt (s.g b).toInt))
  | .max e d a b => some (e, d, BitVec.ofInt 64 (max (s.g a).toInt (s.g b).toInt))
  | .minn e d a b => some (e, d, BitVec.ofNat 64 (min (s.g a).toNat (s.g b).toNat))
  | .maxn e d a b => some (e, d, BitVec.ofNat 64 (max (s.g a).toNat (s.g b).toNat))
  | .mul e d a b => some (e, d, BitVec.ofNat 64 ((s.g a).toNat * (s.g b).toNat))
  | .mulh e d a b => some (e, d, BitVec.ofInt 64 ((s.g a).toInt * (s.g b).toInt / 2 ^ 64))
  | .mulhn e d a b => some (e, d, BitVec.ofNat 64 ((s.g a).toNat * (s.g b).toNat / 2 ^ 64))
  | .div e d a b => some (e, d, if s.g b = 0 then 0xFFFFFFFFFFFFFFFF else (s.g a).sdiv (s.g b))
  | .divn e d a b => some (e, d, if s.g b = 0 then 0xFFFFFFFFFFFFFFFF else s.g a / s.g b)
  | .rem e d a b => some (e, d, if s.g b = 0 then s.g a else (s.g a).srem (s.g b))
  | .remn e d a b => some (e, d, if s.g b = 0 then s.g a else s.g a % s.g b)
  | .sext8 e d a => some (e, d, ((s.g a).extractLsb' 0 8).signExtend 64)
  | .sext16 e d a => some (e, d, ((s.g a).extractLsb' 0 16).signExtend 64)
  | .sext32 e d a => some (e, d, ((s.g a).extractLsb' 0 32).signExtend 64)
  | .zext8 e d a => some (e, d, s.g a &&& 0xFF)
  | .zext16 e d a => some (e, d, s.g a &&& 0xFFFF)
  | .zext32 e d a => some (e, d, s.g a &&& 0xFFFFFFFF)
  | _ => none

/-- Immediate and constant forms by R81 to R84. -/
def constant (s : State) : Instr → Option (Bool × GReg × Word)
  | .addi e d a i => some (e, d, s.g a + i.signExtend 64)
  | .andi e d a i => some (e, d, s.g a &&& i.signExtend 64)
  | .ori e d a i => some (e, d, s.g a ||| i.signExtend 64)
  | .xori e d a i => some (e, d, s.g a ^^^ i.signExtend 64)
  | .slti e d a i => some (e, d, if (s.g a).toInt < i.toInt then 1 else 0)
  | .sltni e d a i => some (e, d, if (s.g a).toNat < (i.signExtend 64).toNat then 1 else 0)
  | .slli e d a k => some (e, d, s.g a <<< k.toNat)
  | .srli e d a k => some (e, d, s.g a >>> k.toNat)
  | .srai e d a k => some (e, d, BitVec.ofInt 64 ((s.g a).toInt / 2 ^ k.toNat))
  | .roli e d a k => some (e, d, (s.g a).rotateLeft k.toNat)
  | .lim e d i => some (e, d, BitVec.ofInt 64 i.toInt)
  | .lihi e d i => some (e, d, BitVec.ofNat 64 ((s.g d).toNat * 2 ^ 18 + i.toNat))
  | .addpc e d i => some (e, d, s.hart.pc + BitVec.ofInt 64 (i.toInt * 4))
  | _ => none

end Sys2Proof.Claims

open Sys2Proof Sys2Proof.Machine Sys2Proof.Claims

/-- R54: a scalar register reads as last written, g0 reads zero and discards a write, g1 to g63 are P1 to P63 and g64 to g127 are
P((WB + r) mod 512), and no other physical register changes. -/
def Obligations.ScalarRegistersReadAsWritten : Prop :=
  ∀ (s : State) (i j : GReg) (v : Word),
    (s.setG i v).g 0 = 0 ∧ (s.setG 0 v) = s ∧
    (i ≠ 0 → (s.setG i v).g i = v) ∧
    (i ≠ 0 → Sparse.get zeroWord (s.setG i v).hart.regs.gpr (if i.toNat < 64 then i.toNat else (s.hart.regs.wb.toNat + i.toNat) % 512) = v) ∧
    (∀ k, k ≠ (if i.toNat < 64 then i.toNat else (s.hart.regs.wb.toNat + i.toNat) % 512) →
      Sparse.get zeroWord (s.setG i v).hart.regs.gpr k = Sparse.get zeroWord s.hart.regs.gpr k) ∧
    (i.toNat < 64 → j.toNat < 64 → i ≠ j → (s.setG i v).g j = s.g j)

/-- R78, R79, R81 to R84: what register arithmetic, the immediate forms and the constant forms compute; the member completes and writes
nothing else. DIV, DIVN, REM and REMN follow R79 for every input. -/
def Obligations.ArithmeticResults : Prop :=
  ∀ (i : Instr) (s : State) (e : Bool) (d : GReg) (v : Word), arithmetic s i = some (e, d, v) ∨ constant s i = some (e, d, v) →
    exec i s = Wrote s e (s.hart.regs.setG d v)

/-- R78: CLZ, CTZ, POPC and BSWAP by the bits of their operand. -/
def Obligations.BitCountResults : Prop :=
  ∀ (e : Bool) (d a : GReg) (s : State),
    (∃ n, n ≤ 64 ∧ (∀ k, k < n → (s.g a).getLsbD (63 - k) = false) ∧ (n < 64 → (s.g a).getLsbD (63 - n) = true) ∧
      exec (.clz e d a) s = Wrote s e (s.hart.regs.setG d (BitVec.ofNat 64 n))) ∧
    (∃ n, n ≤ 64 ∧ (∀ k, k < n → (s.g a).getLsbD k = false) ∧ (n < 64 → (s.g a).getLsbD n = true) ∧
      exec (.ctz e d a) s = Wrote s e (s.hart.regs.setG d (BitVec.ofNat 64 n))) ∧
    exec (.popc e d a) s =
      Wrote s e (s.hart.regs.setG d (BitVec.ofNat 64 (Finset.univ.filter fun k : Fin 64 => (s.g a).getLsbD k.val = true).card)) ∧
    (∃ v : Word, (∀ k, k < 8 → v.extractLsb' (8 * k) 8 = (s.g a).extractLsb' (8 * (7 - k)) 8) ∧
      exec (.bswap e d a) s = Wrote s e (s.hart.regs.setG d v))

/-- R80: ADDV, SUBV and MULV write the exact result where it fits; where it does not and nothing older is undecided or late, they raise
the arithmetic-overflow trap with TVAL 0 and no register written. -/
def Obligations.CheckedArithmetic : Prop :=
  ∀ (e : Bool) (d a b : GReg) (s : State) (i : Instr) (x : Int),
    (i = .addv e d a b ∧ x = (s.g a).toInt + (s.g b).toInt ∨ i = .subv e d a b ∧ x = (s.g a).toInt - (s.g b).toInt ∨
      i = .mulv e d a b ∧ x = (s.g a).toInt * (s.g b).toInt) →
    (-(2 ^ 63) ≤ x ∧ x < 2 ^ 63 → ∃ v : Word, v.toInt = x ∧ exec i s = Wrote s e (s.hart.regs.setG d v)) ∧
    (¬ (-(2 ^ 63) ≤ x ∧ x < 2 ^ 63) → Quiet s → exec i s = .next (s.deliver (.own 0x0D 0)))

namespace Sys2Proof.Claims
open Sys2Proof.Machine

/-- Access size in bytes by the width code of R85; code 7 has none. -/
def size (w : BitVec 3) : Option Nat := [1, 1, 2, 2, 4, 4, 8][w.toNat]?

/-- A loaded number in a register by the width code of R85: signed codes by sign, unsigned codes by zero extension. -/
def extended (w : BitVec 3) (x : Nat) : Word :=
  match w.toNat with
  | 0 => (BitVec.ofNat 8 x).signExtend 64
  | 2 => (BitVec.ofNat 16 x).signExtend 64
  | 4 => (BitVec.ofNat 32 x).signExtend 64
  | _ => BitVec.ofNat 64 x

/-- The access of `n` bytes at `ea` passes the checks of R87, lands as `r` says, and leaves the state `u` (accessed bits set, ECC
consulted). -/
def Lands (s : State) (use : Use) (ea : Word) (n : Nat) (u : State) (r : Reached) : Prop :=
  ∃ t, s.access ea n use = (t, .ok r) ∧ u = t.eccAccess r.place n

/-- A scalar load of `n` bytes at `ea` that completes: the state after it and the little-endian number read, as memory holds it behind the
hart's own stores, or as an overwritten value that it may still read has it (logs 8, 9). -/
def Loads (s : State) (ea : Word) (n : Nat) (u : State) (x : Nat) : Prop :=
  ea.toNat % 256 + n ≤ 256 ∧ ∃ t r, Lands s .read ea n t r ∧ t.viewPoison ownScalar r.place n = false ∧
    u = (t.readList ownScalar r.place n).1 ∧ x = bytesToNat (t.readList ownScalar r.place n).2

/-- An acquiring load (R310, R311): the number is what stands there now, and the hart reads no older value of any place after it. -/
def Acquires (s : State) (ea : Word) (n : Nat) (u : State) (x : Nat) : Prop :=
  ea.toNat % 256 + n ≤ 256 ∧ ∃ t r, Lands s .read ea n t r ∧ t.viewPoison ownScalar r.place n = false ∧
    u = t.acquired r.place ∧ x = bytesToNat (t.viewList ownScalar r.place n)

/-- The pending store of a scalar store of `n` bytes. -/
def scalarPending (u : State) (r : Reached) (n : Nat) (v : Word) : Pending :=
  { place := r.place, data := natToBytes v.toNat n, tag := false, vector := false, ordered := false, owner := u.hart.ctx, dirty := r.dirty
    via := r.via, released := false }

/-- Nothing is held back and ECC finds nothing: the model's own lists are empty, and no earlier store of the hart is unperformed. -/
def AtOnce (s : State) : Prop := s.ecc = [] ∧ s.hold = [] ∧ s.hart.stores = []

/-- The branch conditions of R90: convoy-end bit, offset and whether it is taken. -/
def condition (s : State) : Instr → Option (Bool × BitVec 11 × Bool)
  | .beq e a b o => some (e, o, decide (s.g a = s.g b))
  | .bne e a b o => some (e, o, decide (s.g a ≠ s.g b))
  | .blt e a b o => some (e, o, decide ((s.g a).toInt < (s.g b).toInt))
  | .bge e a b o => some (e, o, decide ((s.g b).toInt ≤ (s.g a).toInt))
  | .bltn e a b o => some (e, o, decide ((s.g a).toNat < (s.g b).toNat))
  | .bgen e a b o => some (e, o, decide ((s.g b).toNat ≤ (s.g a).toNat))
  | _ => none

/-- The hart stands at `t` with registers `r` before its first convoy there (R40, R93); nothing else of the machine changes. -/
def Stands (s : State) (t : Word) (r : Regs) : Host.Outcome State Fault Refusal :=
  .next { s with hart := { s.hart with regs := r, pc := t, elix := 0, convoy := [], member := 0, m15only := false, waiting := .none } }

/-- A transfer from the hart's PC to `t`: it ends the loop levels that it leaves (R106) and a new convoy starts at `t` (R93). -/
def Transfers (s : State) (t : Word) : Host.Outcome State Fault Refusal := Stands s t (s.hart.regs.leave s.hart.pc t)

/-- A word offset from the hart's PC (R35). -/
def away (s : State) (off : Int) : Word := s.hart.pc + BitVec.ofInt 64 (off * 4)

/-- The values of R56 that MFS reads at a convoy boundary, by number. -/
def specialValue (s : State) : Nat → Option Word
  | 0x000 => some s.hart.pc
  | 0x001 => some s.hart.regs.lr
  | 0x002 => some s.hart.regs.wb
  | 0x003 => some (s.hart.regs.vt.setWidth 64)
  | 0x004 => some (BitVec.ofNat 64 s.hart.regs.vl)
  | 0x005 => some (BitVec.ofNat 64 s.hart.vlmax)
  | 0x006 => some (BitVec.ofNat 64 s.hart.regs.vnreg)
  | 0x007 => some 0
  | 0x008 => some s.hart.regs.bx
  | 0x009 => some s.hart.regs.fx
  | 0x00A => some s.hart.xrd
  | 0x00B => some s.hart.grd
  | 0x010 => some s.hart.regs.ls0
  | 0x011 => some s.hart.regs.le0
  | 0x012 => some s.hart.regs.lc0
  | 0x013 => some s.hart.regs.ls1
  | 0x014 => some s.hart.regs.le1
  | 0x015 => some s.hart.regs.lc1
  | 0x020 => some s.hart.tcause
  | 0x021 => some s.hart.tpc
  | 0x022 => some s.hart.telix
  | 0x023 => some s.hart.tval
  | 0x024 => some s.hart.tvec
  | 0x025 => some s.hart.regs.tstat
  | 0x026 => some s.hart.tscr
  | 0x030 => some s.hart.hartcrd
  | 0x031 => some (BitVec.ofNat 64 (((s.ctx? s.hart.ctx).map (·.depth)).getD 0 * 65536 + s.hart.ctx))
  | 0x032 => some (BitVec.ofNat 64 (s.pkg.cycle / 256))
  | 0x033 => some (BitVec.ofNat 64 s.pkg.cycle)
  | 0x034 => some s.hart.rseed
  | 0x035 => some s.hart.spbase
  | 0x036 => some s.hart.headSphw
  | 0x037 => some (BitVec.ofNat 64 s.grantCap)
  | 0x038 => some s.hart.headAstat
  | 0x040 => some s.hart.splane0
  | 0x041 => some s.hart.splane1
  | 0x042 => some s.hart.splane2
  | 0x043 => some s.hart.splane3
  | _ => none

/-- The numbers that user mode may read, and may write (R56). -/
def userReadable (n : Nat) : Bool := n == 0x025 || !(decide (0x020 ≤ n) && decide (n ≤ 0x026))
def userWritable (n : Nat) : Bool :=
  [0x001, 0x002, 0x003, 0x004, 0x00A, 0x00B, 0x010, 0x011, 0x012, 0x013, 0x014, 0x015, 0x034, 0x036, 0x038, 0x040, 0x041, 0x042, 0x043].contains n

/-- The range of a special register's value (R55 to R57, R59, R62, R107); `top` is the size of the team's scratchpad. -/
def inRange (top n v : Nat) : Bool :=
  if n = 0x002 then v % 16 == 0 && decide (v ≤ 384)
  else if n = 0x003 then decide (v < 128) && decide (v % 8 ≤ 4) && decide (v / 8 % 4 ≤ 1) && (decide (v / 32 ≤ 1) || v / 8 % 4 == 0)
  else if n = 0x00A then decide (v ≤ 3)
  else if n = 0x00B then decide (1 ≤ v) && decide (v ≤ 16)
  else if n = 0x010 ∨ n = 0x011 ∨ n = 0x013 ∨ n = 0x014 ∨ n = 0x024 then v % 4 == 0
  else if n = 0x020 ∨ n = 0x025 then decide (v < 256)
  else if n = 0x036 then v % 256 == 0 && decide (v ≤ top)
  else if n = 0x038 then decide (v < 8)
  else if n = 0x040 ∨ n = 0x041 ∨ n = 0x042 ∨ n = 0x043 then decide (v < 2 ^ 55)
  else true

/-- The size of the scratchpad of the hart's team. -/
def padSize (s : State) : Nat := ((s.slotTeam? s.hart.crew s.hart.slot).map (·.size)).getD 0

/-- Which special registers a write to number `n` changes (R56, R59, R107): itself; VT also VL, VLMAX and VGRANTCAP; LCk in user mode
also TSTAT. -/
def changes (user : Bool) (n m : Nat) : Bool :=
  m == n || (n == 0x003 && (m == 0x004 || m == 0x005 || m == 0x037)) || (user && (n == 0x012 || n == 0x015) && m == 0x025)

/-- The privileged trap of R75: TVAL holds the word and the member's index. -/
def privilegedTrap (s : State) (i : Instr) : Trap :=
  { cause := 0x05, tval := BitVec.ofNat 64 (((encode i).getD 0).toNat + s.hart.member % 8 * 2 ^ 32) }

/-- A hart in user mode whose own context enables a cause: it traps to its own handler (R71). -/
def OwnHandler (s : State) (cause : BitVec 8) : Prop :=
  Quiet s ∧ s.hart.regs.tstat.getLsbD 0 = false ∧ ∃ c, s.ctx? s.hart.ctx = some c ∧ c.enable.getLsbD cause.toNat = true

/-- What R70 leaves of TSTAT. -/
def entered (old new : Word) (rfm fr : Bool) : Prop :=
  new.getLsbD 0 = true ∧ new.getLsbD 1 = old.getLsbD 0 ∧ new.getLsbD 2 = false ∧ new.getLsbD 3 = false ∧
  new.getLsbD 4 = old.getLsbD 2 ∧ new.getLsbD 5 = old.getLsbD 3 ∧ new.getLsbD 6 = rfm ∧ new.getLsbD 7 = fr ∧
  ∀ k, 8 ≤ k → new.getLsbD k = old.getLsbD k

/-- What R72 leaves of TSTAT. -/
def returned (old new : Word) : Prop :=
  new.getLsbD 0 = old.getLsbD 1 ∧ new.getLsbD 1 = old.getLsbD 1 ∧ new.getLsbD 2 = old.getLsbD 4 ∧ new.getLsbD 3 = old.getLsbD 5 ∧
  new.getLsbD 4 = old.getLsbD 4 ∧ new.getLsbD 5 = old.getLsbD 5 ∧ new.getLsbD 6 = false ∧ new.getLsbD 7 = false ∧
  ∀ k, 8 ≤ k → new.getLsbD k = old.getLsbD k

end Sys2Proof.Claims

/-- R85, R86: LD and LDX load the little-endian number at their address, extended by the width code: what the hart's own stores and
memory hold where no other hart's store has overwritten it of late (logs 8, 9). -/
def Obligations.ScalarLoadResults : Prop :=
  ∀ (e : Bool) (d a b : GReg) (w : BitVec 3) (o : BitVec 8) (s u : State) (n x : Nat), size w = some n →
    (Loads s (s.g a + BitVec.ofInt 64 (o.toInt * n)) n u x → exec (.ld e d a w o) s = Wrote u e (u.hart.regs.setG d (extended w x))) ∧
    (Loads s (s.g a + s.g b) n u x → exec (.ldx e d a b w) s = Wrote u e (u.hart.regs.setG d (extended w x))) ∧
    (∀ (ea : Word) (t : State) (r : Reached), ea.toNat % 256 + n ≤ 256 → Lands s .read ea n t r → t.viewPoison ownScalar r.place n = false →
      t.stale r.place n = [] → (unitsOf r.place n = [(0, n)] ∨ ∀ k, k < n → t.objOf (r.place.add k) = none) →
      Loads s ea n (t.renewed r.place) (bytesToNat (t.viewList ownScalar r.place n)))

/-- R85, R86, R88: ST and STX store the low bytes of g[d] at their address, with tag 0. -/
def Obligations.ScalarStoreResults : Prop :=
  ∀ (e : Bool) (d a b : GReg) (w : BitVec 3) (o : BitVec 8) (s u : State) (n : Nat) (r : Reached) (ea : Word),
    size w = some n → Settled s → ea.toNat % 256 + n ≤ 256 → Lands s .write ea n u r →
    (ea = s.g a + BitVec.ofInt 64 (o.toInt * n) → exec (.st e d a w o) s = .next ((u.issueStore (scalarPending u r n (s.g d))).retire e)) ∧
    (ea = s.g a + s.g b → exec (.stx e d a b w) s = .next ((u.issueStore (scalarPending u r n (s.g d))).retire e))

/-- R87: a scalar access that crosses a line raises the alignment trap before anything else, then one whose translation fails raises
that trap; TVAL is the address, no register is written and no byte is stored. -/
def Obligations.ScalarAccessTraps : Prop :=
  ∀ (e : Bool) (d a b : GReg) (w : BitVec 3) (o : BitVec 8) (s : State) (n : Nat) (ea : Word) (i : Instr), size w = some n → Quiet s →
    (ea = s.g a + BitVec.ofInt 64 (o.toInt * n) ∧ (i = .ld e d a w o ∨ i = .st e d a w o) ∨
      ea = s.g a + s.g b ∧ (i = .ldx e d a b w ∨ i = .stx e d a b w)) →
    (ea.toNat % 256 + n > 256 → exec i s = .next (s.deliver (.own 0x06 ea))) ∧
    (∀ f, ea.toNat % 256 + n ≤ 256 → s.hart.padOffset ea = none → s.lookup s.hart.ctx ea.toNat = .error f →
      ∃ t : Trap, t.cause = f.cause ∧ t.tval = ea ∧ t.stage = f.stage ∧ exec i s = .next (s.deliver t))

/-- R306, R328, R314: a store performed at once to plain memory changes its own bytes and the dirty bits of its translation and no other
byte, clears the tags of the words that it or a dirty bit touches, and leaves every other word's tag. Performed at once means that the
model's own list holds nothing back (log 8), no other store in flight was translated through an entry that it writes (R383), and no lost
host link lies under it (R424). -/
def Obligations.StoreChangesItsBytesOnly : Prop :=
  ∀ (s : State) (q : Pending) (pa : Nat), AtOnce s → q.place = .phys pa → inScan pa = false → s.linkLost q.place = false →
    (∀ h ∈ s.others, ∀ x ∈ h.stores, usesEntry x.via q.place q.data.length = false) →
    (∀ k (h : k < q.data.length), Memory.read (s.issueStore q).mem (pa + k) = q.data[k]) ∧
    (∀ x, (x < pa ∨ pa + q.data.length ≤ x) → (∀ b ∈ q.dirty, x ≠ b.1) → Memory.read (s.issueStore q).mem x = Memory.read s.mem x) ∧
    (∀ k, k < q.data.length → (s.issueStore q).tagAt (.phys (pa + k)) = q.tag) ∧
    (∀ w, (w < pa / 8 ∨ pa + q.data.length ≤ 8 * w) → (∀ b ∈ q.dirty, b.1 / 8 ≠ w) →
      Sparse.get clearBit (s.issueStore q).tags w = Sparse.get clearBit s.tags w) ∧
    (∀ b ∈ q.dirty, (b.1 / 8 < pa / 8 ∨ pa + q.data.length ≤ b.1 / 8 * 8) → (s.issueStore q).tagAt (.phys b.1) = false) ∧
    (s.issueStore q).hart.regs = s.hart.regs ∧ (s.issueStore q).pkg = s.pkg ∧
    (((s.objOf q.place).all fun o => o.scope == 0) = true → (s.issueStore q).teams = s.teams)

/-- R89: whether or not a store is held back, the hart's own loads see its bytes. When the store is performed is left to the model's own
list (log 8); the hart executes nothing while one of its stores waits for a host link or an entry in use (R383, R424). -/
def Obligations.StoreSeenByOwnLoads : Prop :=
  ∀ (s : State) (p : Place) (data : List Byte) (dirty : List (Nat × Nat)) (tag : Bool) (owner k : Nat) (via : List Nat) (h : k < data.length),
    (match p with
      | .phys a => inScan a = false ∧ inScan (a + k) = false
      | .pad t _ => (s.team? t).isSome = true) →
    s.linkLost p = false → (∀ q ∈ s.hart.stores, s.stuck q = false) →
    (∀ x ∈ s.harts, ∀ q ∈ x.stores, ∀ a, q.place = .phys a → inScan a = false) →
    (s.issueStore ⟨p, data, tag, false, false, owner, dirty, via, false⟩).view ownScalar (p.add k) = data[k]

/-- R90, R93, R105, R106: a branch whose condition holds transfers to its target; another completes and the next convoy follows it. -/
def Obligations.BranchResults : Prop :=
  ∀ (i : Instr) (s : State) (e : Bool) (o : BitVec 11) (c : Bool), condition s i = some (e, o, c) →
    exec i s = if c then Transfers s (away s o.toInt) else .next (s.retire e)

/-- R65, R91, R92, R104: JMP, CALL, JR, CALLR and RET; the calls write LR with the address after them, read their target first, end no loop
level, and trap before effect where they stand at the end of an active one; a transfer to 0 stops the hart: it is to retire. -/
def Obligations.JumpResults : Prop :=
  ∀ (e : Bool) (a : GReg) (o : BitVec 25) (s : State),
    let linked (t : Word) : Host.Outcome State Fault Refusal := Stands s t { s.hart.regs with lr := s.hart.pc + 4 }
    let stopped (t : State) : Host.Outcome State Fault Refusal := .next (t.modHart fun h => { h with run := .retiring, convoy := [], waiting := .none })
    exec (.jmp e o) s = Transfers s (away s o.toInt) ∧
    (s.g a ≠ 0 → exec (.jr e a) s = Transfers s (s.g a)) ∧
    (s.hart.regs.lr ≠ 0 → exec (.ret e) s = Transfers s s.hart.regs.lr) ∧
    (s.hart.regs.isLoopEnd s.hart.pc = false → exec (.call e o) s = linked (away s o.toInt)) ∧
    (s.hart.regs.isLoopEnd s.hart.pc = false → s.g a ≠ 0 → exec (.callr e a) s = linked (s.g a)) ∧
    (s.hart.regs.isLoopEnd s.hart.pc = true → Quiet s →
      exec (.call e o) s = .next (s.deliver (.own 0x1B 0)) ∧ exec (.callr e a) s = .next (s.deliver (.own 0x1B 0))) ∧
    (Settled s → s.g a = 0 → exec (.jr e a) s = stopped s) ∧
    (Settled s → s.hart.regs.lr = 0 → exec (.ret e) s = stopped s) ∧
    (Settled s → s.g a = 0 → s.hart.regs.isLoopEnd s.hart.pc = false →
      exec (.callr e a) s = stopped (s.modRegs fun r => { r with lr := s.hart.pc + 4 }))

/-- R106: a transfer ends exactly the active levels whose body holds its own address and not its target: the active bit and the count
become 0; LS, LE and everything else stay. -/
def Obligations.TransferEndsLevels : Prop :=
  ∀ (r : Regs) (a t : Word) (k : Level),
    let ends := r.la k && decide (r.ls k ≤ a) && decide (a ≤ r.le k) && !(decide (r.ls k ≤ t) && decide (t ≤ r.le k))
    (r.leave a t).la k = (r.la k && !ends) ∧ (r.leave a t).lc k = (if ends then 0 else r.lc k) ∧
    ∃ c0 c1 u, r.leave a t = { r with lc0 := c0, lc1 := c1, tstat := u } ∧ ∀ b, b ≠ 2 → b ≠ 3 → u.getLsbD b = r.tstat.getLsbD b

/-- R103, R104: LOOP and LOOPI open a level, or skip the body on a count of 0, or raise the loop-nest trap before effect. -/
def Obligations.LoopResults : Prop :=
  ∀ (e l : Bool) (a : GReg) (o : BitVec 11) (c o' : BitVec 12) (s : State) (i : Instr) (count : Word) (n : Nat),
    (i = .loop e l a o ∧ count = s.g a ∧ n = o.toNat ∨ i = .loopi e l c o' ∧ count = c.setWidth 64 ∧ n = o'.toNat) →
    let p := s.hart.pc
    let r := s.hart.regs
    let last := p + BitVec.ofNat 64 (4 * n)
    let nests := r.la (!l) = true → r.ls (!l) ≤ p ∧ last < r.le (!l)
    (r.la l = true → Quiet s → exec i s = .next (s.deliver (.own 0x1B 0))) ∧
    (r.la l = false → ¬ nests → Quiet s → exec i s = .next (s.deliver (.own 0x1B 0))) ∧
    (r.la l = false → nests → ∃ t, exec i s = .next t ∧ t = { s with hart := t.hart } ∧
      t.hart.regs.ls l = p + 4 ∧ t.hart.regs.le l = last ∧ t.hart.regs.lc l = count ∧ t.hart.regs.la l = decide (count ≠ 0) ∧
      t.hart.pc = (if count = 0 then last + 4 else p + 4) ∧ t.hart.convoy = [] ∧
      t.hart.regs.ls (!l) = r.ls (!l) ∧ t.hart.regs.le (!l) = r.le (!l) ∧ t.hart.regs.lc (!l) = r.lc (!l) ∧ t.hart.regs.la (!l) = r.la (!l) ∧
      t.hart.regs.gpr = r.gpr ∧ t.hart.regs.lr = r.lr ∧ (∀ b, b ≠ 2 → b ≠ 3 → t.hart.regs.tstat.getLsbD b = r.tstat.getLsbD b))

/-- R44, R105: a member that completes inside its convoy leaves the hart at the next one; at the end of the convoy the count of each level
that ends there falls by one, the hart loops while it is not 0, and a level whose count reaches 0 becomes inactive. -/
def Obligations.ConvoyEndLoops : Prop :=
  ∀ (s : State),
    let r := s.hart.regs
    let p := s.hart.pc
    let at' (k : Level) := r.la k = true ∧ r.le k = p
    ((s.retire false).hart.pc = p + 4 ∧ (s.retire false).hart.convoy = s.hart.convoy.tail ∧ (s.retire false).hart.regs = r) ∧
    (s.retire true).hart.convoy = [] ∧
    (¬ at' false → ¬ at' true → (s.retire true).hart.pc = p + 4 ∧ (s.retire true).hart.regs = r) ∧
    (∀ k, at' k → (k = false → ¬ at' true) → r.lc k ≠ 1 →
      (s.retire true).hart.pc = r.ls k ∧ (s.retire true).hart.regs.lc k = r.lc k - 1 ∧ (s.retire true).hart.regs.la k = true) ∧
    (∀ k, at' k → ¬ at' (!k) → r.lc k = 1 →
      (s.retire true).hart.pc = p + 4 ∧ (s.retire true).hart.regs.lc k = 0 ∧ (s.retire true).hart.regs.la k = false ∧
      (s.retire true).hart.regs.la (!k) = r.la (!k) ∧ (s.retire true).hart.regs.lc (!k) = r.lc (!k)) ∧
    (at' false → at' true → r.lc true = 1 → r.lc false ≠ 1 →
      (s.retire true).hart.pc = r.ls false ∧ (s.retire true).hart.regs.la true = false ∧ (s.retire true).hart.regs.lc false = r.lc false - 1)

/-- R94, R96, R98, R99, R75: NOP has no effect; WINB writes WB; WAIT completes and holds the hart's issue; HALT in supervisor mode stops
the hart for good, and in user mode raises the privileged trap. -/
def Obligations.SystemResults : Prop :=
  ∀ (e : Bool) (w : BitVec 11) (s : State),
    exec (.nop e) s = .next (s.retire e) ∧
    exec (.winb e w) s = Wrote s e { s.hart.regs with wb := w.setWidth 64 } ∧
    (Settled s → exec (.wait e) s = .next ((s.retire e).modHart fun h => { h with waiting := .tick (s.pkg.cycle / 256) })) ∧
    (Settled s → s.hart.regs.tstat.getLsbD 0 = true →
      exec (.halt e) s = .next (s.modHart fun h => { h with run := .halting, convoy := [], waiting := .none })) ∧
    (Quiet s → s.hart.regs.tstat.getLsbD 0 = false →
      exec (.halt e) s = .next (s.deliver (privilegedTrap s (.halt e))) ∧ exec (.rft e) s = .next (s.deliver (privilegedTrap s (.rft e))))

/-- R70, R71, R95: TRAP, BRKPT and a trap event enter the hart's own handler: cause, resumable position and value are saved, TSTAT changes as R70 says,
and the handler starts at TVEC in supervisor mode; nothing else of the hart changes. A restart under m15 is recorded in RFM (R70). The trap
event takes its cause and value from its operands and is entered by the hart that steps: the model's reading (log 51, DEDUCED). -/
def Obligations.SoftwareTrapsEnter : Prop :=
  ∀ (e : Bool) (c : BitVec 7) (s : State) (i : Instr) (cause : BitVec 8) (v : Word),
    (i = .trap e c ∧ cause = 0x19 ∧ v = c.setWidth 64 ∨ i = .brkpt e ∧ cause = 0x18 ∧ v = 0 ∧ s.recorderOf s.hart.crew = none ∨
      i = .trapEntry cause v ∧ s.executes = true ∧ raised cause = true ∧ cause ≠ 0x07 ∧ cause ≠ 0x14) →
    OwnHandler s cause →
    ∃ u, entered s.hart.regs.tstat u s.hart.m15only false ∧
      exec i s = .next { s with hart := { s.hart with
        tcause := cause.setWidth 64, tpc := s.hart.pc, telix := BitVec.ofNat 64 s.hart.elix, tval := v, pc := s.hart.tvec, elix := 0
        convoy := [], member := 0, m15only := false, waiting := .none, cut := none, walk := none, regs := { s.hart.regs with tstat := u } } }

/-- R72: RFT resumes at TPC and TELIX with the mode and the loop levels as they were; with TSTAT.RFM set, under m15 alone. -/
def Obligations.ReturnFromTrap : Prop :=
  ∀ (e : Bool) (s : State), Settled s → s.hart.regs.tstat.getLsbD 0 = true → s.hart.serves = none →
    ∃ u, returned s.hart.regs.tstat u ∧
      exec (.rft e) s = .next { s with hart := { s.hart with
        pc := s.hart.tpc, elix := s.hart.telix.toNat, m15only := s.hart.regs.tstat.getLsbD 6, regs := { s.hart.regs with tstat := u }
        convoy := [], member := 0, waiting := .none } }

/-- R56, R100, R182: MFS reads the special register of its number; in user mode the trap registers raise the privileged trap. ASTAT and SPHW
read as earlier convoys left them (log 54). BX and FX read what is in force for the next instruction, as R182 says, a VXIT or trim of the MFS's
own convoy counting (log 20, DEDUCED), and while a test is open as its candidates have it (log 16, DEDUCED). VGRANTCAP is floor(VLMAX × k / 4)
on every core at all times (log 66, DESIGN CHOICE). -/
def Obligations.SpecialRegisterReads : Prop :=
  ∀ (e : Bool) (d : GReg) (n : BitVec 11) (s : State) (v : Word), specialValue s n.toNat = some v →
    (userReadable n.toNat = true ∨ s.hart.regs.tstat.getLsbD 0 = true → exec (.mfs e d n) s = Wrote s e (s.hart.regs.setG d v)) ∧
    (userReadable n.toNat = false → s.hart.regs.tstat.getLsbD 0 = false → Quiet s →
      exec (.mfs e d n) s = .next (s.deliver (privilegedTrap s (.mfs e d n))))

/-- R56, R57, R59, R101, R107: MTS in range and permitted leaves its register reading as written (VL as granted), and no special register
that R56 to R107 do not couple to it changes; no scalar, vector or mask register and no memory changes. In user mode MTS of a supervisor
register raises the privileged trap, and a value out of range the illegal-register trap with the number in TVAL, before effect. That end
processing of the MTS's own convoy reads LCk, LEk and TSTAT as just written is the model's choice (log 59, DESIGN CHOICE). -/
def Obligations.SpecialRegisterWrites : Prop :=
  ∀ (e : Bool) (a : GReg) (n : BitVec 11) (s : State), Settled s →
    let may := userWritable n.toNat = true ∨ s.hart.regs.tstat.getLsbD 0 = true
    let fits := inRange (padSize s) n.toNat (s.g a).toNat = true
    (mtsLegal n = true → may → fits →
      ∃ u : State, exec (.mts e a n) s = .next (u.retire e) ∧
        u.special n.toNat = (if n.toNat = 0x004 then BitVec.ofNat 64 (min (s.g a).toNat (min s.hart.vlmax s.grantCap)) else s.g a) ∧
        (∀ m : BitVec 11, changes (!s.hart.regs.tstat.getLsbD 0) n.toNat m.toNat = false → u.special m.toNat = s.special m.toNat) ∧
        u.hart.regs.gpr = s.hart.regs.gpr ∧ u.hart.regs.vrf = s.hart.regs.vrf ∧ u.hart.regs.masks = s.hart.regs.masks ∧
        u.mem = s.mem ∧ u.tags = s.tags ∧ u.pkg = s.pkg ∧ u.others = s.others) ∧
    (s.hart.late = [] → ¬ may → exec (.mts e a n) s = .next (s.deliver (privilegedTrap s (.mts e a n)))) ∧
    (s.hart.late = [] → may → ¬ fits → exec (.mts e a n) s = .next (s.deliver (.own 0x03 (n.setWidth 64))))

/-- What a member that only writes scalar register `d` leaves as it was: every other scalar register, the special registers and flags but
those of loop end processing (R105), vector and mask registers, memory, tags, teams and everything else of the machine. -/
def Obligations.ScalarResultFrame : Prop :=
  ∀ (i : Instr) (s t : State) (e : Bool) (d : GReg) (v : Word),
    (arithmetic s i = some (e, d, v) ∨ constant s i = some (e, d, v) ∨ ∃ n, i = .mfs e d n ∧ s.hart.regs.tstat.getLsbD 0 = true) →
    exec i s = .next t →
    (∀ k, (d = 0 ∨ k ≠ s.hart.regs.phys d) → Sparse.get zeroWord t.hart.regs.gpr k = Sparse.get zeroWord s.hart.regs.gpr k) ∧
    (∃ g c0 c1 u, t.hart.regs = { s.hart.regs with gpr := g, lc0 := c0, lc1 := c1, tstat := u } ∧
      (∀ b, b ≠ 2 → b ≠ 3 → u.getLsbD b = s.hart.regs.tstat.getLsbD b) ∧
      (e = false → c0 = s.hart.regs.lc0 ∧ c1 = s.hart.regs.lc1 ∧ u = s.hart.regs.tstat)) ∧
    t = { s with hart := { s.hart with
      regs := t.hart.regs, pc := t.hart.pc, convoy := t.hart.convoy, member := t.hart.member, issued := t.hart.issued
      elix := 0, m15only := false, waiting := .none, cut := none, walk := none } } ∧
    (∀ a, Memory.read t.mem a = Memory.read s.mem a)

namespace Sys2Proof.Claims
open Sys2Proof.Machine

/-- What an atomic writes for an old value `o` of `n` bits, with g[b] and g[d] (R312); none writes nothing. -/
abbrev Rmw := Nat → Nat → Nat → Nat → Option Nat
def swaps : Rmw := fun _ _ b _ => some b
def adds : Rmw := fun n o b _ => some ((o + b) % 2 ^ n)
def ands : Rmw := fun _ o b _ => some (o &&& b)
def ors : Rmw := fun _ o b _ => some (o ||| b)
def xors : Rmw := fun _ o b _ => some (o ^^^ b)
def greater : Rmw := fun n o b _ => some (if (BitVec.ofNat n o).toInt < (BitVec.ofNat n b).toInt then b else o)
def lesser : Rmw := fun n o b _ => some (if (BitVec.ofNat n b).toInt < (BitVec.ofNat n o).toInt then b else o)
def matches' : Rmw := fun _ o b d => if o = d then some b else none

/-- An atomic's fields: convoy-end bit, d, a, b, whether its unit has 8 bytes, its operation, whether PCIe has an AtomicOp for it (R423), and
whether it has acquire and release order (R310). -/
structure Amo where
  e : Bool
  d : GReg
  a : GReg
  b : GReg
  eight : Bool
  op : Rmw
  native : Bool
  acquire : Bool
  release : Bool

/-- The 32 atomics of R312. -/
def amo : Instr → Option Amo
  | .amoswapRlx e d a b w => some ⟨e, d, a, b, w, swaps, true, false, false⟩
  | .amoaddRlx e d a b w => some ⟨e, d, a, b, w, adds, true, false, false⟩
  | .amoandRlx e d a b w => some ⟨e, d, a, b, w, ands, false, false, false⟩
  | .amoorRlx e d a b w => some ⟨e, d, a, b, w, ors, false, false, false⟩
  | .amoxorRlx e d a b w => some ⟨e, d, a, b, w, xors, false, false, false⟩
  | .amomaxRlx e d a b w => some ⟨e, d, a, b, w, greater, false, false, false⟩
  | .amominRlx e d a b w => some ⟨e, d, a, b, w, lesser, false, false, false⟩
  | .amocasRlx e d a b w => some ⟨e, d, a, b, w, matches', w, false, false⟩
  | .amoswapAcq e d a b w => some ⟨e, d, a, b, w, swaps, true, true, false⟩
  | .amoaddAcq e d a b w => some ⟨e, d, a, b, w, adds, true, true, false⟩
  | .amoandAcq e d a b w => some ⟨e, d, a, b, w, ands, false, true, false⟩
  | .amoorAcq e d a b w => some ⟨e, d, a, b, w, ors, false, true, false⟩
  | .amoxorAcq e d a b w => some ⟨e, d, a, b, w, xors, false, true, false⟩
  | .amomaxAcq e d a b w => some ⟨e, d, a, b, w, greater, false, true, false⟩
  | .amominAcq e d a b w => some ⟨e, d, a, b, w, lesser, false, true, false⟩
  | .amocasAcq e d a b w => some ⟨e, d, a, b, w, matches', w, true, false⟩
  | .amoswapRel e d a b w => some ⟨e, d, a, b, w, swaps, true, false, true⟩
  | .amoaddRel e d a b w => some ⟨e, d, a, b, w, adds, true, false, true⟩
  | .amoandRel e d a b w => some ⟨e, d, a, b, w, ands, false, false, true⟩
  | .amoorRel e d a b w => some ⟨e, d, a, b, w, ors, false, false, true⟩
  | .amoxorRel e d a b w => some ⟨e, d, a, b, w, xors, false, false, true⟩
  | .amomaxRel e d a b w => some ⟨e, d, a, b, w, greater, false, false, true⟩
  | .amominRel e d a b w => some ⟨e, d, a, b, w, lesser, false, false, true⟩
  | .amocasRel e d a b w => some ⟨e, d, a, b, w, matches', w, false, true⟩
  | .amoswapAr e d a b w => some ⟨e, d, a, b, w, swaps, true, true, true⟩
  | .amoaddAr e d a b w => some ⟨e, d, a, b, w, adds, true, true, true⟩
  | .amoandAr e d a b w => some ⟨e, d, a, b, w, ands, false, true, true⟩
  | .amoorAr e d a b w => some ⟨e, d, a, b, w, ors, false, true, true⟩
  | .amoxorAr e d a b w => some ⟨e, d, a, b, w, xors, false, true, true⟩
  | .amomaxAr e d a b w => some ⟨e, d, a, b, w, greater, false, true, true⟩
  | .amominAr e d a b w => some ⟨e, d, a, b, w, lesser, false, true, true⟩
  | .amocasAr e d a b w => some ⟨e, d, a, b, w, matches', w, true, true⟩
  | _ => none

/-- What a vector member writes to vector register `d` at width `w` bytes: `new j` is the value of element j, none where it keeps what it
held; `src j` are the register elements consumed at j, each a register, a width and an index. -/
structure ElemRule where
  e : Bool
  d : VReg
  w : Nat
  src : Nat → List (Nat × Nat × Nat)
  new : Nat → Option Nat

/-- What a vector member writes to mask register `d`. -/
structure MaskRule where
  e : Bool
  d : MReg
  src : Nat → List (Nat × Nat × Nat)
  new : Nat → Option Bool

/-- The value of element j where j is active and not below ELIX (R136, R138). -/
def atActive {α : Type} (h : Hart) (m : Bool) (f : Nat → α) (j : Nat) : Option α := if h.elix ≤ j ∧ h.active m j = true then some (f j) else none

/-- No element that an active element of the member consumes is poisoned. -/
def Clean (h : Hart) (m : Bool) (src : Nat → List (Nat × Nat × Nat)) : Prop :=
  ∀ j, h.active m j = true → ∀ x ∈ src j, h.elemPoison x.1 x.2.1 x.2.2 = false

/-- The elements `j` below `c` that the rule names hold what it says and carry no poison mark; every other byte of the vector registers, and
every other register, is as `s` has it. -/
def Written (s t : State) (r : ElemRule) (c : Nat) : Prop :=
  (∀ j v, j < c → r.new j = some v → t.hart.elem r.d.toNat r.w j = v % 2 ^ (8 * r.w)) ∧
  (∀ k, (∀ j v, j < c → r.new j = some v → k < r.d.toNat * s.hart.rb + j * r.w ∨ r.d.toNat * s.hart.rb + (j + 1) * r.w ≤ k) →
    Sparse.get zeroByte t.hart.regs.vrf k = Sparse.get zeroByte s.hart.regs.vrf k) ∧
  (∀ j v, j < c → r.new j = some v → Sparse.anyIn t.hart.regs.vpois (r.d.toNat * s.hart.rb + j * r.w) (r.d.toNat * s.hart.rb + (j + 1) * r.w) = false) ∧
  t.hart.regs = { s.hart.regs with vrf := t.hart.regs.vrf, vpois := t.hart.regs.vpois }

/-- The same for a mask register. -/
def WrittenMask (s t : State) (r : MaskRule) (c : Nat) : Prop :=
  (∀ j v, j < c → r.new j = some v → t.hart.regs.mask r.d.toNat j = v) ∧
  (∀ k, (∀ j v, j < c → r.new j = some v → k ≠ r.d.toNat * 65536 + j) → Sparse.get clearBit t.hart.regs.masks k = Sparse.get clearBit s.hart.regs.masks k) ∧
  t.hart.regs = { s.hart.regs with masks := t.hart.regs.masks }

/-- The member completes: its elements below VL hold what the rule says, and everything else of the machine but the position is unchanged. -/
def WritesElements (i : Instr) (s : State) (r : ElemRule) : Prop :=
  ∃ t : State, exec i s = .next (t.retire r.e) ∧ Written s t r s.hart.regs.vl ∧
    t = { s with hart := { s.hart with regs := t.hart.regs, issued := t.hart.issued } }

/-- A pre-emption stops the member at element `c` (R138): the elements below `c` are written as the rule says, ELIX is `c`, and the hart stays at
the member with everything else as it was. -/
def StopsAt (i : Instr) (s : State) (r : ElemRule) (c : Nat) : Prop :=
  ∃ t : State, exec i s = .next t ∧ Written s t r c ∧
    t = { s with hart := { s.hart with regs := t.hart.regs, issued := t.hart.issued, elix := c, cut := none } }

/-- The same for a mask register. -/
def WritesMask (i : Instr) (s : State) (r : MaskRule) : Prop :=
  ∃ t : State, exec i s = .next (t.retire r.e) ∧ WrittenMask s t r s.hart.regs.vl ∧
    t = { s with hart := { s.hart with regs := t.hart.regs, issued := t.hart.issued } }

/-- The poisoned-data trap is delivered at element `j` (R48, R138, R226): ELIX is `j`, the elements below it are written as `wrote` says, and
everything else is as it was. -/
def PoisonedAt (i : Instr) (s : State) (j : Nat) (wrote : State → Prop) : Prop :=
  ∃ u : State, exec i s = .next (u.deliver (.own 0x1A 0)) ∧ wrote u ∧
    u = { s with hart := { s.hart with regs := u.hart.regs, issued := u.hart.issued, elix := j } }

/-- `j` is the first active element, from ELIX on, that consumes a poisoned one. -/
def FirstPoisoned (h : Hart) (m : Bool) (src : Nat → List (Nat × Nat × Nat)) (j : Nat) : Prop :=
  h.elix ≤ j ∧ h.active m j = true ∧ (∃ x ∈ src j, h.elemPoison x.1 x.2.1 x.2.2 = true) ∧
  ∀ k, h.elix ≤ k → k < j → h.active m k = true → ∀ x ∈ src k, h.elemPoison x.1 x.2.1 x.2.2 = false

/-- The scalar operand of a vector member: g[b] as it was when the member issued (R143). -/
def operand (s : State) (b : GReg) : Nat := (s.atIssue (s.g b) 0).2.1.toNat

/-- Bits of an element. -/
def bits (s : State) : Nat := 8 * vtBytes s.hart.regs.vt

/-- An element as a signed number. -/
def signed (n x : Nat) : Int := (BitVec.ofNat n x).toInt

/-- An integer cut to `n` bits. -/
def cut (n : Nat) (x : Int) : Nat := (BitVec.ofInt n x).toNat

/-- An integer held between the smallest and the largest signed number of `n` bits. -/
def saturate (n : Nat) (x : Int) : Int := if x < -(2 ^ (n - 1)) then -(2 ^ (n - 1)) else if 2 ^ (n - 1) - 1 < x then 2 ^ (n - 1) - 1 else x

/-- Vector and vector. -/
def vv (s : State) (e : Bool) (d a b : VReg) (m : Bool) (f : Nat → Nat → Nat → Nat) : Option (Bool × ElemRule) :=
  let w := vtBytes s.hart.regs.vt
  some (m, ⟨e, d, w, fun j => [(a.toNat, w, j), (b.toNat, w, j)],
    atActive s.hart m fun j => f (8 * w) (s.hart.elem a.toNat w j) (s.hart.elem b.toNat w j)⟩)

/-- Vector and scalar. -/
def vx (s : State) (e : Bool) (d a : VReg) (b : GReg) (m : Bool) (f : Nat → Nat → Nat → Nat) : Option (Bool × ElemRule) :=
  let w := vtBytes s.hart.regs.vt
  some (m, ⟨e, d, w, fun j => [(a.toNat, w, j)], atActive s.hart m fun j => f (8 * w) (s.hart.elem a.toNat w j) (operand s b % 2 ^ (8 * w))⟩)

/-- One vector. -/
def v1 (s : State) (e : Bool) (d a : VReg) (m : Bool) (f : Nat → Nat → Nat) : Option (Bool × ElemRule) :=
  let w := vtBytes s.hart.regs.vt
  some (m, ⟨e, d, w, fun j => [(a.toNat, w, j)], atActive s.hart m fun j => f (8 * w) (s.hart.elem a.toNat w j)⟩)

/-- The integer vector instructions of R143 and R144 on elements of n bits, with VBCAST (R156). -/
def integerVector (s : State) : Instr → Option (Bool × ElemRule)
  | .vadd e d a b m => vv s e d a b m fun n x y => (x + y) % 2 ^ n
  | .vsub e d a b m => vv s e d a b m fun n x y => cut n (x - y)
  | .vmul e d a b m => vv s e d a b m fun n x y => x * y % 2 ^ n
  | .vand e d a b m => vv s e d a b m fun _ x y => x &&& y
  | .vor e d a b m => vv s e d a b m fun _ x y => x ||| y
  | .vxor e d a b m => vv s e d a b m fun _ x y => x ^^^ y
  | .vmin e d a b m => vv s e d a b m fun n x y => if signed n x < signed n y then x else y
  | .vmax e d a b m => vv s e d a b m fun n x y => if signed n x < signed n y then y else x
  | .vaddX e d a b m => vx s e d a b m fun n x y => (x + y) % 2 ^ n
  | .vsubX e d a b m => vx s e d a b m fun n x y => cut n (x - y)
  | .vmulX e d a b m => vx s e d a b m fun n x y => x * y % 2 ^ n
  | .vandX e d a b m => vx s e d a b m fun _ x y => x &&& y
  | .vorX e d a b m => vx s e d a b m fun _ x y => x ||| y
  | .vxorX e d a b m => vx s e d a b m fun _ x y => x ^^^ y
  | .vminX e d a b m => vx s e d a b m fun n x y => if signed n x < signed n y then x else y
  | .vmaxX e d a b m => vx s e d a b m fun n x y => if signed n x < signed n y then y else x
  | .vsll e d a b m => vv s e d a b m fun n x y => x * 2 ^ (y % n) % 2 ^ n
  | .vsrl e d a b m => vv s e d a b m fun n x y => x / 2 ^ (y % n)
  | .vsra e d a b m => vv s e d a b m fun n x y => cut n (signed n x / 2 ^ (y % n))
  | .vmulh e d a b m => vv s e d a b m fun n x y => cut n (signed n x * signed n y / 2 ^ n)
  | .vdiv e d a b m => vv s e d a b m fun n x y => if y = 0 then 2 ^ n - 1 else cut n ((signed n x).tdiv (signed n y))
  | .vrem e d a b m => vv s e d a b m fun n x y => if y = 0 then x else cut n ((signed n x).tmod (signed n y))
  | .vaddsat e d a b m => vv s e d a b m fun n x y => cut n (saturate n (signed n x + signed n y))
  | .vsubsat e d a b m => vv s e d a b m fun n x y => cut n (saturate n (signed n x - signed n y))
  | .vminn e d a b m => vv s e d a b m fun _ x y => min x y
  | .vmaxn e d a b m => vv s e d a b m fun _ x y => max x y
  | .vmulhn e d a b m => vv s e d a b m fun n x y => x * y / 2 ^ n
  | .vdivn e d a b m => vv s e d a b m fun n x y => if y = 0 then 2 ^ n - 1 else x / y
  | .vremn e d a b m => vv s e d a b m fun _ x y => if y = 0 then x else x % y
  | .vabs e d a m => v1 s e d a m fun n x => cut n (signed n x).natAbs
  | .vmv e d a m => v1 s e d a m fun _ x => x
  | .vmerge e d a b _ =>
    let w := vtBytes s.hart.regs.vt
    let pick (j : Nat) := (if s.hart.regs.mask 0 j then b else a).toNat
    some (false, ⟨e, d, w, fun j => [(pick j, w, j)], atActive s.hart false fun j => s.hart.elem (pick j) w j⟩)
  | .vbcast e d a m =>
    let w := vtBytes s.hart.regs.vt
    some (m, ⟨e, d, w, fun _ => [], atActive s.hart m fun _ => (s.g a).toNat % 2 ^ (8 * w)⟩)
  | _ => none

/-- A float operation on two elements and the old destination, in the format, mode and stochastic value of the destination. -/
abbrev Flop := Fmt → Nat → Nat → Nat → Nat → Nat → Nat
def fsum : Flop := fun f rm r x y _ => f.encode rm r ((f.decode x).add rm (f.decode y))
def fdiff : Flop := fun f rm r x y _ => f.encode rm r ((f.decode x).add rm (f.decode y).neg)
def fprod : Flop := fun f rm r x y _ => f.encode rm r ((f.decode x).mul (f.decode y))
def fquot : Flop := fun f rm r x y _ => f.div rm r (f.decode x) (f.decode y)
def fmin : Flop := fun f _ _ x y _ => f.minNum x y
def fmax : Flop := fun f _ _ x y _ => f.maxNum x y
def fma : Flop := fun f rm r x y z => f.encode rm r (((f.decode x).mul (f.decode y)).add rm (f.decode z))
def fnms : Flop := fun f rm r x y z => f.encode rm r ((f.decode z).add rm ((f.decode x).mul (f.decode y)).neg)

/-- The stochastic value of element j (R113, R115): used under rounding mode 4 alone, from RSEED as it stood when the member issued. -/
def chance (s : State) (j : Nat) : Nat := if vtRound s.hart.regs.vt = 4 then rsrValue s.hart.seed (BitVec.ofNat 64 j) else 0

def fvv (s : State) (f : Fmt) (e : Bool) (d a b : VReg) (m fused : Bool) (op : Flop) : Option (Bool × ElemRule) :=
  let w := vtBytes s.hart.regs.vt
  some (m, ⟨e, d, w, fun j => [(a.toNat, w, j), (b.toNat, w, j)] ++ if fused then [(d.toNat, w, j)] else [],
    atActive s.hart m fun j => op f (vtRound s.hart.regs.vt) (chance s j) (s.hart.elem a.toNat w j) (s.hart.elem b.toNat w j) (s.hart.elem d.toNat w j)⟩)

def fvx (s : State) (f : Fmt) (e : Bool) (d a : VReg) (b : GReg) (m fused : Bool) (op : Flop) : Option (Bool × ElemRule) :=
  let w := vtBytes s.hart.regs.vt
  some (m, ⟨e, d, w, fun j => (a.toNat, w, j) :: if fused then [(d.toNat, w, j)] else [],
    atActive s.hart m fun j => op f (vtRound s.hart.regs.vt) (chance s j) (s.hart.elem a.toNat w j) (operand s b % 2 ^ (8 * w)) (s.hart.elem d.toNat w j)⟩)

def fv1 (s : State) (f : Fmt) (e : Bool) (d a : VReg) (m : Bool) (op : Fmt → Nat → Nat → Nat → Nat) : Option (Bool × ElemRule) :=
  let w := vtBytes s.hart.regs.vt
  some (m, ⟨e, d, w, fun j => [(a.toNat, w, j)], atActive s.hart m fun j => op f (vtRound s.hart.regs.vt) (chance s j) (s.hart.elem a.toNat w j)⟩)

/-- The sign bit of a format's values. -/
def signBit (f : Fmt) : Nat := 2 ^ (f.ebits + f.fbits)

/-- The floating-point vector instructions of R145 to R148 in the format of VT. -/
def floatVector (s : State) (f : Fmt) : Instr → Option (Bool × ElemRule)
  | .vfadd e d a b m => fvv s f e d a b m false fsum
  | .vfsub e d a b m => fvv s f e d a b m false fdiff
  | .vfmul e d a b m => fvv s f e d a b m false fprod
  | .vfdiv e d a b m => fvv s f e d a b m false fquot
  | .vfmin e d a b m => fvv s f e d a b m false fmin
  | .vfmax e d a b m => fvv s f e d a b m false fmax
  | .vfma e d a b m => fvv s f e d a b m true fma
  | .vfnms e d a b m => fvv s f e d a b m true fnms
  | .vfaddX e d a b m => fvx s f e d a b m false fsum
  | .vfsubX e d a b m => fvx s f e d a b m false fdiff
  | .vfmulX e d a b m => fvx s f e d a b m false fprod
  | .vfdivX e d a b m => fvx s f e d a b m false fquot
  | .vfminX e d a b m => fvx s f e d a b m false fmin
  | .vfmaxX e d a b m => fvx s f e d a b m false fmax
  | .vfmaX e d a b m => fvx s f e d a b m true fma
  | .vfnmsX e d a b m => fvx s f e d a b m true fnms
  | .vfsqrt e d a m => fv1 s f e d a m fun f rm r x => f.sqrt rm r (f.decode x)
  | .vfabs e d a m => fv1 s f e d a m fun f _ _ x => if (f.decode x).isNan then f.nan else x % signBit f
  | .vfneg e d a m => fv1 s f e d a m fun f _ _ x =>
      if (f.decode x).isNan then f.nan else if x / signBit f % 2 = 1 then x % signBit f else x + signBit f
  | .vfrcp e d a m => fv1 s f e d a m fun f rm r x => f.div rm r (.num false 1 0) (f.decode x)
  | .vfclass e d a m => fv1 s f e d a m fun f _ _ x => f.classOf x
  | .vfexp2 e d a m => fv1 s f e d a m fun f rm r x => f.exp2 rm r (f.decode x)
  | .vflog2 e d a m => fv1 s f e d a m fun f rm r x => f.log2 rm r (f.decode x)
  | .vfscale e d a b m => fvv s f e d a b m false fun f rm r x y _ => f.encode rm r ((f.decode x).scale (signed f.bits y))
  | _ => none

/-- A compare by R149 of two elements of n bits. -/
def cmp (s : State) (e : Bool) (d : MReg) (a b : VReg) (m : Bool) (f : Nat → Nat → Nat → Bool) : Option (Bool × MaskRule) :=
  let w := vtBytes s.hart.regs.vt
  some (m, ⟨e, d, fun j => [(a.toNat, w, j), (b.toNat, w, j)], atActive s.hart m fun j => f (8 * w) (s.hart.elem a.toNat w j) (s.hart.elem b.toNat w j)⟩)

def cmpx (s : State) (e : Bool) (d : MReg) (a : VReg) (b : GReg) (m : Bool) (f : Nat → Nat → Nat → Bool) : Option (Bool × MaskRule) :=
  let w := vtBytes s.hart.regs.vt
  some (m, ⟨e, d, fun j => [(a.toNat, w, j)], atActive s.hart m fun j => f (8 * w) (s.hart.elem a.toNat w j) (operand s b % 2 ^ (8 * w))⟩)

/-- A mask instruction by R150. -/
def bitwise (s : State) (e : Bool) (d a b : MReg) (m : Bool) (f : Bool → Bool → Bool) : Option (Bool × MaskRule) :=
  some (m, ⟨e, d, fun _ => [], atActive s.hart m fun j => f (s.hart.regs.mask a.toNat j) (s.hart.regs.mask b.toNat j)⟩)

/-- The integer compares and the mask instructions (R149, R150). -/
def maskVector (s : State) : Instr → Option (Bool × MaskRule)
  | .vcmpEq e d a b m => cmp s e d a b m fun _ x y => decide (x = y)
  | .vcmpNe e d a b m => cmp s e d a b m fun _ x y => decide (x ≠ y)
  | .vcmpLt e d a b m => cmp s e d a b m fun n x y => decide (signed n x < signed n y)
  | .vcmpGe e d a b m => cmp s e d a b m fun n x y => decide (signed n y ≤ signed n x)
  | .vcmpLtn e d a b m => cmp s e d a b m fun _ x y => decide (x < y)
  | .vcmpGen e d a b m => cmp s e d a b m fun _ x y => decide (y ≤ x)
  | .vcmpEqX e d a b m => cmpx s e d a b m fun _ x y => decide (x = y)
  | .vcmpNeX e d a b m => cmpx s e d a b m fun _ x y => decide (x ≠ y)
  | .vcmpLtX e d a b m => cmpx s e d a b m fun n x y => decide (signed n x < signed n y)
  | .vcmpGeX e d a b m => cmpx s e d a b m fun n x y => decide (signed n y ≤ signed n x)
  | .vcmpLtnX e d a b m => cmpx s e d a b m fun _ x y => decide (x < y)
  | .vcmpGenX e d a b m => cmpx s e d a b m fun _ x y => decide (y ≤ x)
  | .mand e d a b m => bitwise s e d a b m fun x y => x && y
  | .mor e d a b m => bitwise s e d a b m fun x y => x || y
  | .mxor e d a b m => bitwise s e d a b m fun x y => x != y
  | .mandn e d a b m => bitwise s e d a b m fun x y => x && !y
  | .mnot e d a m => bitwise s e d a a m fun x _ => !x
  | .mset e d m => bitwise s e d d d m fun _ _ => true
  | _ => none

/-- The float compares (R149): false where either element is NaN. -/
def floatMask (s : State) (f : Fmt) : Instr → Option (Bool × MaskRule)
  | .vcmpFlt e d a b m => cmp s e d a b m fun _ x y => (f.decode x).lt (f.decode y)
  | .vcmpFle e d a b m => cmp s e d a b m fun _ x y => !(f.decode x).isNan && !(f.decode y).isNan && !(f.decode y).lt (f.decode x)
  | .vcmpFltX e d a b m => cmpx s e d a b m fun _ x y => (f.decode x).lt (f.decode y)
  | .vcmpFleX e d a b m => cmpx s e d a b m fun _ x y => !(f.decode x).isNan && !(f.decode y).isNan && !(f.decode y).lt (f.decode x)
  | _ => none

/-- A conversion of R151: from the type of VT to `b`, each as a float or as a signed integer. -/
structure Conversion where
  e : Bool
  d : VReg
  a : VReg
  b : BitVec 7
  m : Bool
  source : Bool
  target : Bool

def conversion : Instr → Option Conversion
  | .cvtF e d a b m => some ⟨e, d, a, b, m, true, true⟩
  | .cvtFi e d a b m => some ⟨e, d, a, b, m, true, false⟩
  | .cvtIf e d a b m => some ⟨e, d, a, b, m, false, true⟩
  | .cvtIi e d a b m => some ⟨e, d, a, b, m, false, false⟩
  | _ => none

/-- The fields of a conversion as a rule for its elements. -/
def Conversion.rule (c : Conversion) (s : State) (src dst : Kind) : ElemRule :=
  let sw := vtBytes s.hart.regs.vt
  ⟨c.e, c.d, vtBytes c.b, fun j => [(c.a.toNat, sw, j)], atActive s.hart c.m fun j =>
    convert src dst (vtRound c.b) (if vtRound c.b = 4 then rsrValue s.hart.seed (BitVec.ofNat 64 j) else 0) (s.hart.elem c.a.toNat sw j)⟩

/-- What R152 asks of a conversion. -/
def Conversion.legal (c : Conversion) (s : State) : Prop :=
  s.hart.regs.vl ≤ s.hart.rb / max (vtBytes s.hart.regs.vt) (vtBytes c.b) ∧ (vtBytes s.hart.regs.vt = vtBytes c.b ∨ c.d ≠ c.a)

/-- The formats that R151 converts from and to. -/
def formats : List Fmt := [fp32, bf16, fp16, e4m3, e5m2]

/-- A finite value in units of 2^-149, of which every value of the formats is a multiple (R111). -/
def units : FVal → Option Int
  | .num neg m e => some ((if neg then -1 else 1) * (m * 2 ^ (e + 149).toNat))
  | _ => none

/-- The largest finite encoding, and infinity, or that encoding again where the format has none (R111, R117). -/
def largest (f : Fmt) : Nat := if f = fp32 then 0x7F7FFFFF else if f = bf16 then 0x7F7F else if f = fp16 then 0x7BFF else if f = e4m3 then 0x7E else 0x7B
def infinite (f : Fmt) : Nat := if f = e4m3 then 0x7E else largest f + 1

/-- A magnitude's encoding with a sign. -/
def withSign (f : Fmt) (neg : Bool) (code : Nat) : Nat := if neg then code + 2 ^ (f.bits - 1) else code

/-- The floats and the integers as grids to round on, and those of them that a tie goes to. -/
def floats (f : Fmt) (x : Int) : Prop := ∃ c, units (f.decode c) = some x
def evenFloats (f : Fmt) (x : Int) : Prop := ∃ c, c % 2 = 0 ∧ units (f.decode c) = some x
def wholes (x : Int) : Prop := ∃ k : Int, x = k * 2 ^ 149
def evenWholes (x : Int) : Prop := ∃ k : Int, x = 2 * k * 2 ^ 149

/-- `y` is `x` rounded by the mode of R113 and R114 on a grid: `x` itself, or of its neighbours, `lo` toward 0 and `hi` away from it, the one
that the mode takes. -/
def Rounded (on even : Int → Prop) (rm rnd : Nat) (x y : Int) : Prop :=
  (on x ∧ y = x) ∨ ∃ lo hi : Int, on lo ∧ on hi ∧ lo.natAbs < x.natAbs ∧ x.natAbs < hi.natAbs ∧ 0 ≤ lo * x ∧ 0 < hi * x ∧
    (∀ z, on z → ¬ (lo.natAbs < z.natAbs ∧ z.natAbs < hi.natAbs)) ∧
    match rm with
    | 0 => (2 * x.natAbs < lo.natAbs + hi.natAbs → y = lo) ∧ (lo.natAbs + hi.natAbs < 2 * x.natAbs → y = hi) ∧
        (2 * x.natAbs = lo.natAbs + hi.natAbs → (y = lo ∧ even lo) ∨ (y = hi ∧ even hi))
    | 1 => y = lo
    | 2 => y = if x < 0 then hi else lo
    | 3 => y = if x < 0 then lo else hi
    | _ => y = if 65536 ≤ (x.natAbs - lo.natAbs) * 65536 / (hi.natAbs - lo.natAbs) + rnd then hi else lo

/-- `c` is the value `x`, of sign `neg`, rounded into a float format (R113, R114, R116, R117): up to the largest finite value on its grid, beyond it
that value or infinity as R117 says. -/
def Encoded (f : Fmt) (rm rnd : Nat) (neg : Bool) (x : Int) (c : Nat) : Prop :=
  ∃ top : Int, units (f.decode (largest f)) = some top ∧
    (x.natAbs ≤ top.natAbs → c < 2 ^ f.bits ∧ (c / 2 ^ (f.bits - 1) = 1 ↔ neg = true) ∧
      ∃ y, units (f.decode c) = some y ∧ Rounded (floats f) (evenFloats f) rm rnd x y) ∧
    (top.natAbs < x.natAbs →
      let step := top.natAbs / (2 ^ (f.fbits + 1) - 1)
      let stays := rm = 1 ∨ (rm = 2 ∧ neg = false) ∨ (rm = 3 ∧ neg = true) ∨ (rm = 0 ∧ 2 * (x.natAbs - top.natAbs) < step) ∨
        (rm = 4 ∧ x.natAbs - top.natAbs < step ∧ (x.natAbs - top.natAbs) * 65536 / step + rnd < 65536)
      (stays → c = withSign f neg (largest f)) ∧ (¬ stays → c = withSign f neg (infinite f)))

/-- A residue instruction of R153 on s32 elements: its result, or none for an invalid input, and the result an invalid input gives. -/
structure Residue where
  e : Bool
  d : VReg
  a : VReg
  b : Option VReg
  m : Bool
  f : Nat → Nat → Option Nat
  bad : Nat

def residue : Instr → Option Residue
  | .vrin e d a m => some ⟨e, d, a, none, m, fun x _ => resOfSigned (signed 32 x), 0xFFFFFFFF⟩
  | .vrout e d a m => some ⟨e, d, a, none, m, fun x _ => if resValid x then some (cut 32 (resInt x)) else none, 0⟩
  | .vradd e d a b m => some ⟨e, d, a, some b, m, fun x y => if resValid x && resValid y then some (resAdd x y) else none, 0xFFFFFFFF⟩
  | .vrmul e d a b m => some ⟨e, d, a, some b, m, fun x y => if resValid x && resValid y then some (resMul x y) else none, 0xFFFFFFFF⟩
  | _ => none

/-- The active elements of a member that starts at element 0, in order. -/
def act (s : State) (m : Bool) : List Nat := (List.range s.hart.regs.vl).filter (s.hart.active m)

/-- The reductions of R154 to the 64-bit result, over the active elements in order. -/
def reduced (s : State) : Instr → Option (Bool × GReg × Option VReg × Bool × Word)
  | .vsum e d a m => some (e, d, some a, m, BitVec.ofInt 64 (((act s m).map fun j => signed (bits s) (s.hart.elem a.toNat (vtBytes s.hart.regs.vt) j)).sum))
  | .vrmax e d a m => some (e, d, some a, m, BitVec.ofInt 64 ((act s m).foldl (fun x j => max x (signed (bits s) (s.hart.elem a.toNat (vtBytes s.hart.regs.vt) j))) (-(2 ^ (bits s - 1)))))
  | .vrmin e d a m => some (e, d, some a, m, BitVec.ofInt 64 ((act s m).foldl (fun x j => min x (signed (bits s) (s.hart.elem a.toNat (vtBytes s.hart.regs.vt) j))) (2 ^ (bits s - 1) - 1)))
  | .vrand e d a m => some (e, d, some a, m, BitVec.ofNat 64 ((act s m).foldl (fun x j => x &&& s.hart.elem a.toNat (vtBytes s.hart.regs.vt) j) (2 ^ bits s - 1)))
  | .vror e d a m => some (e, d, some a, m, BitVec.ofNat 64 ((act s m).foldl (fun x j => x ||| s.hart.elem a.toNat (vtBytes s.hart.regs.vt) j) 0))
  | .mpop e d a m => some (e, d, none, m, BitVec.ofNat 64 ((act s m).filter fun j => s.hart.regs.mask a.toNat j).length)
  | .mfirst e d a m => some (e, d, none, m, BitVec.ofNat 64 (((act s m).find? fun j => s.hart.regs.mask a.toNat j).getD s.hart.regs.vl))
  | _ => none

/-- The largest float of a list by R154: any NaN gives the canonical NaN; −infinity for no element. -/
def floatMax (f : Fmt) (xs : List Nat) : Nat :=
  xs.foldl (fun x y => if (f.decode x).isNan || (f.decode y).isNan then f.nan else f.maxNum x y) (f.inf true)

/-- The float reductions (R126, R127, R154, R155). -/
def floatReduced (s : State) (f : Fmt) : Instr → Option (Bool × GReg × VReg × Bool × Nat)
  | .vfsumo e d a m => some (e, d, a, m,
      match (act s m).map fun j => s.hart.elem a.toNat (vtBytes s.hart.regs.vt) j with
      | [] => 0
      | x :: xs => xs.foldl (fun x y => f.encode 0 0 ((f.decode x).add 0 (f.decode y))) (if (f.decode x).isNan then f.nan else x))
  | .vfsumt e d a m => some (e, d, a, m,
      match sumTree f 17 ((List.range s.hart.regs.vl).map fun j =>
          if s.hart.active m j then some (s.hart.elem a.toNat (vtBytes s.hart.regs.vt) j) else none) with
      | none => 0
      | some x => if (f.decode x).isNan then f.nan else x)
  | .vfrmax e d a m => some (e, d, a, m, floatMax f ((act s m).map fun j => s.hart.elem a.toNat (vtBytes s.hart.regs.vt) j))
  | _ => none

/-- Element k of a vector register where k lies below VL, else 0 (R156). -/
def below (s : State) (v : VReg) (k : Nat) : Nat := if k < s.hart.regs.vl then s.hart.elem v.toNat (vtBytes s.hart.regs.vt) k else 0

/-- The active elements that mask register b selects, ascending. -/
def chosen (s : State) (m : Bool) (b : MReg) : List Nat := (act s m).filter fun j => s.hart.regs.mask b.toNat j

/-- The permutes of R156 that run to completion. -/
def permute (s : State) : Instr → Option (Bool × ElemRule)
  | .vslup e d a b m =>
    let w := vtBytes s.hart.regs.vt
    let k := (s.g b).toNat
    some (m, ⟨e, d, w, fun j => if k ≤ j then [(a.toNat, w, j - k)] else [],
      fun j => if s.hart.active m j ∧ k ≤ j then some (s.hart.elem a.toNat w (j - k)) else none⟩)
  | .vsldn e d a b m =>
    let w := vtBytes s.hart.regs.vt
    let k := (s.g b).toNat
    some (m, ⟨e, d, w, fun j => if j + k < s.hart.regs.vl then [(a.toNat, w, j + k)] else [], atActive s.hart m fun j => below s a (j + k)⟩)
  | .vcomp e d a b m =>
    let w := vtBytes s.hart.regs.vt
    some (m, ⟨e, d, w, fun j => if s.hart.regs.mask b.toNat j then [(a.toNat, w, j)] else [],
      fun j => ((chosen s m b)[j]?).map fun x => s.hart.elem a.toNat w x⟩)
  | .vexpd e d a b m =>
    let w := vtBytes s.hart.regs.vt
    let rank (j : Nat) := ((chosen s m b).filter fun x => decide (x < j)).length
    some (m, ⟨e, d, w, fun j => if s.hart.regs.mask b.toNat j then [(a.toNat, w, rank j)] else [],
      fun j => if s.hart.active m j ∧ s.hart.regs.mask b.toNat j then some (s.hart.elem a.toNat w (rank j)) else none⟩)
  | .viota e d a m =>
    some (m, ⟨e, d, vtBytes s.hart.regs.vt, fun _ => [],
      atActive s.hart m fun j => ((chosen s m a).filter fun x => decide (x < j)).length⟩)
  | .vrgath e d a b m =>
    let w := vtBytes s.hart.regs.vt
    let at' (j : Nat) := s.hart.elem b.toNat w j
    some (m, ⟨e, d, w, fun j => (b.toNat, w, j) :: if at' j < s.hart.regs.vl then [(a.toNat, w, at' j)] else [],
      atActive s.hart m fun j => below s a (at' j)⟩)
  | _ => none

/-- The fields of a vector load or store (R157 to R163): whether it stores, whether it is indexed, its minor, register, address register,
and its element offsets with the element that they consume. -/
structure VMove where
  e : Bool
  store : Bool
  indexed : Bool
  minor : Nat
  d : VReg
  a : GReg
  b : GReg
  m : Bool
  off : Hart → Word → Nat → Except Trap Int

/-- Bytes of an index (R161). -/
def indexWidth (h : Hart) : Nat := if vtBytes h.regs.vt = 8 then 8 else 4

/-- Element i of the index register as an offset, or the poisoned-data trap. -/
def indexOf (b : VReg) (h : Hart) (_ : Word) (i : Nat) : Except Trap Int :=
  if h.elemPoison b.toNat (indexWidth h) i then .error (.own 0x1A 0) else .ok (h.elem b.toNat (indexWidth h) i)

def move : Instr → Option VMove
  | .vld e d a m => some ⟨e, false, false, 0, d, a, 0, m, fun _ _ i => .ok i⟩
  | .vlds e d a b m => some ⟨e, false, false, 1, d, a, b, m, fun _ y i => .ok (i * y.toInt)⟩
  | .vst e d a m => some ⟨e, true, false, 2, d, a, 0, m, fun _ _ i => .ok i⟩
  | .vsts e d a b m => some ⟨e, true, false, 3, d, a, b, m, fun _ y i => .ok (i * y.toInt)⟩
  | .vgth e d a b m => some ⟨e, false, true, 4, d, a, 0, m, indexOf b⟩
  | .vscto e d a b m => some ⟨e, true, true, 5, d, a, 0, m, indexOf b⟩
  | .vsctu e d a b m => some ⟨e, true, true, 6, d, a, 0, m, indexOf b⟩
  | _ => none

/-- What R161 asks of an indexed access: the indexes of VL elements fit a register, and a gather does not overwrite indexes of another
width. -/
def VMove.legal (v : VMove) (s : State) (i : Instr) : Prop :=
  v.indexed = true → s.hart.regs.vl ≤ s.hart.rb / indexWidth s.hart ∧
    (∀ e d a b m, i = .vgth e d a b m → d ≠ b ∨ vtBytes s.hart.regs.vt = indexWidth s.hart)

/-- The pass of a vector load or store over its active elements, from the state `s` after it read its scalar operands `x` and `y`. -/
def VMove.sweep (v : VMove) (s : State) (x y : Word) (b : Base) : Sweep :=
  let h := s.hart
  { store := v.store, indexed := v.indexed, reg := v.d.toNat, minor := v.minor, vt := h.regs.vt, vl := h.regs.vl, seed := h.seed
    aligned := true, planes := [h.splane0, h.splane1, h.splane2, h.splane3], base := b, baseVa := x
    prior := h.priorElements v.m
    elems := (h.elements.filter (h.active v.m)).map fun i => (i, (v.off h y i).map fun o => elemAddress x o (elemBits b.fmt h.regs.vt)) }

/-- Before a pass whose elements may touch bytes of a vector load still to be performed, those loads are performed (R176). -/
def caughtUp (s : State) (w : Sweep) : State := if s.behindLate w then s.performLate else s

/-- Of a vector store's elements `j` is the first that fails, on its poisoned register element, and none waits or misses a translation. -/
def FailsPoisoned (rs : List (Nat × Except Stop Got)) (j : Nat) : Prop :=
  (∃ r ∈ rs, r.1 = j) ∧
  ∀ r ∈ rs, (r.1 < j → ∃ g, r.2 = .ok g) ∧ (r.1 = j → r.2 = .error (.trap (.own 0x1A 0))) ∧ ∀ p, r.2 = .error p → p ≠ .wait ∧ ∀ t, p = .trap t → t.cause ≠ 0x07

/-- The stores of a pass's elements issued (R162, R163): of a VSCTU's with one address, one that the device chooses. -/
def VMove.issues (v : VMove) (w : Sweep) (u : State) (gs : List Got) : State :=
  let c := if v.minor = 6 then u.chooseUnordered gs.length gs else (u, gs)
  c.1.commitHeld ⟨(c.2.filter fun g => g.mx.isNone).map fun g => g.pending w c.1.hart, c.2.filterMap fun g => g.mxElem w c.1.hart, c.1.hart.rb⟩

/-- Every active element of the pass passes its checks: the state after them and the elements with their places and data (R160, R167). -/
def Passes (s : State) (w : Sweep) (u : State) (gs : List Got) : Prop :=
  ∃ rs, s.checkAll w w.elems = (u, rs) ∧ (∀ r ∈ rs, ∃ g, r.2 = .ok g) ∧ gs = rs.filterMap gotOf

end Sys2Proof.Claims

/-- R87, R309 to R313, R423: an atomic reads its unit as it stands, answers the old value and writes what its operation gives; the earlier
stores that its order asks for are performed first, and after an acquire the hart reads no overwritten value any more. One not aligned to its unit
raises the alignment trap, and one that a PCIe port has no AtomicOp for the attribute-conflict trap, before effect. -/
def Obligations.AtomicResults : Prop :=
  ∀ (i : Instr) (s : State) (r : Amo), amo i = some r → Settled s →
    let n := if r.eight then 8 else 4
    (s.hart.late = [] → (s.g r.a).toNat % n ≠ 0 → exec i s = .next (s.deliver (.own 0x06 (s.g r.a)))) ∧
    (∀ t x p, s.hart.late = [] → (s.g r.a).toNat % n = 0 → s.reach (s.g r.a) n .write = (t, .ok x) → t.portAt x.place = some p →
      (p.mode = 5 ∨ p.mode = 6 ∨ p.mode = 7) → (r.native = false ∨ p.atomicOps = false) → exec i s = .next (t.deliver (.own 0x0A (s.g r.a)))) ∧
    (∀ t x, (s.g r.a).toNat % n = 0 → s.access (s.g r.a) n .write none (some r.native) = (t, .ok x) → x.place ≠ nowhere →
      (t.eccAccess x.place n).viewPoison ownScalar x.place n = false →
      let u := t.eccAccess x.place n
      let v := if r.release then u.drainAll else u.drain fun q => ownScalar q && q.touches x.place n
      let v := if r.acquire then v.acquired x.place else v.current x.place n
      let old := bytesToNat (v.peekList x.place n)
      let wrote := match r.op (8 * n) old ((v.g r.b).toNat % 2 ^ (8 * n)) ((v.g r.d).toNat % 2 ^ (8 * n)) with
        | some new => v.perform ⟨x.place, natToBytes new n, false, false, false, v.hart.ctx, x.dirty, x.via, false⟩
        | none => v
      exec i s = .next ((wrote.setG r.d (BitVec.ofInt 64 (signed (8 * n) old))).retire r.e))

/-- R309, R310, R311, R314, R315, R399: acquire loads, which read what stands there and after which the hart reads no overwritten value any more;
release stores, which perform every earlier store first; watches, after which the hart reads the line no older than it stood. WAITW without a watch
completes at once; with one it completes, and clears it, once the line was written, the limit has passed or the crew is to be pre-empted;
else the hart stays at it. -/
def Obligations.OrderedAccessResults : Prop :=
  ∀ (e : Bool) (d a b : GReg) (s u : State) (n x : Nat) (r : Reached), Settled s →
    ((s.g a).toNat % n = 0 → Acquires s (s.g a) n u x →
      (n = 4 → exec (.ldacq32 e d a) s = Wrote u e (u.hart.regs.setG d (BitVec.ofInt 64 (signed 32 x)))) ∧
      (n = 8 → exec (.ldacq64 e d a) s = Wrote u e (u.hart.regs.setG d (BitVec.ofNat 64 x)))) ∧
    ((s.g a).toNat % n = 0 → Lands s .write (s.g a) n u r →
      let v := u.drainAll
      let out := Host.Outcome.next ((v.issueStore (scalarPending v r n (v.g d))).retire e)
      (n = 4 → exec (.strel32 e d a) s = out) ∧ (n = 8 → exec (.strel64 e d a) s = out)) ∧
    (s.access (s.g a) 1 .probe = (u, .ok r) →
      exec (.watch e a) s = .next (((u.current r.place.line 256).modHart fun h => { h with watch := some ⟨r.place.line, false⟩ }).retire e)) ∧
    (s.hart.watch = none → exec (.waitw e b) s = .next (s.retire e)) ∧
    (∀ w, s.hart.watch = some w → (w.fired = true ∨ s.preemptDue = true ∨ ∃ t, s.hart.waiting = .until t ∧ t ≤ s.pkg.cycle / 256) →
      exec (.waitw e b) s = .next ((s.modHart fun h => { h with watch := none }).retire e)) ∧
    (∀ w t, s.hart.watch = some w → w.fired = false → s.preemptDue = false → s.hart.waiting = .until t → s.pkg.cycle / 256 < t →
      exec (.waitw e b) s = .next s)

/-- R178, R317, R318, R383, R424: the fences perform the hart's earlier stores of their kind, after which those left are some of the earlier ones,
in order, and of that kind only such as wait for a host link or an entry in use; FENCE.SC then waits for the next tick boundary. -/
def Obligations.FenceResults : Prop :=
  ∀ (e : Bool) (sc : BitVec 3) (s : State), Settled s →
    (∀ sel : Pending → Bool, (∀ q ∈ (s.drain sel).hart.stores, sel q = false ∨ s.stuck q = true) ∧ (s.drain sel).hart.stores.Sublist s.hart.stores) ∧
    ((∀ q ∈ s.hart.stores, s.stuck q = false) → s.drainAll.hart.stores = []) ∧
    exec (.fenceSv e) s = .next ((s.drain fun q => !q.vector).retire e) ∧
    exec (.fenceVs e) s = .next ((s.drain fun q => q.vector).retire e) ∧
    exec (.fenceVv e) s = .next ((s.drain fun q => q.vector).retire e) ∧
    exec (.fenceMem e sc) s = .next (s.drainAll.synced.retire e) ∧
    (∀ t, s.hart.waiting = .boundary t → t < s.pkg.cycle / 256 → exec (.fenceSc e sc) s = .next (s.synced.retire e)) ∧
    (∀ t, s.hart.waiting = .boundary t → ¬ t < s.pkg.cycle / 256 → exec (.fenceSc e sc) s = .next s) ∧
    ((∀ t, s.hart.waiting ≠ .boundary t) →
      exec (.fenceSc e sc) s = .next (s.drainAll.modHart fun h => { h with waiting := .boundary (s.pkg.cycle / 256) }))

/-- R133 to R135, R58, R59: VCONF, VSETL and VGRANT. -/
def Obligations.VectorConfiguration : Prop :=
  ∀ (e : Bool) (d a : GReg) (b : BitVec 7) (s : State),
    let r := s.hart.regs
    let n := 2 ^ b.toNat
    let top (vt : BitVec 7) (n : Nat) := s.hart.rows / n * 256 / vtBytes vt
    let vl := min (s.g a).toNat (min (top b r.vnreg) (top b r.vnreg * s.grantK / 4))
    (s.hart.region.isOpen = false → n ≤ s.hart.rows → s.hart.matrix = [] → (∀ g ∈ s.hart.gathers, g.performed ≠ none) →
      exec (.vconf e b) s = Wrote s e { r with vnreg := n, vrf := [], vpois := [], masks := [], vl := min r.vl (top r.vt n) }) ∧
    ((s.hart.region.isOpen = true ∨ s.hart.rows < n) → Quiet s → exec (.vconf e b) s = .next (s.deliver (.own 0x03 (BitVec.ofNat 64 n)))) ∧
    exec (.vsetl e d a b) s = Wrote s e (Regs.setG { r with vt := b, vl := vl } d (BitVec.ofNat 64 vl)) ∧
    exec (.vgrant e d) s = Wrote s e (r.setG d (BitVec.ofNat 64 (top r.vt r.vnreg * s.grantK / 4)))

/-- R136, R138, R143, R144, R149, R150, R156: what the integer vector instructions, VBCAST, the integer compares and the mask
instructions write, and that they write nothing else; a vector member that a pre-emption stops part-way leaves its first elements written and
ELIX where it stops. Where it stops is the model's own list (log 19). -/
def Obligations.IntegerVectorResults : Prop :=
  (∀ (i : Instr) (s : State) (m : Bool) (r : ElemRule), integerVector s i = some (m, r) → s.hart.cut = none → Clean s.hart m r.src →
    WritesElements i s r) ∧
  (∀ (i : Instr) (s : State) (m : Bool) (r : MaskRule), maskVector s i = some (m, r) → s.hart.cut = none → Clean s.hart m r.src →
    WritesMask i s r) ∧
  (∀ (i : Instr) (s : State) (m : Bool) (r : ElemRule) (c : Nat), integerVector s i = some (m, r) → s.hart.cut = some c → s.hart.elix ≤ c →
    c < s.hart.regs.vl → Clean s.hart m r.src → StopsAt i s r c)

/-- R136, R139, R143, R145 to R149: what the floating-point vector instructions and compares write, in the format that VT names; at VT
width 64 each raises the illegal-register trap, before effect. VFEXP2 and VFLOG2 are rounded from 320 fraction bits (log 10, DEDUCED). -/
def Obligations.FloatVectorResults : Prop :=
  (∀ (i : Instr) (s : State) (f : Fmt) (m : Bool) (r : ElemRule), floatOf s.hart.regs.vt = some f → floatVector s f i = some (m, r) →
    s.hart.cut = none → Clean s.hart m r.src → WritesElements i s r) ∧
  (∀ (i : Instr) (s : State) (f : Fmt) (m : Bool) (r : MaskRule), floatOf s.hart.regs.vt = some f → floatMask s f i = some (m, r) →
    s.hart.cut = none → Clean s.hart m r.src → WritesMask i s r) ∧
  (∀ (i : Instr) (s : State) (f : Fmt), floatOf s.hart.regs.vt = none → ((floatVector s f i).isSome = true ∨ (floatMask s f i).isSome = true) → Quiet s →
    ∃ u : State, exec i s = .next (u.deliver { cause := 0x03, tval := BitVec.ofNat 64 (((encode i).getD 0).toNat + s.hart.member % 8 * 2 ^ 32) }) ∧
      u = { s with hart := { s.hart with issued := u.hart.issued } })

/-- R113, R114, R116, R117, R151, R152: a conversion of types that R152 allows writes each active element converted. A float becomes the float
that the mode rounds it to, beyond the largest finite value as R117 says, an infinity infinite (in E4M3 the largest finite value), a NaN the
canonical NaN; an integer becomes a float the same way; a float becomes the integer that the mode rounds it to, held to the target's range, an
infinity the end of the range, a NaN 0; an integer becomes an integer held to the target's range. That an integer past the largest finite float
follows R117 and not the row of R116 is the model's choice (log 60, DESIGN CHOICE). -/
def Obligations.ConversionResults : Prop :=
  (∀ (i : Instr) (s : State) (c : Conversion) (src dst : Kind), conversion i = some c →
    kindOf c.source s.hart.regs.vt = some src → kindOf c.target c.b = some dst → c.legal s → s.hart.cut = none →
    Clean s.hart c.m (c.rule s src dst).src → WritesElements i s (c.rule s src dst)) ∧
  (∀ (f g : Fmt) (rm rnd x : Nat), f ∈ formats → g ∈ formats → rm ≤ 4 → rnd < 65536 →
    (f.decode x = .nan → convert (.float f) (.float g) rm rnd x = g.nan) ∧
    (∀ neg, f.decode x = .inf neg → convert (.float f) (.float g) rm rnd x = withSign g neg (infinite g)) ∧
    (∀ neg m e v, f.decode x = .num neg m e → units (f.decode x) = some v → Encoded g rm rnd neg v (convert (.float f) (.float g) rm rnd x))) ∧
  (∀ (f : Fmt) (n rm rnd x : Nat), f ∈ formats → (n = 8 ∨ n = 16 ∨ n = 32 ∨ n = 64) → rm ≤ 4 → rnd < 65536 →
    (f.decode x = .nan → convert (.float f) (.int n) rm rnd x = 0) ∧
    (∀ neg, f.decode x = .inf neg → convert (.float f) (.int n) rm rnd x = if neg then 2 ^ (n - 1) else 2 ^ (n - 1) - 1) ∧
    (∀ v, units (f.decode x) = some v → ∃ y : Int, Rounded wholes evenWholes rm rnd v (y * 2 ^ 149) ∧
      convert (.float f) (.int n) rm rnd x = cut n (saturate n y)) ∧
    Encoded f rm rnd (decide (signed n x < 0)) (signed n x * 2 ^ 149) (convert (.int n) (.float f) rm rnd x)) ∧
  (∀ (n k rm rnd x : Nat), 0 < n → 0 < k → convert (.int n) (.int k) rm rnd x = cut k (saturate k (signed n x)))

/-- R122 to R124, R153: a residue instruction whose inputs are valid writes the residue result and leaves ASTAT alone; an invalid input at
element 0 gives the invalid result and sets RIV, and with RIE set it traps there, and sets RIV. That a residue trap leaves RIV set is the
model's reading (log 24). -/
def Obligations.ResidueResults : Prop :=
  ∀ (i : Instr) (s : State) (r : Residue), residue i = some r → vtBytes s.hart.regs.vt = 4 →
    let src (j : Nat) := (r.a.toNat, 4, j) :: (r.b.map fun b => (b.toNat, 4, j)).toList
    let val (j : Nat) := r.f (s.hart.elem r.a.toNat 4 j) (s.hart.elem ((r.b.map (·.toNat)).getD 0) 4 j)
    Clean s.hart r.m src → s.hart.cut = none →
    ((∀ j, s.hart.active r.m j = true → (val j).isSome = true) →
      WritesElements i s ⟨r.e, r.d, 4, src, atActive s.hart r.m fun j => (val j).getD 0⟩) ∧
    (s.hart.elix = 0 → s.hart.regs.vl = 1 → s.hart.active r.m 0 = true → val 0 = none →
      (s.hart.regs.astat.getLsbD 2 = false → ∃ t : State, exec i s = .next (t.retire r.e) ∧ t.hart.elem r.d.toNat 4 0 = r.bad ∧
        t.hart.regs.astat = s.hart.regs.astat ||| 2 ∧ t.mem = s.mem ∧ t.hart.regs.gpr = s.hart.regs.gpr ∧ t.hart.regs.masks = s.hart.regs.masks) ∧
      (s.hart.regs.astat.getLsbD 2 = true → Quiet s → s.hart.region.isOpen = false →
        ∃ t : State, exec i s = .next (t.trapPath (.own 0x14 0)) ∧ t.hart.regs = { s.hart.regs with astat := s.hart.regs.astat ||| 2 }))

/-- R126, R127, R150, R154, R155: what the reductions, MPOP and MFIRST leave in their scalar register, from element 0 on, with no poisoned
element consumed. -/
def Obligations.ReductionResults : Prop :=
  (∀ (i : Instr) (s : State) (e : Bool) (d : GReg) (a : Option VReg) (m : Bool) (v : Word), reduced s i = some (e, d, a, m, v) → s.hart.elix = 0 → s.hart.cut = none →
    (∀ x, a = some x → ∀ j ∈ act s m, s.hart.elemPoison x.toNat (vtBytes s.hart.regs.vt) j = false) → exec i s = Wrote s e (s.hart.regs.setG d v)) ∧
  (∀ (i : Instr) (s : State) (f : Fmt) (e : Bool) (d : GReg) (a : VReg) (m : Bool) (v : Nat), floatOf s.hart.regs.vt = some f →
    floatReduced s f i = some (e, d, a, m, v) → s.hart.elix = 0 → s.hart.cut = none →
    (∀ j ∈ act s m, s.hart.elemPoison a.toNat (vtBytes s.hart.regs.vt) j = false) → exec i s = Wrote s e (s.hart.regs.setG d (BitVec.ofNat 64 v)))

/-- R156: what the permutes write, from the values before the instruction; VEXTR reads one element whatever its activity. -/
def Obligations.PermuteResults : Prop :=
  (∀ (i : Instr) (s : State) (m : Bool) (r : ElemRule), permute s i = some (m, r) → s.hart.elix = 0 → s.hart.cut = none → Clean s.hart m r.src →
    WritesElements i s r) ∧
  (∀ (e : Bool) (d : GReg) (a : VReg) (b : GReg) (m : Bool) (s : State),
    let k := (s.g b).toNat
    (s.hart.regs.vl ≤ k → exec (.vextr e d a b m) s = Wrote s e (s.hart.regs.setG d 0)) ∧
    (k < s.hart.regs.vl → s.hart.elemPoison a.toNat (vtBytes s.hart.regs.vt) k = false →
      exec (.vextr e d a b m) s = Wrote s e (s.hart.regs.setG d (BitVec.ofInt 64 (signed (bits s) (s.hart.elem a.toNat (vtBytes s.hart.regs.vt) k))))))

/-- R48, R138, R152, R154, R155, R226: a vector member that consumes a poisoned element traps with cause 0x1A and TVAL 0. One that goes element by
element traps at the first such active element, with ELIX there and the elements below it done: an integer or float member, a compare, a conversion
between equal widths, a residue instruction, a reduction, whose partial result stands in its scalar register, and a vector store, whose stores
below it are issued. One that runs to completion traps before effect: a permute, VEXTR, VFSUMT, a conversion between unequal widths. -/
def Obligations.PoisonedElementTraps : Prop :=
  ∀ (i : Instr) (s : State) (j : Nat), Quiet s → s.hart.region.isOpen = false → s.hart.cut = none →
    (∀ m r, (integerVector s i = some (m, r) ∨ ∃ f, floatOf s.hart.regs.vt = some f ∧ floatVector s f i = some (m, r)) →
      FirstPoisoned s.hart m r.src j → PoisonedAt i s j fun u => Written s u r j) ∧
    (∀ m r, (maskVector s i = some (m, r) ∨ ∃ f, floatOf s.hart.regs.vt = some f ∧ floatMask s f i = some (m, r)) →
      FirstPoisoned s.hart m r.src j → PoisonedAt i s j fun u => WrittenMask s u r j) ∧
    (∀ c src dst, conversion i = some c → kindOf c.source s.hart.regs.vt = some src → kindOf c.target c.b = some dst → c.legal s →
      (vtBytes s.hart.regs.vt = vtBytes c.b → FirstPoisoned s.hart c.m (c.rule s src dst).src j →
        PoisonedAt i s j fun u => Written s u (c.rule s src dst) j) ∧
      (vtBytes s.hart.regs.vt ≠ vtBytes c.b → ¬ Clean s.hart c.m (c.rule s src dst).src → exec i s = .next (s.deliver (.own 0x1A 0)))) ∧
    (∀ r : Residue, residue i = some r → vtBytes s.hart.regs.vt = 4 →
      let src (k : Nat) := (r.a.toNat, 4, k) :: (r.b.map fun b => (b.toNat, 4, k)).toList
      let val (k : Nat) := r.f (s.hart.elem r.a.toNat 4 k) (s.hart.elem ((r.b.map (·.toNat)).getD 0) 4 k)
      FirstPoisoned s.hart r.m src j → (∀ k, s.hart.elix ≤ k → k < j → s.hart.active r.m k = true → (val k).isSome = true) →
      PoisonedAt i s j fun u => Written s u ⟨r.e, r.d, 4, src, atActive s.hart r.m fun k => (val k).getD 0⟩ j) ∧
    (∀ e d a m v p, reduced s i = some (e, d, some a, m, v) → s.hart.elix = 0 → FirstPoisoned s.hart m (fun k => [(a.toNat, vtBytes s.hart.regs.vt, k)]) j →
      reduced (s.modRegs fun r => { r with vl := j }) i = some (e, d, some a, m, p) →
      PoisonedAt i s j fun u => u.hart.regs = s.hart.regs.setG d p) ∧
    (∀ f e d a m v p, floatOf s.hart.regs.vt = some f → floatReduced s f i = some (e, d, a, m, v) → s.hart.elix = 0 →
      FirstPoisoned s.hart m (fun k => [(a.toNat, vtBytes s.hart.regs.vt, k)]) j →
      floatReduced (s.modRegs fun r => { r with vl := j }) f i = some (e, d, a, m, p) →
      (i = .vfsumt e d a m → exec i s = .next (s.deliver (.own 0x1A 0))) ∧
      (i = .vfrmax e d a m → PoisonedAt i s j fun u => u.hart.regs = s.hart.regs.setG d (BitVec.ofNat 64 p)) ∧
      (i = .vfsumo e d a m → PoisonedAt i s j fun u =>
        u.hart.regs = s.hart.regs.setG d (if ∃ k, k < j ∧ s.hart.active m k = true then BitVec.ofNat 64 p else 0x8000000000000000))) ∧
    (∀ m r, permute s i = some (m, r) → s.hart.elix = 0 → ¬ Clean s.hart m r.src → exec i s = .next (s.deliver (.own 0x1A 0))) ∧
    (∀ e d a b m, i = .vextr e d a b m → (s.g b).toNat < s.hart.regs.vl → s.hart.elemPoison a.toNat (vtBytes s.hart.regs.vt) (s.g b).toNat = true →
      exec i s = .next (s.deliver (.own 0x1A 0))) ∧
    (∀ v : VMove, move i = some v → v.store = true → v.legal s i → (s.hart.elements.filter (s.hart.active v.m)) ≠ [] →
      let o := s.atIssue (s.g v.a) (s.g v.b)
      let s1 := (s.atIssue (s.g v.a) (if v.minor = 3 then s.g v.b else 0)).1
      ∀ (s2 : State) b (u : State) rs, s1.baseOf o.2.1 = (s2, b) →
        let w := v.sweep s1 o.2.1 o.2.2 b
        (caughtUp s2 w).checkAll w w.elems = (u, rs) → FailsPoisoned rs j → Quiet u →
        exec i s = .next (((v.issues w u ((rs.filterMap gotOf).filter fun g => decide (g.index < j))).modHart fun h => { h with elix := j }).deliver (.own 0x1A 0)))

/-- R157 to R163, R165, R176, R177: a vector load whose active elements all pass their checks, and which no held store of the hart stands before,
writes each of them to its register, or is performed later and is then the hart's youngest late load; with none active it has no effect. Vector
loads that it may overlap are performed first. Whether it is performed later is the model's own list (log 8). -/
def Obligations.VectorLoadResults : Prop :=
  ∀ (i : Instr) (s : State) (v : VMove), move i = some v → v.store = false → v.legal s i → s.hart.cut = none →
    let o := s.atIssue (s.g v.a) (s.g v.b)
    let s1 := (s.atIssue (s.g v.a) (if v.minor = 1 then s.g v.b else 0)).1
    ((s.hart.elements.filter (s.hart.active v.m)) = [] → exec i s = .next (s1.retire v.e)) ∧
    (∀ (s2 : State) b (u : State) (gs : List Got), (s.hart.elements.filter (s.hart.active v.m)) ≠ [] → s1.baseOf o.2.1 = (s2, b) →
      Passes (caughtUp s2 (v.sweep s1 o.2.1 o.2.2 b)) (v.sweep s1 o.2.1 o.2.2 b) u gs → u.hart.heldAll = [] →
      (u.hold.headD false = false → exec i s = .next ((({ u with hold := u.hold.drop 1 } : State).modHart fun h =>
        gs.foldl (fun h g => h.setElem v.d.toNat (vtBytes s.hart.regs.vt) g.index g.value) h).retire v.e)) ∧
      (u.hold.headD false = true → exec i s = .next ((({ u with hold := u.hold.drop 1 } : State).modHart fun h =>
        { h with late := h.late ++ [⟨v.d.toNat, v.minor, s.hart.regs.vt, b.fmt, s.hart.seed,
          gs.map fun g => ⟨g.index, g.va.toNat, g.high, g.place, g.mx.map (·.2), g.via⟩⟩] }).retire v.e)))

/-- R157 to R163: a vector store whose active elements all pass their checks issues its elements' stores in order, while no older trim is
undecided; of a VSCTU's elements with one address, one that the device chooses. Which element of one address stays is a free choice (log 5). -/
def Obligations.VectorStoreResults : Prop :=
  ∀ (i : Instr) (s : State) (v : VMove), move i = some v → v.store = true → v.legal s i → Settled s → s.hart.cut = none →
    let o := s.atIssue (s.g v.a) (s.g v.b)
    let s1 := (s.atIssue (s.g v.a) (if v.minor = 3 then s.g v.b else 0)).1
    ((s.hart.elements.filter (s.hart.active v.m)) = [] → exec i s = .next (s1.retire v.e)) ∧
    (∀ (s2 : State) b (u : State) (gs : List Got), (s.hart.elements.filter (s.hart.active v.m)) ≠ [] → s1.baseOf o.2.1 = (s2, b) →
      let w := v.sweep s1 o.2.1 o.2.2 b
      Passes (caughtUp s2 w) w u gs → Settled u → exec i s = .next ((v.issues w u gs).retire v.e))

/-- R181 to R183, R187, R199 to R203: the members of an exit region with nothing older undecided: VXARM opens a region, VXCLR closes it,
VXWAIT ends the strip, BXANY and BXNONE end the strip or leave it, and VXLEN and VXFX read. VXIT lowers BX to its candidate, which will suppress
the trims of its strip, and outside a region raises the illegal-register trap. Whether a test resolves at once is the model's own list (log 16). -/
def Obligations.ExitRegionResults : Prop :=
  ∀ (e m : Bool) (d : GReg) (a : MReg) (o : BitVec 11) (s : State),
    let exits := s.hart.regs.bx ≠ Word.ones
    let next := if s.hart.region.isOpen = false then s
      else if exits then s.modHart fun h => { h with region := { h.region with exited := true, resolved := true } }
      else s.modHart fun h => { h with region := { h.region with resolved := false }, regs := { h.regs with bx := Word.ones, fx := Word.ones } }
    let closed (h : Hart) : Hart := { h with region := ⟨false, false, false, false, [], []⟩, regs := { h.regs with bx := Word.ones, fx := Word.ones } }
    let tested (s : State) : State := { s with unresolved := s.unresolved.drop 1, hart := { s.hart with
      region := { s.hart.region with pending := s.hart.region.pending || s.unresolved.headD false } } }
    let found (s : State) (c : Nat) : State := { s with hart := { s.hart with
      regs := { s.hart.regs with bx := BitVec.ofNat 64 (min c s.hart.regs.bx.toNat) }
      region := { s.hart.region with trims := s.hart.region.trims.map fun t => if t.held then t else { t with suppressed := true } } } }
    exec (.vxlen e d m) s = Wrote s e (s.hart.regs.setG d (BitVec.ofNat 64 (min s.hart.regs.vl s.hart.regs.bx.toNat))) ∧
    exec (.vxfx e d m) s = Wrote s e (s.hart.regs.setG d s.hart.regs.fx) ∧
    (s.hart.region.isOpen = true → (∀ j, s.hart.active m j = true → s.hart.regs.mask a.toNat j = false) →
      exec (.vxit e a m) s = .next ((tested s).retire e)) ∧
    (∀ c, s.hart.region.isOpen = true → s.hart.active m c = true → s.hart.regs.mask a.toNat c = true →
      (∀ j, j < c → s.hart.active m j = true → s.hart.regs.mask a.toNat j = false) → exec (.vxit e a m) s = .next ((tested (found s c)).retire e)) ∧
    (Quiet s → s.hart.region.isOpen = false → exec (.vxit e a m) s = .next (s.deliver
      { cause := 0x03, tval := BitVec.ofNat 64 (((encode (.vxit e a m)).getD 0).toNat + s.hart.member % 8 * 2 ^ 32) })) ∧
    (Settled s →
      exec (.vxarm e m) s = .next ((s.modHart fun h => { closed h with region := ⟨true, false, false, false, [], []⟩ }).retire e) ∧
      exec (.vxclr e m) s = .next ((s.modHart closed).retire e) ∧
      exec (.vxwait e m) s = .next ((s.modHart fun h => { h with region := { h.region with resolved := h.region.resolved || h.region.isOpen } }).retire e) ∧
      exec (.bxany e o) s = (if exits then Transfers next (away s o.toInt) else .next (next.retire e)) ∧
      exec (.bxnone e o) s = (if exits then .next (next.retire e) else Transfers next (away s o.toInt)))

namespace Sys2Proof.Claims
open Sys2Proof.Machine

/-- The member completes with its effects as in `t`: end processing follows (R44, R105). -/
def Completes (i : Instr) (s : State) (e : Bool) (t : State) : Prop := exec i s = .next (t.retire e)

/-- The member raises a trap, which is delivered once the vector loads that the hart still has under way are performed (R70, R177). -/
def Raises (i : Instr) (s : State) (t : Trap) : Prop := exec i s = .next (s.performLate.deliver t)

/-- The pass of a VSEQ (R354, R355): its base, and its elements with their addresses. -/
def rowSweep (d : VReg) (h : Hart) (planes : List Word) (table : Word) (base : Base) (elems : List (Nat × Except Trap (Word × Bool))) : Sweep :=
  { store := false, indexed := false, reg := d.toNat, minor := 0, vt := h.regs.vt, vl := h.regs.vl, seed := h.seed, aligned := false
    planes := planes, base := base, baseVa := table, prior := h.m15only, elems := elems }

/-- The rotated pair that element j belongs to (R362): the result for j, from the values before the instruction. -/
def rotated (h : Hart) (a b : VReg) (j : Nat) : Nat :=
  let i := j / 2 * 2
  let x := fp32.decode (h.elem a.toNat 4 i)
  let y := fp32.decode (h.elem a.toNat 4 (i + 1))
  let sine := fp32.decode (fp32.sinCos (fp32.decode (h.elem b.toNat 4 i))).1
  let cosine := fp32.decode (fp32.sinCos (fp32.decode (h.elem b.toNat 4 i))).2
  fp32.encode 0 0 (if j % 2 = 0 then (x.mul cosine).add 0 (y.mul sine).neg else (x.mul sine).add 0 (y.mul cosine))

/-- The rule of VRANG at a position (R361). -/
def angles (s : State) (e : Bool) (d a : VReg) (m : Bool) (p : Nat) : ElemRule :=
  ⟨e, d, 4, fun j => [(a.toNat, 4, j)], atActive s.hart m fun j =>
    fp32.encode 0 0 ((fp32.decode (fp32.encode 0 0 (.num false p 0))).mul (fp32.decode (s.hart.elem a.toNat 4 j)))⟩

/-- Tile k is claimed by the hart (R232). -/
def Holds (s : State) (k : TReg) : Prop := (s.tile k.toNat).claim = some s.hart.id

/-- Tile k is claimed by the hart and, once the queue has run, shaped as `w` (R232, R236). -/
def Shaped (s : State) (k : TReg) (w : Word) : Prop := Holds s k ∧ s.shapeAhead k.toNat = some (some w)

/-- A matrix member may fork: nothing older is undecided and the queue has room (R235, R239). -/
def Room (s : State) : Prop := Settled s ∧ s.hart.matrix.length < 16

/-- An operation with scalar operands alone, and one with the first `n` bytes of vector register `v` (R236, R237). -/
def plain (s : State) (kind : MatKind) (k : TReg) : MatOp :=
  { kind := kind, tile := k.toNat, vec := [], vpois := [], pieces := [], dirty := [], via := [], owner := s.hart.ctx, seed := s.hart.rseed
    addr := 0, pitch := 0, done := 0, upto := 0 }
def withVector (s : State) (kind : MatKind) (k : TReg) (v : VReg) (n : Nat) : MatOp :=
  { plain s kind k with
    vec := Sparse.getList zeroByte s.hart.regs.vrf (v.toNat * s.hart.rb) n
    vpois := (List.range n).map fun i =>
      Sparse.anyIn s.hart.regs.vpois ((v.toNat * s.hart.rb + i) / 8 * 8) ((v.toNat * s.hart.rb + i) / 8 * 8 + 8) }

/-- The fields of a shape word (R229). -/
def fmtOf (w : Word) : Nat := w.toNat / 2 ^ 20 % 16
def rowBytesOf (w : Word) : Nat := w.toNat / 2 ^ 10 % 1024
def rowsOf (w : Word) : Nat := w.toNat % 1024

/-- What a tile's memory asks of its pages (R242). -/
def tileWant (base : Base) (fmt : Nat) : Want :=
  match base with
  | .page f g => ⟨false, f, g, !(f == 0 || (f == fmt && fmt != 11)) || (isMx fmt && g != 0)⟩
  | .window => ⟨true, 0, 0, false⟩
  | _ => ⟨false, 0, 0, false⟩

/-- A transfer between a tile and memory, all of whose units from ELIX on pass their checks, forks with their pieces, its address and its pitch
(R242, R244). -/
def TransferForks (i : Instr) (s : State) (e : Bool) (kind : MatKind) (k : TReg) (addr pitch : Word) (write rows : Bool) (align fmt : Nat)
    (units : List (Nat × Word × Unit')) : Prop :=
  ∀ n va s1 base s2 ps, (units.head?.map fun u => (u.1, u.2.1)) = some (n, va) → s.baseOf va = (s1, base) →
    s1.checkUnits write rows (tileWant base fmt) align units = (s2, none, ps) →
    Completes i s e (s2.forkMatrix { plain s2 kind k with
      addr := addr, pitch := pitch, done := n, upto := n + units.length
      pieces := ps.map fun p => (p.1, p.2.1.place, p.2.2), dirty := ps.flatMap fun p => p.2.1.dirty, via := ps.flatMap fun p => p.2.1.via })

/-- The accumulator format of a row operation whose stationary tile has format `fmt` (R247): forms with a vector operand, with a
scratchpad operand, and MRWI. -/
def accOfVector (fmt : Nat) : Option Nat := if fmt = 2 ∨ fmt = 4 ∨ fmt = 5 then some 1 else none
def accOfPad (fmt : Nat) : Option Nat := if fmt = 2 ∨ fmt = 4 ∨ fmt = 5 ∨ fmt = 6 ∨ fmt = 7 then some 1 else if fmt = 8 then some 10 else none
def accOfResidue (fmt : Nat) : Option Nat := if fmt = 8 then some 10 else none

/-- The number in element (r, c) of a tile of shape `w` (R231). -/
def tileElem (t : Tile) (w : Word) (r c : Nat) : Nat :=
  if fmtOf w = 7 then (t.byte (r * rowBytesOf w + c / 2)).toNat / (if c % 2 = 0 then 1 else 16) % 16
  else bytesToNat ((List.range (shapeElem w)).map fun i => t.byte (r * rowBytesOf w + c * shapeElem w + i))

/-- The number in element c of a row's bytes in a tile format. -/
def rowElem (fmt : Nat) (bytes : List Byte) (c : Nat) : Nat :=
  if fmt = 7 then (bytes.getD (c / 2) 0).toNat / (if c % 2 = 0 then 1 else 16) % 16
  else bytesToNat ((bytes.drop (c * (tileBits fmt / 8))).take (tileBits fmt / 8))

/-- The power of two of one unit of a block's kept integers (R128): none where every value is 0. P bits are kept below the exponent of the largest
magnitude, which is that of the subnormals at least; of E2M1 everything. -/
def grain (fmt : Nat) (f : Fmt) (vs : List FVal) : Option Int :=
  let top := (vs.map fun v => ((units v).getD 0).natAbs).foldl max 0
  if top = 0 then none
  else some (if fmt = 7 then -1 else max (Int.ofNat (Nat.log2 top) - 149) (1 - f.bias) - ((if fmt = 2 then 10 else 7) - 1))

/-- The integer kept of a value: truncated toward zero (R128). -/
def keptInt (g : Int) (v : FVal) : Int := ((units v).getD 0).tdiv (2 ^ (g + 149).toNat)

/-- The sum of a block of A and B values scaled by 2^k, rounded once into FP32 (R128); `k` is none for an MX scale of 0xFF. -/
def blockValue (fmt : Nat) (f : Fmt) (k : Option Int) (a b : List FVal) : Nat :=
  match k with
  | none => 0x7FC00000
  | some k =>
    if (a ++ b).any fun v => (units v).isNone then 0x7FC00000
    else match grain fmt f a, grain fmt f b with
      | some p, some q =>
        let sum := ((a.zip b).map fun x => keptInt p x.1 * keptInt q x.2).sum
        if sum = 0 then 0 else fp32.encode 0 0 (.num (decide (sum < 0)) sum.natAbs (p + q + k))
      | _, _ => 0

/-- An FP32 addition rounded with RNE. -/
def plus (x y : Nat) : Nat := fp32.encode 0 0 ((fp32.decode x).add 0 (fp32.decode y))

/-- The numbers that some binary tree over the terms of a list gives (R129). -/
inductive Combined : List Nat → Nat → Prop
  | one (x : Nat) : Combined [x] x
  | two {xs ys zs : List Nat} {a b : Nat} : Combined xs a → Combined ys b → zs.Perm (xs ++ ys) → Combined zs (plus a b)

/-- A NaN result is the canonical NaN. -/
def canonical (x : Nat) : Nat := if (fp32.decode x).isNan then 0x7FC00000 else x

/-- What a row operation reads besides its tiles (R247, R248): its A row's bytes and scales. -/
def aBytes (s : State) (op : MatOp) (stream : Bool) : List Byte :=
  if stream then (op.pieces.filter fun p => decide (p.1 < 0x8000)).flatMap fun p => s.peekList p.2.1 p.2.2 else op.vec
def aScales (s : State) (op : MatOp) (stream : Bool) : List Nat :=
  if stream then (op.pieces.filter fun p => decide (0x8000 ≤ p.1)).map fun p => (s.peek p.2.1).toNat else []

/-- The block sums of row `n` of the stationary tile with the A row (R249). -/
def blockSums (fmt : Nat) (f : Fmt) (w : Word) (a : List Byte) (scales : List Nat) (t : Tile) (n : Nat) : List Nat :=
  let av := (List.range (shapeCols w)).map fun c => f.decode (rowElem fmt a c)
  let bv := (List.range (shapeCols w)).map fun c => f.decode (tileElem t w n c)
  (List.range ((shapeCols w + 31) / 32)).map fun b =>
    let sa := scales.getD b 0
    let sb := (t.byte (0x8000 + n * (shapeCols w / 32) + b)).toNat
    let k : Option Int := if fmt ≠ 6 ∧ fmt ≠ 7 then some 0 else if sa = 255 ∨ sb = 255 then none else some (Int.ofNat sa + Int.ofNat sb - 254)
    blockValue fmt f k ((av.drop (32 * b)).take 32) ((bv.drop (32 * b)).take 32)

/-- No word that a row operation fetches is poisoned (R250). -/
def RowClean (s : State) (op : MatOp) (stream : Bool) (w cw : Word) (st y : Nat) : Prop :=
  (stream = true → ∀ p ∈ op.pieces, s.anyPoison p.2.1 p.2.2 = false) ∧ (stream = false → ∀ b ∈ op.vpois, b = false) ∧
  (∀ k, k < rowsOf w * rowBytesOf w → (s.tile st).poisoned k = false) ∧
  ((fmtOf w = 6 ∨ fmtOf w = 7) → ∀ k, k < rowsOf w * (shapeCols w / 32) → (s.tile st).poisoned (0x8000 + k) = false) ∧
  ∀ k, k < rowBytesOf cw → (s.tile op.tile).poisoned (y * rowBytesOf cw + k) = false

/-- A row operation as its fork leaves it: legal shapes that agree, and a whole A row (R229, R247). -/
def RowReady (s : State) (op : MatOp) (stream : Bool) (w cw : Word) (st y : Nat) : Prop :=
  (s.tile st).shape = some w ∧ (s.tile op.tile).shape = some cw ∧ st ≠ op.tile ∧ shapeLegal w = true ∧ shapeLegal cw = true ∧
  accOfPad (fmtOf w) = some (fmtOf cw) ∧
  rowBytesOf cw = 4 * rowsOf w ∧ y < rowsOf cw ∧ (aBytes s op stream).length = rowBytesOf w ∧ (stream = false → op.vpois.length = op.vec.length)

/-- One element as TCVT converts it (R116, R123, R246). -/
def converted (src dst rm rnd x : Nat) : Nat :=
  let kind (fmt : Nat) : Kind := match tileFloat fmt with
    | some f => .float f
    | none => .int (if fmt = 10 then 32 else tileBits fmt)
  if src = 10 ∧ resValid x = false then 0
  else
    let v := if src = 10 then cut 32 (resInt x) else x
    if dst = 10 then (resOfSigned (signed 32 (convert (kind src) (.int 32) rm rnd v))).getD 0xFFFFFFFF else convert (kind src) (kind dst) rm rnd v

/-- Byte k of the image of R244. -/
def imageOf (t : Tile) (k : Nat) : Byte :=
  if k < 8 then BitVec.ofNat 8 ((t.shape.getD 0).toNat / 256 ^ k) else if k < 0x100 then 0
  else if k < 0x8100 then t.byte (k - 0x100) else t.byte (k - 0x8100 + 0x8000)

/-- The pieces of a transfer lie apart in the tile or the image. -/
def PiecesApart (op : MatOp) : Prop := op.pieces.Pairwise fun p q => p.1 + p.2.2 ≤ q.1 ∨ q.1 + q.2.2 ≤ p.1

/-- The pieces of a transfer that stores lie apart in plain memory or the scratchpads of teams, no host link under them is lost, and no store of
any hart is under way. -/
def StoresApart (s : State) (op : MatOp) : Prop :=
  op.pieces.Pairwise (fun p q => ∀ i j, i < p.2.2 → j < q.2.2 → p.2.1.add i ≠ q.2.1.add j) ∧
  (∀ p ∈ op.pieces, s.linkLost p.2.1 = false ∧ match p.2.1 with
    | .phys a => ∀ n, n < p.2.2 → inScan (a + n) = false
    | .pad x _ => (s.team? x).isSome = true) ∧
  op.dirty = [] ∧ ∀ h ∈ s.harts, h.stores = []

/-- The operands of a row operation agree (R247). -/
def RowAgrees (s : State) (acc : Nat → Option Nat) (c st : TReg) (cw w : Word) (y : Nat) : Prop :=
  Shaped s c cw ∧ Shaped s st w ∧ acc (fmtOf w) = some (fmtOf cw) ∧ rowBytesOf cw = 4 * rowsOf w ∧ y < rowsOf cw ∧ c ≠ st

/-- The token register of a destination field (R258): none for g0. -/
def tokenReg (s : State) (d : GReg) : Nat := if d = 0 then 0 else s.hart.regs.phys d

/-- The copy that SXGO or SXGOM forks (R258, R259). -/
def forked (s : State) (multi : Bool) (d a : GReg) : Copy :=
  let c : Copy := ⟨s.nextId, s.hart.sx, s.hart.regs.vl, s.hart.regs.vt, s.hart.rseed,
    [s.hart.splane0, s.hart.splane1, s.hart.splane2, s.hart.splane3], multi, tokenReg s d, (s.g a).toNat % 65536, 0, 0, none, false, 0, false, false⟩
  if c.total = 0 then { c with ended := some 0 } else c

/-- The state after the fork: the token is pending, the copy is the hart's youngest, and the record of an ended copy with its token is
gone. -/
def afterFork (s : State) (multi : Bool) (d a : GReg) : State :=
  let token := tokenReg s d
  { s with nextId := s.nextId + 1, hold := s.hold.drop 1, hart := { s.hart with
    pend := if token = 0 then s.hart.pend else s.hart.pend ++ [token]
    copies := (s.hart.copies.filter fun x => !(x.delivered && (x.token == token || x.token == 0))) ++ [forked s multi d a] } }

/-- The status word of R76. -/
def status (code op count : Nat) : Word := BitVec.ofNat 64 (code * 2 ^ 48 + op % 65536 * 2 ^ 32 + count % 2 ^ 32)

end Sys2Proof.Claims

/-- R143, R352, R354, R355: VSEQ reads the rows that a table gives as an element pass; an element lies in the row of its position, at
rowbytes for each position and the column's place in it. R360 to R362: VRANG writes the products of the position and the elements, and sets
RIX for a position of 2^24 or more; VROT rotates each pair by its angle, whose sine and cosine are rounded from the model's own fraction
bits (log 10, DEDUCED). A missing page of a table, and the base of a VSEQ that resumes, follow log 32. -/
def Obligations.SequenceResults : Prop :=
  ∀ (e m : Bool) (d v x : VReg) (a b : GReg) (s : State), Settled s → s.hart.cut = none →
    let o := s.atIssue (s.g a) (s.g b)
    let h := o.1.hart
    let act := h.elements.filter (h.active m)
    let p := operand s b
    (act = [] → Completes (.vseq e d a b m) s e o.1) ∧
    (∀ i rest s1 base s2 elems (u : State) (gs : List Got), act = i :: rest → o.1.seqBase (ownOrdered 0) o.2.1 o.2.2 (if h.elix ≠ 0 ∨ h.m15only = true then (List.range h.regs.vl).filter (h.active m) else [i]) = (s1, base) →
      s1.seqElements (ownOrdered 0) o.2.1 o.2.2 h.regs.vt act = (s2, false, elems) →
      let w := rowSweep d h s2.hart.splanes o.2.1 base elems
      Passes (caughtUp s2 w) w u gs → u.hart.heldAll = [] → u.hold.headD false = false →
      Completes (.vseq e d a b m) s e
        (({ u with hold := u.hold.drop 1 } : State).modHart fun h => gs.foldl (fun h g => h.setElem d.toNat (vtBytes s.hart.regs.vt) g.index g.value) h)) ∧
    (∀ sel t packed vt i u y, s.seqElement sel t packed vt i = (u, .ok y) →
      ∃ s1 page rb fmt, s.seqLookup sel t (packed.toNat % 2 ^ 32 + i) = (s1, .ok (page, rb)) ∧
        y.1 = BitVec.ofNat 64 (page + packed.toNat / 2 ^ 63 * 16 * rb + (packed.toNat % 2 ^ 32 + i) % 16 * rb +
          packed.toNat / 2 ^ 32 % 2 ^ 31 * elemBits fmt vt / 8)) ∧
    (vtBytes s.hart.regs.vt = 4 → vtVariant s.hart.regs.vt = 0 →
      Clean s.hart m (fun j => [(v.toNat, 4, j)]) →
      (p < 2 ^ 24 → WritesElements (.vrang e d v b m) s (angles s e d v m p)) ∧
      (2 ^ 24 ≤ p → p < 2 ^ 32 → (∃ j, s.hart.active m j = true) →
        ∃ t : State, exec (.vrang e d v b m) s = .next (t.retire e) ∧ t.hart.regs.astat = s.hart.regs.astat ||| 1 ∧
          (∀ j y, (angles s e d v m p).new j = some y → t.hart.elem d.toNat 4 j = y % 2 ^ 32) ∧
          t.hart.regs.gpr = s.hart.regs.gpr ∧ t.hart.regs.masks = s.hart.regs.masks ∧ t.mem = s.mem) ∧
      (2 ^ 32 ≤ p → ∃ u : State, exec (.vrang e d v b m) s = .next (u.performLate.deliver (.own 0x13 (BitVec.ofNat 64 p))) ∧
        u = { s with hart := { s.hart with issued := u.hart.issued } })) ∧
    (vtBytes s.hart.regs.vt = 4 → vtVariant s.hart.regs.vt = 0 → s.hart.regs.vl % 2 = 0 → s.hart.elix % 2 = 0 →
      let src (j : Nat) := [(v.toNat, 4, j / 2 * 2), (x.toNat, 4, j / 2 * 2)]
      Clean s.hart m src → WritesElements (.vrot e d v x m) s ⟨e, d, 4, src, atActive s.hart m (rotated s.hart v x)⟩)

/-- R363 to R366: VGQ queues a gather with its operands, which the device performs at once or later; with the queue full the hart waits.
VGQPOP performs the head if it is not yet performed, writes its results, and takes it from the queue, the elements at and above its VL and every
other register as they were; with no gather queued it raises the illegal-register trap. When the gather is performed is left to the model's own list (log 27). -/
def Obligations.GatherQueueResults : Prop :=
  ∀ (e m : Bool) (d : VReg) (a b : GReg) (s : State), Settled s →
    let queued : State := { s with hold := s.hold.drop 1, hart := { s.hart with
      gathers := s.hart.gathers ++ [⟨s.hart.regs.vt, s.hart.regs.vl, s.hart.rseed, s.g a, s.g b, none, 0⟩] } }
    let room := s.hart.gathers.length < min 16 s.hart.grd.toNat
    (room → s.hold.headD false = true → Completes (.vgq e a b m) s e queued) ∧
    (room → s.hold.headD false = false → Completes (.vgq e a b m) s e (queued.performGather s.hart.gathers.length)) ∧
    (¬ room → exec (.vgq e a b m) s = .next s) ∧
    (s.hart.gathers = [] → Raises (.vgqpop e d m) s
      { cause := 0x03, tval := BitVec.ofNat 64 (((encode (.vgqpop e d m)).getD 0).toNat + s.hart.member % 8 * 2 ^ 32) }) ∧
    (∀ g rest j xs, s.hart.gathers ≠ [] → (s.performGather 0).hart.gathers = g :: rest → g.performed = some (j, xs) → g.vl ≤ j →
      g.vl * vtBytes g.vt ≤ (s.performGather 0).hart.rb → (s.performGather 0).hart.cut = none →
      ∃ t : State, Completes (.vgqpop e d m) s e t ∧
        Written (s.performGather 0) t ⟨e, d, vtBytes g.vt, fun _ => [],
          fun i => if (s.performGather 0).hart.elix ≤ i ∧ i < g.vl then some (xs.getD i 0) else none⟩ g.vl ∧
        t = { s.performGather 0 with hart := { (s.performGather 0).hart with gathers := rest, regs := t.hart.regs } })

/-- R351, R356, R357: SEQFORK clears the child's entries, gives it its parent, extent, depth and rowbytes, and answers its depth; one level
too deep it raises the depth trap. SEQMAP writes an entry, and for a valid one the extent; a position outside the table traps. -/
def Obligations.SequenceBuildResults : Prop :=
  ∀ (e m : Bool) (d a b : GReg) (s s1 : State) (t : SeqTable), Settled s →
    let o := s.atIssue (s.g a) (s.g b)
    let child := o.2.1
    let parent := o.2.2
    let words (cap : Nat) : List (Word × Nat) :=
      [(child + 0x18, min t.extent (16 * cap) + (t.depth + 1) * 2 ^ 32), (child + 0x28, t.rowbytes), (child + 0x30, 0), (child + 0x38, 0)]
    (child.toNat % 256 = 0 → parent.toNat % 256 = 0 → o.1.descriptor ownScalar parent = (s1, .ok t) →
      (t.depth = 4 → exec (.seqfork e d a b m) s = .next (s1.takeTrap (.own 0x12 parent) e)) ∧
      (∀ s2 cap s3, t.depth ≠ 4 → s1.walkElsewhere = false → s1.tableLoad ownScalar (child + 0x20) = (s2, .ok cap) → cap < 2 ^ 28 →
        s2.hart.cut = none → s2.clearEntries child (cap - s2.hart.elix) s2.hart.elix = (s3, none) → s3.hart.cut = none →
        (∀ s4, s3.live parent = none → s3.tableStores ((child + 0x10, parent.toNat) :: words cap) = (s4, none) →
          Completes (.seqfork e d a b m) s e (s4.setG d (BitVec.ofNat 64 (t.depth + 1)))) ∧
        (∀ x r0 s4 r s5 s6, s3.live parent = some x → s3.tableTarget (child + 0x10) = (s4, .ok r0) → s4.live parent = some x →
          x.privateToOther s4.hart = false → s4.access (child + 0x10) 8 .write = (s5, .ok r) → s5.walkElsewhere = false → s5.mayHold x r = true →
          (s5.putReference r parent).tableStores (words cap) = (s6, none) →
          Completes (.seqfork e d a b m) s e (s6.setG d (BitVec.ofNat 64 (t.depth + 1)))))) ∧
    ((s.g a).toNat % 256 = 0 → s.descriptor ownScalar (s.g a) = (s1, .ok t) →
      let p := (s.g b).toNat
      let entry := s.g d
      (2 ^ 32 ≤ p ∨ t.cap ≤ p / 16 → exec (.seqmap e d a b m) s = .next (s1.takeTrap (.own 0x13 (s.g b)) e)) ∧
      (∀ s2 r, p < 2 ^ 32 → p / 16 < t.cap → entry.toNat < 2 ^ 55 → entry.toNat / 2 % 128 = 0 →
        s1.tableTarget (s.g a + BitVec.ofNat 64 (0x40 + 8 * (p / 16))) = (s2, .ok r) →
        (entry.toNat % 2 = 0 → Completes (.seqmap e d a b m) s e (s2.tableStore r entry.toNat)) ∧
        (∀ s3 i, entry.toNat % 2 = 1 → s2.tableTarget (s.g a + 0x18) = (s3, .ok i) →
          Completes (.seqmap e d a b m) s e ((s3.tableStore r entry.toNat).tableStore i (max t.extent (p + 1) + t.depth * 2 ^ 32)))))

/-- R255, R257, R258, R265: SXW writes one control register of the streamer and SXR reads one; SXGO and SXGOM fork a copy with a snapshot of
them, whose strips run at once or later; a bad control register or an absent receiver traps before effect, and with eight copies open the
hart waits. SXABT stops a copy, SXSTAT reads its status. Whether strips run at once is left to the model's own list (log 27); SXSTAT of an
ended copy follows log 33. -/
def Obligations.CopyUnitResults : Prop :=
  ∀ (e multi : Bool) (d a : GReg) (b : BitVec 7) (s : State) (i : Instr), Settled s → i = (if multi then .sxgom e d a else .sxgo e d a) →
    let opened := (s.hart.copies.filter fun c => !c.delivered).length
    let absent := (List.range 16).find? fun k => (Sparse.get zeroWord s.hart.sx 13).getLsbD k && (s.slotTeam? s.hart.crew k).isNone
    (∃ t : State, Completes (.sxw e a b) s e t ∧ Sparse.get zeroWord t.hart.sx b.toNat = s.g a ∧
      (∀ k, k ≠ b.toNat → Sparse.get zeroWord t.hart.sx k = Sparse.get zeroWord s.hart.sx k) ∧
      t = { s with hart := { s.hart with sx := t.hart.sx } }) ∧
    exec (.sxr e d b) s = Wrote s e (s.hart.regs.setG d (Sparse.get zeroWord s.hart.sx b.toNat)) ∧
    (8 ≤ opened → exec i s = .next s.copyStep) ∧
    (∀ n, opened < 8 → badControl s.hart.sx multi = some n → Raises i s (.own 0x03 (BitVec.ofNat 64 n))) ∧
    (∀ k, opened < 8 → badControl s.hart.sx multi = none → multi = true → absent = some k →
      Raises i s (.own 0x1C (BitVec.ofNat 64 (k * 0x200000)))) ∧
    (opened < 8 → badControl s.hart.sx multi = none → (multi = true → absent = none) →
      (s.hold.headD false = true → Completes i s e (afterFork s multi d a)) ∧
      (s.hold.headD false = false → Completes i s e ((afterFork s multi d a).copyRun s.nextId ((forked s multi d a).total + 1)))) ∧
    (∀ c, s.hart.copyOf a = some c →
      (c.ended = none → Completes (.sxabt e a) s e (s.modCopy c.id fun c => { c with aborting := true })) ∧
      (c.ended.isSome = true → Completes (.sxabt e a) s e s) ∧
      exec (.sxstat e d a) s = Wrote s e (s.hart.regs.setG d (status (if c.unacked = 0 then c.ended.getD 0xFFFF else 0xFFFF) c.op c.count))) ∧
    (s.hart.copyOf a = none → Completes (.sxabt e a) s e s ∧ exec (.sxstat e d a) s = Wrote s e (s.hart.regs.setG d 0))

/-- R229, R232, R233, R236, R237, R240, R241, R245, R246: TCONF claims the tiles asked for and clears those it gives up, or answers which it
may not claim; TDIRTY reads the dirty claimed tiles; TSHAPE, TZERO, the row and column moves and TCVT fork with the operands they read; a
tile not claimed, or not shaped where it must be, raises the matrix trap with its number. Out-of-range TCVT follows log 25. -/
def Obligations.TileResults : Prop :=
  ∀ (e : Bool) (d : GReg) (a : GReg) (k st : TReg) (v : VReg) (b : BitVec 7) (s : State),
    let req := (s.g a).toNat
    let j := (s.g a).toNat
    (Settled s → s.hart.matrix = [] → req < 256 →
      (s.refusedTiles req ≠ 0 → exec (.tconf e d a) s = Wrote s e (s.hart.regs.setG d (BitVec.ofNat 64 (s.refusedTiles req)))) ∧
      (s.refusedTiles req = 0 → ∃ t : State, Completes (.tconf e d a) s e (t.setG d 0) ∧ t.hart = s.hart ∧ t.mem = s.mem ∧
        (∀ team, s.myTeam? = some team → ∀ n, n < team.tiles.length →
          (t.tile n).claim = (if req.testBit n then some s.hart.id else if (s.tile n).claim = some s.hart.id then none else (s.tile n).claim) ∧
          (req.testBit n = true → (s.tile n).claim = some s.hart.id → t.tile n = s.tile n)))) ∧
    (Settled s → 256 ≤ req → Raises (.tconf e d a) s (.own 0x03 (s.g a))) ∧
    (Settled s → s.hart.matrix = [] → ∃ n, n < 256 ∧
      (∀ t : TReg, n.testBit t.toNat = decide ((s.tile t.toNat).claim = some s.hart.id ∧ (s.tile t.toNat).dirty = true)) ∧
      exec (.tdirty e d) s = Wrote s e (s.hart.regs.setG d (BitVec.ofNat 64 n))) ∧
    (Room s → ¬ Holds s k →
      Raises (.tshape e k a) s (.own 0x04 (k.setWidth 64)) ∧ Raises (.tzero e k) s (.own 0x04 (k.setWidth 64))) ∧
    (Room s → Holds s k → s.shapeAhead k.toNat = some none → Raises (.mrowin e k a v) s (.own 0x04 (k.setWidth 64))) ∧
    (Room s → Holds s k → shapeLegal (s.g a) = true → Completes (.tshape e k a) s e (s.forkMatrix (plain s (.shape (s.g a)) k))) ∧
    (Room s → Holds s k → shapeLegal (s.g a) = false → Raises (.tshape e k a) s (.own 0x03 (s.g a))) ∧
    (Room s → Holds s k → Completes (.tzero e k) s e (s.forkMatrix (plain s .zero k))) ∧
    (∀ w, Room s → Shaped s k w →
      (rowsOf w ≤ j → Raises (.mrowin e k a v) s (.own 0x03 (s.g a))) ∧
      (j < rowsOf w → Completes (.mrowin e k a v) s e (s.forkMatrix (withVector s (.rowIn j) k v (rowBytesOf w)))) ∧
      (j < rowsOf w → Completes (.mrowout e v k a) s e (s.forkMatrix (plain s (.rowOut v.toNat j) k))) ∧
      (j < shapeCols w → fmtOf w ≠ 7 → rowsOf w * shapeElem w ≤ s.hart.rb →
        Completes (.mcolin e k a v) s e (s.forkMatrix (withVector s (.colIn j) k v (rowsOf w * shapeElem w))) ∧
        Completes (.mcolout e v k a) s e (s.forkMatrix (plain s (.colOut v.toNat j) k)))) ∧
    (∀ w' w, Room s → Shaped s k w' → Shaped s st w →
      let nb := shapeCols w * tileBits (b.toNat % 16) / 8
      fmtOf w ≠ 6 → fmtOf w ≠ 7 → nb ≤ 512 → nb % 8 = 0 → rowsOf w * nb ≤ 32768 →
      Completes (.tcvt e k st b) s e (s.forkMatrix (plain s (.convert st.toNat b.toNat) k)))

/-- R229, R240, R241, R243, R244, R246: what performing a queued tile member does. TSHAPE changes the shape alone; TZERO zeroes every byte; MROWIN
and MCOLIN put the vector operand into a row or column and leave every other byte; MROWOUT and MCOLOUT put a row's or column's bytes into the
vector register and leave every other byte of it; TLD and TRST load their pieces of memory, TRST with the header's shape; TST and TSAVE store theirs
and change nothing else of memory or of the tile; poison goes with the words; TCVT converts each element and sets the new shape. -/
def Obligations.TileMoveEffects : Prop :=
  ∀ (s : State) (op : MatOp) (team : Team) (w : Word), s.regEcc = [] → s.myTeam? = some team → op.tile < team.tiles.length →
    let u := s.performMatrix op
    let t := u.tile op.tile
    let old := s.tile op.tile
    let shaped := old.shape = some w
    let bit (x : Word) (n : Nat) : Byte := BitVec.ofNat 8 (x.toNat / 256 ^ n)
    (∀ x, op.kind = .shape x → t = { old with shape := some x }) ∧
    (op.kind = .zero → (∀ n, t.byte n = 0) ∧ t.shape = old.shape ∧ t.dirty = true) ∧
    (∀ j, shaped → shapeLegal w = true → op.kind = .colIn j → j < shapeCols w → fmtOf w ≠ 7 →
      op.vec.length = rowsOf w * shapeElem w → op.vpois.length = rowsOf w * shapeElem w →
      (∀ r i (h : r * shapeElem w + i < op.vec.length), i < shapeElem w →
        t.byte (r * rowBytesOf w + j * shapeElem w + i) = op.vec[r * shapeElem w + i]) ∧
      (∀ k, (∀ r, r < rowsOf w → k < r * rowBytesOf w + j * shapeElem w ∨ r * rowBytesOf w + (j + 1) * shapeElem w ≤ k) → t.byte k = old.byte k) ∧
      t.shape = some w ∧ t.dirty = true) ∧
    (∀ v j, shaped → shapeLegal w = true → op.kind = .colOut v j → j < shapeCols w → fmtOf w ≠ 7 →
      (∀ r i, r < rowsOf w → i < shapeElem w → Sparse.get zeroByte u.hart.regs.vrf (v * s.hart.rb + r * shapeElem w + i) =
        old.byte (r * rowBytesOf w + j * shapeElem w + i)) ∧
      (∀ n, (n < v * s.hart.rb ∨ v * s.hart.rb + rowsOf w * shapeElem w ≤ n) →
        Sparse.get zeroByte u.hart.regs.vrf n = Sparse.get zeroByte s.hart.regs.vrf n) ∧ u.teams = s.teams) ∧
    (op.kind = .load false → s.ecc = [] → PiecesApart op → (∀ p ∈ op.pieces, p.1 + p.2.2 ≤ 0x8800) →
      (∀ p ∈ op.pieces, ∀ i, i < p.2.2 → t.byte (p.1 + i) = s.peek (p.2.1.add i) ∧
        (s.poisoned (p.2.1.add i) = true → t.poisoned (p.1 + i) = true)) ∧
      (∀ k, (∀ p ∈ op.pieces, k < p.1 ∨ p.1 + p.2.2 ≤ k) → t.byte k = old.byte k) ∧ t.shape = old.shape ∧ t.dirty = true ∧ u.mem = s.mem) ∧
    (op.kind = .load true → s.ecc = [] → PiecesApart op → (∀ p ∈ op.pieces, p.1 + p.2.2 ≤ 35072) →
      (∀ p ∈ op.pieces, ∀ i, i < p.2.2 → ∀ k, (0x100 ≤ p.1 + i ∧ p.1 + i < 0x8100 ∧ k = p.1 + i - 0x100 ∨ 0x8100 ≤ p.1 + i ∧ k = p.1 + i - 0x8100 + 0x8000) →
        t.byte k = s.peek (p.2.1.add i) ∧ (s.poisoned (p.2.1.add i) = true → t.poisoned k = true)) ∧
      (∀ p x, op.pieces.head? = some (0, p, 256) → (∀ n, n < 8 → s.peek (p.add n) = bit x n) →
        let ok := shapeLegal x = true ∧ ∀ n, 8 ≤ n → n < 256 → s.peek (p.add n) = 0
        (ok → t.shape = some x) ∧ (¬ ok → t.shape = none)) ∧
      ((∀ p ∈ op.pieces, 0x100 ≤ p.1) → t.shape = old.shape) ∧ t.dirty = true ∧ u.mem = s.mem) ∧
    (∀ image, op.kind = .store image → StoresApart s op →
      let out (k : Nat) := if image then imageOf old k else old.byte k
      (∀ p ∈ op.pieces, ∀ i, i < p.2.2 → u.peek (p.2.1.add i) = out (p.1 + i) ∧ u.tagAt (p.2.1.add i) = false ∧
        (image = false → old.poisoned (p.1 + i) = true → u.poisoned (p.2.1.add i) = true)) ∧
      (∀ x, (∀ p ∈ op.pieces, ∀ i, i < p.2.2 → p.2.1.add i ≠ .phys x) → Memory.read u.mem x = Memory.read s.mem x) ∧
      (∀ x o, (∀ p ∈ op.pieces, ∀ i, i < p.2.2 → p.2.1.add i ≠ .pad x o) → u.peek (.pad x o) = s.peek (.pad x o)) ∧ t = old) ∧
    (∀ source imm sw, op.kind = .convert source imm → (s.tile source).shape = some sw → shapeLegal sw = true → fmtOf sw ≠ 6 → fmtOf sw ≠ 7 →
      let dst := imm % 16
      let size := tileBits dst / 8
      let nb := shapeCols sw * size
      1 ≤ dst → dst ≤ 11 → dst ≠ 6 → dst ≠ 7 → nb ≤ 512 → nb % 8 = 0 → rowsOf sw * nb ≤ 32768 →
      ∃ x, t.shape = some x ∧ fmtOf x = dst ∧ rowBytesOf x = nb ∧ rowsOf x = rowsOf sw ∧ t.dirty = true ∧
        ∀ r c, r < rowsOf sw → c < shapeCols sw →
          tileElem t x r c = converted (fmtOf sw) dst (imm / 16) (if imm / 16 = 4 then rsrValue op.seed (BitVec.ofNat 64 (r * 65536 + c)) else 0)
            (tileElem (s.tile source) sw r c) % 2 ^ tileBits dst ∧
          ((s.tile source).poisoned (r * rowBytesOf sw + c * shapeElem sw) = true → t.poisoned (r * nb + c * size) = true)) ∧
    (∀ j, shaped → op.kind = .rowIn j → op.vec.length = rowBytesOf w → op.vpois.length = rowBytesOf w →
      (∀ n (h : n < op.vec.length), t.byte (j * rowBytesOf w + n) = op.vec[n]) ∧
      (∀ n, (n < j * rowBytesOf w ∨ (j + 1) * rowBytesOf w ≤ n) → t.byte n = (s.tile op.tile).byte n) ∧ t.shape = some w ∧ t.dirty = true) ∧
    (∀ v j, shaped → op.kind = .rowOut v j →
      (∀ n, n < rowBytesOf w → Sparse.get zeroByte (s.performMatrix op).hart.regs.vrf (v * s.hart.rb + n) = (s.tile op.tile).byte (j * rowBytesOf w + n)) ∧
      (∀ n, (n < v * s.hart.rb ∨ v * s.hart.rb + rowBytesOf w ≤ n) →
        Sparse.get zeroByte (s.performMatrix op).hart.regs.vrf n = Sparse.get zeroByte s.hart.regs.vrf n) ∧
      (s.performMatrix op).teams = s.teams)

/-- R242, R244, R247, R248: TLD, TST, TSAVE and TRST fork with the units of memory that pass their checks; the row operations fork with
their A row, from the vector register or from the scratchpad, where their tiles agree, and trap before effect where the accumulator and the
stationary tile are one. R128, R129, R249, R250: a row operation performed changes row y of the accumulator alone and sets its dirty bit. In a
float form element n becomes the accumulator with the sums of the 32-column blocks of row n and the A row: an .O form adds them in order, an .F form
in some binary tree, each addition rounded with RNE. In an integer form the exact sum is added to the residue word, an invalid word giving the
invalid word. Where a fetched word is poisoned every word of row y becomes poisoned. -/
def Obligations.MatrixForkResults : Prop :=
  (∀ (s : State) (op : MatOp) (ordered stream : Bool) (st y : Nat) (w cw : Word) (team : Team), op.kind = .rowOp ordered stream st y → s.regEcc = [] → s.ecc = [] →
    s.myTeam? = some team → op.tile < team.tiles.length → RowReady s op stream w cw st y →
    let u := s.performMatrix op
    let t := u.tile op.tile
    let row (k : Nat) := y * rowBytesOf cw ≤ k ∧ k < (y + 1) * rowBytesOf cw
    let a := aBytes s op stream
    (∀ k, ¬ row k → t.byte k = (s.tile op.tile).byte k) ∧ t.shape = some cw ∧ t.dirty = true ∧ (∀ k, k ≠ op.tile → u.tile k = s.tile k) ∧
    (RowClean s op stream w cw st y → ∀ k, row k → t.poisoned k = false) ∧
    (¬ RowClean s op stream w cw st y → ∀ k, row k → t.poisoned k = true) ∧
    (∀ f n, RowClean s op stream w cw st y → fmtOf cw = 1 → tileFloat (fmtOf w) = some f → accOfPad (fmtOf w) = some 1 → n < rowsOf w →
      let x := tileElem (s.tile op.tile) cw y n
      let sums := blockSums (fmtOf w) f w a (aScales s op stream) (s.tile st) n
      u.hart = s.hart ∧
      (ordered = true → tileElem t cw y n = canonical (sums.foldl plus x)) ∧
      (ordered = false → ∃ z, Combined (x :: sums) z ∧ tileElem t cw y n = canonical z)) ∧
    (RowClean s op stream w cw st y → fmtOf cw = 10 → fmtOf w = 8 →
      let sum (n : Nat) : Int := ((List.range (shapeCols w)).map fun c => signed 8 (rowElem 8 a c) * signed 8 (tileElem (s.tile st) w n c)).sum
      let old (n : Nat) := tileElem (s.tile op.tile) cw y n
      (∀ n, n < rowsOf w → resValid (old n) = true → ∃ r, resOfSigned (sum n) = some r ∧ tileElem t cw y n = resAdd (old n) r) ∧
      (∀ n, n < rowsOf w → resValid (old n) = false → tileElem t cw y n = 0xFFFFFFFF) ∧
      ((∀ n, n < rowsOf w → resValid (old n) = true) → u.hart = s.hart) ∧
      ((∃ n, n < rowsOf w ∧ resValid (old n) = false) → u.hart.regs = { s.hart.regs with astat := s.hart.regs.astat ||| 2 }))) ∧
  ∀ (e : Bool) (k c st : TReg) (a b : GReg) (v : VReg) (s : State), Room s →
    let images := ((List.range 137).drop s.hart.elix).map fun n =>
      (n, s.g a + BitVec.ofNat 64 (256 * n), [(256 * n, s.g a + BitVec.ofNat 64 (256 * n), 256)])
    let y := (s.g a).toNat
    let g := (s.g b).toNat
    (∀ w, Shaped s k w →
      TransferForks (.tld e k a b) s e (.load false) k (s.g a) (s.g b) false true (rowAlign (fmtOf w)) (fmtOf w) (s.tileRows w (s.g a) (s.g b) s.hart.elix) ∧
      TransferForks (.tst e k a b) s e (.store false) k (s.g a) (s.g b) true true (rowAlign (fmtOf w)) (fmtOf w) (s.tileRows w (s.g a) (s.g b) s.hart.elix)) ∧
    (Holds s k →
      TransferForks (.tsave e k a) s e (.store true) k (s.g a) 0 true false 256 0 images ∧ TransferForks (.trst e k a) s e (.load true) k (s.g a) 0 false false 256 0 images) ∧
    (∀ cw, Shaped s c cw →
      let both := Trap.own 0x03 ((c ++ (0 : BitVec 1) ++ c).setWidth 64)
      Raises (.mrwO e c c a v) s both ∧ Raises (.mrwF e c c a v) s both ∧ Raises (.mrwi e c c a v) s both ∧
      (g / 65536 % 2 ^ 20 % 8 = 0 → Raises (.mrsO e c c a b) s both ∧ Raises (.mrsF e c c a b) s both)) ∧
    (∀ cw w, RowAgrees s accOfVector c st cw w y →
      Completes (.mrwO e c st a v) s e (s.forkMatrix (withVector s (.rowOp true false st.toNat y) c v (rowBytesOf w))) ∧
      Completes (.mrwF e c st a v) s e (s.forkMatrix (withVector s (.rowOp false false st.toNat y) c v (rowBytesOf w)))) ∧
    (∀ cw w, RowAgrees s accOfResidue c st cw w y →
      Completes (.mrwi e c st a v) s e (s.forkMatrix (withVector s (.rowOp true false st.toNat y) c v (rowBytesOf w)))) ∧
    (∀ cw w ps, RowAgrees s accOfPad c st cw w (g % 65536) → g / 2 ^ 57 % 4 = 0 → g / 65536 % 2 ^ 20 % 8 = 0 →
      let start := s.g a + BitVec.ofNat 64 (g % 65536 * (g / 65536 % 2 ^ 20))
      let n := rowBytesOf w / 8
      let row := (List.range n).map fun i => (8 * i, start + BitVec.ofNat 64 ((i + g / 2 ^ 59) % n * 8), 8)
      let scales := if fmtOf w = 6 ∨ fmtOf w = 7 then (List.range (shapeCols w / 32)).map fun i =>
          (0x8000 + i, s.g a + BitVec.ofNat 64 (g / 2 ^ 36 % 2 ^ 21 + g % 65536 * (shapeCols w / 32) + i), 1) else []
      start.toNat % 8 = 0 → s.padParts (row ++ scales) = .ok ps →
      Completes (.mrsO e c st a b) s e (s.forkMatrix { plain s (.rowOp true true st.toNat (g % 65536)) c with pieces := ps }) ∧
      Completes (.mrsF e c st a b) s e (s.forkMatrix { plain s (.rowOp false true st.toNat (g % 65536)) c with pieces := ps }))

namespace Sys2Proof.Claims
open Sys2Proof.Machine

/-- The trap of a member with convoy-end bit `e` whose effects so far stand in `t`. -/
def Traps (i : Instr) (e : Bool) (s t : State) (cause : BitVec 8) (tval : Word) : Prop := exec i s = .next (t.takeTrap (.own cause tval) e)

/-- In user mode a member raises the privileged trap, before effect (R75, R389). -/
def Privileged (i : Instr) (s : State) : Prop := Settled s → s.hart.regs.tstat.getLsbD 0 = false → Raises i s (privilegedTrap s i)

/-- The hart may run a privileged member: supervisor mode, and nothing older is undecided. -/
def Supervisor (s : State) : Prop := Settled s ∧ s.hart.regs.tstat.getLsbD 0 = true

/-- An 8-byte word that the hart may store to: where it lands, with the state after its checks. -/
def WordTarget (s : State) (va : Word) (u : State) (r : Reached) : Prop := va.toNat % 8 = 0 ∧ s.access va 8 .write = (u, .ok r)

/-- A reference that a member takes: none, or a live object that no other team keeps private (R329, R334, R339). -/
def Reference (s : State) (v : Word) (o : Option Obj) : Prop :=
  (v = 0 ∧ o = none) ∨ ∃ x, s.live v = some x ∧ x.privateToOther s.hart = false ∧ o = some x

/-- Nothing between two states but the scope of objects, which never falls (R343). -/
def OnlyRaises (s t : State) : Prop :=
  t = { s with objs := t.objs, free := t.free } ∧ t.objs.length = s.objs.length ∧
  ∀ n (h : n < s.objs.length) (h' : n < t.objs.length), s.objs[n].scope ≤ t.objs[n].scope ∧ t.objs[n] = { s.objs[n] with scope := t.objs[n].scope }

/-- The hart's walk of a publication (R341, R342): the one it stands in, or a new one that waits behind those that wait. -/
def walkOf (s : State) (ref : Word) (code : Nat) : Walk := s.hart.walk.getD ⟨ref, code, 0, false, s.nextId⟩

/-- The state once the hart has joined the walks of its context. -/
def joins (s : State) (ref : Word) (code : Nat) : State :=
  if s.hart.walk.isSome then s else { s with nextId := s.nextId + 1, hart := { s.hart with walk := some (walkOf s ref code) } }

/-- No walk of the context is in progress, and none has waited longer (R342). -/
def Turn (s : State) (w : Walk) : Prop := ∀ h ∈ s.others, h.ctx = s.hart.ctx → ∀ x, h.walk = some x → x.begun = false ∧ w.ticket ≤ x.ticket

/-- A recorder that starts recording (R281). -/
def recording (c : Crew) (crew : Nat) (w : Word) (start : Nat) : Recorder := ⟨c.die, c.cluster, crew, w, start, none, [], [], [], none⟩

end Sys2Proof.Claims

/-- R271, R273, R274, R275: BARR and BARA count an arrival where none of the hart is open, BARR and BARW complete once its phase is no longer
open, with a scope other than 0 as a synchronisation after which the hart reads no overwritten value, and wait until then; BARA resumed at ELIX 1 completes; a tag the crew does not hold raises the barrier trap. With the last arrival the
generation counts on and the count is 0, and 24 cycles later the phase's end is delivered. -/
def Obligations.BarrierResults : Prop :=
  ∀ (e : Bool) (x t : BitVec 3) (s : State) (c : Crew), s.crew? s.hart.crew = some c →
    let n := t.toNat
    let v := (s.settlePhase s.hart.crew n).deliverPhase s.hart.crew n
    let w := if x = 0 then v else v.drain fun q => q.vector
    let done (s : State) : State := (if x = 0 then s else s.synced).modHart fun h => { h with arrived := Sparse.put clearBit h.arrived n false }
    (Settled s → c.tags.getLsbD n = false → Traps (.barr e x t) e s s 0x1D (t.setWidth 64) ∧ Traps (.barw e x t) e s s 0x1D (t.setWidth 64) ∧
      Traps (.bara e x t) e s s 0x1D (t.setWidth 64)) ∧
    (Settled s → c.tags.getLsbD n = true → s.hart.breakDue = false →
      (v.phaseOpen n = false → Completes (.barw e x t) s e (done v)) ∧
      (v.phaseOpen n = true → exec (.barw e x t) s = .next v) ∧
      (s.hart.elix = 0 → v.phaseOpen n = false → Completes (.bara e x t) s e (w.arrive n)) ∧
      (s.hart.elix = 0 → v.phaseOpen n = true → exec (.bara e x t) s = .next v) ∧ (s.hart.elix ≠ 0 → Completes (.bara e x t) s e v) ∧
      (s.hart.elix ≠ 0 → v.phaseOpen n = false → Completes (.barr e x t) s e (done v)) ∧
      (s.hart.elix ≠ 0 → v.phaseOpen n = true → exec (.barr e x t) s = .next v) ∧
      (s.hart.elix = 0 → v.phaseOpen n = false → (w.arrive n).phaseOpen n = true →
        exec (.barr e x t) s = .next ((w.arrive n).modHart fun h => { h with elix := 1 }))) ∧
    (∀ q : Crew, s.crew? q.id = some q → q.tags.getLsbD n = true →
      (Sparse.get zeroNat q.due n = 0 → (∃ h ∈ s.participants q.id, h.counted q n = true) →
        (∀ h ∈ s.participants q.id, h.gone = true ∨ h.counted q n = true) →
        ∃ u : State, exec (.barrierPhaseComplete q.id t) s = .next u ∧ u = { s with crews := u.crews } ∧
          u.crew? q.id = some { q with
            gen := Sparse.put zeroNat q.gen n ((Sparse.get zeroNat q.gen n + 1) % 65536), count := Sparse.put zeroNat q.count n 0
            due := Sparse.put zeroNat q.due n (s.pkg.cycle + 24) }) ∧
      (Sparse.get zeroNat q.due n ≠ 0 → Sparse.get zeroNat q.due n ≤ s.pkg.cycle → q.resident = true →
        ∃ u : State, exec (.barrierPhaseComplete q.id t) s = .next u ∧ u = { s with crews := u.crews } ∧
          u.crew? q.id = some { q with due := Sparse.put zeroNat q.due n 0 }))

/-- R278: what COORD answers for each selector. R281, R282, R284: TRON starts a recording of the crew and answers 0, or 1 where another crew
records; TROFF stops it and dumps it, or answers status 2 where there is none; SAMP arms a sample. A recording stops of itself when it is
full, and its dump leaves its status in the token. What a trace and a sample hold follows logs 35 and 36. -/
def Obligations.TraceAndCoordResults : Prop :=
  ∀ (e : Bool) (d a : GReg) (sel : BitVec 7) (s : State) (c : Crew), Settled s → s.crew? s.hart.crew = some c →
    let crew := s.hart.crew
    let occupied (k : Nat) : Bool := decide (k / 4 < c.rows) && decide (k % 4 < c.cols)
    let value (v : Word) : Prop := exec (.coord e d a sel) s = Wrote s e (s.hart.regs.setG d v)
    let busy := s.recorders.any fun r => r.die == c.die && r.cluster == c.cluster && r.crew != crew && (s.crew? r.crew).isSome
    let token := tokenReg s d
    (sel = 0 → value (BitVec.ofNat 64 ((((List.range 16).filter occupied).map fun k => 2 ^ (16 + k)).sum + (c.rows - 1) * 2 ^ 10 + (c.cols - 1) * 2 ^ 8 +
      (c.hartsPerTeam - 1)))) ∧
    (∀ l, sel = 1 → s.launch? c.launch = some l → value (BitVec.ofNat 64 ((l.stages - 1) * 2 ^ 16 + (l.crewsPerStage - 1) * 2 ^ 8))) ∧
    (sel = 2 → value (if (s.g a).toNat < 16 ∧ occupied (s.g a).toNat = true then s.hart.spbase + s.g a * 0x200000 else 0)) ∧
    (sel = 3 → value (c.tags.setWidth 64)) ∧ (4 ≤ sel.toNat → value 0) ∧
    (8 ≤ (s.g a).toNat → Traps (.tron e d a) e s s 0x03 (s.g a)) ∧
    ((s.g a).toNat < 8 → busy = true → exec (.tron e d a) s = Wrote s e (s.hart.regs.setG d 1)) ∧
    ((s.g a).toNat < 8 → busy = false → (∀ r, s.recorderOf crew = some r → r.dump = none) →
      ∃ t : State, exec (.tron e d a) s = Wrote t e (t.hart.regs.setG d 0) ∧ t = { s with recorders := t.recorders } ∧
        t.recorderOf crew = some (recording c crew (s.g a) (s.pkg.cycle + 1))) ∧
    ((s.g a).toNat % 256 ≠ 0 → Traps (.troff e d a) e s s 0x06 (s.g a)) ∧
    ((s.g a).toNat % 256 = 0 → s.recorderOf crew = none → Completes (.troff e d a) s e (s.deliverToken token (status 2 0 0))) ∧
    (∀ r s1 base s2 ps, (s.g a).toNat % 256 = 0 → (s.traceFull crew).recorderOf crew = some r → r.dump = none →
      (s.traceFull crew).baseOf (s.g a) = (s1, base) →
      s1.checkUnits true false (tileWant base 0) 256 (dumpUnits (s.g a) (512 + 64 * r.valid s.pkg.cycle)) = (s2, none, ps) →
      let q := s2.stopTrace s2.hart.crew 0 none
      let t := (q.modRecorder q.hart.crew fun r =>
        { r with dump := some ⟨q.hart.id, token, ps.map (·.2.1.place), ps.flatMap (·.2.1.dirty), ps.flatMap (·.2.1.via)⟩ }).pendToken token
      (t.hold.headD false = true → Completes (.troff e d a) s e { t with hold := t.hold.drop 1 }) ∧
      (t.hold.headD false = false → Completes (.troff e d a) s e (({ t with hold := t.hold.drop 1 } : State).traceDump t.hart.crew))) ∧
    ((s.g a).toNat % 64 ≠ 0 → Traps (.samp e d a) e s s 0x06 (s.g a)) ∧
    (∀ s1 base u r, (s.g a).toNat % 64 = 0 → s.baseOf (s.g a) = (s1, base) → s1.access (s.g a) 64 .write (some (tileWant base 0)) = (u, .ok r) →
      u.hart.sample = none → Completes (.samp e d a) s e
        ((u.pendToken (tokenReg u d)).modHart fun h => { h with sample := some ⟨r.place, r.dirty, r.via, tokenReg u d, .armed⟩ })) ∧
    (∀ r n, s.recorders.find? (fun r => clusterIndex r.die r.cluster == n && r.stop.isNone) = some r → s.recorderOf r.crew = some r →
      r.control.getLsbD 0 = false → r.start + 65536 ≤ s.pkg.cycle →
      ∃ t : State, exec (.traceFullStop n) s = .next t ∧ t.recorderOf r.crew = some { r with stop := some (1, r.start + 65536) }) ∧
    (∀ r dump q n, s.recorders.find? (fun r => clusterIndex r.die r.cluster == n && r.dump.isSome) = some r → s.recorderOf r.crew = some r →
      r.dump = some dump → s.crew? r.crew = some q → dump.hart = s.hart.id → dump.token ≠ 0 → dump.token < 512 → s.hart.gone = false → s.ecc = [] →
      ∃ t : State, exec (.traceDumpComplete n) s = .next t ∧ t.recorderOf r.crew = none ∧
        Sparse.get zeroWord t.hart.regs.gpr dump.token = status 0 0 (512 + 64 * r.valid s.pkg.cycle))

/-- R287, R288, R292 to R297: GRBIND binds a session at its descriptor's start state, GRSTEP consumes tokens and answers how far it came and
why it stopped, GRMASK and GRFORCE answer from the mask row of the session's state, GRSAVE and GRLOAD move the session's image, and GRRESET
goes back to the start state; with no session bound they raise the grammar trap. A transition changes the state, and pushes or pops the
stack, as its entry says. Cached lines follow log 37 and the image of GRSAVE log 38. -/
def Obligations.StrainerResults : Prop :=
  ∀ (e : Bool) (d a b : GReg) (vd : VReg) (k : MReg) (s : State), Settled s →
    let v := s.drainAll
    let len := (v.g b).toNat
    (∀ u g, v.readGrammar (v.g a) = (u, .ok g) →
      ∃ t : State, Completes (.grbind e a) s e t ∧ t.hart = { u.hart with session := some ⟨(u.g a).toNat, g, g.start, []⟩ } ∧
        t = { u with
          hart := t.hart, cache := u.cache.filter fun l => !u.ownLine (u.g a).toNat l
          binds := ⟨u.myCluster, u.hart.ctx, (u.g a).toNat, u.pkg.cycle⟩ ::
            u.binds.filter fun x => !(x.cluster == u.myCluster && x.ctx == u.hart.ctx && x.desc == (u.g a).toNat) }) ∧
    (v.hart.session = none → Traps (.grstep e d a b) e s v 0x11 0x10000 ∧ Traps (.grmaskM e k a) e s v 0x11 0x10000 ∧
      Traps (.grmaskV e vd a) e s v 0x11 0x10000 ∧ Traps (.grforce e d) e s v 0x11 0x10000 ∧ Traps (.grreset e) e s v 0x11 0x10000) ∧
    (∀ x, v.hart.session = some x →
      (Completes (.grreset e) s e (v.modHart fun h => { h with session := some { x with state := x.gram.start, stack := [] } })) ∧
      ((v.g a).toNat % 4 ≠ 0 → Traps (.grstep e d a b) e s v 0x06 (v.g a)) ∧
      (∀ u n, (v.g a).toNat % 4 = 0 → v.hart.cut = none → v.stepRun (v.g a) (min len 65536 - v.hart.elix) v.hart.elix = (u, n, none) →
        min len 65536 ≤ n → exec (.grstep e d a b) s = Wrote u e (u.hart.regs.setG d (BitVec.ofNat 64 ((if 65536 < len then 2 ^ 32 else 0) + n)))) ∧
      (∀ u n, (v.g a).toNat % 4 = 0 → v.hart.cut = none → v.stepRun (v.g a) (min len 65536 - v.hart.elix) v.hart.elix = (u, n, some none) →
        exec (.grstep e d a b) s = Wrote u e (u.hart.regs.setG d (BitVec.ofNat 64 (2 * 2 ^ 32 + n)))) ∧
      (∀ u row, (v.g a).toNat % 512 = 0 → v.rowBits x (v.g a).toNat ((v.g a).toNat + v.hart.regs.vl) 513 = (u, .ok row) →
        u.hart.regs.vl = v.hart.regs.vl → ∃ t : State, Completes (.grmaskM e k a) s e t ∧
          (∀ n, n < v.hart.regs.vl → t.hart.regs.mask k.toNat n = row.testBit n) ∧
          t = { u with hart := { u.hart with regs := { u.hart.regs with masks := t.hart.regs.masks } } }) ∧
      (∀ u row, (v.g a).toNat % 512 = 0 → v.rowBits x (v.g a).toNat ((v.g a).toNat + v.hart.regs.vl * bits v) 513 = (u, .ok row) →
        u.hart.regs.vl = v.hart.regs.vl → u.hart.regs.vt = v.hart.regs.vt → ∃ t : State, Completes (.grmaskV e vd a) s e t ∧
          (∀ n, n < v.hart.regs.vl → t.hart.elem vd.toNat (vtBytes v.hart.regs.vt) n = row / 2 ^ (n * bits v) % 2 ^ bits v) ∧
          t = { u with hart := { u.hart with regs := { u.hart.regs with vrf := t.hart.regs.vrf, vpois := t.hart.regs.vpois } } }) ∧
      (∀ u row, v.rowBits x 0 x.gram.vocab 513 = (u, .ok row) →
        (row = 0 → exec (.grforce e d) s = Wrote u e (u.hart.regs.setG d (BitVec.allOnes 64))) ∧
        (∀ n, row = 2 ^ n → exec (.grforce e d) s = Wrote u e (u.hart.regs.setG d (BitVec.ofNat 64 n))) ∧
        (row ≠ 0 → (∀ n, row ≠ 2 ^ n) → exec (.grforce e d) s = Wrote u e (u.hart.regs.setG d (BitVec.allOnes 64 - 1))))) ∧
    (∀ u r w q, (v.g a).toNat % 64 = 0 → v.access (v.g a) 64 .write (v.rawWant (v.g a)) = (u, .ok r) →
      u.access (v.g a + 64) 64 .write (u.rawWant (v.g a + 64)) = (w, .ok q) →
      Completes (.grsave e a) s e ((List.range 16).foldl (fun s n =>
        let x := if n < 8 then r else q
        s.perform ⟨x.place.add (8 * (n % 8)), ((sessionImage w.hart.session).drop (8 * n)).take 8, false, false, false, s.hart.ctx, x.dirty, x.via, false⟩) w)) ∧
    (∀ u lo w hi, (v.g a).toNat % 64 = 0 → v.imageLoad (v.g a) 64 = (u, .ok lo) → u.imageLoad (v.g a + 64) 64 = (w, .ok hi) →
      let desc := bytesToNat ((lo ++ hi).take 8)
      (desc = 0 → Completes (.grload e a) s e (w.modHart fun h => { h with session := none })) ∧
      (∀ y g x, desc ≠ 0 → w.readGrammar (BitVec.ofNat 64 desc) = (y, .ok g) → sessionOf desc g (lo ++ hi) = some x →
        Completes (.grload e a) s e (y.modHart fun h => { h with session := some x }))) ∧
    (∀ (x : Session) (entry : Nat),
      let op := entry / 2 ^ 29 % 4
      let sym := entry / 2 ^ 16 % 256
      let next := entry % 65536
      (entry / 2 ^ 31 % 2 = 0 → x.transition entry = .reject) ∧
      (entry / 2 ^ 31 % 2 = 1 → entry / 2 ^ 24 % 32 = 0 → next < x.gram.nst →
        (op = 0 → x.transition entry = .next { x with state := next }) ∧
        (op = 1 → 0 < sym → sym < x.gram.nsym → x.stack.length < x.gram.depth → x.transition entry = .next { x with state := next, stack := sym :: x.stack }) ∧
        (op = 1 → 0 < sym → sym < x.gram.nsym → x.gram.depth ≤ x.stack.length → x.transition entry = .stop (.trap (.own 0x10 (BitVec.ofNat 64 x.state)))) ∧
        (op = 2 → x.stack = [] → x.transition entry = .reject) ∧
        (∀ y ys, op = 2 → x.stack = y :: ys → x.transition entry = .next { x with state := next, stack := ys })))

/-- R328 to R331, R338 to R340, R345 to R348: TAGST stores a reference with its tag where the word's location may hold it, TAGLD, an acquire,
reads a reference, and all ones where there is none, TAGCLR clears a tag and no data bit, OBJPRB answers which object covers an address; OBJNEW
enters an object under a free entry, or answers 0 where its die's table has none, and OBJFREE takes an object away. TAGST, OBJNEW and OBJFREE
wait while another hart of the context walks. The entry that OBJNEW takes is a free choice (log 5). -/
def Obligations.ObjectResults : Prop :=
  ∀ (e : Bool) (d a b : GReg) (s : State), Settled s →
    (∀ o u r, Reference s (s.g d) o → WordTarget s (s.g a) u r → u.walkElsewhere = false → (∀ x, o = some x → u.mayHold x r = true) →
      Completes (.tagst e d a) s e (u.putReference r (s.g d))) ∧
    (∀ o u r, Reference s (s.g d) o → WordTarget s (s.g a) u r → u.walkElsewhere = true → exec (.tagst e d a) s = .next u) ∧
    (∀ x u r, Reference s (s.g d) (some x) → WordTarget s (s.g a) u r → u.walkElsewhere = false → u.mayHold x r = false →
      Traps (.tagst e d a) e s u 0x0B (s.g a)) ∧
    (s.g d ≠ 0 → s.live (s.g d) = none → Traps (.tagst e d a) e s s 0x03 (s.g d)) ∧
    (∀ x, s.live (s.g d) = some x → x.privateToOther s.hart = true → Traps (.tagst e d a) e s s 0x0C (s.g d)) ∧
    (∀ (u : State) (r : Reached) (v : Word) pa, r.place = .phys pa → pa % 8 = 0 → inScan pa = false → r.dirty = [] → u.hart.stores = [] → u.linkLost r.place = false →
      (∀ h ∈ u.others, ∀ x ∈ h.stores, usesEntry x.via r.place 8 = false) →
      (u.putReference r v).physWord pa = v ∧ (u.putReference r v).tagAt (.phys pa) = r.attr.tracked) ∧
    (∀ u r, (s.g a).toNat % 8 = 0 → s.access (s.g a) 8 .read = (u, .ok r) → (u.eccAccess r.place 8).viewPoison ownScalar r.place 8 = false →
      let w := (u.eccAccess r.place 8).acquired r.place
      exec (.tagld e d a) s = Wrote w e (w.hart.regs.setG d (if r.attr.tracked = true ∧ w.viewTag r.place = true then
        BitVec.ofNat 64 (bytesToNat (w.viewList ownScalar r.place 8)) else BitVec.allOnes 64))) ∧
    (∀ u r pa, WordTarget s (s.g a) u r → r.place = .phys pa →
      let w := u.drain fun q => q.touches r.place 8
      (r.attr.tracked = false → Completes (.tagclr e a) s e w) ∧
      (r.attr.tracked = true → ∃ t : State, Completes (.tagclr e a) s e t ∧ t = { w with tags := t.tags } ∧ t.tagAt (.phys pa) = false ∧
        ∀ n, n ≠ pa / 8 → Sparse.get clearBit t.tags n = Sparse.get clearBit w.tags n)) ∧
    (∀ off, s.hart.padOffset (s.g a) = some off → exec (.objprb e d a) s = Wrote s e (s.hart.regs.setG d 0)) ∧
    (∀ x u, s.hart.padOffset (s.g a) = none → s.lookup s.hart.ctx (s.g a).toNat = .ok x → s.setAccessed s.hart.ctx x.leaves = (u, none) → u.attrFault x = none →
      (u.objAt x.pa = none → exec (.objprb e d a) s = Wrote u e (u.hart.regs.setG d 0)) ∧
      (∀ o, u.objAt x.pa = some o → o.ctx ≠ u.hart.ctx ∨ o.whole = false → exec (.objprb e d a) s = Wrote u e (u.hart.regs.setG d 0)) ∧
      (∀ o, u.objAt x.pa = some o → o.ctx = u.hart.ctx → o.whole = true → exec (.objprb e d a) s = Wrote u e (u.hart.regs.setG d (BitVec.ofNat 64
        (o.header + (if o.crew = u.hart.crew ∧ o.slot = u.hart.slot then 2 ^ 59 else 0) + max 1 o.scope * 2 ^ 60 + if o.scope = 0 then 0 else 2 ^ 63))))) ∧
    (∀ s1 w0 s2 w1, let o := s.atIssue (s.g a) (s.g b)
      o.2.1.toNat % 256 = 0 → o.2.2.toNat % 8 = 0 → o.1.recordWord o.2.2 = (s1, .ok w0) →
      s1.recordWord (o.2.2 + 8) = (s2, .ok w1) → shapeRecordLegal (w0 % 2 ^ 32) (w0 / 2 ^ 32) (w1 % 2 ^ 48) (w1 / 2 ^ 48) = true →
      s2.partialAt o.2.1 = none → s2.objectsLeft s2.hart.ctx ≠ 0 →
      let home := s2.homeOf o.2.1
      let taken := (s2.objs.filter fun x => x.die == home).length
      (65536 ≤ taken → exec (.objnew e d a b) s = Wrote s2 e (s2.hart.regs.setG d 0)) ∧
      (taken < 65536 → s2.walkElsewhere = true → exec (.objnew e d a b) s = .next s2) ∧
      (∀ s3 ls, taken < 65536 → s2.walkElsewhere = false → s2.hart.cut = none →
        ({ s2 with free := s2.free + 1 } : State).claimLines home [] (coveredLines o.2.1 (w0 % 2 ^ 32) (w0 / 2 ^ 32) (w1 % 2 ^ 48)) = (s3, .ok ls) →
        ∃ n, n < 65536 ∧ (∀ x ∈ s2.objs, x.die = home → x.index ≠ n) ∧
          Completes (.objnew e d a b) s e ((s3.enterObject
            (s3.teamObject o.2.1 home n (w0 % 2 ^ 32) (w0 / 2 ^ 32) (w1 % 2 ^ 48) ls true) (s3.headerDirty o.2.1)).setG d o.2.1))) ∧
    (s.g a = 0 ∨ s.live (s.g a) = none → Traps (.objfree e a) e s s 0x03 (s.g a)) ∧
    (∀ o, s.g a ≠ 0 → s.live (s.g a) = some o → o.privateToOther s.hart = false →
      (s.walkElsewhere = true → exec (.objfree e a) s = .next s) ∧
      (s.walkElsewhere = false → Completes (.objfree e a) s e
        (({ s.drainAll with objs := s.drainAll.objs.filter fun x => !(x.die == o.die && x.index == o.index) } : State).perform
          ⟨.phys (o.lines.headD 0), List.replicate 16 0, false, false, false, o.ctx, [], [], false⟩)))

/-- R333, R341 to R344: PUB and PUBW publish what a reference reaches, after every earlier access of the hart, one set of a walk in each step (log 39,
DEDUCED), no walk beside another of the context and the walks in the order in which they wait: PUB at the scope its location asks for (which scope contains which follows log 17, DEDUCED), then it stores the reference; PUBW answers how many objects
changed; a set that would pass 4,096 raises the publication-limit trap. Publication raises scopes and changes nothing else. Beside them, that
each member of tagged memory completes: a null reference is stored, a word read, its tag cleared; a scratchpad address is no object's; an
object of one line is created, and a live one freed. -/
def Obligations.PublicationResults : Prop :=
  ∀ (e : Bool) (c : BitVec 3) (d a b : GReg) (s : State), Settled s →
    (∀ u r, s.g d = 0 → WordTarget s (s.g a) u r → u.walkElsewhere = false → ∃ t : State, exec (.tagst e d a) s = .next (t.retire e) ∧ t.hart.regs.gpr = u.hart.regs.gpr) ∧
    (∀ u r, (s.g a).toNat % 8 = 0 → s.access (s.g a) 8 .read = (u, .ok r) → (u.eccAccess r.place 8).viewPoison ownScalar r.place 8 = false →
      r.attr.tracked = false → ∃ t : State, exec (.tagld e d a) s = .next (t.retire e) ∧ (d ≠ 0 → t.g d = BitVec.allOnes 64)) ∧
    (∀ u r, WordTarget s (s.g a) u r → ∃ t : State, exec (.tagclr e a) s = .next (t.retire e) ∧ t.hart.regs.gpr = u.hart.regs.gpr) ∧
    (∀ off, s.hart.padOffset (s.g a) = some off → ∃ t : State, exec (.objprb e d a) s = .next (t.retire e) ∧ t.mem = s.mem ∧ t.g d = 0) ∧
    (∀ s1 w0 s2 w1 s3 pa, s.hart.elix = 0 → s.hart.m15only = false → s.hart.cut = none → s.walkElsewhere = false →
      (s.g a).toNat % 256 = 0 → (s.g b).toNat % 8 = 0 → (s.atIssue (s.g a) (s.g b)).1.recordWord (s.g b) = (s1, .ok w0) →
      s1.recordWord (s.g b + 8) = (s2, .ok w1) → w0 = 256 + 2 ^ 32 → w1 = 0 → s2.objectsLeft s2.hart.ctx ≠ 0 → s2.objs = [] →
      s2.walkElsewhere = false → s2.hart.elix = 0 → s2.hart.cut = none →
      ({ s2 with free := s2.free + 1 } : State).claimLines (s2.homeOf (s.g a)) [] [s.g a] = (s3, .ok [pa]) →
      ∃ t : State, exec (.objnew e d a b) s = .next (t.retire e) ∧ (d ≠ 0 → t.g d = s.g a) ∧
        ∃ o ∈ t.objs, o.header = (s.g a).toNat ∧ o.lines = [pa] ∧ o.scope = 0 ∧ o.whole = true) ∧
    (∀ o, s.g a ≠ 0 → s.live (s.g a) = some o → o.privateToOther s.hart = false → s.walkElsewhere = false →
      ∃ t : State, exec (.objfree e a) s = .next (t.retire e) ∧ ∀ x ∈ t.objs, ¬ (x.die = o.die ∧ x.index = o.index)) ∧
    (∀ (w : State) want root n t r, w.walkStep want root n = (t, r) → OnlyRaises w t ∧ (r = .done → t = w) ∧ (∀ k, r = .changed k → n + k ≤ 4096)) ∧
    let ended (w : State) : State := w.modHart fun h => { h with walk := none }
    let Publishes (i : Instr) (s0 : State) (ref : Word) (code : Nat) (o : Option Obj) (done : State → Nat → Host.Outcome State Fault Refusal) : Prop :=
      let w := walkOf s0 ref code
      let j := joins s0 ref code
      let v := j.drainAll
      (¬ Turn j w → exec i s = .next j) ∧
      (Turn j w → o = none → exec i s = done (ended v) w.changed) ∧
      (∀ x t r, Turn j w → o = some x → v.walkStep (v.hartScope code) x w.changed = (t, r) →
        (r = .done → exec i s = done (ended t) w.changed) ∧ (r = .limit → Traps i e s (ended t) 0x15 ref) ∧
        (∀ k, r = .changed k → exec i s = .next (t.modHart fun h => { h with walk := some { w with changed := w.changed + k, begun := true } })))
    (∀ o, Reference s (s.g a) o →
      Publishes (.pubw e d a c) s (s.g a) c.toNat o fun w n => Wrote w e (w.hart.regs.setG d (BitVec.ofNat 64 n))) ∧
    (∀ o u r code, Reference s (s.g b) o → WordTarget s (s.g a) u r →
      (c.toNat ≤ code ∧ (u.hartScope code).contains (u.locationScope r.place r.attr) = true ∧ 1 ≤ code ∧ code ≤ 5 ∧
        ∀ k, 1 ≤ k → k < code → c.toNat ≤ k → (u.hartScope k).contains (u.locationScope r.place r.attr) = false) →
      Publishes (.pub e c a b) u (s.g b) code o fun w _ => .next ((w.putReference r (s.g b)).retire e))

namespace Sys2Proof.Claims
open Sys2Proof.Machine

/-- What an amount of kind 0, 3, 4, 5 or 6 makes of a context (R387, R391). -/
def more (kind x : Nat) (c : Ctx) : Ctx :=
  match kind with
  | 0 => { c with memory := c.memory + x }
  | 3 => { c with queues := c.queues + x }
  | 4 => { c with children := c.children + x }
  | 5 => { c with objects := c.objects + x }
  | _ => { c with ceiling := x }

/-- And what giving it back makes of it. -/
def less (kind x : Nat) (c : Ctx) : Ctx :=
  match kind with
  | 0 => { c with memory := c.memory - x }
  | 3 => { c with queues := c.queues - x }
  | 4 => { c with children := c.children - x }
  | 5 => { c with objects := c.objects - x }
  | _ => c

/-- The conditions on a granted amount of kind 0, 3, 4, 5 or 6 (R387, R391). -/
def Grantable (s : State) (issuer child : Ctx) (kind x : Nat) : Prop :=
  (kind = 0 ∧ x % 65536 = 0 ∧ x ≤ s.remaining issuer 0) ∨ (kind = 3 ∧ child.queues + x ≤ 64 ∧ x ≤ s.remaining issuer 3) ∨
  (kind = 4 ∧ child.depth < 3 ∧ x ≤ s.remaining issuer 4) ∨ (kind = 5 ∧ x ≤ s.remaining issuer 5) ∨
  (kind = 6 ∧ x ≤ 7 ∧ x ≤ issuer.ceiling)

/-- A handle names a context that is not revoked (R391 to R394). -/
def Names (s : State) (h : Word) (c : Ctx) : Prop := s.byHandle h = some c ∧ c.state ≠ .revoked

/-- A member that starts a collective, and its kind (R441). -/
def Starts (e : Bool) (d a : GReg) (i : Instr) (kind : CollKind) : Prop :=
  i = .colr e d a ∧ kind = .reduce ∨ i = .colg e d a ∧ kind = .gather ∨ i = .cols e d a ∧ kind = .scatter ∨ i = .colb e d a ∧ kind = .broadcast

/-- Hart `n` exists and its engines run (R267, R412, R419). -/
def On (s : State) (n : Nat) : Prop := ∃ h, s.harts.find? (fun h => h.id == n) = some h ∧ s.enginesRun h = true

/-- An event of hart `n` leaves the state `v`, with the hart that steps as it was. -/
def Leaves (i : Instr) (s v : State) : Prop := exec i s = .next (v.focus s.hart.id)

/-- What reaches its token when an operation ends (R76, R264). -/
def Told (u v : State) (token : Nat) (w : Word) : Prop :=
  (token ≠ 0 → u.hart.gone = false → Sparse.get zeroWord v.hart.regs.gpr token = w) ∧ (∀ k, k ∈ v.hart.pend → k ∈ u.hart.pend ∧ (token ≠ 0 → k ≠ token))

end Sys2Proof.Claims

/-- R385 to R395: CTXNEW creates a held child with nothing granted under a free number; CTXGRANT moves an amount that the issuer has left,
or takes one back, and denies another; CTXREVOKE ends a subtree; CTXRUN starts, holds or releases; CTXINFO reads; TRAPUP completes, then
raises the software trap from the parent on. In user mode the members of this family but CTXINFO of the own context and TRAPUP raise the
privileged trap. Units, counts and revocation follow logs 40 to 42; the number is a free choice (log 5). -/
def Obligations.ContextResults : Prop :=
  ∀ (e : Bool) (d a b : GReg) (sel : BitVec 7) (s : State),
    let w := (s.g b).toNat
    let kind := w / 2 ^ 56 % 128
    let x := w % 2 ^ 56
    let value (c : Ctx) : Prop :=
      let is (v : Word) : Prop := exec (.ctxinfo e d a sel) s = Wrote s e (s.hart.regs.setG d v)
      (sel = 0 → is (BitVec.ofNat 64 (c.depth * 65536 + c.num))) ∧ (∀ p q, sel = 1 → c.parent = some p → s.ctx? p = some q → is (BitVec.ofNat 64 (q.depth * 65536 + q.num))) ∧
      (sel = 1 → c.parent = none → is (BitVec.allOnes 64)) ∧
      (sel = 2 → is (BitVec.ofNat 64 ((match c.state with
        | .held => 0
        | .running => 1
        | .revoked => 2) + (s.childrenOf c.num).length % 256 * 4 + c.depth * 65536))) ∧
      (sel = 3 → is (if c.num = s.hart.ctx then BitVec.ofNat 64 (s.frameAddr s.hart) else 0)) ∧
      (8 ≤ sel.toNat → sel.toNat ≤ 14 → is (BitVec.ofNat 64 (s.remaining c (sel.toNat - 8)))) ∧
      (16 ≤ sel.toNat → sel.toNat ≤ 22 → is (BitVec.ofNat 64 (c.amount (sel.toNat - 16))))
    (Privileged (.ctxnew e d a) s ∧ Privileged (.ctxgrant e a b) s ∧ Privileged (.ctxrevoke e a) s ∧ Privileged (.ctxrun e a b) s ∧
      (s.g a ≠ BitVec.allOnes 64 → Privileged (.ctxinfo e d a sel) s)) ∧
    (∀ issuer u ws u1 fmt u2 rs, Supervisor s → s.issuer = some issuer → (s.g a).toNat % 256 = 0 → s.loadWords (s.g a) 32 = (u, .ok ws) →
      ccbLegal issuer ws = true →
      (ws.getD 0 0 % 2 = 0 ∧ u1 = u ∧ fmt = [] ∨
        ws.getD 0 0 % 2 = 1 ∧ u.loadWords (BitVec.ofNat 64 (ws.getD 2 0)) 4 = (u1, .ok fmt) ∧ formatLegal fmt = true) →
      u1.loadWords (BitVec.ofNat 64 (ws.getD 14 0)) (2 * (ws.getD 4 0 % 256)) = (u2, .ok rs) → overlayZeros (overlayOf rs) = true →
      overlaySorted (overlayOf rs) = true → u2.remaining issuer 4 ≠ 0 → (u2.ctxs.filter fun c => c.state != .revoked).length < 65535 →
      ∃ n child, 1 ≤ n ∧ n ≤ 65535 ∧ (∀ c ∈ u2.ctxs, c.state ≠ .revoked → c.num ≠ n) ∧ child = childOf issuer n ws fmt (overlayOf rs) ∧
        child.state = .held ∧ child.parent = some issuer.num ∧ child.depth = issuer.depth + 1 ∧ child.units = [] ∧ child.memory = 0 ∧
        child.queues = 0 ∧ child.children = 0 ∧ child.objects = 0 ∧
        exec (.ctxnew e d a) s = .next (({ ({ u2 with free := u2.free + 1 }.forgetCtx n) with
          ctxs := ({ u2 with free := u2.free + 1 }.forgetCtx n).ctxs ++ [child] }.setG d (BitVec.ofNat 64 (child.depth * 65536 + n))).retire e)) ∧
    (∀ issuer child, Supervisor s → s.issuer = some issuer → Names s (s.g a) child → child.parent = some s.hart.ctx →
      (w < 2 ^ 63 → Grantable s issuer child kind x → Completes (.ctxgrant e a b) s e (s.modCtx child.num (more kind x))) ∧
      (w < 2 ^ 63 → kind = 5 → s.remaining issuer 5 < x → Traps (.ctxgrant e a b) e s s 0x16 (BitVec.ofNat 64 x)) ∧
      (2 ^ 63 ≤ w → (kind = 0 ∧ x % 65536 = 0 ∨ kind = 3 ∧ x ≤ 64 ∨ kind = 4 ∨ kind = 5) → x ≤ s.remaining child kind →
        Completes (.ctxgrant e a b) s e (s.modCtx child.num (less kind x))) ∧
      (∀ c, kind = 2 → w < 2 ^ 63 → x / 2 ^ 32 = 0 → x / 2 ^ 8 % 256 = 0 → issuer.clusters[x / 2 ^ 16 % 65536]? = some c →
        let n := clusterIndex c.1 c.2
        let free := s.tagsHeld issuer n - (s.tagsHeld issuer n &&& s.tagsInUse n)
        (x % 256) &&& free = x % 256 → Completes (.ctxgrant e a b) s e (s.modCtx child.num fun c =>
          { c with grantedTags := Sparse.put zeroNat c.grantedTags n (Sparse.get zeroNat c.grantedTags n ||| x % 256) })) ∧
      (∀ c out back, s.hart.elix ≠ 1 → kind = 1 → w < 2 ^ 63 → x / 2 ^ 32 = 0 → x / 2 % 128 = 0 → x / 2 ^ 8 % 16 ≤ 7 → issuer.clusters[x / 2 ^ 16 % 65536]? = some c →
        issuer.cut (unitNamed c x) = some (out, back) →
        let t := ((out.foldl State.vacate s).moveUnit issuer.num child.num (unitNamed c x)).modCtx child.num fun k =>
          { k with granted := k.granted ++ [unitNamed c x] }
        t.stands issuer.num (unitNamed c x) = false → Completes (.ctxgrant e a b) s e t)) ∧
    (∀ c, Supervisor s → Names s (s.g a) c → s.descends s.hart.ctx c.num = true →
      (∃ t : State, Completes (.ctxrevoke e a) s e t ∧
        (∀ n, (∃ k ∈ s.drainAll.subtree c.num, k.num = n) →
          (∀ k ∈ t.ctxs, k.num = n → k.state = .revoked ∧ k.units = [] ∧ k.memory = 0 ∧ k.queues = 0 ∧ k.children = 0 ∧ k.objects = 0) ∧
          (∀ h ∈ t.others, h.ctx = n → ∃ m, h.run = .withdrawn m) ∧ (∀ o ∈ t.objs, o.ctx ≠ n) ∧ (∀ l ∈ t.launches, l.ctx ≠ n) ∧ (∀ q ∈ t.queues, q.ctx ≠ n))) ∧
      (s.g b = 0 → Completes (.ctxrun e a b) s e (s.modCtx c.num fun c => { c with state := .running })) ∧
      (s.g b = 1 → (s.holdCtx c.num).subtreeRuns c.num = false → Completes (.ctxrun e a b) s e (s.holdCtx c.num)) ∧
      (s.g b = 1 → (s.holdCtx c.num).subtreeRuns c.num = true → exec (.ctxrun e a b) s = .next (s.holdCtx c.num)) ∧
      (∀ h, s.g b ≠ 0 → w % 256 = 0 → s.stoppedAt c.num w = some h →
        let serving := s.harts.find? fun k => k.serves == some h.id && !k.gone
        (serving = none → Completes (.ctxrun e a b) s e (s.release h.id)) ∧
        (∀ k, serving = some k →
          (∀ f y, k.run = .frameFault f y → exec (.ctxrun e a b) s = .next s) ∧
          (∀ t, (∀ f y, k.run ≠ .frameFault f y) → s.setFrameState k 0 = .ok t → t.hart.id ≠ k.id → Completes (.ctxrun e a b) s e (t.release h.id)) ∧
          (∀ t, (∀ f y, k.run ≠ .frameFault f y) → s.setFrameState k 0 = .ok t → t.hart.id = k.id → exec (.ctxrun e a b) s = .next (t.release h.id)) ∧
          (∀ t, (∀ f y, k.run ≠ .frameFault f y) → s.setFrameState k 0 = .error t →
            exec (.ctxrun e a b) s = .next (t.onHart k.id fun s => s.frameFault .save)))) ∧
      (∀ u, s.g b ≠ 0 → w % 256 = 0 → s.stoppedAt c.num w = none →
        (s.revokedAt c.num w = (u, false) → Traps (.ctxrun e a b) e s u 0x03 (s.g b)) ∧
        (s.revokedAt c.num w = (u, true) → Traps (.ctxrun e a b) e s u 0x17 (s.g a)))) ∧
    (∀ c, Settled s → s.g a = BitVec.allOnes 64 → s.issuer = some c → value c) ∧
    (∀ c, Supervisor s → s.g a ≠ BitVec.allOnes 64 → Names s (s.g a) c → s.inSubtree s.hart.ctx c.num = true → value c) ∧
    (Settled s → exec (.trapup e a sel) s = .next ((s.retire e).deliver { cause := 0x19, tval := BitVec.ofNat 64 (0x80 + sel.toNat), stage := 1 }))

/-- R97, R399, R400, R405 to R408: LAUNCH registers a queue under a free number, takes an empty one back, or puts a record into its ring as
one step, and answers all ones where the ring is full; LWAIT completes with the word once it is final or its limit has passed, and waits
until then; LPRIO changes an incomplete launch's base priority and answers the old one; YIELD lets a crew in that wants the hart's place.
The queue's number is a free choice (log 5). -/
def Obligations.LaunchResults : Prop :=
  ∀ (e : Bool) (d a b : GReg) (s : State), Settled s →
    let q := s.g a
    (∀ u ws c, q.toNat % 256 = 0 → s.g b = 0 → s.loadWords q 32 = (u, .ok ws) → queueLegal ws = true → u.plainPage q = true → u.queueAt q = none →
      u.issuer = some c → u.remaining c 3 ≠ 0 → (u.queues.filter fun x => x.ctx == u.hart.ctx).length < 64 →
      ∃ n, n < 64 ∧ (∀ x ∈ u.queues, x.ctx = u.hart.ctx → x.num ≠ n) ∧
        Completes (.launch e d a b) s e ({ u with free := u.free + 1, queues := u.queues ++ [(⟨u.hart.ctx, n, q.toNat⟩ : Queue)] }.setG d (BitVec.ofNat 64 n))) ∧
    (∀ u ws x, q.toNat % 256 = 0 → s.g b = 1 → s.queueAt q = some x → s.loadWords q 5 = (u, .ok ws) →
      (ws.getD 3 0 % 2 ^ 32 = ws.getD 4 0 % 2 ^ 32 → (∀ l ∈ u.launches, l.ctx = u.hart.ctx → l.queue ≠ x.num) →
        Completes (.launch e d a b) s e ({ u with queues := u.queues.filter fun y => y != x }.setG d 0)) ∧
      (ws.getD 3 0 % 2 ^ 32 ≠ ws.getD 4 0 % 2 ^ 32 → exec (.launch e d a b) s = .next u)) ∧
    (∀ u1 ws u2 xs x, q.toNat % 256 = 0 → s.g b ≠ 0 → (s.g b).toNat % 256 = 0 → s.queueAt q = some x → s.loadWords (s.g b) 32 = (u1, .ok ws) →
      recordLegal ws = true → u1.loadWords q 5 = (u2, .ok xs) →
      let n := xs.getD 1 0
      let tail := xs.getD 3 0 % 2 ^ 32
      let ahead := (tail + 2 ^ 32 - xs.getD 4 0 % 2 ^ 32) % 2 ^ 32
      let done := ws.getD 2 0
      let slot := BitVec.ofNat 64 (xs.getD 0 0 + 256 * (tail % max 1 n))
      let targets := (if done = 0 then [] else [BitVec.ofNat 64 done]) ++ ((List.range 32).map fun k => slot + BitVec.ofNat 64 (8 * k)) ++ [q + 0x18]
      let values := (if done = 0 then [] else [0xFFFF * 2 ^ 48 + ws.getD 3 0 % 65536 * 2 ^ 32]) ++ ws ++ [(tail + 1) % 2 ^ 32]
      (n ≤ ahead → exec (.launch e d a b) s = Wrote u2 e (u2.hart.regs.setG d (BitVec.allOnes 64))) ∧
      (∀ u3 rs, ahead < n → u2.storeTargets targets = (u3, .ok rs) →
        Completes (.launch e d a b) s e ((u3.drainAll.storeWords (rs.zip values)).setG d (BitVec.ofNat 64 tail)))) ∧
    (∀ u x, q.toNat % 8 = 0 → Acquires s q 8 u x →
      let v := u.waitUntil (u.g b).toNat
      (x / 2 ^ 48 ≠ 0xFFFF ∨ v.limitPassed = true → Completes (.lwait e d a b) s e (v.setG d (BitVec.ofNat 64 x))) ∧
      (x / 2 ^ 48 = 0xFFFF → v.limitPassed = false → exec (.lwait e d a b) s = .next v)) ∧
    (7 < (s.g b).toNat → Traps (.lprio e d a b) e s s 0x03 (s.g b)) ∧
    ((s.g b).toNat ≤ 7 → s.launchAt s.hart.ctx q.toNat = none → exec (.lprio e d a b) s = Wrote s e (s.hart.regs.setG d (BitVec.allOnes 64))) ∧
    (∀ l, (s.g b).toNat ≤ 7 → s.launchAt s.hart.ctx q.toNat = some l →
      ∃ t : State, Completes (.lprio e d a b) s e (t.setG d (BitVec.ofNat 64 l.base)) ∧ t = { s with launches := t.launches } ∧
        t.launches = s.launches.map fun m => if m.id = l.id then { m with base := min (s.g b).toNat (((s.ctx? m.ctx).map (·.ceiling)).getD 0) } else m) ∧
    (∀ c, (s.retire e).crew? (s.retire e).hart.crew = some c →
      let t := s.retire e
      let wants (k : Candidate) : Prop := t.crewPriority c ≤ (k.launch.map t.priority).getD 7 ∧ (t.fit k c.id 0).isSome = true
      (c.ctx = t.hart.ctx → (∃ k ∈ t.readyCrews c.ctx, wants k) →
        exec (.yield e) s = .next (t.modCrew c.id fun c => { c with preempting := true })) ∧
      ((∀ k ∈ t.readyCrews c.ctx, ¬ wants k) ∨ c.ctx ≠ t.hart.ctx → exec (.yield e) s = .next t)) ∧
    ((s.retire e).crew? (s.retire e).hart.crew = none → exec (.yield e) s = .next (s.retire e))

/-- R319, R441 to R447: the members that start a collective read its descriptor and its group and fork it, unless four are open; COLW
answers the status of an ended one, or waits until its limit, and traps for one whose member is lost; COLA ends one; FENCE.ENG waits until
no engine operation of the hart is open. Ready and abort flits reach a member whether its hart runs or not; a
chunk that does not match ends with status 2, one for a lost member whose buffers are not mirrored with 3 (R449), and another is reduced into stage;
once ended a collective tells its token. What other members send is an argument of the event (log 45). -/
def Obligations.CollectiveResults : Prop :=
  ∀ (e : Bool) (d a b : GReg) (sc : BitVec 3) (kind : CollKind) (i : Instr) (s : State), Starts e d a i kind →
    (Settled s →
      (4 ≤ (s.hart.colls.filter fun c => !c.delivered).length → exec i s = .next s) ∧
      (∀ u1 ws u2 hd u3 es rank, (s.hart.colls.filter fun c => !c.delivered).length < 4 → (s.g a).toNat % 64 = 0 →
        s.loadWords (s.g a) 8 = (u1, .ok ws) → collLegal ws = true → u1.loadWords (BitVec.ofNat 64 (ws.getD 2 0)) 1 = (u2, .ok [hd]) →
        groupLegal hd = true → u2.loadWords (BitVec.ofNat 64 (ws.getD 2 0) + 8) (hd % 256 + 1) = (u3, .ok es) → rankOf u3.pkg.fabricId es = some rank →
        let group := hd / 2 ^ 32 % 2 ^ 32
        let token := tokenReg u3 d
        ∃ c : Coll, c.id = u3.nextId ∧ c.kind = kind ∧ c.vt = BitVec.ofNat 7 (ws.getD 0 0) ∧ c.reduction = ws.getD 0 0 / 2 ^ 8 % 8 ∧
          (ws.getD 0 0 / 2 ^ 5 % 4 = 1 → c.asFloat = true) ∧ c.op = ws.getD 0 0 / 2 ^ 32 % 65536 ∧ c.count = ws.getD 1 0 ∧
          c.root = ws.getD 0 0 / 2 ^ 16 % 256 ∧ c.send = BitVec.ofNat 64 (ws.getD 3 0) ∧ c.recv = BitVec.ofNat 64 (ws.getD 4 0) ∧
          c.stage = BitVec.ofNat 64 (ws.getD 5 0) ∧ c.frec = BitVec.ofNat 64 (ws.getD 6 0) ∧ c.table = BitVec.ofNat 64 (ws.getD 2 0) ∧
          c.group = group ∧ c.seqno = Sparse.get zeroNat u3.pkg.collSeq group ∧ c.rank = rank ∧ c.devices = es.map (· % 65536) ∧
          c.backups = es.map (fun x => x / 65536 % 65536) ∧ c.seed = u3.hart.rseed ∧
          c.splane = [u3.hart.splane0, u3.hart.splane1, u3.hart.splane2, u3.hart.splane3] ∧ c.token = token ∧ c.chunks = 0 ∧ c.results = [] ∧
          c.answers = [] ∧ c.ready = (if c.chunkCount = 0 then rank :: u3.pkg.answersFor c else []) ∧ c.written = 0 ∧ c.delivered = false ∧
          c.ended = (if c.devices.any (fun x => u3.pkg.lost.contains x && !u3.pkg.answered c x) then some 3 else none) ∧
          Completes i s e { u3 with
            free := u3.free + 1, nextId := u3.nextId + 1
            pkg := { u3.pkg with collSeq := Sparse.put zeroNat u3.pkg.collSeq group (Sparse.get zeroNat u3.pkg.collSeq group + 1) }
            hart := { u3.hart with
              pend := if token = 0 then u3.hart.pend else u3.hart.pend ++ [token]
              colls := (u3.hart.colls.filter fun x => !(x.delivered && (x.token == token || x.token == 0))) ++ [c] } }) ∧
      (s.hart.collOf a = none → exec (.colw e d a b) s = Wrote s e (s.hart.regs.setG d 0) ∧ Completes (.cola e a) s e s) ∧
      (∀ c, s.hart.collOf a = some c →
        let u := s.waitUntil (s.g b).toNat
        (c.ended = none → Completes (.cola e a) s e (s.modColl c.id fun c => { c with ended := some 2 })) ∧
        (c.ended = none → u.limitPassed = true → Completes (.colw e d a b) s e (u.setG d (status 0xFFFF c.op c.written))) ∧
        (c.ended = none → u.limitPassed = false → exec (.colw e d a b) s = .next u) ∧
        (∀ st, c.ended = some st → st ≠ 3 → Completes (.colw e d a b) s e ((u.completeColl c).setG d (status st c.op c.written))) ∧
        (c.ended = some 3 → Traps (.colw e d a b) e s ((u.completeColl c).setG d (status 3 c.op c.written)) 0x1F (BitVec.ofNat 64 c.op))) ∧
      (s.enginesBusy s.hart = false → Completes (.fenceEng e sc) s e s.performLate.drainAll) ∧ (s.enginesBusy s.hart = true → exec (.fenceEng e sc) s = .next s.engineStep)) ∧
    (∀ n k c, s.hasHart n = true → (s.focus n).hart.colls.find? (fun c => c.id == k) = some c →
      let u := s.focus n
      (∀ r, c.ready.contains r = false → r ≠ c.rank →
        Leaves (.readyFlitReceive n k r) s (u.modColl k fun c => { c with ready := r :: c.ready })) ∧
      (c.ended = none → c.allReady = false → Leaves (.abortFlitReceive n k) s (u.modColl k fun c => { c with ended := some 3 })) ∧
      (c.allReady = true → Leaves (.abortFlitReceive n k) s u)) ∧
    (∀ n k c, On s n → (s.focus n).hart.colls.find? (fun c => c.id == k) = some c →
      let u := s.focus n
      (∀ st, c.ended = some st → c.delivered = false → ∃ v : State, Leaves (.collectiveComplete n k) s v ∧ Told u v c.token (status st c.op c.written) ∧
        ∀ x ∈ v.hart.colls, x.id = k → x.delivered = true) ∧
      (∀ peers, c.ended = none → c.chunks = 0 → 0 < c.chunkCount → c.matched (u.pkg.answersFor c) peers = false →
        Leaves (.collectiveChunk n k peers) s (u.modColl k fun c => { c with ended := some 2 })) ∧
      (∀ peers, c.ended = none → c.chunks < c.chunkCount → c.matched (u.pkg.answersFor c) peers = true → u.pkg.answers c peers = none →
        Leaves (.collectiveChunk n k peers) s (u.modColl k fun c => { c with ended := some 3 })) ∧
      (∀ peers answers u0 base u1 rbase u2 own u3, c.ended = none → c.chunks < c.chunkCount → c.matched (u.pkg.answersFor c) peers = true →
        u.pkg.answers c peers = some answers →
        (if (c.reads c.chunk).isEmpty then (u.performLate.drainAll, Base.window) else u.performLate.drainAll.bufferBase c c.send) = (u0, base) →
        u0.bufferBase c c.recv = (u1, rbase) →
        let width := elemBits rbase.fmt c.vt
        u1.readElems c base width (c.reads c.chunk) = (u2, .ok own) →
        let each := 2 * c.size * (c.chunk.length + 1)
        let w := { u2 with free := u2.free + each * (answers.length + 1) }
        let reduced (first to' : Nat) : List (Nat × Bool) := ((List.range c.chunk.length).zip c.chunk).map fun p =>
          c.result (c.reckon base.fmt) width (first + 2 * c.size * p.1) p.2 (w.gathered c width answers own peers to' p.1 p.2)
        let out := reduced u2.free c.rank
        let lost := answers.zipIdx.map fun a => { a.1 with
          out := a.1.out ++ if c.kind = .scatter then reduced (u2.free + each * (a.2 + 1)) a.1.rank else out }
        w.writeElems c c.stage (c.chunk.zip out) = (u3, .ok ()) →
        ∃ v : State, Leaves (.collectiveChunk n k peers) s v ∧ v = { u3 with hart := { u3.hart with colls := v.hart.colls } } ∧
          v.hart.colls = u3.hart.colls.map fun x => if x.id = k then { x with
            chunks := x.chunks + 1, results := x.results ++ out, answers := lost
            ready := if x.chunks + 1 ≥ x.chunkCount then ((x.rank :: lost.map (·.rank)).filter fun r => !x.ready.contains r) ++ x.ready else x.ready } else x))

namespace Sys2Proof.Claims
open Sys2Proof.Machine

/-- An event leaves the state `t`, the hart that steps included. -/
def Event (i : Instr) (t : State) (s : State) : Prop := exec i s = .next t

/-- A record that the scheduler accepts (R401 to R403): its queue, head and words, with the state `v` after it has read them. -/
def Accepts (s : State) (ctx queue : Nat) (q : Queue) (c : Ctx) (v : State) (head : Nat) (ws : List Nat) : Prop :=
  s.queues.find? (fun q => q.ctx == ctx && q.num == queue) = some q ∧ s.ctx? q.ctx = some c ∧ ∃ u ring n tail, s.queueWords q = .ok (u, ring, n, tail, head) ∧
  tail ≠ head ∧ u.launches.length < 4096 ∧ u.recordWords q.ctx (ring + 256 * (head % max 1 n)) 32 = .ok (v, ws)

/-- The crown's ring takes an event of the I/O die (R433, R434). -/
def crownFiled (s : State) (code addr : Nat) : State := s.fileIn 8 1 code addr ioSrc

/-- A part of the package fails (R227, R285): the crews on its units are withdrawn whole, their launches aborted, and no context keeps a unit
of it; then the event is filed for each context that had one. -/
def Fails (i : Instr) (s u : State) (bad : CoreUnit → Bool) (code src : Nat) : Prop :=
  ∃ v : State, exec i s = .next (((u.ctxs.filter fun c => c.state != .revoked && c.units.any bad).map (·.num)).foldl (fun s n => s.fileEvent n code 0 src) v) ∧
    (∀ c ∈ v.ctxs, ∀ x ∈ c.units, bad x = false) ∧
    (∀ t ∈ u.teams, t.resident = true → bad t.core = true → ∀ c ∈ u.crews, c.id = t.crew →
      (∀ k ∈ v.crews, k.id ≠ c.id) ∧ (∀ h ∈ v.others, h.crew ≠ c.id) ∧ ∀ l ∈ v.launches, l.id = c.launch → l.aborted = true)

end Sys2Proof.Claims

/-- R96, R177, R264, R284, R311, R315, R318, R407, R445: the ends of a hart's waits let it go on, its late vector loads or its oldest store of a
class are performed, its copies, queued operations and gathers advance and end, its sample is written, and a hart that is to stop for good
stops; R184, R188: the exit tests of the oldest strip resolve, which releases what they alone held, and at its strip's decision point the
oldest trim that no candidate has suppressed is taken. When a test resolves is the model's own list (log 16). -/
def Obligations.HartEvents : Prop :=
  ∀ (s : State) (n : Nat),
    let u := s.focus n
    (On s n →
      (∀ t, u.hart.waiting = .tick t → u.pkg.cycle / 256 ≠ t → Leaves (.waitEnd n) s (u.modHart fun h => { h with waiting := .none })) ∧
      (∀ t, u.hart.waiting = .tick t → u.pkg.cycle / 256 = t → Leaves (.waitEnd n) s u) ∧
      (∀ e b rest w t, u.hart.convoy = .waitw e b :: rest → Settled u → u.hart.watch = some w → u.hart.waiting = .until t → t ≤ u.pkg.cycle / 256 →
        Leaves (.waitwTimeout n) s ((u.modHart fun h => { h with watch := none }).retire e)) ∧
      (∀ e b rest w t, u.hart.convoy = .waitw e b :: rest → Settled u → u.hart.watch = some w → u.hart.waiting = .until t → w.fired = true →
        Leaves (.waitwWake n) s ((u.modHart fun h => { h with watch := none }).retire e)) ∧
      (∀ e d a b rest v x t, u.hart.convoy = .lwait e d a b :: rest → Settled u → u.hart.waiting = .until t → t ≤ u.pkg.cycle / 256 →
        (u.g a).toNat % 8 = 0 → Acquires u (u.g a) 8 v x → v.hart.waiting = .until t → t ≤ v.pkg.cycle / 256 →
        Leaves (.lwaitTimeout n) s ((v.setG d (BitVec.ofNat 64 x)).retire e)) ∧
      (∀ e d a b rest c t, u.hart.convoy = .colw e d a b :: rest → Settled u → u.hart.waiting = .until t → t ≤ u.pkg.cycle / 256 →
        u.hart.collOf a = some c → c.ended = none → Leaves (.colwTimeout n) s ((u.setG d (status 0xFFFF c.op c.written)).retire e)) ∧
      (∀ e c rest t, u.hart.convoy = .fenceSc e c :: rest → Settled u → u.hart.waiting = .boundary t → t < u.pkg.cycle / 256 →
        Leaves (.fenceScTick n) s (u.synced.retire e)) ∧
      (∀ k c, u.copy? k = some c → c.ended = none → c.aborting = true →
        Leaves (.copyStrip n k) s (u.modCopy k fun c => { c with ended := some 2 })) ∧
      (∀ k c s1 sb s2 db s3 xs s4 gs, u.copy? k = some c → c.ended = none → c.aborting = false →
        let v := u.performLate.drainAll
        (if c.length = 0 then (v, Base.window) else v.baseOf (c.reg 0)) = (s1, sb) →
        (if c.length = 0 ∨ c.multi = true then (s1, Base.window) else s1.baseOf (c.reg 1)) = (s2, db) →
        s2.checkMoves (c.side false sb) (c.side true db) (c.moves s2.hart.spbase (elemBits sb.fmt c.vt) (elemBits db.fmt c.vt) c.strips) = (s3, .ok xs) →
        s3.readMoves c (c.side false sb) (c.side true db) xs = (s4, gs) →
        let w := s4.writeStrip (c.side true db) gs
        let bad := gs.any (·.2)
        ∃ t : State, Leaves (.copyStrip n k) s t ∧ t = { w with hart := { w.hart with copies := t.hart.copies } } ∧
          t.hart.copies = w.hart.copies.map fun x => if x.id = k then { x with
            strips := x.strips + 1, count := x.count + c.length, poisoned := x.poisoned || bad
            unacked := x.unacked + (gs.filter fun g => w.mirrored w.hart.ctx g.1.place).length
            ended := if x.strips + 1 < x.total then none else some (if x.poisoned || bad then 4 else 0) } else x) ∧
      (∀ k c st, u.copy? k = some c → c.ended = some st → c.delivered = false → c.unacked = 0 →
        ∃ v : State, Leaves (.copyCompletion n k) s v ∧ Told u v c.token (status st c.op c.count) ∧ ∀ x ∈ v.hart.copies, x.id = k → x.delivered = true) ∧
      (∀ k c st, u.copy? k = some c → c.ended = some st → c.unacked ≠ 0 → Leaves (.copyCompletion n k) s u) ∧
      (∀ op rest, u.hart.matrix = op :: rest → Leaves (.matrixOpPerform n) s ((u.performLate.drainAll.modHart fun h => { h with matrix := rest }).performMatrix op)) ∧
      (∀ k g s1 base s2 r, u.hart.gathers[k]? = some g → g.performed = none → u.drainAll.seqBase (fun _ => true) g.table g.packed [0] = (s1, base) →
        s1.gatherRun g base (List.range g.vl) = (s2, some r) →
        Leaves (.queuedGatherPerform n k) s (s2.modHart fun h => { h with gathers := h.gathers.modify k fun g => { g with performed := some r } })) ∧
      (∀ place dirty via token head info elems, u.hart.sample = some ⟨place, dirty, via, token, .done false head info elems⟩ →
        ∃ data : List Byte, data.length = 64 ∧ data.take 16 = natToBytes head.toNat 8 ++ natToBytes info.toNat 8 ∧
          Leaves (.sampleRecordWrite n) s (((({ u with free := u.free + 4 } : State).perform
            ⟨place, data, false, false, false, u.hart.ctx, dirty, via, false⟩).modHart fun h => { h with sample := none }).deliverToken token (status 0 0 64))) ∧
      (∀ w, u.hart.matrix = [] → u.hart.stores = [] → u.hart.late = [] → u.storesStuck = false → (∀ h ∈ u.others, h.id ≠ n) →
        u.setFrameState u.hart 0 = .ok w →
        (u.hart.run = .retiring → ∃ v : State, Leaves (.hartRetire n) s v ∧ ∀ h ∈ v.harts, h.id = n → h.run = .retired) ∧
        (u.hart.run = .halting → ∃ v : State, Leaves (.hartRetire n) s v ∧ ∀ h ∈ v.harts, h.id = n → h.run = .halted))) ∧
    (s.hasHart n = true → u.hart.late ≠ [] → Leaves (.accessPerformed n true) s u.performLate) ∧
    (∀ v old q new, s.hasHart n = true → (v = true → u.hart.late = []) → u.hart.stores = old ++ q :: new → (∀ x ∈ old, x.vector ≠ v) → q.vector = v →
      u.stuck q = false →
      Leaves (.accessPerformed n v) s ((u.modHart fun h => { h with stores := old ++ new }).perform q)) ∧
    (∀ m, exec (.mirrorAck n m) s = .next (s.mapHarts fun h => { h with copies := h.copies.map fun c => if c.id = n then { c with unacked := c.unacked - m } else c })) ∧
    (s.executes = false → exec .exitTestResolve s = .next s) ∧
    (s.executes = true → s.hart.region.strips = [] → s.hart.region.pending = false → exec .exitTestResolve s = .next s) ∧
    (s.executes = true → s.hart.region.strips = [] → s.hart.region.pending = true →
      exec .exitTestResolve s = .next (s.modHart fun h => { h with region := { h.region with pending := false } }).releaseCaddy) ∧
    (∀ x rest, s.executes = true → s.hart.region.strips = x :: rest →
      let v := s.modHart fun h => { h with region := { h.region with strips := { x with pending := false } :: rest } }
      exec .exitTestResolve s = .next (v.resolveLeading (rest.length + 2)) ∧
      (∀ tr, genuine x.trims = some tr → exec .exitTestResolve s = .next ((v.takeTrim x.caddy tr).resolveLeading (rest.length + 1)))) ∧
    (∀ i rest tr more c, s.hart.convoy = i :: rest → s.hart.region.trims = tr :: more → s.executes = true → decidesTrims i = true → tr.cause ≠ 0x07 →
      s.hart.region.strips = [] → s.hart.region.pending = false → tr.suppressed = false → tr.caddy = 0 → tr.cause ≠ 0x14 → tr.stage = 0 → tr.saved.tstat.getLsbD 0 = false → s.ctx? s.hart.ctx = some c → c.enable.getLsbD tr.cause.toNat = true →
      ∃ t w, exec .stripResolve s = .next t ∧ entered tr.saved.tstat w false false ∧ t.hart.regs = { tr.saved with tstat := w } ∧
        t.hart.tcause = tr.cause.setWidth 64 ∧ t.hart.tpc = tr.pc ∧ t.hart.telix = BitVec.ofNat 64 tr.element ∧ t.hart.tval = tr.tval ∧
        t.hart.pc = s.hart.tvec ∧ t.hart.caddy = [] ∧ t.hart.region.trims = [] ∧ t.hart.stores = s.hart.stores ∧ t.mem = s.mem ∧ t.teams = s.teams)

/-- R269, R322, R401 to R404, R409, R410, R412, R413: a record is accepted as a launch, or completes with status 2 and an error event; a
crew that fits is bound, with its harts at the entry address; a pre-emption takes a crew whose harts have stopped off its units; a ready
launch ages; a hint moves its pages, or is dropped after 2^16 ticks; a launch none of whose crews is left completes with its status. Binding
choices, aging and hints follow logs 43, 44 and 52. -/
def Obligations.SchedulerEvents : Prop :=
  ∀ (s : State) (n m : Nat),
    (∀ q c v head ws, Accepts s n m q c v head ws →
      let l := launchOf v.nextId c.num q.num head c.ceiling (v.pkg.cycle / 256) ws
      let good := recordLegal ws = true ∧ v.launchAt c.num l.done = none ∧ v.placeable c l = true
      (∀ w, good → ({ v with nextId := v.nextId + 1, launches := v.launches ++ [l] } : State).ctxPut q.ctx (q.desc + 0x20) ((head + 1) % 2 ^ 32) false = .ok w →
        exec (.launchAccept n m) s = .next w) ∧
      (¬ good →
        let u := (({ v with nextId := v.nextId + 1 } : State).writeDone c.num l.done l.op 2 0).fileEvent c.num 0x08 0 (l.op * 65536)
        ∀ w, u.ctxPut q.ctx (q.desc + 0x20) ((head + 1) % 2 ^ 32) false = .ok w → exec (.launchAccept n m) s = .next w)) ∧
    (∀ id ctx queue seqno ceiling tick (ws : List Nat),
      let l := launchOf id ctx queue seqno ceiling tick ws
      let g := ws.getD 4 0
      l.entry = BitVec.ofNat 64 (ws.getD 0 0) ∧ l.args = BitVec.ofNat 64 (ws.getD 1 0) ∧ l.done = ws.getD 2 0 ∧ l.rows = g % 4 + 1 ∧
      l.cols = g / 2 ^ 2 % 4 + 1 ∧ l.hartsPerTeam = g / 2 ^ 4 % 2 + 1 ∧ l.stages = g / 2 ^ 5 % 8 + 1 ∧ l.crewsPerStage = g / 2 ^ 8 % 256 + 1 ∧
      l.base = min (g / 2 ^ 17 % 8) ceiling ∧ l.tags = BitVec.ofNat 8 (g / 2 ^ 24)) ∧
    (let r := s.reap.readDeps n
      let v := { r.tallyAll with launches := r.tallyAll.launches.map Launch.grow }
      ∀ k l f, v.bindOrder n = [k] → k.crew = none → k.launch = some l → v.fit k v.nextId m = some f →
        ∃ t : State, exec (.crewBind n m) s = .next t ∧
          (∃ c ∈ t.crews, c.id = v.nextId ∧ c.launch = l.id ∧ c.ctx = l.ctx ∧ c.stage = k.stage ∧ c.index = k.index ∧ c.resident = true ∧
            c.tags = l.tags ∧ c.die = f.die ∧ c.cluster = f.cluster) ∧
          ∀ h ∈ t.others, (∃ h' ∈ v.others, h'.id = h.id) ∨ (h.pc = l.entry ∧ h.regs.g 1 = l.args ∧ h.ctx = l.ctx ∧ h.crew = v.nextId ∧
            (h.run = .ready ∨ (∃ y, h.run = .frameFault .start y) ∨ h.run = .crownHalted))) ∧
    (∀ c, s.crew? n = some c → c.resident = true → c.preempting = true → s.crewStopped c = true →
      let held (h : Hart) : Bool := s.takes c h && h.run == .ready && !h.sure
      (∀ h, s.harts.find? held = some h → exec (.preemptionComplete n) s = .next (s.onHart h.id State.undoTrims)) ∧
      (s.harts.find? held = none →
        let out := (s.harts.filter fun h => s.takes c h && !h.inFrame).map (·.id)
        let u := out.foldl (fun s h => s.onHart h State.settleOut) s
        let v := out.foldl (fun s h => s.onHart h State.saveHart) u
        let x := ((v.teams.filter fun t => t.crew == n).foldl (State.savePad out) v).alignBarriers out c
        v.saveFailed c = false → (∀ h ∈ v.harts, h.crew = n → h.gone = true ∨ v.takes c h = true) → x.saveFailed c = false →
          ∃ t : State, exec (.preemptionComplete n) s = .next t ∧ t = { x with teams := t.teams, crews := t.crews } ∧
            (∀ k ∈ t.crews, k.id = n → k.resident = false ∧ k.preempting = false) ∧ ∀ y ∈ t.teams, y.crew = n → y.resident = false)) ∧
    (∀ l ∈ s.launches, l.id = n → ∃ t : State, exec (.priorityAging n) s = .next t ∧ t = { s with launches := t.launches } ∧
      { s.tally l with age := (s.tally l).age + (s.tally l).waited / 2 ^ 16, waited := (s.tally l).waited % 2 ^ 16 } ∈ t.launches) ∧
    (∀ l x, let v := s.applyModes
      s.launch? n = some l → l.hintPending = true → (v.unmet l).isEmpty = true → v.ctxRuns l.ctx = true →
      v.quiet (fun pa => (v.hintPages l).contains (pa / 65536)) = true → l.hint.toNat % 2 ^ 32 = 1 →
      v.lookup l.ctx l.hintBase = .ok x → v.linkWaits (.phys (65536 * (x.pa / 65536))) = false →
      ∃ t : State, exec (.homeBiasMove n) s = .next t ∧ (∀ k ∈ t.launches, k.id = n → k.hintPending = false) ∧ t.mem = s.mem ∧
        (l.hint.getLsbD 34 = true → Sparse.get zeroNat t.homes (x.pa / 65536) % 4 = l.hint.toNat / 2 ^ 32 % 4) ∧
        (l.hint.getLsbD 34 = false → Sparse.get zeroNat t.homes (x.pa / 65536) % 4 = Sparse.get zeroNat s.homes (x.pa / 65536) % 4)) ∧
    (∀ l ∈ s.launches, l.id = n → (s.tally l).hintPending = true → (s.tally l).hintAt + 2 ^ 16 ≤ s.pkg.cycle / 256 →
      ∃ t : State, exec (.hintTimeout n) s = .next t ∧ t = { s with launches := t.launches } ∧ { s.tally l with hintPending := false } ∈ t.launches) ∧
    (∀ l, let v := s.reap
      v.launch? n = some l → v.doneWaits l = false → v.depFailed l = false → l.unbound = [] → (∀ c ∈ v.crews, c.launch ≠ l.id) →
      let code := if l.aborted then 2 else if l.faulted then 1 else if l.poisoned then 4 else 0
      ∃ t : State, exec (.launchCompletion n) s = .next t ∧
        t = { v.writeDone l.ctx l.done l.op code l.stopped with launches := t.launches } ∧ (∀ k ∈ t.launches, k.id ≠ l.id))

/-- R172, R173, R380, R381, R396: an answer ends a page request: a hart none of whose pages is open any more is to resume, and after a
failed page to trap; a free entry takes a waiting request; a Function Level Reset revokes the context that the function is bound to. The
place of the ring and the stage of a failed page follow log 26. -/
def Obligations.PageEvents : Prop :=
  ∀ (s : State) (id : Nat) (p : PageReq) (code : BitVec 4), s.page? id = some p →
    (∀ i u good, (i = .pageRequestAnswer id ∧ s.pageAnswer p = some (u, good) ∨
        i = .pageRequestGroupResponse id code ∧ p.viaHost = true ∧ u = s ∧ good = decide (code = 0)) →
      ∃ t : State, exec i s = .next t ∧ t.pages = u.pages.filter (fun x => x.id != id) ∧ t = { u with pages := t.pages, hart := t.hart, others := t.others } ∧
        (∀ h ∈ u.harts, h.id ∈ p.waiters → h.run = .paging → (∀ x ∈ u.pages, x.id ≠ id → h.id ∉ x.waiters) →
          ∃ h' ∈ t.harts, h'.id = h.id ∧ h'.run = .resuming ∧ (good = true → h' = { h with run := .resuming }) ∧ (good = false → h'.pageFailed.isSome = true)) ∧
        (∀ h ∈ u.harts, h.id ∉ p.waiters → h ∈ t.harts)) ∧
    (∀ h v q, p.slot = none → s.harts.find? (fun h => p.waiters.contains h.id) = some h → s.placeRequest p (s.ctxid h.ctx) = (v, q) →
      exec (.pendingPageEntryFree id) s = .next { v with pages := v.pages.map fun x => if x.id = p.id then q else x }) ∧
    (∀ (port : Bool) (function : BitVec 6) c, s.ctxs.find? (fun c => c.state != .revoked && c.vf.getLsbD 16 && c.vf.getLsbD 15 == port &&
        c.vf.toNat % 64 == function.toNat) = some c → s.ctx? c.num = some c →
      ∃ t : State, exec (.functionLevelReset port function) s = .next t ∧ ∀ k ∈ t.ctxs, k.num = c.num → k.state = .revoked ∧ k.vf = 0)

/-- R227, R285, R426 to R430, R437: a core or a cluster fails with what stands on it; a channel's words are poisoned; an alarm raises the
level, takes keys and freezes the tenants, and is cleared by its register or by provisioning; grant steps follow the mean draw; a reset
starts the boot image, or recovery, which a recovery image ends. The manifest's constants are log 2's; what a reset keeps is log 46's. The words
that name the failed unit in events 0x06 and 0x07 are log 48's (DESIGN CHOICE); that the clock rises again while the draw lies below 95 % of the
budget is log 13's (DESIGN CHOICE: R430 gives the step and not the moment). -/
def Obligations.DeviceEvents : Prop :=
  ∀ (s : State),
    (∀ d c k, Fails (.coreFailure d c k) s { s with pkg := { s.pkg with failedCores := (d, c, k) :: s.pkg.failedCores } }
      (fun u => u.die == d && u.cluster == c && u.core == k) 0x06 (d + c * 8 + k * 128)) ∧
    (∀ d c, Fails (.clusterFailure d c) s { s with pkg := { s.pkg with failedClusters := (d, c) :: s.pkg.failedClusters } }
      (fun u => u.die == d && u.cluster == c) 0x07 (d + c * 8)) ∧
    (∀ base size, 0 < size → ∃ (v : State) (owners : List Nat),
      exec (.channelFailure base size) s = .next (owners.foldl (fun s n => s.fileEvent n 0x0E base ioSrc) (crownFiled v 0x0E base)) ∧
      (∀ a, base ≤ a → a < base + size → v.poisoned (.phys a) = true) ∧ (base, size) ∈ v.pkg.failedChannels ∧ v.mem = s.mem ∧
      (∀ a n, base ≤ a * 256 → a * 256 < base + size → (a, n) ∈ s.owner → n ≠ 0 → n ≠ 1 → n ∈ owners)) ∧
    (∀ sensor, let u := crownFiled s 0x0C 0
      let level := s.pkg.manifest.alarmLevel sensor
      ∃ t : State, exec (.securityAlarm sensor) s = .next t ∧ t = { u with pkg := t.pkg } ∧ t.pkg.alarm = max u.pkg.alarm level ∧
        t.pkg.sessionKeys = (u.pkg.sessionKeys && decide (level < 2)) ∧ t.pkg.deviceKeys = (u.pkg.deviceKeys && decide (level < 3)) ∧
        t.pkg.refuseAttest = (u.pkg.refuseAttest || decide (3 ≤ level)) ∧ (2 ≤ level → ∀ n ∈ u.pkg.frozen ++ u.tenants, n ∈ t.pkg.frozen)) ∧
    exec .alarmRegisterWrite s = .next { s with pkg := { s.pkg with alarm := if s.pkg.alarm ≤ 2 then 0 else s.pkg.alarm } } ∧
    (∀ ok (v : BitVec 32), (ok = true ∧ s.pkg.idVersion ≤ v.toNat →
        exec (.provisioningImage ok v) s = .next { s with pkg := { s.pkg with
          alarm := if s.pkg.alarm = 3 then 0 else s.pkg.alarm, deviceKeys := true, refuseAttest := false, idAccepted := v.toNat } }) ∧
      (¬ (ok = true ∧ s.pkg.idVersion ≤ v.toNat) → exec (.provisioningImage ok v) s = .next s)) ∧
    (∀ port, exec (.attestationRequest port) s = .next { s with pkg := { s.pkg with attested := (!s.pkg.refuseAttest) :: s.pkg.attested } }) ∧
    (∀ draw hot cool cores, s.pkg.boundary = false →
      exec (.powerGrantStep draw hot cool cores) s = .next { s with pkg := { s.pkg with power := some ⟨draw, hot, cool, cores⟩ } }) ∧
    (∀ draw hot cool cores, s.pkg.boundary = true →
      let step (c : Nat) : Nat := Sparse.get zeroNat s.pkg.grant c
      let units := enabledUnits s.pkg.manifest
      let budget := s.pkg.manifest.budget
      let least := ∀ x ∈ units, step (coreIndex x) = 3
      let told (changed : Bool) (u : State) : State := if changed then crownFiled u 0x0D 0 else u
      ∃ v : State, exec (.powerGrantStep draw hot cool cores) s = .next (told (v.pkg.clock != s.pkg.clock) (told (v.pkg.grant != s.pkg.grant) v)) ∧
        v = { s with pkg := { s.pkg with grant := v.pkg.grant, clock := v.pkg.clock, power := none, boundary := false } } ∧
        (∀ c ∈ cores, Sparse.get zeroNat v.pkg.grant c = 3) ∧
        (draw ≤ budget → budget * 95 ≤ draw * 100 → v.pkg.clock = s.pkg.clock ∧
          ∀ c, c ∉ cores → Sparse.get zeroNat v.pkg.grant c = step c) ∧
        (budget < draw → least → v.pkg.clock = max 1200 (s.pkg.clock - 100)) ∧
        (budget < draw → ¬ least → v.pkg.clock = s.pkg.clock ∧
          ∀ c, c ∉ cores → (∀ x ∈ units, x.die = hot → coreIndex x ≠ c) → Sparse.get zeroNat v.pkg.grant c = step c) ∧
        (draw * 100 < budget * 95 → v.pkg.clock = min 1900 (s.pkg.clock + 100))) ∧
    (∀ fw (flash : FlashManifest), let stored := flash.written.getD s.pkg.stored
      fw = true → flash.ok = true → s.pkg.fwVersion ≤ flash.firmware.elim s.pkg.fwAccepted (·.toNat) →
      s.pkg.mfVersion ≤ flash.written.elim s.pkg.mfAccepted (fun _ => flash.version.toNat) →
      ∃ t : State, exec (.deviceReset fw flash) s = .next t ∧ t.pkg.manifest = stored ∧ t.pkg.stored = stored ∧
      t.hart = (State.booted stored).hart ∧ t.others = [] ∧ t.ctxs = (State.booted stored).ctxs ∧ t.launches = [] ∧
      t.queues = [] ∧ t.objs = [] ∧
      (∀ a, Memory.read t.mem a = if Config.frameTableBase ≤ a ∧ a < Config.frameTableBase + Config.frameTableSize then 3 else Memory.read s.mem a)) ∧
    (∀ fw (flash : FlashManifest),
      let good := fw && decide (s.pkg.fwVersion ≤ flash.firmware.elim s.pkg.fwAccepted (·.toNat))
      let mf := flash.ok && decide (s.pkg.mfVersion ≤ flash.written.elim s.pkg.mfAccepted (fun _ => flash.version.toNat))
      (good && mf) = false → ∃ t : State, exec (.deviceReset fw flash) s = .next t ∧ t.pkg.recovery = true ∧ t.ctxs = [] ∧ t.launches = [] ∧ t.others = [] ∧
      t.hart.run = .retired ∧ t.pkg.fwGood = good ∧ t.pkg.mfGood = mf) ∧
    (∀ (image : Option Manifest) ok (v : BitVec 32), let kind := image.isSome
      let least := if kind then s.pkg.mfVersion else s.pkg.fwVersion
      let fw := s.pkg.fwGood || !kind
      let mf := s.pkg.mfGood || kind
      (s.pkg.recovery = true → ok = true → least ≤ v.toNat → (fw && mf) = false →
        exec (.recoveryImageWrite image ok v) s = .next { s with pkg := { s.pkg with
          fwGood := fw, mfGood := mf, stored := image.getD s.pkg.stored
          mfAccepted := if kind then v.toNat else s.pkg.mfAccepted, fwAccepted := if kind then s.pkg.fwAccepted else v.toNat } }) ∧
      (s.pkg.recovery = true → ok = true → least ≤ v.toNat → (fw && mf) = true →
        ∃ t : State, exec (.recoveryImageWrite image ok v) s = .next t ∧ t.pkg.recovery = false ∧
          t.pkg.manifest = image.getD s.pkg.stored ∧ t.hart = (State.booted t.pkg.manifest).hart) ∧
      (¬ (s.pkg.recovery = true ∧ ok = true ∧ least ≤ v.toNat) → exec (.recoveryImageWrite image ok v) s = .next s))

/-- R384, R419, R420, R423, R424, R437, R439, R440, R449, R454: host ports train and time out, host accesses reach device memory but no
private object, an invalidation performs what was translated; the scan path freezes, thaws, reads and writes; links train, replay and shed
lanes; a lost device ends the collectives it is in and its mirror is promoted. Register offsets other than those of R420 are log 18's. -/
def Obligations.LinkEvents : Prop :=
  ∀ (s : State) (port : Bool) (link : BitVec 4) (device : BitVec 16),
    let at' (t : State) : HostPort := if port then t.pkg.port1 else t.pkg.port0
    let modes := [5, 6, 7] ++ if s.pkg.recovery then [] else [20, 31, 32]
    (∀ ops, ∃ t : State, exec (.hostPortTrain port ⟨0, ops⟩) s = .next t ∧ t = { s with pkg := t.pkg } ∧ at' t = { at' s with up := false, downAt := s.pkg.cycle / 256, expired := false }) ∧
    (∀ mode ops, mode ∈ modes → ∃ t : State, exec (.hostPortTrain port ⟨mode, ops⟩) s = .next t ∧ (at' t).up = true ∧ (at' t).expired = false ∧
      (at' t).nextMode = mode ∧ (at' t).atomicOps = ops) ∧
    (∀ mode ops, mode ≠ 0 → mode ∉ modes → exec (.hostPortTrain port ⟨mode, ops⟩) s = .next s) ∧
    (∃ t : State, exec (.hostRetrainTimeout port) s = .next t ∧ t = { s with pkg := t.pkg } ∧
      at' t = (if (at' s).up = false ∧ (at' s).downAt + 2 ^ 16 ≤ s.pkg.cycle / 256 then { at' s with expired := true } else at' s)) ∧
    (∀ addr pa (data : List Byte), s.hostReach port addr data.length = some pa →
      let covers (o : Obj) : Bool := o.scope == 0 && o.lines.any fun l => decide (l < pa + data.length) && decide (pa < l + 256)
      (s.objs.find? covers = none →
        s.pkg.hostWrites = [] →
        (s.entryInUse (.phys pa) data.length = false → exec (.hostAccess port ⟨0, addr⟩ true data) s =
          .next ((s.perform ⟨.phys pa, data, false, false, false, 0, [], [], false⟩).modPkg fun p => { p with hostWrites := [] })) ∧
        (s.entryInUse (.phys pa) data.length = true → exec (.hostAccess port ⟨0, addr⟩ true data) s =
          .next { s with pkg := { s.pkg with hostWrites := [(pa, data)] } }) ∧
        exec (.hostAccess port ⟨0, addr⟩ false data) s =
          .next { s with pkg := { s.pkg with hostReads := s.peekList (.phys pa) data.length :: s.pkg.hostReads } }) ∧
      (∀ o, s.objs.find? covers = some o →
        exec (.hostAccess port ⟨0, addr⟩ true data) s = .next (s.fileEvent o.ctx 0x0A pa ioSrc) ∧
        exec (.hostAccess port ⟨0, addr⟩ false data) s = .next ({ s with pkg := { s.pkg with
          hostReads := List.replicate data.length 0xFF :: s.pkg.hostReads } }.fileEvent o.ctx 0x0A pa ioSrc))) ∧
    (∀ addr (data : List Byte), s.hostReach port addr data.length = none → exec (.hostAccess port ⟨0, addr⟩ true data) s = .next s ∧
      exec (.hostAccess port ⟨0, addr⟩ false data) s = .next { s with pkg := { s.pkg with hostReads := [] :: s.pkg.hostReads } }) ∧
    (∀ f addr write (data : List Byte), (∀ t, s.hostRegister port (f + 1) addr write data = some t → exec (.hostAccess port ⟨f + 1, addr⟩ write data) s = .next t) ∧
      (s.hostRegister port (f + 1) addr true data = none → exec (.hostAccess port ⟨f + 1, addr⟩ true data) s = .next s)) ∧
    (∀ lo hi, s.others = [] →
      (s.translated s.hart = true → exec (.atsInvalidate port lo hi) s =
        .next { s with pkg := { s.pkg with invalidating := s.pkg.invalidating ++ [(port, lo, hi)] } }) ∧
      (((s.chain s.hart.ctx).any fun c => c.stage.host) = true → s.translated s.hart = false → ∃ t : State,
        exec (.atsInvalidate port lo hi) s = .next t ∧ t.hart.stores = [] ∧ t.hart.late = [] ∧ t.pkg.invalidating = [])) ∧
    (∀ c, s.scanRoot = some c →
      (∃ t : State, exec .scanFreeze s = .next t ∧ t = { s with pkg := t.pkg } ∧ (∀ n, n ∈ t.pkg.frozen ↔ n ∈ s.pkg.frozen ∨ n = c.num)) ∧
      (∃ t : State, exec .scanThaw s = .next t ∧ t = { s with pkg := t.pkg } ∧ (∀ n, n ∈ t.pkg.frozen ↔ n ∈ s.pkg.frozen ∧ s.inSubtree c.num n = false))) ∧
    (∀ h, let off := s.pkg.saddr.toNat % 2 ^ 24
      s.scanned = some h → h.inFrame = true → off < 0x68000 →
      exec .scanRead s = .next { s with pkg := { s.pkg with sdata := imageWord (s.framePart h off 8) 0 } } ∧
      (∀ t, s.frameWrite h framePages off 8 (wordImage [s.pkg.sdata]) = .ok t → exec .scanWrite s = .next t)) ∧
    (∀ h area, s.scanned = some h → (h.inFrame = true → 0x68000 ≤ s.pkg.saddr.toNat % 2 ^ 24) →
      areaAt (s.scanAreas h) (s.pkg.saddr.toNat % 2 ^ 24) = some area →
      let off := s.pkg.saddr.toNat % 2 ^ 24 - area.1
      exec .scanRead s = .next { s with pkg := { s.pkg with sdata := imageWord area.2.2 off } } ∧
      Leaves .scanWrite s ((s.focus h.id).scanPut area.1 (Sparse.putList zeroByte area.2.2 off (natToBytes s.pkg.sdata.toNat 8)))) ∧
    (∀ v : Word, exec (.deviceRegisterWrite 0x08 v) s = .next { s with pkg := { s.pkg with saddr := v } } ∧
      exec (.deviceRegisterWrite 0x10 v) s = .next { s with pkg := { s.pkg with sdata := v } } ∧
      (∀ k, k < 4 → v.toNat % 8 = k + 1 → exec (.deviceRegisterWrite 0x00 v) s = .next { s with
        pkg := { s.pkg with sctl := v }, events := s.events ++ [[Instr.scanFreeze, .scanThaw, .scanRead, .scanWrite].getD k .scanFreeze] })) ∧
    (∀ l slow peer, s.pkg.links[link.toNat]? = some l →
      (∃ t : State, exec (.linkTrain link ⟨slow, true, peer⟩) s = .next t ∧ t = { s with pkg := t.pkg } ∧
        t.pkg.links[link.toNat]? = some { l with slow := slow, up := l.lanes != 0, peer := peer.toNat }) ∧
      (∃ t : State, exec (.linkTrain link ⟨slow, false, peer⟩) s = .next t ∧ t = { s with pkg := t.pkg } ∧
        t.pkg.links[link.toNat]? = some { l with up := false, downAt := if l.up then s.pkg.cycle / 256 else l.downAt }) ∧
      (∃ t : State, exec (.flitCrcReplay link) s = .next t ∧ t = { s with pkg := t.pkg } ∧ t.pkg.links[link.toNat]? = some { l with replays := l.replays + 1 }) ∧
      (∃ t : State, exec (.laneFailure link) s = .next (crownFiled t 0x0F 0) ∧ t = { s with pkg := t.pkg } ∧
        t.pkg.links[link.toNat]? = some { l with lanes := min l.lanes 4 })) ∧
    (s.unlinked device.toNat = false → exec (.linkDownTimeout device) s = .next s) ∧
    (∀ i, (i = .lossFlitReceive device ∨ i = .linkDownTimeout device ∧ s.unlinked device.toNat = true) → s.pkg.lost.contains device.toNat = false →
      ∃ t : State, exec i s = .next t ∧ device.toNat ∈ t.pkg.lost ∧ t.mem = s.mem ∧
        (∀ h ∈ t.harts, ∀ c ∈ h.colls, c.devices.contains device.toNat = true → c.ended ≠ none ∨ (c.allReady = true ∧ c.backup device.toNat = 0xFFFF)) ∧
        ((∃ m ∈ s.pkg.held, m.device = device.toNat) → device.toNat ∈ t.pkg.promoted))

/-- R32 to R38: words written out from the encodings of the spec, field by field from bit 31 down, decode to the instructions that they
stand for, and words that no instruction has do not decode. -/
def Obligations.DecodedWords : Prop :=
  decodeWord 0b1_000001_0001001_0001001_0000011_0001#32 = .ok (.sub true 9 9 3) ∧
  decodeWord 0b0_000011_0000101_0000110_11111111111#32 = .ok (.addi false 5 6 0x7FF) ∧
  decodeWord 0b0_001101_0000011_0000001_110_00000000#32 = .ok (.ld false 3 1 6 0) ∧
  decodeWord 0b1_010000_0001101_0000000_00000000011#32 = .ok (.beq true 13 0 3) ∧
  decodeWord 0b1_011000_0000000_0000000_0000000_0010#32 = .ok (.ret true) ∧
  decodeWord 0b1_011110_0000000_0000000_0000000_0000#32 = .ok (.nop true) ∧
  decodeWord 0b1_100111_0000001_0000010_0000011_1_000#32 = .ok (.vadd true 1 2 3 true) ∧
  decodeWord 0b1_110100_0000100_0000101_0000000_0_000#32 = .ok (.vld true 4 5 false) ∧
  decodeWord 0#32 = .error .major

/-- R32 to R38: every well-formed instruction that has a word is read back from its bytes, whatever follows them, and every word that
decodes is the word of the instruction that it decodes to, which is well formed. -/
def Obligations.EncodeDecodeRoundTrip : Prop :=
  (∀ (i : Instr) (w : Code) (rest : List Byte), i.wf = true → encode i = some w → decode (encodeBytes i ++ rest) = .ok (i, rest)) ∧
  (∀ (w : Code) (i : Instr), decodeWord w = .ok i → i.wf = true ∧ encode i = some w)

/-- R56, R57, R58, R64, R255, R385, R387, R427: the machine right after reset: one hart of the crown context at the firmware's entry, every
special register at its value of R56, every scalar, vector and mask register 0, the streamer's shadow set at its values of R255; the frame table
holds attr 3 throughout. The addresses of the frame table, the entry and the trap vector are log 2's; the placement of the hart (HARTCRD, SPBASE,
its rows) and its argument word, 0, are log 3's. -/
def Obligations.ResetState : Prop :=
  (∀ i : GReg, State.reset.g i = 0) ∧ (∀ k, Sparse.get zeroWord State.reset.hart.regs.gpr k = 0) ∧
  (∀ k, Sparse.get zeroByte State.reset.hart.regs.vrf k = 0) ∧ (∀ r j, State.reset.hart.regs.mask r j = false) ∧
  State.reset.special 0x000 = BitVec.ofNat 64 Config.firmwareEntry ∧ State.reset.special 0x005 = 2048 ∧
  State.reset.special 0x024 = BitVec.ofNat 64 Config.crownTvec ∧ State.reset.special 0x030 = 0 ∧ State.reset.special 0x032 = 0 ∧
  State.reset.special 0x033 = 0 ∧ State.reset.special 0x035 = BitVec.ofNat 64 Config.bootSpbase ∧ State.reset.special 0x037 = 2048 ∧
  State.reset.special 0x003 = 0x40 ∧ State.reset.special 0x004 = 0 ∧ State.reset.special 0x006 = 32 ∧
  (∀ n ∈ [0x001, 0x002, 0x007, 0x00A, 0x010, 0x011, 0x012, 0x013, 0x014, 0x015, 0x020, 0x021, 0x022, 0x023, 0x025, 0x026, 0x034, 0x036, 0x038,
    0x040, 0x041, 0x042, 0x043], State.reset.special n = 0) ∧
  State.reset.special 0x008 = BitVec.allOnes 64 ∧ State.reset.special 0x009 = BitVec.allOnes 64 ∧ State.reset.special 0x00B = 1 ∧
  State.reset.special 0x031 = 1 ∧ State.reset.others = [] ∧ State.reset.hart.run = .ready ∧
  (∀ k, Sparse.get zeroWord State.reset.hart.sx k = if k = 2 then 1 else if k = 7 then 0x0000000100000001 else 0) ∧
  (∀ a, Config.frameTableBase ≤ a → a < Config.frameTableBase + Config.frameTableSize → Memory.read State.reset.mem a = 3)

/-- The memory of the reset state is in canonical form: the invariant of `StepKeepsMemoryCanonical` holds there. What unlisted memory reads
as is log 1's. -/
def Obligations.ResetMemoryCanonical : Prop := Memory.wf State.reset.mem = true

/-- Whatever a step does, memory stays in canonical form: addresses rise strictly, and no byte is listed that reads so unlisted. So equal
memories are equal lists. The canonical form is the model's own (log 1). -/
def Obligations.StepKeepsMemoryCanonical : Prop :=
  ∀ s t : State, Memory.wf s.mem = true → step s = .next t → Memory.wf t.mem = true

/-- R32, R40, R44, R46, R96: a step runs the instruction at the hart's position. When no event is due and a hart moves none of whose issued
accesses waits for a host link or an entry in use (R383, R424), the member at which it stands is executed, after what its class waits for, and what follows a member follows; at a convoy boundary the bytes at the program
counter are decoded first. A member that a pre-emption stops part-way is executed up to there; an event of the outside world is executed by
itself. Events, turns, stops and the time of a step are the model's own lists and free values (logs 5, 6, 19, 53). -/
def Obligations.StepRunsDecoded : Prop :=
  ∀ s : State,
    (∀ p, s.events = [] → s.pick = some p →
      let v := p.passTime.dropLost
      let Runs (u : State) (i : Instr) : Prop :=
        let w := u.prepare i
        u.tokenStall i = false →
          (∀ t, (w.cutFor i).hart.cut = none → exec i w = .next t → step s = .next (t.follow w.hart i)) ∧
          (∀ t, (w.cutFor i).hart.cut ≠ none → exec i (w.cutFor i) = .next t → t.wentOn w.hart = true → step s = .next (t.follow w.hart i))
      v.hart.run = .ready → v.storesStuck = false → v.heldByWait = false →
      (∀ i rest, v.hart.convoy = i :: rest → Runs v i) ∧
      (∀ u r b0 b1 b2 b3 i, v.hart.convoy = [] → v.hart.breaks = false → v.hart.pc.toNat % 4 = 0 → v.access v.hart.pc 4 .fetch = (u, .ok r) →
        u.oldCode r.place = [] → u.peekList r.place 4 = [b0, b1, b2, b3] → decode [b0, b1, b2, b3] = .ok (i, []) → b3.getLsbD 7 = true →
        illegalConvoy u.hart.regs v.hart.pc [i] = none → (needsSupervisor i = true → u.hart.regs.tstat.getLsbD 0 = true) →
        (∀ x ∈ vFields i, x.toNat < u.hart.regs.vnreg) →
        Runs { u with hart := { u.hart with
          convoy := [i], head := v.hart.pc, member := 0, convoyAt := u.pkg.cycle, priorAt := u.hart.convoyAt, headAstat := u.hart.regs.astat, headSphw := BitVec.ofNat 64 u.sphw } } i)) ∧
    (∀ i rest, s.events = i :: rest → encode i = none → step s = exec i { s with events := rest }.passTime)
end

