-- ==== Sys2Proof/Laws/Encoding.lean ====
section
/-!
SUPPORT. Encodings read back: the fields of the words that the encoder forms, and the decoder by its major (R33, R34, R37).
-/
namespace Sys2Proof

theorem encR_bit (e : Bool) (k : BitVec 6) (d a b : BitVec 7) (f : BitVec 4) (j : Nat) : (encR e k d a b f).getLsbD j =
    if j < 4 then f.getLsbD j else if j < 11 then b.getLsbD (j - 4) else if j < 18 then a.getLsbD (j - 11) else if j < 25 then d.getLsbD (j - 18) else if j < 31 then k.getLsbD (j - 25) else (BitVec.ofBool e).getLsbD (j - 31) := by
  show (BitVec.ofBool e ++ k ++ d ++ a ++ b ++ f).getLsbD j = _
  simp only [BitVec.getLsbD_append, Nat.sub_sub]
  repeat' split
  all_goals first | rfl | omega
@[simp] theorem encR_e (e : Bool) (k : BitVec 6) (d a b : BitVec 7) (f : BitVec 4) : (encR e k d a b f).e = e := by
  simp only [Code.e, encR_bit]; simp
@[simp] theorem encR_major (e : Bool) (k : BitVec 6) (d a b : BitVec 7) (f : BitVec 4) : (encR e k d a b f).major = k := by
  apply BitVec.eq_of_getLsbD_eq; intro i hi
  simp only [Code.major, BitVec.getLsbD_extractLsb', encR_bit, hi, decide_true, Bool.true_and]
  repeat' split
  all_goals first | rfl | omega | (congr 1; omega)
@[simp] theorem encR_d (e : Bool) (k : BitVec 6) (d a b : BitVec 7) (f : BitVec 4) : (encR e k d a b f).d = d := by
  apply BitVec.eq_of_getLsbD_eq; intro i hi
  simp only [Code.d, BitVec.getLsbD_extractLsb', encR_bit, hi, decide_true, Bool.true_and]
  repeat' split
  all_goals first | rfl | omega | (congr 1; omega)
@[simp] theorem encR_a (e : Bool) (k : BitVec 6) (d a b : BitVec 7) (f : BitVec 4) : (encR e k d a b f).a = a := by
  apply BitVec.eq_of_getLsbD_eq; intro i hi
  simp only [Code.a, BitVec.getLsbD_extractLsb', encR_bit, hi, decide_true, Bool.true_and]
  repeat' split
  all_goals first | rfl | omega | (congr 1; omega)
@[simp] theorem encR_b (e : Bool) (k : BitVec 6) (d a b : BitVec 7) (f : BitVec 4) : (encR e k d a b f).b = b := by
  apply BitVec.eq_of_getLsbD_eq; intro i hi
  simp only [Code.b, BitVec.getLsbD_extractLsb', encR_bit, hi, decide_true, Bool.true_and]
  repeat' split
  all_goals first | rfl | omega | (congr 1; omega)
@[simp] theorem encR_f (e : Bool) (k : BitVec 6) (d a b : BitVec 7) (f : BitVec 4) : (encR e k d a b f).f = f := by
  apply BitVec.eq_of_getLsbD_eq; intro i hi
  simp only [Code.f, BitVec.getLsbD_extractLsb', encR_bit, hi, decide_true, Bool.true_and]
  repeat' split
  all_goals first | rfl | omega | (congr 1; omega)

theorem encV_bit (e : Bool) (k : BitVec 6) (d a b : BitVec 7) (m : Bool) (f : BitVec 3) (j : Nat) : (encV e k d a b m f).getLsbD j =
    if j < 3 then f.getLsbD j else if j < 4 then (BitVec.ofBool m).getLsbD (j - 3) else if j < 11 then b.getLsbD (j - 4) else if j < 18 then a.getLsbD (j - 11) else if j < 25 then d.getLsbD (j - 18) else if j < 31 then k.getLsbD (j - 25) else (BitVec.ofBool e).getLsbD (j - 31) := by
  show (BitVec.ofBool e ++ k ++ d ++ a ++ b ++ BitVec.ofBool m ++ f).getLsbD j = _
  simp only [BitVec.getLsbD_append, Nat.sub_sub]
  repeat' split
  all_goals first | rfl | omega
@[simp] theorem encV_e (e : Bool) (k : BitVec 6) (d a b : BitVec 7) (m : Bool) (f : BitVec 3) : (encV e k d a b m f).e = e := by
  simp only [Code.e, encV_bit]; simp
@[simp] theorem encV_major (e : Bool) (k : BitVec 6) (d a b : BitVec 7) (m : Bool) (f : BitVec 3) : (encV e k d a b m f).major = k := by
  apply BitVec.eq_of_getLsbD_eq; intro i hi
  simp only [Code.major, BitVec.getLsbD_extractLsb', encV_bit, hi, decide_true, Bool.true_and]
  repeat' split
  all_goals first | rfl | omega | (congr 1; omega)
@[simp] theorem encV_d (e : Bool) (k : BitVec 6) (d a b : BitVec 7) (m : Bool) (f : BitVec 3) : (encV e k d a b m f).d = d := by
  apply BitVec.eq_of_getLsbD_eq; intro i hi
  simp only [Code.d, BitVec.getLsbD_extractLsb', encV_bit, hi, decide_true, Bool.true_and]
  repeat' split
  all_goals first | rfl | omega | (congr 1; omega)
@[simp] theorem encV_a (e : Bool) (k : BitVec 6) (d a b : BitVec 7) (m : Bool) (f : BitVec 3) : (encV e k d a b m f).a = a := by
  apply BitVec.eq_of_getLsbD_eq; intro i hi
  simp only [Code.a, BitVec.getLsbD_extractLsb', encV_bit, hi, decide_true, Bool.true_and]
  repeat' split
  all_goals first | rfl | omega | (congr 1; omega)
@[simp] theorem encV_b (e : Bool) (k : BitVec 6) (d a b : BitVec 7) (m : Bool) (f : BitVec 3) : (encV e k d a b m f).b = b := by
  apply BitVec.eq_of_getLsbD_eq; intro i hi
  simp only [Code.b, BitVec.getLsbD_extractLsb', encV_bit, hi, decide_true, Bool.true_and]
  repeat' split
  all_goals first | rfl | omega | (congr 1; omega)
@[simp] theorem encV_m (e : Bool) (k : BitVec 6) (d a b : BitVec 7) (m : Bool) (f : BitVec 3) : (encV e k d a b m f).m = m := by
  simp only [Code.m, encV_bit]; simp
@[simp] theorem encV_f3 (e : Bool) (k : BitVec 6) (d a b : BitVec 7) (m : Bool) (f : BitVec 3) : (encV e k d a b m f).f3 = f := by
  apply BitVec.eq_of_getLsbD_eq; intro i hi
  simp only [Code.f3, BitVec.getLsbD_extractLsb', encV_bit, hi, decide_true, Bool.true_and]
  repeat' split
  all_goals first | rfl | omega | (congr 1; omega)

theorem encI_bit (e : Bool) (k : BitVec 6) (d a : BitVec 7) (i : BitVec 11) (j : Nat) : (encI e k d a i).getLsbD j =
    if j < 11 then i.getLsbD j else if j < 18 then a.getLsbD (j - 11) else if j < 25 then d.getLsbD (j - 18) else if j < 31 then k.getLsbD (j - 25) else (BitVec.ofBool e).getLsbD (j - 31) := by
  show (BitVec.ofBool e ++ k ++ d ++ a ++ i).getLsbD j = _
  simp only [BitVec.getLsbD_append, Nat.sub_sub]
  repeat' split
  all_goals first | rfl | omega
@[simp] theorem encI_e (e : Bool) (k : BitVec 6) (d a : BitVec 7) (i : BitVec 11) : (encI e k d a i).e = e := by
  simp only [Code.e, encI_bit]; simp
@[simp] theorem encI_major (e : Bool) (k : BitVec 6) (d a : BitVec 7) (i : BitVec 11) : (encI e k d a i).major = k := by
  apply BitVec.eq_of_getLsbD_eq; intro i hi
  simp only [Code.major, BitVec.getLsbD_extractLsb', encI_bit, hi, decide_true, Bool.true_and]
  repeat' split
  all_goals first | rfl | omega | (congr 1; omega)
@[simp] theorem encI_d (e : Bool) (k : BitVec 6) (d a : BitVec 7) (i : BitVec 11) : (encI e k d a i).d = d := by
  apply BitVec.eq_of_getLsbD_eq; intro i hi
  simp only [Code.d, BitVec.getLsbD_extractLsb', encI_bit, hi, decide_true, Bool.true_and]
  repeat' split
  all_goals first | rfl | omega | (congr 1; omega)
@[simp] theorem encI_a (e : Bool) (k : BitVec 6) (d a : BitVec 7) (i : BitVec 11) : (encI e k d a i).a = a := by
  apply BitVec.eq_of_getLsbD_eq; intro i hi
  simp only [Code.a, BitVec.getLsbD_extractLsb', encI_bit, hi, decide_true, Bool.true_and]
  repeat' split
  all_goals first | rfl | omega | (congr 1; omega)
@[simp] theorem encI_imm11 (e : Bool) (k : BitVec 6) (d a : BitVec 7) (i : BitVec 11) : (encI e k d a i).imm11 = i := by
  apply BitVec.eq_of_getLsbD_eq; intro i hi
  simp only [Code.imm11, BitVec.getLsbD_extractLsb', encI_bit, hi, decide_true, Bool.true_and]
  repeat' split
  all_goals first | rfl | omega | (congr 1; omega)

theorem encW_bit (e : Bool) (k : BitVec 6) (d : BitVec 7) (i : BitVec 18) (j : Nat) : (encW e k d i).getLsbD j =
    if j < 18 then i.getLsbD j else if j < 25 then d.getLsbD (j - 18) else if j < 31 then k.getLsbD (j - 25) else (BitVec.ofBool e).getLsbD (j - 31) := by
  show (BitVec.ofBool e ++ k ++ d ++ i).getLsbD j = _
  simp only [BitVec.getLsbD_append, Nat.sub_sub]
  repeat' split
  all_goals first | rfl | omega
@[simp] theorem encW_e (e : Bool) (k : BitVec 6) (d : BitVec 7) (i : BitVec 18) : (encW e k d i).e = e := by
  simp only [Code.e, encW_bit]; simp
@[simp] theorem encW_major (e : Bool) (k : BitVec 6) (d : BitVec 7) (i : BitVec 18) : (encW e k d i).major = k := by
  apply BitVec.eq_of_getLsbD_eq; intro i hi
  simp only [Code.major, BitVec.getLsbD_extractLsb', encW_bit, hi, decide_true, Bool.true_and]
  repeat' split
  all_goals first | rfl | omega | (congr 1; omega)
@[simp] theorem encW_d (e : Bool) (k : BitVec 6) (d : BitVec 7) (i : BitVec 18) : (encW e k d i).d = d := by
  apply BitVec.eq_of_getLsbD_eq; intro i hi
  simp only [Code.d, BitVec.getLsbD_extractLsb', encW_bit, hi, decide_true, Bool.true_and]
  repeat' split
  all_goals first | rfl | omega | (congr 1; omega)
@[simp] theorem encW_imm18 (e : Bool) (k : BitVec 6) (d : BitVec 7) (i : BitVec 18) : (encW e k d i).imm18 = i := by
  apply BitVec.eq_of_getLsbD_eq; intro i hi
  simp only [Code.imm18, BitVec.getLsbD_extractLsb', encW_bit, hi, decide_true, Bool.true_and]
  repeat' split
  all_goals first | rfl | omega | (congr 1; omega)

theorem encM_bit (e : Bool) (k : BitVec 6) (d a : BitVec 7) (w : BitVec 3) (o : BitVec 8) (j : Nat) : (encM e k d a w o).getLsbD j =
    if j < 8 then o.getLsbD j else if j < 11 then w.getLsbD (j - 8) else if j < 18 then a.getLsbD (j - 11) else if j < 25 then d.getLsbD (j - 18) else if j < 31 then k.getLsbD (j - 25) else (BitVec.ofBool e).getLsbD (j - 31) := by
  show (BitVec.ofBool e ++ k ++ d ++ a ++ w ++ o).getLsbD j = _
  simp only [BitVec.getLsbD_append, Nat.sub_sub]
  repeat' split
  all_goals first | rfl | omega
@[simp] theorem encM_e (e : Bool) (k : BitVec 6) (d a : BitVec 7) (w : BitVec 3) (o : BitVec 8) : (encM e k d a w o).e = e := by
  simp only [Code.e, encM_bit]; simp
@[simp] theorem encM_major (e : Bool) (k : BitVec 6) (d a : BitVec 7) (w : BitVec 3) (o : BitVec 8) : (encM e k d a w o).major = k := by
  apply BitVec.eq_of_getLsbD_eq; intro i hi
  simp only [Code.major, BitVec.getLsbD_extractLsb', encM_bit, hi, decide_true, Bool.true_and]
  repeat' split
  all_goals first | rfl | omega | (congr 1; omega)
@[simp] theorem encM_d (e : Bool) (k : BitVec 6) (d a : BitVec 7) (w : BitVec 3) (o : BitVec 8) : (encM e k d a w o).d = d := by
  apply BitVec.eq_of_getLsbD_eq; intro i hi
  simp only [Code.d, BitVec.getLsbD_extractLsb', encM_bit, hi, decide_true, Bool.true_and]
  repeat' split
  all_goals first | rfl | omega | (congr 1; omega)
@[simp] theorem encM_a (e : Bool) (k : BitVec 6) (d a : BitVec 7) (w : BitVec 3) (o : BitVec 8) : (encM e k d a w o).a = a := by
  apply BitVec.eq_of_getLsbD_eq; intro i hi
  simp only [Code.a, BitVec.getLsbD_extractLsb', encM_bit, hi, decide_true, Bool.true_and]
  repeat' split
  all_goals first | rfl | omega | (congr 1; omega)
@[simp] theorem encM_width (e : Bool) (k : BitVec 6) (d a : BitVec 7) (w : BitVec 3) (o : BitVec 8) : (encM e k d a w o).width = w := by
  apply BitVec.eq_of_getLsbD_eq; intro i hi
  simp only [Code.width, BitVec.getLsbD_extractLsb', encM_bit, hi, decide_true, Bool.true_and]
  repeat' split
  all_goals first | rfl | omega | (congr 1; omega)
@[simp] theorem encM_off8 (e : Bool) (k : BitVec 6) (d a : BitVec 7) (w : BitVec 3) (o : BitVec 8) : (encM e k d a w o).off8 = o := by
  apply BitVec.eq_of_getLsbD_eq; intro i hi
  simp only [Code.off8, BitVec.getLsbD_extractLsb', encM_bit, hi, decide_true, Bool.true_and]
  repeat' split
  all_goals first | rfl | omega | (congr 1; omega)

theorem encJ_bit (e : Bool) (k : BitVec 6) (o : BitVec 25) (j : Nat) : (encJ e k o).getLsbD j =
    if j < 25 then o.getLsbD j else if j < 31 then k.getLsbD (j - 25) else (BitVec.ofBool e).getLsbD (j - 31) := by
  show (BitVec.ofBool e ++ k ++ o).getLsbD j = _
  simp only [BitVec.getLsbD_append, Nat.sub_sub]
  repeat' split
  all_goals first | rfl | omega
@[simp] theorem encJ_e (e : Bool) (k : BitVec 6) (o : BitVec 25) : (encJ e k o).e = e := by
  simp only [Code.e, encJ_bit]; simp
@[simp] theorem encJ_major (e : Bool) (k : BitVec 6) (o : BitVec 25) : (encJ e k o).major = k := by
  apply BitVec.eq_of_getLsbD_eq; intro i hi
  simp only [Code.major, BitVec.getLsbD_extractLsb', encJ_bit, hi, decide_true, Bool.true_and]
  repeat' split
  all_goals first | rfl | omega | (congr 1; omega)
@[simp] theorem encJ_off25 (e : Bool) (k : BitVec 6) (o : BitVec 25) : (encJ e k o).off25 = o := by
  apply BitVec.eq_of_getLsbD_eq; intro i hi
  simp only [Code.off25, BitVec.getLsbD_extractLsb', encJ_bit, hi, decide_true, Bool.true_and]
  repeat' split
  all_goals first | rfl | omega | (congr 1; omega)

theorem encL_bit (e : Bool) (k : BitVec 6) (l : Bool) (c o : BitVec 12) (j : Nat) : (encL e k l c o).getLsbD j =
    if j < 12 then o.getLsbD j else if j < 24 then c.getLsbD (j - 12) else if j < 25 then (BitVec.ofBool l).getLsbD (j - 24) else if j < 31 then k.getLsbD (j - 25) else (BitVec.ofBool e).getLsbD (j - 31) := by
  show (BitVec.ofBool e ++ k ++ BitVec.ofBool l ++ c ++ o).getLsbD j = _
  simp only [BitVec.getLsbD_append, Nat.sub_sub]
  repeat' split
  all_goals first | rfl | omega
@[simp] theorem encL_e (e : Bool) (k : BitVec 6) (l : Bool) (c o : BitVec 12) : (encL e k l c o).e = e := by
  simp only [Code.e, encL_bit]; simp
@[simp] theorem encL_major (e : Bool) (k : BitVec 6) (l : Bool) (c o : BitVec 12) : (encL e k l c o).major = k := by
  apply BitVec.eq_of_getLsbD_eq; intro i hi
  simp only [Code.major, BitVec.getLsbD_extractLsb', encL_bit, hi, decide_true, Bool.true_and]
  repeat' split
  all_goals first | rfl | omega | (congr 1; omega)
@[simp] theorem encL_l (e : Bool) (k : BitVec 6) (l : Bool) (c o : BitVec 12) : (encL e k l c o).getLsbD 24 = l := by
  simp only [encL_bit]; simp
@[simp] theorem encL_c (e : Bool) (k : BitVec 6) (l : Bool) (c o : BitVec 12) : (encL e k l c o).extractLsb' 12 12 = c := by
  apply BitVec.eq_of_getLsbD_eq; intro i hi
  simp only [BitVec.getLsbD_extractLsb', encL_bit, hi, decide_true, Bool.true_and]
  repeat' split
  all_goals first | rfl | omega | (congr 1; omega)
@[simp] theorem encL_o (e : Bool) (k : BitVec 6) (l : Bool) (c o : BitVec 12) : (encL e k l c o).extractLsb' 0 12 = o := by
  apply BitVec.eq_of_getLsbD_eq; intro i hi
  simp only [BitVec.getLsbD_extractLsb', encL_bit, hi, decide_true, Bool.true_and]
  repeat' split
  all_goals first | rfl | omega | (congr 1; omega)

theorem decodeWord_01 {w : Code} (h : w.major = 0x01) : decodeWord w = (decodeAlu w.e w.d w.a w.b w.f) := by
  unfold decodeWord; rw [h]; rfl
theorem decodeWord_02 {w : Code} (h : w.major = 0x02) : decodeWord w = (decodeAlu2 w.e w.d w.a w.b w.f) := by
  unfold decodeWord; rw [h]; rfl
theorem decodeWord_03 {w : Code} (h : w.major = 0x03) : decodeWord w = (.ok (.addi w.e w.d w.a w.imm11)) := by
  unfold decodeWord; rw [h]; rfl
theorem decodeWord_04 {w : Code} (h : w.major = 0x04) : decodeWord w = (.ok (.andi w.e w.d w.a w.imm11)) := by
  unfold decodeWord; rw [h]; rfl
theorem decodeWord_05 {w : Code} (h : w.major = 0x05) : decodeWord w = (.ok (.ori w.e w.d w.a w.imm11)) := by
  unfold decodeWord; rw [h]; rfl
theorem decodeWord_06 {w : Code} (h : w.major = 0x06) : decodeWord w = (.ok (.xori w.e w.d w.a w.imm11)) := by
  unfold decodeWord; rw [h]; rfl
theorem decodeWord_07 {w : Code} (h : w.major = 0x07) : decodeWord w = (decodeShi w.e w.d w.a w.imm11) := by
  unfold decodeWord; rw [h]; rfl
theorem decodeWord_08 {w : Code} (h : w.major = 0x08) : decodeWord w = (.ok (.slti w.e w.d w.a w.imm11)) := by
  unfold decodeWord; rw [h]; rfl
theorem decodeWord_09 {w : Code} (h : w.major = 0x09) : decodeWord w = (.ok (.sltni w.e w.d w.a w.imm11)) := by
  unfold decodeWord; rw [h]; rfl
theorem decodeWord_0a {w : Code} (h : w.major = 0x0A) : decodeWord w = (.ok (.lim w.e w.d w.imm18)) := by
  unfold decodeWord; rw [h]; rfl
theorem decodeWord_0b {w : Code} (h : w.major = 0x0B) : decodeWord w = (.ok (.lihi w.e w.d w.imm18)) := by
  unfold decodeWord; rw [h]; rfl
theorem decodeWord_0c {w : Code} (h : w.major = 0x0C) : decodeWord w = (.ok (.addpc w.e w.d w.imm18)) := by
  unfold decodeWord; rw [h]; rfl
theorem decodeWord_0d {w : Code} (h : w.major = 0x0D) : decodeWord w = (if w.width != 7 then .ok (.ld w.e w.d w.a w.width w.off8) else .error .width) := by
  unfold decodeWord; rw [h]; rfl
theorem decodeWord_0e {w : Code} (h : w.major = 0x0E) : decodeWord w = (if w.width != 7 then .ok (.st w.e w.d w.a w.width w.off8) else .error .width) := by
  unfold decodeWord; rw [h]; rfl
theorem decodeWord_0f {w : Code} (h : w.major = 0x0F) : decodeWord w = (decodeXmem w.e w.d w.a w.b w.f) := by
  unfold decodeWord; rw [h]; rfl
theorem decodeWord_10 {w : Code} (h : w.major = 0x10) : decodeWord w = (.ok (.beq w.e w.d w.a w.imm11)) := by
  unfold decodeWord; rw [h]; rfl
theorem decodeWord_11 {w : Code} (h : w.major = 0x11) : decodeWord w = (.ok (.bne w.e w.d w.a w.imm11)) := by
  unfold decodeWord; rw [h]; rfl
theorem decodeWord_12 {w : Code} (h : w.major = 0x12) : decodeWord w = (.ok (.blt w.e w.d w.a w.imm11)) := by
  unfold decodeWord; rw [h]; rfl
theorem decodeWord_13 {w : Code} (h : w.major = 0x13) : decodeWord w = (.ok (.bge w.e w.d w.a w.imm11)) := by
  unfold decodeWord; rw [h]; rfl
theorem decodeWord_14 {w : Code} (h : w.major = 0x14) : decodeWord w = (.ok (.bltn w.e w.d w.a w.imm11)) := by
  unfold decodeWord; rw [h]; rfl
theorem decodeWord_15 {w : Code} (h : w.major = 0x15) : decodeWord w = (.ok (.bgen w.e w.d w.a w.imm11)) := by
  unfold decodeWord; rw [h]; rfl
theorem decodeWord_16 {w : Code} (h : w.major = 0x16) : decodeWord w = (.ok (.jmp w.e w.off25)) := by
  unfold decodeWord; rw [h]; rfl
theorem decodeWord_17 {w : Code} (h : w.major = 0x17) : decodeWord w = (.ok (.call w.e w.off25)) := by
  unfold decodeWord; rw [h]; rfl
theorem decodeWord_18 {w : Code} (h : w.major = 0x18) : decodeWord w = (decodeJreg w.e w.d w.a w.b w.f) := by
  unfold decodeWord; rw [h]; rfl
theorem decodeWord_19 {w : Code} (h : w.major = 0x19) : decodeWord w = (decodeLoop w.e w.d w.a w.imm11) := by
  unfold decodeWord; rw [h]; rfl
theorem decodeWord_1a {w : Code} (h : w.major = 0x1A) : decodeWord w = (decodeLoopi w) := by
  unfold decodeWord; rw [h]; rfl
theorem decodeWord_1b {w : Code} (h : w.major = 0x1B) : decodeWord w = (do zeroField w.a; if mfsLegal w.imm11 then .ok (.mfs w.e w.d w.imm11) else .error .specialRegister) := by
  unfold decodeWord; rw [h]; rfl
theorem decodeWord_1c {w : Code} (h : w.major = 0x1C) : decodeWord w = (do zeroField w.d; if mtsLegal w.imm11 then .ok (.mts w.e w.a w.imm11) else .error .specialRegister) := by
  unfold decodeWord; rw [h]; rfl
theorem decodeWord_1d {w : Code} (h : w.major = 0x1D) : decodeWord w = (do zeroField w.d; zeroField w.a; if winbLegal w.imm11 then .ok (.winb w.e w.imm11) else .error .window) := by
  unfold decodeWord; rw [h]; rfl
theorem decodeWord_1e {w : Code} (h : w.major = 0x1E) : decodeWord w = (decodeSys w.e w.d w.a w.b w.f) := by
  unfold decodeWord; rw [h]; rfl
theorem decodeWord_1f {w : Code} (h : w.major = 0x1F) : decodeWord w = (decodeAlu3 w.e w.d w.a w.b w.f) := by
  unfold decodeWord; rw [h]; rfl
theorem decodeWord_20 {w : Code} (h : w.major = 0x20) : decodeWord w = (decodeAmoRlx w.e w.d w.a w.b w.f) := by
  unfold decodeWord; rw [h]; rfl
theorem decodeWord_21 {w : Code} (h : w.major = 0x21) : decodeWord w = (decodeAmoAcq w.e w.d w.a w.b w.f) := by
  unfold decodeWord; rw [h]; rfl
theorem decodeWord_22 {w : Code} (h : w.major = 0x22) : decodeWord w = (decodeAmoRel w.e w.d w.a w.b w.f) := by
  unfold decodeWord; rw [h]; rfl
theorem decodeWord_23 {w : Code} (h : w.major = 0x23) : decodeWord w = (decodeAmoAr w.e w.d w.a w.b w.f) := by
  unfold decodeWord; rw [h]; rfl
theorem decodeWord_24 {w : Code} (h : w.major = 0x24) : decodeWord w = (decodeOrdmem w.e w.d w.a w.b w.f) := by
  unfold decodeWord; rw [h]; rfl
theorem decodeWord_25 {w : Code} (h : w.major = 0x25) : decodeWord w = (decodeFence w.e w.d w.a w.imm11) := by
  unfold decodeWord; rw [h]; rfl
theorem decodeWord_26 {w : Code} (h : w.major = 0x26) : decodeWord w = (decodeVcfg w.e w.d w.a w.b w.f) := by
  unfold decodeWord; rw [h]; rfl
theorem decodeWord_27 {w : Code} (h : w.major = 0x27) : decodeWord w = (decodeVint w.e w.d w.a w.b w.m w.f3) := by
  unfold decodeWord; rw [h]; rfl
theorem decodeWord_28 {w : Code} (h : w.major = 0x28) : decodeWord w = (decodeVintx w.e w.d w.a w.b w.m w.f3) := by
  unfold decodeWord; rw [h]; rfl
theorem decodeWord_29 {w : Code} (h : w.major = 0x29) : decodeWord w = (decodeVint2 w.e w.d w.a w.b w.m w.f3) := by
  unfold decodeWord; rw [h]; rfl
theorem decodeWord_2a {w : Code} (h : w.major = 0x2A) : decodeWord w = (decodeVint3 w.e w.d w.a w.b w.m w.f3) := by
  unfold decodeWord; rw [h]; rfl
theorem decodeWord_2b {w : Code} (h : w.major = 0x2B) : decodeWord w = (decodeVflt w.e w.d w.a w.b w.m w.f3) := by
  unfold decodeWord; rw [h]; rfl
theorem decodeWord_2c {w : Code} (h : w.major = 0x2C) : decodeWord w = (decodeVfltx w.e w.d w.a w.b w.m w.f3) := by
  unfold decodeWord; rw [h]; rfl
theorem decodeWord_2d {w : Code} (h : w.major = 0x2D) : decodeWord w = (decodeVfun w.e w.d w.a w.b w.m w.f3) := by
  unfold decodeWord; rw [h]; rfl
theorem decodeWord_2e {w : Code} (h : w.major = 0x2E) : decodeWord w = (decodeVcmp w.e w.d w.a w.b w.m w.f3) := by
  unfold decodeWord; rw [h]; rfl
theorem decodeWord_2f {w : Code} (h : w.major = 0x2F) : decodeWord w = (decodeVcmpx w.e w.d w.a w.b w.m w.f3) := by
  unfold decodeWord; rw [h]; rfl
theorem decodeWord_30 {w : Code} (h : w.major = 0x30) : decodeWord w = (decodeVmask w.e w.d w.a w.b w.m w.f3) := by
  unfold decodeWord; rw [h]; rfl
theorem decodeWord_31 {w : Code} (h : w.major = 0x31) : decodeWord w = (decodeVcvt w.e w.d w.a w.b w.m w.f3) := by
  unfold decodeWord; rw [h]; rfl
theorem decodeWord_32 {w : Code} (h : w.major = 0x32) : decodeWord w = (decodeVred w.e w.d w.a w.b w.m w.f3) := by
  unfold decodeWord; rw [h]; rfl
theorem decodeWord_33 {w : Code} (h : w.major = 0x33) : decodeWord w = (decodeVperm w.e w.d w.a w.b w.m w.f3) := by
  unfold decodeWord; rw [h]; rfl
theorem decodeWord_34 {w : Code} (h : w.major = 0x34) : decodeWord w = (decodeVmem w.e w.d w.a w.b w.m w.f3) := by
  unfold decodeWord; rw [h]; rfl
theorem decodeWord_35 {w : Code} (h : w.major = 0x35) : decodeWord w = (decodeVxit w.e w.d w.a w.b w.m w.f3) := by
  unfold decodeWord; rw [h]; rfl
theorem decodeWord_36 {w : Code} (h : w.major = 0x36) : decodeWord w = (decodeXbr w.e w.d w.a w.imm11) := by
  unfold decodeWord; rw [h]; rfl
theorem decodeWord_37 {w : Code} (h : w.major = 0x37) : decodeWord w = (decodeVseq w.e w.d w.a w.b w.m w.f3) := by
  unfold decodeWord; rw [h]; rfl
theorem decodeWord_38 {w : Code} (h : w.major = 0x38) : decodeWord w = (decodeMtx w.e w.d w.a w.b w.f) := by
  unfold decodeWord; rw [h]; rfl
theorem decodeWord_39 {w : Code} (h : w.major = 0x39) : decodeWord w = (decodeMmul w.e w.d w.a w.b w.f) := by
  unfold decodeWord; rw [h]; rfl
theorem decodeWord_3a {w : Code} (h : w.major = 0x3A) : decodeWord w = (decodeStrm w.e w.d w.a w.b w.f) := by
  unfold decodeWord; rw [h]; rfl
theorem decodeWord_3b {w : Code} (h : w.major = 0x3B) : decodeWord w = (decodeClus w.e w.d w.a w.b w.f) := by
  unfold decodeWord; rw [h]; rfl
theorem decodeWord_3c {w : Code} (h : w.major = 0x3C) : decodeWord w = (decodeGram w.e w.d w.a w.b w.f) := by
  unfold decodeWord; rw [h]; rfl
theorem decodeWord_3d {w : Code} (h : w.major = 0x3D) : decodeWord w = (decodePubl w.e w.d w.a w.b w.f) := by
  unfold decodeWord; rw [h]; rfl
theorem decodeWord_3e {w : Code} (h : w.major = 0x3E) : decodeWord w = (decodeCtx w.e w.d w.a w.b w.f) := by
  unfold decodeWord; rw [h]; rfl
theorem decodeWord_3f {w : Code} (h : w.major = 0x3F) : decodeWord w = decodeColl w.e w.d w.a w.b w.f := by
  unfold decodeWord; rw [h]; rfl

end Sys2Proof
end

