-- ==== Sys2Proof/Laws/Sparse.lean ====
section
/-!
SUPPORT. Sparse arrays: what a read gives after a write, and that every operation keeps the canonical form.
-/
namespace Sys2Proof.Machine

variable {α : Type} {dflt : Nat → α}

theorem Sparse.get_insert (m : Sparse α) (k k' : Nat) (v : α) :
    Sparse.get dflt (m.insert k v) k' = if k' = k then v else Sparse.get dflt m k' := by
  induction m with
  | nil => simp only [Sparse.insert, Sparse.get]
  | cons e rest ih =>
    obtain ⟨j, w⟩ := e
    simp only [Sparse.insert]
    split
    · subst j; simp only [Sparse.get]; split <;> rfl
    · split
      · simp only [Sparse.get]
      · simp only [Sparse.get, ih]; split <;> split <;> simp_all

theorem Sparse.get_drop (m : Sparse α) (k k' : Nat) :
    Sparse.get dflt (m.drop k) k' = if k' = k then dflt k else Sparse.get dflt m k' := by
  induction m with
  | nil => simp only [Sparse.drop, Sparse.get]; split <;> simp_all
  | cons e rest ih =>
    obtain ⟨j, w⟩ := e
    simp only [Sparse.drop]
    split
    · subst j; simp only [ih, Sparse.get]; split <;> simp_all
    · simp only [Sparse.get, ih]; split <;> split <;> simp_all

/-- A read after a write. -/
theorem Sparse.get_put [DecidableEq α] (m : Sparse α) (k k' : Nat) (v : α) :
    Sparse.get dflt (Sparse.put dflt m k v) k' = if k' = k then v else Sparse.get dflt m k' := by
  unfold Sparse.put
  split
  · rw [Sparse.get_drop]; simp_all
  · exact Sparse.get_insert ..

@[simp] theorem Sparse.get_put_same [DecidableEq α] (m : Sparse α) (k : Nat) (v : α) :
    Sparse.get dflt (Sparse.put dflt m k v) k = v := by simp [Sparse.get_put]

theorem Sparse.get_put_other [DecidableEq α] (m : Sparse α) {k k' : Nat} (v : α) (h : k' ≠ k) :
    Sparse.get dflt (Sparse.put dflt m k v) k' = Sparse.get dflt m k' := by simp [Sparse.get_put, h]

@[simp] theorem Sparse.get_nil (k : Nat) : Sparse.get dflt [] k = dflt k := rfl

/-- A read after consecutive writes. -/
theorem Sparse.get_putList [DecidableEq α] (vs : List α) (m : Sparse α) (k k' : Nat) :
    Sparse.get dflt (Sparse.putList dflt m k vs) k' =
      if h : k ≤ k' ∧ k' < k + vs.length then vs[k' - k]'(by omega) else Sparse.get dflt m k' := by
  induction vs generalizing m k with
  | nil => simp only [Sparse.putList, List.length_nil]; split <;> [omega; rfl]
  | cons v vs ih =>
    simp only [Sparse.putList, ih, List.length_cons, Sparse.get_put]
    by_cases e : k' = k
    · subst e; simp
    · by_cases h : k + 1 ≤ k' ∧ k' < k + 1 + vs.length
      · have h' : k ≤ k' ∧ k' < k + (vs.length + 1) := by omega
        have hs : k' - k = (k' - (k + 1)) + 1 := by omega
        simp only [dif_pos h, dif_pos h', hs, List.getElem_cons_succ]
      · have h' : ¬ (k ≤ k' ∧ k' < k + (vs.length + 1)) := by omega
        simp only [dif_neg h, dif_neg h', if_neg e]

theorem Sparse.getList_length (m : Sparse α) (k n : Nat) : (Sparse.getList dflt m k n).length = n := by
  induction n generalizing k with
  | zero => rfl
  | succ n ih => simp [Sparse.getList, ih]

/-- What stood at `k` on is read back. -/
theorem Sparse.getList_putList [DecidableEq α] (vs : List α) (m : Sparse α) (k : Nat) :
    Sparse.getList dflt (Sparse.putList dflt m k vs) k vs.length = vs := by
  have key : ∀ (n o : Nat), o + n ≤ vs.length →
      Sparse.getList dflt (Sparse.putList dflt m k vs) (k + o) n = (vs.drop o).take n := by
    intro n
    induction n with
    | zero => intro o _; simp [Sparse.getList]
    | succ n ih =>
      intro o ho
      have h1 : k ≤ k + o ∧ k + o < k + vs.length := by omega
      have h2 : o < vs.length := by omega
      simp only [Sparse.getList, Sparse.get_putList, dif_pos h1, Nat.add_assoc, ih (o + 1) (by omega)]
      have h3 : k + o - k = o := by omega
      rw [List.drop_eq_getElem_cons h2, List.take_succ_cons]
      simp only [h3]
  have h := key vs.length 0 (by omega)
  simpa using h

theorem Sparse.getList_other [DecidableEq α] (vs : List α) (m : Sparse α) {k j n : Nat} (h : j + n ≤ k ∨ k + vs.length ≤ j) :
    Sparse.getList dflt (Sparse.putList dflt m k vs) j n = Sparse.getList dflt m j n := by
  induction n generalizing j with
  | zero => rfl
  | succ n ih =>
    have h1 : ¬ (k ≤ j ∧ j < k + vs.length) := by omega
    simp only [Sparse.getList, Sparse.get_putList, dif_neg h1, ih (j := j + 1) (by omega)]

/-! ## The canonical form -/

theorem Sparse.rising_mono {lo lo' : Nat} (m : Sparse α) (h : Sparse.rising lo m = true) (hl : lo' ≤ lo) : Sparse.rising lo' m = true := by
  cases m with
  | nil => rfl
  | cons e rest => simp only [Sparse.rising, Bool.and_eq_true, decide_eq_true_eq] at *; exact ⟨by omega, h.2⟩

theorem Sparse.rising_drop {lo : Nat} (m : Sparse α) (k : Nat) (h : Sparse.rising lo m = true) : Sparse.rising lo (m.drop k) = true := by
  induction m generalizing lo with
  | nil => rfl
  | cons e rest ih =>
    obtain ⟨j, w⟩ := e
    simp only [Sparse.rising, Bool.and_eq_true, decide_eq_true_eq] at h
    simp only [Sparse.drop]
    split
    · exact ih (Sparse.rising_mono _ h.2 (by omega))
    · simp only [Sparse.rising, Bool.and_eq_true, decide_eq_true_eq]; exact ⟨h.1, ih h.2⟩

theorem Sparse.rising_insert {lo : Nat} (m : Sparse α) (k : Nat) (v : α) (h : Sparse.rising lo m = true) (hk : lo ≤ k) :
    Sparse.rising lo (m.insert k v) = true := by
  induction m generalizing lo with
  | nil => simp [Sparse.insert, Sparse.rising, hk]
  | cons e rest ih =>
    obtain ⟨j, w⟩ := e
    simp only [Sparse.rising, Bool.and_eq_true, decide_eq_true_eq] at h
    simp only [Sparse.insert]
    split
    · subst j; simp only [Sparse.rising, Bool.and_eq_true, decide_eq_true_eq]; exact ⟨hk, h.2⟩
    · split
      · simp only [Sparse.rising, Bool.and_eq_true, decide_eq_true_eq]; exact ⟨hk, by omega, h.2⟩
      · simp only [Sparse.rising, Bool.and_eq_true, decide_eq_true_eq]; exact ⟨h.1, ih h.2 (by omega)⟩

theorem Sparse.mem_drop (m : Sparse α) (k : Nat) (e : Nat × α) (h : e ∈ m.drop k) : e ∈ m := by
  induction m with
  | nil => exact h
  | cons x rest ih =>
    obtain ⟨j, w⟩ := x
    simp only [Sparse.drop] at h
    split at h
    · exact List.mem_cons_of_mem _ (ih h)
    · rcases List.mem_cons.1 h with h | h
      · exact h ▸ List.mem_cons_self ..
      · exact List.mem_cons_of_mem _ (ih h)

theorem Sparse.mem_insert (m : Sparse α) (k : Nat) (v : α) (e : Nat × α) (h : e ∈ m.insert k v) : e = (k, v) ∨ e ∈ m := by
  induction m with
  | nil => simpa [Sparse.insert] using h
  | cons x rest ih =>
    obtain ⟨j, w⟩ := x
    simp only [Sparse.insert] at h
    split at h
    · rcases List.mem_cons.1 h with h | h
      · exact .inl h
      · exact .inr (List.mem_cons_of_mem _ h)
    · split at h
      · simpa using h
      · rcases List.mem_cons.1 h with h | h
        · exact .inr (h ▸ List.mem_cons_self ..)
        · exact (ih h).imp_right (List.mem_cons_of_mem _)

theorem Sparse.wf_iff [DecidableEq α] (m : Sparse α) :
    Sparse.wf dflt m = true ↔ Sparse.rising 0 m = true ∧ ∀ e ∈ m, e.2 ≠ dflt e.1 := by
  simp [Sparse.wf, List.all_eq_true]

theorem Sparse.wf_nil [DecidableEq α] : Sparse.wf dflt ([] : Sparse α) = true := rfl

/-- Writing keeps the canonical form. -/
theorem Sparse.wf_put [DecidableEq α] (m : Sparse α) (k : Nat) (v : α) (h : Sparse.wf dflt m = true) :
    Sparse.wf dflt (Sparse.put dflt m k v) = true := by
  rw [Sparse.wf_iff] at *
  unfold Sparse.put
  split
  · exact ⟨Sparse.rising_drop _ _ h.1, fun e he => h.2 e (Sparse.mem_drop _ _ _ he)⟩
  · refine ⟨Sparse.rising_insert _ _ _ h.1 (Nat.zero_le _), fun e he => ?_⟩
    rcases Sparse.mem_insert _ _ _ _ he with rfl | he
    · assumption
    · exact h.2 e he

theorem Sparse.wf_putList [DecidableEq α] (vs : List α) (m : Sparse α) (k : Nat) (h : Sparse.wf dflt m = true) :
    Sparse.wf dflt (Sparse.putList dflt m k vs) = true := by
  induction vs generalizing m k with
  | nil => exact h
  | cons v vs ih => exact ih _ _ (Sparse.wf_put _ _ _ h)

/-- Two canonical arrays that read alike everywhere are equal. -/
theorem Sparse.ext [DecidableEq α] {m n : Sparse α} (hm : Sparse.wf dflt m = true) (hn : Sparse.wf dflt n = true)
    (h : ∀ k, Sparse.get dflt m k = Sparse.get dflt n k) : m = n := by
  have below : ∀ (m : Sparse α) (lo k : Nat), Sparse.rising lo m = true → k < lo → Sparse.get dflt m k = dflt k := by
    intro m
    induction m with
    | nil => intros; rfl
    | cons e rest ih =>
      intro lo k hr hk
      obtain ⟨j, w⟩ := e
      simp only [Sparse.rising, Bool.and_eq_true, decide_eq_true_eq] at hr
      simp only [Sparse.get, if_neg (show k ≠ j by omega)]
      exact ih _ _ hr.2 (by omega)
  have key : ∀ (m n : Sparse α) (lo : Nat), Sparse.rising lo m = true → (∀ e ∈ m, e.2 ≠ dflt e.1) → Sparse.rising lo n = true →
      (∀ e ∈ n, e.2 ≠ dflt e.1) → (∀ k, Sparse.get dflt m k = Sparse.get dflt n k) → m = n := by
    intro m
    induction m with
    | nil =>
      intro n lo _ _ _ hn h
      cases n with
      | nil => rfl
      | cons e rest => exact absurd (by simpa [Sparse.get] using (h e.1).symm) (hn e (List.mem_cons_self ..))
    | cons e m' ih =>
      obtain ⟨j, v⟩ := e
      intro n lo hr hv hr' hv' h
      cases n with
      | nil => exact absurd (by simpa [Sparse.get] using h j) (hv _ (List.mem_cons_self ..))
      | cons e' n' =>
        obtain ⟨j', v'⟩ := e'
        simp only [Sparse.rising, Bool.and_eq_true, decide_eq_true_eq] at hr hr'
        have hj : j = j' := by
          rcases Nat.lt_trichotomy j j' with l | l | l
          · have := h j
            simp only [Sparse.get, if_true, if_neg (show j ≠ j' by omega), below n' _ j hr'.2 (by omega)] at this
            exact absurd this (hv (j, v) (List.mem_cons_self ..))
          · exact l
          · have := h j'
            simp only [Sparse.get, if_true, if_neg (show j' ≠ j by omega), below m' _ j' hr.2 (by omega)] at this
            exact absurd this.symm (hv' (j', v') (List.mem_cons_self ..))
        subst hj
        have hvv : v = v' := by simpa [Sparse.get] using h j
        subst hvv
        congr 1
        refine ih n' (j + 1) hr.2 (fun e he => hv e (List.mem_cons_of_mem _ he)) hr'.2 (fun e he => hv' e (List.mem_cons_of_mem _ he)) fun k => ?_
        by_cases e : k = j
        · subst e; rw [below m' _ k hr.2 (by omega), below n' _ k hr'.2 (by omega)]
        · simpa [Sparse.get, e] using h k
  rw [Sparse.wf_iff] at hm hn
  exact key m n 0 hm.1 hm.2 hn.1 hn.2 h

/-! ## Physical memory -/

theorem Memory.read_write (m : List Host.Cell) (a k : Nat) (b : Byte) :
    Memory.read (Memory.write m a b) k = if k = a then b else Memory.read m k := Sparse.get_put m a k b

/-- A read after a write of consecutive bytes. -/
theorem Memory.read_writeList (m : List Host.Cell) (a k : Nat) (bs : List Byte) :
    Memory.read (Memory.writeList m a bs) k = if h : a ≤ k ∧ k < a + bs.length then bs[k - a]'(by omega) else Memory.read m k :=
  Sparse.get_putList bs m a k

theorem Memory.read_writeList_other (m : List Host.Cell) {a k : Nat} (bs : List Byte) (h : k < a ∨ a + bs.length ≤ k) :
    Memory.read (Memory.writeList m a bs) k = Memory.read m k := by
  rw [Memory.read_writeList, dif_neg (by omega)]

theorem Memory.wf_write (m : List Host.Cell) (a : Nat) (b : Byte) (h : Memory.wf m = true) : Memory.wf (Memory.write m a b) = true :=
  Sparse.wf_put m a b h

theorem Memory.wf_writeList (m : List Host.Cell) (a : Nat) (bs : List Byte) (h : Memory.wf m = true) :
    Memory.wf (Memory.writeList m a bs) = true := Sparse.wf_putList bs m a h

end Sys2Proof.Machine
end

