-- ==== Sys2Proof/Laws/Memory.lean ====
section
/-!
SUPPORT. The canonical form of physical memory: every operation that writes memory keeps it.
-/
namespace Sys2Proof.Machine

variable {α : Type} {dflt : Nat → α}

theorem Sparse.le_of_rising {lo : Nat} {m : Sparse α} (h : Sparse.rising lo m = true) : ∀ e ∈ m, lo ≤ e.1 := by
  induction m generalizing lo with
  | nil => intro e he; cases he
  | cons x m ih =>
    obtain ⟨j, v⟩ := x
    simp only [Sparse.rising, Bool.and_eq_true, decide_eq_true_eq] at h
    intro e he
    cases he with
    | head => exact h.1
    | tail _ he => exact Nat.le_trans (by omega) (ih h.2 e he)

theorem Sparse.rising_filter {lo : Nat} (m : Sparse α) (p : Nat × α → Bool) (h : Sparse.rising lo m = true) :
    Sparse.rising lo (m.filter p) = true := by
  induction m generalizing lo with
  | nil => rfl
  | cons x m ih =>
    obtain ⟨j, v⟩ := x
    simp only [Sparse.rising, Bool.and_eq_true, decide_eq_true_eq] at h
    simp only [List.filter_cons]
    split
    · simp [Sparse.rising, h.1, ih h.2]
    · exact Sparse.rising_mono _ (ih h.2) (by omega)

/-- A list below `k` followed by one from `k` on. -/
theorem Sparse.rising_append {lo k : Nat} (m n : Sparse α) (h : Sparse.rising lo m = true) (hk : ∀ e ∈ m, e.1 < k) (hn : Sparse.rising k n = true)
    (hl : lo ≤ k) : Sparse.rising lo (m ++ n) = true := by
  induction m generalizing lo with
  | nil => exact Sparse.rising_mono _ hn hl
  | cons x m ih =>
    obtain ⟨j, v⟩ := x
    simp only [Sparse.rising, Bool.and_eq_true, decide_eq_true_eq] at h
    have hj : j < k := hk (j, v) (List.mem_cons_self ..)
    simp only [List.cons_append, Sparse.rising, Bool.and_eq_true, decide_eq_true_eq]
    exact ⟨h.1, ih h.2 (fun e he => hk e (List.mem_cons_of_mem _ he)) (by omega)⟩

theorem Sparse.rising_shift {lo k : Nat} (m : Sparse α) (h : Sparse.rising lo m = true) :
    Sparse.rising (k + lo) (m.map fun e => (k + e.1, e.2)) = true := by
  induction m generalizing lo with
  | nil => rfl
  | cons x m ih =>
    obtain ⟨j, v⟩ := x
    simp only [Sparse.rising, Bool.and_eq_true, decide_eq_true_eq] at h
    simp only [List.map_cons, Sparse.rising, Bool.and_eq_true, decide_eq_true_eq]
    exact ⟨by omega, ih h.2⟩

/-- Entries from `k` on, of a list that rises, rise from `k` on. -/
theorem Sparse.rising_from {lo k : Nat} (m : Sparse α) (h : Sparse.rising lo m = true) (hk : ∀ e ∈ m, k ≤ e.1) : Sparse.rising k m = true := by
  cases m with
  | nil => rfl
  | cons x m =>
    obtain ⟨j, v⟩ := x
    simp only [Sparse.rising, Bool.and_eq_true, decide_eq_true_eq] at h ⊢
    exact ⟨hk (j, v) (List.mem_cons_self ..), h.2⟩

theorem Sparse.wf_filter [DecidableEq α] (m : Sparse α) (p : Nat × α → Bool) (h : Sparse.wf dflt m = true) : Sparse.wf dflt (m.filter p) = true := by
  rw [Sparse.wf_iff] at *
  exact ⟨Sparse.rising_filter _ _ h.1, fun e he => h.2 e (List.mem_filter.1 he).1⟩

/-- The image of a part lists rising indices of that part alone, and no zero. -/
theorem imagePart_wf (img : Sparse Byte) (size : Nat) :
    Sparse.wf zeroByte (imagePart img size) = true ∧ ∀ e ∈ imagePart img size, e.1 < size := by
  induction img with
  | nil => exact ⟨rfl, fun e he => by cases he⟩
  | cons x img ih =>
    unfold imagePart at ih ⊢
    simp only [List.foldr_cons]
    split
    · rename_i hx
      refine ⟨Sparse.wf_put _ _ _ ih.1, fun e he => ?_⟩
      unfold Sparse.put at he
      split at he
      · exact ih.2 e (Sparse.mem_drop _ _ _ he)
      · rcases Sparse.mem_insert _ _ _ _ he with rfl | he
        · exact hx
        · exact ih.2 e he
    · exact ih

/-- Outside the frame table an unlisted byte reads 0. -/
theorem Memory.unlisted_zero {a : Nat} (h : a < Config.frameTableBase ∨ Config.frameTableBase + Config.frameTableSize ≤ a) : Memory.unlisted a = 0 := by
  unfold Memory.unlisted
  rw [if_neg (by omega)]

theorem Memory.wf_fill (m : List Host.Cell) (lo size : Nat) (img : Sparse Byte) (h : Memory.wf m = true) : Memory.wf (Memory.fill m lo size img) = true := by
  unfold Memory.fill
  split
  · rename_i hr
    have hm := (Sparse.wf_iff (dflt := Memory.unlisted) m).1 h
    have hi := (Sparse.wf_iff (dflt := zeroByte) _).1 (imagePart_wf img size).1
    refine (Sparse.wf_iff (dflt := Memory.unlisted) _).2 ⟨?_, fun e he => ?_⟩
    · rw [List.append_assoc]
      refine Sparse.rising_append (k := lo) _ _ (Sparse.rising_filter _ _ hm.1) (fun e he => by simpa using (List.mem_filter.1 he).2) ?_ (Nat.zero_le _)
      refine Sparse.rising_append (k := lo + size) _ _ (Sparse.rising_shift (lo := 0) _ hi.1) (fun e he => ?_) ?_ (by omega)
      · obtain ⟨x, hx, rfl⟩ := List.mem_map.1 he
        have := (imagePart_wf img size).2 x hx
        simp only; omega
      · exact Sparse.rising_from _ (Sparse.rising_filter _ _ hm.1) (fun e he => by simpa using (List.mem_filter.1 he).2)
    · rcases List.mem_append.1 he with he | he
      · rcases List.mem_append.1 he with he | he
        · exact hm.2 e (List.mem_filter.1 he).1
        · obtain ⟨x, hx, rfl⟩ := List.mem_map.1 he
          have := (imagePart_wf img size).2 x hx
          simp only
          rw [Memory.unlisted_zero (by omega)]
          exact hi.2 x hx
      · exact hm.2 e (List.mem_filter.1 he).1
  · exact Memory.wf_writeList _ _ _ h

theorem Memory.wf_mapPage (m : List Host.Cell) (va : Nat) (h : Memory.wf m = true) : Memory.wf (mapPage m va) = true := by
  simp only [mapPage]
  apply Memory.wf_write
  iterate 3 apply Memory.wf_writeList
  exact h

theorem Memory.wf_setMemBit (s : State) (owner a bit : Nat) (h : Memory.wf s.mem = true) : Memory.wf (s.setMemBit owner a bit).mem = true :=
  Memory.wf_write _ _ _ h

theorem deviceWrite_mem (s : State) (off : Nat) (v : Word) : (s.deviceWrite off v).mem = s.mem := by
  unfold State.deviceWrite
  split
  · split <;> rfl
  · split
    · rfl
    · split
      · rfl
      · split
        · rfl
        · split
          · rfl
          · split <;> rfl

theorem wakeLines_mem (s : State) (p : Place) (n : Nat) : (s.wakeLines p n).mem = s.mem := rfl

/-- What a store performed leaves of memory: its bytes where it stores to memory, else memory as it was. -/
theorem poke_mem (s : State) (p : Place) (data : List Byte) (tag : Bool) (owner : Nat) :
    (s.poke p data tag owner).mem = match p with
      | .phys a => if inScan a then s.mem else Memory.writeList s.mem a data
      | .pad _ _ => s.mem := by
  unfold State.poke
  by_cases hd : data.length = 0
  · simp only [hd, if_true]
    cases p with
    | phys a =>
      cases data with
      | nil => simp only; split <;> rfl
      | cons b bs => simp at hd
    | pad t o => rfl
  · simp only [hd, if_false, wakeLines_mem]
    cases p with
    | phys a =>
      simp only
      cases inScan a
      · simp only [Bool.false_eq_true, if_false]
      · simp only [if_true, deviceWrite_mem]
    | pad t o => rfl

theorem Memory.wf_poke (s : State) (p : Place) (data : List Byte) (tag : Bool) (owner : Nat) (h : Memory.wf s.mem = true) :
    Memory.wf (s.poke p data tag owner).mem = true := by
  rw [poke_mem]
  cases p with
  | phys a =>
    simp only
    split
    · exact h
    · exact Memory.wf_writeList _ _ _ h
  | pad t o => exact h

/-- A property of memory that a fold's function keeps, the fold keeps. -/
theorem foldl_keeps {β : Type} (f : State → β → State) (l : List β) (s : State) (h : Memory.wf s.mem = true)
    (hf : ∀ s x, Memory.wf s.mem = true → Memory.wf (f s x).mem = true) : Memory.wf (l.foldl f s).mem = true := by
  induction l generalizing s with
  | nil => exact h
  | cons x l ih => exact ih _ (hf _ _ h)

theorem keepOld_mem (s : State) (w : Nat) (p : Place) (data : List Byte) : (s.keepOld w p data).mem = s.mem := by
  unfold State.keepOld; split <;> rfl

theorem forgetBy_mem (s : State) (w : Nat) (sel : Old → Bool) : (s.forgetBy w sel).mem = s.mem := rfl

theorem stampStore_mem (s : State) (w : Nat) (p : Place) : (s.stampStore w p).mem = s.mem := by
  unfold State.stampStore
  split
  · split <;> rfl
  · rfl

theorem Memory.wf_performOne (s : State) (w : Nat) (q : Pending) (h : Memory.wf s.mem = true) : Memory.wf (s.performOne w q).mem = true := by
  unfold State.performOne
  split
  · exact h
  · refine Memory.wf_poke _ _ _ _ _ ?_
    rw [stampStore_mem, keepOld_mem, forgetBy_mem]
    exact foldl_keeps _ _ _ h fun _ _ => Memory.wf_setMemBit _ _ _ _

theorem Memory.wf_performAfter (fuel : Nat) (s : State) (x : Nat × Pending) (h : Memory.wf s.mem = true) :
    Memory.wf (State.performAfter fuel s x).mem = true := by
  induction fuel generalizing s x with
  | zero => exact Memory.wf_performOne _ _ _ h
  | succ n ih =>
    unfold State.performAfter
    split
    · exact Memory.wf_performOne _ _ _ h
    · exact Memory.wf_performOne _ _ _ (foldl_keeps _ _ _ h fun t x => ih t x)

theorem Memory.wf_perform (s : State) (q : Pending) (h : Memory.wf s.mem = true) : Memory.wf (s.perform q).mem = true :=
  Memory.wf_performAfter _ _ _ h

theorem Memory.wf_drain (s : State) (sel : Pending → Bool) (h : Memory.wf s.mem = true) : Memory.wf (s.drain sel).mem = true :=
  foldl_keeps _ _ _ h fun _ _ => Memory.wf_perform _ _

theorem Memory.wf_drainAll (s : State) (h : Memory.wf s.mem = true) : Memory.wf s.drainAll.mem = true := Memory.wf_drain _ _ h

theorem Memory.wf_issueStore (s : State) (q : Pending) (h : Memory.wf s.mem = true) : Memory.wf (s.issueStore q).mem = true := by
  unfold State.issueStore
  split
  · exact h
  · exact Memory.wf_perform _ _ (Memory.wf_drain _ _ h)

/-- What the boot ROM leaves (R427). -/
theorem Memory.wf_boot (s : State) (h : Memory.wf s.mem = true) : Memory.wf s.boot.mem = true := Sparse.wf_filter _ _ h

end Sys2Proof.Machine
end

