-- ==== Sys2Proof/Laws/PerInstr.lean ====
section
/-!
SUPPORT. Every instruction is read back from its own word: one lemma per constructor.
-/
set_option linter.unusedSimpArgs false
namespace Sys2Proof.Laws

/-- The word of a well-formed instruction decodes to it. An event of the opcode table has no word. -/
def RoundTrip.Statement (i : Instr) : Prop := i.wf = true → ∀ w, encode i = some w → decodeWord w = .ok i

theorem zeroField_zero : zeroField 0 = .ok () := rfl
theorem extract_append_low {n m : Nat} (x : BitVec n) (y : BitVec m) : (x ++ y).extractLsb' 0 m = y := by
  apply BitVec.eq_of_getLsbD_eq; intro i hi
  simp [BitVec.getLsbD_append, hi]
theorem extract_append_high {n m : Nat} (x : BitVec n) (y : BitVec m) : (x ++ y).extractLsb' m n = x := by
  apply BitVec.eq_of_getLsbD_eq; intro i hi
  simp [BitVec.getLsbD_append, hi]
theorem maskField_ofMask (x : MReg) : maskField (ofMask x) = .ok x := by
  unfold maskField ofMask
  rw [show ((0 : BitVec 3) ++ x).extractLsb' 4 3 = 0 from extract_append_high (0 : BitVec 3) x,
    show ((0 : BitVec 3) ++ x).extractLsb' 0 4 = x from extract_append_low (0 : BitVec 3) x]
  rfl
theorem lowField_ofLow (x : BitVec 3) : lowField (ofLow x) = .ok x := by
  unfold lowField ofLow
  rw [show ((0 : BitVec 4) ++ x).extractLsb' 3 4 = 0 from extract_append_high (0 : BitVec 4) x,
    show ((0 : BitVec 4) ++ x).extractLsb' 0 3 = x from extract_append_low (0 : BitVec 4) x]
  rfl
theorem shift_minor (k : BitVec 2) (s : BitVec 6) : (k ++ (0 : BitVec 3) ++ s).extractLsb' 9 2 = k := by
  apply BitVec.eq_of_getLsbD_eq; intro i hi
  rw [BitVec.getLsbD_extractLsb']
  show (decide (i < 2) && (k ++ (0 : BitVec 3) ++ s).getLsbD (9 + i)) = _
  simp only [BitVec.getLsbD_append, hi, decide_true, Bool.true_and]
  repeat' split
  all_goals first | omega | simp | (congr 1; omega)
theorem shift_zero (k : BitVec 2) (s : BitVec 6) : (k ++ (0 : BitVec 3) ++ s).extractLsb' 6 3 = 0 := by
  apply BitVec.eq_of_getLsbD_eq; intro i hi
  rw [BitVec.getLsbD_extractLsb']
  show (decide (i < 3) && (k ++ (0 : BitVec 3) ++ s).getLsbD (6 + i)) = _
  simp only [BitVec.getLsbD_append, hi, decide_true, Bool.true_and]
  repeat' split
  all_goals first | omega | simp
theorem shift_amount (k : BitVec 2) (s : BitVec 6) : (k ++ (0 : BitVec 3) ++ s).extractLsb' 0 6 = s := extract_append_low _ s
theorem width_low (k : BitVec 1) (w : BitVec 3) : (k ++ w).extractLsb' 0 3 = w := extract_append_low k w
theorem width_high (k : BitVec 1) (w : BitVec 3) : (k ++ w).getLsbD 3 = k.getLsbD 0 := by
  show (k ++ w).getLsbD 3 = _
  rw [BitVec.getLsbD_append]; rfl
theorem fence_kind (k s : BitVec 3) : (k ++ (0 : BitVec 5) ++ s).extractLsb' 8 3 = k := by
  apply BitVec.eq_of_getLsbD_eq; intro i hi
  rw [BitVec.getLsbD_extractLsb']
  show (decide (i < 3) && (k ++ (0 : BitVec 5) ++ s).getLsbD (8 + i)) = _
  simp only [BitVec.getLsbD_append, hi, decide_true, Bool.true_and]
  repeat' split
  all_goals first | omega | simp | (congr 1; omega)
theorem fence_zero (k s : BitVec 3) : (k ++ (0 : BitVec 5) ++ s).extractLsb' 3 5 = 0 := by
  apply BitVec.eq_of_getLsbD_eq; intro i hi
  rw [BitVec.getLsbD_extractLsb']
  show (decide (i < 5) && (k ++ (0 : BitVec 5) ++ s).getLsbD (3 + i)) = _
  simp only [BitVec.getLsbD_append, hi, decide_true, Bool.true_and]
  repeat' split
  all_goals first | omega | simp
theorem fence_scope (k s : BitVec 3) : (k ++ (0 : BitVec 5) ++ s).extractLsb' 0 3 = s := extract_append_low _ s
theorem tiles_high (c s : BitVec 3) : (c ++ (0 : BitVec 1) ++ s).extractLsb' 4 3 = c := by
  apply BitVec.eq_of_getLsbD_eq; intro i hi
  rw [BitVec.getLsbD_extractLsb']
  show (decide (i < 3) && (c ++ (0 : BitVec 1) ++ s).getLsbD (4 + i)) = _
  simp only [BitVec.getLsbD_append, hi, decide_true, Bool.true_and]
  repeat' split
  all_goals first | omega | simp | (congr 1; omega)
theorem tiles_low (c s : BitVec 3) : (c ++ (0 : BitVec 1) ++ s).extractLsb' 0 3 = s := extract_append_low _ s
theorem tiles_zero (c s : BitVec 3) : (c ++ (0 : BitVec 1) ++ s).getLsbD 3 = false := by
  show (c ++ (0 : BitVec 1) ++ s).getLsbD 3 = _
  simp only [BitVec.getLsbD_append]; rfl
theorem bind_ok {ε α β : Type} (x : α) (f : α → Except ε β) : (Except.ok x >>= f) = f x := rfl

theorem RoundTrip.add (e : Bool) (d : GReg) (a : GReg) (b : GReg) : RoundTrip.Statement (.add e d a b) := by
  intro hw x h
  have h' : some (encR e 0x01 d a b 0) = some x := h
  cases h'
  rw [decodeWord_01 (encR_major ..)]
  simp [decodeAlu, bind, Except.bind, zeroField]
theorem RoundTrip.sub (e : Bool) (d : GReg) (a : GReg) (b : GReg) : RoundTrip.Statement (.sub e d a b) := by
  intro hw x h
  have h' : some (encR e 0x01 d a b 1) = some x := h
  cases h'
  rw [decodeWord_01 (encR_major ..)]
  simp [decodeAlu, bind, Except.bind]
theorem RoundTrip.and (e : Bool) (d : GReg) (a : GReg) (b : GReg) : RoundTrip.Statement (.and e d a b) := by
  intro hw x h
  have h' : some (encR e 0x01 d a b 2) = some x := h
  cases h'
  rw [decodeWord_01 (encR_major ..)]
  simp [decodeAlu, bind, Except.bind]
theorem RoundTrip.or (e : Bool) (d : GReg) (a : GReg) (b : GReg) : RoundTrip.Statement (.or e d a b) := by
  intro hw x h
  have h' : some (encR e 0x01 d a b 3) = some x := h
  cases h'
  rw [decodeWord_01 (encR_major ..)]
  simp [decodeAlu, bind, Except.bind]
theorem RoundTrip.xor (e : Bool) (d : GReg) (a : GReg) (b : GReg) : RoundTrip.Statement (.xor e d a b) := by
  intro hw x h
  have h' : some (encR e 0x01 d a b 4) = some x := h
  cases h'
  rw [decodeWord_01 (encR_major ..)]
  simp [decodeAlu, bind, Except.bind]
theorem RoundTrip.andn (e : Bool) (d : GReg) (a : GReg) (b : GReg) : RoundTrip.Statement (.andn e d a b) := by
  intro hw x h
  have h' : some (encR e 0x01 d a b 5) = some x := h
  cases h'
  rw [decodeWord_01 (encR_major ..)]
  simp [decodeAlu, bind, Except.bind]
theorem RoundTrip.orn (e : Bool) (d : GReg) (a : GReg) (b : GReg) : RoundTrip.Statement (.orn e d a b) := by
  intro hw x h
  have h' : some (encR e 0x01 d a b 6) = some x := h
  cases h'
  rw [decodeWord_01 (encR_major ..)]
  simp [decodeAlu, bind, Except.bind]
theorem RoundTrip.sll (e : Bool) (d : GReg) (a : GReg) (b : GReg) : RoundTrip.Statement (.sll e d a b) := by
  intro hw x h
  have h' : some (encR e 0x01 d a b 7) = some x := h
  cases h'
  rw [decodeWord_01 (encR_major ..)]
  simp [decodeAlu, bind, Except.bind]
theorem RoundTrip.srl (e : Bool) (d : GReg) (a : GReg) (b : GReg) : RoundTrip.Statement (.srl e d a b) := by
  intro hw x h
  have h' : some (encR e 0x01 d a b 8) = some x := h
  cases h'
  rw [decodeWord_01 (encR_major ..)]
  simp [decodeAlu, bind, Except.bind]
theorem RoundTrip.sra (e : Bool) (d : GReg) (a : GReg) (b : GReg) : RoundTrip.Statement (.sra e d a b) := by
  intro hw x h
  have h' : some (encR e 0x01 d a b 9) = some x := h
  cases h'
  rw [decodeWord_01 (encR_major ..)]
  simp [decodeAlu, bind, Except.bind]
theorem RoundTrip.rol (e : Bool) (d : GReg) (a : GReg) (b : GReg) : RoundTrip.Statement (.rol e d a b) := by
  intro hw x h
  have h' : some (encR e 0x01 d a b 10) = some x := h
  cases h'
  rw [decodeWord_01 (encR_major ..)]
  simp [decodeAlu, bind, Except.bind]
theorem RoundTrip.ror (e : Bool) (d : GReg) (a : GReg) (b : GReg) : RoundTrip.Statement (.ror e d a b) := by
  intro hw x h
  have h' : some (encR e 0x01 d a b 11) = some x := h
  cases h'
  rw [decodeWord_01 (encR_major ..)]
  simp [decodeAlu, bind, Except.bind]
theorem RoundTrip.slt (e : Bool) (d : GReg) (a : GReg) (b : GReg) : RoundTrip.Statement (.slt e d a b) := by
  intro hw x h
  have h' : some (encR e 0x01 d a b 12) = some x := h
  cases h'
  rw [decodeWord_01 (encR_major ..)]
  simp [decodeAlu, bind, Except.bind]
theorem RoundTrip.sltn (e : Bool) (d : GReg) (a : GReg) (b : GReg) : RoundTrip.Statement (.sltn e d a b) := by
  intro hw x h
  have h' : some (encR e 0x01 d a b 13) = some x := h
  cases h'
  rw [decodeWord_01 (encR_major ..)]
  simp [decodeAlu, bind, Except.bind]
theorem RoundTrip.min (e : Bool) (d : GReg) (a : GReg) (b : GReg) : RoundTrip.Statement (.min e d a b) := by
  intro hw x h
  have h' : some (encR e 0x01 d a b 14) = some x := h
  cases h'
  rw [decodeWord_01 (encR_major ..)]
  simp [decodeAlu, bind, Except.bind]
theorem RoundTrip.max (e : Bool) (d : GReg) (a : GReg) (b : GReg) : RoundTrip.Statement (.max e d a b) := by
  intro hw x h
  have h' : some (encR e 0x01 d a b 15) = some x := h
  cases h'
  rw [decodeWord_01 (encR_major ..)]
  simp [decodeAlu, bind, Except.bind]
theorem RoundTrip.minn (e : Bool) (d : GReg) (a : GReg) (b : GReg) : RoundTrip.Statement (.minn e d a b) := by
  intro hw x h
  have h' : some (encR e 0x02 d a b 0) = some x := h
  cases h'
  rw [decodeWord_02 (encR_major ..)]
  simp [decodeAlu2, bind, Except.bind, zeroField]
theorem RoundTrip.maxn (e : Bool) (d : GReg) (a : GReg) (b : GReg) : RoundTrip.Statement (.maxn e d a b) := by
  intro hw x h
  have h' : some (encR e 0x02 d a b 1) = some x := h
  cases h'
  rw [decodeWord_02 (encR_major ..)]
  simp [decodeAlu2, bind, Except.bind]
theorem RoundTrip.mul (e : Bool) (d : GReg) (a : GReg) (b : GReg) : RoundTrip.Statement (.mul e d a b) := by
  intro hw x h
  have h' : some (encR e 0x02 d a b 2) = some x := h
  cases h'
  rw [decodeWord_02 (encR_major ..)]
  simp [decodeAlu2, bind, Except.bind]
theorem RoundTrip.mulh (e : Bool) (d : GReg) (a : GReg) (b : GReg) : RoundTrip.Statement (.mulh e d a b) := by
  intro hw x h
  have h' : some (encR e 0x02 d a b 3) = some x := h
  cases h'
  rw [decodeWord_02 (encR_major ..)]
  simp [decodeAlu2, bind, Except.bind]
theorem RoundTrip.mulhn (e : Bool) (d : GReg) (a : GReg) (b : GReg) : RoundTrip.Statement (.mulhn e d a b) := by
  intro hw x h
  have h' : some (encR e 0x02 d a b 4) = some x := h
  cases h'
  rw [decodeWord_02 (encR_major ..)]
  simp [decodeAlu2, bind, Except.bind]
theorem RoundTrip.div (e : Bool) (d : GReg) (a : GReg) (b : GReg) : RoundTrip.Statement (.div e d a b) := by
  intro hw x h
  have h' : some (encR e 0x02 d a b 5) = some x := h
  cases h'
  rw [decodeWord_02 (encR_major ..)]
  simp [decodeAlu2, bind, Except.bind]
theorem RoundTrip.divn (e : Bool) (d : GReg) (a : GReg) (b : GReg) : RoundTrip.Statement (.divn e d a b) := by
  intro hw x h
  have h' : some (encR e 0x02 d a b 6) = some x := h
  cases h'
  rw [decodeWord_02 (encR_major ..)]
  simp [decodeAlu2, bind, Except.bind]
theorem RoundTrip.rem (e : Bool) (d : GReg) (a : GReg) (b : GReg) : RoundTrip.Statement (.rem e d a b) := by
  intro hw x h
  have h' : some (encR e 0x02 d a b 7) = some x := h
  cases h'
  rw [decodeWord_02 (encR_major ..)]
  simp [decodeAlu2, bind, Except.bind]
theorem RoundTrip.remn (e : Bool) (d : GReg) (a : GReg) (b : GReg) : RoundTrip.Statement (.remn e d a b) := by
  intro hw x h
  have h' : some (encR e 0x02 d a b 8) = some x := h
  cases h'
  rw [decodeWord_02 (encR_major ..)]
  simp [decodeAlu2, bind, Except.bind]
theorem RoundTrip.addv (e : Bool) (d : GReg) (a : GReg) (b : GReg) : RoundTrip.Statement (.addv e d a b) := by
  intro hw x h
  have h' : some (encR e 0x02 d a b 9) = some x := h
  cases h'
  rw [decodeWord_02 (encR_major ..)]
  simp [decodeAlu2, bind, Except.bind]
theorem RoundTrip.subv (e : Bool) (d : GReg) (a : GReg) (b : GReg) : RoundTrip.Statement (.subv e d a b) := by
  intro hw x h
  have h' : some (encR e 0x02 d a b 10) = some x := h
  cases h'
  rw [decodeWord_02 (encR_major ..)]
  simp [decodeAlu2, bind, Except.bind]
theorem RoundTrip.mulv (e : Bool) (d : GReg) (a : GReg) (b : GReg) : RoundTrip.Statement (.mulv e d a b) := by
  intro hw x h
  have h' : some (encR e 0x02 d a b 11) = some x := h
  cases h'
  rw [decodeWord_02 (encR_major ..)]
  simp [decodeAlu2, bind, Except.bind]
theorem RoundTrip.clz (e : Bool) (d : GReg) (a : GReg) : RoundTrip.Statement (.clz e d a) := by
  intro hw x h
  have h' : some (encR e 0x02 d a 0 12) = some x := h
  cases h'
  rw [decodeWord_02 (encR_major ..)]
  simp [decodeAlu2, bind, Except.bind, zeroField]
theorem RoundTrip.ctz (e : Bool) (d : GReg) (a : GReg) : RoundTrip.Statement (.ctz e d a) := by
  intro hw x h
  have h' : some (encR e 0x02 d a 0 13) = some x := h
  cases h'
  rw [decodeWord_02 (encR_major ..)]
  simp [decodeAlu2, bind, Except.bind, zeroField]
theorem RoundTrip.popc (e : Bool) (d : GReg) (a : GReg) : RoundTrip.Statement (.popc e d a) := by
  intro hw x h
  have h' : some (encR e 0x02 d a 0 14) = some x := h
  cases h'
  rw [decodeWord_02 (encR_major ..)]
  simp [decodeAlu2, bind, Except.bind, zeroField]
theorem RoundTrip.bswap (e : Bool) (d : GReg) (a : GReg) : RoundTrip.Statement (.bswap e d a) := by
  intro hw x h
  have h' : some (encR e 0x02 d a 0 15) = some x := h
  cases h'
  rw [decodeWord_02 (encR_major ..)]
  simp [decodeAlu2, bind, Except.bind, zeroField]
theorem RoundTrip.sext8 (e : Bool) (d : GReg) (a : GReg) : RoundTrip.Statement (.sext8 e d a) := by
  intro hw x h
  have h' : some (encR e 0x1F d a 0 0) = some x := h
  cases h'
  rw [decodeWord_1f (encR_major ..)]
  simp [decodeAlu3, bind, Except.bind, zeroField]
theorem RoundTrip.sext16 (e : Bool) (d : GReg) (a : GReg) : RoundTrip.Statement (.sext16 e d a) := by
  intro hw x h
  have h' : some (encR e 0x1F d a 0 1) = some x := h
  cases h'
  rw [decodeWord_1f (encR_major ..)]
  simp [decodeAlu3, bind, Except.bind, zeroField]
theorem RoundTrip.sext32 (e : Bool) (d : GReg) (a : GReg) : RoundTrip.Statement (.sext32 e d a) := by
  intro hw x h
  have h' : some (encR e 0x1F d a 0 2) = some x := h
  cases h'
  rw [decodeWord_1f (encR_major ..)]
  simp [decodeAlu3, bind, Except.bind, zeroField]
theorem RoundTrip.zext8 (e : Bool) (d : GReg) (a : GReg) : RoundTrip.Statement (.zext8 e d a) := by
  intro hw x h
  have h' : some (encR e 0x1F d a 0 3) = some x := h
  cases h'
  rw [decodeWord_1f (encR_major ..)]
  simp [decodeAlu3, bind, Except.bind, zeroField]
theorem RoundTrip.zext16 (e : Bool) (d : GReg) (a : GReg) : RoundTrip.Statement (.zext16 e d a) := by
  intro hw x h
  have h' : some (encR e 0x1F d a 0 4) = some x := h
  cases h'
  rw [decodeWord_1f (encR_major ..)]
  simp [decodeAlu3, bind, Except.bind, zeroField]
theorem RoundTrip.zext32 (e : Bool) (d : GReg) (a : GReg) : RoundTrip.Statement (.zext32 e d a) := by
  intro hw x h
  have h' : some (encR e 0x1F d a 0 5) = some x := h
  cases h'
  rw [decodeWord_1f (encR_major ..)]
  simp [decodeAlu3, bind, Except.bind, zeroField]
theorem RoundTrip.addi (e : Bool) (d : GReg) (a : GReg) (i : BitVec 11) : RoundTrip.Statement (.addi e d a i) := by
  intro hw x h
  have h' : some (encI e 0x03 d a i) = some x := h
  cases h'
  rw [decodeWord_03 (encI_major ..)]
  simp [bind, Except.bind]
theorem RoundTrip.andi (e : Bool) (d : GReg) (a : GReg) (i : BitVec 11) : RoundTrip.Statement (.andi e d a i) := by
  intro hw x h
  have h' : some (encI e 0x04 d a i) = some x := h
  cases h'
  rw [decodeWord_04 (encI_major ..)]
  simp [bind, Except.bind]
theorem RoundTrip.ori (e : Bool) (d : GReg) (a : GReg) (i : BitVec 11) : RoundTrip.Statement (.ori e d a i) := by
  intro hw x h
  have h' : some (encI e 0x05 d a i) = some x := h
  cases h'
  rw [decodeWord_05 (encI_major ..)]
  simp [bind, Except.bind]
theorem RoundTrip.xori (e : Bool) (d : GReg) (a : GReg) (i : BitVec 11) : RoundTrip.Statement (.xori e d a i) := by
  intro hw x h
  have h' : some (encI e 0x06 d a i) = some x := h
  cases h'
  rw [decodeWord_06 (encI_major ..)]
  simp [bind, Except.bind]
theorem RoundTrip.slti (e : Bool) (d : GReg) (a : GReg) (i : BitVec 11) : RoundTrip.Statement (.slti e d a i) := by
  intro hw x h
  have h' : some (encI e 0x08 d a i) = some x := h
  cases h'
  rw [decodeWord_08 (encI_major ..)]
  simp [bind, Except.bind]
theorem RoundTrip.sltni (e : Bool) (d : GReg) (a : GReg) (i : BitVec 11) : RoundTrip.Statement (.sltni e d a i) := by
  intro hw x h
  have h' : some (encI e 0x09 d a i) = some x := h
  cases h'
  rw [decodeWord_09 (encI_major ..)]
  simp [bind, Except.bind]
theorem RoundTrip.slli (e : Bool) (d : GReg) (a : GReg) (s : BitVec 6) : RoundTrip.Statement (.slli e d a s) := by
  intro hw x h
  have h' : some (encI e 0x07 d a ((0 : BitVec 2) ++ (0 : BitVec 3) ++ s)) = some x := h
  cases h'
  rw [decodeWord_07 (encI_major ..)]
  simp only [encI_e, encI_d, encI_a, encI_imm11, decodeShi, shift_minor, shift_zero, shift_amount]
  rfl
theorem RoundTrip.srli (e : Bool) (d : GReg) (a : GReg) (s : BitVec 6) : RoundTrip.Statement (.srli e d a s) := by
  intro hw x h
  have h' : some (encI e 0x07 d a ((1 : BitVec 2) ++ (0 : BitVec 3) ++ s)) = some x := h
  cases h'
  rw [decodeWord_07 (encI_major ..)]
  simp only [encI_e, encI_d, encI_a, encI_imm11, decodeShi, shift_minor, shift_zero, shift_amount]
  rfl
theorem RoundTrip.srai (e : Bool) (d : GReg) (a : GReg) (s : BitVec 6) : RoundTrip.Statement (.srai e d a s) := by
  intro hw x h
  have h' : some (encI e 0x07 d a ((2 : BitVec 2) ++ (0 : BitVec 3) ++ s)) = some x := h
  cases h'
  rw [decodeWord_07 (encI_major ..)]
  simp only [encI_e, encI_d, encI_a, encI_imm11, decodeShi, shift_minor, shift_zero, shift_amount]
  rfl
theorem RoundTrip.roli (e : Bool) (d : GReg) (a : GReg) (s : BitVec 6) : RoundTrip.Statement (.roli e d a s) := by
  intro hw x h
  have h' : some (encI e 0x07 d a ((3 : BitVec 2) ++ (0 : BitVec 3) ++ s)) = some x := h
  cases h'
  rw [decodeWord_07 (encI_major ..)]
  simp only [encI_e, encI_d, encI_a, encI_imm11, decodeShi, shift_minor, shift_zero, shift_amount]
  rfl
theorem RoundTrip.lim (e : Bool) (d : GReg) (i : BitVec 18) : RoundTrip.Statement (.lim e d i) := by
  intro hw x h
  have h' : some (encW e 0x0A d i) = some x := h
  cases h'
  rw [decodeWord_0a (encW_major ..)]
  simp [bind, Except.bind]
theorem RoundTrip.lihi (e : Bool) (d : GReg) (i : BitVec 18) : RoundTrip.Statement (.lihi e d i) := by
  intro hw x h
  have h' : some (encW e 0x0B d i) = some x := h
  cases h'
  rw [decodeWord_0b (encW_major ..)]
  simp [bind, Except.bind]
theorem RoundTrip.addpc (e : Bool) (d : GReg) (i : BitVec 18) : RoundTrip.Statement (.addpc e d i) := by
  intro hw x h
  have h' : some (encW e 0x0C d i) = some x := h
  cases h'
  rw [decodeWord_0c (encW_major ..)]
  simp [bind, Except.bind]
theorem RoundTrip.ld (e : Bool) (d : GReg) (a : GReg) (w : BitVec 3) (o : BitVec 8) : RoundTrip.Statement (.ld e d a w o) := by
  intro hw x h
  have h' : some (encM e 0x0D d a w o) = some x := h
  cases h'
  rw [decodeWord_0d (encM_major ..)]
  simp [Instr.wf] at hw
  simp [bind, Except.bind, hw]
theorem RoundTrip.st (e : Bool) (d : GReg) (a : GReg) (w : BitVec 3) (o : BitVec 8) : RoundTrip.Statement (.st e d a w o) := by
  intro hw x h
  have h' : some (encM e 0x0E d a w o) = some x := h
  cases h'
  rw [decodeWord_0e (encM_major ..)]
  simp [Instr.wf] at hw
  simp [bind, Except.bind, hw]
theorem RoundTrip.ldx (e : Bool) (d : GReg) (a : GReg) (b : GReg) (w : BitVec 3) : RoundTrip.Statement (.ldx e d a b w) := by
  intro hw x h
  have h' : some (encR e 0x0F d a b ((0 : BitVec 1) ++ w)) = some x := h
  cases h'
  rw [decodeWord_0f (encR_major ..)]
  simp [Instr.wf] at hw
  simp only [encR_e, encR_d, encR_a, encR_b, encR_f, decodeXmem, width_low, width_high]
  simp [hw]
theorem RoundTrip.stx (e : Bool) (d : GReg) (a : GReg) (b : GReg) (w : BitVec 3) : RoundTrip.Statement (.stx e d a b w) := by
  intro hw x h
  have h' : some (encR e 0x0F d a b ((1 : BitVec 1) ++ w)) = some x := h
  cases h'
  rw [decodeWord_0f (encR_major ..)]
  simp [Instr.wf] at hw
  simp only [encR_e, encR_d, encR_a, encR_b, encR_f, decodeXmem, width_low, width_high]
  simp [hw]
theorem RoundTrip.beq (e : Bool) (a : GReg) (b : GReg) (o : BitVec 11) : RoundTrip.Statement (.beq e a b o) := by
  intro hw x h
  have h' : some (encI e 0x10 a b o) = some x := h
  cases h'
  rw [decodeWord_10 (encI_major ..)]
  simp [bind, Except.bind]
theorem RoundTrip.bne (e : Bool) (a : GReg) (b : GReg) (o : BitVec 11) : RoundTrip.Statement (.bne e a b o) := by
  intro hw x h
  have h' : some (encI e 0x11 a b o) = some x := h
  cases h'
  rw [decodeWord_11 (encI_major ..)]
  simp [bind, Except.bind]
theorem RoundTrip.blt (e : Bool) (a : GReg) (b : GReg) (o : BitVec 11) : RoundTrip.Statement (.blt e a b o) := by
  intro hw x h
  have h' : some (encI e 0x12 a b o) = some x := h
  cases h'
  rw [decodeWord_12 (encI_major ..)]
  simp [bind, Except.bind]
theorem RoundTrip.bge (e : Bool) (a : GReg) (b : GReg) (o : BitVec 11) : RoundTrip.Statement (.bge e a b o) := by
  intro hw x h
  have h' : some (encI e 0x13 a b o) = some x := h
  cases h'
  rw [decodeWord_13 (encI_major ..)]
  simp [bind, Except.bind]
theorem RoundTrip.bltn (e : Bool) (a : GReg) (b : GReg) (o : BitVec 11) : RoundTrip.Statement (.bltn e a b o) := by
  intro hw x h
  have h' : some (encI e 0x14 a b o) = some x := h
  cases h'
  rw [decodeWord_14 (encI_major ..)]
  simp [bind, Except.bind]
theorem RoundTrip.bgen (e : Bool) (a : GReg) (b : GReg) (o : BitVec 11) : RoundTrip.Statement (.bgen e a b o) := by
  intro hw x h
  have h' : some (encI e 0x15 a b o) = some x := h
  cases h'
  rw [decodeWord_15 (encI_major ..)]
  simp [bind, Except.bind]
theorem RoundTrip.jmp (e : Bool) (o : BitVec 25) : RoundTrip.Statement (.jmp e o) := by
  intro hw x h
  have h' : some (encJ e 0x16 o) = some x := h
  cases h'
  rw [decodeWord_16 (encJ_major ..)]
  simp [bind, Except.bind]
theorem RoundTrip.call (e : Bool) (o : BitVec 25) : RoundTrip.Statement (.call e o) := by
  intro hw x h
  have h' : some (encJ e 0x17 o) = some x := h
  cases h'
  rw [decodeWord_17 (encJ_major ..)]
  simp [bind, Except.bind]
theorem RoundTrip.jr (e : Bool) (a : GReg) : RoundTrip.Statement (.jr e a) := by
  intro hw x h
  have h' : some (encR e 0x18 0 a 0 0) = some x := h
  cases h'
  rw [decodeWord_18 (encR_major ..)]
  simp [decodeJreg, bind, Except.bind, zeroField]
theorem RoundTrip.callr (e : Bool) (a : GReg) : RoundTrip.Statement (.callr e a) := by
  intro hw x h
  have h' : some (encR e 0x18 0 a 0 1) = some x := h
  cases h'
  rw [decodeWord_18 (encR_major ..)]
  simp [decodeJreg, bind, Except.bind, zeroField]
theorem RoundTrip.ret (e : Bool) : RoundTrip.Statement (.ret e) := by
  intro hw x h
  have h' : some (encR e 0x18 0 0 0 2) = some x := h
  cases h'
  rw [decodeWord_18 (encR_major ..)]
  simp [decodeJreg, bind, Except.bind, zeroField]
theorem RoundTrip.loop (e : Bool) (l : Bool) (a : GReg) (o : BitVec 11) : RoundTrip.Statement (.loop e l a o) := by
  intro hw x h
  have h' : some (encI e 0x19 ((0 : BitVec 6) ++ BitVec.ofBool l) a o) = some x := h
  cases h'
  rw [decodeWord_19 (encI_major ..)]
  simp [Instr.wf] at hw
  cases l <;> simp [decodeLoop, bind, Except.bind, zeroField, hw]
theorem RoundTrip.loopi (e : Bool) (l : Bool) (c : BitVec 12) (o : BitVec 12) : RoundTrip.Statement (.loopi e l c o) := by
  intro hw x h
  have h' : some (encL e 0x1A l c o) = some x := h
  cases h'
  rw [decodeWord_1a (encL_major ..)]
  simp [Instr.wf] at hw
  simp only [decodeLoopi, encL_e, encL_l, encL_c, encL_o]
  simp [hw]
theorem RoundTrip.mfs (e : Bool) (d : GReg) (n : BitVec 11) : RoundTrip.Statement (.mfs e d n) := by
  intro hw x h
  have h' : some (encI e 0x1B d 0 n) = some x := h
  cases h'
  rw [decodeWord_1b (encI_major ..)]
  simp [Instr.wf] at hw
  simp [bind, Except.bind, zeroField, hw]
theorem RoundTrip.mts (e : Bool) (a : GReg) (n : BitVec 11) : RoundTrip.Statement (.mts e a n) := by
  intro hw x h
  have h' : some (encI e 0x1C 0 a n) = some x := h
  cases h'
  rw [decodeWord_1c (encI_major ..)]
  simp [Instr.wf] at hw
  simp [bind, Except.bind, zeroField, hw]
theorem RoundTrip.winb (e : Bool) (i : BitVec 11) : RoundTrip.Statement (.winb e i) := by
  intro hw x h
  have h' : some (encI e 0x1D 0 0 i) = some x := h
  cases h'
  rw [decodeWord_1d (encI_major ..)]
  simp [Instr.wf] at hw
  simp [bind, Except.bind, zeroField, hw]
theorem RoundTrip.nop (e : Bool) : RoundTrip.Statement (.nop e) := by
  intro hw x h
  have h' : some (encR e 0x1E 0 0 0 0) = some x := h
  cases h'
  rw [decodeWord_1e (encR_major ..)]
  simp [decodeSys, bind, Except.bind, zeroField]
theorem RoundTrip.trap (e : Bool) (c : BitVec 7) : RoundTrip.Statement (.trap e c) := by
  intro hw x h
  have h' : some (encR e 0x1E 0 0 c 1) = some x := h
  cases h'
  rw [decodeWord_1e (encR_major ..)]
  simp [decodeSys, bind, Except.bind, zeroField]
theorem RoundTrip.rft (e : Bool) : RoundTrip.Statement (.rft e) := by
  intro hw x h
  have h' : some (encR e 0x1E 0 0 0 2) = some x := h
  cases h'
  rw [decodeWord_1e (encR_major ..)]
  simp [decodeSys, bind, Except.bind, zeroField]
theorem RoundTrip.wait (e : Bool) : RoundTrip.Statement (.wait e) := by
  intro hw x h
  have h' : some (encR e 0x1E 0 0 0 3) = some x := h
  cases h'
  rw [decodeWord_1e (encR_major ..)]
  simp [decodeSys, bind, Except.bind, zeroField]
theorem RoundTrip.yield (e : Bool) : RoundTrip.Statement (.yield e) := by
  intro hw x h
  have h' : some (encR e 0x1E 0 0 0 4) = some x := h
  cases h'
  rw [decodeWord_1e (encR_major ..)]
  simp [decodeSys, bind, Except.bind, zeroField]
theorem RoundTrip.brkpt (e : Bool) : RoundTrip.Statement (.brkpt e) := by
  intro hw x h
  have h' : some (encR e 0x1E 0 0 0 5) = some x := h
  cases h'
  rw [decodeWord_1e (encR_major ..)]
  simp [decodeSys, bind, Except.bind, zeroField]
theorem RoundTrip.halt (e : Bool) : RoundTrip.Statement (.halt e) := by
  intro hw x h
  have h' : some (encR e 0x1E 0 0 0 6) = some x := h
  cases h'
  rw [decodeWord_1e (encR_major ..)]
  simp [decodeSys, bind, Except.bind, zeroField]
theorem RoundTrip.amoswapRlx (e : Bool) (d : GReg) (a : GReg) (b : GReg) (s : Bool) : RoundTrip.Statement (.amoswapRlx e d a b s) := by
  intro hw x h
  have h' : some (encR e 0x20 d a b (BitVec.ofBool s ++ (0 : BitVec 3))) = some x := h
  cases h'
  rw [decodeWord_20 (encR_major ..)]
  cases s <;> simp [decodeAmoRlx, bind, Except.bind, zeroField]
theorem RoundTrip.amoaddRlx (e : Bool) (d : GReg) (a : GReg) (b : GReg) (s : Bool) : RoundTrip.Statement (.amoaddRlx e d a b s) := by
  intro hw x h
  have h' : some (encR e 0x20 d a b (BitVec.ofBool s ++ (1 : BitVec 3))) = some x := h
  cases h'
  rw [decodeWord_20 (encR_major ..)]
  cases s <;> simp [decodeAmoRlx, bind, Except.bind]
theorem RoundTrip.amoandRlx (e : Bool) (d : GReg) (a : GReg) (b : GReg) (s : Bool) : RoundTrip.Statement (.amoandRlx e d a b s) := by
  intro hw x h
  have h' : some (encR e 0x20 d a b (BitVec.ofBool s ++ (2 : BitVec 3))) = some x := h
  cases h'
  rw [decodeWord_20 (encR_major ..)]
  cases s <;> simp [decodeAmoRlx, bind, Except.bind]
theorem RoundTrip.amoorRlx (e : Bool) (d : GReg) (a : GReg) (b : GReg) (s : Bool) : RoundTrip.Statement (.amoorRlx e d a b s) := by
  intro hw x h
  have h' : some (encR e 0x20 d a b (BitVec.ofBool s ++ (3 : BitVec 3))) = some x := h
  cases h'
  rw [decodeWord_20 (encR_major ..)]
  cases s <;> simp [decodeAmoRlx, bind, Except.bind]
theorem RoundTrip.amoxorRlx (e : Bool) (d : GReg) (a : GReg) (b : GReg) (s : Bool) : RoundTrip.Statement (.amoxorRlx e d a b s) := by
  intro hw x h
  have h' : some (encR e 0x20 d a b (BitVec.ofBool s ++ (4 : BitVec 3))) = some x := h
  cases h'
  rw [decodeWord_20 (encR_major ..)]
  cases s <;> simp [decodeAmoRlx, bind, Except.bind]
theorem RoundTrip.amomaxRlx (e : Bool) (d : GReg) (a : GReg) (b : GReg) (s : Bool) : RoundTrip.Statement (.amomaxRlx e d a b s) := by
  intro hw x h
  have h' : some (encR e 0x20 d a b (BitVec.ofBool s ++ (5 : BitVec 3))) = some x := h
  cases h'
  rw [decodeWord_20 (encR_major ..)]
  cases s <;> simp [decodeAmoRlx, bind, Except.bind]
theorem RoundTrip.amominRlx (e : Bool) (d : GReg) (a : GReg) (b : GReg) (s : Bool) : RoundTrip.Statement (.amominRlx e d a b s) := by
  intro hw x h
  have h' : some (encR e 0x20 d a b (BitVec.ofBool s ++ (6 : BitVec 3))) = some x := h
  cases h'
  rw [decodeWord_20 (encR_major ..)]
  cases s <;> simp [decodeAmoRlx, bind, Except.bind]
theorem RoundTrip.amocasRlx (e : Bool) (d : GReg) (a : GReg) (b : GReg) (s : Bool) : RoundTrip.Statement (.amocasRlx e d a b s) := by
  intro hw x h
  have h' : some (encR e 0x20 d a b (BitVec.ofBool s ++ (7 : BitVec 3))) = some x := h
  cases h'
  rw [decodeWord_20 (encR_major ..)]
  cases s <;> simp [decodeAmoRlx, bind, Except.bind]
theorem RoundTrip.amoswapAcq (e : Bool) (d : GReg) (a : GReg) (b : GReg) (s : Bool) : RoundTrip.Statement (.amoswapAcq e d a b s) := by
  intro hw x h
  have h' : some (encR e 0x21 d a b (BitVec.ofBool s ++ (0 : BitVec 3))) = some x := h
  cases h'
  rw [decodeWord_21 (encR_major ..)]
  cases s <;> simp [decodeAmoAcq, bind, Except.bind, zeroField]
theorem RoundTrip.amoaddAcq (e : Bool) (d : GReg) (a : GReg) (b : GReg) (s : Bool) : RoundTrip.Statement (.amoaddAcq e d a b s) := by
  intro hw x h
  have h' : some (encR e 0x21 d a b (BitVec.ofBool s ++ (1 : BitVec 3))) = some x := h
  cases h'
  rw [decodeWord_21 (encR_major ..)]
  cases s <;> simp [decodeAmoAcq, bind, Except.bind]
theorem RoundTrip.amoandAcq (e : Bool) (d : GReg) (a : GReg) (b : GReg) (s : Bool) : RoundTrip.Statement (.amoandAcq e d a b s) := by
  intro hw x h
  have h' : some (encR e 0x21 d a b (BitVec.ofBool s ++ (2 : BitVec 3))) = some x := h
  cases h'
  rw [decodeWord_21 (encR_major ..)]
  cases s <;> simp [decodeAmoAcq, bind, Except.bind]
theorem RoundTrip.amoorAcq (e : Bool) (d : GReg) (a : GReg) (b : GReg) (s : Bool) : RoundTrip.Statement (.amoorAcq e d a b s) := by
  intro hw x h
  have h' : some (encR e 0x21 d a b (BitVec.ofBool s ++ (3 : BitVec 3))) = some x := h
  cases h'
  rw [decodeWord_21 (encR_major ..)]
  cases s <;> simp [decodeAmoAcq, bind, Except.bind]
theorem RoundTrip.amoxorAcq (e : Bool) (d : GReg) (a : GReg) (b : GReg) (s : Bool) : RoundTrip.Statement (.amoxorAcq e d a b s) := by
  intro hw x h
  have h' : some (encR e 0x21 d a b (BitVec.ofBool s ++ (4 : BitVec 3))) = some x := h
  cases h'
  rw [decodeWord_21 (encR_major ..)]
  cases s <;> simp [decodeAmoAcq, bind, Except.bind]
theorem RoundTrip.amomaxAcq (e : Bool) (d : GReg) (a : GReg) (b : GReg) (s : Bool) : RoundTrip.Statement (.amomaxAcq e d a b s) := by
  intro hw x h
  have h' : some (encR e 0x21 d a b (BitVec.ofBool s ++ (5 : BitVec 3))) = some x := h
  cases h'
  rw [decodeWord_21 (encR_major ..)]
  cases s <;> simp [decodeAmoAcq, bind, Except.bind]
theorem RoundTrip.amominAcq (e : Bool) (d : GReg) (a : GReg) (b : GReg) (s : Bool) : RoundTrip.Statement (.amominAcq e d a b s) := by
  intro hw x h
  have h' : some (encR e 0x21 d a b (BitVec.ofBool s ++ (6 : BitVec 3))) = some x := h
  cases h'
  rw [decodeWord_21 (encR_major ..)]
  cases s <;> simp [decodeAmoAcq, bind, Except.bind]
theorem RoundTrip.amocasAcq (e : Bool) (d : GReg) (a : GReg) (b : GReg) (s : Bool) : RoundTrip.Statement (.amocasAcq e d a b s) := by
  intro hw x h
  have h' : some (encR e 0x21 d a b (BitVec.ofBool s ++ (7 : BitVec 3))) = some x := h
  cases h'
  rw [decodeWord_21 (encR_major ..)]
  cases s <;> simp [decodeAmoAcq, bind, Except.bind]
theorem RoundTrip.amoswapRel (e : Bool) (d : GReg) (a : GReg) (b : GReg) (s : Bool) : RoundTrip.Statement (.amoswapRel e d a b s) := by
  intro hw x h
  have h' : some (encR e 0x22 d a b (BitVec.ofBool s ++ (0 : BitVec 3))) = some x := h
  cases h'
  rw [decodeWord_22 (encR_major ..)]
  cases s <;> simp [decodeAmoRel, bind, Except.bind, zeroField]
theorem RoundTrip.amoaddRel (e : Bool) (d : GReg) (a : GReg) (b : GReg) (s : Bool) : RoundTrip.Statement (.amoaddRel e d a b s) := by
  intro hw x h
  have h' : some (encR e 0x22 d a b (BitVec.ofBool s ++ (1 : BitVec 3))) = some x := h
  cases h'
  rw [decodeWord_22 (encR_major ..)]
  cases s <;> simp [decodeAmoRel, bind, Except.bind]
theorem RoundTrip.amoandRel (e : Bool) (d : GReg) (a : GReg) (b : GReg) (s : Bool) : RoundTrip.Statement (.amoandRel e d a b s) := by
  intro hw x h
  have h' : some (encR e 0x22 d a b (BitVec.ofBool s ++ (2 : BitVec 3))) = some x := h
  cases h'
  rw [decodeWord_22 (encR_major ..)]
  cases s <;> simp [decodeAmoRel, bind, Except.bind]
theorem RoundTrip.amoorRel (e : Bool) (d : GReg) (a : GReg) (b : GReg) (s : Bool) : RoundTrip.Statement (.amoorRel e d a b s) := by
  intro hw x h
  have h' : some (encR e 0x22 d a b (BitVec.ofBool s ++ (3 : BitVec 3))) = some x := h
  cases h'
  rw [decodeWord_22 (encR_major ..)]
  cases s <;> simp [decodeAmoRel, bind, Except.bind]
theorem RoundTrip.amoxorRel (e : Bool) (d : GReg) (a : GReg) (b : GReg) (s : Bool) : RoundTrip.Statement (.amoxorRel e d a b s) := by
  intro hw x h
  have h' : some (encR e 0x22 d a b (BitVec.ofBool s ++ (4 : BitVec 3))) = some x := h
  cases h'
  rw [decodeWord_22 (encR_major ..)]
  cases s <;> simp [decodeAmoRel, bind, Except.bind]
theorem RoundTrip.amomaxRel (e : Bool) (d : GReg) (a : GReg) (b : GReg) (s : Bool) : RoundTrip.Statement (.amomaxRel e d a b s) := by
  intro hw x h
  have h' : some (encR e 0x22 d a b (BitVec.ofBool s ++ (5 : BitVec 3))) = some x := h
  cases h'
  rw [decodeWord_22 (encR_major ..)]
  cases s <;> simp [decodeAmoRel, bind, Except.bind]
theorem RoundTrip.amominRel (e : Bool) (d : GReg) (a : GReg) (b : GReg) (s : Bool) : RoundTrip.Statement (.amominRel e d a b s) := by
  intro hw x h
  have h' : some (encR e 0x22 d a b (BitVec.ofBool s ++ (6 : BitVec 3))) = some x := h
  cases h'
  rw [decodeWord_22 (encR_major ..)]
  cases s <;> simp [decodeAmoRel, bind, Except.bind]
theorem RoundTrip.amocasRel (e : Bool) (d : GReg) (a : GReg) (b : GReg) (s : Bool) : RoundTrip.Statement (.amocasRel e d a b s) := by
  intro hw x h
  have h' : some (encR e 0x22 d a b (BitVec.ofBool s ++ (7 : BitVec 3))) = some x := h
  cases h'
  rw [decodeWord_22 (encR_major ..)]
  cases s <;> simp [decodeAmoRel, bind, Except.bind]
theorem RoundTrip.amoswapAr (e : Bool) (d : GReg) (a : GReg) (b : GReg) (s : Bool) : RoundTrip.Statement (.amoswapAr e d a b s) := by
  intro hw x h
  have h' : some (encR e 0x23 d a b (BitVec.ofBool s ++ (0 : BitVec 3))) = some x := h
  cases h'
  rw [decodeWord_23 (encR_major ..)]
  cases s <;> simp [decodeAmoAr, bind, Except.bind, zeroField]
theorem RoundTrip.amoaddAr (e : Bool) (d : GReg) (a : GReg) (b : GReg) (s : Bool) : RoundTrip.Statement (.amoaddAr e d a b s) := by
  intro hw x h
  have h' : some (encR e 0x23 d a b (BitVec.ofBool s ++ (1 : BitVec 3))) = some x := h
  cases h'
  rw [decodeWord_23 (encR_major ..)]
  cases s <;> simp [decodeAmoAr, bind, Except.bind]
theorem RoundTrip.amoandAr (e : Bool) (d : GReg) (a : GReg) (b : GReg) (s : Bool) : RoundTrip.Statement (.amoandAr e d a b s) := by
  intro hw x h
  have h' : some (encR e 0x23 d a b (BitVec.ofBool s ++ (2 : BitVec 3))) = some x := h
  cases h'
  rw [decodeWord_23 (encR_major ..)]
  cases s <;> simp [decodeAmoAr, bind, Except.bind]
theorem RoundTrip.amoorAr (e : Bool) (d : GReg) (a : GReg) (b : GReg) (s : Bool) : RoundTrip.Statement (.amoorAr e d a b s) := by
  intro hw x h
  have h' : some (encR e 0x23 d a b (BitVec.ofBool s ++ (3 : BitVec 3))) = some x := h
  cases h'
  rw [decodeWord_23 (encR_major ..)]
  cases s <;> simp [decodeAmoAr, bind, Except.bind]
theorem RoundTrip.amoxorAr (e : Bool) (d : GReg) (a : GReg) (b : GReg) (s : Bool) : RoundTrip.Statement (.amoxorAr e d a b s) := by
  intro hw x h
  have h' : some (encR e 0x23 d a b (BitVec.ofBool s ++ (4 : BitVec 3))) = some x := h
  cases h'
  rw [decodeWord_23 (encR_major ..)]
  cases s <;> simp [decodeAmoAr, bind, Except.bind]
theorem RoundTrip.amomaxAr (e : Bool) (d : GReg) (a : GReg) (b : GReg) (s : Bool) : RoundTrip.Statement (.amomaxAr e d a b s) := by
  intro hw x h
  have h' : some (encR e 0x23 d a b (BitVec.ofBool s ++ (5 : BitVec 3))) = some x := h
  cases h'
  rw [decodeWord_23 (encR_major ..)]
  cases s <;> simp [decodeAmoAr, bind, Except.bind]
theorem RoundTrip.amominAr (e : Bool) (d : GReg) (a : GReg) (b : GReg) (s : Bool) : RoundTrip.Statement (.amominAr e d a b s) := by
  intro hw x h
  have h' : some (encR e 0x23 d a b (BitVec.ofBool s ++ (6 : BitVec 3))) = some x := h
  cases h'
  rw [decodeWord_23 (encR_major ..)]
  cases s <;> simp [decodeAmoAr, bind, Except.bind]
theorem RoundTrip.amocasAr (e : Bool) (d : GReg) (a : GReg) (b : GReg) (s : Bool) : RoundTrip.Statement (.amocasAr e d a b s) := by
  intro hw x h
  have h' : some (encR e 0x23 d a b (BitVec.ofBool s ++ (7 : BitVec 3))) = some x := h
  cases h'
  rw [decodeWord_23 (encR_major ..)]
  cases s <;> simp [decodeAmoAr, bind, Except.bind]
theorem RoundTrip.ldacq32 (e : Bool) (d : GReg) (a : GReg) : RoundTrip.Statement (.ldacq32 e d a) := by
  intro hw x h
  have h' : some (encR e 0x24 d a 0 0) = some x := h
  cases h'
  rw [decodeWord_24 (encR_major ..)]
  simp [decodeOrdmem, bind, Except.bind, zeroField]
theorem RoundTrip.ldacq64 (e : Bool) (d : GReg) (a : GReg) : RoundTrip.Statement (.ldacq64 e d a) := by
  intro hw x h
  have h' : some (encR e 0x24 d a 0 1) = some x := h
  cases h'
  rw [decodeWord_24 (encR_major ..)]
  simp [decodeOrdmem, bind, Except.bind, zeroField]
theorem RoundTrip.strel32 (e : Bool) (d : GReg) (a : GReg) : RoundTrip.Statement (.strel32 e d a) := by
  intro hw x h
  have h' : some (encR e 0x24 d a 0 2) = some x := h
  cases h'
  rw [decodeWord_24 (encR_major ..)]
  simp [decodeOrdmem, bind, Except.bind, zeroField]
theorem RoundTrip.strel64 (e : Bool) (d : GReg) (a : GReg) : RoundTrip.Statement (.strel64 e d a) := by
  intro hw x h
  have h' : some (encR e 0x24 d a 0 3) = some x := h
  cases h'
  rw [decodeWord_24 (encR_major ..)]
  simp [decodeOrdmem, bind, Except.bind, zeroField]
theorem RoundTrip.watch (e : Bool) (a : GReg) : RoundTrip.Statement (.watch e a) := by
  intro hw x h
  have h' : some (encR e 0x24 0 a 0 4) = some x := h
  cases h'
  rw [decodeWord_24 (encR_major ..)]
  simp [decodeOrdmem, bind, Except.bind, zeroField]
theorem RoundTrip.waitw (e : Bool) (b : GReg) : RoundTrip.Statement (.waitw e b) := by
  intro hw x h
  have h' : some (encR e 0x24 0 0 b 5) = some x := h
  cases h'
  rw [decodeWord_24 (encR_major ..)]
  simp [decodeOrdmem, bind, Except.bind, zeroField]
theorem RoundTrip.fenceSv (e : Bool) : RoundTrip.Statement (.fenceSv e) := by
  intro hw x h
  have h' : some (encI e 0x25 0 0 ((0 : BitVec 3) ++ (0 : BitVec 5) ++ (0 : BitVec 3))) = some x := h
  cases h'
  rw [decodeWord_25 (encI_major ..)]
  simp only [encI_e, encI_d, encI_a, encI_imm11, decodeFence, fence_kind, fence_zero, fence_scope]
  simp [zeroField, bind, Except.bind]
theorem RoundTrip.fenceVs (e : Bool) : RoundTrip.Statement (.fenceVs e) := by
  intro hw x h
  have h' : some (encI e 0x25 0 0 ((1 : BitVec 3) ++ (0 : BitVec 5) ++ (0 : BitVec 3))) = some x := h
  cases h'
  rw [decodeWord_25 (encI_major ..)]
  simp only [encI_e, encI_d, encI_a, encI_imm11, decodeFence, fence_kind, fence_zero, fence_scope]
  simp [zeroField, bind, Except.bind]
theorem RoundTrip.fenceVv (e : Bool) : RoundTrip.Statement (.fenceVv e) := by
  intro hw x h
  have h' : some (encI e 0x25 0 0 ((2 : BitVec 3) ++ (0 : BitVec 5) ++ (0 : BitVec 3))) = some x := h
  cases h'
  rw [decodeWord_25 (encI_major ..)]
  simp only [encI_e, encI_d, encI_a, encI_imm11, decodeFence, fence_kind, fence_zero, fence_scope]
  simp [zeroField, bind, Except.bind]
theorem RoundTrip.fenceMem (e : Bool) (s : BitVec 3) : RoundTrip.Statement (.fenceMem e s) := by
  intro hw x h
  have h' : some (encI e 0x25 0 0 ((3 : BitVec 3) ++ (0 : BitVec 5) ++ s)) = some x := h
  cases h'
  rw [decodeWord_25 (encI_major ..)]
  simp [Instr.wf] at hw
  simp only [encI_e, encI_d, encI_a, encI_imm11, decodeFence, fence_kind, fence_zero, fence_scope]
  simp [zeroField, bind, Except.bind, hw]
theorem RoundTrip.fenceSc (e : Bool) (s : BitVec 3) : RoundTrip.Statement (.fenceSc e s) := by
  intro hw x h
  have h' : some (encI e 0x25 0 0 ((4 : BitVec 3) ++ (0 : BitVec 5) ++ s)) = some x := h
  cases h'
  rw [decodeWord_25 (encI_major ..)]
  simp [Instr.wf] at hw
  simp only [encI_e, encI_d, encI_a, encI_imm11, decodeFence, fence_kind, fence_zero, fence_scope]
  simp [zeroField, bind, Except.bind, hw]
theorem RoundTrip.fenceEng (e : Bool) (s : BitVec 3) : RoundTrip.Statement (.fenceEng e s) := by
  intro hw x h
  have h' : some (encI e 0x25 0 0 ((5 : BitVec 3) ++ (0 : BitVec 5) ++ s)) = some x := h
  cases h'
  rw [decodeWord_25 (encI_major ..)]
  simp [Instr.wf] at hw
  simp only [encI_e, encI_d, encI_a, encI_imm11, decodeFence, fence_kind, fence_zero, fence_scope]
  simp [zeroField, bind, Except.bind, hw]
theorem RoundTrip.vconf (e : Bool) (b : BitVec 7) : RoundTrip.Statement (.vconf e b) := by
  intro hw x h
  have h' : some (encR e 0x26 0 0 b 0) = some x := h
  cases h'
  rw [decodeWord_26 (encR_major ..)]
  simp [Instr.wf] at hw
  simp [decodeVcfg, bind, Except.bind, zeroField, hw]
theorem RoundTrip.vsetl (e : Bool) (d : GReg) (a : GReg) (b : BitVec 7) : RoundTrip.Statement (.vsetl e d a b) := by
  intro hw x h
  have h' : some (encR e 0x26 d a b 1) = some x := h
  cases h'
  rw [decodeWord_26 (encR_major ..)]
  simp [Instr.wf] at hw
  simp [decodeVcfg, bind, Except.bind, hw]
theorem RoundTrip.vgrant (e : Bool) (d : GReg) : RoundTrip.Statement (.vgrant e d) := by
  intro hw x h
  have h' : some (encR e 0x26 d 0 0 2) = some x := h
  cases h'
  rw [decodeWord_26 (encR_major ..)]
  simp [decodeVcfg, bind, Except.bind, zeroField]
theorem RoundTrip.vadd (e : Bool) (d : VReg) (a : VReg) (b : VReg) (m : Bool) : RoundTrip.Statement (.vadd e d a b m) := by
  intro hw x h
  have h' : some (encV e 0x27 d a b m 0) = some x := h
  cases h'
  rw [decodeWord_27 (encV_major ..)]
  simp [decodeVint, bind, Except.bind, zeroField]
theorem RoundTrip.vsub (e : Bool) (d : VReg) (a : VReg) (b : VReg) (m : Bool) : RoundTrip.Statement (.vsub e d a b m) := by
  intro hw x h
  have h' : some (encV e 0x27 d a b m 1) = some x := h
  cases h'
  rw [decodeWord_27 (encV_major ..)]
  simp [decodeVint, bind, Except.bind]
theorem RoundTrip.vmul (e : Bool) (d : VReg) (a : VReg) (b : VReg) (m : Bool) : RoundTrip.Statement (.vmul e d a b m) := by
  intro hw x h
  have h' : some (encV e 0x27 d a b m 2) = some x := h
  cases h'
  rw [decodeWord_27 (encV_major ..)]
  simp [decodeVint, bind, Except.bind]
theorem RoundTrip.vand (e : Bool) (d : VReg) (a : VReg) (b : VReg) (m : Bool) : RoundTrip.Statement (.vand e d a b m) := by
  intro hw x h
  have h' : some (encV e 0x27 d a b m 3) = some x := h
  cases h'
  rw [decodeWord_27 (encV_major ..)]
  simp [decodeVint, bind, Except.bind]
theorem RoundTrip.vor (e : Bool) (d : VReg) (a : VReg) (b : VReg) (m : Bool) : RoundTrip.Statement (.vor e d a b m) := by
  intro hw x h
  have h' : some (encV e 0x27 d a b m 4) = some x := h
  cases h'
  rw [decodeWord_27 (encV_major ..)]
  simp [decodeVint, bind, Except.bind]
theorem RoundTrip.vxor (e : Bool) (d : VReg) (a : VReg) (b : VReg) (m : Bool) : RoundTrip.Statement (.vxor e d a b m) := by
  intro hw x h
  have h' : some (encV e 0x27 d a b m 5) = some x := h
  cases h'
  rw [decodeWord_27 (encV_major ..)]
  simp [decodeVint, bind, Except.bind]
theorem RoundTrip.vmin (e : Bool) (d : VReg) (a : VReg) (b : VReg) (m : Bool) : RoundTrip.Statement (.vmin e d a b m) := by
  intro hw x h
  have h' : some (encV e 0x27 d a b m 6) = some x := h
  cases h'
  rw [decodeWord_27 (encV_major ..)]
  simp [decodeVint, bind, Except.bind]
theorem RoundTrip.vmax (e : Bool) (d : VReg) (a : VReg) (b : VReg) (m : Bool) : RoundTrip.Statement (.vmax e d a b m) := by
  intro hw x h
  have h' : some (encV e 0x27 d a b m 7) = some x := h
  cases h'
  rw [decodeWord_27 (encV_major ..)]
  simp [decodeVint, bind, Except.bind]
theorem RoundTrip.vaddX (e : Bool) (d : VReg) (a : VReg) (b : GReg) (m : Bool) : RoundTrip.Statement (.vaddX e d a b m) := by
  intro hw x h
  have h' : some (encV e 0x28 d a b m 0) = some x := h
  cases h'
  rw [decodeWord_28 (encV_major ..)]
  simp [decodeVintx, bind, Except.bind, zeroField]
theorem RoundTrip.vsubX (e : Bool) (d : VReg) (a : VReg) (b : GReg) (m : Bool) : RoundTrip.Statement (.vsubX e d a b m) := by
  intro hw x h
  have h' : some (encV e 0x28 d a b m 1) = some x := h
  cases h'
  rw [decodeWord_28 (encV_major ..)]
  simp [decodeVintx, bind, Except.bind]
theorem RoundTrip.vmulX (e : Bool) (d : VReg) (a : VReg) (b : GReg) (m : Bool) : RoundTrip.Statement (.vmulX e d a b m) := by
  intro hw x h
  have h' : some (encV e 0x28 d a b m 2) = some x := h
  cases h'
  rw [decodeWord_28 (encV_major ..)]
  simp [decodeVintx, bind, Except.bind]
theorem RoundTrip.vandX (e : Bool) (d : VReg) (a : VReg) (b : GReg) (m : Bool) : RoundTrip.Statement (.vandX e d a b m) := by
  intro hw x h
  have h' : some (encV e 0x28 d a b m 3) = some x := h
  cases h'
  rw [decodeWord_28 (encV_major ..)]
  simp [decodeVintx, bind, Except.bind]
theorem RoundTrip.vorX (e : Bool) (d : VReg) (a : VReg) (b : GReg) (m : Bool) : RoundTrip.Statement (.vorX e d a b m) := by
  intro hw x h
  have h' : some (encV e 0x28 d a b m 4) = some x := h
  cases h'
  rw [decodeWord_28 (encV_major ..)]
  simp [decodeVintx, bind, Except.bind]
theorem RoundTrip.vxorX (e : Bool) (d : VReg) (a : VReg) (b : GReg) (m : Bool) : RoundTrip.Statement (.vxorX e d a b m) := by
  intro hw x h
  have h' : some (encV e 0x28 d a b m 5) = some x := h
  cases h'
  rw [decodeWord_28 (encV_major ..)]
  simp [decodeVintx, bind, Except.bind]
theorem RoundTrip.vminX (e : Bool) (d : VReg) (a : VReg) (b : GReg) (m : Bool) : RoundTrip.Statement (.vminX e d a b m) := by
  intro hw x h
  have h' : some (encV e 0x28 d a b m 6) = some x := h
  cases h'
  rw [decodeWord_28 (encV_major ..)]
  simp [decodeVintx, bind, Except.bind]
theorem RoundTrip.vmaxX (e : Bool) (d : VReg) (a : VReg) (b : GReg) (m : Bool) : RoundTrip.Statement (.vmaxX e d a b m) := by
  intro hw x h
  have h' : some (encV e 0x28 d a b m 7) = some x := h
  cases h'
  rw [decodeWord_28 (encV_major ..)]
  simp [decodeVintx, bind, Except.bind]
theorem RoundTrip.vsll (e : Bool) (d : VReg) (a : VReg) (b : VReg) (m : Bool) : RoundTrip.Statement (.vsll e d a b m) := by
  intro hw x h
  have h' : some (encV e 0x29 d a b m 0) = some x := h
  cases h'
  rw [decodeWord_29 (encV_major ..)]
  simp [decodeVint2, bind, Except.bind, zeroField]
theorem RoundTrip.vsrl (e : Bool) (d : VReg) (a : VReg) (b : VReg) (m : Bool) : RoundTrip.Statement (.vsrl e d a b m) := by
  intro hw x h
  have h' : some (encV e 0x29 d a b m 1) = some x := h
  cases h'
  rw [decodeWord_29 (encV_major ..)]
  simp [decodeVint2, bind, Except.bind]
theorem RoundTrip.vsra (e : Bool) (d : VReg) (a : VReg) (b : VReg) (m : Bool) : RoundTrip.Statement (.vsra e d a b m) := by
  intro hw x h
  have h' : some (encV e 0x29 d a b m 2) = some x := h
  cases h'
  rw [decodeWord_29 (encV_major ..)]
  simp [decodeVint2, bind, Except.bind]
theorem RoundTrip.vmulh (e : Bool) (d : VReg) (a : VReg) (b : VReg) (m : Bool) : RoundTrip.Statement (.vmulh e d a b m) := by
  intro hw x h
  have h' : some (encV e 0x29 d a b m 3) = some x := h
  cases h'
  rw [decodeWord_29 (encV_major ..)]
  simp [decodeVint2, bind, Except.bind]
theorem RoundTrip.vdiv (e : Bool) (d : VReg) (a : VReg) (b : VReg) (m : Bool) : RoundTrip.Statement (.vdiv e d a b m) := by
  intro hw x h
  have h' : some (encV e 0x29 d a b m 4) = some x := h
  cases h'
  rw [decodeWord_29 (encV_major ..)]
  simp [decodeVint2, bind, Except.bind]
theorem RoundTrip.vrem (e : Bool) (d : VReg) (a : VReg) (b : VReg) (m : Bool) : RoundTrip.Statement (.vrem e d a b m) := by
  intro hw x h
  have h' : some (encV e 0x29 d a b m 5) = some x := h
  cases h'
  rw [decodeWord_29 (encV_major ..)]
  simp [decodeVint2, bind, Except.bind]
theorem RoundTrip.vaddsat (e : Bool) (d : VReg) (a : VReg) (b : VReg) (m : Bool) : RoundTrip.Statement (.vaddsat e d a b m) := by
  intro hw x h
  have h' : some (encV e 0x29 d a b m 6) = some x := h
  cases h'
  rw [decodeWord_29 (encV_major ..)]
  simp [decodeVint2, bind, Except.bind]
theorem RoundTrip.vsubsat (e : Bool) (d : VReg) (a : VReg) (b : VReg) (m : Bool) : RoundTrip.Statement (.vsubsat e d a b m) := by
  intro hw x h
  have h' : some (encV e 0x29 d a b m 7) = some x := h
  cases h'
  rw [decodeWord_29 (encV_major ..)]
  simp [decodeVint2, bind, Except.bind]
theorem RoundTrip.vminn (e : Bool) (d : VReg) (a : VReg) (b : VReg) (m : Bool) : RoundTrip.Statement (.vminn e d a b m) := by
  intro hw x h
  have h' : some (encV e 0x2A d a b m 0) = some x := h
  cases h'
  rw [decodeWord_2a (encV_major ..)]
  simp [decodeVint3, bind, Except.bind, zeroField]
theorem RoundTrip.vmaxn (e : Bool) (d : VReg) (a : VReg) (b : VReg) (m : Bool) : RoundTrip.Statement (.vmaxn e d a b m) := by
  intro hw x h
  have h' : some (encV e 0x2A d a b m 1) = some x := h
  cases h'
  rw [decodeWord_2a (encV_major ..)]
  simp [decodeVint3, bind, Except.bind]
theorem RoundTrip.vmulhn (e : Bool) (d : VReg) (a : VReg) (b : VReg) (m : Bool) : RoundTrip.Statement (.vmulhn e d a b m) := by
  intro hw x h
  have h' : some (encV e 0x2A d a b m 2) = some x := h
  cases h'
  rw [decodeWord_2a (encV_major ..)]
  simp [decodeVint3, bind, Except.bind]
theorem RoundTrip.vdivn (e : Bool) (d : VReg) (a : VReg) (b : VReg) (m : Bool) : RoundTrip.Statement (.vdivn e d a b m) := by
  intro hw x h
  have h' : some (encV e 0x2A d a b m 3) = some x := h
  cases h'
  rw [decodeWord_2a (encV_major ..)]
  simp [decodeVint3, bind, Except.bind]
theorem RoundTrip.vremn (e : Bool) (d : VReg) (a : VReg) (b : VReg) (m : Bool) : RoundTrip.Statement (.vremn e d a b m) := by
  intro hw x h
  have h' : some (encV e 0x2A d a b m 4) = some x := h
  cases h'
  rw [decodeWord_2a (encV_major ..)]
  simp [decodeVint3, bind, Except.bind]
theorem RoundTrip.vabs (e : Bool) (d : VReg) (a : VReg) (m : Bool) : RoundTrip.Statement (.vabs e d a m) := by
  intro hw x h
  have h' : some (encV e 0x2A d a 0 m 5) = some x := h
  cases h'
  rw [decodeWord_2a (encV_major ..)]
  simp [decodeVint3, bind, Except.bind, zeroField]
theorem RoundTrip.vmerge (e : Bool) (d : VReg) (a : VReg) (b : VReg) (m : Bool) : RoundTrip.Statement (.vmerge e d a b m) := by
  intro hw x h
  have h' : some (encV e 0x2A d a b m 6) = some x := h
  cases h'
  rw [decodeWord_2a (encV_major ..)]
  simp [decodeVint3, bind, Except.bind]
theorem RoundTrip.vmv (e : Bool) (d : VReg) (a : VReg) (m : Bool) : RoundTrip.Statement (.vmv e d a m) := by
  intro hw x h
  have h' : some (encV e 0x2A d a 0 m 7) = some x := h
  cases h'
  rw [decodeWord_2a (encV_major ..)]
  simp [decodeVint3, bind, Except.bind, zeroField]
theorem RoundTrip.vfadd (e : Bool) (d : VReg) (a : VReg) (b : VReg) (m : Bool) : RoundTrip.Statement (.vfadd e d a b m) := by
  intro hw x h
  have h' : some (encV e 0x2B d a b m 0) = some x := h
  cases h'
  rw [decodeWord_2b (encV_major ..)]
  simp [decodeVflt, bind, Except.bind, zeroField]
theorem RoundTrip.vfsub (e : Bool) (d : VReg) (a : VReg) (b : VReg) (m : Bool) : RoundTrip.Statement (.vfsub e d a b m) := by
  intro hw x h
  have h' : some (encV e 0x2B d a b m 1) = some x := h
  cases h'
  rw [decodeWord_2b (encV_major ..)]
  simp [decodeVflt, bind, Except.bind]
theorem RoundTrip.vfmul (e : Bool) (d : VReg) (a : VReg) (b : VReg) (m : Bool) : RoundTrip.Statement (.vfmul e d a b m) := by
  intro hw x h
  have h' : some (encV e 0x2B d a b m 2) = some x := h
  cases h'
  rw [decodeWord_2b (encV_major ..)]
  simp [decodeVflt, bind, Except.bind]
theorem RoundTrip.vfdiv (e : Bool) (d : VReg) (a : VReg) (b : VReg) (m : Bool) : RoundTrip.Statement (.vfdiv e d a b m) := by
  intro hw x h
  have h' : some (encV e 0x2B d a b m 3) = some x := h
  cases h'
  rw [decodeWord_2b (encV_major ..)]
  simp [decodeVflt, bind, Except.bind]
theorem RoundTrip.vfmin (e : Bool) (d : VReg) (a : VReg) (b : VReg) (m : Bool) : RoundTrip.Statement (.vfmin e d a b m) := by
  intro hw x h
  have h' : some (encV e 0x2B d a b m 4) = some x := h
  cases h'
  rw [decodeWord_2b (encV_major ..)]
  simp [decodeVflt, bind, Except.bind]
theorem RoundTrip.vfmax (e : Bool) (d : VReg) (a : VReg) (b : VReg) (m : Bool) : RoundTrip.Statement (.vfmax e d a b m) := by
  intro hw x h
  have h' : some (encV e 0x2B d a b m 5) = some x := h
  cases h'
  rw [decodeWord_2b (encV_major ..)]
  simp [decodeVflt, bind, Except.bind]
theorem RoundTrip.vfma (e : Bool) (d : VReg) (a : VReg) (b : VReg) (m : Bool) : RoundTrip.Statement (.vfma e d a b m) := by
  intro hw x h
  have h' : some (encV e 0x2B d a b m 6) = some x := h
  cases h'
  rw [decodeWord_2b (encV_major ..)]
  simp [decodeVflt, bind, Except.bind]
theorem RoundTrip.vfnms (e : Bool) (d : VReg) (a : VReg) (b : VReg) (m : Bool) : RoundTrip.Statement (.vfnms e d a b m) := by
  intro hw x h
  have h' : some (encV e 0x2B d a b m 7) = some x := h
  cases h'
  rw [decodeWord_2b (encV_major ..)]
  simp [decodeVflt, bind, Except.bind]
theorem RoundTrip.vfaddX (e : Bool) (d : VReg) (a : VReg) (b : GReg) (m : Bool) : RoundTrip.Statement (.vfaddX e d a b m) := by
  intro hw x h
  have h' : some (encV e 0x2C d a b m 0) = some x := h
  cases h'
  rw [decodeWord_2c (encV_major ..)]
  simp [decodeVfltx, bind, Except.bind, zeroField]
theorem RoundTrip.vfsubX (e : Bool) (d : VReg) (a : VReg) (b : GReg) (m : Bool) : RoundTrip.Statement (.vfsubX e d a b m) := by
  intro hw x h
  have h' : some (encV e 0x2C d a b m 1) = some x := h
  cases h'
  rw [decodeWord_2c (encV_major ..)]
  simp [decodeVfltx, bind, Except.bind]
theorem RoundTrip.vfmulX (e : Bool) (d : VReg) (a : VReg) (b : GReg) (m : Bool) : RoundTrip.Statement (.vfmulX e d a b m) := by
  intro hw x h
  have h' : some (encV e 0x2C d a b m 2) = some x := h
  cases h'
  rw [decodeWord_2c (encV_major ..)]
  simp [decodeVfltx, bind, Except.bind]
theorem RoundTrip.vfdivX (e : Bool) (d : VReg) (a : VReg) (b : GReg) (m : Bool) : RoundTrip.Statement (.vfdivX e d a b m) := by
  intro hw x h
  have h' : some (encV e 0x2C d a b m 3) = some x := h
  cases h'
  rw [decodeWord_2c (encV_major ..)]
  simp [decodeVfltx, bind, Except.bind]
theorem RoundTrip.vfminX (e : Bool) (d : VReg) (a : VReg) (b : GReg) (m : Bool) : RoundTrip.Statement (.vfminX e d a b m) := by
  intro hw x h
  have h' : some (encV e 0x2C d a b m 4) = some x := h
  cases h'
  rw [decodeWord_2c (encV_major ..)]
  simp [decodeVfltx, bind, Except.bind]
theorem RoundTrip.vfmaxX (e : Bool) (d : VReg) (a : VReg) (b : GReg) (m : Bool) : RoundTrip.Statement (.vfmaxX e d a b m) := by
  intro hw x h
  have h' : some (encV e 0x2C d a b m 5) = some x := h
  cases h'
  rw [decodeWord_2c (encV_major ..)]
  simp [decodeVfltx, bind, Except.bind]
theorem RoundTrip.vfmaX (e : Bool) (d : VReg) (a : VReg) (b : GReg) (m : Bool) : RoundTrip.Statement (.vfmaX e d a b m) := by
  intro hw x h
  have h' : some (encV e 0x2C d a b m 6) = some x := h
  cases h'
  rw [decodeWord_2c (encV_major ..)]
  simp [decodeVfltx, bind, Except.bind]
theorem RoundTrip.vfnmsX (e : Bool) (d : VReg) (a : VReg) (b : GReg) (m : Bool) : RoundTrip.Statement (.vfnmsX e d a b m) := by
  intro hw x h
  have h' : some (encV e 0x2C d a b m 7) = some x := h
  cases h'
  rw [decodeWord_2c (encV_major ..)]
  simp [decodeVfltx, bind, Except.bind]
theorem RoundTrip.vfsqrt (e : Bool) (d : VReg) (a : VReg) (m : Bool) : RoundTrip.Statement (.vfsqrt e d a m) := by
  intro hw x h
  have h' : some (encV e 0x2D d a 0 m 0) = some x := h
  cases h'
  rw [decodeWord_2d (encV_major ..)]
  simp [decodeVfun, bind, Except.bind, zeroField]
theorem RoundTrip.vfabs (e : Bool) (d : VReg) (a : VReg) (m : Bool) : RoundTrip.Statement (.vfabs e d a m) := by
  intro hw x h
  have h' : some (encV e 0x2D d a 0 m 1) = some x := h
  cases h'
  rw [decodeWord_2d (encV_major ..)]
  simp [decodeVfun, bind, Except.bind, zeroField]
theorem RoundTrip.vfneg (e : Bool) (d : VReg) (a : VReg) (m : Bool) : RoundTrip.Statement (.vfneg e d a m) := by
  intro hw x h
  have h' : some (encV e 0x2D d a 0 m 2) = some x := h
  cases h'
  rw [decodeWord_2d (encV_major ..)]
  simp [decodeVfun, bind, Except.bind, zeroField]
theorem RoundTrip.vfrcp (e : Bool) (d : VReg) (a : VReg) (m : Bool) : RoundTrip.Statement (.vfrcp e d a m) := by
  intro hw x h
  have h' : some (encV e 0x2D d a 0 m 3) = some x := h
  cases h'
  rw [decodeWord_2d (encV_major ..)]
  simp [decodeVfun, bind, Except.bind, zeroField]
theorem RoundTrip.vfclass (e : Bool) (d : VReg) (a : VReg) (m : Bool) : RoundTrip.Statement (.vfclass e d a m) := by
  intro hw x h
  have h' : some (encV e 0x2D d a 0 m 4) = some x := h
  cases h'
  rw [decodeWord_2d (encV_major ..)]
  simp [decodeVfun, bind, Except.bind, zeroField]
theorem RoundTrip.vfscale (e : Bool) (d : VReg) (a : VReg) (b : VReg) (m : Bool) : RoundTrip.Statement (.vfscale e d a b m) := by
  intro hw x h
  have h' : some (encV e 0x2D d a b m 5) = some x := h
  cases h'
  rw [decodeWord_2d (encV_major ..)]
  simp [decodeVfun, bind, Except.bind]
theorem RoundTrip.vfexp2 (e : Bool) (d : VReg) (a : VReg) (m : Bool) : RoundTrip.Statement (.vfexp2 e d a m) := by
  intro hw x h
  have h' : some (encV e 0x2D d a 0 m 6) = some x := h
  cases h'
  rw [decodeWord_2d (encV_major ..)]
  simp [decodeVfun, bind, Except.bind, zeroField]
theorem RoundTrip.vflog2 (e : Bool) (d : VReg) (a : VReg) (m : Bool) : RoundTrip.Statement (.vflog2 e d a m) := by
  intro hw x h
  have h' : some (encV e 0x2D d a 0 m 7) = some x := h
  cases h'
  rw [decodeWord_2d (encV_major ..)]
  simp [decodeVfun, bind, Except.bind, zeroField]
theorem RoundTrip.vcmpEq (e : Bool) (d : MReg) (a : VReg) (b : VReg) (m : Bool) : RoundTrip.Statement (.vcmpEq e d a b m) := by
  intro hw x h
  have h' : some (encV e 0x2E (ofMask d) a b m 0) = some x := h
  cases h'
  rw [decodeWord_2e (encV_major ..)]
  simp [decodeVcmp, bind, Except.bind, zeroField, maskField_ofMask]
theorem RoundTrip.vcmpNe (e : Bool) (d : MReg) (a : VReg) (b : VReg) (m : Bool) : RoundTrip.Statement (.vcmpNe e d a b m) := by
  intro hw x h
  have h' : some (encV e 0x2E (ofMask d) a b m 1) = some x := h
  cases h'
  rw [decodeWord_2e (encV_major ..)]
  simp [decodeVcmp, bind, Except.bind, maskField_ofMask]
theorem RoundTrip.vcmpLt (e : Bool) (d : MReg) (a : VReg) (b : VReg) (m : Bool) : RoundTrip.Statement (.vcmpLt e d a b m) := by
  intro hw x h
  have h' : some (encV e 0x2E (ofMask d) a b m 2) = some x := h
  cases h'
  rw [decodeWord_2e (encV_major ..)]
  simp [decodeVcmp, bind, Except.bind, maskField_ofMask]
theorem RoundTrip.vcmpGe (e : Bool) (d : MReg) (a : VReg) (b : VReg) (m : Bool) : RoundTrip.Statement (.vcmpGe e d a b m) := by
  intro hw x h
  have h' : some (encV e 0x2E (ofMask d) a b m 3) = some x := h
  cases h'
  rw [decodeWord_2e (encV_major ..)]
  simp [decodeVcmp, bind, Except.bind, maskField_ofMask]
theorem RoundTrip.vcmpLtn (e : Bool) (d : MReg) (a : VReg) (b : VReg) (m : Bool) : RoundTrip.Statement (.vcmpLtn e d a b m) := by
  intro hw x h
  have h' : some (encV e 0x2E (ofMask d) a b m 4) = some x := h
  cases h'
  rw [decodeWord_2e (encV_major ..)]
  simp [decodeVcmp, bind, Except.bind, maskField_ofMask]
theorem RoundTrip.vcmpGen (e : Bool) (d : MReg) (a : VReg) (b : VReg) (m : Bool) : RoundTrip.Statement (.vcmpGen e d a b m) := by
  intro hw x h
  have h' : some (encV e 0x2E (ofMask d) a b m 5) = some x := h
  cases h'
  rw [decodeWord_2e (encV_major ..)]
  simp [decodeVcmp, bind, Except.bind, maskField_ofMask]
theorem RoundTrip.vcmpFlt (e : Bool) (d : MReg) (a : VReg) (b : VReg) (m : Bool) : RoundTrip.Statement (.vcmpFlt e d a b m) := by
  intro hw x h
  have h' : some (encV e 0x2E (ofMask d) a b m 6) = some x := h
  cases h'
  rw [decodeWord_2e (encV_major ..)]
  simp [decodeVcmp, bind, Except.bind, maskField_ofMask]
theorem RoundTrip.vcmpFle (e : Bool) (d : MReg) (a : VReg) (b : VReg) (m : Bool) : RoundTrip.Statement (.vcmpFle e d a b m) := by
  intro hw x h
  have h' : some (encV e 0x2E (ofMask d) a b m 7) = some x := h
  cases h'
  rw [decodeWord_2e (encV_major ..)]
  simp [decodeVcmp, bind, Except.bind, maskField_ofMask]
theorem RoundTrip.vcmpEqX (e : Bool) (d : MReg) (a : VReg) (b : GReg) (m : Bool) : RoundTrip.Statement (.vcmpEqX e d a b m) := by
  intro hw x h
  have h' : some (encV e 0x2F (ofMask d) a b m 0) = some x := h
  cases h'
  rw [decodeWord_2f (encV_major ..)]
  simp [decodeVcmpx, bind, Except.bind, zeroField, maskField_ofMask]
theorem RoundTrip.vcmpNeX (e : Bool) (d : MReg) (a : VReg) (b : GReg) (m : Bool) : RoundTrip.Statement (.vcmpNeX e d a b m) := by
  intro hw x h
  have h' : some (encV e 0x2F (ofMask d) a b m 1) = some x := h
  cases h'
  rw [decodeWord_2f (encV_major ..)]
  simp [decodeVcmpx, bind, Except.bind, maskField_ofMask]
theorem RoundTrip.vcmpLtX (e : Bool) (d : MReg) (a : VReg) (b : GReg) (m : Bool) : RoundTrip.Statement (.vcmpLtX e d a b m) := by
  intro hw x h
  have h' : some (encV e 0x2F (ofMask d) a b m 2) = some x := h
  cases h'
  rw [decodeWord_2f (encV_major ..)]
  simp [decodeVcmpx, bind, Except.bind, maskField_ofMask]
theorem RoundTrip.vcmpGeX (e : Bool) (d : MReg) (a : VReg) (b : GReg) (m : Bool) : RoundTrip.Statement (.vcmpGeX e d a b m) := by
  intro hw x h
  have h' : some (encV e 0x2F (ofMask d) a b m 3) = some x := h
  cases h'
  rw [decodeWord_2f (encV_major ..)]
  simp [decodeVcmpx, bind, Except.bind, maskField_ofMask]
theorem RoundTrip.vcmpLtnX (e : Bool) (d : MReg) (a : VReg) (b : GReg) (m : Bool) : RoundTrip.Statement (.vcmpLtnX e d a b m) := by
  intro hw x h
  have h' : some (encV e 0x2F (ofMask d) a b m 4) = some x := h
  cases h'
  rw [decodeWord_2f (encV_major ..)]
  simp [decodeVcmpx, bind, Except.bind, maskField_ofMask]
theorem RoundTrip.vcmpGenX (e : Bool) (d : MReg) (a : VReg) (b : GReg) (m : Bool) : RoundTrip.Statement (.vcmpGenX e d a b m) := by
  intro hw x h
  have h' : some (encV e 0x2F (ofMask d) a b m 5) = some x := h
  cases h'
  rw [decodeWord_2f (encV_major ..)]
  simp [decodeVcmpx, bind, Except.bind, maskField_ofMask]
theorem RoundTrip.vcmpFltX (e : Bool) (d : MReg) (a : VReg) (b : GReg) (m : Bool) : RoundTrip.Statement (.vcmpFltX e d a b m) := by
  intro hw x h
  have h' : some (encV e 0x2F (ofMask d) a b m 6) = some x := h
  cases h'
  rw [decodeWord_2f (encV_major ..)]
  simp [decodeVcmpx, bind, Except.bind, maskField_ofMask]
theorem RoundTrip.vcmpFleX (e : Bool) (d : MReg) (a : VReg) (b : GReg) (m : Bool) : RoundTrip.Statement (.vcmpFleX e d a b m) := by
  intro hw x h
  have h' : some (encV e 0x2F (ofMask d) a b m 7) = some x := h
  cases h'
  rw [decodeWord_2f (encV_major ..)]
  simp [decodeVcmpx, bind, Except.bind, maskField_ofMask]
theorem RoundTrip.mand (e : Bool) (d : MReg) (a : MReg) (b : MReg) (m : Bool) : RoundTrip.Statement (.mand e d a b m) := by
  intro hw x h
  have h' : some (encV e 0x30 (ofMask d) (ofMask a) (ofMask b) m 0) = some x := h
  cases h'
  rw [decodeWord_30 (encV_major ..)]
  simp [decodeVmask, bind, Except.bind, zeroField, maskField_ofMask]
theorem RoundTrip.mor (e : Bool) (d : MReg) (a : MReg) (b : MReg) (m : Bool) : RoundTrip.Statement (.mor e d a b m) := by
  intro hw x h
  have h' : some (encV e 0x30 (ofMask d) (ofMask a) (ofMask b) m 1) = some x := h
  cases h'
  rw [decodeWord_30 (encV_major ..)]
  simp [decodeVmask, bind, Except.bind, maskField_ofMask]
theorem RoundTrip.mxor (e : Bool) (d : MReg) (a : MReg) (b : MReg) (m : Bool) : RoundTrip.Statement (.mxor e d a b m) := by
  intro hw x h
  have h' : some (encV e 0x30 (ofMask d) (ofMask a) (ofMask b) m 2) = some x := h
  cases h'
  rw [decodeWord_30 (encV_major ..)]
  simp [decodeVmask, bind, Except.bind, maskField_ofMask]
theorem RoundTrip.mandn (e : Bool) (d : MReg) (a : MReg) (b : MReg) (m : Bool) : RoundTrip.Statement (.mandn e d a b m) := by
  intro hw x h
  have h' : some (encV e 0x30 (ofMask d) (ofMask a) (ofMask b) m 3) = some x := h
  cases h'
  rw [decodeWord_30 (encV_major ..)]
  simp [decodeVmask, bind, Except.bind, maskField_ofMask]
theorem RoundTrip.mnot (e : Bool) (d : MReg) (a : MReg) (m : Bool) : RoundTrip.Statement (.mnot e d a m) := by
  intro hw x h
  have h' : some (encV e 0x30 (ofMask d) (ofMask a) 0 m 4) = some x := h
  cases h'
  rw [decodeWord_30 (encV_major ..)]
  simp [decodeVmask, bind, Except.bind, zeroField, maskField_ofMask]
theorem RoundTrip.mfirst (e : Bool) (d : GReg) (a : MReg) (m : Bool) : RoundTrip.Statement (.mfirst e d a m) := by
  intro hw x h
  have h' : some (encV e 0x30 d (ofMask a) 0 m 5) = some x := h
  cases h'
  rw [decodeWord_30 (encV_major ..)]
  simp [decodeVmask, bind, Except.bind, zeroField, maskField_ofMask]
theorem RoundTrip.mpop (e : Bool) (d : GReg) (a : MReg) (m : Bool) : RoundTrip.Statement (.mpop e d a m) := by
  intro hw x h
  have h' : some (encV e 0x30 d (ofMask a) 0 m 6) = some x := h
  cases h'
  rw [decodeWord_30 (encV_major ..)]
  simp [decodeVmask, bind, Except.bind, zeroField, maskField_ofMask]
theorem RoundTrip.mset (e : Bool) (d : MReg) (m : Bool) : RoundTrip.Statement (.mset e d m) := by
  intro hw x h
  have h' : some (encV e 0x30 (ofMask d) 0 0 m 7) = some x := h
  cases h'
  rw [decodeWord_30 (encV_major ..)]
  simp [decodeVmask, bind, Except.bind, zeroField, maskField_ofMask]
theorem RoundTrip.cvtF (e : Bool) (d : VReg) (a : VReg) (b : BitVec 7) (m : Bool) : RoundTrip.Statement (.cvtF e d a b m) := by
  intro hw x h
  have h' : some (encV e 0x31 d a b m 0) = some x := h
  cases h'
  rw [decodeWord_31 (encV_major ..)]
  simp [Instr.wf] at hw
  simp [decodeVcvt, bind, Except.bind, zeroField, hw]
theorem RoundTrip.cvtFi (e : Bool) (d : VReg) (a : VReg) (b : BitVec 7) (m : Bool) : RoundTrip.Statement (.cvtFi e d a b m) := by
  intro hw x h
  have h' : some (encV e 0x31 d a b m 1) = some x := h
  cases h'
  rw [decodeWord_31 (encV_major ..)]
  simp [Instr.wf] at hw
  simp [decodeVcvt, bind, Except.bind, hw]
theorem RoundTrip.cvtIf (e : Bool) (d : VReg) (a : VReg) (b : BitVec 7) (m : Bool) : RoundTrip.Statement (.cvtIf e d a b m) := by
  intro hw x h
  have h' : some (encV e 0x31 d a b m 2) = some x := h
  cases h'
  rw [decodeWord_31 (encV_major ..)]
  simp [Instr.wf] at hw
  simp [decodeVcvt, bind, Except.bind, hw]
theorem RoundTrip.cvtIi (e : Bool) (d : VReg) (a : VReg) (b : BitVec 7) (m : Bool) : RoundTrip.Statement (.cvtIi e d a b m) := by
  intro hw x h
  have h' : some (encV e 0x31 d a b m 3) = some x := h
  cases h'
  rw [decodeWord_31 (encV_major ..)]
  simp [Instr.wf] at hw
  simp [decodeVcvt, bind, Except.bind, hw]
theorem RoundTrip.vrin (e : Bool) (d : VReg) (a : VReg) (m : Bool) : RoundTrip.Statement (.vrin e d a m) := by
  intro hw x h
  have h' : some (encV e 0x31 d a 0 m 4) = some x := h
  cases h'
  rw [decodeWord_31 (encV_major ..)]
  simp [decodeVcvt, bind, Except.bind, zeroField]
theorem RoundTrip.vrout (e : Bool) (d : VReg) (a : VReg) (m : Bool) : RoundTrip.Statement (.vrout e d a m) := by
  intro hw x h
  have h' : some (encV e 0x31 d a 0 m 5) = some x := h
  cases h'
  rw [decodeWord_31 (encV_major ..)]
  simp [decodeVcvt, bind, Except.bind, zeroField]
theorem RoundTrip.vradd (e : Bool) (d : VReg) (a : VReg) (b : VReg) (m : Bool) : RoundTrip.Statement (.vradd e d a b m) := by
  intro hw x h
  have h' : some (encV e 0x31 d a b m 6) = some x := h
  cases h'
  rw [decodeWord_31 (encV_major ..)]
  simp [decodeVcvt, bind, Except.bind]
theorem RoundTrip.vrmul (e : Bool) (d : VReg) (a : VReg) (b : VReg) (m : Bool) : RoundTrip.Statement (.vrmul e d a b m) := by
  intro hw x h
  have h' : some (encV e 0x31 d a b m 7) = some x := h
  cases h'
  rw [decodeWord_31 (encV_major ..)]
  simp [decodeVcvt, bind, Except.bind]
theorem RoundTrip.vsum (e : Bool) (d : GReg) (a : VReg) (m : Bool) : RoundTrip.Statement (.vsum e d a m) := by
  intro hw x h
  have h' : some (encV e 0x32 d a 0 m 0) = some x := h
  cases h'
  rw [decodeWord_32 (encV_major ..)]
  simp [decodeVred, bind, Except.bind, zeroField]
theorem RoundTrip.vfsumo (e : Bool) (d : GReg) (a : VReg) (m : Bool) : RoundTrip.Statement (.vfsumo e d a m) := by
  intro hw x h
  have h' : some (encV e 0x32 d a 0 m 1) = some x := h
  cases h'
  rw [decodeWord_32 (encV_major ..)]
  simp [decodeVred, bind, Except.bind, zeroField]
theorem RoundTrip.vfsumt (e : Bool) (d : GReg) (a : VReg) (m : Bool) : RoundTrip.Statement (.vfsumt e d a m) := by
  intro hw x h
  have h' : some (encV e 0x32 d a 0 m 2) = some x := h
  cases h'
  rw [decodeWord_32 (encV_major ..)]
  simp [decodeVred, bind, Except.bind, zeroField]
theorem RoundTrip.vrmax (e : Bool) (d : GReg) (a : VReg) (m : Bool) : RoundTrip.Statement (.vrmax e d a m) := by
  intro hw x h
  have h' : some (encV e 0x32 d a 0 m 3) = some x := h
  cases h'
  rw [decodeWord_32 (encV_major ..)]
  simp [decodeVred, bind, Except.bind, zeroField]
theorem RoundTrip.vrmin (e : Bool) (d : GReg) (a : VReg) (m : Bool) : RoundTrip.Statement (.vrmin e d a m) := by
  intro hw x h
  have h' : some (encV e 0x32 d a 0 m 4) = some x := h
  cases h'
  rw [decodeWord_32 (encV_major ..)]
  simp [decodeVred, bind, Except.bind, zeroField]
theorem RoundTrip.vrand (e : Bool) (d : GReg) (a : VReg) (m : Bool) : RoundTrip.Statement (.vrand e d a m) := by
  intro hw x h
  have h' : some (encV e 0x32 d a 0 m 5) = some x := h
  cases h'
  rw [decodeWord_32 (encV_major ..)]
  simp [decodeVred, bind, Except.bind, zeroField]
theorem RoundTrip.vror (e : Bool) (d : GReg) (a : VReg) (m : Bool) : RoundTrip.Statement (.vror e d a m) := by
  intro hw x h
  have h' : some (encV e 0x32 d a 0 m 6) = some x := h
  cases h'
  rw [decodeWord_32 (encV_major ..)]
  simp [decodeVred, bind, Except.bind, zeroField]
theorem RoundTrip.vfrmax (e : Bool) (d : GReg) (a : VReg) (m : Bool) : RoundTrip.Statement (.vfrmax e d a m) := by
  intro hw x h
  have h' : some (encV e 0x32 d a 0 m 7) = some x := h
  cases h'
  rw [decodeWord_32 (encV_major ..)]
  simp [decodeVred, bind, Except.bind, zeroField]
theorem RoundTrip.vslup (e : Bool) (d : VReg) (a : VReg) (b : GReg) (m : Bool) : RoundTrip.Statement (.vslup e d a b m) := by
  intro hw x h
  have h' : some (encV e 0x33 d a b m 0) = some x := h
  cases h'
  rw [decodeWord_33 (encV_major ..)]
  simp [decodeVperm, bind, Except.bind, zeroField]
theorem RoundTrip.vsldn (e : Bool) (d : VReg) (a : VReg) (b : GReg) (m : Bool) : RoundTrip.Statement (.vsldn e d a b m) := by
  intro hw x h
  have h' : some (encV e 0x33 d a b m 1) = some x := h
  cases h'
  rw [decodeWord_33 (encV_major ..)]
  simp [decodeVperm, bind, Except.bind]
theorem RoundTrip.vcomp (e : Bool) (d : VReg) (a : VReg) (b : MReg) (m : Bool) : RoundTrip.Statement (.vcomp e d a b m) := by
  intro hw x h
  have h' : some (encV e 0x33 d a (ofMask b) m 2) = some x := h
  cases h'
  rw [decodeWord_33 (encV_major ..)]
  simp [decodeVperm, bind, Except.bind, maskField_ofMask]
theorem RoundTrip.vexpd (e : Bool) (d : VReg) (a : VReg) (b : MReg) (m : Bool) : RoundTrip.Statement (.vexpd e d a b m) := by
  intro hw x h
  have h' : some (encV e 0x33 d a (ofMask b) m 3) = some x := h
  cases h'
  rw [decodeWord_33 (encV_major ..)]
  simp [decodeVperm, bind, Except.bind, maskField_ofMask]
theorem RoundTrip.viota (e : Bool) (d : VReg) (a : MReg) (m : Bool) : RoundTrip.Statement (.viota e d a m) := by
  intro hw x h
  have h' : some (encV e 0x33 d (ofMask a) 0 m 4) = some x := h
  cases h'
  rw [decodeWord_33 (encV_major ..)]
  simp [decodeVperm, bind, Except.bind, zeroField, maskField_ofMask]
theorem RoundTrip.vbcast (e : Bool) (d : VReg) (a : GReg) (m : Bool) : RoundTrip.Statement (.vbcast e d a m) := by
  intro hw x h
  have h' : some (encV e 0x33 d a 0 m 5) = some x := h
  cases h'
  rw [decodeWord_33 (encV_major ..)]
  simp [decodeVperm, bind, Except.bind, zeroField]
theorem RoundTrip.vextr (e : Bool) (d : GReg) (a : VReg) (b : GReg) (m : Bool) : RoundTrip.Statement (.vextr e d a b m) := by
  intro hw x h
  have h' : some (encV e 0x33 d a b m 6) = some x := h
  cases h'
  rw [decodeWord_33 (encV_major ..)]
  simp [decodeVperm, bind, Except.bind]
theorem RoundTrip.vrgath (e : Bool) (d : VReg) (a : VReg) (b : VReg) (m : Bool) : RoundTrip.Statement (.vrgath e d a b m) := by
  intro hw x h
  have h' : some (encV e 0x33 d a b m 7) = some x := h
  cases h'
  rw [decodeWord_33 (encV_major ..)]
  simp [decodeVperm, bind, Except.bind]
theorem RoundTrip.vld (e : Bool) (d : VReg) (a : GReg) (m : Bool) : RoundTrip.Statement (.vld e d a m) := by
  intro hw x h
  have h' : some (encV e 0x34 d a 0 m 0) = some x := h
  cases h'
  rw [decodeWord_34 (encV_major ..)]
  simp [decodeVmem, bind, Except.bind, zeroField]
theorem RoundTrip.vlds (e : Bool) (d : VReg) (a : GReg) (b : GReg) (m : Bool) : RoundTrip.Statement (.vlds e d a b m) := by
  intro hw x h
  have h' : some (encV e 0x34 d a b m 1) = some x := h
  cases h'
  rw [decodeWord_34 (encV_major ..)]
  simp [decodeVmem, bind, Except.bind]
theorem RoundTrip.vst (e : Bool) (d : VReg) (a : GReg) (m : Bool) : RoundTrip.Statement (.vst e d a m) := by
  intro hw x h
  have h' : some (encV e 0x34 d a 0 m 2) = some x := h
  cases h'
  rw [decodeWord_34 (encV_major ..)]
  simp [decodeVmem, bind, Except.bind, zeroField]
theorem RoundTrip.vsts (e : Bool) (d : VReg) (a : GReg) (b : GReg) (m : Bool) : RoundTrip.Statement (.vsts e d a b m) := by
  intro hw x h
  have h' : some (encV e 0x34 d a b m 3) = some x := h
  cases h'
  rw [decodeWord_34 (encV_major ..)]
  simp [decodeVmem, bind, Except.bind]
theorem RoundTrip.vgth (e : Bool) (d : VReg) (a : GReg) (b : VReg) (m : Bool) : RoundTrip.Statement (.vgth e d a b m) := by
  intro hw x h
  have h' : some (encV e 0x34 d a b m 4) = some x := h
  cases h'
  rw [decodeWord_34 (encV_major ..)]
  simp [decodeVmem, bind, Except.bind]
theorem RoundTrip.vscto (e : Bool) (d : VReg) (a : GReg) (b : VReg) (m : Bool) : RoundTrip.Statement (.vscto e d a b m) := by
  intro hw x h
  have h' : some (encV e 0x34 d a b m 5) = some x := h
  cases h'
  rw [decodeWord_34 (encV_major ..)]
  simp [decodeVmem, bind, Except.bind]
theorem RoundTrip.vsctu (e : Bool) (d : VReg) (a : GReg) (b : VReg) (m : Bool) : RoundTrip.Statement (.vsctu e d a b m) := by
  intro hw x h
  have h' : some (encV e 0x34 d a b m 6) = some x := h
  cases h'
  rw [decodeWord_34 (encV_major ..)]
  simp [decodeVmem, bind, Except.bind]
theorem RoundTrip.vxarm (e : Bool) (m : Bool) : RoundTrip.Statement (.vxarm e m) := by
  intro hw x h
  have h' : some (encV e 0x35 0 0 0 m 0) = some x := h
  cases h'
  rw [decodeWord_35 (encV_major ..)]
  simp [decodeVxit, bind, Except.bind, zeroField]
theorem RoundTrip.vxit (e : Bool) (a : MReg) (m : Bool) : RoundTrip.Statement (.vxit e a m) := by
  intro hw x h
  have h' : some (encV e 0x35 0 (ofMask a) 0 m 1) = some x := h
  cases h'
  rw [decodeWord_35 (encV_major ..)]
  simp [decodeVxit, bind, Except.bind, zeroField, maskField_ofMask]
theorem RoundTrip.vxclr (e : Bool) (m : Bool) : RoundTrip.Statement (.vxclr e m) := by
  intro hw x h
  have h' : some (encV e 0x35 0 0 0 m 2) = some x := h
  cases h'
  rw [decodeWord_35 (encV_major ..)]
  simp [decodeVxit, bind, Except.bind, zeroField]
theorem RoundTrip.vxlen (e : Bool) (d : GReg) (m : Bool) : RoundTrip.Statement (.vxlen e d m) := by
  intro hw x h
  have h' : some (encV e 0x35 d 0 0 m 3) = some x := h
  cases h'
  rw [decodeWord_35 (encV_major ..)]
  simp [decodeVxit, bind, Except.bind, zeroField]
theorem RoundTrip.vxwait (e : Bool) (m : Bool) : RoundTrip.Statement (.vxwait e m) := by
  intro hw x h
  have h' : some (encV e 0x35 0 0 0 m 4) = some x := h
  cases h'
  rw [decodeWord_35 (encV_major ..)]
  simp [decodeVxit, bind, Except.bind, zeroField]
theorem RoundTrip.vxfx (e : Bool) (d : GReg) (m : Bool) : RoundTrip.Statement (.vxfx e d m) := by
  intro hw x h
  have h' : some (encV e 0x35 d 0 0 m 5) = some x := h
  cases h'
  rw [decodeWord_35 (encV_major ..)]
  simp [decodeVxit, bind, Except.bind, zeroField]
theorem RoundTrip.bxany (e : Bool) (o : BitVec 11) : RoundTrip.Statement (.bxany e o) := by
  intro hw x h
  have h' : some (encI e 0x36 0 0 o) = some x := h
  cases h'
  rw [decodeWord_36 (encI_major ..)]
  simp [decodeXbr, bind, Except.bind, zeroField]
theorem RoundTrip.bxnone (e : Bool) (o : BitVec 11) : RoundTrip.Statement (.bxnone e o) := by
  intro hw x h
  have h' : some (encI e 0x36 0 1 o) = some x := h
  cases h'
  rw [decodeWord_36 (encI_major ..)]
  simp [decodeXbr, bind, Except.bind, zeroField]
theorem RoundTrip.vseq (e : Bool) (d : VReg) (a : GReg) (b : GReg) (m : Bool) : RoundTrip.Statement (.vseq e d a b m) := by
  intro hw x h
  have h' : some (encV e 0x37 d a b m 0) = some x := h
  cases h'
  rw [decodeWord_37 (encV_major ..)]
  simp [decodeVseq, bind, Except.bind, zeroField]
theorem RoundTrip.vrot (e : Bool) (d : VReg) (a : VReg) (b : VReg) (m : Bool) : RoundTrip.Statement (.vrot e d a b m) := by
  intro hw x h
  have h' : some (encV e 0x37 d a b m 1) = some x := h
  cases h'
  rw [decodeWord_37 (encV_major ..)]
  simp [decodeVseq, bind, Except.bind]
theorem RoundTrip.vrang (e : Bool) (d : VReg) (a : VReg) (b : GReg) (m : Bool) : RoundTrip.Statement (.vrang e d a b m) := by
  intro hw x h
  have h' : some (encV e 0x37 d a b m 2) = some x := h
  cases h'
  rw [decodeWord_37 (encV_major ..)]
  simp [decodeVseq, bind, Except.bind]
theorem RoundTrip.vgq (e : Bool) (a : GReg) (b : GReg) (m : Bool) : RoundTrip.Statement (.vgq e a b m) := by
  intro hw x h
  have h' : some (encV e 0x37 0 a b m 3) = some x := h
  cases h'
  rw [decodeWord_37 (encV_major ..)]
  simp [decodeVseq, bind, Except.bind, zeroField]
theorem RoundTrip.vgqpop (e : Bool) (d : VReg) (m : Bool) : RoundTrip.Statement (.vgqpop e d m) := by
  intro hw x h
  have h' : some (encV e 0x37 d 0 0 m 4) = some x := h
  cases h'
  rw [decodeWord_37 (encV_major ..)]
  simp [decodeVseq, bind, Except.bind, zeroField]
theorem RoundTrip.seqfork (e : Bool) (d : GReg) (a : GReg) (b : GReg) (m : Bool) : RoundTrip.Statement (.seqfork e d a b m) := by
  intro hw x h
  have h' : some (encV e 0x37 d a b m 5) = some x := h
  cases h'
  rw [decodeWord_37 (encV_major ..)]
  simp [decodeVseq, bind, Except.bind]
theorem RoundTrip.seqmap (e : Bool) (d : GReg) (a : GReg) (b : GReg) (m : Bool) : RoundTrip.Statement (.seqmap e d a b m) := by
  intro hw x h
  have h' : some (encV e 0x37 d a b m 6) = some x := h
  cases h'
  rw [decodeWord_37 (encV_major ..)]
  simp [decodeVseq, bind, Except.bind]
theorem RoundTrip.tconf (e : Bool) (d : GReg) (a : GReg) : RoundTrip.Statement (.tconf e d a) := by
  intro hw x h
  have h' : some (encR e 0x38 d a 0 0) = some x := h
  cases h'
  rw [decodeWord_38 (encR_major ..)]
  simp [decodeMtx, bind, Except.bind, zeroField]
theorem RoundTrip.tshape (e : Bool) (d : TReg) (a : GReg) : RoundTrip.Statement (.tshape e d a) := by
  intro hw x h
  have h' : some (encR e 0x38 (ofLow d) a 0 1) = some x := h
  cases h'
  rw [decodeWord_38 (encR_major ..)]
  simp [decodeMtx, bind, Except.bind, zeroField, lowField_ofLow]
theorem RoundTrip.tzero (e : Bool) (d : TReg) : RoundTrip.Statement (.tzero e d) := by
  intro hw x h
  have h' : some (encR e 0x38 (ofLow d) 0 0 2) = some x := h
  cases h'
  rw [decodeWord_38 (encR_major ..)]
  simp [decodeMtx, bind, Except.bind, zeroField, lowField_ofLow]
theorem RoundTrip.tld (e : Bool) (d : TReg) (a : GReg) (b : GReg) : RoundTrip.Statement (.tld e d a b) := by
  intro hw x h
  have h' : some (encR e 0x38 (ofLow d) a b 3) = some x := h
  cases h'
  rw [decodeWord_38 (encR_major ..)]
  simp [decodeMtx, bind, Except.bind, lowField_ofLow]
theorem RoundTrip.tst (e : Bool) (d : TReg) (a : GReg) (b : GReg) : RoundTrip.Statement (.tst e d a b) := by
  intro hw x h
  have h' : some (encR e 0x38 (ofLow d) a b 4) = some x := h
  cases h'
  rw [decodeWord_38 (encR_major ..)]
  simp [decodeMtx, bind, Except.bind, lowField_ofLow]
theorem RoundTrip.mrowin (e : Bool) (d : TReg) (a : GReg) (b : VReg) : RoundTrip.Statement (.mrowin e d a b) := by
  intro hw x h
  have h' : some (encR e 0x38 (ofLow d) a b 5) = some x := h
  cases h'
  rw [decodeWord_38 (encR_major ..)]
  simp [decodeMtx, bind, Except.bind, lowField_ofLow]
theorem RoundTrip.mrowout (e : Bool) (d : VReg) (a : TReg) (b : GReg) : RoundTrip.Statement (.mrowout e d a b) := by
  intro hw x h
  have h' : some (encR e 0x38 d (ofLow a) b 6) = some x := h
  cases h'
  rw [decodeWord_38 (encR_major ..)]
  simp [decodeMtx, bind, Except.bind, lowField_ofLow]
theorem RoundTrip.mcolin (e : Bool) (d : TReg) (a : GReg) (b : VReg) : RoundTrip.Statement (.mcolin e d a b) := by
  intro hw x h
  have h' : some (encR e 0x38 (ofLow d) a b 7) = some x := h
  cases h'
  rw [decodeWord_38 (encR_major ..)]
  simp [decodeMtx, bind, Except.bind, lowField_ofLow]
theorem RoundTrip.mcolout (e : Bool) (d : VReg) (a : TReg) (b : GReg) : RoundTrip.Statement (.mcolout e d a b) := by
  intro hw x h
  have h' : some (encR e 0x38 d (ofLow a) b 8) = some x := h
  cases h'
  rw [decodeWord_38 (encR_major ..)]
  simp [decodeMtx, bind, Except.bind, lowField_ofLow]
theorem RoundTrip.tsave (e : Bool) (d : TReg) (a : GReg) : RoundTrip.Statement (.tsave e d a) := by
  intro hw x h
  have h' : some (encR e 0x38 (ofLow d) a 0 9) = some x := h
  cases h'
  rw [decodeWord_38 (encR_major ..)]
  simp [decodeMtx, bind, Except.bind, zeroField, lowField_ofLow]
theorem RoundTrip.trst (e : Bool) (d : TReg) (a : GReg) : RoundTrip.Statement (.trst e d a) := by
  intro hw x h
  have h' : some (encR e 0x38 (ofLow d) a 0 10) = some x := h
  cases h'
  rw [decodeWord_38 (encR_major ..)]
  simp [decodeMtx, bind, Except.bind, zeroField, lowField_ofLow]
theorem RoundTrip.tdirty (e : Bool) (d : GReg) : RoundTrip.Statement (.tdirty e d) := by
  intro hw x h
  have h' : some (encR e 0x38 d 0 0 11) = some x := h
  cases h'
  rw [decodeWord_38 (encR_major ..)]
  simp [decodeMtx, bind, Except.bind, zeroField]
theorem RoundTrip.tcvt (e : Bool) (d : TReg) (a : TReg) (b : BitVec 7) : RoundTrip.Statement (.tcvt e d a b) := by
  intro hw x h
  have h' : some (encR e 0x38 (ofLow d) (ofLow a) b 12) = some x := h
  cases h'
  rw [decodeWord_38 (encR_major ..)]
  simp [Instr.wf] at hw
  simp [decodeMtx, bind, Except.bind, lowField_ofLow, hw]
theorem RoundTrip.mrwO (e : Bool) (c : TReg) (s : TReg) (a : GReg) (b : VReg) : RoundTrip.Statement (.mrwO e c s a b) := by
  intro hw x h
  have h' : some (encR e 0x39 (c ++ (0 : BitVec 1) ++ s) a b 0) = some x := h
  cases h'
  rw [decodeWord_39 (encR_major ..)]
  simp only [encR_e, encR_d, encR_a, encR_b, encR_f, decodeMmul, tiles_high, tiles_low, tiles_zero]
  rfl
theorem RoundTrip.mrwF (e : Bool) (c : TReg) (s : TReg) (a : GReg) (b : VReg) : RoundTrip.Statement (.mrwF e c s a b) := by
  intro hw x h
  have h' : some (encR e 0x39 (c ++ (0 : BitVec 1) ++ s) a b 1) = some x := h
  cases h'
  rw [decodeWord_39 (encR_major ..)]
  simp only [encR_e, encR_d, encR_a, encR_b, encR_f, decodeMmul, tiles_high, tiles_low, tiles_zero]
  rfl
theorem RoundTrip.mrsO (e : Bool) (c : TReg) (s : TReg) (a : GReg) (b : GReg) : RoundTrip.Statement (.mrsO e c s a b) := by
  intro hw x h
  have h' : some (encR e 0x39 (c ++ (0 : BitVec 1) ++ s) a b 2) = some x := h
  cases h'
  rw [decodeWord_39 (encR_major ..)]
  simp only [encR_e, encR_d, encR_a, encR_b, encR_f, decodeMmul, tiles_high, tiles_low, tiles_zero]
  rfl
theorem RoundTrip.mrsF (e : Bool) (c : TReg) (s : TReg) (a : GReg) (b : GReg) : RoundTrip.Statement (.mrsF e c s a b) := by
  intro hw x h
  have h' : some (encR e 0x39 (c ++ (0 : BitVec 1) ++ s) a b 3) = some x := h
  cases h'
  rw [decodeWord_39 (encR_major ..)]
  simp only [encR_e, encR_d, encR_a, encR_b, encR_f, decodeMmul, tiles_high, tiles_low, tiles_zero]
  rfl
theorem RoundTrip.mrwi (e : Bool) (c : TReg) (s : TReg) (a : GReg) (b : VReg) : RoundTrip.Statement (.mrwi e c s a b) := by
  intro hw x h
  have h' : some (encR e 0x39 (c ++ (0 : BitVec 1) ++ s) a b 4) = some x := h
  cases h'
  rw [decodeWord_39 (encR_major ..)]
  simp only [encR_e, encR_d, encR_a, encR_b, encR_f, decodeMmul, tiles_high, tiles_low, tiles_zero]
  rfl
theorem RoundTrip.sxw (e : Bool) (a : GReg) (b : BitVec 7) : RoundTrip.Statement (.sxw e a b) := by
  intro hw x h
  have h' : some (encR e 0x3A 0 a b 0) = some x := h
  cases h'
  rw [decodeWord_3a (encR_major ..)]
  simp [Instr.wf] at hw
  simp [decodeStrm, bind, Except.bind, zeroField, hw]
theorem RoundTrip.sxr (e : Bool) (d : GReg) (b : BitVec 7) : RoundTrip.Statement (.sxr e d b) := by
  intro hw x h
  have h' : some (encR e 0x3A d 0 b 1) = some x := h
  cases h'
  rw [decodeWord_3a (encR_major ..)]
  simp [Instr.wf] at hw
  simp [decodeStrm, bind, Except.bind, zeroField, hw]
theorem RoundTrip.sxgo (e : Bool) (d : GReg) (a : GReg) : RoundTrip.Statement (.sxgo e d a) := by
  intro hw x h
  have h' : some (encR e 0x3A d a 0 2) = some x := h
  cases h'
  rw [decodeWord_3a (encR_major ..)]
  simp [decodeStrm, bind, Except.bind, zeroField]
theorem RoundTrip.sxgom (e : Bool) (d : GReg) (a : GReg) : RoundTrip.Statement (.sxgom e d a) := by
  intro hw x h
  have h' : some (encR e 0x3A d a 0 3) = some x := h
  cases h'
  rw [decodeWord_3a (encR_major ..)]
  simp [decodeStrm, bind, Except.bind, zeroField]
theorem RoundTrip.sxabt (e : Bool) (a : GReg) : RoundTrip.Statement (.sxabt e a) := by
  intro hw x h
  have h' : some (encR e 0x3A 0 a 0 4) = some x := h
  cases h'
  rw [decodeWord_3a (encR_major ..)]
  simp [decodeStrm, bind, Except.bind, zeroField]
theorem RoundTrip.sxstat (e : Bool) (d : GReg) (a : GReg) : RoundTrip.Statement (.sxstat e d a) := by
  intro hw x h
  have h' : some (encR e 0x3A d a 0 5) = some x := h
  cases h'
  rw [decodeWord_3a (encR_major ..)]
  simp [decodeStrm, bind, Except.bind, zeroField]
theorem RoundTrip.barr (e : Bool) (s : BitVec 3) (t : BitVec 3) : RoundTrip.Statement (.barr e s t) := by
  intro hw x h
  have h' : some (encR e 0x3B 0 (ofLow s) (ofLow t) 0) = some x := h
  cases h'
  rw [decodeWord_3b (encR_major ..)]
  simp [Instr.wf] at hw
  simp [decodeClus, bind, Except.bind, zeroField, lowField_ofLow, hw]
theorem RoundTrip.barw (e : Bool) (s : BitVec 3) (t : BitVec 3) : RoundTrip.Statement (.barw e s t) := by
  intro hw x h
  have h' : some (encR e 0x3B 0 (ofLow s) (ofLow t) 1) = some x := h
  cases h'
  rw [decodeWord_3b (encR_major ..)]
  simp [Instr.wf] at hw
  simp [decodeClus, bind, Except.bind, zeroField, lowField_ofLow, hw]
theorem RoundTrip.bara (e : Bool) (s : BitVec 3) (t : BitVec 3) : RoundTrip.Statement (.bara e s t) := by
  intro hw x h
  have h' : some (encR e 0x3B 0 (ofLow s) (ofLow t) 2) = some x := h
  cases h'
  rw [decodeWord_3b (encR_major ..)]
  simp [Instr.wf] at hw
  simp [decodeClus, bind, Except.bind, zeroField, lowField_ofLow, hw]
theorem RoundTrip.tron (e : Bool) (d : GReg) (a : GReg) : RoundTrip.Statement (.tron e d a) := by
  intro hw x h
  have h' : some (encR e 0x3B d a 0 3) = some x := h
  cases h'
  rw [decodeWord_3b (encR_major ..)]
  simp [decodeClus, bind, Except.bind, zeroField]
theorem RoundTrip.troff (e : Bool) (d : GReg) (a : GReg) : RoundTrip.Statement (.troff e d a) := by
  intro hw x h
  have h' : some (encR e 0x3B d a 0 4) = some x := h
  cases h'
  rw [decodeWord_3b (encR_major ..)]
  simp [decodeClus, bind, Except.bind, zeroField]
theorem RoundTrip.samp (e : Bool) (d : GReg) (a : GReg) : RoundTrip.Statement (.samp e d a) := by
  intro hw x h
  have h' : some (encR e 0x3B d a 0 5) = some x := h
  cases h'
  rw [decodeWord_3b (encR_major ..)]
  simp [decodeClus, bind, Except.bind, zeroField]
theorem RoundTrip.coord (e : Bool) (d : GReg) (a : GReg) (b : BitVec 7) : RoundTrip.Statement (.coord e d a b) := by
  intro hw x h
  have h' : some (encR e 0x3B d a b 6) = some x := h
  cases h'
  rw [decodeWord_3b (encR_major ..)]
  simp [Instr.wf] at hw
  simp [decodeClus, bind, Except.bind, hw]
theorem RoundTrip.grbind (e : Bool) (a : GReg) : RoundTrip.Statement (.grbind e a) := by
  intro hw x h
  have h' : some (encR e 0x3C 0 a 0 0) = some x := h
  cases h'
  rw [decodeWord_3c (encR_major ..)]
  simp [decodeGram, bind, Except.bind, zeroField]
theorem RoundTrip.grstep (e : Bool) (d : GReg) (a : GReg) (b : GReg) : RoundTrip.Statement (.grstep e d a b) := by
  intro hw x h
  have h' : some (encR e 0x3C d a b 1) = some x := h
  cases h'
  rw [decodeWord_3c (encR_major ..)]
  simp [decodeGram, bind, Except.bind]
theorem RoundTrip.grmaskM (e : Bool) (d : MReg) (a : GReg) : RoundTrip.Statement (.grmaskM e d a) := by
  intro hw x h
  have h' : some (encR e 0x3C (ofMask d) a 0 2) = some x := h
  cases h'
  rw [decodeWord_3c (encR_major ..)]
  simp [decodeGram, bind, Except.bind, zeroField, maskField_ofMask]
theorem RoundTrip.grmaskV (e : Bool) (d : VReg) (a : GReg) : RoundTrip.Statement (.grmaskV e d a) := by
  intro hw x h
  have h' : some (encR e 0x3C d a 1 2) = some x := h
  cases h'
  rw [decodeWord_3c (encR_major ..)]
  simp [decodeGram, bind, Except.bind]
theorem RoundTrip.grforce (e : Bool) (d : GReg) : RoundTrip.Statement (.grforce e d) := by
  intro hw x h
  have h' : some (encR e 0x3C d 0 0 3) = some x := h
  cases h'
  rw [decodeWord_3c (encR_major ..)]
  simp [decodeGram, bind, Except.bind, zeroField]
theorem RoundTrip.grsave (e : Bool) (a : GReg) : RoundTrip.Statement (.grsave e a) := by
  intro hw x h
  have h' : some (encR e 0x3C 0 a 0 4) = some x := h
  cases h'
  rw [decodeWord_3c (encR_major ..)]
  simp [decodeGram, bind, Except.bind, zeroField]
theorem RoundTrip.grload (e : Bool) (a : GReg) : RoundTrip.Statement (.grload e a) := by
  intro hw x h
  have h' : some (encR e 0x3C 0 a 0 5) = some x := h
  cases h'
  rw [decodeWord_3c (encR_major ..)]
  simp [decodeGram, bind, Except.bind, zeroField]
theorem RoundTrip.grreset (e : Bool) : RoundTrip.Statement (.grreset e) := by
  intro hw x h
  have h' : some (encR e 0x3C 0 0 0 6) = some x := h
  cases h'
  rw [decodeWord_3c (encR_major ..)]
  simp [decodeGram, bind, Except.bind, zeroField]
theorem RoundTrip.objnew (e : Bool) (d : GReg) (a : GReg) (b : GReg) : RoundTrip.Statement (.objnew e d a b) := by
  intro hw x h
  have h' : some (encR e 0x3D d a b 0) = some x := h
  cases h'
  rw [decodeWord_3d (encR_major ..)]
  simp [decodePubl, bind, Except.bind, zeroField]
theorem RoundTrip.tagst (e : Bool) (d : GReg) (a : GReg) : RoundTrip.Statement (.tagst e d a) := by
  intro hw x h
  have h' : some (encR e 0x3D d a 0 1) = some x := h
  cases h'
  rw [decodeWord_3d (encR_major ..)]
  simp [decodePubl, bind, Except.bind, zeroField]
theorem RoundTrip.tagld (e : Bool) (d : GReg) (a : GReg) : RoundTrip.Statement (.tagld e d a) := by
  intro hw x h
  have h' : some (encR e 0x3D d a 0 2) = some x := h
  cases h'
  rw [decodeWord_3d (encR_major ..)]
  simp [decodePubl, bind, Except.bind, zeroField]
theorem RoundTrip.pub (e : Bool) (s : BitVec 3) (a : GReg) (b : GReg) : RoundTrip.Statement (.pub e s a b) := by
  intro hw x h
  have h' : some (encR e 0x3D (ofLow s) a b 3) = some x := h
  cases h'
  rw [decodeWord_3d (encR_major ..)]
  simp [Instr.wf] at hw
  simp [decodePubl, bind, Except.bind, lowField_ofLow, hw]
theorem RoundTrip.pubw (e : Bool) (d : GReg) (a : GReg) (s : BitVec 3) : RoundTrip.Statement (.pubw e d a s) := by
  intro hw x h
  have h' : some (encR e 0x3D d a (ofLow s) 4) = some x := h
  cases h'
  rw [decodeWord_3d (encR_major ..)]
  simp [Instr.wf] at hw
  simp [decodePubl, bind, Except.bind, lowField_ofLow, hw]
theorem RoundTrip.objprb (e : Bool) (d : GReg) (a : GReg) : RoundTrip.Statement (.objprb e d a) := by
  intro hw x h
  have h' : some (encR e 0x3D d a 0 5) = some x := h
  cases h'
  rw [decodeWord_3d (encR_major ..)]
  simp [decodePubl, bind, Except.bind, zeroField]
theorem RoundTrip.tagclr (e : Bool) (a : GReg) : RoundTrip.Statement (.tagclr e a) := by
  intro hw x h
  have h' : some (encR e 0x3D 0 a 0 6) = some x := h
  cases h'
  rw [decodeWord_3d (encR_major ..)]
  simp [decodePubl, bind, Except.bind, zeroField]
theorem RoundTrip.objfree (e : Bool) (a : GReg) : RoundTrip.Statement (.objfree e a) := by
  intro hw x h
  have h' : some (encR e 0x3D 0 a 0 7) = some x := h
  cases h'
  rw [decodeWord_3d (encR_major ..)]
  simp [decodePubl, bind, Except.bind, zeroField]
theorem RoundTrip.ctxnew (e : Bool) (d : GReg) (a : GReg) : RoundTrip.Statement (.ctxnew e d a) := by
  intro hw x h
  have h' : some (encR e 0x3E d a 0 0) = some x := h
  cases h'
  rw [decodeWord_3e (encR_major ..)]
  simp [decodeCtx, bind, Except.bind, zeroField]
theorem RoundTrip.ctxgrant (e : Bool) (a : GReg) (b : GReg) : RoundTrip.Statement (.ctxgrant e a b) := by
  intro hw x h
  have h' : some (encR e 0x3E 0 a b 1) = some x := h
  cases h'
  rw [decodeWord_3e (encR_major ..)]
  simp [decodeCtx, bind, Except.bind, zeroField]
theorem RoundTrip.ctxrevoke (e : Bool) (a : GReg) : RoundTrip.Statement (.ctxrevoke e a) := by
  intro hw x h
  have h' : some (encR e 0x3E 0 a 0 2) = some x := h
  cases h'
  rw [decodeWord_3e (encR_major ..)]
  simp [decodeCtx, bind, Except.bind, zeroField]
theorem RoundTrip.ctxrun (e : Bool) (a : GReg) (b : GReg) : RoundTrip.Statement (.ctxrun e a b) := by
  intro hw x h
  have h' : some (encR e 0x3E 0 a b 3) = some x := h
  cases h'
  rw [decodeWord_3e (encR_major ..)]
  simp [decodeCtx, bind, Except.bind, zeroField]
theorem RoundTrip.ctxinfo (e : Bool) (d : GReg) (a : GReg) (b : BitVec 7) : RoundTrip.Statement (.ctxinfo e d a b) := by
  intro hw x h
  have h' : some (encR e 0x3E d a b 4) = some x := h
  cases h'
  rw [decodeWord_3e (encR_major ..)]
  simp [Instr.wf] at hw
  simp [decodeCtx, bind, Except.bind, hw]
theorem RoundTrip.trapup (e : Bool) (a : GReg) (b : BitVec 7) : RoundTrip.Statement (.trapup e a b) := by
  intro hw x h
  have h' : some (encR e 0x3E 0 a b 5) = some x := h
  cases h'
  rw [decodeWord_3e (encR_major ..)]
  simp [decodeCtx, bind, Except.bind, zeroField]
theorem RoundTrip.launch (e : Bool) (d : GReg) (a : GReg) (b : GReg) : RoundTrip.Statement (.launch e d a b) := by
  intro hw x h
  have h' : some (encR e 0x3E d a b 6) = some x := h
  cases h'
  rw [decodeWord_3e (encR_major ..)]
  simp [decodeCtx, bind, Except.bind]
theorem RoundTrip.lwait (e : Bool) (d : GReg) (a : GReg) (b : GReg) : RoundTrip.Statement (.lwait e d a b) := by
  intro hw x h
  have h' : some (encR e 0x3E d a b 7) = some x := h
  cases h'
  rw [decodeWord_3e (encR_major ..)]
  simp [decodeCtx, bind, Except.bind]
theorem RoundTrip.lprio (e : Bool) (d : GReg) (a : GReg) (b : GReg) : RoundTrip.Statement (.lprio e d a b) := by
  intro hw x h
  have h' : some (encR e 0x3E d a b 8) = some x := h
  cases h'
  rw [decodeWord_3e (encR_major ..)]
  simp [decodeCtx, bind, Except.bind]
theorem RoundTrip.colr (e : Bool) (d : GReg) (a : GReg) : RoundTrip.Statement (.colr e d a) := by
  intro hw x h
  have h' : some (encR e 0x3F d a 0 0) = some x := h
  cases h'
  rw [decodeWord_3f (encR_major ..)]
  simp [decodeColl, bind, Except.bind, zeroField]
theorem RoundTrip.colg (e : Bool) (d : GReg) (a : GReg) : RoundTrip.Statement (.colg e d a) := by
  intro hw x h
  have h' : some (encR e 0x3F d a 0 1) = some x := h
  cases h'
  rw [decodeWord_3f (encR_major ..)]
  simp [decodeColl, bind, Except.bind, zeroField]
theorem RoundTrip.cols (e : Bool) (d : GReg) (a : GReg) : RoundTrip.Statement (.cols e d a) := by
  intro hw x h
  have h' : some (encR e 0x3F d a 0 2) = some x := h
  cases h'
  rw [decodeWord_3f (encR_major ..)]
  simp [decodeColl, bind, Except.bind, zeroField]
theorem RoundTrip.colb (e : Bool) (d : GReg) (a : GReg) : RoundTrip.Statement (.colb e d a) := by
  intro hw x h
  have h' : some (encR e 0x3F d a 0 3) = some x := h
  cases h'
  rw [decodeWord_3f (encR_major ..)]
  simp [decodeColl, bind, Except.bind, zeroField]
theorem RoundTrip.colw (e : Bool) (d : GReg) (a : GReg) (b : GReg) : RoundTrip.Statement (.colw e d a b) := by
  intro hw x h
  have h' : some (encR e 0x3F d a b 4) = some x := h
  cases h'
  rw [decodeWord_3f (encR_major ..)]
  simp [decodeColl, bind, Except.bind]
theorem RoundTrip.cola (e : Bool) (a : GReg) : RoundTrip.Statement (.cola e a) := by
  intro hw x h
  have h' : some (encR e 0x3F 0 a 0 5) = some x := h
  cases h'
  rw [decodeWord_3f (encR_major ..)]
  simp [decodeColl, bind, Except.bind, zeroField]
theorem RoundTrip.trapEntry (cause : BitVec 8) (tval : Word) : RoundTrip.Statement (.trapEntry cause tval) := by
  intro _ w h; cases h
theorem RoundTrip.exitTestResolve : RoundTrip.Statement .exitTestResolve := by
  intro _ w h; cases h
theorem RoundTrip.stripResolve : RoundTrip.Statement .stripResolve := by
  intro _ w h; cases h
theorem RoundTrip.pageRequestAnswer (id : Nat) : RoundTrip.Statement (.pageRequestAnswer id) := by
  intro _ w h; cases h
theorem RoundTrip.pageRequestGroupResponse (id : Nat) (code : BitVec 4) : RoundTrip.Statement (.pageRequestGroupResponse id code) := by
  intro _ w h; cases h
theorem RoundTrip.pendingPageEntryFree (id : Nat) : RoundTrip.Statement (.pendingPageEntryFree id) := by
  intro _ w h; cases h
theorem RoundTrip.launchAccept (ctx : Nat) (queue : Nat) : RoundTrip.Statement (.launchAccept ctx queue) := by
  intro _ w h; cases h
theorem RoundTrip.crewBind (ctx : Nat) (choice : Nat) : RoundTrip.Statement (.crewBind ctx choice) := by
  intro _ w h; cases h
theorem RoundTrip.preemptionComplete (crew : Nat) : RoundTrip.Statement (.preemptionComplete crew) := by
  intro _ w h; cases h
theorem RoundTrip.priorityAging (launch : Nat) : RoundTrip.Statement (.priorityAging launch) := by
  intro _ w h; cases h
theorem RoundTrip.homeBiasMove (launch : Nat) : RoundTrip.Statement (.homeBiasMove launch) := by
  intro _ w h; cases h
theorem RoundTrip.hintTimeout (launch : Nat) : RoundTrip.Statement (.hintTimeout launch) := by
  intro _ w h; cases h
theorem RoundTrip.hartRetire (hart : Nat) : RoundTrip.Statement (.hartRetire hart) := by
  intro _ w h; cases h
theorem RoundTrip.launchCompletion (launch : Nat) : RoundTrip.Statement (.launchCompletion launch) := by
  intro _ w h; cases h
theorem RoundTrip.barrierPhaseComplete (crew : Nat) (tag : BitVec 3) : RoundTrip.Statement (.barrierPhaseComplete crew tag) := by
  intro _ w h; cases h
theorem RoundTrip.waitwWake (hart : Nat) : RoundTrip.Statement (.waitwWake hart) := by
  intro _ w h; cases h
theorem RoundTrip.waitwTimeout (hart : Nat) : RoundTrip.Statement (.waitwTimeout hart) := by
  intro _ w h; cases h
theorem RoundTrip.waitEnd (hart : Nat) : RoundTrip.Statement (.waitEnd hart) := by
  intro _ w h; cases h
theorem RoundTrip.lwaitTimeout (hart : Nat) : RoundTrip.Statement (.lwaitTimeout hart) := by
  intro _ w h; cases h
theorem RoundTrip.colwTimeout (hart : Nat) : RoundTrip.Statement (.colwTimeout hart) := by
  intro _ w h; cases h
theorem RoundTrip.fenceScTick (hart : Nat) : RoundTrip.Statement (.fenceScTick hart) := by
  intro _ w h; cases h
theorem RoundTrip.copyStrip (hart : Nat) (copy : Nat) : RoundTrip.Statement (.copyStrip hart copy) := by
  intro _ w h; cases h
theorem RoundTrip.copyCompletion (hart : Nat) (copy : Nat) : RoundTrip.Statement (.copyCompletion hart copy) := by
  intro _ w h; cases h
theorem RoundTrip.mirrorAck (copy : Nat) (count : Nat) : RoundTrip.Statement (.mirrorAck copy count) := by
  intro _ w h; cases h
theorem RoundTrip.matrixOpPerform (hart : Nat) : RoundTrip.Statement (.matrixOpPerform hart) := by
  intro _ w h; cases h
theorem RoundTrip.queuedGatherPerform (hart : Nat) (index : Nat) : RoundTrip.Statement (.queuedGatherPerform hart index) := by
  intro _ w h; cases h
theorem RoundTrip.sampleRecordWrite (hart : Nat) : RoundTrip.Statement (.sampleRecordWrite hart) := by
  intro _ w h; cases h
theorem RoundTrip.traceFullStop (cluster : Nat) : RoundTrip.Statement (.traceFullStop cluster) := by
  intro _ w h; cases h
theorem RoundTrip.traceDumpComplete (cluster : Nat) : RoundTrip.Statement (.traceDumpComplete cluster) := by
  intro _ w h; cases h
theorem RoundTrip.collectiveChunk (hart : Nat) (coll : Nat) (peers : List PeerChunk) : RoundTrip.Statement (.collectiveChunk hart coll peers) := by
  intro _ w h; cases h
theorem RoundTrip.readyFlitReceive (hart : Nat) (coll : Nat) (rank : Nat) : RoundTrip.Statement (.readyFlitReceive hart coll rank) := by
  intro _ w h; cases h
theorem RoundTrip.collectiveComplete (hart : Nat) (coll : Nat) : RoundTrip.Statement (.collectiveComplete hart coll) := by
  intro _ w h; cases h
theorem RoundTrip.abortFlitReceive (hart : Nat) (coll : Nat) : RoundTrip.Statement (.abortFlitReceive hart coll) := by
  intro _ w h; cases h
theorem RoundTrip.lossFlitReceive (device : BitVec 16) : RoundTrip.Statement (.lossFlitReceive device) := by
  intro _ w h; cases h
theorem RoundTrip.linkDownTimeout (device : BitVec 16) : RoundTrip.Statement (.linkDownTimeout device) := by
  intro _ w h; cases h
theorem RoundTrip.linkTrain (port : BitVec 4) (training : Training) : RoundTrip.Statement (.linkTrain port training) := by
  intro _ w h; cases h
theorem RoundTrip.flitCrcReplay (port : BitVec 4) : RoundTrip.Statement (.flitCrcReplay port) := by
  intro _ w h; cases h
theorem RoundTrip.laneFailure (port : BitVec 4) : RoundTrip.Statement (.laneFailure port) := by
  intro _ w h; cases h
theorem RoundTrip.channelFailure (base : Nat) (size : Nat) : RoundTrip.Statement (.channelFailure base size) := by
  intro _ w h; cases h
theorem RoundTrip.coreFailure (die : Nat) (cluster : Nat) (core : Nat) : RoundTrip.Statement (.coreFailure die cluster core) := by
  intro _ w h; cases h
theorem RoundTrip.clusterFailure (die : Nat) (cluster : Nat) : RoundTrip.Statement (.clusterFailure die cluster) := by
  intro _ w h; cases h
theorem RoundTrip.hostPortTrain (port : Bool) (training : HostTraining) : RoundTrip.Statement (.hostPortTrain port training) := by
  intro _ w h; cases h
theorem RoundTrip.hostRetrainTimeout (port : Bool) : RoundTrip.Statement (.hostRetrainTimeout port) := by
  intro _ w h; cases h
theorem RoundTrip.hostAccess (port : Bool) (target : HostTarget) (write : Bool) (data : List Byte) : RoundTrip.Statement (.hostAccess port target write data) := by
  intro _ w h; cases h
theorem RoundTrip.atsInvalidate (port : Bool) (lo : Nat) (hi : Nat) : RoundTrip.Statement (.atsInvalidate port lo hi) := by
  intro _ w h; cases h
theorem RoundTrip.attestationRequest (port : Bool) : RoundTrip.Statement (.attestationRequest port) := by
  intro _ w h; cases h
theorem RoundTrip.functionLevelReset (port : Bool) (function : BitVec 6) : RoundTrip.Statement (.functionLevelReset port function) := by
  intro _ w h; cases h
theorem RoundTrip.powerGrantStep (draw : Nat) (hottest : Nat) (coolest : Nat) (hotCores : List Nat) : RoundTrip.Statement (.powerGrantStep draw hottest coolest hotCores) := by
  intro _ w h; cases h
theorem RoundTrip.securityAlarm (sensor : BitVec 2) : RoundTrip.Statement (.securityAlarm sensor) := by
  intro _ w h; cases h
theorem RoundTrip.alarmRegisterWrite : RoundTrip.Statement .alarmRegisterWrite := by
  intro _ w h; cases h
theorem RoundTrip.deviceReset (firmwareOk : Bool) (flash : FlashManifest) : RoundTrip.Statement (.deviceReset firmwareOk flash) := by
  intro _ w h; cases h
theorem RoundTrip.recoveryImageWrite (manifest : Option Manifest) (accepted : Bool) (version : BitVec 32) : RoundTrip.Statement (.recoveryImageWrite manifest accepted version) := by
  intro _ w h; cases h
theorem RoundTrip.scanFreeze : RoundTrip.Statement .scanFreeze := by
  intro _ w h; cases h
theorem RoundTrip.scanThaw : RoundTrip.Statement .scanThaw := by
  intro _ w h; cases h
theorem RoundTrip.scanRead : RoundTrip.Statement .scanRead := by
  intro _ w h; cases h
theorem RoundTrip.scanWrite : RoundTrip.Statement .scanWrite := by
  intro _ w h; cases h
theorem RoundTrip.deviceRegisterWrite (offset : Nat) (value : Word) : RoundTrip.Statement (.deviceRegisterWrite offset value) := by
  intro _ w h; cases h
theorem RoundTrip.accessPerformed (hart : Nat) (vector : Bool) : RoundTrip.Statement (.accessPerformed hart vector) := by
  intro _ w h; cases h
theorem RoundTrip.provisioningImage (accepted : Bool) (version : BitVec 32) : RoundTrip.Statement (.provisioningImage accepted version) := by
  intro _ w h; cases h

end Sys2Proof.Laws
end

