-- ==== Sys2Proof/Laws/State.lean ====
section
/-!
SUPPORT. What each update of the state gives field by field, so that no proof unfolds a record update.
-/
namespace Sys2Proof.Machine

variable (s : State) (h : Hart) (r : Regs)

@[simp] theorem State.modHart_hart (f : Hart → Hart) : (s.modHart f).hart = f s.hart := rfl
@[simp] theorem State.modHart_others (f : Hart → Hart) : (s.modHart f).others = s.others := rfl
@[simp] theorem State.modHart_teams (f : Hart → Hart) : (s.modHart f).teams = s.teams := rfl
@[simp] theorem State.modHart_crews (f : Hart → Hart) : (s.modHart f).crews = s.crews := rfl
@[simp] theorem State.modHart_ctxs (f : Hart → Hart) : (s.modHart f).ctxs = s.ctxs := rfl
@[simp] theorem State.modHart_objs (f : Hart → Hart) : (s.modHart f).objs = s.objs := rfl
@[simp] theorem State.modHart_queues (f : Hart → Hart) : (s.modHart f).queues = s.queues := rfl
@[simp] theorem State.modHart_launches (f : Hart → Hart) : (s.modHart f).launches = s.launches := rfl
@[simp] theorem State.modHart_served (f : Hart → Hart) : (s.modHart f).served = s.served := rfl
@[simp] theorem State.modHart_pages (f : Hart → Hart) : (s.modHart f).pages = s.pages := rfl
@[simp] theorem State.modHart_recorders (f : Hart → Hart) : (s.modHart f).recorders = s.recorders := rfl
@[simp] theorem State.modHart_cache (f : Hart → Hart) : (s.modHart f).cache = s.cache := rfl
@[simp] theorem State.modHart_binds (f : Hart → Hart) : (s.modHart f).binds = s.binds := rfl
@[simp] theorem State.modHart_mem (f : Hart → Hart) : (s.modHart f).mem = s.mem := rfl
@[simp] theorem State.modHart_tags (f : Hart → Hart) : (s.modHart f).tags = s.tags := rfl
@[simp] theorem State.modHart_pois (f : Hart → Hart) : (s.modHart f).pois = s.pois := rfl
@[simp] theorem State.modHart_owner (f : Hart → Hart) : (s.modHart f).owner = s.owner := rfl
@[simp] theorem State.modHart_homes (f : Hart → Hart) : (s.modHart f).homes = s.homes := rfl
@[simp] theorem State.modHart_pkg (f : Hart → Hart) : (s.modHart f).pkg = s.pkg := rfl
@[simp] theorem State.modHart_events (f : Hart → Hart) : (s.modHart f).events = s.events := rfl
@[simp] theorem State.modHart_turn (f : Hart → Hart) : (s.modHart f).turn = s.turn := rfl
@[simp] theorem State.modHart_hold (f : Hart → Hart) : (s.modHart f).hold = s.hold := rfl
@[simp] theorem State.modHart_unfiled (f : Hart → Hart) : (s.modHart f).unfiled = s.unfiled := rfl
@[simp] theorem State.modHart_lag (f : Hart → Hart) : (s.modHart f).lag = s.lag := rfl
@[simp] theorem State.modHart_ecc (f : Hart → Hart) : (s.modHart f).ecc = s.ecc := rfl
@[simp] theorem State.modHart_regEcc (f : Hart → Hart) : (s.modHart f).regEcc = s.regEcc := rfl
@[simp] theorem State.modHart_unresolved (f : Hart → Hart) : (s.modHart f).unresolved = s.unresolved := rfl
@[simp] theorem State.modHart_cuts (f : Hart → Hart) : (s.modHart f).cuts = s.cuts := rfl
@[simp] theorem State.modHart_keep (f : Hart → Hart) : (s.modHart f).keep = s.keep := rfl
@[simp] theorem State.modHart_old (f : Hart → Hart) : (s.modHart f).old = s.old := rfl
@[simp] theorem State.modHart_free (f : Hart → Hart) : (s.modHart f).free = s.free := rfl
@[simp] theorem State.modHart_nextId (f : Hart → Hart) : (s.modHart f).nextId = s.nextId := rfl
@[simp] theorem State.modRegs_hart (f : Regs → Regs) : (s.modRegs f).hart = { s.hart with regs := f s.hart.regs } := rfl
@[simp] theorem State.modRegs_others (f : Regs → Regs) : (s.modRegs f).others = s.others := rfl
@[simp] theorem State.modRegs_teams (f : Regs → Regs) : (s.modRegs f).teams = s.teams := rfl
@[simp] theorem State.modRegs_crews (f : Regs → Regs) : (s.modRegs f).crews = s.crews := rfl
@[simp] theorem State.modRegs_ctxs (f : Regs → Regs) : (s.modRegs f).ctxs = s.ctxs := rfl
@[simp] theorem State.modRegs_objs (f : Regs → Regs) : (s.modRegs f).objs = s.objs := rfl
@[simp] theorem State.modRegs_queues (f : Regs → Regs) : (s.modRegs f).queues = s.queues := rfl
@[simp] theorem State.modRegs_launches (f : Regs → Regs) : (s.modRegs f).launches = s.launches := rfl
@[simp] theorem State.modRegs_served (f : Regs → Regs) : (s.modRegs f).served = s.served := rfl
@[simp] theorem State.modRegs_pages (f : Regs → Regs) : (s.modRegs f).pages = s.pages := rfl
@[simp] theorem State.modRegs_recorders (f : Regs → Regs) : (s.modRegs f).recorders = s.recorders := rfl
@[simp] theorem State.modRegs_cache (f : Regs → Regs) : (s.modRegs f).cache = s.cache := rfl
@[simp] theorem State.modRegs_binds (f : Regs → Regs) : (s.modRegs f).binds = s.binds := rfl
@[simp] theorem State.modRegs_mem (f : Regs → Regs) : (s.modRegs f).mem = s.mem := rfl
@[simp] theorem State.modRegs_tags (f : Regs → Regs) : (s.modRegs f).tags = s.tags := rfl
@[simp] theorem State.modRegs_pois (f : Regs → Regs) : (s.modRegs f).pois = s.pois := rfl
@[simp] theorem State.modRegs_owner (f : Regs → Regs) : (s.modRegs f).owner = s.owner := rfl
@[simp] theorem State.modRegs_homes (f : Regs → Regs) : (s.modRegs f).homes = s.homes := rfl
@[simp] theorem State.modRegs_pkg (f : Regs → Regs) : (s.modRegs f).pkg = s.pkg := rfl
@[simp] theorem State.modRegs_events (f : Regs → Regs) : (s.modRegs f).events = s.events := rfl
@[simp] theorem State.modRegs_turn (f : Regs → Regs) : (s.modRegs f).turn = s.turn := rfl
@[simp] theorem State.modRegs_hold (f : Regs → Regs) : (s.modRegs f).hold = s.hold := rfl
@[simp] theorem State.modRegs_unfiled (f : Regs → Regs) : (s.modRegs f).unfiled = s.unfiled := rfl
@[simp] theorem State.modRegs_lag (f : Regs → Regs) : (s.modRegs f).lag = s.lag := rfl
@[simp] theorem State.modRegs_ecc (f : Regs → Regs) : (s.modRegs f).ecc = s.ecc := rfl
@[simp] theorem State.modRegs_regEcc (f : Regs → Regs) : (s.modRegs f).regEcc = s.regEcc := rfl
@[simp] theorem State.modRegs_unresolved (f : Regs → Regs) : (s.modRegs f).unresolved = s.unresolved := rfl
@[simp] theorem State.modRegs_cuts (f : Regs → Regs) : (s.modRegs f).cuts = s.cuts := rfl
@[simp] theorem State.modRegs_keep (f : Regs → Regs) : (s.modRegs f).keep = s.keep := rfl
@[simp] theorem State.modRegs_old (f : Regs → Regs) : (s.modRegs f).old = s.old := rfl
@[simp] theorem State.modRegs_free (f : Regs → Regs) : (s.modRegs f).free = s.free := rfl
@[simp] theorem State.modRegs_nextId (f : Regs → Regs) : (s.modRegs f).nextId = s.nextId := rfl
@[simp] theorem State.mapHarts_hart (f : Hart → Hart) : (s.mapHarts f).hart = f s.hart := rfl
@[simp] theorem State.mapHarts_others (f : Hart → Hart) : (s.mapHarts f).others = s.others.map f := rfl
@[simp] theorem State.mapHarts_teams (f : Hart → Hart) : (s.mapHarts f).teams = s.teams := rfl
@[simp] theorem State.mapHarts_crews (f : Hart → Hart) : (s.mapHarts f).crews = s.crews := rfl
@[simp] theorem State.mapHarts_ctxs (f : Hart → Hart) : (s.mapHarts f).ctxs = s.ctxs := rfl
@[simp] theorem State.mapHarts_objs (f : Hart → Hart) : (s.mapHarts f).objs = s.objs := rfl
@[simp] theorem State.mapHarts_queues (f : Hart → Hart) : (s.mapHarts f).queues = s.queues := rfl
@[simp] theorem State.mapHarts_launches (f : Hart → Hart) : (s.mapHarts f).launches = s.launches := rfl
@[simp] theorem State.mapHarts_served (f : Hart → Hart) : (s.mapHarts f).served = s.served := rfl
@[simp] theorem State.mapHarts_pages (f : Hart → Hart) : (s.mapHarts f).pages = s.pages := rfl
@[simp] theorem State.mapHarts_recorders (f : Hart → Hart) : (s.mapHarts f).recorders = s.recorders := rfl
@[simp] theorem State.mapHarts_cache (f : Hart → Hart) : (s.mapHarts f).cache = s.cache := rfl
@[simp] theorem State.mapHarts_binds (f : Hart → Hart) : (s.mapHarts f).binds = s.binds := rfl
@[simp] theorem State.mapHarts_mem (f : Hart → Hart) : (s.mapHarts f).mem = s.mem := rfl
@[simp] theorem State.mapHarts_tags (f : Hart → Hart) : (s.mapHarts f).tags = s.tags := rfl
@[simp] theorem State.mapHarts_pois (f : Hart → Hart) : (s.mapHarts f).pois = s.pois := rfl
@[simp] theorem State.mapHarts_owner (f : Hart → Hart) : (s.mapHarts f).owner = s.owner := rfl
@[simp] theorem State.mapHarts_homes (f : Hart → Hart) : (s.mapHarts f).homes = s.homes := rfl
@[simp] theorem State.mapHarts_pkg (f : Hart → Hart) : (s.mapHarts f).pkg = s.pkg := rfl
@[simp] theorem State.mapHarts_events (f : Hart → Hart) : (s.mapHarts f).events = s.events := rfl
@[simp] theorem State.mapHarts_turn (f : Hart → Hart) : (s.mapHarts f).turn = s.turn := rfl
@[simp] theorem State.mapHarts_hold (f : Hart → Hart) : (s.mapHarts f).hold = s.hold := rfl
@[simp] theorem State.mapHarts_unfiled (f : Hart → Hart) : (s.mapHarts f).unfiled = s.unfiled := rfl
@[simp] theorem State.mapHarts_lag (f : Hart → Hart) : (s.mapHarts f).lag = s.lag := rfl
@[simp] theorem State.mapHarts_ecc (f : Hart → Hart) : (s.mapHarts f).ecc = s.ecc := rfl
@[simp] theorem State.mapHarts_regEcc (f : Hart → Hart) : (s.mapHarts f).regEcc = s.regEcc := rfl
@[simp] theorem State.mapHarts_unresolved (f : Hart → Hart) : (s.mapHarts f).unresolved = s.unresolved := rfl
@[simp] theorem State.mapHarts_cuts (f : Hart → Hart) : (s.mapHarts f).cuts = s.cuts := rfl
@[simp] theorem State.mapHarts_keep (f : Hart → Hart) : (s.mapHarts f).keep = s.keep := rfl
@[simp] theorem State.mapHarts_old (f : Hart → Hart) : (s.mapHarts f).old = s.old := rfl
@[simp] theorem State.mapHarts_free (f : Hart → Hart) : (s.mapHarts f).free = s.free := rfl
@[simp] theorem State.mapHarts_nextId (f : Hart → Hart) : (s.mapHarts f).nextId = s.nextId := rfl
@[simp] theorem State.modPkg_hart (f : Package → Package) : (s.modPkg f).hart = s.hart := rfl
@[simp] theorem State.modPkg_others (f : Package → Package) : (s.modPkg f).others = s.others := rfl
@[simp] theorem State.modPkg_teams (f : Package → Package) : (s.modPkg f).teams = s.teams := rfl
@[simp] theorem State.modPkg_crews (f : Package → Package) : (s.modPkg f).crews = s.crews := rfl
@[simp] theorem State.modPkg_ctxs (f : Package → Package) : (s.modPkg f).ctxs = s.ctxs := rfl
@[simp] theorem State.modPkg_objs (f : Package → Package) : (s.modPkg f).objs = s.objs := rfl
@[simp] theorem State.modPkg_queues (f : Package → Package) : (s.modPkg f).queues = s.queues := rfl
@[simp] theorem State.modPkg_launches (f : Package → Package) : (s.modPkg f).launches = s.launches := rfl
@[simp] theorem State.modPkg_served (f : Package → Package) : (s.modPkg f).served = s.served := rfl
@[simp] theorem State.modPkg_pages (f : Package → Package) : (s.modPkg f).pages = s.pages := rfl
@[simp] theorem State.modPkg_recorders (f : Package → Package) : (s.modPkg f).recorders = s.recorders := rfl
@[simp] theorem State.modPkg_cache (f : Package → Package) : (s.modPkg f).cache = s.cache := rfl
@[simp] theorem State.modPkg_binds (f : Package → Package) : (s.modPkg f).binds = s.binds := rfl
@[simp] theorem State.modPkg_mem (f : Package → Package) : (s.modPkg f).mem = s.mem := rfl
@[simp] theorem State.modPkg_tags (f : Package → Package) : (s.modPkg f).tags = s.tags := rfl
@[simp] theorem State.modPkg_pois (f : Package → Package) : (s.modPkg f).pois = s.pois := rfl
@[simp] theorem State.modPkg_owner (f : Package → Package) : (s.modPkg f).owner = s.owner := rfl
@[simp] theorem State.modPkg_homes (f : Package → Package) : (s.modPkg f).homes = s.homes := rfl
@[simp] theorem State.modPkg_pkg (f : Package → Package) : (s.modPkg f).pkg = f s.pkg := rfl
@[simp] theorem State.modPkg_events (f : Package → Package) : (s.modPkg f).events = s.events := rfl
@[simp] theorem State.modPkg_turn (f : Package → Package) : (s.modPkg f).turn = s.turn := rfl
@[simp] theorem State.modPkg_hold (f : Package → Package) : (s.modPkg f).hold = s.hold := rfl
@[simp] theorem State.modPkg_unfiled (f : Package → Package) : (s.modPkg f).unfiled = s.unfiled := rfl
@[simp] theorem State.modPkg_lag (f : Package → Package) : (s.modPkg f).lag = s.lag := rfl
@[simp] theorem State.modPkg_ecc (f : Package → Package) : (s.modPkg f).ecc = s.ecc := rfl
@[simp] theorem State.modPkg_regEcc (f : Package → Package) : (s.modPkg f).regEcc = s.regEcc := rfl
@[simp] theorem State.modPkg_unresolved (f : Package → Package) : (s.modPkg f).unresolved = s.unresolved := rfl
@[simp] theorem State.modPkg_cuts (f : Package → Package) : (s.modPkg f).cuts = s.cuts := rfl
@[simp] theorem State.modPkg_keep (f : Package → Package) : (s.modPkg f).keep = s.keep := rfl
@[simp] theorem State.modPkg_old (f : Package → Package) : (s.modPkg f).old = s.old := rfl
@[simp] theorem State.modPkg_free (f : Package → Package) : (s.modPkg f).free = s.free := rfl
@[simp] theorem State.modPkg_nextId (f : Package → Package) : (s.modPkg f).nextId = s.nextId := rfl
@[simp] theorem State.modTeam_hart (t : Nat) (f : Team → Team) : (s.modTeam t f).hart = s.hart := rfl
@[simp] theorem State.modTeam_others (t : Nat) (f : Team → Team) : (s.modTeam t f).others = s.others := rfl
@[simp] theorem State.modTeam_teams (t : Nat) (f : Team → Team) : (s.modTeam t f).teams = s.teams.map fun x => if x.id = t then f x else x := rfl
@[simp] theorem State.modTeam_crews (t : Nat) (f : Team → Team) : (s.modTeam t f).crews = s.crews := rfl
@[simp] theorem State.modTeam_ctxs (t : Nat) (f : Team → Team) : (s.modTeam t f).ctxs = s.ctxs := rfl
@[simp] theorem State.modTeam_objs (t : Nat) (f : Team → Team) : (s.modTeam t f).objs = s.objs := rfl
@[simp] theorem State.modTeam_queues (t : Nat) (f : Team → Team) : (s.modTeam t f).queues = s.queues := rfl
@[simp] theorem State.modTeam_launches (t : Nat) (f : Team → Team) : (s.modTeam t f).launches = s.launches := rfl
@[simp] theorem State.modTeam_served (t : Nat) (f : Team → Team) : (s.modTeam t f).served = s.served := rfl
@[simp] theorem State.modTeam_pages (t : Nat) (f : Team → Team) : (s.modTeam t f).pages = s.pages := rfl
@[simp] theorem State.modTeam_recorders (t : Nat) (f : Team → Team) : (s.modTeam t f).recorders = s.recorders := rfl
@[simp] theorem State.modTeam_cache (t : Nat) (f : Team → Team) : (s.modTeam t f).cache = s.cache := rfl
@[simp] theorem State.modTeam_binds (t : Nat) (f : Team → Team) : (s.modTeam t f).binds = s.binds := rfl
@[simp] theorem State.modTeam_mem (t : Nat) (f : Team → Team) : (s.modTeam t f).mem = s.mem := rfl
@[simp] theorem State.modTeam_tags (t : Nat) (f : Team → Team) : (s.modTeam t f).tags = s.tags := rfl
@[simp] theorem State.modTeam_pois (t : Nat) (f : Team → Team) : (s.modTeam t f).pois = s.pois := rfl
@[simp] theorem State.modTeam_owner (t : Nat) (f : Team → Team) : (s.modTeam t f).owner = s.owner := rfl
@[simp] theorem State.modTeam_homes (t : Nat) (f : Team → Team) : (s.modTeam t f).homes = s.homes := rfl
@[simp] theorem State.modTeam_pkg (t : Nat) (f : Team → Team) : (s.modTeam t f).pkg = s.pkg := rfl
@[simp] theorem State.modTeam_events (t : Nat) (f : Team → Team) : (s.modTeam t f).events = s.events := rfl
@[simp] theorem State.modTeam_turn (t : Nat) (f : Team → Team) : (s.modTeam t f).turn = s.turn := rfl
@[simp] theorem State.modTeam_hold (t : Nat) (f : Team → Team) : (s.modTeam t f).hold = s.hold := rfl
@[simp] theorem State.modTeam_unfiled (t : Nat) (f : Team → Team) : (s.modTeam t f).unfiled = s.unfiled := rfl
@[simp] theorem State.modTeam_lag (t : Nat) (f : Team → Team) : (s.modTeam t f).lag = s.lag := rfl
@[simp] theorem State.modTeam_ecc (t : Nat) (f : Team → Team) : (s.modTeam t f).ecc = s.ecc := rfl
@[simp] theorem State.modTeam_regEcc (t : Nat) (f : Team → Team) : (s.modTeam t f).regEcc = s.regEcc := rfl
@[simp] theorem State.modTeam_unresolved (t : Nat) (f : Team → Team) : (s.modTeam t f).unresolved = s.unresolved := rfl
@[simp] theorem State.modTeam_cuts (t : Nat) (f : Team → Team) : (s.modTeam t f).cuts = s.cuts := rfl
@[simp] theorem State.modTeam_keep (t : Nat) (f : Team → Team) : (s.modTeam t f).keep = s.keep := rfl
@[simp] theorem State.modTeam_old (t : Nat) (f : Team → Team) : (s.modTeam t f).old = s.old := rfl
@[simp] theorem State.modTeam_free (t : Nat) (f : Team → Team) : (s.modTeam t f).free = s.free := rfl
@[simp] theorem State.modTeam_nextId (t : Nat) (f : Team → Team) : (s.modTeam t f).nextId = s.nextId := rfl
@[simp] theorem State.modCtx_hart (n : Nat) (f : Ctx → Ctx) : (s.modCtx n f).hart = s.hart := rfl
@[simp] theorem State.modCtx_others (n : Nat) (f : Ctx → Ctx) : (s.modCtx n f).others = s.others := rfl
@[simp] theorem State.modCtx_teams (n : Nat) (f : Ctx → Ctx) : (s.modCtx n f).teams = s.teams := rfl
@[simp] theorem State.modCtx_crews (n : Nat) (f : Ctx → Ctx) : (s.modCtx n f).crews = s.crews := rfl
@[simp] theorem State.modCtx_ctxs (n : Nat) (f : Ctx → Ctx) : (s.modCtx n f).ctxs = s.ctxs.map fun c => if c.num = n then f c else c := rfl
@[simp] theorem State.modCtx_objs (n : Nat) (f : Ctx → Ctx) : (s.modCtx n f).objs = s.objs := rfl
@[simp] theorem State.modCtx_queues (n : Nat) (f : Ctx → Ctx) : (s.modCtx n f).queues = s.queues := rfl
@[simp] theorem State.modCtx_launches (n : Nat) (f : Ctx → Ctx) : (s.modCtx n f).launches = s.launches := rfl
@[simp] theorem State.modCtx_served (n : Nat) (f : Ctx → Ctx) : (s.modCtx n f).served = s.served := rfl
@[simp] theorem State.modCtx_pages (n : Nat) (f : Ctx → Ctx) : (s.modCtx n f).pages = s.pages := rfl
@[simp] theorem State.modCtx_recorders (n : Nat) (f : Ctx → Ctx) : (s.modCtx n f).recorders = s.recorders := rfl
@[simp] theorem State.modCtx_cache (n : Nat) (f : Ctx → Ctx) : (s.modCtx n f).cache = s.cache := rfl
@[simp] theorem State.modCtx_binds (n : Nat) (f : Ctx → Ctx) : (s.modCtx n f).binds = s.binds := rfl
@[simp] theorem State.modCtx_mem (n : Nat) (f : Ctx → Ctx) : (s.modCtx n f).mem = s.mem := rfl
@[simp] theorem State.modCtx_tags (n : Nat) (f : Ctx → Ctx) : (s.modCtx n f).tags = s.tags := rfl
@[simp] theorem State.modCtx_pois (n : Nat) (f : Ctx → Ctx) : (s.modCtx n f).pois = s.pois := rfl
@[simp] theorem State.modCtx_owner (n : Nat) (f : Ctx → Ctx) : (s.modCtx n f).owner = s.owner := rfl
@[simp] theorem State.modCtx_homes (n : Nat) (f : Ctx → Ctx) : (s.modCtx n f).homes = s.homes := rfl
@[simp] theorem State.modCtx_pkg (n : Nat) (f : Ctx → Ctx) : (s.modCtx n f).pkg = s.pkg := rfl
@[simp] theorem State.modCtx_events (n : Nat) (f : Ctx → Ctx) : (s.modCtx n f).events = s.events := rfl
@[simp] theorem State.modCtx_turn (n : Nat) (f : Ctx → Ctx) : (s.modCtx n f).turn = s.turn := rfl
@[simp] theorem State.modCtx_hold (n : Nat) (f : Ctx → Ctx) : (s.modCtx n f).hold = s.hold := rfl
@[simp] theorem State.modCtx_unfiled (n : Nat) (f : Ctx → Ctx) : (s.modCtx n f).unfiled = s.unfiled := rfl
@[simp] theorem State.modCtx_lag (n : Nat) (f : Ctx → Ctx) : (s.modCtx n f).lag = s.lag := rfl
@[simp] theorem State.modCtx_ecc (n : Nat) (f : Ctx → Ctx) : (s.modCtx n f).ecc = s.ecc := rfl
@[simp] theorem State.modCtx_regEcc (n : Nat) (f : Ctx → Ctx) : (s.modCtx n f).regEcc = s.regEcc := rfl
@[simp] theorem State.modCtx_unresolved (n : Nat) (f : Ctx → Ctx) : (s.modCtx n f).unresolved = s.unresolved := rfl
@[simp] theorem State.modCtx_cuts (n : Nat) (f : Ctx → Ctx) : (s.modCtx n f).cuts = s.cuts := rfl
@[simp] theorem State.modCtx_keep (n : Nat) (f : Ctx → Ctx) : (s.modCtx n f).keep = s.keep := rfl
@[simp] theorem State.modCtx_old (n : Nat) (f : Ctx → Ctx) : (s.modCtx n f).old = s.old := rfl
@[simp] theorem State.modCtx_free (n : Nat) (f : Ctx → Ctx) : (s.modCtx n f).free = s.free := rfl
@[simp] theorem State.modCtx_nextId (n : Nat) (f : Ctx → Ctx) : (s.modCtx n f).nextId = s.nextId := rfl
@[simp] theorem State.setG_hart (i : GReg) (v : Word) : (s.setG i v).hart = { s.hart with regs := s.hart.regs.setG i v } := rfl
@[simp] theorem State.setG_others (i : GReg) (v : Word) : (s.setG i v).others = s.others := rfl
@[simp] theorem State.setG_teams (i : GReg) (v : Word) : (s.setG i v).teams = s.teams := rfl
@[simp] theorem State.setG_crews (i : GReg) (v : Word) : (s.setG i v).crews = s.crews := rfl
@[simp] theorem State.setG_ctxs (i : GReg) (v : Word) : (s.setG i v).ctxs = s.ctxs := rfl
@[simp] theorem State.setG_objs (i : GReg) (v : Word) : (s.setG i v).objs = s.objs := rfl
@[simp] theorem State.setG_queues (i : GReg) (v : Word) : (s.setG i v).queues = s.queues := rfl
@[simp] theorem State.setG_launches (i : GReg) (v : Word) : (s.setG i v).launches = s.launches := rfl
@[simp] theorem State.setG_served (i : GReg) (v : Word) : (s.setG i v).served = s.served := rfl
@[simp] theorem State.setG_pages (i : GReg) (v : Word) : (s.setG i v).pages = s.pages := rfl
@[simp] theorem State.setG_recorders (i : GReg) (v : Word) : (s.setG i v).recorders = s.recorders := rfl
@[simp] theorem State.setG_cache (i : GReg) (v : Word) : (s.setG i v).cache = s.cache := rfl
@[simp] theorem State.setG_binds (i : GReg) (v : Word) : (s.setG i v).binds = s.binds := rfl
@[simp] theorem State.setG_mem (i : GReg) (v : Word) : (s.setG i v).mem = s.mem := rfl
@[simp] theorem State.setG_tags (i : GReg) (v : Word) : (s.setG i v).tags = s.tags := rfl
@[simp] theorem State.setG_pois (i : GReg) (v : Word) : (s.setG i v).pois = s.pois := rfl
@[simp] theorem State.setG_owner (i : GReg) (v : Word) : (s.setG i v).owner = s.owner := rfl
@[simp] theorem State.setG_homes (i : GReg) (v : Word) : (s.setG i v).homes = s.homes := rfl
@[simp] theorem State.setG_pkg (i : GReg) (v : Word) : (s.setG i v).pkg = s.pkg := rfl
@[simp] theorem State.setG_events (i : GReg) (v : Word) : (s.setG i v).events = s.events := rfl
@[simp] theorem State.setG_turn (i : GReg) (v : Word) : (s.setG i v).turn = s.turn := rfl
@[simp] theorem State.setG_hold (i : GReg) (v : Word) : (s.setG i v).hold = s.hold := rfl
@[simp] theorem State.setG_unfiled (i : GReg) (v : Word) : (s.setG i v).unfiled = s.unfiled := rfl
@[simp] theorem State.setG_lag (i : GReg) (v : Word) : (s.setG i v).lag = s.lag := rfl
@[simp] theorem State.setG_ecc (i : GReg) (v : Word) : (s.setG i v).ecc = s.ecc := rfl
@[simp] theorem State.setG_regEcc (i : GReg) (v : Word) : (s.setG i v).regEcc = s.regEcc := rfl
@[simp] theorem State.setG_unresolved (i : GReg) (v : Word) : (s.setG i v).unresolved = s.unresolved := rfl
@[simp] theorem State.setG_cuts (i : GReg) (v : Word) : (s.setG i v).cuts = s.cuts := rfl
@[simp] theorem State.setG_keep (i : GReg) (v : Word) : (s.setG i v).keep = s.keep := rfl
@[simp] theorem State.setG_old (i : GReg) (v : Word) : (s.setG i v).old = s.old := rfl
@[simp] theorem State.setG_free (i : GReg) (v : Word) : (s.setG i v).free = s.free := rfl
@[simp] theorem State.setG_nextId (i : GReg) (v : Word) : (s.setG i v).nextId = s.nextId := rfl
@[simp] theorem State.wakeLines_teams (p : Place) (n : Nat) : (s.wakeLines p n).teams = s.teams := rfl
@[simp] theorem State.wakeLines_crews (p : Place) (n : Nat) : (s.wakeLines p n).crews = s.crews := rfl
@[simp] theorem State.wakeLines_ctxs (p : Place) (n : Nat) : (s.wakeLines p n).ctxs = s.ctxs := rfl
@[simp] theorem State.wakeLines_objs (p : Place) (n : Nat) : (s.wakeLines p n).objs = s.objs := rfl
@[simp] theorem State.wakeLines_queues (p : Place) (n : Nat) : (s.wakeLines p n).queues = s.queues := rfl
@[simp] theorem State.wakeLines_launches (p : Place) (n : Nat) : (s.wakeLines p n).launches = s.launches := rfl
@[simp] theorem State.wakeLines_served (p : Place) (n : Nat) : (s.wakeLines p n).served = s.served := rfl
@[simp] theorem State.wakeLines_pages (p : Place) (n : Nat) : (s.wakeLines p n).pages = s.pages := rfl
@[simp] theorem State.wakeLines_recorders (p : Place) (n : Nat) : (s.wakeLines p n).recorders = s.recorders := rfl
@[simp] theorem State.wakeLines_cache (p : Place) (n : Nat) : (s.wakeLines p n).cache = s.cache := rfl
@[simp] theorem State.wakeLines_binds (p : Place) (n : Nat) : (s.wakeLines p n).binds = s.binds := rfl
@[simp] theorem State.wakeLines_mem (p : Place) (n : Nat) : (s.wakeLines p n).mem = s.mem := rfl
@[simp] theorem State.wakeLines_tags (p : Place) (n : Nat) : (s.wakeLines p n).tags = s.tags := rfl
@[simp] theorem State.wakeLines_pois (p : Place) (n : Nat) : (s.wakeLines p n).pois = s.pois := rfl
@[simp] theorem State.wakeLines_owner (p : Place) (n : Nat) : (s.wakeLines p n).owner = s.owner := rfl
@[simp] theorem State.wakeLines_homes (p : Place) (n : Nat) : (s.wakeLines p n).homes = s.homes := rfl
@[simp] theorem State.wakeLines_pkg (p : Place) (n : Nat) : (s.wakeLines p n).pkg = s.pkg := rfl
@[simp] theorem State.wakeLines_events (p : Place) (n : Nat) : (s.wakeLines p n).events = s.events := rfl
@[simp] theorem State.wakeLines_turn (p : Place) (n : Nat) : (s.wakeLines p n).turn = s.turn := rfl
@[simp] theorem State.wakeLines_hold (p : Place) (n : Nat) : (s.wakeLines p n).hold = s.hold := rfl
@[simp] theorem State.wakeLines_unfiled (p : Place) (n : Nat) : (s.wakeLines p n).unfiled = s.unfiled := rfl
@[simp] theorem State.wakeLines_lag (p : Place) (n : Nat) : (s.wakeLines p n).lag = s.lag := rfl
@[simp] theorem State.wakeLines_ecc (p : Place) (n : Nat) : (s.wakeLines p n).ecc = s.ecc := rfl
@[simp] theorem State.wakeLines_regEcc (p : Place) (n : Nat) : (s.wakeLines p n).regEcc = s.regEcc := rfl
@[simp] theorem State.wakeLines_unresolved (p : Place) (n : Nat) : (s.wakeLines p n).unresolved = s.unresolved := rfl
@[simp] theorem State.wakeLines_cuts (p : Place) (n : Nat) : (s.wakeLines p n).cuts = s.cuts := rfl
@[simp] theorem State.wakeLines_keep (p : Place) (n : Nat) : (s.wakeLines p n).keep = s.keep := rfl
@[simp] theorem State.wakeLines_old (p : Place) (n : Nat) : (s.wakeLines p n).old = s.old := rfl
@[simp] theorem State.wakeLines_free (p : Place) (n : Nat) : (s.wakeLines p n).free = s.free := rfl
@[simp] theorem State.wakeLines_nextId (p : Place) (n : Nat) : (s.wakeLines p n).nextId = s.nextId := rfl
@[simp] theorem State.setMemBit_teams (owner a b : Nat) : (s.setMemBit owner a b).teams = s.teams := rfl
@[simp] theorem State.setMemBit_crews (owner a b : Nat) : (s.setMemBit owner a b).crews = s.crews := rfl
@[simp] theorem State.setMemBit_ctxs (owner a b : Nat) : (s.setMemBit owner a b).ctxs = s.ctxs := rfl
@[simp] theorem State.setMemBit_objs (owner a b : Nat) : (s.setMemBit owner a b).objs = s.objs := rfl
@[simp] theorem State.setMemBit_queues (owner a b : Nat) : (s.setMemBit owner a b).queues = s.queues := rfl
@[simp] theorem State.setMemBit_launches (owner a b : Nat) : (s.setMemBit owner a b).launches = s.launches := rfl
@[simp] theorem State.setMemBit_served (owner a b : Nat) : (s.setMemBit owner a b).served = s.served := rfl
@[simp] theorem State.setMemBit_pages (owner a b : Nat) : (s.setMemBit owner a b).pages = s.pages := rfl
@[simp] theorem State.setMemBit_recorders (owner a b : Nat) : (s.setMemBit owner a b).recorders = s.recorders := rfl
@[simp] theorem State.setMemBit_cache (owner a b : Nat) : (s.setMemBit owner a b).cache = s.cache := rfl
@[simp] theorem State.setMemBit_binds (owner a b : Nat) : (s.setMemBit owner a b).binds = s.binds := rfl
@[simp] theorem State.setMemBit_mem (owner a b : Nat) : (s.setMemBit owner a b).mem = Memory.write s.mem a (Memory.read s.mem a ||| BitVec.ofNat 8 (2 ^ b)) := rfl
@[simp] theorem State.setMemBit_tags (owner a b : Nat) : (s.setMemBit owner a b).tags = Sparse.put clearBit s.tags (a / 8) false := rfl
@[simp] theorem State.setMemBit_pois (owner a b : Nat) : (s.setMemBit owner a b).pois = s.pois := rfl
@[simp] theorem State.setMemBit_owner (owner a b : Nat) : (s.setMemBit owner a b).owner = setOwners s.owner (a / 256) owner 1 := rfl
@[simp] theorem State.setMemBit_homes (owner a b : Nat) : (s.setMemBit owner a b).homes = s.homes := rfl
@[simp] theorem State.setMemBit_pkg (owner a b : Nat) : (s.setMemBit owner a b).pkg = s.pkg := rfl
@[simp] theorem State.setMemBit_events (owner a b : Nat) : (s.setMemBit owner a b).events = s.events := rfl
@[simp] theorem State.setMemBit_turn (owner a b : Nat) : (s.setMemBit owner a b).turn = s.turn := rfl
@[simp] theorem State.setMemBit_hold (owner a b : Nat) : (s.setMemBit owner a b).hold = s.hold := rfl
@[simp] theorem State.setMemBit_unfiled (owner a b : Nat) : (s.setMemBit owner a b).unfiled = s.unfiled := rfl
@[simp] theorem State.setMemBit_lag (owner a b : Nat) : (s.setMemBit owner a b).lag = s.lag := rfl
@[simp] theorem State.setMemBit_ecc (owner a b : Nat) : (s.setMemBit owner a b).ecc = s.ecc := rfl
@[simp] theorem State.setMemBit_regEcc (owner a b : Nat) : (s.setMemBit owner a b).regEcc = s.regEcc := rfl
@[simp] theorem State.setMemBit_unresolved (owner a b : Nat) : (s.setMemBit owner a b).unresolved = s.unresolved := rfl
@[simp] theorem State.setMemBit_cuts (owner a b : Nat) : (s.setMemBit owner a b).cuts = s.cuts := rfl
@[simp] theorem State.setMemBit_keep (owner a b : Nat) : (s.setMemBit owner a b).keep = s.keep := rfl
@[simp] theorem State.setMemBit_old (owner a b : Nat) : (s.setMemBit owner a b).old = s.old := rfl
@[simp] theorem State.setMemBit_free (owner a b : Nat) : (s.setMemBit owner a b).free = s.free := rfl
@[simp] theorem State.setMemBit_nextId (owner a b : Nat) : (s.setMemBit owner a b).nextId = s.nextId := rfl
@[simp] theorem State.draw_hart : (s.draw.1).hart = s.hart := rfl
@[simp] theorem State.draw_others : (s.draw.1).others = s.others := rfl
@[simp] theorem State.draw_teams : (s.draw.1).teams = s.teams := rfl
@[simp] theorem State.draw_crews : (s.draw.1).crews = s.crews := rfl
@[simp] theorem State.draw_ctxs : (s.draw.1).ctxs = s.ctxs := rfl
@[simp] theorem State.draw_objs : (s.draw.1).objs = s.objs := rfl
@[simp] theorem State.draw_queues : (s.draw.1).queues = s.queues := rfl
@[simp] theorem State.draw_launches : (s.draw.1).launches = s.launches := rfl
@[simp] theorem State.draw_served : (s.draw.1).served = s.served := rfl
@[simp] theorem State.draw_pages : (s.draw.1).pages = s.pages := rfl
@[simp] theorem State.draw_recorders : (s.draw.1).recorders = s.recorders := rfl
@[simp] theorem State.draw_cache : (s.draw.1).cache = s.cache := rfl
@[simp] theorem State.draw_binds : (s.draw.1).binds = s.binds := rfl
@[simp] theorem State.draw_mem : (s.draw.1).mem = s.mem := rfl
@[simp] theorem State.draw_tags : (s.draw.1).tags = s.tags := rfl
@[simp] theorem State.draw_pois : (s.draw.1).pois = s.pois := rfl
@[simp] theorem State.draw_owner : (s.draw.1).owner = s.owner := rfl
@[simp] theorem State.draw_homes : (s.draw.1).homes = s.homes := rfl
@[simp] theorem State.draw_pkg : (s.draw.1).pkg = s.pkg := rfl
@[simp] theorem State.draw_events : (s.draw.1).events = s.events := rfl
@[simp] theorem State.draw_turn : (s.draw.1).turn = s.turn := rfl
@[simp] theorem State.draw_hold : (s.draw.1).hold = s.hold := rfl
@[simp] theorem State.draw_unfiled : (s.draw.1).unfiled = s.unfiled := rfl
@[simp] theorem State.draw_lag : (s.draw.1).lag = s.lag := rfl
@[simp] theorem State.draw_ecc : (s.draw.1).ecc = s.ecc := rfl
@[simp] theorem State.draw_regEcc : (s.draw.1).regEcc = s.regEcc := rfl
@[simp] theorem State.draw_unresolved : (s.draw.1).unresolved = s.unresolved := rfl
@[simp] theorem State.draw_cuts : (s.draw.1).cuts = s.cuts := rfl
@[simp] theorem State.draw_keep : (s.draw.1).keep = s.keep := rfl
@[simp] theorem State.draw_old : (s.draw.1).old = s.old := rfl
@[simp] theorem State.draw_free : (s.draw.1).free = s.free + 1 := rfl
@[simp] theorem State.draw_nextId : (s.draw.1).nextId = s.nextId := rfl
@[simp] theorem State.goto_hart (t : Word) : (s.goto t).hart = { s.hart with pc := t, elix := 0, convoy := [], member := 0, m15only := false, waiting := .none } := rfl
@[simp] theorem State.goto_others (t : Word) : (s.goto t).others = s.others := rfl
@[simp] theorem State.goto_teams (t : Word) : (s.goto t).teams = s.teams := rfl
@[simp] theorem State.goto_crews (t : Word) : (s.goto t).crews = s.crews := rfl
@[simp] theorem State.goto_ctxs (t : Word) : (s.goto t).ctxs = s.ctxs := rfl
@[simp] theorem State.goto_objs (t : Word) : (s.goto t).objs = s.objs := rfl
@[simp] theorem State.goto_queues (t : Word) : (s.goto t).queues = s.queues := rfl
@[simp] theorem State.goto_launches (t : Word) : (s.goto t).launches = s.launches := rfl
@[simp] theorem State.goto_served (t : Word) : (s.goto t).served = s.served := rfl
@[simp] theorem State.goto_pages (t : Word) : (s.goto t).pages = s.pages := rfl
@[simp] theorem State.goto_recorders (t : Word) : (s.goto t).recorders = s.recorders := rfl
@[simp] theorem State.goto_cache (t : Word) : (s.goto t).cache = s.cache := rfl
@[simp] theorem State.goto_binds (t : Word) : (s.goto t).binds = s.binds := rfl
@[simp] theorem State.goto_mem (t : Word) : (s.goto t).mem = s.mem := rfl
@[simp] theorem State.goto_tags (t : Word) : (s.goto t).tags = s.tags := rfl
@[simp] theorem State.goto_pois (t : Word) : (s.goto t).pois = s.pois := rfl
@[simp] theorem State.goto_owner (t : Word) : (s.goto t).owner = s.owner := rfl
@[simp] theorem State.goto_homes (t : Word) : (s.goto t).homes = s.homes := rfl
@[simp] theorem State.goto_pkg (t : Word) : (s.goto t).pkg = s.pkg := rfl
@[simp] theorem State.goto_events (t : Word) : (s.goto t).events = s.events := rfl
@[simp] theorem State.goto_turn (t : Word) : (s.goto t).turn = s.turn := rfl
@[simp] theorem State.goto_hold (t : Word) : (s.goto t).hold = s.hold := rfl
@[simp] theorem State.goto_unfiled (t : Word) : (s.goto t).unfiled = s.unfiled := rfl
@[simp] theorem State.goto_lag (t : Word) : (s.goto t).lag = s.lag := rfl
@[simp] theorem State.goto_ecc (t : Word) : (s.goto t).ecc = s.ecc := rfl
@[simp] theorem State.goto_regEcc (t : Word) : (s.goto t).regEcc = s.regEcc := rfl
@[simp] theorem State.goto_unresolved (t : Word) : (s.goto t).unresolved = s.unresolved := rfl
@[simp] theorem State.goto_cuts (t : Word) : (s.goto t).cuts = s.cuts := rfl
@[simp] theorem State.goto_keep (t : Word) : (s.goto t).keep = s.keep := rfl
@[simp] theorem State.goto_old (t : Word) : (s.goto t).old = s.old := rfl
@[simp] theorem State.goto_free (t : Word) : (s.goto t).free = s.free := rfl
@[simp] theorem State.goto_nextId (t : Word) : (s.goto t).nextId = s.nextId := rfl
@[simp] theorem State.retire_others (e : Bool) : (s.retire e).others = s.others := by unfold State.retire; split <;> rfl
@[simp] theorem State.retire_teams (e : Bool) : (s.retire e).teams = s.teams := by unfold State.retire; split <;> rfl
@[simp] theorem State.retire_crews (e : Bool) : (s.retire e).crews = s.crews := by unfold State.retire; split <;> rfl
@[simp] theorem State.retire_ctxs (e : Bool) : (s.retire e).ctxs = s.ctxs := by unfold State.retire; split <;> rfl
@[simp] theorem State.retire_objs (e : Bool) : (s.retire e).objs = s.objs := by unfold State.retire; split <;> rfl
@[simp] theorem State.retire_queues (e : Bool) : (s.retire e).queues = s.queues := by unfold State.retire; split <;> rfl
@[simp] theorem State.retire_launches (e : Bool) : (s.retire e).launches = s.launches := by unfold State.retire; split <;> rfl
@[simp] theorem State.retire_served (e : Bool) : (s.retire e).served = s.served := by unfold State.retire; split <;> rfl
@[simp] theorem State.retire_pages (e : Bool) : (s.retire e).pages = s.pages := by unfold State.retire; split <;> rfl
@[simp] theorem State.retire_recorders (e : Bool) : (s.retire e).recorders = s.recorders := by unfold State.retire; split <;> rfl
@[simp] theorem State.retire_cache (e : Bool) : (s.retire e).cache = s.cache := by unfold State.retire; split <;> rfl
@[simp] theorem State.retire_binds (e : Bool) : (s.retire e).binds = s.binds := by unfold State.retire; split <;> rfl
@[simp] theorem State.retire_mem (e : Bool) : (s.retire e).mem = s.mem := by unfold State.retire; split <;> rfl
@[simp] theorem State.retire_tags (e : Bool) : (s.retire e).tags = s.tags := by unfold State.retire; split <;> rfl
@[simp] theorem State.retire_pois (e : Bool) : (s.retire e).pois = s.pois := by unfold State.retire; split <;> rfl
@[simp] theorem State.retire_owner (e : Bool) : (s.retire e).owner = s.owner := by unfold State.retire; split <;> rfl
@[simp] theorem State.retire_homes (e : Bool) : (s.retire e).homes = s.homes := by unfold State.retire; split <;> rfl
@[simp] theorem State.retire_pkg (e : Bool) : (s.retire e).pkg = s.pkg := by unfold State.retire; split <;> rfl
@[simp] theorem State.retire_events (e : Bool) : (s.retire e).events = s.events := by unfold State.retire; split <;> rfl
@[simp] theorem State.retire_turn (e : Bool) : (s.retire e).turn = s.turn := by unfold State.retire; split <;> rfl
@[simp] theorem State.retire_hold (e : Bool) : (s.retire e).hold = s.hold := by unfold State.retire; split <;> rfl
@[simp] theorem State.retire_unfiled (e : Bool) : (s.retire e).unfiled = s.unfiled := by unfold State.retire; split <;> rfl
@[simp] theorem State.retire_lag (e : Bool) : (s.retire e).lag = s.lag := by unfold State.retire; split <;> rfl
@[simp] theorem State.retire_ecc (e : Bool) : (s.retire e).ecc = s.ecc := by unfold State.retire; split <;> rfl
@[simp] theorem State.retire_regEcc (e : Bool) : (s.retire e).regEcc = s.regEcc := by unfold State.retire; split <;> rfl
@[simp] theorem State.retire_unresolved (e : Bool) : (s.retire e).unresolved = s.unresolved := by unfold State.retire; split <;> rfl
@[simp] theorem State.retire_cuts (e : Bool) : (s.retire e).cuts = s.cuts := by unfold State.retire; split <;> rfl
@[simp] theorem State.retire_keep (e : Bool) : (s.retire e).keep = s.keep := by unfold State.retire; split <;> rfl
@[simp] theorem State.retire_old (e : Bool) : (s.retire e).old = s.old := by unfold State.retire; split <;> rfl
@[simp] theorem State.retire_free (e : Bool) : (s.retire e).free = s.free := by unfold State.retire; split <;> rfl
@[simp] theorem State.retire_nextId (e : Bool) : (s.retire e).nextId = s.nextId := by unfold State.retire; split <;> rfl
@[simp] theorem State.retire_hart_id (e : Bool) : ((s.retire e).hart).id = s.hart.id := by unfold State.retire; split <;> rfl
@[simp] theorem State.retire_hart_elix (e : Bool) : ((s.retire e).hart).elix = 0 := by unfold State.retire; split <;> rfl
@[simp] theorem State.retire_hart_head (e : Bool) : ((s.retire e).hart).head = s.hart.head := by unfold State.retire; split <;> rfl
@[simp] theorem State.retire_hart_convoyAt (e : Bool) : ((s.retire e).hart).convoyAt = s.hart.convoyAt := by unfold State.retire; split <;> rfl
@[simp] theorem State.retire_hart_priorAt (e : Bool) : ((s.retire e).hart).priorAt = s.hart.priorAt := by unfold State.retire; split <;> rfl
@[simp] theorem State.retire_hart_headAstat (e : Bool) : ((s.retire e).hart).headAstat = s.hart.headAstat := by unfold State.retire; split <;> rfl
@[simp] theorem State.retire_hart_headSphw (e : Bool) : ((s.retire e).hart).headSphw = s.hart.headSphw := by unfold State.retire; split <;> rfl
@[simp] theorem State.retire_hart_xrd (e : Bool) : ((s.retire e).hart).xrd = s.hart.xrd := by unfold State.retire; split <;> rfl
@[simp] theorem State.retire_hart_grd (e : Bool) : ((s.retire e).hart).grd = s.hart.grd := by unfold State.retire; split <;> rfl
@[simp] theorem State.retire_hart_tcause (e : Bool) : ((s.retire e).hart).tcause = s.hart.tcause := by unfold State.retire; split <;> rfl
@[simp] theorem State.retire_hart_tpc (e : Bool) : ((s.retire e).hart).tpc = s.hart.tpc := by unfold State.retire; split <;> rfl
@[simp] theorem State.retire_hart_telix (e : Bool) : ((s.retire e).hart).telix = s.hart.telix := by unfold State.retire; split <;> rfl
@[simp] theorem State.retire_hart_tval (e : Bool) : ((s.retire e).hart).tval = s.hart.tval := by unfold State.retire; split <;> rfl
@[simp] theorem State.retire_hart_tvec (e : Bool) : ((s.retire e).hart).tvec = s.hart.tvec := by unfold State.retire; split <;> rfl
@[simp] theorem State.retire_hart_tscr (e : Bool) : ((s.retire e).hart).tscr = s.hart.tscr := by unfold State.retire; split <;> rfl
@[simp] theorem State.retire_hart_hartcrd (e : Bool) : ((s.retire e).hart).hartcrd = s.hart.hartcrd := by unfold State.retire; split <;> rfl
@[simp] theorem State.retire_hart_ctx (e : Bool) : ((s.retire e).hart).ctx = s.hart.ctx := by unfold State.retire; split <;> rfl
@[simp] theorem State.retire_hart_rseed (e : Bool) : ((s.retire e).hart).rseed = s.hart.rseed := by unfold State.retire; split <;> rfl
@[simp] theorem State.retire_hart_spbase (e : Bool) : ((s.retire e).hart).spbase = s.hart.spbase := by unfold State.retire; split <;> rfl
@[simp] theorem State.retire_hart_splane0 (e : Bool) : ((s.retire e).hart).splane0 = s.hart.splane0 := by unfold State.retire; split <;> rfl
@[simp] theorem State.retire_hart_splane1 (e : Bool) : ((s.retire e).hart).splane1 = s.hart.splane1 := by unfold State.retire; split <;> rfl
@[simp] theorem State.retire_hart_splane2 (e : Bool) : ((s.retire e).hart).splane2 = s.hart.splane2 := by unfold State.retire; split <;> rfl
@[simp] theorem State.retire_hart_splane3 (e : Bool) : ((s.retire e).hart).splane3 = s.hart.splane3 := by unfold State.retire; split <;> rfl
@[simp] theorem State.retire_hart_rows (e : Bool) : ((s.retire e).hart).rows = s.hart.rows := by unfold State.retire; split <;> rfl
@[simp] theorem State.retire_hart_m15only (e : Bool) : ((s.retire e).hart).m15only = false := by unfold State.retire; split <;> rfl
@[simp] theorem State.retire_hart_issued (e : Bool) : ((s.retire e).hart).issued = s.hart.issued.filter fun x => x.supervisor != s.hart.regs.supervisor := by unfold State.retire; split <;> rfl
@[simp] theorem State.retire_hart_cut (e : Bool) : ((s.retire e).hart).cut = none := by unfold State.retire; split <;> rfl
@[simp] theorem State.retire_hart_late (e : Bool) : ((s.retire e).hart).late = s.hart.late := by unfold State.retire; split <;> rfl
@[simp] theorem State.retire_hart_walk (e : Bool) : ((s.retire e).hart).walk = none := by unfold State.retire; split <;> rfl
@[simp] theorem State.retire_hart_region (e : Bool) : ((s.retire e).hart).region = s.hart.region := by unfold State.retire; split <;> rfl
@[simp] theorem State.retire_hart_caddy (e : Bool) : ((s.retire e).hart).caddy = s.hart.caddy := by unfold State.retire; split <;> rfl
@[simp] theorem State.retire_hart_stores (e : Bool) : ((s.retire e).hart).stores = s.hart.stores := by unfold State.retire; split <;> rfl
@[simp] theorem State.retire_hart_gathers (e : Bool) : ((s.retire e).hart).gathers = s.hart.gathers := by unfold State.retire; split <;> rfl
@[simp] theorem State.retire_hart_matrix (e : Bool) : ((s.retire e).hart).matrix = s.hart.matrix := by unfold State.retire; split <;> rfl
@[simp] theorem State.retire_hart_copies (e : Bool) : ((s.retire e).hart).copies = s.hart.copies := by unfold State.retire; split <;> rfl
@[simp] theorem State.retire_hart_colls (e : Bool) : ((s.retire e).hart).colls = s.hart.colls := by unfold State.retire; split <;> rfl
@[simp] theorem State.retire_hart_pend (e : Bool) : ((s.retire e).hart).pend = s.hart.pend := by unfold State.retire; split <;> rfl
@[simp] theorem State.retire_hart_sx (e : Bool) : ((s.retire e).hart).sx = s.hart.sx := by unfold State.retire; split <;> rfl
@[simp] theorem State.retire_hart_session (e : Bool) : ((s.retire e).hart).session = s.hart.session := by unfold State.retire; split <;> rfl
@[simp] theorem State.retire_hart_watch (e : Bool) : ((s.retire e).hart).watch = s.hart.watch := by unfold State.retire; split <;> rfl
@[simp] theorem State.retire_hart_waiting (e : Bool) : ((s.retire e).hart).waiting = .none := by unfold State.retire; split <;> rfl
@[simp] theorem State.retire_hart_run (e : Bool) : ((s.retire e).hart).run = s.hart.run := by unfold State.retire; split <;> rfl
@[simp] theorem State.retire_hart_arrived (e : Bool) : ((s.retire e).hart).arrived = s.hart.arrived := by unfold State.retire; split <;> rfl
@[simp] theorem State.retire_hart_arrivedGen (e : Bool) : ((s.retire e).hart).arrivedGen = s.hart.arrivedGen := by unfold State.retire; split <;> rfl
@[simp] theorem State.retire_hart_breakDue (e : Bool) : ((s.retire e).hart).breakDue = s.hart.breakDue := by unfold State.retire; split <;> rfl
@[simp] theorem State.retire_hart_sample (e : Bool) : ((s.retire e).hart).sample = s.hart.sample := by unfold State.retire; split <;> rfl
@[simp] theorem State.retire_hart_crew (e : Bool) : ((s.retire e).hart).crew = s.hart.crew := by unfold State.retire; split <;> rfl
@[simp] theorem State.retire_hart_slot (e : Bool) : ((s.retire e).hart).slot = s.hart.slot := by unfold State.retire; split <;> rfl
@[simp] theorem State.retire_hart_hidx (e : Bool) : ((s.retire e).hart).hidx = s.hart.hidx := by unfold State.retire; split <;> rfl
@[simp] theorem State.retire_hart_frame (e : Bool) : ((s.retire e).hart).frame = s.hart.frame := by unfold State.retire; split <;> rfl
@[simp] theorem State.retire_hart_trap (e : Bool) : ((s.retire e).hart).trap = s.hart.trap := by unfold State.retire; split <;> rfl
@[simp] theorem State.retire_hart_serves (e : Bool) : ((s.retire e).hart).serves = s.hart.serves := by unfold State.retire; split <;> rfl
@[simp] theorem State.retire_hart_pageFailed (e : Bool) : ((s.retire e).hart).pageFailed = s.hart.pageFailed := by unfold State.retire; split <;> rfl
@[simp] theorem State.retire_hart_padSaved (e : Bool) : ((s.retire e).hart).padSaved = s.hart.padSaved := by unfold State.retire; split <;> rfl
@[simp] theorem State.retire_hart_stood (e : Bool) : ((s.retire e).hart).stood = s.hart.stood := by unfold State.retire; split <;> rfl
@[simp] theorem State.retire_hart_frameOut (e : Bool) : ((s.retire e).hart).frameOut = s.hart.frameOut := by unfold State.retire; split <;> rfl
@[simp] theorem State.enterHandler_others (t : Trap) : (s.enterHandler t).others = s.others := rfl
@[simp] theorem State.enterHandler_teams (t : Trap) : (s.enterHandler t).teams = s.teams := rfl
@[simp] theorem State.enterHandler_crews (t : Trap) : (s.enterHandler t).crews = s.crews := rfl
@[simp] theorem State.enterHandler_ctxs (t : Trap) : (s.enterHandler t).ctxs = s.ctxs := rfl
@[simp] theorem State.enterHandler_objs (t : Trap) : (s.enterHandler t).objs = s.objs := rfl
@[simp] theorem State.enterHandler_queues (t : Trap) : (s.enterHandler t).queues = s.queues := rfl
@[simp] theorem State.enterHandler_launches (t : Trap) : (s.enterHandler t).launches = s.launches := rfl
@[simp] theorem State.enterHandler_served (t : Trap) : (s.enterHandler t).served = s.served := rfl
@[simp] theorem State.enterHandler_pages (t : Trap) : (s.enterHandler t).pages = s.pages := rfl
@[simp] theorem State.enterHandler_recorders (t : Trap) : (s.enterHandler t).recorders = s.recorders := rfl
@[simp] theorem State.enterHandler_cache (t : Trap) : (s.enterHandler t).cache = s.cache := rfl
@[simp] theorem State.enterHandler_binds (t : Trap) : (s.enterHandler t).binds = s.binds := rfl
@[simp] theorem State.enterHandler_mem (t : Trap) : (s.enterHandler t).mem = s.mem := rfl
@[simp] theorem State.enterHandler_tags (t : Trap) : (s.enterHandler t).tags = s.tags := rfl
@[simp] theorem State.enterHandler_pois (t : Trap) : (s.enterHandler t).pois = s.pois := rfl
@[simp] theorem State.enterHandler_owner (t : Trap) : (s.enterHandler t).owner = s.owner := rfl
@[simp] theorem State.enterHandler_homes (t : Trap) : (s.enterHandler t).homes = s.homes := rfl
@[simp] theorem State.enterHandler_pkg (t : Trap) : (s.enterHandler t).pkg = s.pkg := rfl
@[simp] theorem State.enterHandler_events (t : Trap) : (s.enterHandler t).events = s.events := rfl
@[simp] theorem State.enterHandler_turn (t : Trap) : (s.enterHandler t).turn = s.turn := rfl
@[simp] theorem State.enterHandler_hold (t : Trap) : (s.enterHandler t).hold = s.hold := rfl
@[simp] theorem State.enterHandler_unfiled (t : Trap) : (s.enterHandler t).unfiled = s.unfiled := rfl
@[simp] theorem State.enterHandler_lag (t : Trap) : (s.enterHandler t).lag = s.lag := rfl
@[simp] theorem State.enterHandler_ecc (t : Trap) : (s.enterHandler t).ecc = s.ecc := rfl
@[simp] theorem State.enterHandler_regEcc (t : Trap) : (s.enterHandler t).regEcc = s.regEcc := rfl
@[simp] theorem State.enterHandler_unresolved (t : Trap) : (s.enterHandler t).unresolved = s.unresolved := rfl
@[simp] theorem State.enterHandler_cuts (t : Trap) : (s.enterHandler t).cuts = s.cuts := rfl
@[simp] theorem State.enterHandler_keep (t : Trap) : (s.enterHandler t).keep = s.keep := rfl
@[simp] theorem State.enterHandler_old (t : Trap) : (s.enterHandler t).old = s.old := rfl
@[simp] theorem State.enterHandler_free (t : Trap) : (s.enterHandler t).free = s.free := rfl
@[simp] theorem State.enterHandler_nextId (t : Trap) : (s.enterHandler t).nextId = s.nextId := rfl
@[simp] theorem State.enterHandler_hart_id (t : Trap) : ((s.enterHandler t).hart).id = s.hart.id := rfl
@[simp] theorem State.enterHandler_hart_regs (t : Trap) : ((s.enterHandler t).hart).regs = { s.hart.regs with tstat := t.status s.hart.regs } := rfl
@[simp] theorem State.enterHandler_hart_pc (t : Trap) : ((s.enterHandler t).hart).pc = s.hart.tvec := rfl
@[simp] theorem State.enterHandler_hart_elix (t : Trap) : ((s.enterHandler t).hart).elix = 0 := rfl
@[simp] theorem State.enterHandler_hart_convoy (t : Trap) : ((s.enterHandler t).hart).convoy = [] := rfl
@[simp] theorem State.enterHandler_hart_head (t : Trap) : ((s.enterHandler t).hart).head = s.hart.head := rfl
@[simp] theorem State.enterHandler_hart_member (t : Trap) : ((s.enterHandler t).hart).member = 0 := rfl
@[simp] theorem State.enterHandler_hart_convoyAt (t : Trap) : ((s.enterHandler t).hart).convoyAt = s.hart.convoyAt := rfl
@[simp] theorem State.enterHandler_hart_priorAt (t : Trap) : ((s.enterHandler t).hart).priorAt = s.hart.priorAt := rfl
@[simp] theorem State.enterHandler_hart_headAstat (t : Trap) : ((s.enterHandler t).hart).headAstat = s.hart.headAstat := rfl
@[simp] theorem State.enterHandler_hart_headSphw (t : Trap) : ((s.enterHandler t).hart).headSphw = s.hart.headSphw := rfl
@[simp] theorem State.enterHandler_hart_xrd (t : Trap) : ((s.enterHandler t).hart).xrd = s.hart.xrd := rfl
@[simp] theorem State.enterHandler_hart_grd (t : Trap) : ((s.enterHandler t).hart).grd = s.hart.grd := rfl
@[simp] theorem State.enterHandler_hart_tcause (t : Trap) : ((s.enterHandler t).hart).tcause = zextWord t.cause := rfl
@[simp] theorem State.enterHandler_hart_tpc (t : Trap) : ((s.enterHandler t).hart).tpc = s.hart.pc := rfl
@[simp] theorem State.enterHandler_hart_telix (t : Trap) : ((s.enterHandler t).hart).telix = Word.ofNat s.hart.elix := rfl
@[simp] theorem State.enterHandler_hart_tval (t : Trap) : ((s.enterHandler t).hart).tval = t.tval := rfl
@[simp] theorem State.enterHandler_hart_tvec (t : Trap) : ((s.enterHandler t).hart).tvec = s.hart.tvec := rfl
@[simp] theorem State.enterHandler_hart_tscr (t : Trap) : ((s.enterHandler t).hart).tscr = s.hart.tscr := rfl
@[simp] theorem State.enterHandler_hart_hartcrd (t : Trap) : ((s.enterHandler t).hart).hartcrd = s.hart.hartcrd := rfl
@[simp] theorem State.enterHandler_hart_ctx (t : Trap) : ((s.enterHandler t).hart).ctx = s.hart.ctx := rfl
@[simp] theorem State.enterHandler_hart_rseed (t : Trap) : ((s.enterHandler t).hart).rseed = s.hart.rseed := rfl
@[simp] theorem State.enterHandler_hart_spbase (t : Trap) : ((s.enterHandler t).hart).spbase = s.hart.spbase := rfl
@[simp] theorem State.enterHandler_hart_splane0 (t : Trap) : ((s.enterHandler t).hart).splane0 = s.hart.splane0 := rfl
@[simp] theorem State.enterHandler_hart_splane1 (t : Trap) : ((s.enterHandler t).hart).splane1 = s.hart.splane1 := rfl
@[simp] theorem State.enterHandler_hart_splane2 (t : Trap) : ((s.enterHandler t).hart).splane2 = s.hart.splane2 := rfl
@[simp] theorem State.enterHandler_hart_splane3 (t : Trap) : ((s.enterHandler t).hart).splane3 = s.hart.splane3 := rfl
@[simp] theorem State.enterHandler_hart_rows (t : Trap) : ((s.enterHandler t).hart).rows = s.hart.rows := rfl
@[simp] theorem State.enterHandler_hart_m15only (t : Trap) : ((s.enterHandler t).hart).m15only = false := rfl
@[simp] theorem State.enterHandler_hart_issued (t : Trap) : ((s.enterHandler t).hart).issued = s.hart.issued := rfl
@[simp] theorem State.enterHandler_hart_cut (t : Trap) : ((s.enterHandler t).hart).cut = none := rfl
@[simp] theorem State.enterHandler_hart_late (t : Trap) : ((s.enterHandler t).hart).late = s.hart.late := rfl
@[simp] theorem State.enterHandler_hart_walk (t : Trap) : ((s.enterHandler t).hart).walk = none := rfl
@[simp] theorem State.enterHandler_hart_region (t : Trap) : ((s.enterHandler t).hart).region = s.hart.region := rfl
@[simp] theorem State.enterHandler_hart_caddy (t : Trap) : ((s.enterHandler t).hart).caddy = s.hart.caddy := rfl
@[simp] theorem State.enterHandler_hart_stores (t : Trap) : ((s.enterHandler t).hart).stores = s.hart.stores := rfl
@[simp] theorem State.enterHandler_hart_gathers (t : Trap) : ((s.enterHandler t).hart).gathers = s.hart.gathers := rfl
@[simp] theorem State.enterHandler_hart_matrix (t : Trap) : ((s.enterHandler t).hart).matrix = s.hart.matrix := rfl
@[simp] theorem State.enterHandler_hart_copies (t : Trap) : ((s.enterHandler t).hart).copies = s.hart.copies := rfl
@[simp] theorem State.enterHandler_hart_colls (t : Trap) : ((s.enterHandler t).hart).colls = s.hart.colls := rfl
@[simp] theorem State.enterHandler_hart_pend (t : Trap) : ((s.enterHandler t).hart).pend = s.hart.pend := rfl
@[simp] theorem State.enterHandler_hart_sx (t : Trap) : ((s.enterHandler t).hart).sx = s.hart.sx := rfl
@[simp] theorem State.enterHandler_hart_session (t : Trap) : ((s.enterHandler t).hart).session = s.hart.session := rfl
@[simp] theorem State.enterHandler_hart_watch (t : Trap) : ((s.enterHandler t).hart).watch = s.hart.watch := rfl
@[simp] theorem State.enterHandler_hart_waiting (t : Trap) : ((s.enterHandler t).hart).waiting = .none := rfl
@[simp] theorem State.enterHandler_hart_run (t : Trap) : ((s.enterHandler t).hart).run = s.hart.run := rfl
@[simp] theorem State.enterHandler_hart_arrived (t : Trap) : ((s.enterHandler t).hart).arrived = s.hart.arrived := rfl
@[simp] theorem State.enterHandler_hart_arrivedGen (t : Trap) : ((s.enterHandler t).hart).arrivedGen = s.hart.arrivedGen := rfl
@[simp] theorem State.enterHandler_hart_breakDue (t : Trap) : ((s.enterHandler t).hart).breakDue = s.hart.breakDue := rfl
@[simp] theorem State.enterHandler_hart_sample (t : Trap) : ((s.enterHandler t).hart).sample = s.hart.sample := rfl
@[simp] theorem State.enterHandler_hart_crew (t : Trap) : ((s.enterHandler t).hart).crew = s.hart.crew := rfl
@[simp] theorem State.enterHandler_hart_slot (t : Trap) : ((s.enterHandler t).hart).slot = s.hart.slot := rfl
@[simp] theorem State.enterHandler_hart_hidx (t : Trap) : ((s.enterHandler t).hart).hidx = s.hart.hidx := rfl
@[simp] theorem State.enterHandler_hart_frame (t : Trap) : ((s.enterHandler t).hart).frame = s.hart.frame := rfl
@[simp] theorem State.enterHandler_hart_trap (t : Trap) : ((s.enterHandler t).hart).trap = s.hart.trap := rfl
@[simp] theorem State.enterHandler_hart_serves (t : Trap) : ((s.enterHandler t).hart).serves = s.hart.serves := rfl
@[simp] theorem State.enterHandler_hart_pageFailed (t : Trap) : ((s.enterHandler t).hart).pageFailed = s.hart.pageFailed := rfl
@[simp] theorem State.enterHandler_hart_padSaved (t : Trap) : ((s.enterHandler t).hart).padSaved = s.hart.padSaved := rfl
@[simp] theorem State.enterHandler_hart_stood (t : Trap) : ((s.enterHandler t).hart).stood = s.hart.stood := rfl
@[simp] theorem State.enterHandler_hart_frameOut (t : Trap) : ((s.enterHandler t).hart).frameOut = s.hart.frameOut := rfl
@[simp] theorem Hart.setElem_id (v w i x : Nat) : (h.setElem v w i x).id = h.id := rfl
@[simp] theorem Hart.setElem_regs (v w i x : Nat) : (h.setElem v w i x).regs = { h.regs with vrf := Sparse.putList zeroByte h.regs.vrf (v * h.rb + i * w) (natToBytes x w), vpois := Sparse.clear h.regs.vpois (v * h.rb + i * w) (v * h.rb + i * w + w) } := rfl
@[simp] theorem Hart.setElem_pc (v w i x : Nat) : (h.setElem v w i x).pc = h.pc := rfl
@[simp] theorem Hart.setElem_elix (v w i x : Nat) : (h.setElem v w i x).elix = h.elix := rfl
@[simp] theorem Hart.setElem_convoy (v w i x : Nat) : (h.setElem v w i x).convoy = h.convoy := rfl
@[simp] theorem Hart.setElem_head (v w i x : Nat) : (h.setElem v w i x).head = h.head := rfl
@[simp] theorem Hart.setElem_member (v w i x : Nat) : (h.setElem v w i x).member = h.member := rfl
@[simp] theorem Hart.setElem_convoyAt (v w i x : Nat) : (h.setElem v w i x).convoyAt = h.convoyAt := rfl
@[simp] theorem Hart.setElem_priorAt (v w i x : Nat) : (h.setElem v w i x).priorAt = h.priorAt := rfl
@[simp] theorem Hart.setElem_headAstat (v w i x : Nat) : (h.setElem v w i x).headAstat = h.headAstat := rfl
@[simp] theorem Hart.setElem_headSphw (v w i x : Nat) : (h.setElem v w i x).headSphw = h.headSphw := rfl
@[simp] theorem Hart.setElem_xrd (v w i x : Nat) : (h.setElem v w i x).xrd = h.xrd := rfl
@[simp] theorem Hart.setElem_grd (v w i x : Nat) : (h.setElem v w i x).grd = h.grd := rfl
@[simp] theorem Hart.setElem_tcause (v w i x : Nat) : (h.setElem v w i x).tcause = h.tcause := rfl
@[simp] theorem Hart.setElem_tpc (v w i x : Nat) : (h.setElem v w i x).tpc = h.tpc := rfl
@[simp] theorem Hart.setElem_telix (v w i x : Nat) : (h.setElem v w i x).telix = h.telix := rfl
@[simp] theorem Hart.setElem_tval (v w i x : Nat) : (h.setElem v w i x).tval = h.tval := rfl
@[simp] theorem Hart.setElem_tvec (v w i x : Nat) : (h.setElem v w i x).tvec = h.tvec := rfl
@[simp] theorem Hart.setElem_tscr (v w i x : Nat) : (h.setElem v w i x).tscr = h.tscr := rfl
@[simp] theorem Hart.setElem_hartcrd (v w i x : Nat) : (h.setElem v w i x).hartcrd = h.hartcrd := rfl
@[simp] theorem Hart.setElem_ctx (v w i x : Nat) : (h.setElem v w i x).ctx = h.ctx := rfl
@[simp] theorem Hart.setElem_rseed (v w i x : Nat) : (h.setElem v w i x).rseed = h.rseed := rfl
@[simp] theorem Hart.setElem_spbase (v w i x : Nat) : (h.setElem v w i x).spbase = h.spbase := rfl
@[simp] theorem Hart.setElem_splane0 (v w i x : Nat) : (h.setElem v w i x).splane0 = h.splane0 := rfl
@[simp] theorem Hart.setElem_splane1 (v w i x : Nat) : (h.setElem v w i x).splane1 = h.splane1 := rfl
@[simp] theorem Hart.setElem_splane2 (v w i x : Nat) : (h.setElem v w i x).splane2 = h.splane2 := rfl
@[simp] theorem Hart.setElem_splane3 (v w i x : Nat) : (h.setElem v w i x).splane3 = h.splane3 := rfl
@[simp] theorem Hart.setElem_rows (v w i x : Nat) : (h.setElem v w i x).rows = h.rows := rfl
@[simp] theorem Hart.setElem_m15only (v w i x : Nat) : (h.setElem v w i x).m15only = h.m15only := rfl
@[simp] theorem Hart.setElem_issued (v w i x : Nat) : (h.setElem v w i x).issued = h.issued := rfl
@[simp] theorem Hart.setElem_cut (v w i x : Nat) : (h.setElem v w i x).cut = h.cut := rfl
@[simp] theorem Hart.setElem_late (v w i x : Nat) : (h.setElem v w i x).late = h.late := rfl
@[simp] theorem Hart.setElem_walk (v w i x : Nat) : (h.setElem v w i x).walk = h.walk := rfl
@[simp] theorem Hart.setElem_region (v w i x : Nat) : (h.setElem v w i x).region = h.region := rfl
@[simp] theorem Hart.setElem_caddy (v w i x : Nat) : (h.setElem v w i x).caddy = h.caddy := rfl
@[simp] theorem Hart.setElem_stores (v w i x : Nat) : (h.setElem v w i x).stores = h.stores := rfl
@[simp] theorem Hart.setElem_gathers (v w i x : Nat) : (h.setElem v w i x).gathers = h.gathers := rfl
@[simp] theorem Hart.setElem_matrix (v w i x : Nat) : (h.setElem v w i x).matrix = h.matrix := rfl
@[simp] theorem Hart.setElem_copies (v w i x : Nat) : (h.setElem v w i x).copies = h.copies := rfl
@[simp] theorem Hart.setElem_colls (v w i x : Nat) : (h.setElem v w i x).colls = h.colls := rfl
@[simp] theorem Hart.setElem_pend (v w i x : Nat) : (h.setElem v w i x).pend = h.pend := rfl
@[simp] theorem Hart.setElem_sx (v w i x : Nat) : (h.setElem v w i x).sx = h.sx := rfl
@[simp] theorem Hart.setElem_session (v w i x : Nat) : (h.setElem v w i x).session = h.session := rfl
@[simp] theorem Hart.setElem_watch (v w i x : Nat) : (h.setElem v w i x).watch = h.watch := rfl
@[simp] theorem Hart.setElem_waiting (v w i x : Nat) : (h.setElem v w i x).waiting = h.waiting := rfl
@[simp] theorem Hart.setElem_run (v w i x : Nat) : (h.setElem v w i x).run = h.run := rfl
@[simp] theorem Hart.setElem_arrived (v w i x : Nat) : (h.setElem v w i x).arrived = h.arrived := rfl
@[simp] theorem Hart.setElem_arrivedGen (v w i x : Nat) : (h.setElem v w i x).arrivedGen = h.arrivedGen := rfl
@[simp] theorem Hart.setElem_breakDue (v w i x : Nat) : (h.setElem v w i x).breakDue = h.breakDue := rfl
@[simp] theorem Hart.setElem_sample (v w i x : Nat) : (h.setElem v w i x).sample = h.sample := rfl
@[simp] theorem Hart.setElem_crew (v w i x : Nat) : (h.setElem v w i x).crew = h.crew := rfl
@[simp] theorem Hart.setElem_slot (v w i x : Nat) : (h.setElem v w i x).slot = h.slot := rfl
@[simp] theorem Hart.setElem_hidx (v w i x : Nat) : (h.setElem v w i x).hidx = h.hidx := rfl
@[simp] theorem Hart.setElem_frame (v w i x : Nat) : (h.setElem v w i x).frame = h.frame := rfl
@[simp] theorem Hart.setElem_trap (v w i x : Nat) : (h.setElem v w i x).trap = h.trap := rfl
@[simp] theorem Hart.setElem_serves (v w i x : Nat) : (h.setElem v w i x).serves = h.serves := rfl
@[simp] theorem Hart.setElem_pageFailed (v w i x : Nat) : (h.setElem v w i x).pageFailed = h.pageFailed := rfl
@[simp] theorem Hart.setElem_padSaved (v w i x : Nat) : (h.setElem v w i x).padSaved = h.padSaved := rfl
@[simp] theorem Hart.setElem_stood (v w i x : Nat) : (h.setElem v w i x).stood = h.stood := rfl
@[simp] theorem Hart.setElem_frameOut (v w i x : Nat) : (h.setElem v w i x).frameOut = h.frameOut := rfl
@[simp] theorem Regs.setG_lr (i : GReg) (v : Word) : (r.setG i v).lr = r.lr := by unfold Regs.setG; split <;> rfl
@[simp] theorem Regs.setG_wb (i : GReg) (v : Word) : (r.setG i v).wb = r.wb := by unfold Regs.setG; split <;> rfl
@[simp] theorem Regs.setG_vt (i : GReg) (v : Word) : (r.setG i v).vt = r.vt := by unfold Regs.setG; split <;> rfl
@[simp] theorem Regs.setG_vl (i : GReg) (v : Word) : (r.setG i v).vl = r.vl := by unfold Regs.setG; split <;> rfl
@[simp] theorem Regs.setG_vnreg (i : GReg) (v : Word) : (r.setG i v).vnreg = r.vnreg := by unfold Regs.setG; split <;> rfl
@[simp] theorem Regs.setG_bx (i : GReg) (v : Word) : (r.setG i v).bx = r.bx := by unfold Regs.setG; split <;> rfl
@[simp] theorem Regs.setG_fx (i : GReg) (v : Word) : (r.setG i v).fx = r.fx := by unfold Regs.setG; split <;> rfl
@[simp] theorem Regs.setG_ls0 (i : GReg) (v : Word) : (r.setG i v).ls0 = r.ls0 := by unfold Regs.setG; split <;> rfl
@[simp] theorem Regs.setG_le0 (i : GReg) (v : Word) : (r.setG i v).le0 = r.le0 := by unfold Regs.setG; split <;> rfl
@[simp] theorem Regs.setG_lc0 (i : GReg) (v : Word) : (r.setG i v).lc0 = r.lc0 := by unfold Regs.setG; split <;> rfl
@[simp] theorem Regs.setG_ls1 (i : GReg) (v : Word) : (r.setG i v).ls1 = r.ls1 := by unfold Regs.setG; split <;> rfl
@[simp] theorem Regs.setG_le1 (i : GReg) (v : Word) : (r.setG i v).le1 = r.le1 := by unfold Regs.setG; split <;> rfl
@[simp] theorem Regs.setG_lc1 (i : GReg) (v : Word) : (r.setG i v).lc1 = r.lc1 := by unfold Regs.setG; split <;> rfl
@[simp] theorem Regs.setG_tstat (i : GReg) (v : Word) : (r.setG i v).tstat = r.tstat := by unfold Regs.setG; split <;> rfl
@[simp] theorem Regs.setG_astat (i : GReg) (v : Word) : (r.setG i v).astat = r.astat := by unfold Regs.setG; split <;> rfl
@[simp] theorem Regs.setG_vrf (i : GReg) (v : Word) : (r.setG i v).vrf = r.vrf := by unfold Regs.setG; split <;> rfl
@[simp] theorem Regs.setG_vpois (i : GReg) (v : Word) : (r.setG i v).vpois = r.vpois := by unfold Regs.setG; split <;> rfl
@[simp] theorem Regs.setG_masks (i : GReg) (v : Word) : (r.setG i v).masks = r.masks := by unfold Regs.setG; split <;> rfl
@[simp] theorem Regs.setMask_gpr (m i : Nat) (b : Bool) : (r.setMask m i b).gpr = r.gpr := rfl
@[simp] theorem Regs.setMask_lr (m i : Nat) (b : Bool) : (r.setMask m i b).lr = r.lr := rfl
@[simp] theorem Regs.setMask_wb (m i : Nat) (b : Bool) : (r.setMask m i b).wb = r.wb := rfl
@[simp] theorem Regs.setMask_vt (m i : Nat) (b : Bool) : (r.setMask m i b).vt = r.vt := rfl
@[simp] theorem Regs.setMask_vl (m i : Nat) (b : Bool) : (r.setMask m i b).vl = r.vl := rfl
@[simp] theorem Regs.setMask_vnreg (m i : Nat) (b : Bool) : (r.setMask m i b).vnreg = r.vnreg := rfl
@[simp] theorem Regs.setMask_bx (m i : Nat) (b : Bool) : (r.setMask m i b).bx = r.bx := rfl
@[simp] theorem Regs.setMask_fx (m i : Nat) (b : Bool) : (r.setMask m i b).fx = r.fx := rfl
@[simp] theorem Regs.setMask_ls0 (m i : Nat) (b : Bool) : (r.setMask m i b).ls0 = r.ls0 := rfl
@[simp] theorem Regs.setMask_le0 (m i : Nat) (b : Bool) : (r.setMask m i b).le0 = r.le0 := rfl
@[simp] theorem Regs.setMask_lc0 (m i : Nat) (b : Bool) : (r.setMask m i b).lc0 = r.lc0 := rfl
@[simp] theorem Regs.setMask_ls1 (m i : Nat) (b : Bool) : (r.setMask m i b).ls1 = r.ls1 := rfl
@[simp] theorem Regs.setMask_le1 (m i : Nat) (b : Bool) : (r.setMask m i b).le1 = r.le1 := rfl
@[simp] theorem Regs.setMask_lc1 (m i : Nat) (b : Bool) : (r.setMask m i b).lc1 = r.lc1 := rfl
@[simp] theorem Regs.setMask_tstat (m i : Nat) (b : Bool) : (r.setMask m i b).tstat = r.tstat := rfl
@[simp] theorem Regs.setMask_astat (m i : Nat) (b : Bool) : (r.setMask m i b).astat = r.astat := rfl
@[simp] theorem Regs.setMask_vrf (m i : Nat) (b : Bool) : (r.setMask m i b).vrf = r.vrf := rfl
@[simp] theorem Regs.setMask_vpois (m i : Nat) (b : Bool) : (r.setMask m i b).vpois = r.vpois := rfl
@[simp] theorem Regs.setMask_masks (m i : Nat) (b : Bool) : (r.setMask m i b).masks = Sparse.put clearBit r.masks (m * 65536 + i) b := rfl
@[simp] theorem Regs.setRiv_gpr : (r.setRiv).gpr = r.gpr := rfl
@[simp] theorem Regs.setRiv_lr : (r.setRiv).lr = r.lr := rfl
@[simp] theorem Regs.setRiv_wb : (r.setRiv).wb = r.wb := rfl
@[simp] theorem Regs.setRiv_vt : (r.setRiv).vt = r.vt := rfl
@[simp] theorem Regs.setRiv_vl : (r.setRiv).vl = r.vl := rfl
@[simp] theorem Regs.setRiv_vnreg : (r.setRiv).vnreg = r.vnreg := rfl
@[simp] theorem Regs.setRiv_bx : (r.setRiv).bx = r.bx := rfl
@[simp] theorem Regs.setRiv_fx : (r.setRiv).fx = r.fx := rfl
@[simp] theorem Regs.setRiv_ls0 : (r.setRiv).ls0 = r.ls0 := rfl
@[simp] theorem Regs.setRiv_le0 : (r.setRiv).le0 = r.le0 := rfl
@[simp] theorem Regs.setRiv_lc0 : (r.setRiv).lc0 = r.lc0 := rfl
@[simp] theorem Regs.setRiv_ls1 : (r.setRiv).ls1 = r.ls1 := rfl
@[simp] theorem Regs.setRiv_le1 : (r.setRiv).le1 = r.le1 := rfl
@[simp] theorem Regs.setRiv_lc1 : (r.setRiv).lc1 = r.lc1 := rfl
@[simp] theorem Regs.setRiv_tstat : (r.setRiv).tstat = r.tstat := rfl
@[simp] theorem Regs.setRiv_astat : (r.setRiv).astat = setBit r.astat 1 true := rfl
@[simp] theorem Regs.setRiv_vrf : (r.setRiv).vrf = r.vrf := rfl
@[simp] theorem Regs.setRiv_vpois : (r.setRiv).vpois = r.vpois := rfl
@[simp] theorem Regs.setRiv_masks : (r.setRiv).masks = r.masks := rfl

/-- A scalar register read after a write (R54): g0 reads zero whatever is written. -/
theorem Regs.g_setG (i : GReg) (v : Word) : (r.setG i v).g i = if i = 0 then 0 else v := by
  unfold Regs.g Regs.setG
  split <;> rename_i h <;> simp [Regs.phys]

/-- Every other physical register is unchanged (R54). -/
theorem Regs.gpr_setG (i : GReg) (v : Word) (k : Nat) (h : i = 0 ∨ k ≠ r.phys i) :
    Sparse.get zeroWord (r.setG i v).gpr k = Sparse.get zeroWord r.gpr k := by
  unfold Regs.setG
  split
  · rfl
  · rename_i n; exact Sparse.get_put_other _ _ (h.resolve_left n)

/-- The registers after a member retires: those of loop end processing where a convoy ends (R105), else unchanged. -/
theorem State.retire_regs (e : Bool) : (s.retire e).hart.regs = if e then (s.hart.regs.loopEnd s.hart.pc).1 else s.hart.regs := by
  unfold State.retire; split <;> rfl

/-- What the end processing of a level may change: its count and TSTAT (R105). -/
theorem Regs.endLevel_spec (k : Level) : ∃ c0 c1 t, (r.endLevel k).1 = { r with lc0 := c0, lc1 := c1, tstat := t } := by
  cases k <;> simp only [Regs.endLevel] <;> split <;> exact ⟨_, _, _, rfl⟩

/-- What loop end processing may change: the counts and TSTAT (R105). -/
theorem Regs.loopEnd_spec (a : Word) : ∃ c0 c1 t, (r.loopEnd a).1 = { r with lc0 := c0, lc1 := c1, tstat := t } := by
  have one (r : Regs) (k : Level) (x : Regs) (y : Option Word) (h : r.endLevel k = (x, y)) :
      ∃ c0 c1 t, x = { r with lc0 := c0, lc1 := c1, tstat := t } := by
    have := r.endLevel_spec k; rw [h] at this; exact this
  unfold Regs.loopEnd
  split
  · split
    · exact one _ _ _ _ ‹_›
    · obtain ⟨c0, c1, t, rfl⟩ := one _ _ _ _ ‹_›
      split
      · split
        · obtain ⟨d0, d1, u, rfl⟩ := one _ _ _ _ ‹_›; exact ⟨_, _, _, rfl⟩
        · obtain ⟨d0, d1, u, rfl⟩ := one _ _ _ _ ‹_›; exact ⟨_, _, _, rfl⟩
      · exact ⟨_, _, _, rfl⟩
  · split
    · split
      · exact one _ _ _ _ ‹_›
      · exact one _ _ _ _ ‹_›
    · exact ⟨_, _, _, rfl⟩

theorem Regs.loopEnd_gpr (a : Word) : (r.loopEnd a).1.gpr = r.gpr := by
  obtain ⟨_, _, _, h⟩ := r.loopEnd_spec a; rw [h]

theorem State.retire_gpr (e : Bool) : (s.retire e).hart.regs.gpr = s.hart.regs.gpr := by
  rw [State.retire_regs]; split <;> simp [Regs.loopEnd_gpr]

end Sys2Proof.Machine
end

