-- ==== Sys2Proof/Tests/Slice0.lean ====
section
/-!
SUPPORT. The model's own tests: what WellFormed refuses, words written out field by field from the encodings of the spec (R34 to R38), single
steps with results worked out by hand from the rules, and for each statement with hypotheses states and operands that meet them.
-/
namespace Sys2Proof.Tests
open Sys2Proof.Machine Sys2Proof.Claims

set_option maxRecDepth 100000
set_option Elab.async false

/-- The state after reset with a NOP at the program counter (log 4): addresses 0x10000 to 0x1FFFF are mapped, readable and writable. -/
def m0 : State := State.reset.withFetchWord 32 0xBC000000

/-- The same in supervisor mode. -/
def sup (s : State) : State := s.modRegs fun r => { r with tstat := r.tstat ||| 1 }

/-- Scalar registers set. -/
def gpr (s : State) (l : List (GReg × Word)) : State := l.foldl (fun s x => s.setG x.1 x.2) s

/-! ## WellFormed refuses (R15, R16, R35, R38, R56, R85, R99, R246, R256, R278, R337, R394) -/

theorem test_wf_refuses : ([.ld false 1 2 7 0, .st false 1 2 7 0, .ldx false 1 2 3 7, .stx false 1 2 3 7, .loop false false 1 0,
    .loop false false 1 1024, .loopi true false 5 0, .mfs true 1 0x00C, .mfs true 1 0x7FF, .mts true 1 0x00C, .mts true 1 0x005, .mts true 1 0x000,
    .winb true 8, .winb true 400, .fenceMem true 6, .fenceSc true 7, .fenceEng true 6, .vconf true 1, .vconf true 7, .vsetl true 1 2 0x05,
    .vsetl true 1 2 0x10, .vsetl true 1 2 0x48, .cvtF true 1 2 0x45 true, .cvtFi true 1 2 0x45 true, .cvtIf true 1 2 0x68 true,
    .cvtIi true 1 2 0x58 true, .tcvt true 1 2 0x06, .tcvt true 1 2 0x51, .sxw true 1 17, .sxr true 1 17, .barr true 6 0, .barw true 7 0, .bara true 6 0,
    .coord true 1 2 4, .pub true 0 1 2, .pub true 6 1 2, .pubw true 1 2 0, .ctxinfo true 1 2 4, .ctxinfo true 1 2 15, .ctxinfo true 1 2 23] : List Instr).all
    (fun i => !i.wf) = true := by decide +kernel

theorem test_wf_admits : ([.ld false 1 2 6 0, .loop false false 1 1, .loop false false 1 1023, .loopi true false 5 4095, .mfs true 1 0x043, .mts true 1 0x025,
    .winb true 0, .winb true 384, .fenceMem true 5, .vconf true 2, .vconf true 6, .vsetl true 1 2 0x44, .vsetl true 1 2 0x0C, .cvtF true 1 2 0x2C true,
    .tcvt true 1 2 0x45, .tcvt true 1 2 0x0B, .sxw true 1 16, .barr true 5 7, .coord true 1 2 3, .pub true 1 1 2, .pubw true 1 2 5, .ctxinfo true 1 2 3,
    .ctxinfo true 1 2 8, .ctxinfo true 1 2 22] : List Instr).all (fun i => i.wf) = true := by decide +kernel

/-! ## Decoding: one word of every encoded instruction, field by field from bit 31 down -/

/-- Every word decodes to the instruction beside it. -/
abbrev Reads (l : List (Code × Instr)) : Prop := ∀ p ∈ l, decodeWord p.1 = .ok p.2

theorem test_words_1 : Reads [
    (0b1_000001_0001001_0010001_0000101_0000, .add true 9 17 5),
    (0b1_000001_0001001_0010001_0000101_0001, .sub true 9 17 5),
    (0b1_000001_0001001_0010001_0000101_0010, .and true 9 17 5),
    (0b1_000001_0001001_0010001_0000101_0011, .or true 9 17 5),
    (0b1_000001_0001001_0010001_0000101_0100, .xor true 9 17 5),
    (0b1_000001_0001001_0010001_0000101_0101, .andn true 9 17 5),
    (0b1_000001_0001001_0010001_0000101_0110, .orn true 9 17 5),
    (0b1_000001_0001001_0010001_0000101_0111, .sll true 9 17 5),
    (0b1_000001_0001001_0010001_0000101_1000, .srl true 9 17 5),
    (0b1_000001_0001001_0010001_0000101_1001, .sra true 9 17 5),
    (0b1_000001_0001001_0010001_0000101_1010, .rol true 9 17 5),
    (0b1_000001_0001001_0010001_0000101_1011, .ror true 9 17 5),
    (0b1_000001_0001001_0010001_0000101_1100, .slt true 9 17 5),
    (0b1_000001_0001001_0010001_0000101_1101, .sltn true 9 17 5),
    (0b1_000001_0001001_0010001_0000101_1110, .min true 9 17 5),
    (0b1_000001_0001001_0010001_0000101_1111, .max true 9 17 5),
    (0b1_000010_0001001_0010001_0000101_0000, .minn true 9 17 5),
    (0b1_000010_0001001_0010001_0000101_0001, .maxn true 9 17 5),
    (0b1_000010_0001001_0010001_0000101_0010, .mul true 9 17 5),
    (0b1_000010_0001001_0010001_0000101_0011, .mulh true 9 17 5)] := by decide +kernel

theorem test_words_2 : Reads [
    (0b1_000010_0001001_0010001_0000101_0100, .mulhn true 9 17 5),
    (0b1_000010_0001001_0010001_0000101_0101, .div true 9 17 5),
    (0b1_000010_0001001_0010001_0000101_0110, .divn true 9 17 5),
    (0b1_000010_0001001_0010001_0000101_0111, .rem true 9 17 5),
    (0b1_000010_0001001_0010001_0000101_1000, .remn true 9 17 5),
    (0b1_000010_0001001_0010001_0000101_1001, .addv true 9 17 5),
    (0b1_000010_0001001_0010001_0000101_1010, .subv true 9 17 5),
    (0b1_000010_0001001_0010001_0000101_1011, .mulv true 9 17 5),
    (0b1_000010_0001001_0010001_00000001100, .clz true 9 17),
    (0b1_000010_0001001_0010001_00000001101, .ctz true 9 17),
    (0b1_000010_0001001_0010001_00000001110, .popc true 9 17),
    (0b1_000010_0001001_0010001_00000001111, .bswap true 9 17),
    (0b1_011111_0001001_0010001_00000000000, .sext8 true 9 17),
    (0b1_011111_0001001_0010001_00000000001, .sext16 true 9 17),
    (0b1_011111_0001001_0010001_00000000010, .sext32 true 9 17),
    (0b1_011111_0001001_0010001_00000000011, .zext8 true 9 17),
    (0b1_011111_0001001_0010001_00000000100, .zext16 true 9 17),
    (0b1_011111_0001001_0010001_00000000101, .zext32 true 9 17),
    (0b1_000011_0001001_0010001_10000000101, .addi true 9 17 1029),
    (0b1_000100_0001001_0010001_10000000101, .andi true 9 17 1029)] := by decide +kernel

theorem test_words_3 : Reads [
    (0b1_000101_0001001_0010001_10000000101, .ori true 9 17 1029),
    (0b1_000110_0001001_0010001_10000000101, .xori true 9 17 1029),
    (0b1_001000_0001001_0010001_10000000101, .slti true 9 17 1029),
    (0b1_001001_0001001_0010001_10000000101, .sltni true 9 17 1029),
    (0b1_000111_0001001_0010001_00000_101101, .slli true 9 17 45),
    (0b1_000111_0001001_0010001_01000_101101, .srli true 9 17 45),
    (0b1_000111_0001001_0010001_10000_101101, .srai true 9 17 45),
    (0b1_000111_0001001_0010001_11000_101101, .roli true 9 17 45),
    (0b1_001010_0001001_101010010100001111, .lim true 9 173327),
    (0b1_001011_0001001_101010010100001111, .lihi true 9 173327),
    (0b1_001100_0001001_101010010100001111, .addpc true 9 173327),
    (0b1_001101_0001001_0010001_110_10000011, .ld true 9 17 6 131),
    (0b1_001110_0001001_0010001_110_10000011, .st true 9 17 6 131),
    (0b1_001111_0001001_0010001_0000101_0_110, .ldx true 9 17 5 6),
    (0b1_001111_0001001_0010001_0000101_1_110, .stx true 9 17 5 6),
    (0b1_010000_0010001_0000101_01111111111, .beq true 17 5 1023),
    (0b1_010001_0010001_0000101_01111111111, .bne true 17 5 1023),
    (0b1_010010_0010001_0000101_01111111111, .blt true 17 5 1023),
    (0b1_010011_0010001_0000101_01111111111, .bge true 17 5 1023),
    (0b1_010100_0010001_0000101_01111111111, .bltn true 17 5 1023)] := by decide +kernel

theorem test_words_4 : Reads [
    (0b1_010101_0010001_0000101_01111111111, .bgen true 17 5 1023),
    (0b1_010110_1000000000000000000000011, .jmp true 16777219),
    (0b1_010111_1000000000000000000000011, .call true 16777219),
    (0b1_011000_0000000_0010001_00000000000, .jr true 17),
    (0b1_011000_0000000_0010001_00000000001, .callr true 17),
    (0b1_011000_0000000000000000000000010, .ret true),
    (0b1_011001_000000_1_0010001_01111111111, .loop true true 17 1023),
    (0b1_011010_1_100000000001_100000000001, .loopi true true 2049 2049),
    (0b1_011011_0001001_0000000_00001000001, .mfs true 9 65),
    (0b1_011100_0000000_0010001_00001000001, .mts true 17 65),
    (0b1_011101_00000000000000_00110000000, .winb true 384),
    (0b1_011110_0000000000000000000000000, .nop true),
    (0b1_011110_00000000000000_1010101_0001, .trap true 85),
    (0b1_011110_0000000000000000000000010, .rft true),
    (0b1_011110_0000000000000000000000011, .wait true),
    (0b1_011110_0000000000000000000000100, .yield true),
    (0b1_011110_0000000000000000000000101, .brkpt true),
    (0b1_011110_0000000000000000000000110, .halt true),
    (0b1_100000_0001001_0010001_0000101_1_000, .amoswapRlx true 9 17 5 true),
    (0b1_100000_0001001_0010001_0000101_1_001, .amoaddRlx true 9 17 5 true)] := by decide +kernel

theorem test_words_5 : Reads [
    (0b1_100000_0001001_0010001_0000101_1_010, .amoandRlx true 9 17 5 true),
    (0b1_100000_0001001_0010001_0000101_1_011, .amoorRlx true 9 17 5 true),
    (0b1_100000_0001001_0010001_0000101_1_100, .amoxorRlx true 9 17 5 true),
    (0b1_100000_0001001_0010001_0000101_1_101, .amomaxRlx true 9 17 5 true),
    (0b1_100000_0001001_0010001_0000101_1_110, .amominRlx true 9 17 5 true),
    (0b1_100000_0001001_0010001_0000101_1_111, .amocasRlx true 9 17 5 true),
    (0b1_100001_0001001_0010001_0000101_1_000, .amoswapAcq true 9 17 5 true),
    (0b1_100001_0001001_0010001_0000101_1_001, .amoaddAcq true 9 17 5 true),
    (0b1_100001_0001001_0010001_0000101_1_010, .amoandAcq true 9 17 5 true),
    (0b1_100001_0001001_0010001_0000101_1_011, .amoorAcq true 9 17 5 true),
    (0b1_100001_0001001_0010001_0000101_1_100, .amoxorAcq true 9 17 5 true),
    (0b1_100001_0001001_0010001_0000101_1_101, .amomaxAcq true 9 17 5 true),
    (0b1_100001_0001001_0010001_0000101_1_110, .amominAcq true 9 17 5 true),
    (0b1_100001_0001001_0010001_0000101_1_111, .amocasAcq true 9 17 5 true),
    (0b1_100010_0001001_0010001_0000101_1_000, .amoswapRel true 9 17 5 true),
    (0b1_100010_0001001_0010001_0000101_1_001, .amoaddRel true 9 17 5 true),
    (0b1_100010_0001001_0010001_0000101_1_010, .amoandRel true 9 17 5 true),
    (0b1_100010_0001001_0010001_0000101_1_011, .amoorRel true 9 17 5 true),
    (0b1_100010_0001001_0010001_0000101_1_100, .amoxorRel true 9 17 5 true),
    (0b1_100010_0001001_0010001_0000101_1_101, .amomaxRel true 9 17 5 true)] := by decide +kernel

theorem test_words_6 : Reads [
    (0b1_100010_0001001_0010001_0000101_1_110, .amominRel true 9 17 5 true),
    (0b1_100010_0001001_0010001_0000101_1_111, .amocasRel true 9 17 5 true),
    (0b1_100011_0001001_0010001_0000101_1_000, .amoswapAr true 9 17 5 true),
    (0b1_100011_0001001_0010001_0000101_1_001, .amoaddAr true 9 17 5 true),
    (0b1_100011_0001001_0010001_0000101_1_010, .amoandAr true 9 17 5 true),
    (0b1_100011_0001001_0010001_0000101_1_011, .amoorAr true 9 17 5 true),
    (0b1_100011_0001001_0010001_0000101_1_100, .amoxorAr true 9 17 5 true),
    (0b1_100011_0001001_0010001_0000101_1_101, .amomaxAr true 9 17 5 true),
    (0b1_100011_0001001_0010001_0000101_1_110, .amominAr true 9 17 5 true),
    (0b1_100011_0001001_0010001_0000101_1_111, .amocasAr true 9 17 5 true),
    (0b1_100100_0001001_0010001_00000000000, .ldacq32 true 9 17),
    (0b1_100100_0001001_0010001_00000000001, .ldacq64 true 9 17),
    (0b1_100100_0001001_0010001_00000000010, .strel32 true 9 17),
    (0b1_100100_0001001_0010001_00000000011, .strel64 true 9 17),
    (0b1_100100_0000000_0010001_00000000100, .watch true 17),
    (0b1_100100_00000000000000_0000101_0101, .waitw true 5),
    (0b1_100101_0000000000000000000000000, .fenceSv true),
    (0b1_100101_0000000000000000100000000, .fenceVs true),
    (0b1_100101_0000000000000001000000000, .fenceVv true),
    (0b1_100101_0000000000000001100000_101, .fenceMem true 5)] := by decide +kernel

theorem test_words_7 : Reads [
    (0b1_100101_0000000000000010000000_101, .fenceSc true 5),
    (0b1_100101_0000000000000010100000_101, .fenceEng true 5),
    (0b1_100110_00000000000000_0000101_0000, .vconf true 5),
    (0b1_100110_0001001_0010001_1000100_0001, .vsetl true 9 17 68),
    (0b1_100110_0001001_000000000000000010, .vgrant true 9),
    (0b1_100111_0001001_0010001_0000101_1_000, .vadd true 9 17 5 true),
    (0b1_100111_0001001_0010001_0000101_1_001, .vsub true 9 17 5 true),
    (0b1_100111_0001001_0010001_0000101_1_010, .vmul true 9 17 5 true),
    (0b1_100111_0001001_0010001_0000101_1_011, .vand true 9 17 5 true),
    (0b1_100111_0001001_0010001_0000101_1_100, .vor true 9 17 5 true),
    (0b1_100111_0001001_0010001_0000101_1_101, .vxor true 9 17 5 true),
    (0b1_100111_0001001_0010001_0000101_1_110, .vmin true 9 17 5 true),
    (0b1_100111_0001001_0010001_0000101_1_111, .vmax true 9 17 5 true),
    (0b1_101000_0001001_0010001_0000101_1_000, .vaddX true 9 17 5 true),
    (0b1_101000_0001001_0010001_0000101_1_001, .vsubX true 9 17 5 true),
    (0b1_101000_0001001_0010001_0000101_1_010, .vmulX true 9 17 5 true),
    (0b1_101000_0001001_0010001_0000101_1_011, .vandX true 9 17 5 true),
    (0b1_101000_0001001_0010001_0000101_1_100, .vorX true 9 17 5 true),
    (0b1_101000_0001001_0010001_0000101_1_101, .vxorX true 9 17 5 true),
    (0b1_101000_0001001_0010001_0000101_1_110, .vminX true 9 17 5 true)] := by decide +kernel

theorem test_words_8 : Reads [
    (0b1_101000_0001001_0010001_0000101_1_111, .vmaxX true 9 17 5 true),
    (0b1_101001_0001001_0010001_0000101_1_000, .vsll true 9 17 5 true),
    (0b1_101001_0001001_0010001_0000101_1_001, .vsrl true 9 17 5 true),
    (0b1_101001_0001001_0010001_0000101_1_010, .vsra true 9 17 5 true),
    (0b1_101001_0001001_0010001_0000101_1_011, .vmulh true 9 17 5 true),
    (0b1_101001_0001001_0010001_0000101_1_100, .vdiv true 9 17 5 true),
    (0b1_101001_0001001_0010001_0000101_1_101, .vrem true 9 17 5 true),
    (0b1_101001_0001001_0010001_0000101_1_110, .vaddsat true 9 17 5 true),
    (0b1_101001_0001001_0010001_0000101_1_111, .vsubsat true 9 17 5 true),
    (0b1_101010_0001001_0010001_0000101_1_000, .vminn true 9 17 5 true),
    (0b1_101010_0001001_0010001_0000101_1_001, .vmaxn true 9 17 5 true),
    (0b1_101010_0001001_0010001_0000101_1_010, .vmulhn true 9 17 5 true),
    (0b1_101010_0001001_0010001_0000101_1_011, .vdivn true 9 17 5 true),
    (0b1_101010_0001001_0010001_0000101_1_100, .vremn true 9 17 5 true),
    (0b1_101010_0001001_0010001_0000000_1_101, .vabs true 9 17 true),
    (0b1_101010_0001001_0010001_0000101_1_110, .vmerge true 9 17 5 true),
    (0b1_101010_0001001_0010001_0000000_1_111, .vmv true 9 17 true),
    (0b1_101011_0001001_0010001_0000101_1_000, .vfadd true 9 17 5 true),
    (0b1_101011_0001001_0010001_0000101_1_001, .vfsub true 9 17 5 true),
    (0b1_101011_0001001_0010001_0000101_1_010, .vfmul true 9 17 5 true)] := by decide +kernel

theorem test_words_9 : Reads [
    (0b1_101011_0001001_0010001_0000101_1_011, .vfdiv true 9 17 5 true),
    (0b1_101011_0001001_0010001_0000101_1_100, .vfmin true 9 17 5 true),
    (0b1_101011_0001001_0010001_0000101_1_101, .vfmax true 9 17 5 true),
    (0b1_101011_0001001_0010001_0000101_1_110, .vfma true 9 17 5 true),
    (0b1_101011_0001001_0010001_0000101_1_111, .vfnms true 9 17 5 true),
    (0b1_101100_0001001_0010001_0000101_1_000, .vfaddX true 9 17 5 true),
    (0b1_101100_0001001_0010001_0000101_1_001, .vfsubX true 9 17 5 true),
    (0b1_101100_0001001_0010001_0000101_1_010, .vfmulX true 9 17 5 true),
    (0b1_101100_0001001_0010001_0000101_1_011, .vfdivX true 9 17 5 true),
    (0b1_101100_0001001_0010001_0000101_1_100, .vfminX true 9 17 5 true),
    (0b1_101100_0001001_0010001_0000101_1_101, .vfmaxX true 9 17 5 true),
    (0b1_101100_0001001_0010001_0000101_1_110, .vfmaX true 9 17 5 true),
    (0b1_101100_0001001_0010001_0000101_1_111, .vfnmsX true 9 17 5 true),
    (0b1_101101_0001001_0010001_0000000_1_000, .vfsqrt true 9 17 true),
    (0b1_101101_0001001_0010001_0000000_1_001, .vfabs true 9 17 true),
    (0b1_101101_0001001_0010001_0000000_1_010, .vfneg true 9 17 true),
    (0b1_101101_0001001_0010001_0000000_1_011, .vfrcp true 9 17 true),
    (0b1_101101_0001001_0010001_0000000_1_100, .vfclass true 9 17 true),
    (0b1_101101_0001001_0010001_0000101_1_101, .vfscale true 9 17 5 true),
    (0b1_101101_0001001_0010001_0000000_1_110, .vfexp2 true 9 17 true)] := by decide +kernel

theorem test_words_10 : Reads [
    (0b1_101101_0001001_0010001_0000000_1_111, .vflog2 true 9 17 true),
    (0b1_101110_000_1001_0010001_0000101_1_000, .vcmpEq true 9 17 5 true),
    (0b1_101110_000_1001_0010001_0000101_1_001, .vcmpNe true 9 17 5 true),
    (0b1_101110_000_1001_0010001_0000101_1_010, .vcmpLt true 9 17 5 true),
    (0b1_101110_000_1001_0010001_0000101_1_011, .vcmpGe true 9 17 5 true),
    (0b1_101110_000_1001_0010001_0000101_1_100, .vcmpLtn true 9 17 5 true),
    (0b1_101110_000_1001_0010001_0000101_1_101, .vcmpGen true 9 17 5 true),
    (0b1_101110_000_1001_0010001_0000101_1_110, .vcmpFlt true 9 17 5 true),
    (0b1_101110_000_1001_0010001_0000101_1_111, .vcmpFle true 9 17 5 true),
    (0b1_101111_000_1001_0010001_0000101_1_000, .vcmpEqX true 9 17 5 true),
    (0b1_101111_000_1001_0010001_0000101_1_001, .vcmpNeX true 9 17 5 true),
    (0b1_101111_000_1001_0010001_0000101_1_010, .vcmpLtX true 9 17 5 true),
    (0b1_101111_000_1001_0010001_0000101_1_011, .vcmpGeX true 9 17 5 true),
    (0b1_101111_000_1001_0010001_0000101_1_100, .vcmpLtnX true 9 17 5 true),
    (0b1_101111_000_1001_0010001_0000101_1_101, .vcmpGenX true 9 17 5 true),
    (0b1_101111_000_1001_0010001_0000101_1_110, .vcmpFltX true 9 17 5 true),
    (0b1_101111_000_1001_0010001_0000101_1_111, .vcmpFleX true 9 17 5 true),
    (0b1_110000_000_1001_000_0001_000_0101_1_000, .mand true 9 1 5 true),
    (0b1_110000_000_1001_000_0001_000_0101_1_001, .mor true 9 1 5 true),
    (0b1_110000_000_1001_000_0001_000_0101_1_010, .mxor true 9 1 5 true)] := by decide +kernel

theorem test_words_11 : Reads [
    (0b1_110000_000_1001_000_0001_000_0101_1_011, .mandn true 9 1 5 true),
    (0b1_110000_000_1001_000_0001_0000000_1_100, .mnot true 9 1 true),
    (0b1_110000_0001001_000_0001_0000000_1_101, .mfirst true 9 1 true),
    (0b1_110000_0001001_000_0001_0000000_1_110, .mpop true 9 1 true),
    (0b1_110000_000_1001_00000000000000_1_111, .mset true 9 true),
    (0b1_110001_0001001_0010001_1000100_1_000, .cvtF true 9 17 68 true),
    (0b1_110001_0001001_0010001_1000100_1_001, .cvtFi true 9 17 68 true),
    (0b1_110001_0001001_0010001_1000100_1_010, .cvtIf true 9 17 68 true),
    (0b1_110001_0001001_0010001_1000100_1_011, .cvtIi true 9 17 68 true),
    (0b1_110001_0001001_0010001_0000000_1_100, .vrin true 9 17 true),
    (0b1_110001_0001001_0010001_0000000_1_101, .vrout true 9 17 true),
    (0b1_110001_0001001_0010001_0000101_1_110, .vradd true 9 17 5 true),
    (0b1_110001_0001001_0010001_0000101_1_111, .vrmul true 9 17 5 true),
    (0b1_110010_0001001_0010001_0000000_1_000, .vsum true 9 17 true),
    (0b1_110010_0001001_0010001_0000000_1_001, .vfsumo true 9 17 true),
    (0b1_110010_0001001_0010001_0000000_1_010, .vfsumt true 9 17 true),
    (0b1_110010_0001001_0010001_0000000_1_011, .vrmax true 9 17 true),
    (0b1_110010_0001001_0010001_0000000_1_100, .vrmin true 9 17 true),
    (0b1_110010_0001001_0010001_0000000_1_101, .vrand true 9 17 true),
    (0b1_110010_0001001_0010001_0000000_1_110, .vror true 9 17 true)] := by decide +kernel

theorem test_words_12 : Reads [
    (0b1_110010_0001001_0010001_0000000_1_111, .vfrmax true 9 17 true),
    (0b1_110011_0001001_0010001_0000101_1_000, .vslup true 9 17 5 true),
    (0b1_110011_0001001_0010001_0000101_1_001, .vsldn true 9 17 5 true),
    (0b1_110011_0001001_0010001_000_0101_1_010, .vcomp true 9 17 5 true),
    (0b1_110011_0001001_0010001_000_0101_1_011, .vexpd true 9 17 5 true),
    (0b1_110011_0001001_000_0001_0000000_1_100, .viota true 9 1 true),
    (0b1_110011_0001001_0010001_0000000_1_101, .vbcast true 9 17 true),
    (0b1_110011_0001001_0010001_0000101_1_110, .vextr true 9 17 5 true),
    (0b1_110011_0001001_0010001_0000101_1_111, .vrgath true 9 17 5 true),
    (0b1_110100_0001001_0010001_0000000_1_000, .vld true 9 17 true),
    (0b1_110100_0001001_0010001_0000101_1_001, .vlds true 9 17 5 true),
    (0b1_110100_0001001_0010001_0000000_1_010, .vst true 9 17 true),
    (0b1_110100_0001001_0010001_0000101_1_011, .vsts true 9 17 5 true),
    (0b1_110100_0001001_0010001_0000101_1_100, .vgth true 9 17 5 true),
    (0b1_110100_0001001_0010001_0000101_1_101, .vscto true 9 17 5 true),
    (0b1_110100_0001001_0010001_0000101_1_110, .vsctu true 9 17 5 true),
    (0b1_110101_000000000000000000000_1_000, .vxarm true true),
    (0b1_110101_0000000000_0001_0000000_1_001, .vxit true 1 true),
    (0b1_110101_000000000000000000000_1_010, .vxclr true true),
    (0b1_110101_0001001_00000000000000_1_011, .vxlen true 9 true)] := by decide +kernel

theorem test_words_13 : Reads [
    (0b1_110101_000000000000000000000_1_100, .vxwait true true),
    (0b1_110101_0001001_00000000000000_1_101, .vxfx true 9 true),
    (0b1_110110_00000000000000_01111111111, .bxany true 1023),
    (0b1_110110_00000000000001_01111111111, .bxnone true 1023),
    (0b1_110111_0001001_0010001_0000101_1_000, .vseq true 9 17 5 true),
    (0b1_110111_0001001_0010001_0000101_1_001, .vrot true 9 17 5 true),
    (0b1_110111_0001001_0010001_0000101_1_010, .vrang true 9 17 5 true),
    (0b1_110111_0000000_0010001_0000101_1_011, .vgq true 17 5 true),
    (0b1_110111_0001001_00000000000000_1_100, .vgqpop true 9 true),
    (0b1_110111_0001001_0010001_0000101_1_101, .seqfork true 9 17 5 true),
    (0b1_110111_0001001_0010001_0000101_1_110, .seqmap true 9 17 5 true),
    (0b1_111000_0001001_0010001_00000000000, .tconf true 9 17),
    (0b1_111000_0000_001_0010001_00000000001, .tshape true 1 17),
    (0b1_111000_0000_001_000000000000000010, .tzero true 1),
    (0b1_111000_0000_001_0010001_0000101_0011, .tld true 1 17 5),
    (0b1_111000_0000_001_0010001_0000101_0100, .tst true 1 17 5),
    (0b1_111000_0000_001_0010001_0000101_0101, .mrowin true 1 17 5),
    (0b1_111000_0001001_0000_001_0000101_0110, .mrowout true 9 1 5),
    (0b1_111000_0000_001_0010001_0000101_0111, .mcolin true 1 17 5),
    (0b1_111000_0001001_0000_001_0000101_1000, .mcolout true 9 1 5)] := by decide +kernel

theorem test_words_14 : Reads [
    (0b1_111000_0000_001_0010001_00000001001, .tsave true 1 17),
    (0b1_111000_0000_001_0010001_00000001010, .trst true 1 17),
    (0b1_111000_0001001_000000000000001011, .tdirty true 9),
    (0b1_111000_0000_001_0000_001_1001011_1100, .tcvt true 1 1 75),
    (0b1_111001_011_0_110_0010001_0000101_0000, .mrwO true 3 6 17 5),
    (0b1_111001_011_0_110_0010001_0000101_0001, .mrwF true 3 6 17 5),
    (0b1_111001_011_0_110_0010001_0000101_0010, .mrsO true 3 6 17 5),
    (0b1_111001_011_0_110_0010001_0000101_0011, .mrsF true 3 6 17 5),
    (0b1_111001_011_0_110_0010001_0000101_0100, .mrwi true 3 6 17 5),
    (0b1_111010_0000000_0010001_0010000_0000, .sxw true 17 16),
    (0b1_111010_0001001_0000000_0010000_0001, .sxr true 9 16),
    (0b1_111010_0001001_0010001_00000000010, .sxgo true 9 17),
    (0b1_111010_0001001_0010001_00000000011, .sxgom true 9 17),
    (0b1_111010_0000000_0010001_00000000100, .sxabt true 17),
    (0b1_111010_0001001_0010001_00000000101, .sxstat true 9 17),
    (0b1_111011_00000000000_101_0000_110_0000, .barr true 5 6),
    (0b1_111011_00000000000_101_0000_110_0001, .barw true 5 6),
    (0b1_111011_00000000000_101_0000_110_0010, .bara true 5 6),
    (0b1_111011_0001001_0010001_00000000011, .tron true 9 17),
    (0b1_111011_0001001_0010001_00000000100, .troff true 9 17)] := by decide +kernel

theorem test_words_15 : Reads [
    (0b1_111011_0001001_0010001_00000000101, .samp true 9 17),
    (0b1_111011_0001001_0010001_0000011_0110, .coord true 9 17 3),
    (0b1_111100_0000000_0010001_00000000000, .grbind true 17),
    (0b1_111100_0001001_0010001_0000101_0001, .grstep true 9 17 5),
    (0b1_111100_000_1001_0010001_00000000010, .grmaskM true 9 17),
    (0b1_111100_0001001_0010001_00000010010, .grmaskV true 9 17),
    (0b1_111100_0001001_000000000000000011, .grforce true 9),
    (0b1_111100_0000000_0010001_00000000100, .grsave true 17),
    (0b1_111100_0000000_0010001_00000000101, .grload true 17),
    (0b1_111100_0000000000000000000000110, .grreset true),
    (0b1_111101_0001001_0010001_0000101_0000, .objnew true 9 17 5),
    (0b1_111101_0001001_0010001_00000000001, .tagst true 9 17),
    (0b1_111101_0001001_0010001_00000000010, .tagld true 9 17),
    (0b1_111101_0000_101_0010001_0000101_0011, .pub true 5 17 5),
    (0b1_111101_0001001_0010001_0000_101_0100, .pubw true 9 17 5),
    (0b1_111101_0001001_0010001_00000000101, .objprb true 9 17),
    (0b1_111101_0000000_0010001_00000000110, .tagclr true 17),
    (0b1_111101_0000000_0010001_00000000111, .objfree true 17),
    (0b1_111110_0001001_0010001_00000000000, .ctxnew true 9 17),
    (0b1_111110_0000000_0010001_0000101_0001, .ctxgrant true 17 5)] := by decide +kernel

theorem test_words_16 : Reads [
    (0b1_111110_0000000_0010001_00000000010, .ctxrevoke true 17),
    (0b1_111110_0000000_0010001_0000101_0011, .ctxrun true 17 5),
    (0b1_111110_0001001_0010001_0010110_0100, .ctxinfo true 9 17 22),
    (0b1_111110_0000000_0010001_0000101_0101, .trapup true 17 5),
    (0b1_111110_0001001_0010001_0000101_0110, .launch true 9 17 5),
    (0b1_111110_0001001_0010001_0000101_0111, .lwait true 9 17 5),
    (0b1_111110_0001001_0010001_0000101_1000, .lprio true 9 17 5),
    (0b1_111111_0001001_0010001_00000000000, .colr true 9 17),
    (0b1_111111_0001001_0010001_00000000001, .colg true 9 17),
    (0b1_111111_0001001_0010001_00000000010, .cols true 9 17),
    (0b1_111111_0001001_0010001_00000000011, .colb true 9 17),
    (0b1_111111_0001001_0010001_0000101_0100, .colw true 9 17 5),
    (0b1_111111_0000000_0010001_00000000101, .cola true 17)] := by decide +kernel

/-! ## Single steps -/

/-- Executing `i` at `s` answers a next state with `p`. -/
abbrev Execs (i : Instr) (s : State) (p : State → Bool) : Prop :=
  (match exec i s with
    | .next t => p t
    | _ => false) = true

/-- A step at `s`, with the word `w` where it fetches, answers a next state with `p`. -/
abbrev Steps (w : Nat) (s : State) (p : State → Bool) : Prop :=
  (match step (s.withFetchWord 32 w) with
    | .next t => p t
    | _ => false) = true

/-- VL set, and elements of vector registers of the width of VT. -/
def vec (s : State) (vl : Nat) (l : List (Nat × List Nat)) : State :=
  let s := s.modRegs fun r => { r with vl := vl }
  l.foldl (fun s x => s.modHart fun h => (x.2.zip (List.range x.2.length)).foldl (fun h y => h.setElem x.1 (vtBytes h.regs.vt) y.2 y.1) h) s

/-- The first elements of a vector register. -/
def elems (t : State) (v n : Nat) : List Nat := (List.range n).map (t.hart.elem v (vtBytes t.hart.regs.vt))

/-- The first bits of a mask register set. -/
def maskBits (s : State) (k : Nat) (l : List Bool) : State :=
  s.modRegs fun r => { r with masks := Sparse.putList clearBit r.masks (k * 65536) l }

def minusOne : Word := 0xFFFFFFFFFFFFFFFF

theorem test_step_add : Steps 0b1_000001_0000101_0000110_0000111_0000 (gpr .reset [(6, minusOne), (7, 3)]) (fun t => t.g 5 == 2 && t.hart.pc == 0x10004) := by decide +kernel
theorem test_step_convoy : Steps 0b0_000001_0000101_0000110_0000111_0001 (gpr .reset [(6, 1), (7, 3)]) (fun t => t.g 5 == minusOne - 1 && t.hart.convoy.length == 1) := by decide +kernel
theorem test_step_load : Steps 0b1_001101_0000011_0000001_100_00000000 (gpr .reset [(1, 0x10000)]) (fun t => t.g 3 == 0xFFFFFFFF9A0C0C00) := by decide +kernel
theorem test_step_illegal : Steps 0 .reset (fun t => t.hart.tcause == 0x01 && t.hart.pc == 0x10100 && t.hart.tpc == 0x10000 && t.hart.regs.tstat == 1) := by decide +kernel
theorem test_step_user_halt : Steps 0b1_011110_0000000_0000000_0000000_0110 .reset (fun t => t.hart.tcause == 0x05 && t.hart.tval == 0xBC000006) := by decide +kernel
theorem test_sra : Execs (.sra true 5 6 7) (gpr m0 [(6, minusOne - 7), (7, 65)]) (fun t => t.g 5 == minusOne - 3) := by decide +kernel
theorem test_sltn : Execs (.sltn true 5 6 7) (gpr m0 [(6, 1), (7, minusOne)]) (fun t => t.g 5 == 1) := by decide +kernel
theorem test_slt : Execs (.slt true 5 6 7) (gpr m0 [(6, 1), (7, minusOne)]) (fun t => t.g 5 == 0) := by decide +kernel
theorem test_ror : Execs (.ror true 6 6 7) (gpr m0 [(6, 1), (7, 1)]) (fun t => t.g 6 == 0x8000000000000000) := by decide +kernel
theorem test_mulh : Execs (.mulh true 5 6 7) (gpr m0 [(6, minusOne), (7, 2)]) (fun t => t.g 5 == minusOne) := by decide +kernel
theorem test_mulhn : Execs (.mulhn true 5 6 7) (gpr m0 [(6, minusOne), (7, 2)]) (fun t => t.g 5 == 1) := by decide +kernel
theorem test_div_zero : Execs (.div true 5 6 7) (gpr m0 [(6, 9)]) (fun t => t.g 5 == minusOne) := by decide +kernel
theorem test_div_least : Execs (.div true 5 6 7) (gpr m0 [(6, 0x8000000000000000), (7, minusOne)]) (fun t => t.g 5 == 0x8000000000000000) := by decide +kernel
theorem test_rem_sign : Execs (.rem true 5 6 7) (gpr m0 [(6, minusOne - 6), (7, 2)]) (fun t => t.g 5 == minusOne) := by decide +kernel
theorem test_remn_zero : Execs (.remn true 5 6 7) (gpr m0 [(6, 9)]) (fun t => t.g 5 == 9) := by decide +kernel
theorem test_addv_trap : Execs (.addv true 5 6 7) (gpr m0 [(6, 0x7FFFFFFFFFFFFFFF), (7, 1), (5, 8)]) (fun t => t.hart.tcause == 0x0D && t.g 5 == 8) := by decide +kernel
theorem test_clz : Execs (.clz true 5 6) (gpr m0 [(6, 1)]) (fun t => t.g 5 == 63) := by decide +kernel
theorem test_ctz_zero : Execs (.ctz true 5 6) m0 (fun t => t.g 5 == 64) := by decide +kernel
theorem test_popc : Execs (.popc true 5 6) (gpr m0 [(6, 0xF0F)]) (fun t => t.g 5 == 8) := by decide +kernel
theorem test_bswap : Execs (.bswap true 5 6) (gpr m0 [(6, 0x0102030405060708)]) (fun t => t.g 5 == 0x0807060504030201) := by decide +kernel
theorem test_sext8 : Execs (.sext8 true 5 6) (gpr m0 [(6, 0x180)]) (fun t => t.g 5 == minusOne - 0x7F) := by decide +kernel
theorem test_zext32 : Execs (.zext32 true 5 6) (gpr m0 [(6, minusOne)]) (fun t => t.g 5 == 0xFFFFFFFF) := by decide +kernel
theorem test_addi_negative : Execs (.addi true 5 6 0x7FF) (gpr m0 [(6, 3)]) (fun t => t.g 5 == 2) := by decide +kernel
theorem test_srai : Execs (.srai true 5 6 63) (gpr m0 [(6, 0x8000000000000000)]) (fun t => t.g 5 == minusOne) := by decide +kernel
theorem test_lihi : Execs (.lihi true 5 0x3FFFF) (gpr m0 [(5, 0x4000000000000001)]) (fun t => t.g 5 == 0x7FFFF) := by decide +kernel
theorem test_addpc : Execs (.addpc true 5 0x3FFFF) m0 (fun t => t.g 5 == 0xFFFC) := by decide +kernel
theorem test_write_zero : Execs (.addi true 0 6 1) (gpr m0 [(6, 3)]) (fun t => t.g 0 == 0) := by decide +kernel
theorem test_window : Execs (.addi true 70 0 1) (m0.modRegs fun r => { r with wb := 384 }) (fun t => Sparse.get zeroWord t.hart.regs.gpr 454 == 1) := by decide +kernel
theorem test_st_bytes : Execs (.st true 2 1 5 1) (gpr m0 [(1, 0x10040), (2, 0x11223344AABBCCDD)])
    (fun t => t.peekList (.phys 0x400043) 6 == [0, 0xDD, 0xCC, 0xBB, 0xAA, 0]) := by decide +kernel
theorem test_ld_sign : Execs (.ld true 3 1 0 0xFF) (gpr (m0.poke (.phys 0x40003F) [0x80, 1] false 0) [(1, 0x10040)]) (fun t => t.g 3 == minusOne - 0x7F) := by decide +kernel
theorem test_ldx_unsigned : Execs (.ldx true 3 1 2 3) (gpr (m0.poke (.phys 0x400040) [0x80, 0x81] false 0) [(1, 0x10000), (2, 0x40)]) (fun t => t.g 3 == 0x8180) := by decide +kernel
theorem test_ld_line : Execs (.ld true 3 1 6 0) (gpr m0 [(1, 0x100F9)]) (fun t => t.hart.tcause == 0x06 && t.hart.tval == 0x100F9) := by decide +kernel
theorem test_blt_back : Execs (.blt true 6 7 0x7FF) (gpr m0 [(6, minusOne), (7, 0)]) (fun t => t.hart.pc == 0xFFFC) := by decide +kernel
theorem test_bgen_not : Execs (.bgen true 6 7 5) (gpr m0 [(6, 0), (7, minusOne)]) (fun t => t.hart.pc == 0x10004) := by decide +kernel
theorem test_call : Execs (.call true 3) m0 (fun t => t.hart.pc == 0x1000C && t.hart.regs.lr == 0x10004) := by decide +kernel
theorem test_jr_zero : Execs (.jr true 5) m0 (fun t => t.hart.run == .retiring) := by decide +kernel
theorem test_loop : Execs (.loopi true false 3 2) m0 (fun t => t.hart.regs.ls0 == 0x10004 && t.hart.regs.le0 == 0x10008 && t.hart.regs.lc0 == 3 && t.hart.regs.tstat == 4) := by decide +kernel
theorem test_loop_zero : Execs (.loop true true 5 2) m0 (fun t => t.hart.pc == 0x1000C && t.hart.regs.tstat == 0) := by decide +kernel
theorem test_loop_end : Execs (.nop true) (m0.modRegs fun r => { r with ls0 := 0x8000, le0 := 0x10000, lc0 := 2, tstat := 4 }) (fun t => t.hart.pc == 0x8000 && t.hart.regs.lc0 == 1) := by decide +kernel
theorem test_mfs : Execs (.mfs true 5 0x003) m0 (fun t => t.g 5 == 0x40) := by decide +kernel
theorem test_mts_range : Execs (.mts true 5 0x002) (gpr m0 [(5, 8)]) (fun t => t.hart.tcause == 0x03 && t.hart.tval == 2) := by decide +kernel
theorem test_mts_vl : Execs (.mts true 5 0x004) (gpr m0 [(5, minusOne)]) (fun t => t.hart.regs.vl == 2048) := by decide +kernel
theorem test_winb : Execs (.winb true 16) m0 (fun t => t.hart.regs.wb == 16) := by decide +kernel
theorem test_trap : Execs (.trap true 0x55) m0 (fun t => t.hart.tcause == 0x19 && t.hart.tval == 0x55 && t.hart.pc == 0x10100 && t.hart.tpc == 0x10000) := by decide +kernel
theorem test_rft : Execs (.rft true) (m0.modHart fun h => { h with tpc := 0x20000, telix := 3, regs := { h.regs with tstat := 0x11 } })
    (fun t => t.hart.pc == 0x20000 && t.hart.elix == 3 && t.hart.regs.tstat == 0x14) := by decide +kernel
theorem test_amoadd : Execs (.amoaddRlx true 4 1 2 false) (gpr (m0.poke (.phys 0x400040) [0xFF, 0xFF, 0xFF, 0xFF, 7] false 0) [(1, 0x10040), (2, 2)])
    (fun t => t.g 4 == minusOne && t.peekList (.phys 0x400040) 5 == [1, 0, 0, 0, 7]) := by decide +kernel
theorem test_amocas_fails : Execs (.amocasAr true 4 1 2 true) (gpr (m0.poke (.phys 0x400040) [5] false 0) [(1, 0x10040), (2, 2), (4, 6)])
    (fun t => t.g 4 == 5 && t.peekList (.phys 0x400040) 1 == [5]) := by decide +kernel
theorem test_amomax : Execs (.amomaxRel true 4 1 2 true) (gpr m0 [(1, 0x10040), (2, minusOne)]) (fun t => t.g 4 == 0 && t.peekList (.phys 0x400040) 1 == [0]) := by decide +kernel
theorem test_amo_align : Execs (.amoswapAcq true 4 1 2 true) (gpr m0 [(1, 0x10044)]) (fun t => t.hart.tcause == 0x06) := by decide +kernel
theorem test_ldacq32 : Execs (.ldacq32 true 4 1) (gpr (m0.poke (.phys 0x400043) [0x80] false 0) [(1, 0x10040)]) (fun t => t.g 4 == 0xFFFFFFFF80000000) := by decide +kernel
theorem test_watch : Execs (.watch true 1) (gpr m0 [(1, 0x10041)]) (fun t => t.hart.watch == some ⟨.phys 0x400000, false⟩) := by decide +kernel
theorem test_vconf : Execs (.vconf true 6) (vec m0 2048 [(1, [5])]) (fun t => t.hart.regs.vnreg == 64 && t.hart.regs.vl == 1024 && t.hart.elem 1 4 0 == 0) := by decide +kernel
theorem test_vsetl : Execs (.vsetl true 5 6 0x00) (gpr m0 [(6, 9000)]) (fun t => t.g 5 == 8192 && t.hart.regs.vl == 8192 && t.hart.regs.vt == 0) := by decide +kernel
theorem test_vadd : Execs (.vadd true 3 1 2 false) (vec m0 2 [(1, [0xFFFFFFFF, 1]), (2, [2, 3]), (3, [9, 9, 9])]) (fun t => elems t 3 3 == [1, 4, 9]) := by decide +kernel
theorem test_vadd_masked : Execs (.vadd true 3 1 2 true) (maskBits (vec m0 2 [(1, [1, 1]), (2, [2, 3]), (3, [9, 9])]) 0 [false, true]) (fun t => elems t 3 2 == [9, 4]) := by decide +kernel
theorem test_vsub_x : Execs (.vsubX true 1 1 2 false) (gpr (vec m0 2 [(1, [1, 7])]) [(2, 3)]) (fun t => elems t 1 2 == [0xFFFFFFFE, 4]) := by decide +kernel
theorem test_vsra : Execs (.vsra true 3 1 2 false) (vec m0 1 [(1, [0x80000000]), (2, [33])]) (fun t => elems t 3 1 == [0xC0000000]) := by decide +kernel
theorem test_vmulh : Execs (.vmulh true 3 1 2 false) (vec m0 1 [(1, [0xFFFFFFFF]), (2, [2])]) (fun t => elems t 3 1 == [0xFFFFFFFF]) := by decide +kernel
theorem test_vdiv_zero : Execs (.vdiv true 3 1 2 false) (vec m0 2 [(1, [5, 0x80000000]), (2, [0, 0xFFFFFFFF])]) (fun t => elems t 3 2 == [0xFFFFFFFF, 0x80000000]) := by decide +kernel
theorem test_vaddsat : Execs (.vaddsat true 3 1 2 false) (vec m0 2 [(1, [0x7FFFFFFF, 0x80000000]), (2, [1, 0xFFFFFFFF])]) (fun t => elems t 3 2 == [0x7FFFFFFF, 0x80000000]) := by decide +kernel
theorem test_vabs : Execs (.vabs true 3 1 false) (vec m0 2 [(1, [0xFFFFFFFB, 0x80000000])]) (fun t => elems t 3 2 == [5, 0x80000000]) := by decide +kernel
theorem test_vmerge : Execs (.vmerge true 3 1 2 false) (maskBits (vec m0 2 [(1, [1, 1]), (2, [2, 2])]) 0 [true]) (fun t => elems t 3 2 == [2, 1]) := by decide +kernel
-- 1.5 + 2.25 = 3.75; 16777216 + 1 rounds to even.
theorem test_vfadd : Execs (.vfadd true 3 1 2 false) (vec m0 2 [(1, [0x3FC00000, 0x4B800000]), (2, [0x40100000, 0x3F800000])]) (fun t => elems t 3 2 == [0x40700000, 0x4B800000]) := by decide +kernel
theorem test_vfdiv_zero : Execs (.vfdiv true 3 1 2 false) (vec m0 2 [(1, [0x3F800000, 0]), (2, [0, 0])]) (fun t => elems t 3 2 == [0x7F800000, 0x7FC00000]) := by decide +kernel
-- 2 × 3 + 1 = 7.
theorem test_vfma : Execs (.vfma true 3 1 2 false) (vec m0 1 [(1, [0x40000000]), (2, [0x40400000]), (3, [0x3F800000])]) (fun t => elems t 3 1 == [0x40E00000]) := by decide +kernel
theorem test_vfsqrt : Execs (.vfsqrt true 3 1 false) (vec m0 2 [(1, [0x40800000, 0xBF800000])]) (fun t => elems t 3 2 == [0x40000000, 0x7FC00000]) := by decide +kernel
theorem test_vcmp_lt : Execs (.vcmpLt true 2 1 3 false) (vec m0 2 [(1, [0xFFFFFFFF, 2]), (3, [1, 1])]) (fun t => t.hart.regs.mask 2 0 && !t.hart.regs.mask 2 1) := by decide +kernel
theorem test_vcmp_nan : Execs (.vcmpFle true 2 1 1 false) (vec m0 2 [(1, [0x7FC00000, 0x3F800000])]) (fun t => !t.hart.regs.mask 2 0 && t.hart.regs.mask 2 1) := by decide +kernel
theorem test_mandn : Execs (.mandn true 3 1 2 false) (maskBits (maskBits (vec m0 2 []) 1 [true, true]) 2 [true, false]) (fun t => !t.hart.regs.mask 3 0 && t.hart.regs.mask 3 1) := by decide +kernel
theorem test_mfirst : Execs (.mfirst true 5 1 false) (maskBits (vec m0 4 []) 1 [false, false, true, true]) (fun t => t.g 5 == 2) := by decide +kernel
-- 3.75 to the nearest integer is 4; −1.5 to even is −2.
theorem test_cvt_fi : Execs (.cvtFi true 3 1 0x40 false) (vec m0 2 [(1, [0x40700000, 0xBFC00000])]) (fun t => elems t 3 2 == [4, 0xFFFFFFFE]) := by decide +kernel
theorem test_vrin_vrout : Execs (.vrin true 3 1 false) (vec m0 1 [(1, [0xFFFFFFFD])])
    (fun t => (match exec (.vrout true 4 3 false) t with
      | .next u => elems u 4 1 == [0xFFFFFFFD]
      | _ => false)) := by decide +kernel
theorem test_vsum : Execs (.vsum true 5 1 false) (vec m0 3 [(1, [0xFFFFFFFF, 0x7FFFFFFF, 0x7FFFFFFF])]) (fun t => t.g 5 == 0xFFFFFFFD) := by decide +kernel
theorem test_vrmax_empty : Execs (.vrmax true 5 1 false) m0 (fun t => t.g 5 == 0xFFFFFFFF80000000) := by decide +kernel
theorem test_vfsumo : Execs (.vfsumo true 5 1 false) (vec m0 3 [(1, [0x3F800000, 0x40000000, 0x40400000])]) (fun t => t.g 5 == 0x40C00000) := by decide +kernel
theorem test_vslup : Execs (.vslup true 1 1 2 false) (gpr (vec m0 3 [(1, [1, 2, 3])]) [(2, 1)]) (fun t => elems t 1 3 == [1, 1, 2]) := by decide +kernel
theorem test_vsldn : Execs (.vsldn true 1 1 2 false) (gpr (vec m0 3 [(1, [1, 2, 3, 4])]) [(2, 1)]) (fun t => elems t 1 4 == [2, 3, 0, 4]) := by decide +kernel
theorem test_vcomp : Execs (.vcomp true 2 1 3 false) (maskBits (vec m0 3 [(1, [1, 2, 3]), (2, [9, 9, 9])]) 3 [false, true, true]) (fun t => elems t 2 3 == [2, 3, 9]) := by decide +kernel
theorem test_vexpd : Execs (.vexpd true 2 1 3 false) (maskBits (vec m0 3 [(1, [1, 2, 3]), (2, [9, 9, 9])]) 3 [false, true, true]) (fun t => elems t 2 3 == [9, 1, 2]) := by decide +kernel
theorem test_viota : Execs (.viota true 2 3 false) (maskBits (vec m0 3 []) 3 [true, false, true]) (fun t => elems t 2 3 == [0, 1, 1]) := by decide +kernel
theorem test_vrgath : Execs (.vrgath true 1 1 2 false) (vec m0 3 [(1, [5, 6, 7]), (2, [2, 3, 0])]) (fun t => elems t 1 3 == [7, 0, 5]) := by decide +kernel
theorem test_vextr : Execs (.vextr true 5 1 2 false) (gpr (vec m0 2 [(1, [1, 0x80000000])]) [(2, 1)]) (fun t => t.g 5 == 0xFFFFFFFF80000000) := by decide +kernel
theorem test_vld : Execs (.vld true 1 2 false) (gpr (vec (m0.poke (.phys 0x400040) [1, 0, 0, 0, 2] false 0) 2 []) [(2, 0x10040)]) (fun t => elems t 1 2 == [1, 2]) := by decide +kernel
theorem test_vlds_back : Execs (.vlds true 1 2 3 false) (gpr (vec (m0.poke (.phys 0x400040) [1, 0, 0, 0, 2] false 0) 2 []) [(2, 0x10044), (3, minusOne)]) (fun t => elems t 1 2 == [2, 1]) := by decide +kernel
theorem test_vst : Execs (.vst true 1 2 false) (gpr (vec m0 2 [(1, [0x0201, 0x0403])]) [(2, 0x10040)]) (fun t => t.peekList (.phys 0x400040) 8 == [1, 2, 0, 0, 3, 4, 0, 0]) := by decide +kernel
theorem test_vgth : Execs (.vgth true 1 2 3 false) (gpr (vec (m0.poke (.phys 0x400040) [1, 0, 0, 0, 2] false 0) 2 [(3, [17, 16])]) [(2, 0x10000)]) (fun t => elems t 1 2 == [2, 1]) := by decide +kernel
theorem test_vscto_last : Execs (.vscto true 1 2 3 false) (gpr (vec m0 2 [(1, [5, 6]), (3, [16, 16])]) [(2, 0x10000)]) (fun t => t.peekList (.phys 0x400040) 1 == [6]) := by decide +kernel
theorem test_vxit : Execs (.vxit true 1 false) (maskBits ((vec m0 4 []).modHart fun h => { h with region := ⟨true, false, false, false, [], []⟩ }) 1 [false, false, true, true])
    (fun t => t.hart.regs.bx == 2) := by decide +kernel
theorem test_vxlen : Execs (.vxlen true 5 false) ((vec m0 4 []).modRegs fun r => { r with bx := 2 }) (fun t => t.g 5 == 2) := by decide +kernel
theorem test_bxany : Execs (.bxany true 4) (m0.modHart fun h => { h with region := ⟨true, false, false, false, [], []⟩, regs := { h.regs with bx := 2 } })
    (fun t => t.hart.pc == 0x10010 && t.hart.region.exited) := by decide +kernel
theorem test_vrang : Execs (.vrang true 3 1 2 false) (gpr (vec m0 1 [(1, [0x3F000000])]) [(2, 3)]) (fun t => elems t 3 1 == [0x3FC00000]) := by decide +kernel
theorem test_vrot_zero : Execs (.vrot true 3 1 2 false) (vec m0 2 [(1, [0x3F800000, 0x40000000]), (2, [0, 0])]) (fun t => elems t 3 2 == [0x3F800000, 0x40000000]) := by decide +kernel
theorem test_vgqpop_empty : Execs (.vgqpop true 1 false) m0 (fun t => t.hart.tcause == 0x03) := by decide +kernel
theorem test_tconf : Execs (.tconf true 5 6) (gpr m0 [(6, 5)]) (fun t => t.g 5 == 0 && (t.tile 2).claim == some 0 && (t.tile 1).claim == none) := by decide +kernel
theorem test_tzero_unclaimed : Execs (.tzero true 3) m0 (fun t => t.hart.tcause == 0x04 && t.hart.tval == 3) := by decide +kernel
theorem test_sxw : Execs (.sxw true 6 16) (gpr m0 [(6, 7)]) (fun t => Sparse.get zeroWord t.hart.sx 16 == 7 && Sparse.get zeroWord t.hart.sx 2 == 1) := by decide +kernel
theorem test_sxr_reset : Execs (.sxr true 5 7) m0 (fun t => t.g 5 == 0x100000001) := by decide +kernel
theorem test_barw_trap : Execs (.barw true 2 3) m0 (fun t => t.hart.tcause == 0x1D && t.hart.tval == 3) := by decide +kernel
theorem test_coord : Execs (.coord true 5 6 2) (gpr m0 [(6, 0)]) (fun t => t.g 5 == 0x70000000000000) := by decide +kernel
theorem test_grforce_unbound : Execs (.grforce true 5) m0 (fun t => t.hart.tcause == 0x11 && t.hart.tval == 0x10000) := by decide +kernel
theorem test_tagld_untracked : Execs (.tagld true 5 1) (gpr m0 [(1, 0x10040)]) (fun t => t.g 5 == minusOne) := by decide +kernel
theorem test_objprb_none : Execs (.objprb true 5 1) (gpr m0 [(1, 0x10040), (5, 3)]) (fun t => t.g 5 == 0) := by decide +kernel
theorem test_pubw_null : Execs (.pubw true 5 1 2) (gpr m0 [(5, 3)]) (fun t => t.g 5 == 0) := by decide +kernel
theorem test_ctxnew_user : Execs (.ctxnew true 5 1) m0 (fun t => t.hart.tcause == 0x05) := by decide +kernel
theorem test_ctxinfo_own : Execs (.ctxinfo true 5 1 14) (gpr m0 [(1, minusOne)]) (fun t => t.g 5 == 7) := by decide +kernel
theorem test_lprio_none : Execs (.lprio true 5 1 2) (gpr m0 [(1, 0x10040), (2, 7)]) (fun t => t.g 5 == minusOne) := by decide +kernel
theorem test_colw_none : Execs (.colw true 5 1 2) (gpr m0 [(5, 3)]) (fun t => t.g 5 == 0) := by decide +kernel
theorem test_alarm_reset : Execs .alarmRegisterWrite (m0.modPkg fun p => { p with alarm := 2 }) (fun t => t.pkg.alarm == 0) := by decide +kernel
theorem test_lane_failure : Execs (.laneFailure 3) m0 (fun t => (t.pkg.links.map (·.lanes)) == [8, 8, 8, 4, 8, 8, 8, 8, 8, 8, 8, 8, 8, 8, 8, 8]) := by decide +kernel
theorem test_idle : (match step { State.reset with hart := { State.reset.hart with run := .retired } } with
    | .fault f => f == .idle
    | _ => false) = true := by decide +kernel

/-! ## States and operands that meet the hypotheses of the statements, clause by clause

Each `witness_<Name>` meets the hypotheses of `Obligations.<Name>`; where `gives` stands, the conclusion has been computed there as well. -/

/-- Executing `i` at `s` answers exactly `t`. -/
noncomputable def gives (i : Instr) (s t : State) : Bool :=
  match exec i s with
  | .next u => decide (u = t)
  | _ => false

/-- An access passes, and what it leaves has `p`. -/
def okWith {α β : Type} (x : State × Except β α) (p : State → α → Bool) : Bool :=
  match x with
  | (u, .ok r) => p u r
  | _ => false

theorem okWith_exists {α β : Type} {x : State × Except β α} {p : State → α → Bool} (h : okWith x p = true) :
    ∃ u r, x = (u, .ok r) ∧ p u r = true := by
  obtain ⟨u, y⟩ := x
  cases y with
  | ok r => exact ⟨u, r, rfl, h⟩
  | error e => cases h

/-- The access lands, with what it leaves. -/
theorem lands {s : State} {use : Use} {ea : Word} {n : Nat} {p : State → Reached → Bool}
    (h : okWith (s.access ea n use) (fun t r => p (t.eccAccess r.place n) r) = true) : ∃ u r, Lands s use ea n u r ∧ p u r = true := by
  obtain ⟨u, r, e, h⟩ := okWith_exists h
  exact ⟨_, r, ⟨u, e, rfl⟩, h⟩

/-- The load completes, with what it leaves and the number it reads. -/
theorem loads {s : State} {ea : Word} {n : Nat} {p : State → Nat → Bool} (h0 : ea.toNat % 256 + n ≤ 256)
    (h : okWith (s.access ea n .read) (fun t r => !(t.eccAccess r.place n).viewPoison ownScalar r.place n &&
      decide ((t.eccAccess r.place n).stale r.place n = []) &&
      p ((t.eccAccess r.place n).readList ownScalar r.place n).1 (bytesToNat ((t.eccAccess r.place n).readList ownScalar r.place n).2)) = true) :
    ∃ u x, Loads s ea n u x ∧ p u x = true := by
  obtain ⟨u, r, e, h⟩ := okWith_exists h
  simp only [Bool.and_eq_true, Bool.not_eq_true', decide_eq_true_eq] at h
  exact ⟨_, _, ⟨h0, _, r, ⟨u, e, rfl⟩, h.1.1, rfl, rfl⟩, h.2⟩

/-- The acquiring load completes, with what it leaves and the number it reads. -/
theorem acquires {s : State} {ea : Word} {n : Nat} {p : State → Nat → Bool} (h0 : ea.toNat % 256 + n ≤ 256)
    (h : okWith (s.access ea n .read) (fun t r => !(t.eccAccess r.place n).viewPoison ownScalar r.place n &&
      p ((t.eccAccess r.place n).acquired r.place) (bytesToNat ((t.eccAccess r.place n).viewList ownScalar r.place n))) = true) :
    ∃ u x, Acquires s ea n u x ∧ p u x = true := by
  obtain ⟨u, r, e, h⟩ := okWith_exists h
  simp only [Bool.and_eq_true, Bool.not_eq_true'] at h
  exact ⟨_, _, ⟨h0, _, r, ⟨u, e, rfl⟩, h.1, rfl, rfl⟩, h.2⟩

/-- The result of an access that passed. -/
def okResult {α β : Type} (x : State × Except β α) : Option α :=
  match x.2 with
  | .ok r => some r
  | .error _ => none

theorem witness_ScalarRegistersReadAsWritten :
    (127 : GReg) ≠ 0 ∧ (63 : GReg) ≠ 0 ∧ (63 : GReg).toNat < 64 ∧ (1 : GReg).toNat < 64 ∧ (63 : GReg) ≠ 1 ∧ (0 : Nat) ≠ (384 + 127) % 512 := by decide

theorem witness_ArithmeticResults :
    arithmetic (gpr m0 [(6, 5), (7, 7)]) (.sub true 127 6 7) = some (true, 127, 0xFFFFFFFFFFFFFFFE) ∧
    constant (gpr m0 [(6, 5)]) (.addi false 0 6 0x7FF) = some (false, 0, 4) := by decide +kernel

theorem witness_CheckedArithmetic : Quiet m0 ∧
    (let s := gpr m0 [(6, 0x7FFFFFFFFFFFFFFE), (7, 1)]; (s.g 6).toInt + (s.g 7).toInt = 2 ^ 63 - 1) ∧
    (let s := gpr m0 [(6, 0x7FFFFFFFFFFFFFFF), (7, 1)]; (s.g 6).toInt + (s.g 7).toInt = 2 ^ 63) ∧
    (let s := gpr m0 [(6, 0x8000000000000000), (7, 1)]; (s.g 6).toInt - (s.g 7).toInt = -(2 ^ 63) - 1) := by
  unfold Quiet; decide +kernel

/-- A load or store of 8 bytes at the end of a line, and one that would cross it. -/
def atLine : State := gpr m0 [(1, 0x100F8), (2, 0x100F9), (3, 0x20000), (4, 0x1122334455667788)]

theorem witness_ScalarLoadResults : size 6 = some 8 ∧
    (∃ u x, Loads atLine (atLine.g 1 + BitVec.ofInt 64 ((0 : BitVec 8).toInt * 8)) 8 u x ∧
      gives (.ld true 5 1 6 0) atLine ((u.modRegs fun _ => u.hart.regs.setG 5 (extended 6 x)).retire true) = true) ∧
    (∃ u x, Loads atLine (atLine.g 1 + atLine.g 0) 8 u x ∧
      gives (.ldx true 5 1 0 6) atLine ((u.modRegs fun _ => u.hart.regs.setG 5 (extended 6 x)).retire true) = true) ∧
    (∃ u r, Lands atLine .read (atLine.g 1) 8 u r ∧ (!u.viewPoison ownScalar r.place 8 && decide (u.stale r.place 8 = []) &&
      decide (unitsOf r.place 8 = [(0, 8)])) = true) ∧
    (∃ u r, Lands atLine .read (atLine.g 1 - 7) 4 u r ∧ (!u.viewPoison ownScalar r.place 4 && decide (u.stale r.place 4 = []) &&
      decide (unitsOf r.place 4 ≠ [(0, 4)]) && (List.range 4).all fun k => decide (u.objOf (r.place.add k) = none)) = true) :=
  ⟨rfl, loads (by decide +kernel) (by decide +kernel), loads (by decide +kernel) (by decide +kernel), lands (by decide +kernel), lands (by decide +kernel)⟩

theorem witness_ScalarStoreResults : Quiet atLine ∧ (atLine.g 1).toNat % 256 + 8 ≤ 256 ∧
    ∃ u r, Lands atLine .write (atLine.g 1 + BitVec.ofInt 64 ((0 : BitVec 8).toInt * 8)) 8 u r ∧
      (gives (.st true 4 1 6 0) atLine ((u.issueStore (scalarPending u r 8 (atLine.g 4))).retire true) &&
       gives (.stx true 4 1 0 6) atLine ((u.issueStore (scalarPending u r 8 (atLine.g 4))).retire true)) = true :=
  ⟨by unfold Quiet; decide +kernel, by decide +kernel, lands (by decide +kernel)⟩

theorem witness_ScalarAccessTraps : Quiet atLine ∧ (atLine.g 2).toNat % 256 + 8 > 256 ∧ (atLine.g 3).toNat % 256 + 8 ≤ 256 ∧
    atLine.hart.padOffset (atLine.g 3) = none ∧
    (match atLine.lookup atLine.hart.ctx (atLine.g 3).toNat with
      | .error f => f.cause == 0x07
      | .ok _ => false) = true := by
  unfold Quiet; decide +kernel

theorem witness_StoreChangesItsBytesOnly : AtOnce m0 ∧ inScan 0x400040 = false ∧ m0.others = [] ∧ m0.linkLost (.phys 0x400040) = false ∧
    ((m0.objOf (.phys 0x400040)).all fun o => o.scope == 0) = true := by unfold AtOnce; decide +kernel

theorem witness_StoreSeenByOwnLoads : inScan 0x400040 = false ∧ inScan (0x400040 + 7) = false ∧ (m0.team? 0).isSome = true ∧
    m0.linkLost (.phys 0x400040) = false ∧ m0.linkLost (.pad 0 8) = false ∧ m0.hart.stores = [] ∧ m0.others = [] := by decide +kernel

theorem witness_BranchResults :
    condition (gpr m0 [(6, 0xFFFFFFFFFFFFFFFF)]) (.blt true 6 7 0x7FF) = some (true, 0x7FF, true) ∧
    condition (gpr m0 [(6, 0xFFFFFFFFFFFFFFFF)]) (.bltn false 6 7 3) = some (false, 3, false) := by decide +kernel

/-- Level 0 runs from 0x8000 to the program counter. -/
def inLoop (count : Word) : State := m0.modRegs fun r => { r with ls0 := 0x8000, le0 := 0x10000, lc0 := count, tstat := 4, lr := 0x9000 }

theorem witness_JumpResults : Quiet m0 ∧ Quiet (inLoop 2) ∧ m0.g 5 = 0 ∧ (gpr m0 [(5, 0x9000)]).g 5 ≠ 0 ∧ m0.hart.regs.lr = 0 ∧
    (inLoop 2).hart.regs.lr ≠ 0 ∧ m0.hart.regs.isLoopEnd m0.hart.pc = false ∧ (inLoop 2).hart.regs.isLoopEnd (inLoop 2).hart.pc = true := by
  unfold Quiet; decide +kernel

theorem witness_LoopResults : Quiet m0 ∧ Quiet (inLoop 2) ∧ (inLoop 2).hart.regs.la false = true ∧ m0.hart.regs.la false = false ∧
    m0.hart.regs.la true = false ∧ (inLoop 2).hart.regs.la true = false ∧ ¬ (inLoop 2).hart.pc + BitVec.ofNat 64 (4 * 1) < (inLoop 2).hart.regs.le false := by
  unfold Quiet; decide +kernel

theorem witness_ConvoyEndLoops :
    (m0.hart.regs.la false = false ∧ m0.hart.regs.la true = false) ∧
    ((inLoop 0).hart.regs.la false = true ∧ (inLoop 0).hart.regs.le false = (inLoop 0).hart.pc ∧ (inLoop 0).hart.regs.lc false ≠ 1) ∧
    ((inLoop 1).hart.regs.lc false = 1 ∧ (inLoop 1).hart.regs.la true = false) ∧
    (let r := ((inLoop 5).modRegs fun r => { r with ls1 := 0x9000, le1 := 0x10000, lc1 := 1, tstat := 12 }).hart.regs
     r.la false = true ∧ r.la true = true ∧ r.le true = 0x10000 ∧ r.le false = 0x10000 ∧ r.lc true = 1 ∧ r.lc false ≠ 1) := by decide +kernel

theorem witness_SystemResults : Quiet m0 ∧ m0.hart.regs.tstat.getLsbD 0 = false ∧ (sup m0).hart.regs.tstat.getLsbD 0 = true := by
  unfold Quiet; decide +kernel

theorem own_handler (s : State) (cause : BitVec 8) (c : Ctx) (h : s.ctx? s.hart.ctx = some c) (ht : Quiet s)
    (hu : s.hart.regs.tstat.getLsbD 0 = false) (he : c.enable.getLsbD cause.toNat = true) : OwnHandler s cause := ⟨ht, hu, c, h, he⟩

theorem witness_SoftwareTrapsEnter : OwnHandler m0 0x19 ∧ OwnHandler m0 0x18 ∧ OwnHandler m0 0x1F ∧ m0.recorderOf m0.hart.crew = none ∧ m0.executes = true :=
  ⟨own_handler m0 _ (Ctx.crown .nominal) (by decide +kernel) (by decide +kernel) (by decide +kernel) (by decide +kernel),
   own_handler m0 _ (Ctx.crown .nominal) (by decide +kernel) (by decide +kernel) (by decide +kernel) (by decide +kernel),
   own_handler m0 _ (Ctx.crown .nominal) (by decide +kernel) (by decide +kernel) (by decide +kernel) (by decide +kernel), by decide +kernel, by decide +kernel⟩

theorem witness_ReturnFromTrap : Quiet (sup m0) ∧ (sup m0).hart.regs.tstat.getLsbD 0 = true ∧ (sup m0).hart.serves = none := by
  unfold Quiet; decide +kernel

theorem witness_SpecialRegisterReads : Quiet m0 ∧ specialValue m0 0x003 = some 0x40 ∧ userReadable 0x003 = true ∧ specialValue (sup m0) 0x020 = some 0 ∧
    specialValue m0 0x026 = some 0 ∧ userReadable 0x020 = false ∧ userReadable 0x026 = false ∧ userReadable 0x025 = true := by
  unfold Quiet; decide +kernel

theorem witness_SpecialRegisterWrites : Quiet m0 ∧ mtsLegal 0x043 = true ∧ userWritable 0x043 = true ∧ inRange (padSize m0) 0x043 (2 ^ 55 - 1) = true ∧
    inRange (padSize m0) 0x043 (2 ^ 55) = false ∧ inRange (padSize m0) 0x036 0x100000 = true ∧ inRange (padSize m0) 0x036 0x100100 = false ∧
    userWritable 0x020 = false ∧ mtsLegal 0x020 = true ∧ inRange (padSize m0) 0x020 255 = true := by
  unfold Quiet; decide +kernel

theorem witness_ScalarResultFrame : arithmetic m0 (.add true 5 6 7) = some (true, 5, 0) ∧ constant m0 (.lim true 5 1) = some (true, 5, 1) ∧
    (sup m0).hart.regs.tstat.getLsbD 0 = true ∧ gives (.add true 5 6 7) m0 ((m0.modRegs fun r => r.setG 5 0).retire true) = true := by decide +kernel

/-- No element that an element below VL consumes is poisoned. -/
theorem clean {h : Hart} {m : Bool} {src : Nat → List (Nat × Nat × Nat)}
    (hh : (List.range h.regs.vl).all (fun j => (src j).all fun x => !h.elemPoison x.1 x.2.1 x.2.2) = true) : Clean h m src := by
  intro j hj x hx
  simp only [Hart.active, Bool.and_eq_true, decide_eq_true_eq] at hj
  simp only [List.all_eq_true, List.mem_range, Bool.not_eq_true'] at hh
  exact hh j hj.1.1.1.1 x hx

/-- A pass whose elements all pass their checks. -/
theorem passes {s : State} {w : Sweep} {p : State → List Got → Bool}
    (h : ((s.checkAll w w.elems).2.all (fun r => (gotOf r).isSome) && p (s.checkAll w w.elems).1 ((s.checkAll w w.elems).2.filterMap gotOf)) = true) :
    ∃ u gs, Passes s w u gs ∧ p u gs = true := by
  simp only [Bool.and_eq_true, List.all_eq_true] at h
  refine ⟨_, _, ⟨_, rfl, fun r hr => ?_, rfl⟩, h.2⟩
  have := h.1 r hr
  unfold gotOf at this
  revert this
  cases r.2 with
  | ok g => exact fun _ => ⟨g, rfl⟩
  | error e => simp

/-- Eight bytes at 0x10040 hold 5; g2 = 7, g4 = 5. -/
def atomicCell : State := gpr (m0.poke (.phys 0x400040) [5] false 0) [(1, 0x10040), (2, 7), (3, 0x10044), (4, 5)]

/-- What `Obligations.AtomicResults` asks for a compare and swap. -/
noncomputable def casLeaves (u : State) (r : Reached) : Bool :=
  let v := u.drainAll
  decide (r.place ≠ nowhere) && !u.viewPoison ownScalar r.place 8 && gives (.amocasAr true 4 1 2 true) atomicCell
    ((((v.acquired r.place).perform ⟨r.place, natToBytes 7 8, false, false, false, v.hart.ctx, r.dirty, r.via, false⟩).setG 4 5).retire true)

/-- The page at 0x20000 maps an assigned frame of port 0's host window, and the port runs as PCIe (R422, R423). -/
def hosted (atomicOps : Bool) : State :=
  (gpr { m0 with mem := Memory.writeList (Memory.writeList m0.mem (Config.crownRoot + 0x20010) (natToBytes (2 ^ 50 + 0xF) 8)) (Config.frameTableBase + 2 ^ 34) [0] } [(1, 0x20040), (2, 7), (4, 5)]).modPkg fun p =>
    { p with port0 := { p.port0 with up := true, mode := 5, nextMode := 5, atomicOps := atomicOps } }

/-- A PCIe port refuses an atomic: an AND, which is no AtomicOp, or any where the partner completes none. -/
noncomputable def portRefuses (i : Instr) (s t : State) (r : Reached) : Bool :=
  (t.portAt r.place).any (fun p => p.mode == 5) && gives i s (t.deliver (.own 0x0A (s.g 1)))

theorem witness_AtomicResults : Quiet atomicCell ∧ (atomicCell.g 3).toNat % 8 ≠ 0 ∧ (atomicCell.g 1).toNat % 8 = 0 ∧
    (∃ u r, atomicCell.access (atomicCell.g 1) 8 .write none (some true) = (u, .ok r) ∧ casLeaves (u.eccAccess r.place 8) r = true) ∧
    Quiet (hosted true) ∧ ((hosted true).g 1).toNat % 8 = 0 ∧
    (∃ t r, (hosted true).reach ((hosted true).g 1) 8 .write = (t, .ok r) ∧ portRefuses (.amoandRlx true 4 1 2 true) (hosted true) t r = true) ∧
    (∃ t r, (hosted false).reach ((hosted false).g 1) 8 .write = (t, .ok r) ∧ portRefuses (.amoaddRlx true 4 1 2 true) (hosted false) t r = true) :=
  ⟨by unfold Quiet; decide +kernel, by decide +kernel, by decide +kernel, okWith_exists (by decide +kernel), by unfold Quiet; decide +kernel,
   by decide +kernel, okWith_exists (by decide +kernel), okWith_exists (by decide +kernel)⟩

/-- The hart watches a line, as WAITW finds it. -/
def watching (fired : Bool) (w : Waiting) : State := atomicCell.modHart fun h => { h with watch := some ⟨.phys 0x400000, fired⟩, waiting := w }

theorem witness_OrderedAccessResults : Quiet atomicCell ∧ (atomicCell.g 1).toNat % 8 = 0 ∧ (atomicCell.g 3).toNat % 4 = 0 ∧
    (∃ u x, Acquires atomicCell (atomicCell.g 3) 4 u x ∧
      gives (.ldacq32 true 5 3) atomicCell ((u.modRegs fun _ => u.hart.regs.setG 5 (BitVec.ofInt 64 (signed 32 x))).retire true) = true) ∧
    (∃ u x, Acquires atomicCell (atomicCell.g 1) 8 u x ∧
      gives (.ldacq64 true 5 1) atomicCell ((u.modRegs fun _ => u.hart.regs.setG 5 (BitVec.ofNat 64 x)).retire true) = true) ∧
    (∃ u r, Lands atomicCell .write (atomicCell.g 1) 8 u r ∧
      gives (.strel64 true 4 1) atomicCell ((u.drainAll.issueStore (scalarPending u.drainAll r 8 (u.drainAll.g 4))).retire true) = true) ∧
    (∃ u r, atomicCell.access (atomicCell.g 1) 1 .probe = (u, .ok r) ∧
      gives (.watch true 1) atomicCell (((u.current r.place.line 256).modHart fun h => { h with watch := some ⟨r.place.line, false⟩ }).retire true) = true) ∧
    (atomicCell.hart.watch = none ∧ Quiet (watching true .none) ∧ Quiet (watching false (.until 0)) ∧ (watching false (.until 1)).preemptDue = false ∧
      (watching false (.until 0)).pkg.cycle / 256 = 0) :=
  ⟨by unfold Quiet; decide +kernel, by decide +kernel, by decide +kernel, acquires (by decide +kernel) (by decide +kernel),
   acquires (by decide +kernel) (by decide +kernel), lands (by decide +kernel), okWith_exists (by decide +kernel), by unfold Quiet; decide +kernel⟩

theorem witness_FenceResults : Quiet m0 ∧ m0.hart.waiting = .none ∧ (∀ q ∈ atomicCell.hart.stores, atomicCell.stuck q = false) ∧
    (m0.modHart fun h => { h with waiting := .boundary 0 }).pkg.cycle / 256 = 0 ∧
    ((m0.modPkg fun p => { p with cycle := 256 }).pkg.cycle / 256 = 1) := by unfold Quiet; decide +kernel

theorem witness_VectorConfiguration : Quiet m0 ∧ m0.hart.region.isOpen = false ∧ 2 ^ 6 ≤ m0.hart.rows ∧ m0.hart.matrix = [] ∧ m0.hart.gathers = [] ∧
    (m0.modHart fun h => { h with rows := 32 }).hart.rows < 2 ^ 6 := by unfold Quiet; decide +kernel

/-- A pre-emption stops the next member at its second element. -/
def cutPair : State := (vec m0 2 [(1, [1, 2]), (2, [5, 5])]).modHart fun h => { h with cut := some 1 }

theorem witness_IntegerVectorResults : (vec m0 2 []).hart.cut = none ∧ (vec m0 2 [(1, [1, 2])]).hart.cut = none ∧
    (∃ r, integerVector cutPair (.vadd true 3 1 2 false) = some (false, r) ∧ Clean cutPair.hart false r.src) ∧
    (cutPair.hart.cut = some 1 ∧ cutPair.hart.elix ≤ 1 ∧ 1 < cutPair.hart.regs.vl) ∧
    Execs (.vadd true 3 1 2 false) cutPair (fun t => t.hart.elix == 1 && elems t 3 2 == [6, 0] && t.hart.pc == 0x10000) ∧
    (∃ r, integerVector (vec m0 2 [(1, [1, 2])]) (.vadd true 3 1 2 false) = some (false, r) ∧ Clean (vec m0 2 [(1, [1, 2])]).hart false r.src) ∧
    (∃ r, integerVector (vec m0 2 []) (.vminX true 3 1 0 true) = some (true, r) ∧ Clean (vec m0 2 []).hart true r.src) ∧
    (∃ r, maskVector (vec m0 2 []) (.vcmpGe true 3 1 2 false) = some (false, r) ∧ Clean (vec m0 2 []).hart false r.src) :=
  ⟨rfl, rfl, ⟨_, rfl, clean (by decide +kernel)⟩, by decide +kernel, by decide +kernel, ⟨_, rfl, clean (by decide +kernel)⟩, ⟨_, rfl, by exact clean (by decide +kernel)⟩,
   ⟨_, rfl, clean (by decide +kernel)⟩⟩

theorem witness_FloatVectorResults : (vec m0 2 []).hart.cut = none ∧
    floatOf (vec m0 2 []).hart.regs.vt = some fp32 ∧
    (∃ r, floatVector (vec m0 2 []) fp32 (.vfma true 3 1 2 false) = some (false, r) ∧ Clean (vec m0 2 []).hart false r.src) ∧
    (∃ r, floatMask (vec m0 2 []) fp32 (.vcmpFltX true 3 1 2 false) = some (false, r) ∧ Clean (vec m0 2 []).hart false r.src) ∧
    (Quiet m0 ∧ floatOf (m0.modRegs fun r => { r with vt := 0x60 }).hart.regs.vt = none) :=
  ⟨rfl, by decide +kernel, ⟨_, rfl, clean (by decide +kernel)⟩, ⟨_, rfl, clean (by decide +kernel)⟩, by unfold Quiet; decide +kernel⟩

theorem witness_ConversionResults : (vec m0 2 []).hart.cut = none ∧
    (conversion (.cvtFi true 3 1 0x00 false)).isSome = true ∧ (kindOf true (vec m0 2048 []).hart.regs.vt).isSome = true ∧ (kindOf false 0x00).isSome = true ∧
    (vec m0 2048 []).hart.regs.vl ≤ (vec m0 2048 []).hart.rb / max 4 1 ∧ (3 : VReg) ≠ 1 ∧
    Clean (vec m0 2 []).hart false (fun j => [(1, 4, j)]) :=
  ⟨rfl, by decide +kernel, by decide +kernel, by decide +kernel, by decide +kernel, by decide, clean (by decide +kernel)⟩

/-- One element that is no residue value. -/
def badResidue : State := vec m0 1 [(1, [0xFFFFFFFF])]

theorem witness_ResidueResults : badResidue.hart.cut = none ∧ Quiet badResidue ∧ vtBytes badResidue.hart.regs.vt = 4 ∧ badResidue.hart.elix = 0 ∧ badResidue.hart.active false 0 = true ∧
    (∃ r, residue (.vrout true 3 1 false) = some r ∧ r.f (badResidue.hart.elem 1 4 0) 0 = none ∧ (r.f (m0.hart.elem 1 4 0) 0).isSome = true) ∧
    (badResidue.hart.regs.astat.getLsbD 2 = false ∧ (badResidue.modRegs fun r => { r with astat := 4 }).hart.regs.astat.getLsbD 2 = true ∧
      badResidue.hart.region.isOpen = false) ∧
    Clean badResidue.hart false (fun j => [(1, 4, j)]) :=
  ⟨rfl, by unfold Quiet; decide +kernel, by decide +kernel, by decide +kernel, by decide +kernel, ⟨_, rfl, by decide +kernel⟩, by decide +kernel,
   clean (by decide +kernel)⟩

theorem witness_ReductionResults : let s := vec m0 2 [(1, [0x3F800000, 0x40000000])]
    s.hart.cut = none ∧ (∃ v, reduced s (.vsum true 5 1 false) = some (true, 5, some 1, false, v)) ∧ s.hart.elix = 0 ∧
    (∀ j ∈ act s false, s.hart.elemPoison 1 4 j = false) ∧ floatOf s.hart.regs.vt = some fp32 ∧
    (∃ v, floatReduced s fp32 (.vfsumt true 5 1 false) = some (true, 5, 1, false, v)) :=
  ⟨rfl, ⟨_, rfl⟩, by decide +kernel, by decide +kernel, by decide +kernel, ⟨_, rfl⟩⟩

theorem witness_PermuteResults : let s := gpr (vec m0 2 [(1, [7, 8])]) [(2, 2), (3, 1)]
    s.hart.cut = none ∧ (∃ r, permute s (.vslup true 1 1 3 false) = some (false, r) ∧ Clean s.hart false r.src) ∧ s.hart.elix = 0 ∧ s.hart.regs.vl ≤ (s.g 2).toNat ∧
    (s.g 3).toNat < s.hart.regs.vl ∧ s.hart.elemPoison 1 4 1 = false :=
  ⟨rfl, ⟨_, rfl, clean (by decide +kernel)⟩, by decide +kernel, by decide +kernel, by decide +kernel, by decide +kernel⟩

/-- Three elements, the third poisoned and the others inactive under m0. -/
def poisonedPair : State := (maskBits (vec m0 3 [(1, [7, 8, 9])]) 0 [false, false, true]).modRegs fun r => { r with vpois := Sparse.put clearBit [] (1 * 8192 + 8) true }

theorem firstPoisoned {h : Hart} {m : Bool} {src : Nat → List (Nat × Nat × Nat)} {j : Nat} (p : (decide (h.elix ≤ j) && h.active m j &&
    (src j).any (fun x => h.elemPoison x.1 x.2.1 x.2.2) && (List.range j).all fun k => (src k).all fun x => !h.elemPoison x.1 x.2.1 x.2.2) = true) :
    FirstPoisoned h m src j := by
  simp only [Bool.and_eq_true, decide_eq_true_eq, List.any_eq_true, List.all_eq_true, List.mem_range, Bool.not_eq_true'] at p
  obtain ⟨⟨⟨h0, h1⟩, h2⟩, h3⟩ := p
  exact ⟨h0, h1, h2, fun k _ hk _ x hx => h3 k hk x hx⟩

theorem notClean {h : Hart} {m : Bool} {src : Nat → List (Nat × Nat × Nat)} (j : Nat)
    (p : (h.active m j && (src j).any fun x => h.elemPoison x.1 x.2.1 x.2.2) = true) : ¬ Clean h m src := fun c => by
  simp only [Bool.and_eq_true, List.any_eq_true] at p
  obtain ⟨h1, x, hx, hp⟩ := p
  rw [c j h1 x hx] at hp
  cases hp

/-- An execution that ends in a trap at element `j`. -/
noncomputable def traps1A (i : Instr) (j : Nat) : Bool :=
  match exec i poisonedPair with
  | .next t => t.hart.tcause == 0x1A && t.hart.telix == BitVec.ofNat 64 j
  | _ => false

theorem witness_PoisonedElementTraps : poisonedPair.hart.cut = none ∧ Quiet poisonedPair ∧ poisonedPair.hart.region.isOpen = false ∧
    (∃ r, integerVector poisonedPair (.vadd true 3 1 2 true) = some (true, r) ∧ FirstPoisoned poisonedPair.hart true r.src 2) ∧
    (∃ f r, floatOf poisonedPair.hart.regs.vt = some f ∧ floatVector poisonedPair f (.vfma true 3 1 2 false) = some (false, r) ∧
      FirstPoisoned poisonedPair.hart false r.src 2) ∧
    (∃ r, maskVector poisonedPair (.vcmpGe true 3 1 2 false) = some (false, r) ∧ FirstPoisoned poisonedPair.hart false r.src 2) ∧
    (∃ f r, floatOf poisonedPair.hart.regs.vt = some f ∧ floatMask poisonedPair f (.vcmpFltX true 3 1 2 false) = some (false, r) ∧
      FirstPoisoned poisonedPair.hart false r.src 2) ∧
    (traps1A (.vadd true 3 1 2 true) 2 && traps1A (.vfma true 3 1 2 false) 2 && traps1A (.vcmpGe true 3 1 2 false) 2 &&
      traps1A (.vcmpFltX true 3 1 2 false) 2) = true :=
  ⟨rfl, by unfold Quiet; decide +kernel, by decide +kernel, ⟨_, rfl, firstPoisoned (by decide +kernel)⟩,
   ⟨fp32, _, by decide +kernel, rfl, firstPoisoned (by decide +kernel)⟩, ⟨_, rfl, firstPoisoned (by decide +kernel)⟩,
   ⟨fp32, _, by decide +kernel, rfl, firstPoisoned (by decide +kernel)⟩, by decide +kernel⟩

/-- Conversions into another type of the same width, and of another. -/
theorem witness_PoisonedElementTraps_conversions :
    (∃ c src dst, conversion (.cvtFi true 3 1 0x40 false) = some c ∧ kindOf c.source poisonedPair.hart.regs.vt = some src ∧ kindOf c.target c.b = some dst ∧
      c.legal poisonedPair ∧ vtBytes poisonedPair.hart.regs.vt = vtBytes c.b ∧ FirstPoisoned poisonedPair.hart c.m (c.rule poisonedPair src dst).src 2) ∧
    (∃ c src dst, conversion (.cvtFi true 3 1 0x20 false) = some c ∧ kindOf c.source poisonedPair.hart.regs.vt = some src ∧ kindOf c.target c.b = some dst ∧
      c.legal poisonedPair ∧ vtBytes poisonedPair.hart.regs.vt ≠ vtBytes c.b ∧ ¬ Clean poisonedPair.hart c.m (c.rule poisonedPair src dst).src) ∧
    (traps1A (.cvtFi true 3 1 0x40 false) 2 && traps1A (.cvtFi true 3 1 0x20 false) 0) = true :=
  ⟨⟨_, .float fp32, .int 32, rfl, by decide +kernel, by decide +kernel, by unfold Conversion.legal; decide +kernel, by decide +kernel,
      firstPoisoned (by decide +kernel)⟩,
   ⟨_, .float fp32, .int 16, rfl, by decide +kernel, by decide +kernel, by unfold Conversion.legal; decide +kernel, by decide +kernel,
      notClean 2 (by decide +kernel)⟩, by decide +kernel⟩

theorem witness_PoisonedElementTraps_rest :
    (∃ r, residue (.vrin true 3 1 false) = some r ∧ vtBytes poisonedPair.hart.regs.vt = 4 ∧
      FirstPoisoned poisonedPair.hart r.m (fun k => (r.a.toNat, 4, k) :: (r.b.map fun b => (b.toNat, 4, k)).toList) 2 ∧
      (r.f (poisonedPair.hart.elem 1 4 0) 0).isSome = true ∧ (r.f (poisonedPair.hart.elem 1 4 1) 0).isSome = true) ∧
    (∃ v p, reduced poisonedPair (.vsum true 5 1 false) = some (true, 5, some 1, false, v) ∧ FirstPoisoned poisonedPair.hart false (fun k => [(1, 4, k)]) 2 ∧
      reduced (poisonedPair.modRegs fun r => { r with vl := 2 }) (.vsum true 5 1 false) = some (true, 5, some 1, false, p) ∧
      Execs (.vsum true 5 1 false) poisonedPair (fun t => t.hart.tcause == 0x1A && t.g 5 == 15 && p == 15)) ∧
    ((∃ v, floatReduced poisonedPair fp32 (.vfsumt true 5 1 false) = some (true, 5, 1, false, v)) ∧
      (∃ v, floatReduced poisonedPair fp32 (.vfrmax true 5 1 false) = some (true, 5, 1, false, v)) ∧
      (∃ v, floatReduced poisonedPair fp32 (.vfsumo true 5 1 false) = some (true, 5, 1, false, v)) ∧ (traps1A (.vfsumt true 5 1 false) 0 &&
        traps1A (.vfrmax true 5 1 false) 2 && traps1A (.vfsumo true 5 1 false) 2) = true) ∧
    (∃ r, permute poisonedPair (.vslup true 3 1 0 false) = some (false, r) ∧ ¬ Clean poisonedPair.hart false r.src) ∧
    (let s := gpr poisonedPair [(3, 2)]
     (s.g 3).toNat < s.hart.regs.vl ∧ s.hart.elemPoison 1 4 2 = true) :=
  ⟨⟨_, rfl, by decide +kernel, firstPoisoned (by decide +kernel), by decide +kernel⟩,
   ⟨_, _, rfl, firstPoisoned (by decide +kernel), rfl, by decide +kernel⟩, ⟨⟨_, rfl⟩, ⟨_, rfl⟩, ⟨_, rfl⟩, by decide +kernel⟩,
   ⟨_, rfl, notClean 2 (by decide +kernel)⟩, by decide +kernel⟩

/-- A vector store of the pair. -/
theorem witness_PoisonedElementTraps_store : let s := gpr poisonedPair [(2, 0x10040)]
    let i : Instr := .vst true 1 2 false
    ∃ v, move i = some v ∧ v.store = true ∧ v.legal s i ∧ (s.hart.elements.filter (s.hart.active v.m)) ≠ [] ∧
      (let o := s.atIssue (s.g v.a) (s.g v.b)
       let s1 := (s.atIssue (s.g v.a) 0).1
       let w := v.sweep s1 o.2.1 o.2.2 (s1.baseOf o.2.1).2
       let q := (caughtUp (s1.baseOf o.2.1).1 w).checkAll w w.elems
       (match q.2 with
        | [(0, .ok _), (1, .ok _), (2, .error (.trap t))] => t == .own 0x1A 0
        | _ => false) = true ∧ Quiet q.1 ∧
        Execs i s (fun t => t.hart.tcause == 0x1A && t.hart.telix == 2 && t.drainAll.peekList (.phys 0x400040) 12 == [7, 0, 0, 0, 8, 0, 0, 0, 0, 0, 0, 0])) :=
  ⟨_, rfl, rfl, (fun h => nomatch h), by decide +kernel, by decide +kernel, by unfold Quiet; decide +kernel, by decide +kernel⟩

/-- Conversions of R116's table: a NaN, an infinity and a finite value, into a float and into an integer. -/
theorem witness_ConversionResults_table : fp32 ∈ formats ∧ e4m3 ∈ formats ∧ fp32.decode 0x7FC00000 = .nan ∧ fp32.decode 0xFF800000 = .inf true ∧
    (∃ neg m e v, fp32.decode 0x43E40000 = .num neg m e ∧ units (fp32.decode 0x43E40000) = some v) ∧
    convert (.float fp32) (.float e4m3) 0 0 0x7FC00000 = e4m3.nan ∧ convert (.float fp32) (.float e4m3) 0 0 0xFF800000 = 0xFE ∧
    convert (.float fp32) (.float e4m3) 0 0 0x43E40000 = 0x7E ∧ convert (.float fp32) (.int 8) 0 0 0x43E40000 = 127 ∧
    convert (.float fp32) (.int 8) 0 0 0xFF800000 = 128 ∧ convert (.float fp32) (.int 8) 0 0 0x7FC00000 = 0 ∧ convert (.float fp32) (.int 8) 0 0 0x40200000 = 2 ∧
    convert (.int 16) (.int 8) 0 0 300 = 127 := by
  refine ⟨by decide, by decide, rfl, rfl, ⟨_, _, _, _, rfl, rfl⟩, ?_⟩; decide +kernel

/-- Two elements at 0x10040, indexes 17 and 16 in v3. -/
def moving : State := gpr (vec (m0.poke (.phys 0x400040) [1, 0, 0, 0, 2] false 0) 2 [(1, [5, 6]), (3, [17, 16])]) [(2, 0x10040), (4, 1), (5, 0x10000)]

/-- The same with the next access held back. -/
def held : State := { moving with hold := [true] }

/-- What `Obligations.VectorLoadResults` asks of a pass. -/
noncomputable def loadLeaves (i : Instr) (v : VMove) (u : State) (gs : List Got) : Bool :=
  decide (u.hart.heldAll = []) && decide (u.hold = []) && gives i moving
    ((({ u with hold := u.hold.drop 1 } : State).modHart fun h => gs.foldl (fun h g => h.setElem v.d.toNat (vtBytes moving.hart.regs.vt) g.index g.value) h).retire v.e)

/-- What `Obligations.VectorStoreResults` asks of a pass of an ordered store. -/
noncomputable def storeLeaves (i : Instr) (v : VMove) (w : Sweep) (u : State) (gs : List Got) : Bool :=
  decide (Settled u) && gives i moving ((u.commitHeld ⟨(gs.filter fun g => g.mx.isNone).map fun g => g.pending w u.hart,
    gs.filterMap fun g => g.mxElem w u.hart, u.hart.rb⟩).retire v.e)

/-- The same where the list holds the load back (R177). -/
noncomputable def lateLeaves (i : Instr) (v : VMove) (b : Base) (u : State) (gs : List Got) : Bool :=
  decide (u.hart.heldAll = []) && decide (u.hold = [true]) && !u.hart.region.isOpen && gives i held
    ((({ u with hold := u.hold.drop 1 } : State).modHart fun h =>
        { h with late := h.late ++ [⟨v.d.toNat, v.minor, held.hart.regs.vt, b.fmt, held.hart.seed,
          gs.map fun g => ⟨g.index, g.va.toNat, g.high, g.place, g.mx.map (·.2), g.via⟩⟩] }).retire v.e)

theorem witness_VectorLoadResults_late : held.hart.cut = none ∧ ∃ v, move (.vld true 6 2 false) = some v ∧ v.store = false ∧
    let o := held.atIssue (held.g v.a) (held.g v.b)
    let s1 := (held.atIssue (held.g v.a) 0).1
    ∃ u gs, Passes (caughtUp (s1.baseOf o.2.1).1 (v.sweep s1 o.2.1 o.2.2 (s1.baseOf o.2.1).2)) (v.sweep s1 o.2.1 o.2.2 (s1.baseOf o.2.1).2) u gs ∧
      lateLeaves (.vld true 6 2 false) v (s1.baseOf o.2.1).2 u gs = true :=
  ⟨rfl, _, rfl, rfl, passes (by decide +kernel)⟩

theorem witness_VectorLoadResults : moving.hart.cut = none ∧ (moving.hart.elements.filter (moving.hart.active false)) ≠ [] ∧ (m0.hart.elements.filter (m0.hart.active false)) = [] ∧
    (∃ v, move (.vld true 6 2 false) = some v ∧ v.store = false ∧
      let o := moving.atIssue (moving.g v.a) (moving.g v.b)
      let s1 := (moving.atIssue (moving.g v.a) 0).1
      ∃ u gs, Passes (caughtUp (s1.baseOf o.2.1).1 (v.sweep s1 o.2.1 o.2.2 (s1.baseOf o.2.1).2)) (v.sweep s1 o.2.1 o.2.2 (s1.baseOf o.2.1).2) u gs ∧ loadLeaves (.vld true 6 2 false) v u gs = true) ∧
    (∃ v, move (.vlds true 6 2 4 false) = some v ∧ v.store = false ∧
      let o := moving.atIssue (moving.g v.a) (moving.g v.b)
      let s1 := (moving.atIssue (moving.g v.a) (moving.g v.b)).1
      ∃ u gs, Passes (caughtUp (s1.baseOf o.2.1).1 (v.sweep s1 o.2.1 o.2.2 (s1.baseOf o.2.1).2)) (v.sweep s1 o.2.1 o.2.2 (s1.baseOf o.2.1).2) u gs ∧ loadLeaves (.vlds true 6 2 4 false) v u gs = true) ∧
    (∃ v, move (.vgth true 6 5 3 false) = some v ∧ moving.hart.regs.vl ≤ moving.hart.rb / indexWidth moving.hart ∧ (6 : VReg) ≠ 3 ∧
      let o := moving.atIssue (moving.g v.a) (moving.g v.b)
      let s1 := (moving.atIssue (moving.g v.a) 0).1
      ∃ u gs, Passes (caughtUp (s1.baseOf o.2.1).1 (v.sweep s1 o.2.1 o.2.2 (s1.baseOf o.2.1).2)) (v.sweep s1 o.2.1 o.2.2 (s1.baseOf o.2.1).2) u gs ∧ loadLeaves (.vgth true 6 5 3 false) v u gs = true) :=
  ⟨rfl, by decide +kernel, by decide +kernel, ⟨_, rfl, rfl, passes (by decide +kernel)⟩, ⟨_, rfl, rfl, passes (by decide +kernel)⟩,
   ⟨_, rfl, by decide +kernel, by decide, passes (by decide +kernel)⟩⟩

theorem witness_VectorStoreResults : moving.hart.cut = none ∧ Quiet moving ∧
    (∃ v, move (.vst true 1 2 false) = some v ∧ v.store = true ∧
      let o := moving.atIssue (moving.g v.a) (moving.g v.b)
      let s1 := (moving.atIssue (moving.g v.a) 0).1
      let w := v.sweep s1 o.2.1 o.2.2 (s1.baseOf o.2.1).2
      ∃ u gs, Passes (caughtUp (s1.baseOf o.2.1).1 w) w u gs ∧ storeLeaves (.vst true 1 2 false) v w u gs = true) ∧
    (∃ v, move (.vscto true 1 5 3 false) = some v ∧
      let o := moving.atIssue (moving.g v.a) (moving.g v.b)
      let s1 := (moving.atIssue (moving.g v.a) 0).1
      let w := v.sweep s1 o.2.1 o.2.2 (s1.baseOf o.2.1).2
      ∃ u gs, Passes (caughtUp (s1.baseOf o.2.1).1 w) w u gs ∧ storeLeaves (.vscto true 1 5 3 false) v w u gs = true) ∧
    (∃ v, move (.vsctu true 1 5 3 false) = some v ∧ v.minor = 6 ∧
      let o := moving.atIssue (moving.g v.a) (moving.g v.b)
      let s1 := (moving.atIssue (moving.g v.a) 0).1
      ∃ u gs, Passes (caughtUp (s1.baseOf o.2.1).1 (v.sweep s1 o.2.1 o.2.2 (s1.baseOf o.2.1).2)) (v.sweep s1 o.2.1 o.2.2 (s1.baseOf o.2.1).2) u gs ∧ decide (Settled u) = true) :=
  ⟨rfl, by unfold Quiet; decide +kernel, ⟨_, rfl, rfl, passes (by decide +kernel)⟩, ⟨_, rfl, passes (by decide +kernel)⟩, ⟨_, rfl, rfl, passes (by decide +kernel)⟩⟩

/-- An open exit region over four elements, m1 set from the third on. -/
def inRegion : State := maskBits ((vec m0 4 []).modHart fun h => { h with region := ⟨true, false, false, false, [], []⟩ }) 1 [false, false, true, true]

theorem witness_ExitRegionResults : Quiet m0 ∧ Quiet inRegion ∧ m0.hart.region.isOpen = false ∧ inRegion.hart.region.isOpen = true ∧
    inRegion.hart.caddy = [] ∧ inRegion.hart.sample = none ∧ inRegion.hart.active false 2 = true ∧ inRegion.hart.regs.mask 1 2 = true ∧
    (∀ j, j < 2 → inRegion.hart.regs.mask 1 j = false) ∧ m0.hart.regs.vl = 0 ∧
    gives (.vxit true 1 false) inRegion ((inRegion.modRegs fun r => { r with bx := 2 }).retire true) = true := by
  unfold Quiet; decide +kernel

/-- Words of memory set, by physical address. -/
def words (s : State) (l : List (Nat × Nat)) : State := { s with mem := l.foldl (fun m x => Memory.writeList m x.1 (natToBytes x.2 8)) s.mem }

/-- A table at 0x10100 with two entries, 32 positions and rows of 16 bytes; entry 0 names the page at 0x10800, whose first two rows begin with
1 and 2. A child at 0x10200 with one entry. -/
def tabled (depth : Nat) : State :=
  gpr (vec (words m0 [(0x400118, 32 + depth * 2 ^ 32), (0x400120, 2), (0x400128, 16), (0x400140, 0x10801), (0x400220, 1), (0x400800, 1), (0x400810, 2)]) 2 [])
    [(1, 0x10100), (2, 0), (3, 0x10200), (6, 0x10A01), (7, 31), (8, 32), (9, 0x10A00)]

/-- What `Obligations.SequenceResults` asks of a pass of VSEQ. -/
noncomputable def seqLeaves (u : State) (gs : List Got) : Bool :=
  decide (u.hart.heldAll = []) && decide (u.hold.headD false = false) && decide (gs.map (·.value) = [1, 2]) && gives (.vseq true 5 1 2 false) (tabled 0)
    ((({ u with hold := u.hold.drop 1 } : State).modHart fun h => gs.foldl (fun h g => h.setElem 5 4 g.index g.value) h).retire true)

theorem witness_SequenceResults :
    (Quiet (tabled 0) ∧ Quiet m0 ∧ (tabled 0).hart.cut = none ∧ m0.hart.cut = none ∧ m0.hart.elements.filter (m0.hart.active false) = []) ∧
    (let s := tabled 0
     let o := s.atIssue (s.g 1) (s.g 2)
     let h := o.1.hart
     let b := o.1.seqBase (ownOrdered 0) o.2.1 o.2.2 [0]
     let q := b.1.seqElements (ownOrdered 0) o.2.1 o.2.2 h.regs.vt [0, 1]
     h.elements.filter (h.active false) = [0, 1] ∧ q.2.1 = false ∧ ∃ u gs, Passes (caughtUp q.1 (rowSweep 5 h q.1.hart.splanes o.2.1 b.2 q.2.2)) (rowSweep 5 h q.1.hart.splanes o.2.1 b.2 q.2.2) u gs ∧ seqLeaves u gs = true) ∧
    (∃ u y, (tabled 0).seqElement (ownOrdered 0) 0x10100 (1 * 2 ^ 32 + 1) 0x40 0 = (u, .ok y) ∧ (y.1 == 0x10814) = true) ∧
    (vtBytes (tabled 0).hart.regs.vt = 4 ∧ vtVariant (tabled 0).hart.regs.vt = 0 ∧ operand (tabled 0) 7 < 2 ^ 24 ∧
      (let p := operand (gpr (tabled 0) [(7, 0x1000000)]) 7
       2 ^ 24 ≤ p ∧ p < 2 ^ 32) ∧ 2 ^ 32 ≤ operand (gpr (tabled 0) [(7, 0x100000000)]) 7 ∧ (tabled 0).hart.active false 0 = true ∧
      (tabled 0).hart.regs.vl % 2 = 0 ∧ (tabled 0).hart.elix % 2 = 0) ∧
    Clean (tabled 0).hart false (fun j => [(1, 4, j)]) ∧ Clean (tabled 0).hart false (fun j => [(1, 4, j / 2 * 2), (2, 4, j / 2 * 2)]) :=
  ⟨by unfold Quiet; decide +kernel, ⟨by decide +kernel, by decide +kernel, passes (by decide +kernel)⟩, okWith_exists (by decide +kernel),
   by decide +kernel, clean (by decide +kernel), clean (by decide +kernel)⟩

/-- A gather queued and performed: two results. -/
def gathered : State := (tabled 0).modHart fun h => { h with gathers := [⟨0x40, 2, 0, 0x10100, 0, some (2, [1, 2]), 0⟩], grd := 1 }

theorem witness_GatherQueueResults : Quiet (tabled 0) ∧ Quiet gathered ∧ (tabled 0).hart.gathers.length < min 16 (tabled 0).hart.grd.toNat ∧
    ¬ gathered.hart.gathers.length < min 16 gathered.hart.grd.toNat ∧ (tabled 0).hold.headD false = false ∧
    ({ tabled 0 with hold := [true] } : State).hold.headD false = true ∧ m0.hart.gathers = [] ∧
    ((gathered.performGather 0).hart.cut = none ∧ (gathered.performGather 0).hart.elix = 0 ∧ (gathered.performGather 0).hart.gathers = [⟨0x40, 2, 0, 0x10100, 0, some (2, [1, 2]), 0⟩] ∧ 2 * vtBytes 0x40 ≤ (gathered.performGather 0).hart.rb) ∧
    (((tabled 0).modHart fun h => { h with gathers := [⟨0x40, 2, 0, 0x10100, 0, none, 0⟩] }).performGather 0).hart.gathers = gathered.hart.gathers := by
  unfold Quiet; decide +kernel

/-- What `Obligations.SequenceBuildResults` asks of SEQFORK, with the parent no object, from the state after the descriptor was read. -/
noncomputable def forkLeaves (s1 : State) (t : SeqTable) : Bool :=
  let child : Word := 0x10200
  decide (t.depth ≠ 4) && okWith (s1.tableLoad ownScalar (child + 0x20)) fun s2 cap =>
    let c := s2.clearEntries child (cap - s2.hart.elix) s2.hart.elix
    let w := c.1.tableStores [(child + 0x10, 0x10100), (child + 0x18, min t.extent (16 * cap) + (t.depth + 1) * 2 ^ 32), (child + 0x28, t.rowbytes),
      (child + 0x30, 0), (child + 0x38, 0)]
    decide (cap < 2 ^ 28) && decide (s2.hart.cut = none) && decide (c.1.hart.cut = none) && c.2.isNone && (c.1.live 0x10100).isNone && w.2.isNone && gives (.seqfork true 4 3 1 false) (tabled 0) ((w.1.setG 4 1).retire true)

/-- What it asks of SEQMAP at position 31 with a valid entry. -/
noncomputable def mapLeaves (s1 : State) (t : SeqTable) : Bool :=
  decide (31 / 16 < t.cap) && decide (t.cap ≤ 32 / 16) && okWith (s1.tableTarget (0x10100 + 0x48)) fun s2 r =>
    gives (.seqmap true 9 1 7 false) (tabled 0) ((s2.tableStore r 0x10A00).retire true) &&
    okWith (s2.tableTarget (0x10100 + 0x18)) fun s3 i =>
      gives (.seqmap true 6 1 7 false) (tabled 0) (((s3.tableStore r 0x10A01).tableStore i (max t.extent 32 + t.depth * 2 ^ 32)).retire true)

theorem witness_SequenceBuildResults : Quiet (tabled 0) ∧ (tabled 0).hart.cut = none ∧ (tabled 0).walkElsewhere = false ∧ (0x10200 : Word).toNat % 256 = 0 ∧ (0x10100 : Word).toNat % 256 = 0 ∧
    (∃ s1 t, ((tabled 0).atIssue 0x10200 0x10100).1.descriptor ownScalar 0x10100 = (s1, .ok t) ∧ forkLeaves s1 t = true) ∧
    (∃ s1 t, (tabled 0).descriptor ownScalar 0x10100 = (s1, .ok t) ∧ mapLeaves s1 t = true) ∧
    (∃ s1 t, ((tabled 4).atIssue 0x10200 0x10100).1.descriptor ownScalar 0x10100 = (s1, .ok t) ∧
      (decide (t.depth = 4) && gives (.seqfork true 4 3 1 false) (tabled 4) (s1.takeTrap (.own 0x12 0x10100) true)) = true) ∧
    Execs (.seqmap true 6 1 8 false) (tabled 0) (fun t => t.hart.tcause == 0x13 && t.hart.tval == 32) :=
  ⟨by unfold Quiet; decide +kernel, by decide +kernel, by decide +kernel, by decide, by decide, okWith_exists (by decide +kernel), okWith_exists (by decide +kernel),
   okWith_exists (by decide +kernel), by decide +kernel⟩

/-- The page of 0x20000 mapped as a tracked page of class 0 (R370, R382). -/
def trackedPage : State :=
  { words m0 [(Config.crownRoot + 0x20000 + 8 * 2, 0x410000 + 0x100F)] with
    mem := Memory.write (words m0 [(Config.crownRoot + 0x20000 + 8 * 2, 0x410000 + 0x100F)]).mem (Config.frameTableBase + 0x41) 1 }

/-- An object of one line at 0x20000, private to the hart's team, and a second at 0x20100 that is published at scope 3. -/
def objected : State := gpr { trackedPage with objs :=
    [⟨0, 0, 1, 0x20000, 256, 1, 0, 0, 0, 0, 0, 0, 0, true, [0x410000], 0, []⟩, ⟨0, 1, 1, 0x20100, 256, 1, 0, 0, 0, 0, 0, 0, 3, true, [0x410100], 0, []⟩, ⟨0, 2, 1, 0x20200, 256, 1, 0, 9, 0, 0, 0, 0, 0, true, [0x410200], 0, []⟩] }
  [(1, 0x20080), (2, 0x20180), (3, 0x20000), (4, 0x20100), (5, 0x20200), (6, 0x20300), (7, 0x20400)]

/-- A parent that is an object: its table and the child's words lie in objects of the same team. -/
def objectTables : State :=
  gpr { words trackedPage [(0x410018, 32), (0x410020, 2), (0x410028, 16), (0x410120, 1)] with objs :=
    [⟨0, 0, 1, 0x20000, 256, 1, 0, 0, 0, 0, 0, 0, 0, true, [0x410000], 0, []⟩, ⟨0, 1, 1, 0x200F0, 256, 1, 0, 0, 0, 0, 0, 0, 0, true, [0x410200, 0x410100], 0, []⟩] }
  [(1, 0x20000), (3, 0x20100)]

/-- What `Obligations.SequenceBuildResults` asks of SEQFORK where the parent is an object. -/
noncomputable def forkObject (s1 : State) (t : SeqTable) : Bool :=
  let child : Word := 0x20100
  okWith (s1.tableLoad ownScalar (child + 0x20)) fun s2 cap =>
    let c := s2.clearEntries child (cap - s2.hart.elix) s2.hart.elix
    match c.1.live 0x20000 with
    | none => false
    | some o => okWith (c.1.tableTarget (child + 0x10)) fun s4 _ => !o.privateToOther s4.hart && decide (s4.live 0x20000 = some o) &&
        okWith (s4.access (child + 0x10) 8 .write) fun s5 r => s5.mayHold o r && !s5.walkElsewhere && decide (c.1.hart.cut = none) &&
          let w := (s5.putReference r 0x20000).tableStores [(child + 0x18, min t.extent (16 * cap) + (t.depth + 1) * 2 ^ 32), (child + 0x28, t.rowbytes),
            (child + 0x30, 0), (child + 0x38, 0)]
          w.2.isNone && gives (.seqfork true 4 3 1 false) objectTables ((w.1.setG 4 1).retire true)

theorem witness_SequenceBuildResults_object : Quiet objectTables ∧ objectTables.hart.cut = none ∧ objectTables.walkElsewhere = false ∧
    ∃ s1 t, (objectTables.atIssue 0x20100 0x20000).1.descriptor ownScalar 0x20000 = (s1, .ok t) ∧ forkObject s1 t = true :=
  ⟨by unfold Quiet; decide +kernel, rfl, by decide +kernel, okWith_exists (by decide +kernel)⟩

/-- The streamer with a well-formed shadow set: one strip of two elements of 4 bytes from 0x10040 to 0x10080. -/
def copying (opened : Nat) : State := gpr ((vec m0 2 []).modHart fun h => { h with
  sx := [(0, 0x10040), (1, 0x10080), (2, 1), (3, 1), (7, 0x100000001), (13, 1), (16, 32)]
  copies := (List.range opened).map fun k => ⟨k + 50, [], 2, 0x40, 0, [0, 0, 0, 0], false, 9, 7, 0, 0, none, false, 0, false, false⟩ }) [(4, 7)]

theorem witness_CopyUnitResults : Quiet (copying 0) ∧
    (8 ≤ ((copying 8).hart.copies.filter fun c => !c.delivered).length ∧ ((copying 7).hart.copies.filter fun c => !c.delivered).length < 8) ∧
    badControl (copying 0).hart.sx false = none ∧ (badControl ([(2, 1), (6, 0)] : Sparse Word) false).isSome = true ∧
    badControl (copying 0).hart.sx true = none ∧
    ((List.range 16).find? fun k => (Sparse.get zeroWord (copying 0).hart.sx 13).getLsbD k && ((copying 0).slotTeam? (copying 0).hart.crew k).isNone) = none ∧
    ((List.range 16).find? fun k => (3 : Word).getLsbD k && ((copying 0).slotTeam? (copying 0).hart.crew k).isNone) = some 1 ∧
    (copying 0).hold.headD false = false ∧
    (gives (.sxgo true 9 4) (copying 0) (((afterFork (copying 0) false 9 4).copyRun (copying 0).nextId ((forked (copying 0) false 9 4).total + 1)).retire true) = true) ∧
    (gives (.sxgo true 9 4) { copying 0 with hold := [true] } ((afterFork { copying 0 with hold := [true] } false 9 4).retire true) = true) := by
  unfold Quiet; decide +kernel

/-- The youngest copy whose token is in g9. -/
theorem witness_CopyUnitResults_record :
    (∃ c, (copying 1).hart.copyOf 9 = some c ∧ c.ended = none) ∧ (copying 1).hart.copyOf 10 = none ∧
    (let s := (copying 1).modHart fun h => { h with copies := h.copies.map fun c => { c with ended := some 4, count := 5 } }
     ∃ c, s.hart.copyOf 9 = some c ∧ c.ended.isSome = true) :=
  ⟨⟨_, rfl, rfl⟩, by decide +kernel, ⟨_, rfl, rfl⟩⟩

/-- Two rows of 16 bytes, of format `fmt` (R229). -/
def shapeWord (fmt : Nat) : Word := BitVec.ofNat 64 (fmt * 2 ^ 20 + 16 * 2 ^ 10 + 2)

/-- Tiles claimed by the hart: 0 and 1 with the shapes given, 2 unshaped; 3 is another hart's, 4 nobody's. -/
def tiled (a b : Word) : State :=
  let t (x : Option Word) : Tile := { Tile.empty with claim := some 0, shape := x }
  let s := gpr (vec m0 4 [(1, [0x04030201, 0x08070605, 3, 4])])
    [(1, 0x10040), (2, 16), (3, 1), (4, 2), (5, 0x11), (6, 8), (7, 0x10100), (8, 0x70000000000040), (9, 16 * 65536), (10, 0x300), (11, 256)]
  { s with teams := s.teams.map fun x => { x with tiles := [t (some a), t (some b), t none, { Tile.empty with claim := some 7 }, Tile.empty, Tile.empty, Tile.empty, Tile.empty] } }

theorem witness_TileResults : let s := tiled (shapeWord 1) (shapeWord 4)
    (Quiet s ∧ s.hart.matrix = [] ∧ (s.g 6).toNat < 256 ∧ s.refusedTiles 8 ≠ 0 ∧ s.refusedTiles 0x11 = 0 ∧ 256 ≤ (s.g 11).toNat) ∧
    (s.hart.matrix.length < 16 ∧ ¬ (s.tile 4).claim = some s.hart.id ∧ ¬ (s.tile 3).claim = some s.hart.id) ∧
    ((s.tile 2).claim = some s.hart.id ∧ s.shapeAhead 2 = some none ∧ shapeLegal (s.g 11) = false ∧ shapeLegal (shapeWord 1) = true) ∧
    ((s.tile 0).claim = some s.hart.id ∧ s.shapeAhead 0 = some (some (shapeWord 1)) ∧ rowsOf (shapeWord 1) ≤ (s.g 4).toNat ∧
      (s.g 3).toNat < rowsOf (shapeWord 1) ∧ 3 < shapeCols (shapeWord 1) ∧ fmtOf (shapeWord 1) ≠ 7 ∧ rowsOf (shapeWord 1) * shapeElem (shapeWord 1) ≤ s.hart.rb) ∧
    (s.shapeAhead 1 = some (some (shapeWord 4)) ∧ fmtOf (shapeWord 4) ≠ 6 ∧ fmtOf (shapeWord 4) ≠ 7 ∧ shapeCols (shapeWord 4) * tileBits 1 / 8 ≤ 512 ∧
      shapeCols (shapeWord 4) * tileBits 1 / 8 % 8 = 0 ∧ rowsOf (shapeWord 4) * (shapeCols (shapeWord 4) * tileBits 1 / 8) ≤ 32768) ∧
    (gives (.tzero true 0) s ((s.forkMatrix (plain s .zero 0)).retire true) &&
      gives (.mrowin true 0 3 1) s ((s.forkMatrix (withVector s (.rowIn 1) 0 1 16)).retire true) &&
      gives (.mrowout true 5 0 3) s ((s.forkMatrix (plain s (.rowOut 5 1) 0)).retire true) &&
      gives (.mcolin true 0 3 1) s ((s.forkMatrix (withVector s (.colIn 1) 0 1 8)).retire true) &&
      gives (.mcolout true 5 0 3) s ((s.forkMatrix (plain s (.colOut 5 1) 0)).retire true) &&
      gives (.tcvt true 0 1 1) s ((s.forkMatrix (plain s (.convert 1 1) 0)).retire true) &&
      gives (.tconf true 12 6) s ((s.modRegs fun r => r.setG 12 8).retire true)) = true := by
  unfold Quiet; decide +kernel

theorem witness_TileMoveEffects : let s := tiled (shapeWord 1) (shapeWord 4)
    s.regEcc = [] ∧ (∃ team, s.myTeam? = some team ∧ 0 < team.tiles.length) ∧ (s.tile 0).shape = some (shapeWord 1) ∧
    ((withVector s (.rowIn 1) 0 1 16).vec.length = rowBytesOf (shapeWord 1) ∧ (withVector s (.rowIn 1) 0 1 16).vpois.length = rowBytesOf (shapeWord 1)) ∧
    (let t := (s.performMatrix (withVector s (.rowIn 1) 0 1 16)).tile 0
     t.byte 15 = 0 ∧ t.byte 16 = 1 ∧ t.byte 23 = 8 ∧ t.byte 32 = 0 ∧ t.dirty = true ∧ t.shape = some (shapeWord 1)) ∧
    (let u := (s.performMatrix (withVector s (.rowIn 1) 0 1 16)).performMatrix (plain s (.rowOut 6 1) 0)
     u.hart.elem 6 4 1 = 0x08070605) :=
  ⟨rfl, ⟨_, rfl, by decide +kernel⟩, by decide +kernel, by decide +kernel, by decide +kernel, by decide +kernel⟩

/-- What `TransferForks` asks of a transfer whose units all pass. -/
noncomputable def transferLeaves (i : Instr) (s : State) (kind : MatKind) (k : TReg) (addr pitch : Word) (write rows : Bool) (align fmt : Nat)
    (units : List (Nat × Word × Unit')) : Bool :=
  match units.head?.map fun u => (u.1, u.2.1) with
  | none => false
  | some (n, va) =>
    let b := s.baseOf va
    let c := b.1.checkUnits write rows (tileWant b.2 fmt) align units
    c.2.1.isNone && gives i s ((c.1.forkMatrix { plain c.1 kind k with
      addr := addr, pitch := pitch, done := n, upto := n + units.length
      pieces := c.2.2.map fun p => (p.1, p.2.1.place, p.2.2), dirty := c.2.2.flatMap fun p => p.2.1.dirty, via := c.2.2.flatMap fun p => p.2.1.via }).retire true)

theorem witness_MatrixForkResults_transfers : let s := tiled (shapeWord 1) (shapeWord 4)
    Quiet s ∧ s.hart.matrix.length < 16 ∧ (s.tile 0).claim = some s.hart.id ∧ s.shapeAhead 0 = some (some (shapeWord 1)) ∧
    transferLeaves (.tld true 0 1 2) s (.load false) 0 (s.g 1) (s.g 2) false true 8 1 (s.tileRows (shapeWord 1) (s.g 1) (s.g 2) 0) = true ∧
    transferLeaves (.tst true 0 1 2) s (.store false) 0 (s.g 1) (s.g 2) true true 8 1 (s.tileRows (shapeWord 1) (s.g 1) (s.g 2) 0) = true ∧
    (let s := s.modHart fun h => { h with elix := 136 }
     let images := ((List.range 137).drop 136).map fun n => (n, s.g 7 + BitVec.ofNat 64 (256 * n), [(256 * n, s.g 7 + BitVec.ofNat 64 (256 * n), 256)])
     transferLeaves (.tsave true 0 7) s (.store true) 0 (s.g 7) 0 true false 256 0 images = true ∧
     transferLeaves (.trst true 0 7) s (.load true) 0 (s.g 7) 0 false false 256 0 images = true) := by
  unfold Quiet; decide +kernel

/-- Stationary tiles of `n` rows: an accumulator row has 4 bytes for each of them (R247). -/
def rowPair (acc st : Nat) : Word × Word := (BitVec.ofNat 64 (acc * 2 ^ 20 + 64 * 2 ^ 10 + 2), BitVec.ofNat 64 (st * 2 ^ 20 + 32 * 2 ^ 10 + 16))

/-- Fifteen operations on tile 4 stand in the queue. -/
def queued (s : State) : State := s.modHart fun h => { h with matrix := List.replicate 15 (plain s .zero 4) }

theorem witness_MatrixForkResults_rows :
    (let p := rowPair 1 4
     let s := queued (tiled p.1 p.2)
     Quiet s ∧ s.hart.matrix.length = 15 ∧ s.shapeAhead 0 = some (some p.1) ∧ s.shapeAhead 1 = some (some p.2) ∧ accOfVector (fmtOf p.2) = some (fmtOf p.1) ∧
       rowBytesOf p.1 = 4 * rowsOf p.2 ∧ (s.g 3).toNat < rowsOf p.1 ∧ (s.tile 1).claim = some 0 ∧
       (gives (.mrwF true 1 1 3 1) s (s.performLate.deliver (.own 0x03 0x11)) &&
        gives (.mrwO true 0 1 3 1) s ((s.forkMatrix (withVector s (.rowOp true false 1 1) 0 1 32)).retire true) &&
        gives (.mrwF true 0 1 3 1) s ((s.forkMatrix (withVector s (.rowOp false false 1 1) 0 1 32)).retire true)) = true) ∧
    (let p := rowPair 10 8
     let s := queued (tiled p.1 p.2)
     accOfResidue (fmtOf p.2) = some (fmtOf p.1) ∧
       gives (.mrwi true 0 1 3 1) s ((s.forkMatrix (withVector s (.rowOp true false 1 1) 0 1 32)).retire true) = true) ∧
    (let p := rowPair 1 6
     let s := queued (tiled p.1 p.2)
     let row := (List.range 4).map fun i => (8 * i, s.g 8 + BitVec.ofNat 64 ((i + 0) % 4 * 8), 8)
     let scales := (List.range 1).map fun i => (0x8000 + i, s.g 8 + BitVec.ofNat 64 (0 + 0 * 1 + i), 1)
     accOfPad (fmtOf p.2) = some (fmtOf p.1) ∧ (s.g 9).toNat % 65536 = 0 ∧ (s.g 9).toNat / 2 ^ 57 % 4 = 0 ∧ (s.g 9).toNat / 65536 % 2 ^ 20 % 8 = 0 ∧
     shapeCols p.2 / 32 = 1 ∧ rowBytesOf p.2 / 8 = 4 ∧
     (match s.padParts (row ++ scales) with
      | .ok ps => gives (.mrsO true 0 1 8 9) s ((s.forkMatrix { plain s (.rowOp true true 1 0) 0 with pieces := ps }).retire true) &&
          gives (.mrsF true 0 1 8 9) s ((s.forkMatrix { plain s (.rowOp false true 1 0) 0 with pieces := ps }).retire true)
      | .error _ => false) = true) := by
  unfold Quiet; decide +kernel


/-- Memory for transfers: two rows at 0x400800, and from 0x401000 the image of a tile of one row of 16 bytes of format 1, its header and first
line. -/
def transferred : State :=
  let s := tiled (shapeWord 1) (shapeWord 4)
  let mem := [(0x400800, [1, 2, 3, 4]), (0x400810, [5, 6]), (0x401000, natToBytes (shapeWord 1).toNat 8), (0x401100, [7, 8])].foldl
    (fun m x => Memory.writeList m x.1 x.2) s.mem
  { s with mem := mem, pois := [(0x400810 / 8, true)] }

/-- Pieces of a transfer. -/
def transferOp (image load : Bool) (l : List (Nat × Place × Nat)) : MatOp :=
  { plain transferred (if load then .load image else .store image) 0 with pieces := l }

/-- Two rows of a tile in memory, and the first two lines of an image. -/
def rowPieces (at' : Nat) : List (Nat × Place × Nat) := [(0, .phys at', 16), (16, .phys (at' + 16), 16)]
def imagePieces (at' : Nat) : List (Nat × Place × Nat) := [(0, .phys at', 256), (256, .phys (at' + 256), 256)]

theorem witness_TileMoveEffects_apart :
    PiecesApart (transferOp false true (rowPieces 0x400800)) ∧ PiecesApart (transferOp true true (imagePieces 0x401000)) ∧
    StoresApart transferred (transferOp false false (rowPieces 0x402000)) ∧ StoresApart transferred (transferOp true false (imagePieces 0x402000)) := by
  unfold PiecesApart StoresApart
  refine ⟨by decide +kernel, by decide +kernel, ⟨?_, ?_, rfl, by decide +kernel⟩, ?_, ?_, rfl, by decide +kernel⟩
  · simp [transferOp, rowPieces, Place.add]; omega
  · intro p hp
    fin_cases hp <;> exact ⟨by decide +kernel, by decide +kernel⟩
  · simp [transferOp, imagePieces, Place.add]; omega
  · intro p hp
    fin_cases hp <;> exact ⟨by decide +kernel, by decide +kernel⟩

theorem witness_TileMoveEffects_memory : let s := transferred
    let rows := s.performMatrix (transferOp false true (rowPieces 0x400800))
    let image := (s.performMatrix (transferOp true true (imagePieces 0x401000))).tile 0
    let out := rows.performMatrix (transferOp false false (rowPieces 0x402000))
    let save := rows.performMatrix (transferOp true false (imagePieces 0x402000))
    ((rows.tile 0).byte 1 = 2 ∧ (rows.tile 0).byte 17 = 6 ∧ (rows.tile 0).poisoned 17 = true ∧ (rows.tile 0).poisoned 1 = false ∧ (rows.tile 0).dirty = true) ∧
    (image.shape = some (shapeWord 1) ∧ image.byte 1 = 8) ∧
    ((s.performMatrix (transferOp true true [(0, .phys 0x401008, 256)])).tile 0).shape = none ∧
    ((s.performMatrix (transferOp true true [(256, .phys 0x401100, 256)])).tile 0).shape = some (shapeWord 1) ∧
    (out.peek (.phys 0x402001) = 2 ∧ out.peek (.phys 0x402011) = 6 ∧ out.poisoned (.phys 0x402010) = true ∧ out.peek (.phys 0x402020) = 0) ∧
    (save.peek (.phys 0x402000) = BitVec.ofNat 8 (shapeWord 1).toNat ∧ save.peek (.phys 0x402101) = 2) := by
  decide +kernel

theorem witness_TileMoveEffects_columns : let s := tiled (shapeWord 1) (shapeWord 4)
    let put := withVector s (.colIn 1) 0 1 8
    (shapeLegal (shapeWord 1) = true ∧ 1 < shapeCols (shapeWord 1) ∧ put.vec.length = 8 ∧ put.vpois.length = 8) ∧
    (let t := (s.performMatrix put).tile 0
     t.byte 4 = 1 ∧ t.byte 20 = 5 ∧ t.byte 0 = 0 ∧ t.byte 8 = 0) ∧
    ((s.performMatrix put).performMatrix (plain s (.colOut 6 1) 0)).hart.elem 6 4 1 = 0x08070605 ∧
    (let from1 := s.performMatrix (withVector s (.rowIn 0) 1 1 16)
     let t := (from1.performMatrix (plain s (.convert 1 1) 0)).tile 0
     shapeLegal (shapeWord 4) = true ∧ (s.tile 1).shape = some (shapeWord 4) ∧ t.dirty = true ∧ t.shape.map fmtOf = some 1 ∧
       t.shape.map (tileElem t · 0 1) = some (converted 4 1 0 0 (tileElem (from1.tile 1) (shapeWord 4) 0 1))) := by
  decide +kernel

/-- Two FP32 words of accumulator row 1 and the first row of the stationary tile, which holds 1.5 and 2 in BF16, or bytes of format 8. -/
def rowTiles (p : Word × Word) : State :=
  let s := vec (tiled p.1 p.2) 4 [(1, [0x40003FC0]), (2, [0x03020201])]
  let st := if fmtOf p.2 = 8 then 2 else 1
  s.performMatrix (withVector s (.rowIn 0) 1 st 32)

/-- A row operation on row 1 with the bytes of a vector register. -/
def rowStep (s : State) (ordered : Bool) (v : VReg) : MatOp := withVector s (.rowOp ordered false 1 1) 0 v 32

theorem witness_MatrixForkResults_ready :
    (rowTiles (rowPair 1 2)).regEcc = [] ∧ (rowTiles (rowPair 1 2)).ecc = [] ∧
    RowReady (rowTiles (rowPair 1 2)) (rowStep (rowTiles (rowPair 1 2)) true 1) false (rowPair 1 2).2 (rowPair 1 2).1 1 1 ∧
    RowClean (rowTiles (rowPair 1 2)) (rowStep (rowTiles (rowPair 1 2)) true 1) false (rowPair 1 2).2 (rowPair 1 2).1 1 1 ∧
    RowReady (rowTiles (rowPair 10 8)) (rowStep (rowTiles (rowPair 10 8)) true 2) false (rowPair 10 8).2 (rowPair 10 8).1 1 1 ∧
    RowClean (rowTiles (rowPair 10 8)) (rowStep (rowTiles (rowPair 10 8)) true 2) false (rowPair 10 8).2 (rowPair 10 8).1 1 1 := by
  unfold RowReady RowClean
  exact ⟨by decide +kernel, by decide +kernel, by decide +kernel, by decide +kernel, by decide +kernel, by decide +kernel⟩

theorem witness_MatrixForkResults_float : let p := rowPair 1 2
    let s := rowTiles p
    let x := tileElem (s.tile 0) p.1 1 0
    let sums := blockSums (fmtOf p.2) bf16 p.2 (rowStep s true 1).vec [] (s.tile 1) 0
    let result := tileElem ((s.performMatrix (rowStep s true 1)).tile 0) p.1 1 0
    tileFloat (fmtOf p.2) = some bf16 ∧ result = canonical (sums.foldl plus x) ∧ result = 0x40C80000 := by
  decide +kernel

theorem witness_MatrixForkResults_residue : let p := rowPair 10 8
    let s := rowTiles p
    fmtOf p.1 = 10 ∧ fmtOf p.2 = 8 ∧ resOfSigned 18 = some (tileElem ((s.performMatrix (rowStep s true 2)).tile 0) p.1 1 0) := by
  decide +kernel

theorem witness_MatrixForkResults_poison : let s := rowTiles (rowPair 1 2)
    let bad := { rowStep s true 1 with vpois := List.replicate 32 true }
    RowReady s bad false (rowPair 1 2).2 (rowPair 1 2).1 1 1 ∧ ¬ RowClean s bad false (rowPair 1 2).2 (rowPair 1 2).1 1 1 ∧
      ((s.performMatrix bad).tile 0).poisoned (rowBytesOf (rowPair 1 2).1) = true ∧ ((s.performMatrix bad).tile 0).poisoned 0 = false :=
  ⟨by unfold RowReady; decide +kernel, fun h => by have := h.2.1 rfl true (by simp); simp at this, by decide +kernel, by decide +kernel⟩
/-- The hart's crew holds route tags 0 and 7. -/
def crewed (s : State) : State := { s with crews := s.crews.map fun c => { c with tags := 0x81 } }

/-- The hart has arrived at tag 7, and its phase is complete but for its delivery at cycle `due`. -/
def arrivedAt (s : State) (due cycle : Nat) : State :=
  { crewed s with
    hart := { s.hart with arrived := [(7, true)], elix := 1 }
    crews := (crewed s).crews.map fun c => { c with gen := [(7, 1)], due := [(7, due)] }
    pkg := { s.pkg with cycle := cycle } }

/-- As in `Obligations.BarrierResults`: what a member finds. -/
def phased (s : State) (n : Nat) : State := (s.settlePhase s.hart.crew n).deliverPhase s.hart.crew n

/-- A second hart of the crew, which has not arrived. -/
def pair (s : State) : State := { s with others := [{ s.hart with id := 5, hidx := 1, arrived := [] }] }

theorem witness_BarrierResults :
    (∃ c, (crewed m0).crew? (crewed m0).hart.crew = some c ∧ c.tags.getLsbD 7 = true ∧ c.tags.getLsbD 3 = false) ∧ Quiet (crewed m0) ∧
    (crewed m0).hart.breakDue = false ∧ (crewed m0).hart.elix = 0 ∧ (phased (crewed m0) 7).phaseOpen 7 = false ∧
    ((arrivedAt m0 24 23).hart.elix ≠ 0 ∧ (phased (arrivedAt m0 24 23) 7).phaseOpen 7 = true ∧ (phased (arrivedAt m0 24 24) 7).phaseOpen 7 = false) ∧
    (((phased (pair (crewed m0)) 7).arrive 7).phaseOpen 7 = true) ∧
    (let s := { crewed m0 with hart := { m0.hart with arrived := [(7, true)] } }
     (match s.crew? 0 with
      | some q => decide (Sparse.get zeroNat q.due 7 = 0) && (s.participants 0).any (fun h => h.counted q 7) &&
          (s.participants 0).all fun h => h.gone || h.counted q 7
      | none => false) = true) ∧
    (∃ q, (arrivedAt m0 24 24).crew? 0 = some q ∧ Sparse.get zeroNat q.due 7 ≠ 0 ∧ Sparse.get zeroNat q.due 7 ≤ (arrivedAt m0 24 24).pkg.cycle ∧ q.resident = true) ∧
    (gives (.bara true 2 7) (crewed m0) (((phased (crewed m0) 7).drain (fun q => q.vector) |>.arrive 7).retire true) &&
      gives (.barw true 2 7) (arrivedAt m0 24 24) (((phased (arrivedAt m0 24 24) 7).modHart fun h => { h with arrived := [] }).retire true) &&
      gives (.bara true 0 7) (arrivedAt m0 24 23) ((phased (arrivedAt m0 24 23) 7).retire true) &&
      gives (.barr true 0 7) (arrivedAt m0 24 23) (phased (arrivedAt m0 24 23) 7) &&
      gives (.barr true 0 7) (pair (crewed m0)) (((phased (pair (crewed m0)) 7).arrive 7).modHart fun h => { h with elix := 1 })) = true :=
  ⟨⟨_, rfl, by decide +kernel, by decide +kernel⟩, by unfold Quiet; decide +kernel, by decide +kernel, by decide +kernel, by decide +kernel, by decide +kernel,
   by decide +kernel, by decide +kernel,
   ⟨_, rfl, by decide +kernel, by decide +kernel, by decide +kernel⟩, by decide +kernel⟩

/-- A crew that records since cycle 1, at cycle `c`. -/
def recorded (s : State) (control : Word) (c : Nat) : State :=
  gpr { s with recorders := [⟨0, 0, 0, control, 1, none, [], [], [], none⟩], pkg := { s.pkg with cycle := c } } [(1, 0x10100), (2, 0x10101), (3, 8), (4, 3), (5, 16)]

theorem witness_TraceAndCoordResults : let s := gpr m0 [(1, 0x10100), (2, 0x10101), (3, 8), (4, 3), (5, 16)]
    (Quiet s ∧ (s.crew? s.hart.crew).isSome = true ∧ 8 ≤ (s.g 3).toNat ∧ (s.g 4).toNat < 8 ∧ (s.g 2).toNat % 256 ≠ 0 ∧ (s.g 1).toNat % 256 = 0 ∧
      s.recorderOf s.hart.crew = none ∧ (s.g 2).toNat % 64 ≠ 0 ∧ s.hart.sample = none) ∧
    (∃ u r, (s.baseOf (s.g 1)).1.access (s.g 1) 64 .write (some (tileWant (s.baseOf (s.g 1)).2 0)) = (u, .ok r) ∧ (decide (u.hart.sample = none) &&
      gives (.samp true 9 1) s (((u.pendToken (tokenReg u 9)).modHart fun h => { h with sample := some ⟨r.place, r.dirty, r.via, tokenReg u 9, .armed⟩ }).retire true)) = true) ∧
    (∃ r, (recorded m0 0 70000).recorders.find? (fun r => clusterIndex r.die r.cluster == 0 && r.stop.isNone) = some r ∧
      (recorded m0 0 70000).recorderOf r.crew = some r ∧ r.control.getLsbD 0 = false ∧ r.start + 65536 ≤ (recorded m0 0 70000).pkg.cycle) ∧
    (let s := recorded m0 1 2
     ∃ r, (s.traceFull 0).recorderOf 0 = some r ∧ r.dump = none ∧ r.valid s.pkg.cycle = 1 ∧
       (let b := (s.traceFull 0).baseOf (s.g 1)
        (b.1.checkUnits true false (tileWant b.2 0) 256 (dumpUnits (s.g 1) 576)).2.1 = none)) ∧
    (let s := { recorded m0 1 2 with recorders := [⟨0, 0, 0, 1, 1, some (0, 2), [], [], [], some ⟨0, 9, [.phys 0x400100, .phys 0x400200, .phys 0x400300], [], []⟩⟩] }
     ∃ r d, s.recorders.find? (fun r => clusterIndex r.die r.cluster == 0 && r.dump.isSome) = some r ∧ r.dump = some d ∧ d.hart = s.hart.id ∧
       d.token ≠ 0 ∧ d.token < 512 ∧ s.hart.gone = false ∧ s.ecc = []) ∧
    (Execs (.tron true 9 4) s (fun t => t.g 9 == 0 && t.recorders.length == 1)) ∧
    (let s := { recorded m0 0 5 with recorders := [⟨0, 0, 3, 0, 1, none, [], [], [], none⟩], crews := m0.crews ++ m0.crews.map fun c => { c with id := 3 } }
     Execs (.tron true 9 4) s (fun t => t.g 9 == 1 && t.recorders == s.recorders)) :=
  ⟨by unfold Quiet; decide +kernel, okWith_exists (by decide +kernel), ⟨_, rfl, by decide +kernel, by decide +kernel, by decide +kernel⟩,
   ⟨_, rfl, by decide +kernel, by decide +kernel, by decide +kernel⟩,
   ⟨_, _, rfl, rfl, by decide +kernel, by decide +kernel, by decide +kernel, by decide +kernel, by decide +kernel⟩, by decide +kernel, by decide +kernel⟩

/-- A grammar at 0x10400: two states, two symbols, one class, 512 tokens. In state 0 a token pushes symbol 1 and goes to state 1; there it pops
and goes back; its mask rows name token 7 alone in state 0. Three tokens stand at 0x10900. -/
def grammared : State :=
  gpr ((vec (words m0 [(0x400400, 0x0000000200000200), (0x400408, 0x0001000000010002), (0x400410, 0x10600), (0x400418, 0x10500), (0x400420, 0x10800),
    (0x400500, 0xA0010001), (0x400508, 0xC000000000000000), (0x400800, 128)]) 8 [(4, [3, 5])]).modRegs fun r => { r with vt := 0 })
    [(1, 0x10400), (2, 0x10900), (3, 1), (4, 0x10902), (5, 65537), (6, 0x10A00)]

/-- Its descriptor. -/
def gramm : Grammar := ⟨512, 2, 2, 1, 0, 1, 0x10600, 0x10500, 0x10800⟩

/-- The same with its session bound. -/
def boundTo (state : Nat) (stack : List Nat) : State := grammared.modHart fun h => { h with session := some ⟨0x10400, gramm, state, stack⟩ }

/-- What `Obligations.StrainerResults` asks of a run of tokens that all pass, and of one that is rejected. -/
noncomputable def runLeaves (s : State) (len n : Nat) (rejected : Bool) : Bool :=
  let r := s.drainAll.stepRun (s.drainAll.g 2) (min len 65536 - s.drainAll.hart.elix) s.drainAll.hart.elix
  decide (r.2.1 = n) && decide (r.2.2 = if rejected then some none else none) &&
    gives (.grstep true 9 2 3) s ((r.1.modRegs fun _ => r.1.hart.regs.setG 9 (BitVec.ofNat 64 ((if rejected then 2 * 2 ^ 32 else 0) + n))).retire true)

/-- What it asks of GRFORCE. -/
noncomputable def forceLeaves (s : State) (row : Nat) (w : Word) : Bool :=
  okWith (s.drainAll.rowBits ((s.drainAll.hart.session).getD ⟨0, gramm, 0, []⟩) 0 512 513) fun u r =>
    decide (r = row) && gives (.grforce true 9) s ((u.modRegs fun _ => u.hart.regs.setG 9 w).retire true)

/-- What it asks of GRSAVE. -/
noncomputable def saveLeaves (s : State) (va : Word) (a : GReg) : Bool :=
  let v := s.drainAll
  okWith (v.access va 64 .write (v.rawWant va)) fun u r => okWith (u.access (va + 64) 64 .write (u.rawWant (va + 64))) fun w q =>
    gives (.grsave true a) s (((List.range 16).foldl (fun s n =>
      let x := if n < 8 then r else q
      s.perform ⟨x.place.add (8 * (n % 8)), ((sessionImage w.hart.session).drop (8 * n)).take 8, false, false, false, s.hart.ctx, x.dirty, x.via, false⟩) w).retire true)

/-- What it asks of GRLOAD of an image that holds a session. -/
noncomputable def loadImageLeaves (s : State) (va : Word) (a : GReg) : Bool :=
  let v := s.drainAll
  okWith (v.imageLoad va 64) fun u lo => okWith (u.imageLoad (va + 64) 64) fun w hi =>
    okWith (w.readGrammar (BitVec.ofNat 64 (bytesToNat ((lo ++ hi).take 8)))) fun y g =>
      match sessionOf (bytesToNat ((lo ++ hi).take 8)) g (lo ++ hi) with
      | some x => decide (x = ⟨0x10400, gramm, 1, [1]⟩) && gives (.grload true a) s ((y.modHart fun h => { h with session := some x }).retire true)
      | none => false

theorem witness_StrainerResults : Quiet grammared ∧ grammared.drainAll.hart.session = none ∧
    (∃ u g, grammared.drainAll.readGrammar 0x10400 = (u, .ok g) ∧ decide (g = gramm) = true) ∧
    ((boundTo 0 []).drainAll.hart.session = some ⟨0x10400, gramm, 0, []⟩ ∧ (boundTo 0 []).drainAll.g 4 = 0x10902) ∧
    (boundTo 0 []).drainAll.hart.cut = none ∧
    runLeaves (boundTo 0 []) 1 1 false = true ∧ runLeaves (boundTo 1 []) 1 0 true = true ∧
    forceLeaves (boundTo 0 []) 128 7 = true ∧ forceLeaves (boundTo 1 []) 0 (BitVec.allOnes 64) = true ∧
    forceLeaves (words (boundTo 0 []) [(0x400800, 0x81)]) 0x81 (BitVec.allOnes 64 - 1) = true ∧
    Execs (.grmaskM true 2 0) (boundTo 0 []) (fun t => t.hart.regs.mask 2 7 && !t.hart.regs.mask 2 6) ∧
    Execs (.grmaskV true 5 0) (boundTo 0 []) (fun t => t.hart.elem 5 1 0 == 128 && t.hart.elem 5 1 1 == 0) ∧
    saveLeaves (boundTo 1 [1]) 0x10A00 6 = true ∧
    loadImageLeaves (words grammared [(0x400A00, 0x10400), (0x400A08, 0x10001), (0x400A10, 1)]) 0x10A00 6 = true ∧
    Execs (.grload true 6) (boundTo 0 []) (fun t => t.hart.session == none) :=
  ⟨by unfold Quiet; decide +kernel, by decide +kernel, okWith_exists (by decide +kernel), by decide +kernel, rfl, by decide +kernel⟩

/-- Each case of a transition: entries that push at the limits, that pop, and that leave the stack. -/
theorem witness_StrainerResults_transition : (0xA0010001 / 2 ^ 31 % 2 = 1 ∧ 0xA0010001 / 2 ^ 24 % 32 = 0 ∧ 0xA0010001 % 65536 < gramm.nst ∧
    0xA0010001 / 2 ^ 29 % 4 = 1 ∧ 0 < 0xA0010001 / 2 ^ 16 % 256 ∧ 0xA0010001 / 2 ^ 16 % 256 < gramm.nsym) ∧ ([] : List Nat).length < gramm.depth ∧
    gramm.depth ≤ [1].length ∧ 0xC0000000 / 2 ^ 29 % 4 = 2 ∧ 0x80000001 / 2 ^ 29 % 4 = 0 ∧ 0x7FFFFFFF / 2 ^ 31 % 2 = 0 := by decide

/-- A word that the hart may store to, with what its checks leave. -/
theorem target {s : State} {va : Word} {p : State → Reached → Bool} (h0 : va.toNat % 8 = 0) (h : okWith (s.access va 8 .write) p = true) :
    ∃ u r, WordTarget s va u r ∧ p u r = true := by
  obtain ⟨u, r, e, h⟩ := okWith_exists h
  exact ⟨u, r, ⟨h0, e⟩, h⟩

/-- What `Obligations.ObjectResults` asks of TAGST: it stores the reference. -/
noncomputable def tagLeaves (d a : GReg) (o : Option Obj) (u : State) (r : Reached) : Bool :=
  !u.walkElsewhere && o.all (fun x => u.mayHold x r) && gives (.tagst true d a) objected ((u.putReference r (objected.g d)).retire true)

/-- What it asks of TAGLD. -/
noncomputable def tagReads (u : State) (r : Reached) : Bool :=
  let w := (u.eccAccess r.place 8).acquired r.place
  !(u.eccAccess r.place 8).viewPoison ownScalar r.place 8 && gives (.tagld true 9 1) objected ((w.modRegs fun _ => w.hart.regs.setG 9
    (if r.attr.tracked = true ∧ w.viewTag r.place = true then BitVec.ofNat 64 (bytesToNat (w.viewList ownScalar r.place 8)) else BitVec.allOnes 64)).retire true)

theorem reference_null (s : State) : Reference s 0 none := .inl ⟨rfl, rfl⟩
theorem reference_live (s : State) (v : Word) (x : Obj) (h : s.live v = some x) (hp : x.privateToOther s.hart = false) : Reference s v (some x) :=
  .inr ⟨x, h, hp, rfl⟩

/-- Another hart of the context walks. -/
def walking : State := { objected with others := [{ objected.hart with id := 5, walk := some ⟨0x20000, 2, 0, true, 3⟩ }] }

/-- The first object, which is the team's own. -/
def ownObj : Obj := ⟨0, 0, 1, 0x20000, 256, 1, 0, 0, 0, 0, 0, 0, 0, true, [0x410000], 0, []⟩

theorem witness_ObjectResults : Quiet objected ∧
    (Reference objected (objected.g 0) none ∧ ∃ u r, WordTarget objected (objected.g 1) u r ∧ tagLeaves 0 1 none u r = true) ∧
    (Reference objected (objected.g 3) (some ownObj) ∧ (∃ u r, WordTarget objected (objected.g 1) u r ∧ tagLeaves 3 1 (some ownObj) u r = true) ∧
      (∃ u r, WordTarget objected (objected.g 2) u r ∧
        (!u.walkElsewhere && !u.mayHold ownObj r && gives (.tagst true 3 2) objected (u.takeTrap (.own 0x0B (objected.g 2)) true)) = true)) ∧
    (Quiet walking ∧ Reference walking (walking.g 0) none ∧ ∃ u r, WordTarget walking (walking.g 1) u r ∧
      (u.walkElsewhere && gives (.tagst true 0 1) walking u) = true) ∧
    (objected.g 6 ≠ 0 ∧ objected.live (objected.g 6) = none) ∧
    (∃ x, objected.live (objected.g 5) = some x ∧ x.privateToOther objected.hart = true) ∧
    ((objected.g 1).toNat % 8 = 0 ∧ ∃ u r, objected.access (objected.g 1) 8 .read = (u, .ok r) ∧ tagReads u r = true) ∧
    (∃ u r, WordTarget objected (objected.g 1) u r ∧ (decide (r.place = .phys 0x410080) && r.attr.tracked) = true) ∧
    (∃ r : Reached, r.place = .phys 0x410080 ∧ inScan 0x410080 = false ∧ r.dirty = [] ∧ objected.hart.stores = [] ∧ objected.others = []) :=
  ⟨by unfold Quiet; decide +kernel, ⟨reference_null _, target (by decide +kernel) (by decide +kernel)⟩,
   ⟨reference_live _ _ _ (by decide +kernel) (by decide +kernel), target (by decide +kernel) (by decide +kernel), target (by decide +kernel) (by decide +kernel)⟩,
   ⟨by unfold Quiet; decide +kernel, reference_null _, target (by decide +kernel) (by decide +kernel)⟩,
   by decide +kernel, ⟨⟨0, 2, 1, 0x20200, 256, 1, 0, 9, 0, 0, 0, 0, 0, true, [0x410200], 0, []⟩, by decide +kernel, by decide +kernel⟩,
   ⟨by decide +kernel, okWith_exists (by decide +kernel)⟩, target (by decide +kernel) (by decide +kernel),
   ⟨⟨.phys 0x410080, ⟨0, 0, 0, true, 0⟩, 8, [], []⟩, by decide +kernel⟩⟩

/-- The translation of an address, with the accessed bits set, as OBJPRB finds it. -/
noncomputable def probed (va : Word) (p : State → Xl → Bool) : Bool :=
  match objected.lookup objected.hart.ctx va.toNat with
  | .error _ => false
  | .ok x => match objected.setAccessed objected.hart.ctx x.leaves with
    | (_, some _) => false
    | (u, none) => decide (u.attrFault x = none) && p u x

/-- The words of a shape record at 0x10040: one row of a line. -/
def shaped : State := gpr (words objected [(0x400040, 256 + 2 ^ 32), (0x400048, 0)]) [(8, 0x10040)]

theorem witness_ObjectResults_probe : (gpr m0 [(1, 0x70000000000000)]).hart.padOffset 0x70000000000000 = some 0 ∧ objected.hart.padOffset 0x20400 = none ∧
    probed 0x20400 (fun u x => (u.objAt x.pa).isNone && gives (.objprb true 9 7) objected ((u.modRegs fun _ => u.hart.regs.setG 9 0).retire true)) = true ∧
    probed 0x20080 (fun u x => match u.objAt x.pa with
      | some o => decide (o.ctx = u.hart.ctx) && o.whole &&
          gives (.objprb true 9 1) objected ((u.modRegs fun _ => u.hart.regs.setG 9 (0x20000 + 0x1800000000000000)).retire true)
      | none => false) = true ∧
    (match ({ objected with objs := objected.objs.map fun o => { o with ctx := 4 } } : State).objAt 0x410080 with
      | some o => o.ctx != 1
      | none => false) = true := by decide +kernel

/-- What `Obligations.ObjectResults` asks of OBJNEW: the claim of the one line at `a` passes. -/
noncomputable def newChecks (s : State) (a b : Word) (walks : Bool) : Bool :=
  okWith ((s.atIssue a b).1.recordWord b) fun s1 w0 => okWith (s1.recordWord (b + 8)) fun s2 w1 =>
    shapeRecordLegal (w0 % 2 ^ 32) (w0 / 2 ^ 32) (w1 % 2 ^ 48) (w1 / 2 ^ 48) && decide (w0 = 256 + 2 ^ 32 ∧ w1 = 0) &&
    decide (s2.partialAt a = none) && decide (s2.objectsLeft s2.hart.ctx ≠ 0) && decide (s2.hart.cut = none) && decide (s2.hart.elix = 0) &&
    decide ((s2.objs.filter fun o => o.die == s2.homeOf a).length < 65536) && decide (s2.walkElsewhere = walks) &&
    okWith (({ s2 with free := s2.free + 1 } : State).claimLines (s2.homeOf a) [] (coveredLines a (w0 % 2 ^ 32) (w0 / 2 ^ 32) (w1 % 2 ^ 48))) fun _ ls => decide (ls = [0x410300])

theorem witness_ObjectResults_new : Quiet shaped ∧ shaped.g 6 = 0x20300 ∧ shaped.g 8 = 0x10040 ∧ newChecks shaped 0x20300 0x10040 false = true ∧
    newChecks { shaped with others := walking.others } 0x20300 0x10040 true = true ∧
    (objected.g 3 ≠ 0 ∧ objected.live (objected.g 3) = some ownObj ∧ ownObj.privateToOther objected.hart = false) ∧
    (objected.walkElsewhere = false ∧ walking.walkElsewhere = true) ∧
    Execs (.objfree true 3) objected (fun t => t.objs.length == 2 && t.peekList (.phys 0x410000) 2 == [0, 0]) := by unfold Quiet; decide +kernel

/-- The second object, published at scope 3. -/
def pubObj : Obj := ⟨0, 1, 1, 0x20100, 256, 1, 0, 0, 0, 0, 0, 0, 3, true, [0x410100], 0, []⟩

/-- A walk of an object that satisfies the condition ends. -/
theorem walkStep_done {s : State} {want : ScopeOf} {o : Obj} {n : Nat} (h : s.enters want o = false) : s.walkStep want o n = (s, .done) := by
  simp [State.walkStep, h]

/-- A walk of an object that reaches no other changes it, unless the limit is met. -/
theorem walkStep_alone {s : State} {want : ScopeOf} {o : Obj} (n : Nat) (he : s.enters want o = true) (hc : s.closure want o = [o])
    (hd : s.draw.1.closure want o = [o]) : s.walkStep want o n = if n + 1 > 4096 then (s.draw.1, .limit) else (s.draw.1.publishSet want [o], .changed 1) := by
  simp only [State.walkStep, he, Bool.not_true, Bool.false_eq_true, if_false, hc]
  simp [hd, leastClosure, Nat.mod_one]

/-- Each outcome of a step of a walk from the team's own object: it changes it, or the limit of 4,096 stops it; from a published one it ends. -/
theorem witness_PublicationResults_walk : Quiet objected ∧ objected.walkElsewhere = false ∧ Reference objected (objected.g 3) (some ownObj) ∧
    Reference objected (objected.g 4) (some pubObj) ∧
    (∃ t, objected.drainAll.walkStep (objected.drainAll.hartScope 2) ownObj 0 = (t, .changed 1)) ∧
    (∃ t, objected.drainAll.walkStep (objected.drainAll.hartScope 2) ownObj 4096 = (t, .limit)) ∧
    objected.drainAll.walkStep (objected.drainAll.hartScope 2) pubObj 0 = (objected.drainAll, .done) :=
  ⟨by unfold Quiet; decide +kernel, by decide +kernel, reference_live _ _ _ (by decide +kernel) (by decide +kernel),
   reference_live _ _ _ (by decide +kernel) (by decide +kernel),
   ⟨_, (walkStep_alone 0 (by decide +kernel) (by decide +kernel) (by decide +kernel)).trans (if_neg (by decide))⟩,
   ⟨_, (walkStep_alone 4096 (by decide +kernel) (by decide +kernel) (by decide +kernel)).trans (if_pos (by decide))⟩, walkStep_done (by decide +kernel)⟩

/-- Whether it is the turn of the hart's walk (R342). -/
def turn (s : State) (w : Walk) : Bool := s.others.all fun h => decide (h.ctx ≠ s.hart.ctx) || h.walk.all fun x => !x.begun && decide (w.ticket ≤ x.ticket)

theorem turn_spec {s : State} {w : Walk} (h : turn s w = true) : Turn s w := by
  intro k hk hc x hx
  simp only [turn, List.all_eq_true] at h
  have := h k hk
  simp [hc, hx] at this
  exact this

theorem turn_not {s : State} {w : Walk} {h : Hart} {x : Walk} (hm : h ∈ s.others) (hc : h.ctx = s.hart.ctx) (hx : h.walk = some x)
    (hb : x.begun = true ∨ x.ticket < w.ticket) : ¬ Turn s w := fun t => by
  have := t h hm hc x hx
  rcases hb with hb | hb
  · simp [hb] at this
  · omega

/-- What `Obligations.PublicationResults` asks of PUBW and of PUB of a null reference. -/
noncomputable def nullLeaves (s : State) (done : State → Nat → State) (i : Instr) (code : Nat) : Bool :=
  let w := walkOf s 0 code
  let v := (joins s 0 code).drainAll
  turn (joins s 0 code) w && gives i objected (done (v.modHart fun h => { h with walk := none }) w.changed)

theorem witness_PublicationResults : Quiet objected ∧ objected.g 0 = 0 ∧ objected.walkElsewhere = false ∧ walking.walkElsewhere = true ∧
    nullLeaves objected (fun w n => (w.modRegs fun _ => w.hart.regs.setG 9 (BitVec.ofNat 64 n)).retire true) (.pubw true 9 0 2) 2 = true ∧
    (∃ u r, WordTarget objected (objected.g 2) u r ∧
      ((u.hartScope 3).contains (u.locationScope r.place r.attr) && !(u.hartScope 1).contains (u.locationScope r.place r.attr) &&
        !(u.hartScope 2).contains (u.locationScope r.place r.attr) &&
        nullLeaves u (fun w _ => (w.putReference r 0).retire true) (.pub true 1 2 0) 3) = true) ∧
    (¬ Turn (joins walking 0x20000 2) (walkOf walking 0x20000 2) ∧
      gives (.pubw true 9 3 2) walking (joins walking 0x20000 2) = true) :=
  ⟨by unfold Quiet; decide +kernel, by decide +kernel, by decide +kernel, by decide +kernel, by decide +kernel, target (by decide +kernel) (by decide +kernel),
   turn_not (.head _) (by decide +kernel) rfl (.inl rfl), by decide +kernel⟩

/-- The members of tagged memory on an untracked word, a scratchpad address, and a tracked page with no object. -/
theorem witness_PublicationResults_simple : Quiet shaped ∧
    (∃ u r, WordTarget shaped (shaped.g 8) u r ∧ (!u.walkElsewhere && gives (.tagst true 0 8) shaped ((u.putReference r 0).retire true)) = true) ∧
    ((shaped.g 8).toNat % 8 = 0 ∧ ∃ u r, shaped.access (shaped.g 8) 8 .read = (u, .ok r) ∧
      (!(u.eccAccess r.place 8).viewPoison ownScalar r.place 8 && !r.attr.tracked) = true) ∧
    (let s : State := { shaped with objs := [] }
     s.hart.elix = 0 ∧ s.hart.m15only = false ∧ s.hart.cut = none ∧ s.walkElsewhere = false ∧ newChecks s 0x20300 0x10040 false = true) :=
  ⟨by unfold Quiet; decide +kernel, target (by decide +kernel) (by decide +kernel), ⟨by decide +kernel, okWith_exists (by decide +kernel)⟩, by decide +kernel⟩

/-- The crown context at reset. -/
def crown0 : Ctx := Ctx.crown .nominal

/-- A control block at 0x10100 with a stage of its own (R386), and one at 0x10200 whose stage has the host's format, described at 0x10300; a child
2 of the crown with some of everything. -/
def parented : State :=
  let child : Ctx := { childOf crown0 2 [] [] [] with memory := 0x20000, queues := 60, children := 3, objects := 5, frames := 0x30000, enable := 0 }
  let s := sup (gpr (words m0 [(0x400138, 4), (0x400200, 1), (0x400210, 0x10300), (0x400238, 16), (0x400300, 0x900C2), (0x400308, 0x80)])
    [(1, 0x10100), (2, 0x10200), (3, 0x10002), (4, 4), (5, 0x0300000000000004), (6, 0x30000), (8, 1), (9, 0xFFFFFFFFFFFFFFFF), (10, 0x830000000000003C),
     (11, 0x02000000000000FF), (12, 0x0100000000010000), (13, 0x10001), (14, 0x0500000000100000), (15, 0x400000)])
  { s with ctxs := s.ctxs ++ [child] }

/-- A hart of the child, stopped in its frame. -/
def stoppedHart (serving : Bool) : State :=
  { parented with
    hart := { parented.hart with serves := if serving then some 9 else none }
    others := [{ parented.hart with id := 9, ctx := 2, run := .stopped, crew := 77, frame := 0 }] }

/-- What `Obligations.ContextResults` asks of a control block. -/
def ccbChecks (a : Word) (host : Bool) : Bool :=
  match parented.issuer with
  | none => false
  | some issuer => okWith (parented.loadWords a 32) fun u ws => ccbLegal issuer ws && decide (ws.getD 0 0 % 2 = if host then 1 else 0) &&
      (let fin (u1 : State) : Bool := okWith (u1.loadWords (BitVec.ofNat 64 (ws.getD 14 0)) (2 * (ws.getD 4 0 % 256))) fun u2 rs =>
          overlayZeros (overlayOf rs) && overlaySorted (overlayOf rs) && decide (u2.remaining issuer 4 ≠ 0) &&
            decide ((u2.ctxs.filter fun c => c.state != .revoked).length < 65535)
       if host then okWith (u.loadWords (BitVec.ofNat 64 (ws.getD 2 0)) 4) fun u1 fmt => formatLegal fmt && fin u1 else fin u)

theorem witness_ContextResults_new : Quiet m0 ∧ m0.hart.regs.tstat.getLsbD 0 = false ∧ m0.g 5 ≠ BitVec.allOnes 64 ∧
    Quiet parented ∧ parented.hart.regs.tstat.getLsbD 0 = true ∧ (parented.g 1).toNat % 256 = 0 ∧ ccbChecks 0x10100 false = true ∧ ccbChecks 0x10200 true = true := by
  unfold Quiet; decide +kernel

/-- The child of `parented`. -/
def child2 : Ctx := { childOf crown0 2 [] [] [] with memory := 0x20000, queues := 60, children := 3, objects := 5, frames := 0x30000, enable := 0 }

theorem witness_ContextResults_grant : parented.issuer = some crown0 ∧ parented.byHandle 0x10002 = some child2 ∧ child2.state ≠ .revoked ∧
    child2.parent = some parented.hart.ctx ∧ child2.queues + 4 ≤ 64 ∧ 4 ≤ parented.remaining crown0 3 ∧ parented.remaining crown0 5 < 0x100000 ∧
    0x20000 ≤ parented.remaining child2 0 ∧ crown0.clusters[1]? = some (0, 1) ∧
    (0xFF &&& (parented.tagsHeld crown0 0 - (parented.tagsHeld crown0 0 &&& parented.tagsInUse 0)) = 0xFF) ∧ crown0.clusters[0]? = some (0, 0) ∧
    60 ≤ parented.remaining child2 3 ∧
    (gives (.ctxgrant true 3 5) parented ((parented.modCtx 2 (more 3 4)).retire true) &&
      gives (.ctxgrant true 3 10) parented ((parented.modCtx 2 (less 3 60)).retire true) &&
      gives (.ctxgrant true 3 14) parented (parented.takeTrap (.own 0x16 0x100000) true) &&
      gives (.ctxgrant true 3 11) parented ((parented.modCtx 2 fun c => { c with grantedTags := Sparse.put zeroNat c.grantedTags 0 0xFF }).retire true)) = true := by
  decide +kernel

/-- What `Obligations.ContextResults` asks of a granted unit: cluster 1, core 0, whole. -/
noncomputable def unitLeaves : Bool :=
  match crown0.cut (unitNamed (0, 1) 0x10000) with
  | none => false
  | some (out, _) =>
    let t := ((out.foldl State.vacate parented).moveUnit 1 2 (unitNamed (0, 1) 0x10000)).modCtx 2 fun k =>
      { k with granted := k.granted ++ [unitNamed (0, 1) 0x10000] }
    !t.stands 1 (unitNamed (0, 1) 0x10000) && gives (.ctxgrant true 3 12) parented (t.retire true)

theorem witness_ContextResults_unit : unitLeaves = true ∧ parented.hart.elix ≠ 1 := by decide +kernel

/-- Another hart serves the stopped one: it runs, or waits at a failed access to its own frame. -/
def servedElsewhere (run : Run) (ctx : Nat) : State :=
  { stoppedHart false with others := (stoppedHart false).others ++ [{ parented.hart with id := 10, serves := some 9, run := run, ctx := ctx, frame := 3 }] }

/-- What `Obligations.ContextResults` asks of CTXRUN that releases a hart which hart `k` serves. -/
noncomputable def releases (written : Bool) (s : State) (k : Hart) : Bool :=
  (s.harts.find? fun k => k.serves == some 9 && !k.gone) == some k &&
  match s.setFrameState k 0 with
  | .ok t => written && if t.hart.id = k.id then gives (.ctxrun true 3 6) s (t.release 9) else gives (.ctxrun true 3 6) s ((t.release 9).retire true)
  | .error t => !written && gives (.ctxrun true 3 6) s (t.onHart k.id fun s => s.frameFault .save)

theorem witness_ContextResults_rest : parented.descends parented.hart.ctx 2 = true ∧ parented.g 8 = 1 ∧
    ((parented.holdCtx 2).subtreeRuns 2 = false ∧
      (({ stoppedHart false with others := (stoppedHart false).others.map fun h => { h with run := .ready } } : State).holdCtx 2).subtreeRuns 2 = true) ∧
    (∃ h, (stoppedHart false).stoppedAt 2 0x30000 = some h ∧ ((stoppedHart false).harts.find? fun k => k.serves == some h.id && !k.gone) = none) ∧
    (∃ h, (stoppedHart true).stoppedAt 2 0x30000 = some h ∧ h.id = 9) ∧
    (parented.stoppedAt 2 0x30000 = none ∧ (0x30000 : Nat) % 256 = 0) ∧
    (parented.g 9 = BitVec.allOnes 64 ∧ parented.inSubtree parented.hart.ctx 2 = true) ∧
    (gives (.ctxrun true 3 0) parented ((parented.modCtx 2 fun c => { c with state := .running }).retire true) &&
      gives (.ctxrun true 3 6) (stoppedHart false) (((stoppedHart false).release 9).retire true) &&
      gives (.trapup true 1 127) parented ((parented.retire true).deliver { cause := 0x19, tval := 255, stage := 1 }) &&
      gives (.ctxinfo true 9 3 9) parented ((parented.modRegs fun r => r.setG 9 0).retire true)) = true :=
  ⟨by decide +kernel, by decide +kernel, by decide +kernel, ⟨_, rfl, by decide +kernel⟩, ⟨_, rfl, by decide +kernel⟩, by decide +kernel, by decide +kernel, by decide +kernel⟩

/-- Each case of a served hart: by the hart itself, by another, by one whose frame cannot be written, and by one that waits for its own frame. -/
theorem witness_ContextResults_serving :
    releases true (stoppedHart true) (stoppedHart true).hart = true ∧
    (∃ k ∈ (servedElsewhere .ready 1).others, k.id = 10 ∧ releases true (servedElsewhere .ready 1) k = true) ∧
    (∃ k ∈ (servedElsewhere .ready 2).others, k.id = 10 ∧ releases false (servedElsewhere .ready 2) k = true) ∧
    (∃ k ∈ (servedElsewhere (.frameFault .save false) 1).others, k.run = .frameFault .save false ∧
      gives (.ctxrun true 3 6) (servedElsewhere (.frameFault .save false) 1) (servedElsewhere (.frameFault .save false) 1) = true) :=
  ⟨by decide +kernel, ⟨_, .tail _ (.head _), rfl, by decide +kernel⟩, ⟨_, .tail _ (.head _), rfl, by decide +kernel⟩, ⟨_, .tail _ (.head _), rfl, by decide +kernel⟩⟩

/-- The frame of a revoked context beneath child 2, whose header says so. -/
theorem witness_ContextResults_revoked :
    let s := gpr (words { parented with ctxs := parented.ctxs ++ [{ child2 with num := 3, parent := some 2, state := .revoked }] } [(0x400F00, 4)]) [(7, 0x10F00)]
    s.stoppedAt 2 0x10F00 = none ∧ (s.revokedAt 2 0x10F00).2 = true ∧ (parented.revokedAt 2 0x30000).2 = false ∧
      gives (.ctxrun true 3 7) s ((s.revokedAt 2 0x10F00).1.takeTrap (.own 0x17 0x10002) true) = true := by
  refine ⟨?_, ?_, ?_, ?_⟩ <;> decide +kernel
/-- A queue at 0x10100: a ring of 16 slots at 0x10800, empty; one at 0x10200 whose ring is full; a record at 0x10300 with a done word at 0x10400; words
of a final, 0x10500, and of a running launch, 0x10508. -/
def launching : State :=
  let s := gpr (words m0 [(0x400100, 0x10800), (0x400108, 16), (0x400200, 0x10800), (0x400208, 16), (0x400218, 20), (0x400220, 4),
    (0x400300, 0x10000), (0x400308, 7), (0x400310, 0x10400), (0x400318, 5), (0x400500, 3 * 2 ^ 32), (0x400508, 0xFFFF * 2 ^ 48)])
    [(1, 0x10100), (2, 0x10200), (3, 0x10300), (4, 0x10500), (5, 0x10508), (6, 1), (7, 8)]
  { s with queues := [⟨1, 4, 0x10200⟩] }

/-- The same with the queue of 0x10100 too. -/
def registered : State := { launching with queues := [⟨1, 4, 0x10200⟩, ⟨1, 5, 0x10100⟩] }

/-- A launch of the hart's context whose record is that of 0x10300. -/
def launched (base : Nat) : Launch := { launchOf 6 1 4 0 7 0 [0x10000, 7, 0x10400, 5, 0, 0, 0, 0, 0, 0, 0] with base := base }

/-- What `Obligations.LaunchResults` asks of an enqueued record. -/
noncomputable def enqueueLeaves : Bool :=
  okWith (registered.loadWords 0x10300 32) fun u1 ws => okWith (u1.loadWords 0x10100 5) fun u2 xs =>
    let values := [0xFFFF * 2 ^ 48 + ws.getD 3 0 % 65536 * 2 ^ 32] ++ ws ++ [1]
    recordLegal ws && decide (xs.getD 3 0 % 2 ^ 32 = 0) && decide (ws.getD 2 0 = 0x10400) &&
      okWith (u2.storeTargets ([0x10400] ++ ((List.range 32).map fun k => BitVec.ofNat 64 0x10800 + BitVec.ofNat 64 (8 * k)) ++ [0x10118])) fun u3 rs =>
        gives (.launch true 9 1 3) registered (((u3.drainAll.storeWords (rs.zip values)).setG 9 0).retire true)

theorem witness_LaunchResults : Quiet launching ∧ Quiet registered ∧ (launching.g 1).toNat % 256 = 0 ∧ launching.g 0 = 0 ∧
    (∃ u ws, launching.loadWords (launching.g 1) 32 = (u, .ok ws) ∧ (queueLegal ws && u.plainPage 0x10100 && decide (u.queueAt 0x10100 = none) &&
      (match u.issuer with
        | some c => decide (u.remaining c 3 ≠ 0)
        | none => false) && decide ((u.queues.filter fun x => x.ctx == u.hart.ctx).length < 64)) = true) ∧
    (∃ u ws, registered.loadWords (registered.g 1) 5 = (u, .ok ws) ∧ (decide (registered.queueAt 0x10100 = some ⟨1, 5, 0x10100⟩) &&
      decide (ws.getD 3 0 % 2 ^ 32 = ws.getD 4 0 % 2 ^ 32) && decide (u.launches = []) &&
      gives (.launch true 9 1 6) registered ((({ u with queues := u.queues.filter fun y => y != (⟨1, 5, 0x10100⟩ : Queue) } : State).setG 9 0).retire true)) = true) ∧
    (∃ u ws, registered.loadWords (registered.g 2) 5 = (u, .ok ws) ∧ (decide (ws.getD 3 0 % 2 ^ 32 ≠ ws.getD 4 0 % 2 ^ 32) &&
      gives (.launch true 9 2 6) registered u) = true) ∧
    (∃ u xs, registered.loadWords (registered.g 2) 5 = (u, .ok xs) ∧
      decide (xs.getD 1 0 ≤ (xs.getD 3 0 % 2 ^ 32 + 2 ^ 32 - xs.getD 4 0 % 2 ^ 32) % 2 ^ 32) = true) := by
  refine ⟨by unfold Quiet; decide +kernel, by unfold Quiet; decide +kernel, by decide +kernel, by decide +kernel, okWith_exists ?_, okWith_exists ?_,
    okWith_exists ?_, okWith_exists ?_⟩ <;> decide +kernel

theorem witness_LaunchResults_record : enqueueLeaves = true := by decide +kernel

/-- A crew of context 1, ready to be bound. -/
def waitingCrew (base : Nat) : State :=
  { registered with launches := [launched base], crews := registered.crews ++ registered.crews.map fun c => { c with id := 3, launch := 6, resident := false, die := 1 } }

theorem witness_LaunchResults_rest :
    (∃ u x, Acquires launching (launching.g 4) 8 u x ∧ (decide (x / 2 ^ 48 ≠ 0xFFFF) &&
      gives (.lwait true 9 4 0) launching (((u.waitUntil 0).setG 9 (BitVec.ofNat 64 x)).retire true)) = true) ∧
    (∃ u x, Acquires launching (launching.g 5) 8 u x ∧ (decide (x / 2 ^ 48 = 0xFFFF) && (u.waitUntil 0).limitPassed && !(u.waitUntil 8).limitPassed &&
      gives (.lwait true 9 5 0) launching (((u.waitUntil 0).setG 9 (BitVec.ofNat 64 x)).retire true) &&
      gives (.lwait true 9 5 7) launching (u.waitUntil 8)) = true) ∧
    7 < (launching.g 7).toNat ∧ launching.launchAt launching.hart.ctx 0x10400 = none ∧
    (waitingCrew 2).launchAt (waitingCrew 2).hart.ctx 0x10400 = some (launched 2) ∧
    (∃ c, ((waitingCrew 2).retire true).crew? ((waitingCrew 2).retire true).hart.crew = some c ∧
      (let t := (waitingCrew 2).retire true
       ((t.readyCrews c.ctx).any fun k => decide (t.crewPriority c ≤ (k.launch.map t.priority).getD 7) && (t.fit k c.id 0).isSome) = false)) ∧
    (∃ c, ((waitingCrew 7).retire true).crew? ((waitingCrew 7).retire true).hart.crew = some c ∧
      (let t := (waitingCrew 7).retire true
       ((t.readyCrews c.ctx).any fun k => decide (t.crewPriority c ≤ (k.launch.map t.priority).getD 7) && (t.fit k c.id 0).isSome) = true)) ∧
    (let s := { waitingCrew 7 with crews := (waitingCrew 7).crews.map fun c => { c with ctx := 4 } }
     ∃ c, (s.retire true).crew? (s.retire true).hart.crew = some c ∧ c.ctx ≠ (s.retire true).hart.ctx ∧ gives (.yield true) s (s.retire true) = true) ∧
    (let s := { waitingCrew 7 with crews := [] }
     (s.retire true).crew? (s.retire true).hart.crew = none ∧ gives (.yield true) s (s.retire true) = true) :=
  ⟨acquires (by decide +kernel) (by decide +kernel), acquires (by decide +kernel) (by decide +kernel), by decide +kernel, by decide +kernel, by decide +kernel,
   ⟨_, rfl, by decide +kernel⟩, ⟨_, rfl, by decide +kernel⟩, ⟨_, rfl, by decide +kernel, by decide +kernel⟩, by decide +kernel⟩

/-- A collective's descriptor at 0x10100: a broadcast of one element from the member itself to a group of two. -/
def grouped : State :=
  gpr (words m0 [(0x400100, 0x40 + 5 * 2 ^ 32), (0x400108, 1), (0x400110, 0x10200), (0x400118, 0x10800), (0x400120, 0x10900), (0x400128, 0x10A00),
    (0x400130, 0x10600), (0x400200, 1 + 3 * 2 ^ 32), (0x400210, 5), (0x400800, 7)]) [(1, 0x10100)]

/-- The collective it starts: its token is register 9. -/
def collective (kind : CollKind) : Coll :=
  ⟨1, kind, 0x40, 0, false, 0, 5, 1, 0x10800, 0x10900, 0x10A00, 0x10600, 0, [0, 0, 0, 0], 0x10200, 3, [0, 5], [0, 0], 0, 0, 9, 0, [], [], [], 0, none, false⟩

/-- With that collective outstanding. -/
def joined (f : Coll → Coll) : State := grouped.modHart fun h => { h with colls := [f (collective .broadcast)], pend := [9] }

/-- What `Obligations.CollectiveResults` asks of a descriptor. -/
def collChecks : Bool :=
  okWith (grouped.loadWords 0x10100 8) fun u1 ws => okWith (u1.loadWords (BitVec.ofNat 64 (ws.getD 2 0)) 1) fun u2 hs =>
    decide (hs.length = 1) && (let hd := hs.headD 0
      okWith (u2.loadWords (BitVec.ofNat 64 (ws.getD 2 0) + 8) (hd % 256 + 1)) fun u3 es =>
        collLegal ws && groupLegal hd && decide (rankOf u3.pkg.fabricId es = some 0))

theorem witness_CollectiveResults : Starts true 9 1 (.colb true 9 1) .broadcast ∧ Quiet grouped ∧ (grouped.g 1).toNat % 64 = 0 ∧
    (grouped.hart.colls.filter fun c => !c.delivered).length < 4 ∧ collChecks = true ∧
    (let s := grouped.modHart fun h => { h with colls := (List.range 4).map fun k => { collective .reduce with id := k, token := 9 + k } }
     4 ≤ (s.hart.colls.filter fun c => !c.delivered).length ∧ gives (.colb true 9 1) s s = true) :=
  ⟨.inr (.inr (.inr ⟨rfl, rfl⟩)), by unfold Quiet; decide +kernel, by decide +kernel⟩

theorem witness_CollectiveResults_waits : grouped.hart.collOf 9 = none ∧
    (joined id).hart.collOf 9 = some (collective .broadcast) ∧ (collective .broadcast).ended = none ∧
    (((joined id).waitUntil ((joined id).g 0).toNat).limitPassed = true) ∧ (((joined id).waitUntil ((joined id).g 1).toNat).limitPassed = false) ∧
    (∀ st ∈ [0, 3], (joined fun c => { c with ended := some st }).hart.collOf 9 = some { collective .broadcast with ended := some st }) ∧
    grouped.enginesBusy grouped.hart = false ∧ (joined id).enginesBusy (joined id).hart = true ∧
    (gives (.colw true 10 9 0) grouped ((grouped.modRegs fun r => r.setG 10 0).retire true) &&
      gives (.colw true 10 9 0) (joined id) ((((joined id).waitUntil 0).setG 10 (status 0xFFFF 5 0)).retire true) &&
      gives (.colw true 10 9 1) (joined id) ((joined id).waitUntil 0x10100) &&
      gives (.cola true 9) (joined id) (((joined id).modColl 1 fun c => { c with ended := some 2 }).retire true) &&
      (let s := joined fun c => { c with ended := some 0 }
       gives (.colw true 10 9 0) s ((((s.waitUntil 0).completeColl { collective .broadcast with ended := some 0 }).setG 10 (status 0 5 0)).retire true)) &&
      (let s := joined fun c => { c with ended := some 3 }
       gives (.colw true 10 9 0) s ((((s.waitUntil 0).completeColl { collective .broadcast with ended := some 3 }).setG 10 (status 3 5 0)).takeTrap (.own 0x1F 5) true)) &&
      gives (.fenceEng true 2) grouped (grouped.performLate.drainAll.retire true) &&
      gives (.fenceEng true 2) (joined id) (joined id).engineStep) = true := by
  refine ⟨?_, ?_, ?_, ?_, ?_, ?_, ?_, ?_, ?_⟩ <;> decide +kernel

theorem reset_on (s : State) (h : s.harts.find? (fun h => h.id == 0) = some s.hart) (r : s.enginesRun s.hart = true) : On s 0 := ⟨_, h, r⟩

/-- An event of hart 0 leaves exactly `t`. -/
noncomputable def leaves (i : Instr) (s t : State) : Bool := gives i s (t.focus s.hart.id)

theorem witness_CollectiveResults_events : On (joined id) 0 ∧
    ((joined id).focus 0).hart.colls.find? (fun c => c.id == 1) = some (collective .broadcast) ∧
    ((collective .broadcast).ready.contains 1 = false ∧ 1 ≠ (collective .broadcast).rank ∧ (collective .broadcast).allReady = false) ∧
    (let c := { collective .broadcast with ready := [0, 1] }; c.allReady = true) ∧
    (leaves (.readyFlitReceive 0 1 1) (joined id) ((joined id).modColl 1 fun c => { c with ready := 1 :: c.ready }) &&
      leaves (.abortFlitReceive 0 1) (joined id) ((joined id).modColl 1 fun c => { c with ended := some 3 }) &&
      (let s := joined fun c => { c with ready := [0, 1] }
       leaves (.abortFlitReceive 0 1) s (s.focus 0))) = true ∧
    (let s := joined fun c => { c with ended := some 2 }
     Execs (.collectiveComplete 0 1) s fun t => decide (Sparse.get zeroWord t.hart.regs.gpr 9 = status 2 5 0) && decide (t.hart.pend = [])) :=
  ⟨reset_on _ (by decide +kernel) (by decide +kernel), by decide +kernel⟩

/-- With elements of 8 bytes. -/
def wide : Coll := { collective .broadcast with vt := 0x60 }
def joinedWide : State := joined fun _ => wide

/-- What the other member sends for the chunk, under a form. -/
def peerChunk (form : Nat) : PeerChunk := ⟨form, 1, 0x60, 0, 0, [(0, false)], [], none⟩

theorem witness_CollectiveResults_matched : wide.ended = none ∧ wide.chunks = 0 ∧ 0 < wide.chunkCount ∧ wide.matched [] [] = false ∧
    wide.matched [] [peerChunk 3, peerChunk 0] = false ∧ wide.matched [] [peerChunk 3, peerChunk 3] = true ∧
    joinedWide.pkg.answersFor wide = [] ∧ joinedWide.pkg.answers wide [peerChunk 3, peerChunk 3] = some [] ∧
    gives (.collectiveChunk 0 1 []) joinedWide ((joinedWide.modColl 1 fun c => { c with ended := some 2 }).focus 0) = true := by
  refine ⟨?_, ?_, ?_, ?_, ?_, ?_, ?_, ?_, ?_⟩ <;> decide +kernel

theorem witness_CollectiveResults_chunk : wide.chunk = [0] ∧ wide.reads [0] = [0] ∧
    (let p := joinedWide.performLate.drainAll.bufferBase wide wide.send
     let q := p.1.bufferBase wide wide.recv
     let width := elemBits q.2.fmt wide.vt
     okWith (q.1.readElems wide p.2 width [0]) fun u own => decide (own = [(0, 7, false)]) &&
       okWith (({ u with free := u.free + 4 } : State).writeElems wide wide.stage [(0, 7, false)]) fun _ _ => true) = true := by
  refine ⟨?_, ?_, ?_⟩ <;> decide +kernel

/-- The other member is lost and the device has promoted its mirror; with `held`, of the 4 KiB from 2^48 on, at 0x404000. -/
def lostPeer (held : Bool) : State := { joinedWide with pkg := { joinedWide.pkg with
  lost := [5], promoted := [5], devregs := if held then [(0x800, BitVec.ofNat 64 (2 ^ 48)), (0x808, 0x1000), (0x810, 0x404000), (0x818, 0x50001)] else [] } }

/-- What reaches the device of the lost member: where its buffers lie. -/
def lostChunk : PeerChunk := { peerChunk 3 with lost := some ⟨2 ^ 48, 2 ^ 48 + 0x100, 0, 0⟩ }

theorem witness_CollectiveResults_lost : (lostPeer false).pkg.answersFor wide = [1] ∧ wide.matched [1] [peerChunk 3, lostChunk] = true ∧
    (lostPeer false).pkg.answers wide [peerChunk 3, lostChunk] = none ∧
    gives (.collectiveChunk 0 1 [peerChunk 3, lostChunk]) (lostPeer false) (((lostPeer false).modColl 1 fun c => { c with ended := some 3 }).focus 0) = true ∧
    (lostPeer true).pkg.answers wide [peerChunk 3, lostChunk] = some [⟨1, 0, 0x404100, 0, 0, []⟩] ∧
    Execs (.collectiveChunk 0 1 [peerChunk 3, lostChunk]) (lostPeer true) (fun t => t.hart.colls.all fun c => c.chunks == 1 && c.answers.length == 1) := by
  refine ⟨?_, ?_, ?_, ?_, ?_, ?_⟩ <;> decide +kernel
/-- A hart that stands at `i` and waits. -/
def waits (s : State) (i : Instr) (w : Waiting) : State := s.modHart fun h => { h with convoy := [i], waiting := w }

/-- The copy that SXGO forks, held. -/
def copyBegun (aborting : Bool) : State :=
  let s := afterFork (copying 0) false 9 4
  s.modHart fun h => { h with copies := h.copies.map fun c => { c with aborting := aborting } }

/-- What `Obligations.HartEvents` asks of a strip. -/
noncomputable def stripChecks : Bool :=
  let s := copyBegun false
  match s.copy? 1 with
  | none => false
  | some c =>
    let v := (s.focus 0).drainAll.modHart fun h => { h with rseed := c.seed }
    let a := v.baseOf (c.reg 0)
    let b := a.1.baseOf (c.reg 1)
    decide (c.ended = none) && !c.aborting && decide (c.length = 2) && !c.multi &&
      okWith (b.1.checkMoves (c.side false a.2) (c.side true b.2) (c.moves b.1.hart.spbase (elemBits a.2.fmt c.vt) (elemBits b.2.fmt c.vt) c.strips)) fun _ _ => true

theorem witness_HartEvents_waits : On m0 0 ∧
    (waits m0 (.wait true) (.tick 1)).hart.waiting = .tick 1 ∧ m0.pkg.cycle / 256 = 0 ∧
    (let s := (waits m0 (.waitw true 0) (.until 0)).modHart fun h => { h with watch := some ⟨.phys 0x400000, true⟩ }
     Quiet s ∧ leaves (.waitEnd 0) (waits m0 (.wait true) (.tick 1)) (waits m0 (.wait true) .none) = true ∧
     leaves (.waitwTimeout 0) s ((s.modHart fun h => { h with watch := none }).retire true) = true ∧
     leaves (.waitwWake 0) s ((s.modHart fun h => { h with watch := none }).retire true) = true) ∧
    (let s := waits launching (.lwait true 9 5 0) (.until 0)
     (s.g 5).toNat % 8 = 0 ∧ ∃ v x, Acquires s (s.g 5) 8 v x ∧ (decide (v.hart.waiting = .until 0) && decide (0 ≤ v.pkg.cycle / 256) &&
       leaves (.lwaitTimeout 0) s ((v.setG 9 (BitVec.ofNat 64 x)).retire true)) = true) ∧
    (let s := waits (joined id) (.colw true 10 9 0) (.until 0)
     s.hart.collOf 9 = some (collective .broadcast) ∧ leaves (.colwTimeout 0) s ((s.setG 10 (status 0xFFFF 5 0)).retire true) = true) ∧
    (let s := waits { m0 with pkg := { m0.pkg with cycle := 256 } } (.fenceSc true 5) (.boundary 0)
     leaves (.fenceScTick 0) s (s.retire true) = true) :=
  ⟨reset_on _ (by decide +kernel) (by decide +kernel), by decide +kernel, by decide +kernel, ⟨by unfold Quiet; decide +kernel, by decide +kernel, by decide +kernel, by decide +kernel⟩,
   ⟨by decide +kernel, acquires (by decide +kernel) (by decide +kernel)⟩, by decide +kernel, by decide +kernel⟩

theorem witness_HartEvents_engines : On (copyBegun false) 0 ∧ stripChecks = true ∧
    (leaves (.copyStrip 0 1) (copyBegun true) ((copyBegun true).modCopy 1 fun c => { c with ended := some 2 })) = true ∧
    (let s := copyBegun false
     Execs (.copyStrip 0 1) s fun t => decide (t.hart.copies.map (fun c => (c.strips, c.count, c.ended)) = [(1, 2, some 0)])) ∧
    (let s := (copyBegun false).modCopy 1 fun c => { c with ended := some 0, count := 2 }
     Execs (.copyCompletion 0 1) s fun t => decide (Sparse.get zeroWord t.hart.regs.gpr 9 = status 0 7 2) && decide (t.hart.pend = [])) ∧
    (let s := (copyBegun false).modCopy 1 fun c => { c with ended := some 0, unacked := 1 }
     leaves (.copyCompletion 0 1) s s = true) ∧
    (let s := m0.modHart fun h => { h with matrix := [⟨.zero, 0, [], [], [], [], [], 1, 0, 0, 0, 0, 0⟩] }
     leaves (.matrixOpPerform 0) s ((s.drainAll.modHart fun h => { h with matrix := [] }).performMatrix ⟨.zero, 0, [], [], [], [], [], 1, 0, 0, 0, 0, 0⟩) = true) ∧
    (let s := (tabled 0).modHart fun h => { h with gathers := [⟨0x40, 2, 0, 0x10100, 0, none, 0⟩] }
     let b := s.drainAll.seqBase (fun _ => true) 0x10100 0 [0]
     let r := b.1.gatherRun ⟨0x40, 2, 0, 0x10100, 0, none, 0⟩ b.2 (List.range 2)
     r.2 = some (2, [1, 2]) ∧ leaves (.queuedGatherPerform 0 0) s (r.1.modHart fun h => { h with gathers := [⟨0x40, 2, 0, 0x10100, 0, some (2, [1, 2]), 0⟩] }) = true) ∧
    (let s := m0.modHart fun h => { h with sample := some ⟨.phys 0x400100, [], [], 9, .done false 3 4 []⟩, pend := [9] }
     Execs (.sampleRecordWrite 0) s fun t => decide (t.hart.sample = none) && decide (Sparse.get zeroWord t.hart.regs.gpr 9 = status 0 0 64)) ∧
    (let s := m0.modHart fun h => { h with run := .retiring }
     s.hart.matrix = [] ∧ s.hart.stores = [] ∧ s.hart.late = [] ∧ s.storesStuck = false ∧ s.others = [] ∧ (s.setFrameState s.hart 0).toBool = true ∧
       Execs (.hartRetire 0) s fun t => t.harts.all fun h => decide (h.run = .retired)) ∧
    (let s := m0.modHart fun h => { h with run := .halting }
     Execs (.hartRetire 0) s fun t => t.harts.all fun h => decide (h.run = .halted)) :=
  ⟨reset_on _ (by decide +kernel) (by decide +kernel), by decide +kernel⟩

/-- Three stores, the second of them by a vector instruction. -/
def storing : State :=
  let q (v : Bool) (b : Byte) : Pending := ⟨.phys 0x400000, [b], false, v, v, 1, [], [], false⟩
  m0.modHart fun h => { h with stores := [q false 1, q true 2, q false 3] }

/-- A trim that a fault of its own caused, undecided, at a member that decides it. -/
def noTrim : Trim := ⟨false, false, false, 0, m0.hart.regs, 0x10000, [], 0, 3, 0x0B, 0x20, 0, [], 0, [], none, true, 0, 8, 0, false, []⟩
def trimmed (i : Instr) : State := m0.modHart fun h => { h with convoy := [i], region := ⟨true, false, false, false, [noTrim], []⟩ }

/-- A strip behind a predicting XBR, with these trims (R190). -/
def predicted (ts : List Trim) : State :=
  m0.modHart fun h => { h with region := ⟨true, false, false, false, [], [⟨ts, [], true, Word.ones, h.regs, 0x10010⟩]⟩ }

theorem witness_HartEvents_rest :
    (storing.hasHart 0 = true ∧ storing.stuck ⟨.phys 0x400000, [2], false, true, true, 1, [], [], false⟩ = false ∧ leaves (.accessPerformed 0 true) storing
      ((storing.modHart fun h => { h with stores := h.stores.eraseIdx 1 }).perform ⟨.phys 0x400000, [2], false, true, true, 1, [], [], false⟩) = true) ∧
    (let h := m0.modHart fun h => { h with run := .retired }
     h.executes = false ∧ gives .exitTestResolve h h = true) ∧
    (m0.executes = true ∧ m0.hart.region.strips = [] ∧ m0.hart.region.pending = false ∧ gives .exitTestResolve m0 m0 = true) ∧
    (let s := m0.modHart fun h => { h with region := ⟨true, false, false, true, [], []⟩ }
     s.executes = true ∧ gives .exitTestResolve s ((s.modHart fun h => { h with region := ⟨true, false, false, false, [], []⟩ }).releaseCaddy) = true) ∧
    (let s := predicted []
     s.executes = true ∧ s.hart.region.strips.length = 1 ∧ Execs .exitTestResolve s fun t => decide (t.hart.region.strips = []) && decide (t.hart.pc = s.hart.pc)) ∧
    (let s := predicted [noTrim]
     s.executes = true ∧ (s.hart.region.strips.map fun x => genuine x.trims) = [some noTrim] ∧
       Execs .exitTestResolve s fun t => decide (t.hart.tcause = 0x0B) && decide (t.hart.region.strips = [])) ∧
    (let s := m0.modHart fun h => { h with late := [⟨3, 0, 0x40, 0, 0, []⟩] }
     s.hasHart 0 = true ∧ s.hart.late ≠ [] ∧ leaves (.accessPerformed 0 true) s s.performLate = true) ∧
    (let s := trimmed (.sxw true 1 0)
     s.executes = true ∧ s.hart.region.strips = [] ∧ s.hart.region.pending = false ∧ decidesTrims (.sxw true 1 0) = true ∧ s.ctx? s.hart.ctx = some crown0 ∧ crown0.enable.getLsbD 0x0B = true ∧
     m0.hart.regs.tstat.getLsbD 0 = false ∧
     Execs .stripResolve s fun t => decide (t.hart.tcause = 0x0B) && decide (t.hart.telix = 3) && decide (t.hart.pc = s.hart.tvec) &&
       decide (t.hart.region.trims = [])) := by
  refine ⟨?_, ?_, ?_, ?_, ?_, ?_, ?_, ?_⟩ <;> decide +kernel

/-- The convolution strip worked in 11_streamer.md, with its image at 0x10040. -/
def convolved (pix dy : Word) : State :=
  let fl (x : Nat) : Nat := if x = 0 then 0 else if x < 8 then [0, 0x3F800000, 0x40000000, 0x40400000].getD x 0 else 0x41200000 + (x - 10) * 0x100000
  let s := { m0 with mem := Memory.writeList m0.mem 0x400040 (([0, 1, 2, 3, 10, 11, 12, 13] : List Nat).flatMap fun x => natToBytes (fl x) 4) }
  gpr (s.modHart fun h => { h with
    regs := { h.regs with vt := 0x48, vl := 8 }
    sx := [(0, 0x10040), (1, h.spbase + 0x100), (2, 1), (7, 0x100000001), (8, 1), (9, 0xBF800000), (10, 0x100020004), (11, dy * 65536 + 0xFFFF),
      (12, pix), (16, 0x10800)] }) [(21, 7)]

theorem test_sxgo_convolution : Execs (.sxgo true 20 21) (convolved 4 0) (fun t => t.g 20 == 0x0000000700000004 &&
      t.peekList (.pad 0 0x100) 20 == [0xBF800000, 0x41200000, 0x41300000, 0x41400000, 0].flatMap fun x => natToBytes x 4) ∧
    Execs (.sxgo true 20 21) (convolved 8 0) (fun t => t.g 20 == 0x0000000700000000) ∧
    Execs (.sxgo true 20 21) (convolved 4 1) (fun t => t.g 20 == 0x0000000700000004 &&
      t.peekList (.pad 0 0x100) 16 == (List.replicate 4 0xBF800000).flatMap fun x => natToBytes x 4) := by decide +kernel

/-- A record in the first slot of the ring of queue 5, not yet accepted. -/
def offered (entry : Nat) : State :=
  words registered [(0x400118, 1), (0x400800, entry), (0x400808, 7), (0x400810, 0x10400), (0x400818, 5)]

/-- What `Obligations.SchedulerEvents` asks of a record. -/
noncomputable def acceptChecks (s : State) (ok : Bool) : Bool :=
  match s.queueWords ⟨1, 5, 0x10100⟩ with
  | .error _ => false
  | .ok (u, ring, n, tail, head) => decide ((ring, n, tail, head) = (0x10800, 16, 1, 0)) && decide (u.launches.length < 4096) &&
    match u.recordWords 1 0x10800 32 with
    | .error _ => false
    | .ok (v, ws) =>
      let l := launchOf v.nextId 1 5 head 7 (v.pkg.cycle / 256) ws
      (recordLegal ws && decide (v.launchAt 1 l.done = none) && v.placeable crown0 l) == ok &&
        (let u := if ok then { v with nextId := v.nextId + 1, launches := v.launches ++ [l] }
            else (({ v with nextId := v.nextId + 1 } : State).writeDone 1 l.done l.op 2 0).fileEvent 1 0x08 0 (l.op * 65536)
         match u.ctxPut 1 (0x10100 + 0x20) 1 false with
          | .ok w => gives (.launchAccept 1 5) s w
          | .error _ => false)

theorem witness_SchedulerEvents_accept : (offered 0x10000).queues.find? (fun q => q.ctx == 1 && q.num == 5) = some ⟨1, 5, 0x10100⟩ ∧
    (offered 0x10000).ctx? 1 = some crown0 ∧ acceptChecks (offered 0x10000) true = true ∧ acceptChecks (offered 0x10001) false = true := by decide +kernel

/-- A launch that waits for units. -/
def pendingLaunch (f : Launch → Launch) (cycle : Nat) : State := { registered with launches := [f (launched 7)], pkg := { registered.pkg with cycle := cycle } }

theorem witness_SchedulerEvents_bind :
    (let s := pendingLaunch id 0
     let r := s.reap.readDeps 1
     let v := { r.tallyAll with launches := r.tallyAll.launches.map Launch.grow }
     v.bindOrder 1 = [⟨some (launched 7), none, 0, 0⟩] ∧ (v.fit ⟨some (launched 7), none, 0, 0⟩ v.nextId 0).isSome = true) ∧
    (Execs (.crewBind 1 0) (pendingLaunch id 0) fun t => decide (t.others.map (fun h => (h.pc, h.regs.g 1)) = [(0x10000, 7)]) &&
      decide (t.crews.map (fun c => c.launch) = [0, 6])) := by
  decide +kernel

theorem witness_SchedulerEvents_rest :
    (let s := { registered with
       crews := registered.crews ++ registered.crews.map fun c => { c with id := 7, preempting := true }
       others := [{ registered.hart with id := 9, crew := 7, run := .preempted }] }
     ∃ c, s.crew? 7 = some c ∧ c.resident = true ∧ c.preempting = true ∧ s.crewStopped c = true ∧
       s.harts.find? (fun h => s.takes c h && h.run == .ready && !h.sure) = none ∧
       (let out := (s.harts.filter fun h => s.takes c h && !h.inFrame).map (·.id)
        let v := out.foldl (fun s h => s.onHart h State.saveHart) (out.foldl (fun s h => s.onHart h State.settleOut) s)
        let x := ((v.teams.filter fun t => t.crew == 7).foldl (State.savePad out) v).alignBarriers out c
        v.saveFailed c = false ∧ (v.harts.all fun h => decide (h.crew ≠ 7) || h.gone || v.takes c h) = true ∧ x.saveFailed c = false) ∧
       Execs (.preemptionComplete 7) s fun t => t.crews.all fun k => decide (k.id ≠ 7) || !k.resident) ∧
    (((pendingLaunch id 256).tally (launched 7)).waited < 2 ^ 16 ∧ 2 ^ 16 ≤ ((pendingLaunch id (2 ^ 24)).tally (launched 7)).waited ∧
      Execs (.priorityAging 6) (pendingLaunch id (2 ^ 24)) fun t => decide (t.launches.map (fun l => (l.age, l.waited)) = [(1, 0)])) ∧
    ((∀ bits ∈ [(2 ^ 34 + 2 * 2 ^ 32 + 1 : Nat), 1],
      let f (l : Launch) : Launch := { l with hintPending := true, hintBase := 0x10000, hint := BitVec.ofNat 64 bits }
      let s := pendingLaunch f 0
      let v := s.applyModes
      s.launch? 6 = some (f (launched 7)) ∧ (v.unmet (f (launched 7))).isEmpty = true ∧ v.ctxRuns 1 = true ∧ v.quiet (fun pa => (v.hintPages (f (launched 7))).contains (pa / 65536)) = true ∧
        (match v.lookup 1 0x10000 with
          | .ok x => x.pa == 0x400000 && !v.linkWaits (.phys (65536 * (x.pa / 65536)))
          | .error _ => false) = true) ∧
      (Execs (.homeBiasMove 6) (pendingLaunch (fun l => { l with hintPending := true, hintBase := 0x10000, hint := 0x600000001 }) 0) fun t =>
        decide (Sparse.get zeroNat t.homes 64 % 4 = 2))) ∧
    (let f (l : Launch) : Launch := { l with hintPending := true }
     let s := pendingLaunch f (2 ^ 24)
     (s.tally (f (launched 7))).hintPending = true ∧ (s.tally (f (launched 7))).hintAt + 2 ^ 16 ≤ s.pkg.cycle / 256) ∧
    (let s := pendingLaunch (fun l => { l with unbound := [] }) 0
     let l := { launched 7 with unbound := [] }
     s.reap.launch? 6 = some l ∧ s.reap.doneWaits l = false ∧ s.reap.depFailed l = false ∧ (s.reap.crews.all fun c => decide (c.launch ≠ 6)) = true ∧
     Execs (.launchCompletion 6) s fun t => decide (t.launches = []) && decide (t.peekList (.phys 0x400400) 8 = natToBytes (5 * 2 ^ 32) 8)) := by
  refine ⟨⟨_, rfl, ?_, ?_, ?_, ?_, ?_⟩, ?_, ?_, ?_, ?_⟩ <;> decide +kernel


/-- A hart of the crew being pre-empted with an undecided trim: it is taken to its stopping point first. -/
theorem witness_SchedulerEvents_held :
    let h : Hart := { registered.hart with id := 9, crew := 7, region := ⟨true, false, false, false, [noTrim], []⟩ }
    let s := { registered with crews := registered.crews ++ registered.crews.map (fun (c : Crew) => { c with id := 7, preempting := true }), others := [h] }
    ∃ c, s.crew? 7 = some c ∧ c.resident = true ∧ c.preempting = true ∧ s.crewStopped c = true ∧
      s.harts.find? (fun h => s.takes c h && h.run == .ready && !h.sure) = some h :=
  ⟨_, rfl, by decide +kernel, by decide +kernel, by decide +kernel, by decide +kernel⟩
/-- The page requests of two harts of context 2: one placed, one that waits for the ring. -/
def request3 (host : Bool) : PageReq := ⟨3, 0, 2, 0x20000, 0, false, [9], if host then some 0 else some 0x10400, host, 0, 0, true⟩
def request4 : PageReq := ⟨4, 0, 2, 0x30000, 0, true, [10], none, false, 0, 0, true⟩

/-- Hart 9 of context 2 waits for a page of its parent's stage, whose request stands in the ring slot at 0x10400, answered with `code`. -/
def paged (host : Bool) (code : Nat) : State :=
  let s := words parented [(0x400418, code)]
  { s with
    others := [{ s.hart with id := 9, ctx := 2, run := .paging }, { s.hart with id := 10, ctx := 2, run := .paging }]
    pages := [request3 host, request4]
    ctxs := [crown0, { child2 with prqBase := 0x10500, prqCount := 4, vf := 0x18005 }] }

theorem witness_PageEvents : (paged false 1).page? 3 = some (request3 false) ∧
    ((paged false 1).pageAnswer (request3 false)).map (·.2) = some true ∧
    ((paged false 2).pageAnswer (request3 false)).map (·.2) = some false ∧
    (paged true 0).page? 3 = some (request3 true) ∧
    ((paged false 1).pages.all fun x => decide (x.id = 3) || !x.waiters.contains 9) = true ∧
    (Execs (.pageRequestAnswer 3) (paged false 1) fun t => decide (t.others.map (fun h => (h.run, h.pageFailed)) = [(.resuming, none), (.paging, none)])) ∧
    (Execs (.pageRequestGroupResponse 3 1) (paged true 0) fun t => t.others.map (fun h => (h.run, h.pageFailed.isSome)) == [(.resuming, true), (.paging, false)]) ∧
    ((paged false 1).page? 4 = some request4 ∧
      (match (paged false 1).harts.find? fun h => [10].contains h.id with
        | some h => (let r := (paged false 1).placeRequest request4 ((paged false 1).ctxid h.ctx)
          decide (r.2.slot = some 0x10500) &&
            gives (.pendingPageEntryFree 4) (paged false 1) { r.1 with pages := r.1.pages.map fun x => if x.id = 4 then r.2 else x })
        | none => false) = true) ∧
    ((paged false 1).ctxs.find? (fun c => c.state != .revoked && c.vf.getLsbD 16 && c.vf.getLsbD 15 == true && c.vf.toNat % 64 == 5)).isSome = true ∧
    (Execs (.functionLevelReset true 5) (paged false 1) fun t => t.ctxs.all fun c => c.num != 2 || c.state == .revoked) := by
  refine ⟨?_, ?_, ?_, ?_, ?_, ?_, ?_, ?_, ?_, ?_⟩ <;> decide +kernel

/-- The crown's unit of the boot crew fails. -/
theorem witness_DeviceEvents :
    (m0.teams.all fun t => t.resident && t.core.die == 0 && t.core.cluster == 0 && t.core.core == 0 && t.crew == 0) = true ∧
    (Execs (.coreFailure 0 0 0) m0 fun t => decide (t.crews = []) && t.ctxs.all fun c => !c.units.contains ⟨0, 0, 0, 0, 0⟩) ∧
    (Execs (.clusterFailure 0 1) m0 fun t => t.ctxs.all fun c => c.units.all fun u => !(u.die == 0 && u.cluster == 1)) ∧
    (let s := { parented with owner := [(0x4000, 2), (0x4001, 1)] }
     Execs (.channelFailure 0x400000 512) s fun t => t.poisoned (.phys 0x4001FF) && !t.poisoned (.phys 0x400200)) ∧
    (Execs (.securityAlarm 3) m0 fun t => t.pkg.alarm == 3 && !t.pkg.deviceKeys && t.pkg.frozen == m0.tenants && t.pkg.refuseAttest) ∧
    (Execs (.securityAlarm 0) m0 fun t => t.pkg.alarm == 2 && t.pkg.deviceKeys && !t.pkg.sessionKeys) ∧
    (m0.pkg.idVersion ≤ (7 : BitVec 32).toNat) ∧
    (let b := m0.pkg.manifest.budget
     b < 9000 ∧ 7800 ≤ b ∧ b * 95 ≤ 7800 * 100 ∧ 7000 * 100 < b * 95) ∧
    (((enabledUnits .nominal).all fun x => Sparse.get zeroNat m0.pkg.grant (coreIndex x) == 3) = false) ∧
    (Execs (.deviceReset true ⟨true, none, 0, none⟩) (gpr m0 [(5, 1)]) fun t => t.g 5 == 0 && t.peekList (.phys 0x400000) 4 == m0.peekList (.phys 0x400000) 4) ∧
    (let s := { m0 with pkg := { m0.pkg with recovery := true, fwGood := true, mfGood := false } }
     Execs (.recoveryImageWrite (some .nominal) true 0) s fun t => !t.pkg.recovery && t.hart.pc == 0x10000) ∧
    (let s := { m0 with pkg := { m0.pkg with recovery := true, fwGood := false, mfGood := false } }
     Execs (.recoveryImageWrite (some .nominal) true 0) s fun t => t.pkg.recovery && t.pkg.mfGood && !t.pkg.fwGood) := by
  refine ⟨?_, ?_, ?_, ?_, ?_, ?_, ?_, ?_, ?_, ?_, ?_, ?_⟩ <;> decide +kernel

/-- Grant steps and their boundary, and what a reset asks of the images and their versions. -/
theorem witness_DeviceEvents_more :
    (let s := { m0 with pkg := { m0.pkg with boundary := false } }
     gives (.powerGrantStep 7000 0 1 [2]) s { s with pkg := { s.pkg with power := some ⟨7000, 0, 1, [2]⟩ } } = true) ∧
    (let s := { m0 with pkg := { m0.pkg with boundary := true, clock := 1500 } }
     Execs (.powerGrantStep 7000 0 1 [2]) s (fun t => decide (t.pkg.clock = 1600) && decide (Sparse.get zeroNat t.pkg.grant 2 = 3) && decide (t.pkg.power = none)) ∧
     Execs (.powerGrantStep 7800 0 1 []) s (fun t => decide (t.pkg.clock = 1500) && decide (t.pkg.grant = s.pkg.grant)) ∧
     Execs (.powerGrantStep 9000 0 1 []) s (fun t => decide (t.pkg.clock = 1500) && decide (t.pkg.grant ≠ s.pkg.grant))) ∧
    (m0.pkg.fwVersion ≤ m0.pkg.fwAccepted ∧ m0.pkg.mfVersion ≤ m0.pkg.mfAccepted ∧
      Execs (.deviceReset false ⟨true, none, 0, none⟩) m0 fun t => t.pkg.recovery && decide (t.hart.run = .retired) && !t.pkg.fwGood && t.pkg.mfGood) ∧
    (let s := { m0 with pkg := { m0.pkg with fwVersion := 5, fwAccepted := 5 } }
     Execs (.deviceReset true ⟨true, none, 0, some 4⟩) s (fun t => t.pkg.recovery) ∧ Execs (.deviceReset true ⟨true, none, 0, some 5⟩) s (fun t => !t.pkg.recovery)) ∧
    (let s := { m0 with pkg := { m0.pkg with recovery := true, fwGood := false, mfGood := true, fwVersion := 5 } }
     gives (.recoveryImageWrite none true 4) s s = true ∧ Execs (.recoveryImageWrite none true 5) s fun t => !t.pkg.recovery && t.pkg.fwAccepted == 5) := by
  refine ⟨?_, ?_, ?_, ?_, ?_⟩ <;> decide +kernel

theorem put_steps (l : List CoreUnit) (x : CoreUnit) (h : x ∈ l) : Sparse.get zeroNat (l.map fun x => (coreIndex x, 3)) (coreIndex x) = 3 := by
  induction l with
  | nil => cases h
  | cons y l ih =>
    simp only [List.map_cons, Sparse.get]
    split
    · rfl
    · rename_i hk
      cases h with
      | head => simp at hk
      | tail _ h => exact ih h

/-- Every core at its lowest grant step. -/
theorem witness_DeviceEvents_least : let s := { m0 with pkg := { m0.pkg with grant := (enabledUnits .nominal).map fun x => (coreIndex x, 3) } }
    ∀ x ∈ enabledUnits .nominal, Sparse.get zeroNat s.pkg.grant (coreIndex x) = 3 := fun x h => put_steps _ x h

/-- Port 0 up with a window of 256 MiB at host address 2^40 onto the frame of 0x10000; the hart's context frozen for the scan path. -/
def ported : State :=
  { objected with pkg := { objected.pkg with
    port0 := { objected.pkg.port0 with up := true }, saddr := 0x1028, sctl := 0x10000, frozen := [1], sdata := 5
    devregs := [(0x200, 0x10000000000), (0x208, 0x10000000), (0x210, 0x400000), (0x218, 1)] } }

theorem witness_LinkEvents :
    (ported.hostReach false 0x10000000100 8 = some 0x400100 ∧ ported.hostReach false 0x10000010000 8 = some 0x410000 ∧
      ported.hostReach true 0x10000000100 8 = none) ∧
    ((ported.objs.find? fun o => o.scope == 0 && o.lines.any fun l => decide (l < 0x400100 + 8) && decide (0x400100 < l + 256)) = none) ∧
    ((ported.objs.find? fun o => o.scope == 0 && o.lines.any fun l => decide (l < 0x410000 + 8) && decide (0x410000 < l + 256)).isSome = true) ∧
    (let s := { m0 with ctxs := [{ crown0 with stage := { crown0.stage with host := true } }] }
     s.others = [] ∧ ((s.chain s.hart.ctx).any fun c => c.stage.host) = true) ∧
    ported.scanRoot = some crown0 ∧
    (match ported.scanned with
      | some h => (areaAt (ported.scanAreas h) (ported.pkg.saddr.toNat % 2 ^ 24)).isSome
      | none => false) = true ∧
    (Execs .scanRead (gpr ported [(5, 77)]) fun t => t.pkg.sdata == 77) ∧ (Execs .scanWrite ported fun t => t.g 5 == 5) ∧
    ported.pkg.links[(3 : BitVec 4).toNat]?.isSome = true ∧ ported.pkg.lost.contains 5 = false ∧
    (Execs (.lossFlitReceive 5) (joined id) fun t => t.harts.all fun h => h.colls.all fun c => c.ended == some 3) := by
  refine ⟨?_, ?_, ?_, ?_, ?_, ?_, ?_, ?_, ?_, ?_, ?_⟩ <;> decide +kernel

/-- A sample whose record was translated through the entry at 0x400100. -/
def held400 : Option Sample := some ⟨.phys 0x400800, [], [0x400100], 9, .armed⟩

/-- A neighbour whose one port has been down for 2^12 ticks, and the accesses of a host that wait, are refused or reach a function's registers. -/
theorem witness_LinkEvents_more :
    (let s := { joined id with pkg := { (joined id).pkg with links := [⟨5, false, 8, false, 0, 0⟩], cycle := 2 ^ 20 } }
     s.unlinked 5 = true ∧ (joined id).unlinked 5 = false ∧ Execs (.linkDownTimeout 5) s fun t => t.pkg.lost.contains 5) ∧
    (ported.pkg.hostWrites = [] ∧ ported.entryInUse (.phys 0x400100) 8 = false) ∧
    (let s := ported.modHart fun h => { h with sample := held400 }
     s.entryInUse (.phys 0x400100) 8 = true ∧ Execs (.hostAccess false ⟨0, 0x10000000100⟩ true (List.replicate 8 7)) s fun t => t.pkg.hostWrites.length == 1) ∧
    (let s := { m0 with ctxs := [{ crown0 with stage := { crown0.stage with host := true } }] }
     (s.translated s.hart = false) ∧ ((s.modHart fun h => { h with sample := held400 }).translated
       (s.modHart fun h => { h with sample := held400 }).hart = true)) ∧
    (let s := { m0 with ctxs := [{ crown0 with vf := 0x18005, ring := 0x10100 }], pkg := { m0.pkg with port1 := { m0.pkg.port1 with up := true } } }
     (s.hostRegister true (5 + 1) 0x38 false (List.replicate 8 0)).isSome = true ∧ s.hostRegister true (5 + 1) 0x80 true (List.replicate 8 0) = none) := by
  refine ⟨?_, ?_, ?_, ?_, ?_⟩ <;> decide +kernel

/-- The scan path at a hart whose frame holds its state: the registers are read and written there. -/
theorem witness_LinkEvents_inFrame : let s := { ported with
      hart := { ported.hart with run := .reflected }, pkg := { ported.pkg with saddr := ported.pkg.saddr - ported.pkg.saddr % 0x1000000 + 0x100 } }
    (match s.scanned with
      | some h => h.inFrame && decide (s.pkg.saddr.toNat % 2 ^ 24 < 0x68000) && (s.frameWrite h framePages (s.pkg.saddr.toNat % 2 ^ 24) 8 (wordImage [5])).toBool &&
          match s.frameWrite h framePages (s.pkg.saddr.toNat % 2 ^ 24) 8 (wordImage [5]) with
          | .ok t => gives .scanWrite s t && (match exec .scanRead t with
            | .next u => u.pkg.sdata == 5
            | _ => false)
          | .error _ => false
      | none => false) = true := by decide +kernel

/-- A device that is held as a mirror: the records at 0x800. -/
theorem witness_LinkEvents_held : let s := { m0 with pkg := { m0.pkg with devregs := [(0x800, 0), (0x808, 0x10000), (0x810, 0x400000), (0x818, 0x50001)] } }
    (∃ m ∈ s.pkg.held, m.device = 5) ∧ Execs (.lossFlitReceive 5) s (fun t => t.pkg.promoted.contains 5) :=
  ⟨⟨_, .head _, rfl⟩, by decide +kernel⟩

theorem witness_EncodeDecodeRoundTrip : (Instr.vadd true 1 2 3 true).wf = true ∧
    encode (.vadd true 1 2 3 true) = some 0b1_100111_0000001_0000010_0000011_1_000 ∧
    decodeWord 0b1_100111_0000001_0000010_0000011_1_000 = .ok (.vadd true 1 2 3 true) := by decide +kernel

theorem witness_StepKeepsMemoryCanonical : Memory.wf m0.mem = true ∧ Memory.wf atLine.mem = true ∧
    Steps 0b1_001110_0000100_0000001_110_00000000 (gpr .reset [(1, 0x10040), (4, 0x1122334455667788)])
      (fun t => decide ((t.peekList (.phys 0x400040) 1 = [0x88]) ∨ t.hart.stores.length = 1)) := by decide +kernel

/-- What `Obligations.StepRunsDecoded` asks of a fetch. -/
noncomputable def fetchChecks (s : State) (i : Instr) : Bool :=
  let v := s.passTime
  okWith (v.access v.hart.pc 4 .fetch) fun u r =>
    match u.peekList r.place 4 with
    | [b0, b1, b2, b3] =>
      let w := { u with hart := { u.hart with
          convoy := [i], head := v.hart.pc, member := 0, headAstat := u.hart.regs.astat, headSphw := BitVec.ofNat 64 u.sphw } }
      (match decode [b0, b1, b2, b3] with
        | .ok (j, []) => decide (j = i)
        | _ => false) && decide (u.oldCode r.place = []) && b3.getLsbD 7 && decide (illegalConvoy u.hart.regs v.hart.pc [i] = none) &&
        (!needsSupervisor i || u.hart.regs.tstat.getLsbD 0) && ((vFields i).all fun x => decide (x.toNat < u.hart.regs.vnreg)) && !w.tokenStall i &&
        decide (((w.prepare i).cutFor i).hart.cut = none) &&
        (match exec i (w.prepare i) with
          | .next _ => true
          | _ => false)
    | _ => false

theorem witness_StepRunsDecoded : (m0.events = [] ∧ m0.pick = some m0 ∧ m0.hart.run = .ready ∧ m0.passTime.heldByWait = false) ∧
    (m0.hart.convoy = [] ∧ m0.passTime.hart.breaks = false ∧ m0.passTime.hart.pc.toNat % 4 = 0 ∧ fetchChecks m0 (.nop true) = true) ∧
    (let s := m0.modHart fun h => { h with convoy := [.add false 5 6 7, .nop true] }
     s.pick = some s ∧ s.passTime.heldByWait = false ∧ s.passTime.tokenStall (.add false 5 6 7) = false ∧
     (((s.passTime.prepare (.add false 5 6 7)).cutFor (.add false 5 6 7)).hart.cut = none) ∧
     Execs (.add false 5 6 7) (s.passTime.prepare (.add false 5 6 7)) fun _ => true) ∧
    (let i : Instr := .vadd false 1 2 3 false
     let s : State := { vec (m0.modHart fun h => { h with convoy := [i, .nop true] }) 128 [] with cuts := [0] }
     let w := s.passTime.prepare i
     s.pick = some s ∧ s.passTime.heldByWait = false ∧ s.passTime.tokenStall i = false ∧ ((w.cutFor i).hart.cut.isSome = true) ∧
     Execs i (w.cutFor i) fun t => t.wentOn w.hart || t.hart.elix != 0) ∧
    (encode .scanFreeze = none ∧ (match step { m0 with events := [.scanFreeze, .scanThaw] } with
      | .next t => decide (t.events = [.scanThaw])
      | _ => false) = true) := by
  refine ⟨?_, ?_, ?_, ?_, ?_⟩ <;> decide +kernel

/-- The page of 0x20000 as an MXFP8 page of geometry 0 (R118, R370), whose scale byte for address 0x20000 stands at 0x10800. -/
def mxPage (scale : Nat) (data : List Byte) : State :=
  let s := words m0 [(Config.crownRoot + 0x20000 + 8 * 2, 0x410000 + 0x6F)]
  let m := Memory.writeList (Memory.writeList (Memory.write s.mem (Config.frameTableBase + 0x41) 0) 0x410000 data) 0x400800 (natToBytes scale 1)
  let s := vec ({ s with mem := m }.modRegs fun r => { r with vt := 0x48 }) 2 [(3, [0x40400000, 0x3F800000])]
  gpr (s.modHart fun h => { h with splane0 := 0xF800 }) [(1, 0x20000)]

theorem test_vld_mx : Execs (.vld true 2 1 false) (mxPage 0x80 [0x38, 0x40]) (fun t => elems t 2 2 == [0x40000000, 0x40800000]) := by decide +kernel
theorem test_vst_mx : Execs (.vst true 3 1 false) (mxPage 0x7F []) (fun t => t.peekList (.phys 0x410000) 4 == [0x7C, 0x70, 0, 0] &&
    t.peekList (.phys 0x400800) 1 == [0x78]) := by decide +kernel

/-- The three stages of the composed translation of 17_contexts.md: context 3 under 2 under the crown. `leaf` is the leaf of stage 1. -/
def composed (leaf : Nat) : State :=
  let s := words m0 [(Config.crownRoot, 0xF), (0x200000, 0x210001), (0x210000, leaf), (0x4000300000, 0x310001), (0x4000310000, 0x320001), (0x4000320018, 0x7201B)]
  let c2 := { childOf crown0 2 [] [] [] with state := .running, stage := ⟨false, false, 0x200000, 0, 0, 0, []⟩ }
  { s with
    mem := [0x20, 0x21, 0x400007, 0x400030, 0x400031, 0x400032].foldl (fun m k => Memory.write m (Config.frameTableBase + k) 0) s.mem
    ctxs := [crown0, c2, { childOf c2 3 [] [] [] with state := .running, stage := ⟨false, false, 0x300000, 0, 0, 0, []⟩ }]
    hart := { s.hart with ctx := 3 } }

/-- The outcome of a store to 0x30010: where it lands and how many dirty bits it sets, or cause and stage. -/
noncomputable def storeOutcome (s : State) : Place × Nat ⊕ BitVec 8 × Nat :=
  match s.access 0x30010 8 .write with
  | (_, .ok r) => .inl (r.place, r.dirty.length)
  | (_, .error (.trap t)) => .inr (t.cause, t.stage)
  | (_, .error .wait) => .inr (0, 9)

theorem test_composed_translation : storeOutcome (composed 0x400000000F) = .inl (.phys 0x4000070010, 3) ∧
    storeOutcome (composed 0x400000000D) = .inr (0x08, 1) ∧ storeOutcome (composed 0x400000100F) = .inr (0x0A, 1) := by decide +kernel

/-- The priority inversion of 18_scheduling.md at tick 1,020: M's crew holds the four cores of context 2, and Lo, with done word 0x10500, is ready. -/
def inverted (withH : Bool) (tick : Nat) : State :=
  let us : List CoreUnit := [⟨0, 1, 0, 0, 0⟩, ⟨0, 1, 1, 0, 0⟩, ⟨0, 1, 2, 0, 0⟩, ⟨0, 1, 3, 0, 0⟩]
  let l (id base grid done : Nat) (deps : List Nat) (bound : Bool) : Launch :=
    { launchOf id 2 0 id 7 1010 [0x10000, 0, done, id, grid + base * 2 ^ 17] with deps := deps, unbound := if bound then [] else [(0, 0)] }
  { words m0 [(0x400500, 0xFFFF * 2 ^ 48)] with
    ctxs := [crown0, { childOf crown0 2 [] [] [] with state := .running, ceiling := 7, units := us, clusters := [(0, 1)], stage := crown0.stage }]
    crews := m0.crews ++ m0.crews.map fun c => { c with id := 40, launch := 11, ctx := 2, rows := 2, cols := 2, cluster := 1 }
    teams := m0.teams ++ (us.zip (List.range 4)).map fun x => Team.atStart (50 + x.2) 40 x.2 x.1 0x100000
    others := (List.range 4).map fun k => { m0.hart with id := 60 + k, ctx := 2, crew := 40, slot := k }
    launches := [l 11 3 5 0 [] true, l 12 1 5 0x10500 [] false] ++ if withH then [l 13 6 0 0 [0x10500] false] else []
    pkg := { m0.pkg with cycle := tick * 256 } }

theorem test_priority_inversion :
    (Execs (.crewBind 2 0) (inverted true 1020) fun t => (t.crew? 40).any (·.preempting) && t.launches.map t.priority == [3, 6, 6]) ∧
    (Execs (.crewBind 2 0) (inverted false 66546) fun t => !(t.crew? 40).any (·.preempting) && t.launches.map t.priority == [3, 2]) ∧
    (Execs (.crewBind 2 0) (inverted false 66545) fun t => t.launches.map t.priority == [3, 1]) := by decide +kernel

end Sys2Proof.Tests
end

section
/-!
Words and instructions (R32 to R38): every word that decodes is the word of the instruction that it decodes to, major by major, and
every instruction is read back by the law of its constructor. With O56 and O55.
-/
namespace Sys2Proof.Encoding

/-- What a decoder reads, `r`, is a well-formed instruction whose word is `w`, where it reads one at all. -/
def Reads (r : Except IllegalWord Instr) (w : Code) : Prop := ∀ i, r = .ok i → i.wf = true ∧ encode i = some w

theorem Reads.ok {i : Instr} {w : Code} (hwf : i.wf = true) (hw : encode i = some w) : Reads (.ok i) w := by
  rintro _ ⟨⟩; exact ⟨hwf, hw⟩

theorem Reads.error {why : IllegalWord} {w : Code} : Reads (.error why) w := nofun

/-- A guard that the decoder tests is the instruction's own well-formedness. -/
theorem Reads.guard {c : Bool} {i : Instr} {why : IllegalWord} {w : Code} (hwf : c = i.wf) (hw : encode i = some w) :
    Reads (if c then .ok i else .error why) w := by
  cases c
  · exact .error
  · exact .ok hwf.symm hw

theorem Reads.zero {x : BitVec 7} {k : Unit → Except IllegalWord Instr} {w : Code} (h : x = 0 → Reads (k ()) w) :
    Reads (zeroField x >>= k) w := by
  unfold zeroField
  split
  · exact h ‹_›
  · exact .error

/-- A field whose high bits are zero is its low bits with zeros above them. -/
theorem eq_zero_append {n m : Nat} {x : BitVec (n + m)} (h : x.extractLsb' m n = 0) : x = (0 : BitVec n) ++ x.extractLsb' 0 m := by
  rw [← h, BitVec.extractLsb'_append_extractLsb'_eq_extractLsb' (by omega)]; simp

theorem Reads.mask {x : BitVec 7} {k : MReg → Except IllegalWord Instr} {w : Code} (h : ∀ y, x = ofMask y → Reads (k y) w) :
    Reads (maskField x >>= k) w := by
  unfold maskField
  split
  · exact h _ (eq_zero_append (n := 3) (m := 4) ‹_›)
  · exact .error

theorem Reads.low {x : BitVec 7} {k : BitVec 3 → Except IllegalWord Instr} {w : Code} (h : ∀ y, x = ofLow y → Reads (k y) w) :
    Reads (lowField x >>= k) w := by
  unfold lowField
  split
  · exact h _ (eq_zero_append (n := 4) (m := 3) ‹_›)
  · exact .error

/-! The values of a minor, one named case each. -/

theorem bitVec4_cases {p : BitVec 4 → Prop} (m0 : p 0) (m1 : p 1) (m2 : p 2) (m3 : p 3) (m4 : p 4) (m5 : p 5) (m6 : p 6) (m7 : p 7)
    (m8 : p 8) (m9 : p 9) (m10 : p 10) (m11 : p 11) (m12 : p 12) (m13 : p 13) (m14 : p 14) (m15 : p 15) (f : BitVec 4) : p f := by
  rcases f with ⟨⟨k, hk⟩⟩
  interval_cases k <;> assumption

theorem bitVec3_cases {p : BitVec 3 → Prop} (m0 : p 0) (m1 : p 1) (m2 : p 2) (m3 : p 3) (m4 : p 4) (m5 : p 5) (m6 : p 6) (m7 : p 7)
    (f : BitVec 3) : p f := by
  rcases f with ⟨⟨k, hk⟩⟩
  interval_cases k <;> assumption

theorem bitVec2_cases {p : BitVec 2 → Prop} (m0 : p 0) (m1 : p 1) (m2 : p 2) (m3 : p 3) (f : BitVec 2) : p f := by
  rcases f with ⟨⟨k, hk⟩⟩
  interval_cases k <;> assumption

theorem ofBool_getLsbD {n : Nat} (x : BitVec n) (k : Nat) : BitVec.ofBool (x.getLsbD k) = x.extractLsb' k 1 := by
  apply BitVec.eq_of_getLsbD_eq; intro j hj
  obtain rfl : j = 0 := by omega
  simp

/-! The decoder of each major: its minors in turn, each read back as the word that the encoder gives (R34 to R38). -/

variable {e : Bool} {d a b : BitVec 7} {f : BitVec 4} {m : Bool} {f3 : BitVec 3}

theorem decodeAlu_reads : Reads (decodeAlu e d a b f) (encR e 0x01 d a b f) := by
  induction f using bitVec4_cases
  all_goals exact .ok rfl rfl

theorem decodeAlu2_reads : Reads (decodeAlu2 e d a b f) (encR e 0x02 d a b f) := by
  induction f using bitVec4_cases
  case m12 | m13 | m14 | m15 => exact .zero fun hb => by subst hb; exact .ok rfl rfl
  all_goals exact .ok rfl rfl

theorem decodeJreg_reads : Reads (decodeJreg e d a b f) (encR e 0x18 d a b f) := by
  induction f using bitVec4_cases
  case m2 => exact .zero fun hd => .zero fun ha => .zero fun hb => by subst hd ha hb; exact .ok rfl rfl
  case m0 | m1 => exact .zero fun hd => .zero fun hb => by subst hd hb; exact .ok rfl rfl
  all_goals exact .error

theorem decodeSys_reads : Reads (decodeSys e d a b f) (encR e 0x1E d a b f) := by
  induction f using bitVec4_cases
  case m1 => exact .zero fun hd => .zero fun ha => by subst hd ha; exact .ok rfl rfl
  case m0 | m2 | m3 | m4 | m5 | m6 => exact .zero fun hd => .zero fun ha => .zero fun hb => by subst hd ha hb; exact .ok rfl rfl
  all_goals exact .error

theorem decodeAlu3_reads : Reads (decodeAlu3 e d a b f) (encR e 0x1F d a b f) := by
  induction f using bitVec4_cases
  case m0 | m1 | m2 | m3 | m4 | m5 => exact .zero fun hb => by subst hb; exact .ok rfl rfl
  all_goals exact .error

theorem decodeAmoRlx_reads : Reads (decodeAmoRlx e d a b f) (encR e 0x20 d a b f) := by
  induction f using bitVec4_cases
  all_goals exact .ok rfl rfl

theorem decodeAmoAcq_reads : Reads (decodeAmoAcq e d a b f) (encR e 0x21 d a b f) := by
  induction f using bitVec4_cases
  all_goals exact .ok rfl rfl

theorem decodeAmoRel_reads : Reads (decodeAmoRel e d a b f) (encR e 0x22 d a b f) := by
  induction f using bitVec4_cases
  all_goals exact .ok rfl rfl

theorem decodeAmoAr_reads : Reads (decodeAmoAr e d a b f) (encR e 0x23 d a b f) := by
  induction f using bitVec4_cases
  all_goals exact .ok rfl rfl

theorem decodeOrdmem_reads : Reads (decodeOrdmem e d a b f) (encR e 0x24 d a b f) := by
  induction f using bitVec4_cases
  case m4 => exact .zero fun hd => .zero fun hb => by subst hd hb; exact .ok rfl rfl
  case m5 => exact .zero fun hd => .zero fun ha => by subst hd ha; exact .ok rfl rfl
  case m0 | m1 | m2 | m3 => exact .zero fun hb => by subst hb; exact .ok rfl rfl
  all_goals exact .error

theorem decodeVcfg_reads : Reads (decodeVcfg e d a b f) (encR e 0x26 d a b f) := by
  induction f using bitVec4_cases
  case m0 => exact .zero fun hd => .zero fun ha => by subst hd ha; exact .guard rfl rfl
  case m1 => exact .guard rfl rfl
  case m2 => exact .zero fun ha => .zero fun hb => by subst ha hb; exact .ok rfl rfl
  all_goals exact .error

theorem decodeVint_reads : Reads (decodeVint e d a b m f3) (encV e 0x27 d a b m f3) := by
  induction f3 using bitVec3_cases
  all_goals exact .ok rfl rfl

theorem decodeVintx_reads : Reads (decodeVintx e d a b m f3) (encV e 0x28 d a b m f3) := by
  induction f3 using bitVec3_cases
  all_goals exact .ok rfl rfl

theorem decodeVint2_reads : Reads (decodeVint2 e d a b m f3) (encV e 0x29 d a b m f3) := by
  induction f3 using bitVec3_cases
  all_goals exact .ok rfl rfl

theorem decodeVint3_reads : Reads (decodeVint3 e d a b m f3) (encV e 0x2A d a b m f3) := by
  induction f3 using bitVec3_cases
  case m5 | m7 => exact .zero fun hb => by subst hb; exact .ok rfl rfl
  all_goals exact .ok rfl rfl

theorem decodeVflt_reads : Reads (decodeVflt e d a b m f3) (encV e 0x2B d a b m f3) := by
  induction f3 using bitVec3_cases
  all_goals exact .ok rfl rfl

theorem decodeVfltx_reads : Reads (decodeVfltx e d a b m f3) (encV e 0x2C d a b m f3) := by
  induction f3 using bitVec3_cases
  all_goals exact .ok rfl rfl

theorem decodeVfun_reads : Reads (decodeVfun e d a b m f3) (encV e 0x2D d a b m f3) := by
  induction f3 using bitVec3_cases
  case m5 => exact .ok rfl rfl
  all_goals exact .zero fun hb => by subst hb; exact .ok rfl rfl

theorem decodeVcmp_reads : Reads (decodeVcmp e d a b m f3) (encV e 0x2E d a b m f3) := by
  induction f3 using bitVec3_cases
  all_goals exact .mask fun _ hd => by subst hd; exact .ok rfl rfl

theorem decodeVcmpx_reads : Reads (decodeVcmpx e d a b m f3) (encV e 0x2F d a b m f3) := by
  induction f3 using bitVec3_cases
  all_goals exact .mask fun _ hd => by subst hd; exact .ok rfl rfl

theorem decodeVmask_reads : Reads (decodeVmask e d a b m f3) (encV e 0x30 d a b m f3) := by
  induction f3 using bitVec3_cases
  case m4 => exact .mask fun _ hd => .mask fun _ ha => .zero fun hb => by subst hd ha hb; exact .ok rfl rfl
  case m7 => exact .mask fun _ hd => .zero fun ha => .zero fun hb => by subst hd ha hb; exact .ok rfl rfl
  case m5 | m6 => exact .mask fun _ ha => .zero fun hb => by subst ha hb; exact .ok rfl rfl
  all_goals exact .mask fun _ hd => .mask fun _ ha => .mask fun _ hb => by subst hd ha hb; exact .ok rfl rfl

theorem decodeVcvt_reads : Reads (decodeVcvt e d a b m f3) (encV e 0x31 d a b m f3) := by
  induction f3 using bitVec3_cases
  case m4 | m5 => exact .zero fun hb => by subst hb; exact .ok rfl rfl
  case m6 | m7 => exact .ok rfl rfl
  all_goals exact .guard rfl rfl

theorem decodeVred_reads : Reads (decodeVred e d a b m f3) (encV e 0x32 d a b m f3) := by
  induction f3 using bitVec3_cases
  all_goals exact .zero fun hb => by subst hb; exact .ok rfl rfl

theorem decodeVperm_reads : Reads (decodeVperm e d a b m f3) (encV e 0x33 d a b m f3) := by
  induction f3 using bitVec3_cases
  case m4 => exact .mask fun _ ha => .zero fun hb => by subst ha hb; exact .ok rfl rfl
  case m5 => exact .zero fun hb => by subst hb; exact .ok rfl rfl
  case m2 | m3 => exact .mask fun _ hb => by subst hb; exact .ok rfl rfl
  all_goals exact .ok rfl rfl

theorem decodeVmem_reads : Reads (decodeVmem e d a b m f3) (encV e 0x34 d a b m f3) := by
  induction f3 using bitVec3_cases
  case m7 => exact .error
  case m0 | m2 => exact .zero fun hb => by subst hb; exact .ok rfl rfl
  all_goals exact .ok rfl rfl

theorem decodeVxit_reads : Reads (decodeVxit e d a b m f3) (encV e 0x35 d a b m f3) := by
  induction f3 using bitVec3_cases
  case m1 => exact .zero fun hd => .mask fun _ ha => .zero fun hb => by subst hd ha hb; exact .ok rfl rfl
  case m3 | m5 => exact .zero fun ha => .zero fun hb => by subst ha hb; exact .ok rfl rfl
  case m6 | m7 => exact .error
  all_goals exact .zero fun hd => .zero fun ha => .zero fun hb => by subst hd ha hb; exact .ok rfl rfl

theorem decodeVseq_reads : Reads (decodeVseq e d a b m f3) (encV e 0x37 d a b m f3) := by
  induction f3 using bitVec3_cases
  case m3 => exact .zero fun hd => by subst hd; exact .ok rfl rfl
  case m4 => exact .zero fun ha => .zero fun hb => by subst ha hb; exact .ok rfl rfl
  case m7 => exact .error
  all_goals exact .ok rfl rfl

theorem decodeMtx_reads : Reads (decodeMtx e d a b f) (encR e 0x38 d a b f) := by
  induction f using bitVec4_cases
  case m0 => exact .zero fun hb => by subst hb; exact .ok rfl rfl
  case m2 => exact .low fun _ hd => .zero fun ha => .zero fun hb => by subst hd ha hb; exact .ok rfl rfl
  case m11 => exact .zero fun ha => .zero fun hb => by subst ha hb; exact .ok rfl rfl
  case m12 => exact .low fun _ hd => .low fun _ ha => by subst hd ha; exact .guard rfl rfl
  case m6 | m8 => exact .low fun _ ha => by subst ha; exact .ok rfl rfl
  case m1 | m9 | m10 => exact .low fun _ hd => .zero fun hb => by subst hd hb; exact .ok rfl rfl
  case m13 | m14 | m15 => exact .error
  all_goals exact .low fun _ hd => by subst hd; exact .ok rfl rfl

theorem decodeStrm_reads : Reads (decodeStrm e d a b f) (encR e 0x3A d a b f) := by
  induction f using bitVec4_cases
  case m0 => exact .zero fun hd => by subst hd; exact .guard rfl rfl
  case m1 => exact .zero fun ha => by subst ha; exact .guard rfl rfl
  case m4 => exact .zero fun hd => .zero fun hb => by subst hd hb; exact .ok rfl rfl
  case m2 | m3 | m5 => exact .zero fun hb => by subst hb; exact .ok rfl rfl
  all_goals exact .error

theorem decodeClus_reads : Reads (decodeClus e d a b f) (encR e 0x3B d a b f) := by
  induction f using bitVec4_cases
  case m6 => exact .guard rfl rfl
  case m0 | m1 | m2 => exact .zero fun hd => .low fun _ ha => .low fun _ hb => by subst hd ha hb; exact .guard rfl rfl
  case m3 | m4 | m5 => exact .zero fun hb => by subst hb; exact .ok rfl rfl
  all_goals exact .error

theorem decodePubl_reads : Reads (decodePubl e d a b f) (encR e 0x3D d a b f) := by
  induction f using bitVec4_cases
  case m0 => exact .ok rfl rfl
  case m3 => exact .low fun _ hd => by subst hd; exact .guard rfl rfl
  case m4 => exact .low fun _ hb => by subst hb; exact .guard rfl rfl
  case m6 | m7 => exact .zero fun hd => .zero fun hb => by subst hd hb; exact .ok rfl rfl
  case m1 | m2 | m5 => exact .zero fun hb => by subst hb; exact .ok rfl rfl
  all_goals exact .error

theorem decodeCtx_reads : Reads (decodeCtx e d a b f) (encR e 0x3E d a b f) := by
  induction f using bitVec4_cases
  case m0 => exact .zero fun hb => by subst hb; exact .ok rfl rfl
  case m2 => exact .zero fun hd => .zero fun hb => by subst hd hb; exact .ok rfl rfl
  case m4 => exact .guard rfl rfl
  case m1 | m3 | m5 => exact .zero fun hd => by subst hd; exact .ok rfl rfl
  case m6 | m7 | m8 => exact .ok rfl rfl
  all_goals exact .error

theorem decodeColl_reads : Reads (decodeColl e d a b f) (encR e 0x3F d a b f) := by
  induction f using bitVec4_cases
  case m4 => exact .ok rfl rfl
  case m5 => exact .zero fun hd => .zero fun hb => by subst hd hb; exact .ok rfl rfl
  case m0 | m1 | m2 | m3 => exact .zero fun hb => by subst hb; exact .ok rfl rfl
  all_goals exact .error

theorem decodeXmem_reads : Reads (decodeXmem e d a b f) (encR e 0x0F d a b f) := by
  induction f using bitVec4_cases
  case m7 | m15 => exact .error
  all_goals exact .ok rfl rfl

theorem decodeGram_reads : Reads (decodeGram e d a b f) (encR e 0x3C d a b f) := by
  induction f using bitVec4_cases
  case m0 | m4 | m5 => exact .zero fun hd => .zero fun hb => by subst hd hb; exact .ok rfl rfl
  case m1 => exact .ok rfl rfl
  case m2 =>
    show Reads (if b = 0 then _ else if b = 1 then _ else _) _
    split
    next hb => exact .mask fun _ hd => by subst hd hb; exact .ok rfl rfl
    next =>
      split
      next hb => subst hb; exact .ok rfl rfl
      next => exact .error
  case m3 => exact .zero fun ha => .zero fun hb => by subst ha hb; exact .ok rfl rfl
  case m6 => exact .zero fun hd => .zero fun ha => .zero fun hb => by subst hd ha hb; exact .ok rfl rfl
  all_goals exact .error

theorem decodeXbr_reads {o : BitVec 11} : Reads (decodeXbr e d a o) (encI e 0x36 d a o) := by
  refine .zero fun hd => ?_
  subst hd
  split
  next h => obtain rfl : a = 0 := BitVec.eq_of_toNat_eq h; exact .ok rfl rfl
  next h => obtain rfl : a = 1 := BitVec.eq_of_toNat_eq h; exact .ok rfl rfl
  next => exact .error


/-- A field with zeros in its middle is its ends with zeros between: the immediate of a shift (R82) and of a fence (R178), and the pair of tiles. -/
theorem eq_append_zero_append {n m k : Nat} {x : BitVec (n + m + k)} (h : x.extractLsb' k m = 0) :
    x = x.extractLsb' (k + m) n ++ (0 : BitVec m) ++ x.extractLsb' 0 k := by
  rw [← h, BitVec.extractLsb'_append_extractLsb'_eq_extractLsb' rfl, BitVec.extractLsb'_append_extractLsb'_eq_extractLsb' (by omega)]
  exact (BitVec.extractLsb'_eq_self ..).symm

theorem decodeShi_reads {i : BitVec 11} : Reads (decodeShi e d a i) (encI e 0x07 d a i) := by
  by_cases h : i.extractLsb' 6 3 = 0
  · obtain ⟨k, s, rfl⟩ : ∃ (k : BitVec 2) (s : BitVec 6), i = k ++ (0 : BitVec 3) ++ s := ⟨_, _, eq_append_zero_append h⟩
    simp only [decodeShi, Laws.shift_zero, Laws.shift_minor, Laws.shift_amount, if_true]
    induction k using bitVec2_cases
    all_goals exact .ok rfl rfl
  · simp only [decodeShi, h]
    exact .error

theorem decodeFence_reads {i : BitVec 11} : Reads (decodeFence e d a i) (encI e 0x25 d a i) := by
  refine .zero fun hd => .zero fun ha => ?_
  subst hd ha
  by_cases h : i.extractLsb' 3 5 = 0
  · obtain ⟨k, s, rfl⟩ : ∃ k s : BitVec 3, i = k ++ (0 : BitVec 5) ++ s := ⟨_, _, eq_append_zero_append h⟩
    simp only [Laws.fence_zero, Laws.fence_kind, Laws.fence_scope, if_true]
    induction k using bitVec3_cases
    case m0 | m1 | m2 =>
      show Reads (if s = 0 then _ else _) _
      split
      next hs => subst hs; exact .ok rfl rfl
      next => exact .error
    case m3 | m4 | m5 => exact .guard rfl rfl
    all_goals exact .error
  · simp only [h]
    exact .error

theorem decodeLoop_reads {o : BitVec 11} : Reads (decodeLoop e d a o) (encI e 0x19 d a o) := by
  unfold decodeLoop
  split
  next h =>
    have hd : d = (0 : BitVec 6) ++ BitVec.ofBool (d.getLsbD 0) := by
      rw [ofBool_getLsbD]; exact eq_zero_append (n := 6) (m := 1) h
    refine .guard rfl ?_
    show some (encI e 0x19 ((0 : BitVec 6) ++ BitVec.ofBool (d.getLsbD 0)) a o) = some (encI e 0x19 d a o)
    rw [← hd]
  next => exact .error

theorem decodeMmul_reads : Reads (decodeMmul e d a b f) (encR e 0x39 d a b f) := by
  cases h : d.getLsbD 3
  · have h0 : d.extractLsb' 3 1 = 0 := by rw [← ofBool_getLsbD, h]; rfl
    obtain ⟨c, s, rfl⟩ : ∃ c s : BitVec 3, d = c ++ (0 : BitVec 1) ++ s := ⟨_, _, eq_append_zero_append h0⟩
    simp only [decodeMmul, Laws.tiles_high, Laws.tiles_low, Laws.tiles_zero]
    induction f using bitVec4_cases
    case m0 | m1 | m2 | m3 | m4 => exact .ok rfl rfl
    all_goals exact .error
  · simp only [decodeMmul, h, if_true]
    induction f using bitVec4_cases
    all_goals exact .error

/-! A word is the word of its own fields, in each format (R33, R34). -/

variable {w : Code} {k : BitVec 6} (hk : w.major.toNat = k.toNat)
include hk

theorem encR_of_major : encR w.e k w.d w.a w.b w.f = w := by
  rw [← BitVec.eq_of_toNat_eq hk]
  simp only [encR, Code.e, Code.major, Code.d, Code.a, Code.b, Code.f, ofBool_getLsbD, BitVec.extractLsb'_append_extractLsb'_eq_extractLsb']
  exact BitVec.extractLsb'_eq_self
theorem encV_of_major : encV w.e k w.d w.a w.b w.m w.f3 = w := by
  rw [← BitVec.eq_of_toNat_eq hk]
  simp only [encV, Code.e, Code.major, Code.d, Code.a, Code.b, Code.m, Code.f3, ofBool_getLsbD, BitVec.extractLsb'_append_extractLsb'_eq_extractLsb']
  exact BitVec.extractLsb'_eq_self
theorem encI_of_major : encI w.e k w.d w.a w.imm11 = w := by
  rw [← BitVec.eq_of_toNat_eq hk]
  simp only [encI, Code.e, Code.major, Code.d, Code.a, Code.imm11, ofBool_getLsbD, BitVec.extractLsb'_append_extractLsb'_eq_extractLsb']
  exact BitVec.extractLsb'_eq_self
theorem encW_of_major : encW w.e k w.d w.imm18 = w := by
  rw [← BitVec.eq_of_toNat_eq hk]
  simp only [encW, Code.e, Code.major, Code.d, Code.imm18, ofBool_getLsbD, BitVec.extractLsb'_append_extractLsb'_eq_extractLsb']
  exact BitVec.extractLsb'_eq_self
theorem encM_of_major : encM w.e k w.d w.a w.width w.off8 = w := by
  rw [← BitVec.eq_of_toNat_eq hk]
  simp only [encM, Code.e, Code.major, Code.d, Code.a, Code.width, Code.off8, ofBool_getLsbD, BitVec.extractLsb'_append_extractLsb'_eq_extractLsb']
  exact BitVec.extractLsb'_eq_self
theorem encJ_of_major : encJ w.e k w.off25 = w := by
  rw [← BitVec.eq_of_toNat_eq hk]
  simp only [encJ, Code.e, Code.major, Code.off25, ofBool_getLsbD, BitVec.extractLsb'_append_extractLsb'_eq_extractLsb']
  exact BitVec.extractLsb'_eq_self
theorem encL_of_major : encL w.e k (w.getLsbD 24) (w.extractLsb' 12 12) (w.extractLsb' 0 12) = w := by
  rw [← BitVec.eq_of_toNat_eq hk]
  simp only [encL, Code.e, Code.major, ofBool_getLsbD, BitVec.extractLsb'_append_extractLsb'_eq_extractLsb']
  exact BitVec.extractLsb'_eq_self

omit hk

theorem leWord_bytes (w : Code) : leWord (w.extractLsb' 0 8) (w.extractLsb' 8 8) (w.extractLsb' 16 8) (w.extractLsb' 24 8) = w := by
  simp only [leWord, BitVec.extractLsb'_append_extractLsb'_eq_extractLsb']
  exact BitVec.extractLsb'_eq_self

theorem Reads.of_eq {r : Except IllegalWord Instr} {w w' : Code} (hw : w' = w) (h : Reads r w') : Reads r w := hw ▸ h

/-- Every word that decodes is the word of the instruction that it decodes to, by its major (R37). -/
theorem decodeWord_reads (w : Code) : Reads (decodeWord w) w := by
  unfold decodeWord
  split
  next => exact .error
  next h => exact .of_eq (encR_of_major (k := 0x01) h) decodeAlu_reads
  next h => exact .of_eq (encR_of_major (k := 0x02) h) decodeAlu2_reads
  next h => exact .of_eq (encI_of_major (k := 0x03) h) (.ok rfl rfl)
  next h => exact .of_eq (encI_of_major (k := 0x04) h) (.ok rfl rfl)
  next h => exact .of_eq (encI_of_major (k := 0x05) h) (.ok rfl rfl)
  next h => exact .of_eq (encI_of_major (k := 0x06) h) (.ok rfl rfl)
  next h => exact .of_eq (encI_of_major (k := 0x07) h) decodeShi_reads
  next h => exact .of_eq (encI_of_major (k := 0x08) h) (.ok rfl rfl)
  next h => exact .of_eq (encI_of_major (k := 0x09) h) (.ok rfl rfl)
  next h => exact .of_eq (encW_of_major (k := 0x0A) h) (.ok rfl rfl)
  next h => exact .of_eq (encW_of_major (k := 0x0B) h) (.ok rfl rfl)
  next h => exact .of_eq (encW_of_major (k := 0x0C) h) (.ok rfl rfl)
  next h => exact .of_eq (encM_of_major (k := 0x0D) h) (.guard rfl rfl)
  next h => exact .of_eq (encM_of_major (k := 0x0E) h) (.guard rfl rfl)
  next h => exact .of_eq (encR_of_major (k := 0x0F) h) decodeXmem_reads
  next h => exact .of_eq (encI_of_major (k := 0x10) h) (.ok rfl rfl)
  next h => exact .of_eq (encI_of_major (k := 0x11) h) (.ok rfl rfl)
  next h => exact .of_eq (encI_of_major (k := 0x12) h) (.ok rfl rfl)
  next h => exact .of_eq (encI_of_major (k := 0x13) h) (.ok rfl rfl)
  next h => exact .of_eq (encI_of_major (k := 0x14) h) (.ok rfl rfl)
  next h => exact .of_eq (encI_of_major (k := 0x15) h) (.ok rfl rfl)
  next h => exact .of_eq (encJ_of_major (k := 0x16) h) (.ok rfl rfl)
  next h => exact .of_eq (encJ_of_major (k := 0x17) h) (.ok rfl rfl)
  next h => exact .of_eq (encR_of_major (k := 0x18) h) decodeJreg_reads
  next h => exact .of_eq (encI_of_major (k := 0x19) h) decodeLoop_reads
  next h => exact .of_eq (encL_of_major (k := 0x1A) h) (.guard rfl rfl)
  next h => exact .of_eq (encI_of_major (k := 0x1B) h) (.zero fun ha => by rw [ha]; exact .guard rfl rfl)
  next h => exact .of_eq (encI_of_major (k := 0x1C) h) (.zero fun hd => by rw [hd]; exact .guard rfl rfl)
  next h => exact .of_eq (encI_of_major (k := 0x1D) h) (.zero fun hd => .zero fun ha => by rw [hd, ha]; exact .guard rfl rfl)
  next h => exact .of_eq (encR_of_major (k := 0x1E) h) decodeSys_reads
  next h => exact .of_eq (encR_of_major (k := 0x1F) h) decodeAlu3_reads
  next h => exact .of_eq (encR_of_major (k := 0x20) h) decodeAmoRlx_reads
  next h => exact .of_eq (encR_of_major (k := 0x21) h) decodeAmoAcq_reads
  next h => exact .of_eq (encR_of_major (k := 0x22) h) decodeAmoRel_reads
  next h => exact .of_eq (encR_of_major (k := 0x23) h) decodeAmoAr_reads
  next h => exact .of_eq (encR_of_major (k := 0x24) h) decodeOrdmem_reads
  next h => exact .of_eq (encI_of_major (k := 0x25) h) decodeFence_reads
  next h => exact .of_eq (encR_of_major (k := 0x26) h) decodeVcfg_reads
  next h => exact .of_eq (encV_of_major (k := 0x27) h) decodeVint_reads
  next h => exact .of_eq (encV_of_major (k := 0x28) h) decodeVintx_reads
  next h => exact .of_eq (encV_of_major (k := 0x29) h) decodeVint2_reads
  next h => exact .of_eq (encV_of_major (k := 0x2A) h) decodeVint3_reads
  next h => exact .of_eq (encV_of_major (k := 0x2B) h) decodeVflt_reads
  next h => exact .of_eq (encV_of_major (k := 0x2C) h) decodeVfltx_reads
  next h => exact .of_eq (encV_of_major (k := 0x2D) h) decodeVfun_reads
  next h => exact .of_eq (encV_of_major (k := 0x2E) h) decodeVcmp_reads
  next h => exact .of_eq (encV_of_major (k := 0x2F) h) decodeVcmpx_reads
  next h => exact .of_eq (encV_of_major (k := 0x30) h) decodeVmask_reads
  next h => exact .of_eq (encV_of_major (k := 0x31) h) decodeVcvt_reads
  next h => exact .of_eq (encV_of_major (k := 0x32) h) decodeVred_reads
  next h => exact .of_eq (encV_of_major (k := 0x33) h) decodeVperm_reads
  next h => exact .of_eq (encV_of_major (k := 0x34) h) decodeVmem_reads
  next h => exact .of_eq (encV_of_major (k := 0x35) h) decodeVxit_reads
  next h => exact .of_eq (encI_of_major (k := 0x36) h) decodeXbr_reads
  next h => exact .of_eq (encV_of_major (k := 0x37) h) decodeVseq_reads
  next h => exact .of_eq (encR_of_major (k := 0x38) h) decodeMtx_reads
  next h => exact .of_eq (encR_of_major (k := 0x39) h) decodeMmul_reads
  next h => exact .of_eq (encR_of_major (k := 0x3A) h) decodeStrm_reads
  next h => exact .of_eq (encR_of_major (k := 0x3B) h) decodeClus_reads
  next h => exact .of_eq (encR_of_major (k := 0x3C) h) decodeGram_reads
  next h => exact .of_eq (encR_of_major (k := 0x3D) h) decodePubl_reads
  next h => exact .of_eq (encR_of_major (k := 0x3E) h) decodeCtx_reads
  next =>
    have hk : w.major.toNat = 0x3F := by have := w.major.isLt; simp only [imp_false] at *; omega
    exact .of_eq (encR_of_major (k := 0x3F) hk) decodeColl_reads

open Laws.RoundTrip in
/-- The word of every well-formed instruction decodes to it: the laws of the instructions, one for each constructor. -/
theorem roundTrip (i : Instr) : Laws.RoundTrip.Statement i :=
  i.rec
    add sub and or xor andn orn sll srl sra rol ror slt sltn min max minn maxn mul mulh mulhn div divn rem remn addv subv mulv clz ctz popc bswap
    sext8 sext16 sext32 zext8 zext16 zext32 addi andi ori xori slti sltni slli srli srai roli lim lihi addpc ld st ldx stx beq bne blt bge bltn bgen
    jmp call jr callr ret loop loopi mfs mts winb nop trap rft wait yield brkpt halt amoswapRlx amoaddRlx amoandRlx amoorRlx amoxorRlx amomaxRlx
    amominRlx amocasRlx amoswapAcq amoaddAcq amoandAcq amoorAcq amoxorAcq amomaxAcq amominAcq amocasAcq amoswapRel amoaddRel amoandRel amoorRel
    amoxorRel amomaxRel amominRel amocasRel amoswapAr amoaddAr amoandAr amoorAr amoxorAr amomaxAr amominAr amocasAr ldacq32 ldacq64 strel32 strel64
    watch waitw fenceSv fenceVs fenceVv fenceMem fenceSc fenceEng vconf vsetl vgrant vadd vsub vmul vand vor vxor vmin vmax vaddX vsubX vmulX vandX
    vorX vxorX vminX vmaxX vsll vsrl vsra vmulh vdiv vrem vaddsat vsubsat vminn vmaxn vmulhn vdivn vremn vabs vmerge vmv vfadd vfsub vfmul vfdiv
    vfmin vfmax vfma vfnms vfaddX vfsubX vfmulX vfdivX vfminX vfmaxX vfmaX vfnmsX vfsqrt vfabs vfneg vfrcp vfclass vfscale vfexp2 vflog2 vcmpEq
    vcmpNe vcmpLt vcmpGe vcmpLtn vcmpGen vcmpFlt vcmpFle vcmpEqX vcmpNeX vcmpLtX vcmpGeX vcmpLtnX vcmpGenX vcmpFltX vcmpFleX mand mor mxor mandn
    mnot mfirst mpop mset cvtF cvtFi cvtIf cvtIi vrin vrout vradd vrmul vsum vfsumo vfsumt vrmax vrmin vrand vror vfrmax vslup vsldn vcomp vexpd
    viota vbcast vextr vrgath vld vlds vst vsts vgth vscto vsctu vxarm vxit vxclr vxlen vxwait vxfx bxany bxnone vseq vrot vrang vgq vgqpop seqfork
    seqmap tconf tshape tzero tld tst mrowin mrowout mcolin mcolout tsave trst tdirty tcvt mrwO mrwF mrsO mrsF mrwi sxw sxr sxgo sxgom sxabt sxstat
    barr barw bara tron troff samp coord grbind grstep grmaskM grmaskV grforce grsave grload grreset objnew tagst tagld pub pubw objprb tagclr
    objfree ctxnew ctxgrant ctxrevoke ctxrun ctxinfo trapup launch lwait lprio colr colg cols colb colw cola trapEntry exitTestResolve stripResolve
    pageRequestAnswer pageRequestGroupResponse pendingPageEntryFree launchAccept crewBind preemptionComplete priorityAging homeBiasMove hintTimeout
    hartRetire launchCompletion barrierPhaseComplete waitwWake waitwTimeout waitEnd lwaitTimeout colwTimeout fenceScTick copyStrip copyCompletion
    mirrorAck matrixOpPerform queuedGatherPerform sampleRecordWrite traceFullStop traceDumpComplete collectiveChunk readyFlitReceive
    collectiveComplete abortFlitReceive lossFlitReceive linkDownTimeout linkTrain flitCrcReplay laneFailure channelFailure coreFailure
    clusterFailure hostPortTrain hostRetrainTimeout hostAccess atsInvalidate attestationRequest functionLevelReset powerGrantStep securityAlarm
    alarmRegisterWrite deviceReset recoveryImageWrite scanFreeze scanThaw scanRead scanWrite deviceRegisterWrite accessPerformed provisioningImage

end Sys2Proof.Encoding

open Sys2Proof Sys2Proof.Encoding in
/-- Settles O56: an instruction is read back from its word by the laws of its constructor, and the word of what a word decodes to is
that word by the decoder of its major. -/
theorem encodeDecodeRoundTrip : Obligations.EncodeDecodeRoundTrip := by
  refine ⟨fun i w rest hwf hw => ?_, fun w i h => decodeWord_reads w i h⟩
  have hi : decodeWord w = .ok i := roundTrip i hwf w hw
  simp only [encodeBytes, hw, List.cons_append, List.nil_append, decode, leWord_bytes, hi]

open Sys2Proof Sys2Proof.Laws in
/-- Settles O55: each of the words is the word of its instruction, so it decodes by the law of the instruction; 0 has major 0. -/
theorem decodedWords : Obligations.DecodedWords :=
  ⟨RoundTrip.sub true 9 9 3 rfl _ rfl, RoundTrip.addi false 5 6 0x7FF rfl _ rfl, RoundTrip.ld false 3 1 6 0 rfl _ rfl,
    RoundTrip.beq true 13 0 3 rfl _ rfl, RoundTrip.ret true rfl _ rfl, RoundTrip.nop true rfl _ rfl,
    RoundTrip.vadd true 1 2 3 true rfl _ rfl, RoundTrip.vld true 4 5 false rfl _ rfl, rfl⟩
end

section
/-!
Loop end processing and the way a member leaves its hart (R44, R105). With O14.
-/
namespace Sys2Proof.Machine

theorem getLsbD_setBit (w : Word) (i : Nat) (b : Bool) (j : Nat) (hi : i < 64) :
    (setBit w i b).getLsbD j = if j = i then b else w.getLsbD j := by
  have hone : (1#64 <<< i).getLsbD j = decide (j = i) := by
    rw [BitVec.getLsbD_shiftLeft, BitVec.getLsbD_one]
    grind
  cases b
  · simp only [setBit, Bool.false_eq_true, if_false, BitVec.getLsbD_and, BitVec.getLsbD_not, hone]
    grind
  · simp only [setBit, if_true, BitVec.getLsbD_or, hone]
    grind

namespace Regs

variable (r : Regs) (j k : Level)

@[simp] theorem la_setLa (b : Bool) : (r.setLa k b).la j = if j = k then b else r.la j := by
  cases j <;> cases k <;> exact (getLsbD_setBit _ _ _ _ (by decide)).trans rfl
@[simp] theorem la_setLc (v : Word) : (r.setLc k v).la j = r.la j := by cases k <;> rfl
@[simp] theorem lc_setLa (b : Bool) : (r.setLa k b).lc j = r.lc j := by cases k <;> rfl
@[simp] theorem lc_setLc (v : Word) : (r.setLc k v).lc j = if j = k then v else r.lc j := by cases j <;> cases k <;> rfl
@[simp] theorem le_setLa (b : Bool) : (r.setLa k b).le j = r.le j := by cases k <;> rfl
@[simp] theorem le_setLc (v : Word) : (r.setLc k v).le j = r.le j := by cases k <;> rfl
@[simp] theorem ls_setLa (b : Bool) : (r.setLa k b).ls j = r.ls j := by cases k <;> rfl
@[simp] theorem ls_setLc (v : Word) : (r.setLc k v).ls j = r.ls j := by cases k <;> rfl

theorem le_false : r.le false = r.le0 := rfl
theorem le_true : r.le true = r.le1 := rfl

/-- An active level ends at an address (R42). -/
def EndsAt (a : Word) : Prop := r.la k = true ∧ r.le k = a

variable {r k}

/-- A level whose count is not 1 goes round again (R105). -/
theorem endLevel_of_ne (h : r.lc k ≠ 1) : r.endLevel k = (r.setLc k (r.lc k - 1), some (r.ls k)) := by
  have hc : r.lc k - 1 ≠ 0 := sub_ne_zero.mpr h
  simp only [endLevel, bne_iff_ne, hc, ne_eq, not_false_eq_true, if_true, ls_setLc]

/-- A level whose count is 1 becomes inactive (R105). -/
theorem endLevel_of_one (h : r.lc k = 1) : r.endLevel k = ((r.setLc k 0).setLa k false, none) := by
  simp [endLevel, h]

variable {a : Word}

theorem loopEnd_of_none (h0 : ¬ r.EndsAt false a) (h1 : ¬ r.EndsAt true a) : r.loopEnd a = (r, a + 4) := by
  simp only [EndsAt, le] at h0 h1
  simp [loopEnd, h0, h1]

theorem loopEnd_of_loops (h : r.EndsAt k a) (h1 : k = false → ¬ r.EndsAt true a) (hc : r.lc k ≠ 1) :
    r.loopEnd a = (r.setLc k (r.lc k - 1), r.ls k) := by
  cases k
  case false =>
    have h1 := h1 rfl
    simp only [EndsAt, le] at h h1
    simp [loopEnd, h, h1, endLevel_of_ne hc]
  case true =>
    simp only [EndsAt, le] at h
    simp [loopEnd, h, endLevel_of_ne hc]

theorem loopEnd_of_ends (h : r.EndsAt k a) (h1 : ¬ r.EndsAt (!k) a) (hc : r.lc k = 1) :
    r.loopEnd a = ((r.setLc k 0).setLa k false, a + 4) := by
  cases k
  case false =>
    simp only [EndsAt, Bool.not_false] at h h1
    simp [loopEnd, ← le_false, ← le_true, h, h1, endLevel_of_one hc]
  case true =>
    simp only [EndsAt, Bool.not_true] at h h1
    simp [loopEnd, ← le_false, ← le_true, h, h1, endLevel_of_one hc]

/-- Where both levels end, level 1 does so first; when it ends for good, level 0 is next (R105). -/
theorem loopEnd_of_both (h0 : r.EndsAt false a) (h1 : r.EndsAt true a) (hc1 : r.lc true = 1) (hc0 : r.lc false ≠ 1) :
    r.loopEnd a = (((r.setLc true 0).setLa true false).setLc false (r.lc false - 1), r.ls false) := by
  have hc0' : ((r.setLc true 0).setLa true false).lc false ≠ 1 := by simpa using hc0
  simp only [EndsAt] at h0 h1
  simp only [loopEnd, ← le_false, ← le_true, h0, h1, endLevel_of_one hc1, endLevel_of_ne hc0', beq_self_eq_true, Bool.and_self, if_true,
    la_setLa, la_setLc, le_setLa, le_setLc]
  simp

end Regs

/-- The end of a convoy leaves the hart where end processing puts it, between convoys (R44, R105). -/
theorem State.retire_true (s : State) : (s.retire true).hart.convoy = [] ∧
    (s.retire true).hart.pc = (s.hart.regs.loopEnd s.hart.pc).2 ∧ (s.retire true).hart.regs = (s.hart.regs.loopEnd s.hart.pc).1 :=
  ⟨rfl, rfl, rfl⟩

/-- Inside its convoy a member leaves the hart at the next one (R44). -/
theorem State.retire_false (s : State) : (s.retire false).hart.pc = s.hart.pc + 4 ∧
    (s.retire false).hart.convoy = s.hart.convoy.tail ∧ (s.retire false).hart.regs = s.hart.regs :=
  ⟨rfl, rfl, rfl⟩

end Sys2Proof.Machine

open Sys2Proof.Machine in
/-- Settles O14, by what end processing gives in each case of the levels that end at the convoy's last member. -/
theorem convoyEndLoops : Obligations.ConvoyEndLoops := by
  intro s r p at'
  obtain ⟨hconvoy, hpc, hregs⟩ := s.retire_true
  refine ⟨s.retire_false, hconvoy, ?_, ?_, ?_, ?_⟩
  · intro h0 h1
    rw [hpc, hregs, Regs.loopEnd_of_none h0 h1]
    exact ⟨rfl, rfl⟩
  · intro k h h1 hc
    rw [hpc, hregs, Regs.loopEnd_of_loops h h1 hc]
    simp [h.1, r]
  · intro k h h1 hc
    rw [hpc, hregs, Regs.loopEnd_of_ends h h1 hc]
    simp [r, p]
  · intro h0 h1 hc1 hc0
    rw [hpc, hregs, Regs.loopEnd_of_both h0 h1 hc1 hc0]
    simp [r]
end

section
/-!
A step and the member that it runs (R32, R40, R44, R46, R96). With O60.
-/
namespace Sys2Proof.Machine

variable {s u : State} {i : Instr}

/-- A member for which no token is awaited runs whole where no pre-emption stops it. -/
theorem runMember_of_whole {t : State} (ht : s.tokenStall i = false) (hc : ((s.prepare i).cutFor i).hart.cut = none)
    (h : exec i (s.prepare i) = .next t) : runMember i s = .next (t.follow (s.prepare i).hart i) := by
  simp [runMember, ht, hc, h]

/-- A member that a pre-emption stops part-way, and that goes on there without a trap, is executed up to there (R138). -/
theorem runMember_of_cut {t : State} (ht : s.tokenStall i = false) (hc : ((s.prepare i).cutFor i).hart.cut ≠ none)
    (h : exec i ((s.prepare i).cutFor i) = .next t) (hw : t.wentOn (s.prepare i).hart = true) :
    runMember i s = .next (t.follow (s.prepare i).hart i) := by
  simp [runMember, ht, hc, h, hw]

theorem toNat_append_eq_add {n m : Nat} (x : BitVec n) (y : BitVec m) : (x ++ y).toNat = x.toNat * 2 ^ m + y.toNat := by
  rw [BitVec.toNat_append, ← Nat.shiftLeft_add_eq_or_of_lt y.isLt, Nat.shiftLeft_eq]

/-- The bytes of a word as a number (R32). -/
theorem ofNat_bytesToNat (b0 b1 b2 b3 : Byte) : BitVec.ofNat 32 (bytesToNat [b0, b1, b2, b3]) = leWord b0 b1 b2 b3 := by
  have h : (leWord b0 b1 b2 b3).toNat = bytesToNat [b0, b1, b2, b3] := by
    show (b3 ++ b2 ++ b1 ++ b0).toNat = _
    simp only [toNat_append_eq_add, bytesToNat]
    omega
  rw [← h, BitVec.ofNat_toNat, BitVec.setWidth_eq]

theorem leWord_e (b0 b1 b2 b3 : Byte) : (leWord b0 b1 b2 b3).e = b3.getLsbD 7 := by
  show (b3 ++ b2 ++ b1 ++ b0).getLsbD 31 = _
  simp only [BitVec.getLsbD_append]
  rfl

/-- A word that decodes alone decodes to the instruction that its bytes do (R32). -/
theorem decodeWord_of_decode {b0 b1 b2 b3 : Byte} (h : decode [b0, b1, b2, b3] = .ok (i, [])) : decodeWord (leWord b0 b1 b2 b3) = .ok i := by
  cases hd : decodeWord (leWord b0 b1 b2 b3) with
  | error why => simp [decode, hd] at h
  | ok j => simpa [decode, hd] using h

/-- A fetch of a word that no overwritten word stands in for reads memory's bytes (R32, R39). -/
theorem fetchWord_of_access {a : Word} {r : Reached} (ha : a.toNat % 4 = 0) (h : s.access a 4 .fetch = (u, .ok r)) (ho : u.oldCode r.place = []) :
    s.fetchWord a = (u, .ok (BitVec.ofNat 32 (bytesToNat (u.peekList r.place 4)))) := by
  simp [State.fetchWord, ha, h, State.codeAt, ho]

/-- The convoy of a word that ends it is that word (R40). -/
theorem fetchConvoy_of_e {a : Word} {n : Nat} {w : Code} (h : s.fetchWord a = (u, .ok w)) (he : w.e = true) :
    s.fetchConvoy (n + 1) a = (u, .ok [w]) := by
  simp [State.fetchConvoy, h, he]

/-- The checks of R46 on a convoy of one member. -/
theorem checkConvoy_of_one {head : Word} {w : Code} (hd : decodeWord w = .ok i) (hl : illegalConvoy s.hart.regs head [i] = none)
    (hs : needsSupervisor i = true → s.hart.regs.tstat.getLsbD 0 = true) (hv : ∀ x ∈ vFields i, x.toNat < s.hart.regs.vnreg) :
    s.checkConvoy head [w] = .ok [i] := by
  have hs' : (!s.hart.regs.supervisor && needsSupervisor i) = false := by
    cases h : needsSupervisor i
    · simp
    · simp only [Regs.supervisor, hs h]; rfl
  have hv' : ((vFields i).any fun v => decide (v.toNat ≥ s.hart.regs.vnreg)) = false := by simpa using hv
  simp [State.checkConvoy, decodeAll, hd, hl, hs', hv']

/-- The hart with the convoy of the one member `i` formed at its program counter (R40). -/
def State.withConvoy (s : State) (head : Word) (i : Instr) : State :=
  { s with hart := { s.hart with
    convoy := [i], head := head, member := 0, convoyAt := s.pkg.cycle, priorAt := s.hart.convoyAt, headAstat := s.hart.regs.astat, headSphw := BitVec.ofNat 64 s.sphw } }

/-- A hart at a convoy boundary forms the convoy of the one member that the bytes at its program counter are (R40, R46). -/
theorem formConvoy_of_one {r : Reached} {b0 b1 b2 b3 : Byte} (ha : s.hart.pc.toNat % 4 = 0) (h : s.access s.hart.pc 4 .fetch = (u, .ok r))
    (ho : u.oldCode r.place = []) (hb : u.peekList r.place 4 = [b0, b1, b2, b3]) (hd : decode [b0, b1, b2, b3] = .ok (i, []))
    (he : b3.getLsbD 7 = true) (hl : illegalConvoy u.hart.regs s.hart.pc [i] = none)
    (hs : needsSupervisor i = true → u.hart.regs.tstat.getLsbD 0 = true) (hv : ∀ x ∈ vFields i, x.toNat < u.hart.regs.vnreg) :
    s.formConvoy = (u.withConvoy s.hart.pc i, true) := by
  have hw := fetchWord_of_access ha h ho
  rw [hb, ofNat_bytesToNat] at hw
  have hc := fetchConvoy_of_e (n := 7) hw ((leWord_e ..).trans he)
  have hk := checkConvoy_of_one (s := u) (decodeWord_of_decode hd) hl hs hv
  simp only [State.formConvoy, hc, hk]
  rfl

/-- A hart that is ready at a member runs it (R44). -/
theorem stepReady_of_member {rest : List Instr} (hh : s.heldByWait = false) (hc : s.hart.convoy = i :: rest) : stepReady s = runMember i s := by
  simp [stepReady, hh, hc]

/-- A hart that is ready at a convoy boundary runs the first member of the convoy that it forms (R40, R44). -/
theorem stepReady_of_formed {rest : List Instr} (hh : s.heldByWait = false) (hc : s.hart.convoy = []) (hb : s.hart.breaks = false)
    (hf : s.formConvoy = (u, true)) (hu : u.hart.convoy = i :: rest) : stepReady s = runMember i u := by
  simp [stepReady, hh, hc, hb, hf, hu]

/-- With no event due, the hart that is picked moves; one that is ready, none of whose accesses waits, goes on with its convoy. -/
theorem step_of_pick {p : State} (he : s.events = []) (hp : s.pick = some p) (hr : p.passTime.dropLost.hart.run = .ready)
    (hs : p.passTime.dropLost.storesStuck = false) : step s = stepReady p.passTime.dropLost := by
  simp [step, he, hp, stepHart, hs, hr]

/-- An event of the outside world is executed by itself. -/
theorem step_of_event {rest : List Instr} (he : s.events = i :: rest) (hn : encode i = none) :
    step s = exec i { s with events := rest }.passTime := by
  simp [step, he, hn]

end Sys2Proof.Machine

open Sys2Proof Sys2Proof.Machine in
/-- Settles O60: the hart that is picked comes to its member, or to the one whose bytes it fetches, and runs it, whole or up to a stop. -/
theorem stepRunsDecoded : Obligations.StepRunsDecoded := by
  intro s
  refine ⟨?_, fun i rest => step_of_event⟩
  intro p he hp v Runs hr hs hh
  have hstep : step s = stepReady v := step_of_pick he hp hr hs
  refine ⟨?_, ?_⟩
  · intro i rest hc ht
    rw [hstep, stepReady_of_member hh hc]
    exact ⟨fun t => runMember_of_whole ht, fun t => runMember_of_cut ht⟩
  · intro u r b0 b1 b2 b3 i hc hb ha hacc ho hbytes hd h7 hl hsup hv ht
    have hf := formConvoy_of_one ha hacc ho hbytes hd h7 hl hsup hv
    rw [hstep, stepReady_of_formed hh hc hb hf rfl]
    exact ⟨fun t => runMember_of_whole ht, fun t => runMember_of_cut ht⟩
end

section
/-!
What checks, stores and late loads leave of an exit region: its state, and that no load is performed late (R176, R184, R196). With O31.
-/
namespace Sys2Proof.Machine

/-- The hart's exit region is as it was, and no vector load of it has become late. -/
structure KeepsExit (s t : State) : Prop where
  region : t.hart.region = s.hart.region
  late : s.hart.late = [] → t.hart.late = []

namespace KeepsExit

variable {s t u : State}

theorem refl (s : State) : KeepsExit s s := ⟨rfl, id⟩

theorem trans (h : KeepsExit s t) (k : KeepsExit t u) : KeepsExit s u := ⟨k.region.trans h.region, k.late ∘ h.late⟩

theorem of_hart (h : t.hart = s.hart) : KeepsExit s t := ⟨by rw [h], by rw [h]; exact id⟩

theorem modHart {f : Hart → Hart} (hr : (f s.hart).region = s.hart.region) (hl : (f s.hart).late = s.hart.late) : KeepsExit s (s.modHart f) :=
  ⟨hr, hl.trans⟩

theorem foldl {β : Type} {f : State → β → State} (hf : ∀ s x, KeepsExit s (f s x)) (l : List β) (s : State) : KeepsExit s (l.foldl f s) := by
  induction l generalizing s with
  | nil => exact refl s
  | cons x l ih => exact (hf s x).trans (ih _)

end KeepsExit

variable (s : State)

/-! ## Stores performed -/

theorem deviceWrite_hart (off : Nat) (v : Word) : (s.deviceWrite off v).hart = s.hart := by
  unfold State.deviceWrite
  split
  · split <;> rfl
  · repeat' split
    all_goals rfl

theorem keepsExit_wakeLines (p : Place) (n : Nat) : KeepsExit s (s.wakeLines p n) := by
  unfold State.wakeLines
  constructor
  · rw [State.mapHarts_hart]; split
    · split <;> rfl
    · rfl
  · rw [State.mapHarts_hart]; split
    · split <;> exact id
    · exact id

theorem keepsExit_poke (p : Place) (data : List Byte) (tag : Bool) (owner : Nat) : KeepsExit s (s.poke p data tag owner) := by
  unfold State.poke
  extract_lets n t
  split
  · exact .refl s
  · refine .trans (.of_hart ?_) (keepsExit_wakeLines t p n)
    cases p with
    | phys a =>
      change (if inScan a then _ else _ : State).hart = _
      split
      · exact deviceWrite_hart ..
      · rfl
    | pad t o => rfl

theorem keepsExit_setMemBit (owner a bit : Nat) : KeepsExit s (s.setMemBit owner a bit) := by
  unfold State.setMemBit
  refine .trans ?_ (keepsExit_wakeLines ..)
  exact .of_hart rfl

theorem keepsExit_setDirty (owner : Nat) (dirty : List (Nat × Nat)) : KeepsExit s (s.setDirty owner dirty) := by
  unfold State.setDirty
  refine KeepsExit.foldl (fun s d => ?_) dirty s
  exact keepsExit_setMemBit s owner d.1 d.2

theorem keepOld_hart (w : Nat) (p : Place) (data : List Byte) : (s.keepOld w p data).hart = s.hart := by
  unfold State.keepOld; split <;> rfl

theorem forgetBy_hart (id : Nat) (sel : Old → Bool) : (s.forgetBy id sel).hart = s.hart := rfl

theorem stampStore_hart (w : Nat) (p : Place) : (s.stampStore w p).hart = s.hart := by
  unfold State.stampStore
  split
  · split <;> rfl
  · rfl

theorem keepsExit_performOne (w : Nat) (q : Pending) : KeepsExit s (s.performOne w q) := by
  unfold State.performOne
  split
  · exact .refl s
  · refine .trans (keepsExit_setDirty s q.owner q.dirty) (.trans (.of_hart ?_) (keepsExit_poke ..))
    rw [stampStore_hart, keepOld_hart, forgetBy_hart]

theorem keepsExit_performAfter (fuel : Nat) (x : Nat × Pending) : KeepsExit s (State.performAfter fuel s x) := by
  induction fuel generalizing s x with
  | zero => exact keepsExit_performOne ..
  | succ n ih =>
    unfold State.performAfter
    split
    · exact keepsExit_performOne ..
    · refine .trans (.trans ?_ (.foldl ih _ _)) (keepsExit_performOne ..)
      exact ⟨rfl, id⟩

theorem keepsExit_perform (q : Pending) : KeepsExit s (s.perform q) := keepsExit_performAfter ..

theorem keepsExit_drain (sel : Pending → Bool) : KeepsExit s (s.drain sel) := by
  unfold State.drain
  refine .trans ?_ (.foldl keepsExit_perform _ _)
  exact .modHart rfl rfl

theorem keepsExit_issueStore (q : Pending) : KeepsExit s (s.issueStore q) := by
  unfold State.issueStore
  split
  · exact ⟨rfl, id⟩
  · refine .trans (.trans ?_ (keepsExit_drain ..)) (keepsExit_perform ..)
    exact .of_hart rfl

/-! ## Plain loads, and stores to MX pages -/

theorem renewed_hart (p : Place) : (s.renewed p).hart = s.hart := by
  have kept (f : Hart → State → State) (hf : ∀ h s, (f h s).hart = s.hart) (l : List Hart) :
      ∀ s : State, (l.foldl (fun s h => f h s) s).hart = s.hart := by
    induction l with
    | nil => exact fun _ => rfl
    | cons h l ih => exact fun s => (ih _).trans (hf h s)
  unfold State.renewed
  split
  · split
    · rfl
    · exact kept (fun h s => s.forgetBy h.id _) (fun _ _ => rfl) _ _
  · rfl

theorem readUnit_hart (sel : Pending → Bool) (p : Place) (n : Nat) : (s.readUnit sel p n).1.hart = s.hart := by
  unfold State.readUnit
  split
  · exact renewed_hart ..
  · simp only
    split
    · exact renewed_hart ..
    · rfl

theorem readList_hart (sel : Pending → Bool) (p : Place) (n : Nat) : (s.readList sel p n).1.hart = s.hart := by
  unfold State.readList
  suffices ∀ (us : List (Nat × Nat)) (r : State × List Byte),
      (us.foldl (fun r u => ((r.1.readUnit sel (p.add u.1) u.2).1, r.2 ++ (r.1.readUnit sel (p.add u.1) u.2).2)) r).1.hart = r.1.hart from
    this _ (s, [])
  intro us
  induction us with
  | nil => exact fun _ => rfl
  | cons u us ih => exact fun r => (ih _).trans (readUnit_hart ..)

theorem readPlaces_hart (ps : List Place) : (s.readPlaces ps).1.hart = s.hart := by
  induction ps generalizing s with
  | nil => rfl
  | cons p ps ih => exact (ih _).trans (readList_hart ..)

theorem loadBits_hart (minor fmt : Nat) (vt : BitVec 7) (seed : Word) (loc : Nat) (high : Bool) (p : Place) (scale : Option Place) :
    (s.loadBits minor fmt vt seed loc high p scale).1.hart = s.hart := by
  unfold State.loadBits
  split
  rename_i s' bs he
  have hs : s'.hart = s.hart := by rw [← readList_hart s, he]
  split
  · exact (readList_hart ..).trans hs
  · exact hs

theorem keepsExit_loadLate (l : LateLoad) (x : LateElem) : KeepsExit s (State.loadLate l s x) := by
  unfold State.loadLate
  exact .trans (.of_hart (loadBits_hart ..)) (.modHart rfl rfl)

theorem keepsExit_performLate : KeepsExit s s.performLate := by
  unfold State.performLate
  split
  · exact .refl s
  · refine .trans ?_ (.foldl (fun s l => .foldl (fun s x => keepsExit_loadLate s l x) l.elems s) _ _)
    exact ⟨rfl, fun _ => rfl⟩

theorem keepsExit_mxStoreBlock (x : MxElem) (stored : List MxElem) : KeepsExit s (s.mxStoreBlock x stored) := by
  unfold State.mxStoreBlock
  extract_lets base offs t
  split
  rename_i u scale hu
  split
  rename_i v bytes hv
  have ht : KeepsExit s t := keepsExit_drain ..
  have hu : KeepsExit t u := .of_hart (by rw [← readPlaces_hart t, hu])
  have hv : KeepsExit u v := .of_hart (by rw [← readPlaces_hart u, hv])
  refine .trans (.trans (.trans (ht.trans (hu.trans hv)) ?_) (.foldl (fun s _ => keepsExit_perform s _) _ _)) (keepsExit_perform ..)
  exact KeepsExit.foldl (fun s (y : MxElem) => keepsExit_setDirty s y.owner y.dirty) _ _

theorem keepsExit_mxStore (fuel : Nat) (xs : List MxElem) : KeepsExit s (s.mxStore fuel xs) := by
  induction fuel generalizing s xs with
  | zero => exact .refl s
  | succ n ih =>
    cases xs with
    | nil => exact .refl s
    | cons x rest => exact (keepsExit_mxStoreBlock s x _).trans (ih _ _)

theorem keepsExit_commitHeld (h : Held) : KeepsExit s (s.commitHeld h) := by
  unfold State.commitHeld
  exact .trans (.foldl (fun s _ => keepsExit_issueStore s _) _ _) (keepsExit_mxStore ..)

theorem chooseUnordered_hart (fuel : Nat) (gs : List Got) : (s.chooseUnordered fuel gs).1.hart = s.hart := by
  induction fuel generalizing s gs with
  | zero => rfl
  | succ n ih =>
    cases gs with
    | nil => rfl
    | cons g rest =>
      simp only [State.chooseUnordered]
      split
      · exact ih ..
      · exact (ih _ _).trans rfl

/-! ## Checks of an access -/

theorem keepsExit_setAccessed (owner : Nat) (ls : List Leaf) : KeepsExit s (s.setAccessed owner ls).1 := by
  induction ls generalizing s with
  | nil => exact .refl s
  | cons l rest ih =>
    unfold State.setAccessed
    split
    · exact ih s
    · extract_lets byte
      split
      · exact ih s
      · split
        · exact .refl s
        · exact (keepsExit_setMemBit ..).trans (ih _)

theorem holdCtx_hart (n : Nat) : (s.holdCtx n).hart = s.hart := rfl

/-- An attempt leads from `s` to states that keep the exit region, whether it fails or not; `at'` is the state in its result. -/
def Attempts {α : Type} (s : State) (at' : α → State) (r : Except State α) : Prop :=
  (∀ a, r = .ok a → KeepsExit s (at' a)) ∧ ∀ t, r = .error t → KeepsExit s t

namespace Attempts

variable {s} {α β : Type} {f : α → State} {g : β → State}

theorem ok {a : α} (h : KeepsExit s (f a)) : Attempts s f (.ok a) := ⟨by rintro _ ⟨⟩; exact h, by rintro _ ⟨⟩⟩

theorem error {t : State} (h : KeepsExit s t) : Attempts s f (.error t) := ⟨by rintro _ ⟨⟩, by rintro _ ⟨⟩; exact h⟩

theorem of_keeps {t : State} {r : Except State α} (h : KeepsExit s t) (hr : Attempts t f r) : Attempts s f r :=
  ⟨fun a e => h.trans (hr.1 a e), fun u e => h.trans (hr.2 u e)⟩

theorem bind {r : Except State α} {k : α → Except State β} (hr : Attempts s f r) (hk : ∀ a, Attempts (f a) g (k a)) : Attempts s g (r >>= k) := by
  cases r with
  | error t => exact error (hr.2 t rfl)
  | ok a => exact of_keeps (hr.1 a rfl) (hk a)

theorem map {r : Except State α} {k : α → β} (hr : Attempts s f r) (hk : ∀ a, KeepsExit (f a) (g (k a))) : Attempts s g (r.map k) := by
  cases r with
  | error t => exact error (hr.2 t rfl)
  | ok a => exact ok ((hr.1 a rfl).trans (hk a))

end Attempts

theorem attempts_ctxReach (c va : Nat) (write plain : Bool) : Attempts s (·.1) (s.ctxReach c va write plain) := by
  unfold State.ctxReach State.deviceReach
  split
  · exact .error (.refl s)
  · rename_i x _
    have key := keepsExit_setAccessed s c x.leaves
    split
    · rename_i t _ h; rw [h] at key; exact .error key
    · rename_i t h
      rw [h] at key
      split
      · exact .error key
      · split
        · exact .error key
        · exact .ok key

theorem attempts_ctxWord (c va : Nat) (plain : Bool) : Attempts s (·.1) (s.ctxWord c va plain) :=
  .map (f := (·.1)) (.map (f := (·.1)) (attempts_ctxReach ..) fun _ => .refl _) fun _ => .refl _

theorem attempts_ctxPut (c va v : Nat) (plain : Bool) : Attempts s id (s.ctxPut c va v plain) :=
  .map (f := (·.1)) (attempts_ctxReach ..) fun _ => keepsExit_perform ..

theorem attempts_ringPut (c : Ctx) (code addr src : Nat) : Attempts s id (s.ringPut c code addr src) := by
  unfold State.ringPut
  extract_lets base n rest
  refine .bind (attempts_ctxWord ..) fun x => .bind (attempts_ctxPut ..) fun t => .bind (attempts_ctxWord ..) fun y => ?_
  have hrest (u : State) : Attempts u id (rest u) := by
    refine .bind (attempts_ctxWord ..) fun z => ?_
    dsimp only
    split
    · exact .ok (.refl _)
    · refine .bind (attempts_ctxWord ..) fun p => .bind (attempts_ctxWord ..) fun c => ?_
      split
      · exact .bind (attempts_ctxPut ..) fun _ => .bind (attempts_ctxPut ..) fun _ => .bind (attempts_ctxPut ..) fun _ =>
          .bind (attempts_ctxPut ..) fun _ => attempts_ctxPut ..
      · exact .bind (attempts_ctxWord ..) fun _ => attempts_ctxPut ..
  dsimp only
  split
  · exact .bind (f := id) (.ok (.refl _)) hrest
  · exact .bind (attempts_ctxPut ..) hrest

theorem keepsExit_fileIn (fuel n code addr src : Nat) : KeepsExit s (s.fileIn fuel n code addr src) := by
  induction fuel generalizing s n code addr with
  | zero => exact .refl s
  | succ k ih =>
    unfold State.fileIn
    split
    · exact .refl s
    · rename_i c _
      split
      · exact .of_hart rfl
      · extract_lets fatal t
        have put := attempts_ringPut s c code addr src
        have ht : KeepsExit s t := by
          unfold t
          split
          · exact put.1 _ ‹_›
          · split
            · exact (put.2 _ ‹_›).trans (ih ..)
            · exact put.2 _ ‹_›
        split
        · split
          · exact ht.trans (.trans (.of_hart (holdCtx_hart t n)) (ih ..))
          · exact ht
        · exact ht

theorem keepsExit_fileEvent (n code addr src : Nat) : KeepsExit s (s.fileEvent n code addr src) := by
  unfold State.fileEvent
  split <;> exact keepsExit_fileIn ..

theorem keepsExit_reach (va : Word) (n : Nat) (u : Use) (want : Option Want) : KeepsExit s (s.reach va n u want).1 := by
  unfold State.reach
  split
  · repeat' split
    all_goals exact .refl s
  · split
    · exact .refl s
    · rename_i x _
      have key := keepsExit_setAccessed s s.hart.ctx x.leaves
      split
      all_goals rename_i h; rw [h] at key; exact key

theorem keepsExit_access (va : Word) (n : Nat) (u : Use) (want : Option Want) : KeepsExit s (s.access va n u want).1 := by
  unfold State.access
  extract_lets report
  have hreport (t : State) : KeepsExit t (report t) := keepsExit_fileEvent ..
  have key := keepsExit_reach s va n u want
  split
  all_goals rename_i h; rw [h] at key
  · dsimp only
    split
    · exact key.trans (hreport _)
    · exact key
  · exact key
  · split
    · exact key
    · split
      · exact key
      · split
        · split <;> exact key.trans (hreport _)
        · exact key

/-! ## The pass of a vector store -/

theorem keepsExit_checkMx (w : Sweep) (va : Word) (r : Except Stop Reached) : KeepsExit s (s.checkMx w va r).1 := by
  unfold State.checkMx
  split
  · exact .refl s
  · rename_i a _
    extract_lets scale
    have key : KeepsExit s (scale s).1 := keepsExit_access ..
    split
    · exact .refl s
    · split
      · exact .refl s
      · split
        all_goals rename_i h; rw [h] at key; exact key
    · split
      all_goals rename_i h; rw [h] at key; exact key

theorem keepsExit_reachElem (w : Sweep) (va : Word) : KeepsExit s (s.reachElem w va).1 := by
  unfold State.reachElem
  extract_lets n
  split
  · exact .refl s
  · split
    · exact .refl s
    · have key := keepsExit_access s va n (if w.store then .write else .read) (w.base.want w.vt)
      split
      rename_i t r h
      rw [h] at key
      split
      · exact key.trans (keepsExit_checkMx ..)
      · exact key

theorem keepsExit_checkElem (w : Sweep) (hw : w.store = true) (i : Nat) (va : Word) (high : Bool) : KeepsExit s (s.checkElem w i va high).1 := by
  unfold State.checkElem
  have key := keepsExit_reachElem s w va
  split
  · rename_i h; rw [h] at key; exact key
  · rename_i h
    rw [h] at key
    rw [if_pos hw]
    dsimp only
    split <;> exact key

theorem keepsExit_checkAll (w : Sweep) (hw : w.store = true) (elems : List (Nat × Except Trap (Word × Bool))) :
    KeepsExit s (s.checkAll w elems).1 := by
  induction elems generalizing s with
  | nil => exact .refl s
  | cons x rest ih =>
    obtain ⟨i, t | ⟨va, high⟩⟩ := x
    · exact ih s
    · exact (keepsExit_checkElem s w hw i va high).trans (ih _)

/-- Each element's check is listed under its index, in order. -/
theorem checkAll_indices (w : Sweep) (elems : List (Nat × Except Trap (Word × Bool))) :
    (s.checkAll w elems).2.map (·.1) = elems.map (·.1) := by
  induction elems generalizing s with
  | nil => rfl
  | cons x rest ih =>
    obtain ⟨i, t | ⟨va, high⟩⟩ := x
    · exact congrArg (i :: ·) (ih s)
    · exact congrArg (i :: ·) (ih _)

theorem keepsExit_baseOf (va : Word) : KeepsExit s (s.baseOf va).1 := by
  unfold State.baseOf
  split
  · exact .refl s
  · split
    · exact .refl s
    · rename_i x _
      have key := keepsExit_setAccessed s s.hart.ctx x.leaves
      split
      all_goals rename_i h; rw [h] at key; exact key

theorem keepsExit_caughtUp (w : Sweep) : KeepsExit s (Claims.caughtUp s w) := by
  unfold Claims.caughtUp
  split
  · exact keepsExit_performLate s
  · exact .refl s

end Sys2Proof.Machine
end

section
/-!
The poisoned-data trap of a vector store (R163, R167, R226). With O31.
-/
namespace Sys2Proof.Machine
open Sys2Proof.Claims

variable {s : State}

/-! ## A trap of a hart that waits for nothing older -/

theorem sure_of_settled (h : Settled s) : s.hart.sure = true := by
  obtain ⟨ht, hs, hp⟩ := h
  simp [Hart.sure, ht, hs, hp]

theorem performLate_of_none (h : s.hart.late = []) : s.performLate = s := by
  unfold State.performLate
  rw [h]

theorem unsettled_of_closed (h : s.hart.region.isOpen = false) : s.unsettled = false := by
  simp [State.unsettled, h]

theorem KeepsExit.quiet {t : State} (h : KeepsExit s t) (hq : Quiet s) : Quiet t := by
  obtain ⟨hs, hl⟩ := hq
  exact ⟨by rw [Settled, h.region]; exact hs, h.late hl⟩

theorem member_trap (hq : Quiet s) (e : Bool) (t : Trap) : member e (.trap t s) = .next (s.deliver t) := by
  obtain ⟨hs, hl⟩ := hq
  show Host.Outcome.next (s.takeTrap t e) = _
  rw [State.takeTrap, if_pos (sure_of_settled hs), performLate_of_none hl]

theorem stopAt_of_closed (hl : s.hart.late = []) (hc : s.hart.region.isOpen = false) (k j : Nat) (some : Bool) (t : Trap) (w : Withheld) :
    s.stopAt k j some t w = .trap t (s.modHart fun h => { h with elix := j }) := by
  simp [State.stopAt, performLate_of_none hl, unsettled_of_closed hc]

/-! ## The pass of a store -/

/-- The elements of a pass that fail, the first of them at `j`, in ascending order. -/
theorem fails_of_poisoned {rs : List (Nat × Except Stop Got)} {j : Nat} (ho : (rs.map (·.1)).Pairwise (· < ·)) (hf : FailsPoisoned rs j) :
    ∃ rest, rs.filterMap stopOf = (j, .trap poisonTrap) :: rest := by
  induction rs with
  | nil => obtain ⟨⟨r, hr, -⟩, -⟩ := hf; cases hr
  | cons r rs ih =>
    obtain ⟨⟨x, hx, hxj⟩, hall⟩ := hf
    rw [List.map_cons, List.pairwise_cons] at ho
    obtain ⟨hless, ho⟩ := ho
    obtain ⟨hok, hbad, -⟩ := hall r List.mem_cons_self
    rcases Nat.lt_trichotomy r.1 j with hlt | heq | hgt
    · obtain ⟨g, hg⟩ := hok hlt
      have hx' : x ∈ rs := (List.mem_cons.1 hx).resolve_left (by rintro rfl; omega)
      obtain ⟨rest, hrest⟩ := ih ho ⟨⟨x, hx', hxj⟩, fun y hy => hall y (List.mem_cons_of_mem _ hy)⟩
      exact ⟨rest, by simp [stopOf, hg, hrest]⟩
    · exact ⟨rs.filterMap stopOf, by simp [stopOf, hbad heq, heq, poisonTrap]⟩
    · rcases List.mem_cons.1 hx with rfl | hx
      · omega
      · have := hless x.1 (List.mem_map_of_mem hx)
        omega

/-- No failure of a pass waits or misses a translation. -/
theorem failure_of_poisoned {rs : List (Nat × Except Stop Got)} {j : Nat} (hf : FailsPoisoned rs j) :
    ∀ p ∈ rs.filterMap stopOf, p.2 ≠ .wait ∧ isMissing p.2 = false := by
  rintro ⟨i, p⟩ hp
  obtain ⟨⟨k, r⟩, hr, hs⟩ := List.mem_filterMap.1 hp
  cases r with
  | ok g => cases hs
  | error q =>
    cases hs
    obtain ⟨-, -, hq⟩ := hf.2 _ hr
    obtain ⟨hw, hm⟩ := hq p rfl
    refine ⟨hw, ?_⟩
    cases p with
    | wait => rfl
    | trap t => simpa [isMissing] using hm t rfl

theorem keepsExit_issues (v : VMove) (w : Sweep) (u : State) (gs : List Got) : KeepsExit u (v.issues w u gs) := by
  unfold VMove.issues
  extract_lets c
  refine .trans (.of_hart ?_) (keepsExit_commitHeld ..)
  unfold c
  split
  · exact chooseUnordered_hart ..
  · rfl

/-- The end of a store's pass, with nothing older undecided: its stores are issued. -/
theorem finishSweep_of_settled {w : Sweep} (v : VMove) (hw : w.store = true) (hm : w.minor = v.minor) (hs : Settled s) (gs : List Got)
    (k : State → Res) : s.finishSweep w gs k = k (v.issues w s gs) := by
  have hsure (t : State) (x : Held) (ht : t.hart = s.hart) : t.storeIssue x k = k (t.commitHeld x) := by
    rw [State.storeIssue, ht, if_pos (sure_of_settled hs)]
  rw [State.finishSweep, if_pos hw, VMove.issues, hm]
  split
  rename_i t gs' h
  rw [h]
  refine hsure t _ ?_
  split at h
  · rw [← chooseUnordered_hart s, h]
  · cases h; rfl

theorem sweep_of_poisoned {w : Sweep} (v : VMove) (lost : Nat → List (Nat × Option Nat)) {u : State} {rs : List (Nat × Except Stop Got)} {j : Nat}
    (hw : w.store = true) (hm : w.minor = v.minor) (ho : (w.elems.map (·.1)).Pairwise (· < ·)) (hc : s.hart.region.isOpen = false)
    (hr : (caughtUp s w).checkAll w w.elems = (u, rs)) (hf : FailsPoisoned rs j) (hq : Quiet u) :
    sweep w lost true s = .trap poisonTrap
      ((v.issues w u ((rs.filterMap gotOf).filter fun g => decide (g.index < j))).modHart fun h => { h with elix := j }) := by
  have hrs : rs.map (·.1) = w.elems.map (·.1) := by
    have := checkAll_indices (caughtUp s w) w w.elems
    rwa [hr] at this
  have hu : u.unsettled = false := by
    have keeps := (keepsExit_caughtUp s w).trans (keepsExit_checkAll _ w hw w.elems)
    rw [hr] at keeps
    exact unsettled_of_closed (keeps.region ▸ hc)
  obtain ⟨rest, hrest⟩ := fails_of_poisoned (hrs ▸ ho) hf
  have hfail := failure_of_poisoned hf
  have hwait : (rs.filterMap stopOf).find? (fun p => p.2 == .wait) = none :=
    List.find?_eq_none.2 fun p hp => by simpa using (hfail p hp).1
  have hmissed : (rs.filterMap stopOf).filter (fun p => isMissing p.2) = [] :=
    List.filter_eq_nil_iff.2 fun p hp => by simp [(hfail p hp).2]
  have hothers : (((rs.filterMap stopOf).filter fun p => !isMissing p.2).head?.map (·.1)).getD w.vl = j := by
    rw [hrest]; rfl
  have hcaught : (if s.behindLate w then s.performLate else s) = caughtUp s w := rfl
  have hfinish := finishSweep_of_settled v hw hm hq.1
  simp only [sweep, hcaught, hr, hwait, hu, hmissed, hothers, hfinish, Bool.and_false]
  rw [hrest]
  cases w.indexed <;> rfl

variable (s)

/-! ## Operands read at issue -/

/-- Reading the operands of a member changes what the hart keeps of them alone (R143). -/
theorem atIssue_state (x y : Word) : ∃ l, (s.atIssue x y).1 = s.modHart fun h => { h with issued := l } := by
  unfold State.atIssue
  dsimp only
  split
  · exact ⟨s.hart.issued, rfl⟩
  · exact ⟨_, rfl⟩

theorem keepsExit_atIssue (x y : Word) : KeepsExit s (s.atIssue x y).1 := by
  obtain ⟨l, hl⟩ := atIssue_state s x y
  rw [hl]; exact .modHart rfl rfl

theorem elements_atIssue (x y : Word) : (s.atIssue x y).1.hart.elements = s.hart.elements := by
  obtain ⟨l, hl⟩ := atIssue_state s x y
  rw [hl]; rfl

theorem active_atIssue (x y : Word) : (s.atIssue x y).1.hart.active = s.hart.active := by
  obtain ⟨l, hl⟩ := atIssue_state s x y
  rw [hl]; rfl

/-! ## Vector stores -/

theorem elements_ascending (h : Hart) : h.elements.Pairwise (· < ·) :=
  List.Pairwise.map (R := (· < ·)) _ (fun _ _ hab => Nat.add_lt_add_right hab _) List.pairwise_lt_range

theorem sweep_ascending (v : VMove) (x y : Word) (b : Base) : ((v.sweep s x y b).elems.map (·.1)).Pairwise (· < ·) := by
  have : (v.sweep s x y b).elems.map (·.1) = s.hart.elements.filter (s.hart.active v.m) := by
    simp [VMove.sweep, Function.comp_def]
  rw [this]
  exact (elements_ascending s.hart).filter _

variable {s}

/-- A vector store whose first failing element is poisoned in its register stops there. -/
theorem vectorAccess_of_poisoned (v : VMove) (hv : v.store = true) {off : Hart → Nat → Except Trap Int} {x y : Word} (hoff : off s.hart = v.off s.hart y)
    (hc : s.hart.region.isOpen = false) (hne : s.hart.elements.filter (s.hart.active v.m) ≠ []) {t u : State} {b : Base} {j : Nat}
    {rs : List (Nat × Except Stop Got)} (hb : s.baseOf x = (t, b))
    (hr : (caughtUp t (v.sweep s x y b)).checkAll (v.sweep s x y b) (v.sweep s x y b).elems = (u, rs)) (hf : FailsPoisoned rs j) (hq : Quiet u) :
    vectorAccess true v.indexed v.minor off v.d x v.m s = .trap poisonTrap
      ((v.issues (v.sweep s x y b) u ((rs.filterMap gotOf).filter fun g => decide (g.index < j))).modHart fun h => { h with elix := j }) := by
  have hct : t.hart.region.isOpen = false := by
    have keeps := keepsExit_baseOf s x
    rw [hb] at keeps
    rw [keeps.region]; exact hc
  have key := fun lost => sweep_of_poisoned (s := t) (w := v.sweep s x y b) v lost hv rfl (sweep_ascending s v x y b) hct hr hf hq
  have hempty : (s.hart.elements.filter (s.hart.active v.m)).isEmpty = false := by simpa using hne
  simp only [vectorAccess, hempty, hb, hoff, Bool.false_eq_true, if_false]
  unfold VMove.sweep at key ⊢
  rw [hv] at key ⊢
  exact key _

/-- The trap of the store is delivered from the state in which it stopped. -/
theorem member_store_poisoned (v : VMove) (w : Sweep) {u : State} (hq : Quiet u) (e : Bool) (gs : List Got) (j : Nat) :
    member e (.trap poisonTrap ((v.issues w u gs).modHart fun h => { h with elix := j })) =
      .next (((v.issues w u gs).modHart fun h => { h with elix := j }).deliver (.own 0x1A 0)) :=
  member_trap (((keepsExit_issues v w u gs).trans (.modHart rfl rfl)).quiet hq) e poisonTrap

/-- The check of an indexed access's registers passes where R161 is met. -/
theorem legal_indexed {i : Instr} {v : VMove} (hl : v.legal s i) (hi : v.indexed = true) (x y : Word) (c : Bool) :
    (decide ((s.atIssue x y).1.hart.regs.vl ≤ (s.atIssue x y).1.hart.rb / indexBytes (s.atIssue x y).1.hart.regs.vt) && (true || c)) = true := by
  obtain ⟨l, h⟩ := atIssue_state s x y
  rw [h, Bool.true_or, Bool.and_true, decide_eq_true_eq]
  exact (hl hi).1

/-- Every vector store reads both its scalar operands, the absent one as 0. -/
theorem store_operand (s : State) {i : Instr} {v : VMove} (hv : move i = some v) (hstore : v.store = true) :
    (if v.minor = 3 then s.g v.b else 0) = s.g v.b := by
  unfold move at hv
  split at hv
  case h_2 => cases hv; cases hstore
  all_goals cases hv <;> rfl

theorem store_poisoned (i : Instr) (v : VMove) (hv : move i = some v) (hstore : v.store = true) (hl : v.legal s i) (hc : s.hart.region.isOpen = false)
    (hne : s.hart.elements.filter (s.hart.active v.m) ≠ []) {t u : State} {b : Base} {j : Nat} {rs : List (Nat × Except Stop Got)}
    (hb : (s.atIssue (s.g v.a) (if v.minor = 3 then s.g v.b else 0)).1.baseOf (s.atIssue (s.g v.a) (s.g v.b)).2.1 = (t, b)) :
    let o := s.atIssue (s.g v.a) (s.g v.b)
    let w := v.sweep (s.atIssue (s.g v.a) (if v.minor = 3 then s.g v.b else 0)).1 o.2.1 o.2.2 b
    (caughtUp t w).checkAll w w.elems = (u, rs) → FailsPoisoned rs j → Quiet u →
      exec i s = .next (((v.issues w u ((rs.filterMap gotOf).filter fun g => decide (g.index < j))).modHart fun h => { h with elix := j }).deliver
        (.own 0x1A 0)) := by
  rw [store_operand s hv hstore] at hb ⊢
  intro o w hr hf hq
  have hco : o.1.hart.region.isOpen = false := by rw [(keepsExit_atIssue ..).region]; exact hc
  have hno : o.1.hart.elements.filter (o.1.hart.active v.m) ≠ [] := by rwa [elements_atIssue, active_atIssue]
  have stops := fun off hoff => vectorAccess_of_poisoned (s := o.1) (off := off) (x := o.2.1) (y := o.2.2) v hstore hoff hco hno hb hr hf hq
  have taken := fun e => member_store_poisoned v w hq e ((rs.filterMap gotOf).filter fun g => decide (g.index < j)) j
  unfold move at hv
  split at hv
  · cases hv; cases hstore
  · cases hv; cases hstore
  · cases hv
    exact (congrArg (member _) (stops _ rfl)).trans (taken _)
  · cases hv
    exact (congrArg (member _) (stops _ rfl)).trans (taken _)
  · cases hv; cases hstore
  · cases hv
    refine (congrArg (member _) ?_).trans (taken _)
    exact (if_pos (legal_indexed hl rfl ..)).trans (stops _ rfl)
  · cases hv
    refine (congrArg (member _) ?_).trans (taken _)
    exact (if_pos (legal_indexed hl rfl ..)).trans (stops _ rfl)
  · cases hv

end Sys2Proof.Machine
end

section
/-!
Elements of vector registers (R131, R132, R226): what a write of elements or mask bits leaves, and the numbers that elements hold. With O31.
-/
namespace Sys2Proof.Machine
open Sys2Proof.Claims

/-! ## Numbers as bytes -/

theorem bytesToNat_lt (bs : List Byte) : bytesToNat bs < 2 ^ (8 * bs.length) := by
  induction bs with
  | nil => simp [bytesToNat]
  | cons b bs ih =>
    rw [List.length_cons, Nat.mul_succ, Nat.add_comm, Nat.pow_add, bytesToNat]
    have := b.isLt
    omega

@[simp] theorem natToBytes_length (x n : Nat) : (natToBytes x n).length = n := by
  induction n generalizing x with
  | zero => rfl
  | succ n ih => simp [natToBytes, ih]

theorem bytesToNat_natToBytes (x n : Nat) : bytesToNat (natToBytes x n) = x % 2 ^ (8 * n) := by
  induction n generalizing x with
  | zero => simp [natToBytes, bytesToNat, Nat.mod_one]
  | succ n ih =>
    rw [natToBytes, bytesToNat, ih, BitVec.toNat_ofNat, Nat.mul_succ, Nat.add_comm (8 * n), Nat.pow_add]
    exact (Nat.mod_mul).symm

/-! ## Elements written -/

variable (h : Hart)

theorem elem_lt (v w i : Nat) : h.elem v w i < 2 ^ (8 * w) := by
  have := bytesToNat_lt (Sparse.getList zeroByte h.regs.vrf (v * h.rb + i * w) w)
  rwa [Sparse.getList_length] at this

theorem elem_setElem_same (v w i x : Nat) : (h.setElem v w i x).elem v w i = x % 2 ^ (8 * w) := by
  have := Sparse.getList_putList (dflt := zeroByte) (natToBytes x w) h.regs.vrf (v * h.rb + i * w)
  rw [natToBytes_length] at this
  rw [← bytesToNat_natToBytes, ← this]
  rfl

theorem get_vrf_setElem (v w i x k : Nat) (hk : k < v * h.rb + i * w ∨ v * h.rb + (i + 1) * w ≤ k) :
    Sparse.get zeroByte (h.setElem v w i x).regs.vrf k = Sparse.get zeroByte h.regs.vrf k := by
  rw [Hart.setElem_regs]
  simp only [Sparse.get_putList, natToBytes_length]
  rw [Nat.succ_mul] at hk
  exact dif_neg (by omega)

/-- Marks removed leave none where there was none. -/
theorem anyIn_clear_of_false {α : Type} {m : Sparse α} {lo hi : Nat} (hm : Sparse.anyIn m lo hi = false) (a b : Nat) :
    Sparse.anyIn (Sparse.clear m a b) lo hi = false := by
  rw [Sparse.anyIn, List.any_eq_false] at *
  exact fun x hx => hm x (List.mem_filter.1 hx).1

theorem anyIn_clear_same {α : Type} (m : Sparse α) (a b : Nat) : Sparse.anyIn (Sparse.clear m a b) a b = false := by
  rw [Sparse.anyIn, List.any_eq_false]
  intro x hx
  have := (List.mem_filter.1 hx).2
  simp only [Bool.or_eq_true, decide_eq_true_eq, Bool.and_eq_true] at *
  omega

/-- Reads agree where the bytes do. -/
theorem getList_congr {α : Type} {dflt : Nat → α} {m m' : Sparse α} (n k : Nat)
    (hk : ∀ i, k ≤ i → i < k + n → Sparse.get dflt m i = Sparse.get dflt m' i) : Sparse.getList dflt m k n = Sparse.getList dflt m' k n := by
  induction n generalizing k with
  | zero => rfl
  | succ n ih => rw [Sparse.getList, Sparse.getList, hk k (by omega) (by omega), ih (k + 1) fun i h1 h2 => hk i (by omega) (by omega)]

variable {h} (d w : Nat) (xs : List (Nat × Nat))

theorem putAll_cons (x : Nat × Nat) : h.putAll d w (x :: xs) = (h.setElem d w x.1 x.2).putAll d w xs := rfl

/-- Elements written change the bytes of the vector registers and their marks alone. -/
theorem putAll_regs : (h.putAll d w xs).regs = { h.regs with vrf := (h.putAll d w xs).regs.vrf, vpois := (h.putAll d w xs).regs.vpois } := by
  induction xs generalizing h with
  | nil => rfl
  | cons x xs ih => rw [putAll_cons, ih]; rfl

theorem putAll_hart : h.putAll d w xs = { h with regs := (h.putAll d w xs).regs } := by
  induction xs generalizing h with
  | nil => rfl
  | cons x xs ih => rw [putAll_cons, ih]; rfl

theorem putAll_rb : (h.putAll d w xs).rb = h.rb := by
  rw [putAll_hart, Hart.rb, putAll_regs]; rfl

variable {xs}

theorem get_vrf_putAll {k : Nat} (hk : ∀ x ∈ xs, k < d * h.rb + x.1 * w ∨ d * h.rb + (x.1 + 1) * w ≤ k) :
    Sparse.get zeroByte (h.putAll d w xs).regs.vrf k = Sparse.get zeroByte h.regs.vrf k := by
  induction xs generalizing h with
  | nil => rfl
  | cons x xs ih =>
    rw [putAll_cons, ih (h := h.setElem d w x.1 x.2) fun y hy => hk y (List.mem_cons_of_mem _ hy), get_vrf_setElem _ _ _ _ _ _ (hk x List.mem_cons_self)]

/-- Elements of one width take up bytes of their own. -/
theorem elem_apart {i j w k : Nat} (hij : i ≠ j) (h1 : i * w ≤ k) (h2 : k < (i + 1) * w) : k < j * w ∨ (j + 1) * w ≤ k := by
  rcases Nat.lt_or_gt_of_ne hij with hlt | hgt
  · exact .inl (Nat.lt_of_lt_of_le h2 (Nat.mul_le_mul_right w hlt))
  · exact .inr (Nat.le_trans (Nat.mul_le_mul_right w hgt) h1)

theorem elem_putAll (hn : (xs.map (·.1)).Nodup) {x : Nat × Nat} (hx : x ∈ xs) : (h.putAll d w xs).elem d w x.1 = x.2 % 2 ^ (8 * w) := by
  induction xs generalizing h with
  | nil => cases hx
  | cons y xs ih =>
    rw [List.map_cons, List.nodup_cons] at hn
    obtain ⟨hy, hn⟩ := hn
    rcases List.mem_cons.1 hx with rfl | hx
    · rw [← elem_setElem_same h, putAll_cons, Hart.elem, Hart.elem, putAll_rb]
      refine congrArg bytesToNat (getList_congr _ _ fun k h1 h2 => get_vrf_putAll d w fun z hz => ?_)
      have hz : x.1 ≠ z.1 := fun e => hy (e ▸ List.mem_map_of_mem hz)
      have := elem_apart hz (k := k - d * h.rb) (w := w) (by change d * h.rb + _ ≤ _ at h1; omega)
        (by change _ < d * h.rb + _ + _ at h2; change d * h.rb + _ ≤ _ at h1; rw [Nat.succ_mul]; omega)
      change d * h.rb + _ ≤ _ at h1
      change k < d * h.rb + _ ∨ d * h.rb + _ ≤ k
      omega
    · exact ih hn hx

theorem clean_putAll {x : Nat × Nat} (hx : x ∈ xs) :
    Sparse.anyIn (h.putAll d w xs).regs.vpois (d * h.rb + x.1 * w) (d * h.rb + (x.1 + 1) * w) = false := by
  have keeps (lo hi : Nat) (ys : List (Nat × Nat)) : ∀ t : Hart, Sparse.anyIn t.regs.vpois lo hi = false →
      Sparse.anyIn (t.putAll d w ys).regs.vpois lo hi = false := by
    induction ys with
    | nil => exact fun t ht => ht
    | cons y ys ih => exact fun t ht => ih _ (anyIn_clear_of_false ht ..)
  induction xs generalizing h with
  | nil => cases hx
  | cons y xs ih =>
    rcases List.mem_cons.1 hx with rfl | hx
    · refine keeps _ _ xs _ ?_
      rw [Nat.succ_mul, ← Nat.add_assoc]
      exact anyIn_clear_same ..
    · exact ih hx

/-- What `Written` asks of a state whose registers hold the elements of a rule below `c`. -/
theorem written_putAll {s u : State} {r : ElemRule} {c : Nat} (hrows : u.hart.rows = s.hart.rows)
    (hregs : u.hart.regs = (s.hart.putAll r.d.toNat r.w xs).regs) (hn : (xs.map (·.1)).Nodup)
    (hxs : ∀ k v, (k, v) ∈ xs ↔ k < c ∧ r.new k = some v) : Claims.Written s u r c := by
  have helem (k : Nat) : u.hart.elem r.d.toNat r.w k = (s.hart.putAll r.d.toNat r.w xs).elem r.d.toNat r.w k := by
    have hr : (s.hart.putAll r.d.toNat r.w xs).rows = s.hart.rows := by rw [putAll_hart]
    rw [Hart.elem, Hart.elem, Hart.rb, Hart.rb, hregs, hrows, hr]
  refine ⟨fun k v hk hv => ?_, fun k hk => ?_, fun k v hk hv => ?_, ?_⟩
  · rw [helem]
    exact elem_putAll _ _ hn ((hxs k v).2 ⟨hk, hv⟩)
  · rw [hregs]
    exact get_vrf_putAll _ _ fun x hx => hk x.1 x.2 ((hxs x.1 x.2).1 hx).1 ((hxs x.1 x.2).1 hx).2
  · rw [hregs]
    exact clean_putAll _ _ ((hxs k v).2 ⟨hk, hv⟩)
  · rw [hregs]
    exact putAll_regs ..

/-! ## Mask bits written -/

/-- Bits of a mask register written from pairs of an index and a value. -/
def Hart.putMask (h : Hart) (d : Nat) (xs : List (Nat × Bool)) : Hart := xs.foldl (fun t x => t.setMask d x.1 x.2) h

theorem putMask_regs (bs : List (Nat × Bool)) : (h.putMask d bs).regs = { h.regs with masks := (h.putMask d bs).regs.masks } := by
  induction bs generalizing h with
  | nil => rfl
  | cons x bs ih => exact (ih (h := h.setMask d x.1 x.2)).trans rfl

theorem get_masks_putMask {bs : List (Nat × Bool)} {k : Nat} (hk : ∀ x ∈ bs, k ≠ d * 65536 + x.1) :
    Sparse.get clearBit (h.putMask d bs).regs.masks k = Sparse.get clearBit h.regs.masks k := by
  induction bs generalizing h with
  | nil => rfl
  | cons x bs ih =>
    exact (ih (h := h.setMask d x.1 x.2) fun y hy => hk y (List.mem_cons_of_mem _ hy)).trans
      (Sparse.get_put_other _ _ (hk x List.mem_cons_self))

theorem mask_putMask {bs : List (Nat × Bool)} (hn : (bs.map (·.1)).Nodup) {x : Nat × Bool} (hx : x ∈ bs) :
    (h.putMask d bs).regs.mask d x.1 = x.2 := by
  induction bs generalizing h with
  | nil => cases hx
  | cons y bs ih =>
    rw [List.map_cons, List.nodup_cons] at hn
    obtain ⟨hy, hn⟩ := hn
    rcases List.mem_cons.1 hx with rfl | hx
    · refine (get_masks_putMask (h := h.setMask d x.1 x.2) d fun z hz => ?_).trans (Sparse.get_put_same ..)
      have hz : x.1 ≠ z.1 := fun e => hy (e ▸ List.mem_map_of_mem hz)
      omega
    · exact ih (h := h.setMask d y.1 y.2) hn hx

theorem writtenMask_putMask {s u : State} {r : MaskRule} {c : Nat} {bs : List (Nat × Bool)}
    (hregs : u.hart.regs = (s.hart.putMask r.d.toNat bs).regs) (hn : (bs.map (·.1)).Nodup)
    (hbs : ∀ k v, (k, v) ∈ bs ↔ k < c ∧ r.new k = some v) : WrittenMask s u r c := by
  refine ⟨fun k v hk hv => ?_, fun k hk => ?_, ?_⟩
  · rw [hregs]
    exact mask_putMask _ hn ((hbs k v).2 ⟨hk, hv⟩)
  · rw [hregs]
    exact get_masks_putMask _ fun x hx => hk x.1 x.2 ((hbs x.1 x.2).1 hx).1 ((hbs x.1 x.2).1 hx).2
  · rw [hregs]
    exact putMask_regs ..

end Sys2Proof.Machine
end

section
/-!
Members that go element by element and stop at a poisoned one (R136, R138, R226). With O31.
-/
namespace Sys2Proof.Machine
open Sys2Proof.Claims

/-! ## Elements in order -/

/-- The elements from ELIX up to one. -/
def Hart.upTo (h : Hart) (j : Nat) : List Nat := (List.range (j - h.elix)).map (· + h.elix)

variable {h : Hart} {m : Bool} {j : Nat}

theorem mem_upTo {k : Nat} : k ∈ h.upTo j ↔ h.elix ≤ k ∧ k < j := by
  simp only [Hart.upTo, List.mem_map, List.mem_range]
  exact ⟨by rintro ⟨a, ha, rfl⟩; omega, fun hk => ⟨k - h.elix, by omega, by omega⟩⟩

theorem upTo_nodup : (h.upTo j).Nodup := List.Nodup.map (fun _ _ => Nat.add_right_cancel) List.nodup_range

theorem active_lt (ha : h.active m j = true) : j < h.regs.vl := by
  simp only [Hart.active, Bool.and_eq_true, decide_eq_true_eq] at ha
  exact ha.1.1.1.1

/-- The elements of a member that no pre-emption stops: those up to one of them, that one, and the rest. -/
theorem elements_split (hcut : h.cut = none) (hle : h.elix ≤ j) (hlt : j < h.regs.vl) : ∃ rest, h.elements = h.upTo j ++ j :: rest := by
  have hn : h.regs.vl - h.elix = (j - h.elix) + ((h.regs.vl - j - 1) + 1) := by omega
  refine ⟨(List.range (h.regs.vl - j - 1)).map fun k => j - h.elix + (k + 1) + h.elix, ?_⟩
  simp only [Hart.elements, Hart.last, hcut, Hart.upTo]
  rw [hn, List.range_add, List.map_append, List.range_succ_eq_map]
  simp [Function.comp_def, Nat.sub_add_cancel hle]

/-! ## Consumed elements -/

theorem consumes_of_clean {src : List (Nat × Nat × Nat)} (hs : ∀ x ∈ src, h.elemPoison x.1 x.2.1 x.2.2 = false) (k : Element) : consumes h src k = k := by
  have : src.any (fun x => h.elemPoison x.1 x.2.1 x.2.2) = false := List.any_eq_false.2 fun x hx => by simp [hs x hx]
  rw [consumes, this]
  rfl

theorem consumes_of_poisoned {src : List (Nat × Nat × Nat)} (hs : ∃ x ∈ src, h.elemPoison x.1 x.2.1 x.2.2 = true) (k : Element) :
    consumes h src k = .error poisonTrap := if_pos (List.any_eq_true.2 hs)

/-- The pass stops at the first active element that traps; the active ones before it have taken effect. -/
theorem runElements_stop {act : Nat → Bool} {f : Nat → Element} {g : Nat → Hart → Hart} {pre post : List Nat} {t : Trap}
    (hok : ∀ k ∈ pre, act k = true → f k = .ok (g k)) (hj : act j = true) (hbad : f j = .error t) :
    runElements act f (pre ++ j :: post) h = ((pre.filter act).foldl (fun h k => g k h) h, some (j, t)) := by
  induction pre generalizing h with
  | nil => simp [runElements, hj, hbad]
  | cons k pre ih =>
    have ih := fun h => ih (h := h) fun i hi => hok i (List.mem_cons_of_mem _ hi)
    by_cases hk : act k = true
    · simp [runElements, hk, hok k List.mem_cons_self hk, ih]
    · simp [runElements, hk, ih]

/-! ## The trap at a poisoned element -/

variable {i : Instr} {s : State} {e : Bool} {l : List Issue} {f : Hart → Nat → Element}

/-- A member that goes element by element stops at `j` where the pass finds its first poisoned element. -/
theorem exec_stops (hq : Quiet s) (hc : s.hart.region.isOpen = false) (hcut : s.hart.cut = none) (g : Nat → Hart → Hart)
    (hexec : exec i s = member e (elementwise m f (s.modHart fun h => { h with issued := l })))
    (hle : s.hart.elix ≤ j) (hj : s.hart.active m j = true)
    (hok : ∀ k, s.hart.elix ≤ k → k < j → s.hart.active m k = true → f { s.hart with issued := l } k = .ok (g k))
    (hbad : f { s.hart with issued := l } j = .error poisonTrap)
    (hg : ∀ k t, g k t = { t with regs := (g k t).regs }) :
    exec i s = .next (({ s with hart := { s.hart with
      regs := (((s.hart.upTo j).filter (s.hart.active m)).foldl (fun t k => g k t) { s.hart with issued := l }).regs
      issued := l, elix := j } } : State).deliver (.own 0x1A 0)) := by
  have kept (ks : List Nat) (t : Hart) : ks.foldl (fun t k => g k t) t = { t with regs := (ks.foldl (fun t k => g k t) t).regs } := by
    induction ks generalizing t with
    | nil => rfl
    | cons k ks ih => rw [List.foldl_cons, ih, hg]
  obtain ⟨rest, hsplit⟩ := elements_split hcut hle (active_lt hj)
  have hrun := runElements_stop (h := { s.hart with issued := l }) (act := s.hart.active m) (f := f { s.hart with issued := l }) (g := g) (post := rest)
    (pre := s.hart.upTo j) (fun k hk => hok k (mem_upTo.1 hk).1 (mem_upTo.1 hk).2) hj hbad
  rw [kept, ← hsplit] at hrun
  rw [hexec, elementwise]
  change member e (match runElements (s.hart.active m) (f { s.hart with issued := l }) s.hart.elements { s.hart with issued := l } with
    | (h', none) => _
    | (h', some (i, t)) => _) = _
  rw [hrun]
  exact (congrArg (member e) (stopAt_of_closed (by exact hq.2) (by exact hc) ..)).trans (member_trap (by exact hq) e poisonTrap)

theorem putAll_issued (d w : Nat) (xs : List (Nat × Nat)) (l : List Issue) :
    (({ h with issued := l } : Hart).putAll d w xs).regs = (h.putAll d w xs).regs := by
  induction xs generalizing h with
  | nil => rfl
  | cons x xs ih => exact ih (h := h.setElem d w x.1 x.2)

theorem putMask_issued (d : Nat) (xs : List (Nat × Bool)) (l : List Issue) :
    (({ h with issued := l } : Hart).putMask d xs).regs = (h.putMask d xs).regs := by
  induction xs generalizing h with
  | nil => rfl
  | cons x xs ih => exact ih (h := h.setMask d x.1 x.2)

theorem poisonedAt_elements {r : ElemRule} {val : Nat → Nat} (hq : Quiet s) (hc : s.hart.region.isOpen = false) (hcut : s.hart.cut = none)
    (hexec : exec i s = member e (elementwise m f (s.modHart fun h => { h with issued := l })))
    (hp : FirstPoisoned s.hart m r.src j) (hnew : r.new = atActive s.hart m val)
    (hok : ∀ k, s.hart.elix ≤ k → k < j → s.hart.active m k = true →
      f { s.hart with issued := l } k = .ok fun t => t.setElem r.d.toNat r.w k (val k))
    (hbad : f { s.hart with issued := l } j = .error poisonTrap) : PoisonedAt i s j fun u => Claims.Written s u r j := by
  obtain ⟨hle, hj, -, -⟩ := hp
  refine ⟨_, exec_stops hq hc hcut _ hexec hle hj hok hbad fun _ _ => rfl, ?_, rfl⟩
  refine written_putAll (xs := ((s.hart.upTo j).filter (s.hart.active m)).map fun k => (k, val k)) rfl ?_ ?_ fun k v => ?_
  · rw [← putAll_issued, Hart.putAll, List.foldl_map]
  · rw [List.map_map]
    exact (List.map_id _).symm ▸ upTo_nodup.filter _
  · rw [hnew, atActive]
    simp only [List.mem_map, List.mem_filter, mem_upTo, Prod.mk.injEq]
    grind

theorem poisonedAt_bits {r : MaskRule} {val : Nat → Bool} (hq : Quiet s) (hc : s.hart.region.isOpen = false) (hcut : s.hart.cut = none)
    (hexec : exec i s = member e (elementwise m f (s.modHart fun h => { h with issued := l })))
    (hp : FirstPoisoned s.hart m r.src j) (hnew : r.new = atActive s.hart m val)
    (hok : ∀ k, s.hart.elix ≤ k → k < j → s.hart.active m k = true →
      f { s.hart with issued := l } k = .ok fun t => t.setMask r.d.toNat k (val k))
    (hbad : f { s.hart with issued := l } j = .error poisonTrap) : PoisonedAt i s j fun u => WrittenMask s u r j := by
  obtain ⟨hle, hj, -, -⟩ := hp
  refine ⟨_, exec_stops hq hc hcut _ hexec hle hj hok hbad fun _ _ => rfl, ?_, rfl⟩
  refine writtenMask_putMask (bs := ((s.hart.upTo j).filter (s.hart.active m)).map fun k => (k, val k)) ?_ ?_ fun k v => ?_
  · rw [← putMask_issued, Hart.putMask, List.foldl_map]
  · rw [List.map_map]
    exact (List.map_id _).symm ▸ upTo_nodup.filter _
  · rw [hnew, atActive]
    simp only [List.mem_map, List.mem_filter, mem_upTo, Prod.mk.injEq]
    grind

/-- The same where every element consumes what the rule says and then does one thing. -/
theorem poisonedAt_consumes {r : ElemRule} {val : Nat → Nat} (hq : Quiet s) (hc : s.hart.region.isOpen = false) (hcut : s.hart.cut = none)
    (hexec : exec i s = member e (elementwise m f (s.modHart fun h => { h with issued := l })))
    (hf : ∀ k, f { s.hart with issued := l } k = consumes s.hart (r.src k) (.ok fun t => t.setElem r.d.toNat r.w k (val k)))
    (hnew : r.new = atActive s.hart m val) (hp : FirstPoisoned s.hart m r.src j) : PoisonedAt i s j fun u => Claims.Written s u r j := by
  have ⟨_, _, hbad, hclean⟩ := hp
  exact poisonedAt_elements hq hc hcut hexec hp hnew
    (fun k h1 h2 h3 => (hf k).trans (consumes_of_clean (hclean k h1 h2 h3) _)) ((hf j).trans (consumes_of_poisoned hbad _))

theorem poisonedAt_consumes_bits {r : MaskRule} {val : Nat → Bool} (hq : Quiet s) (hc : s.hart.region.isOpen = false) (hcut : s.hart.cut = none)
    (hexec : exec i s = member e (elementwise m f (s.modHart fun h => { h with issued := l })))
    (hf : ∀ k, f { s.hart with issued := l } k = consumes s.hart (r.src k) (.ok fun t => t.setMask r.d.toNat k (val k)))
    (hnew : r.new = atActive s.hart m val) (hp : FirstPoisoned s.hart m r.src j) : PoisonedAt i s j fun u => WrittenMask s u r j := by
  have ⟨_, _, hbad, hclean⟩ := hp
  exact poisonedAt_bits hq hc hcut hexec hp hnew
    (fun k h1 h2 h3 => (hf k).trans (consumes_of_clean (hclean k h1 h2 h3) _)) ((hf j).trans (consumes_of_poisoned hbad _))

end Sys2Proof.Machine
end

section
/-!
The integer, float, compare and conversion members at a poisoned element (R143 to R153, R226). With O31.
-/
namespace Sys2Proof.Machine
open Sys2Proof.Claims

/-! ## Signed numbers -/

theorem toSigned_eq_signed : toSigned = signed := by
  funext n x
  simp only [toSigned, signed, BitVec.toInt_eq_toNat_cond, BitVec.toNat_ofNat, Int.ofNat_eq_natCast]
  norm_cast

theorem ofSigned_eq_cut : ofSigned = cut := by
  funext n x
  simp only [ofSigned, cut, BitVec.toNat_ofInt]
  norm_cast

theorem opSub_eq_cut {n y : Nat} (x : Nat) (hy : y < 2 ^ n) : opSub n x y = cut n (x - y) := by
  have h : ((x + 2 ^ n - y : Nat) : Int) = (x - y) + 2 ^ n := by
    rw [Nat.cast_sub (by omega)]; push_cast; ring
  have h' : ((x : Int) - y) % 2 ^ n = ((x + 2 ^ n - y) % 2 ^ n : Nat) := by
    rw [Int.natCast_mod, h]; push_cast; rw [Int.add_emod_right]
  rw [← ofSigned_eq_cut, opSub, ofSigned, h', Int.toNat_natCast]

theorem clamp_eq_saturate (n : Nat) (x : Int) : max (-(2 ^ (n - 1))) (min (2 ^ (n - 1) - 1) x) = saturate n x := by
  have : (0 : Int) < 2 ^ (n - 1) := by positivity
  rw [saturate]
  omega

theorem opMin_eq (n x y : Nat) : opMin n x y = if signed n x < signed n y then x else y := by
  simp only [opMin, toSigned_eq_signed]

theorem opMax_eq (n x y : Nat) : opMax n x y = if signed n x < signed n y then y else x := by
  simp only [opMax, toSigned_eq_signed]

theorem opSra_eq (n x y : Nat) : opSra n x y = cut n (signed n x / 2 ^ (y % n)) := by
  simp only [opSra, toSigned_eq_signed, ofSigned_eq_cut]

theorem opMulh_eq (n x y : Nat) : opMulh n x y = cut n (signed n x * signed n y / 2 ^ n) := by
  simp only [opMulh, toSigned_eq_signed, ofSigned_eq_cut]

theorem opDiv_eq (n x y : Nat) : opDiv n x y = if y = 0 then 2 ^ n - 1 else cut n ((signed n x).tdiv (signed n y)) := by
  simp only [opDiv, toSigned_eq_signed, ofSigned_eq_cut]

theorem opRem_eq (n x y : Nat) : opRem n x y = if y = 0 then x else cut n ((signed n x).tmod (signed n y)) := by
  simp only [opRem, toSigned_eq_signed, ofSigned_eq_cut]

theorem opAddSat_eq (n x y : Nat) : opAddSat n x y = cut n (saturate n (signed n x + signed n y)) := by
  simp only [opAddSat, toSigned_eq_signed, ofSigned_eq_cut, clamp_eq_saturate]

theorem opSubSat_eq (n x y : Nat) : opSubSat n x y = cut n (saturate n (signed n x - signed n y)) := by
  simp only [opSubSat, toSigned_eq_signed, ofSigned_eq_cut, clamp_eq_saturate]

theorem opAbs_eq (n x : Nat) : opAbs n x = cut n (signed n x).natAbs := by
  rw [opAbs, toSigned_eq_signed, ofSigned_eq_cut]
  rfl

/-! ## Float formats -/

theorem floatFamily_of_some {s : State} {f : Fmt} (hf : floatOf s.hart.regs.vt = some f) (w : Code) (k : Fmt → State → Res) :
    floatFamily w s k = k f s := by
  simp [floatFamily, illegalRegister, hf]

theorem floatOf_bits {vt : BitVec 7} {f : Fmt} (hf : floatOf vt = some f) : f.bits = 8 * vtBytes vt := by
  unfold floatOf at hf
  split at hf <;> rename_i hw <;> cases hf <;> rw [hw]
  · split <;> rfl
  · split <;> rfl
  · rfl

/-- RSEED as it stood at issue is the same after the operands are read (R115, R143). -/
theorem seed_atIssue (s : State) (x y : Word) : (s.atIssue x y).1.hart.seed = s.hart.seed := by
  unfold State.atIssue
  dsimp only
  split
  · rfl
  · rename_i hn
    rw [Hart.seed, Hart.seed, hn]
    unfold Hart.issuedHere
    split
    · simp
    · rfl

/-! ## Integer members -/

section
variable {i : Instr} {s : State} {j : Nat} {m' : Bool} {r : ElemRule} {e : Bool} {d a b : VReg} {y : GReg} {m : Bool}
variable (hq : Quiet s) (hc : s.hart.region.isOpen = false) (hcut : s.hart.cut = none)
include hq hc hcut

theorem vectorOp_poisoned {op claim : IntOp} (hv : vv s e d a b m claim = some (m', r)) (hexec : exec i s = vectorOp op e d a b m s)
    (hop : ∀ n x y, x < 2 ^ n → y < 2 ^ n → op n x y = claim n x y) (hp : FirstPoisoned s.hart m' r.src j) :
    PoisonedAt i s j fun u => Claims.Written s u r j := by
  cases hv
  exact poisonedAt_consumes (l := s.hart.issued) hq hc hcut hexec
    (fun k => congrArg (fun x => consumes s.hart _ (.ok fun t => t.setElem d.toNat _ k x)) (hop _ _ _ (elem_lt ..) (elem_lt ..))) rfl hp

theorem vectorOpX_poisoned {op claim : IntOp} (hv : vx s e d a y m claim = some (m', r)) (hexec : exec i s = vectorOpX op e d a y m s)
    (hop : ∀ n x y, x < 2 ^ n → y < 2 ^ n → op n x y = claim n x y) (hp : FirstPoisoned s.hart m' r.src j) :
    PoisonedAt i s j fun u => Claims.Written s u r j := by
  cases hv
  obtain ⟨l, hl⟩ := atIssue_state s (s.g y) 0
  simp only [vectorOpX, hl] at hexec
  refine poisonedAt_consumes (l := l) hq hc hcut hexec
    (fun k => congrArg (fun x => consumes s.hart _ (.ok fun t => t.setElem d.toNat _ k x)) (hop _ _ _ (elem_lt ..) ?_)) rfl hp
  exact Nat.mod_lt _ (Nat.two_pow_pos _)

theorem vectorUnary_poisoned {op claim : Nat → Nat → Nat} (hv : v1 s e d a m claim = some (m', r)) (hexec : exec i s = vectorUnary op e d a m s)
    (hop : op = claim) (hp : FirstPoisoned s.hart m' r.src j) : PoisonedAt i s j fun u => Claims.Written s u r j := by
  cases hv; cases hop
  exact poisonedAt_consumes (l := s.hart.issued) hq hc hcut hexec (fun _ => rfl) rfl hp

theorem integer_poisoned (hv : integerVector s i = some (m', r)) (hp : FirstPoisoned s.hart m' r.src j) :
    PoisonedAt i s j fun u => Claims.Written s u r j := by
  unfold integerVector at hv
  split at hv
  · exact vectorOp_poisoned hq hc hcut hv rfl (fun _ _ _ _ _ => rfl) hp
  · exact vectorOp_poisoned hq hc hcut hv rfl (fun _ _ _ _ h => opSub_eq_cut _ h) hp
  · exact vectorOp_poisoned hq hc hcut hv rfl (fun _ _ _ _ _ => rfl) hp
  · exact vectorOp_poisoned hq hc hcut hv rfl (fun _ _ _ _ _ => rfl) hp
  · exact vectorOp_poisoned hq hc hcut hv rfl (fun _ _ _ _ _ => rfl) hp
  · exact vectorOp_poisoned hq hc hcut hv rfl (fun _ _ _ _ _ => rfl) hp
  · exact vectorOp_poisoned hq hc hcut hv rfl (fun _ _ _ _ _ => opMin_eq ..) hp
  · exact vectorOp_poisoned hq hc hcut hv rfl (fun _ _ _ _ _ => opMax_eq ..) hp
  · exact vectorOpX_poisoned hq hc hcut hv rfl (fun _ _ _ _ _ => rfl) hp
  · exact vectorOpX_poisoned hq hc hcut hv rfl (fun _ _ _ _ h => opSub_eq_cut _ h) hp
  · exact vectorOpX_poisoned hq hc hcut hv rfl (fun _ _ _ _ _ => rfl) hp
  · exact vectorOpX_poisoned hq hc hcut hv rfl (fun _ _ _ _ _ => rfl) hp
  · exact vectorOpX_poisoned hq hc hcut hv rfl (fun _ _ _ _ _ => rfl) hp
  · exact vectorOpX_poisoned hq hc hcut hv rfl (fun _ _ _ _ _ => rfl) hp
  · exact vectorOpX_poisoned hq hc hcut hv rfl (fun _ _ _ _ _ => opMin_eq ..) hp
  · exact vectorOpX_poisoned hq hc hcut hv rfl (fun _ _ _ _ _ => opMax_eq ..) hp
  · exact vectorOp_poisoned hq hc hcut hv rfl (fun _ _ _ _ _ => rfl) hp
  · exact vectorOp_poisoned hq hc hcut hv rfl (fun _ _ _ _ _ => rfl) hp
  · exact vectorOp_poisoned hq hc hcut hv rfl (fun _ _ _ _ _ => opSra_eq ..) hp
  · exact vectorOp_poisoned hq hc hcut hv rfl (fun _ _ _ _ _ => opMulh_eq ..) hp
  · exact vectorOp_poisoned hq hc hcut hv rfl (fun _ _ _ _ _ => opDiv_eq ..) hp
  · exact vectorOp_poisoned hq hc hcut hv rfl (fun _ _ _ _ _ => opRem_eq ..) hp
  · exact vectorOp_poisoned hq hc hcut hv rfl (fun _ _ _ _ _ => opAddSat_eq ..) hp
  · exact vectorOp_poisoned hq hc hcut hv rfl (fun _ _ _ _ _ => opSubSat_eq ..) hp
  · exact vectorOp_poisoned hq hc hcut hv rfl (fun _ _ _ _ _ => rfl) hp
  · exact vectorOp_poisoned hq hc hcut hv rfl (fun _ _ _ _ _ => rfl) hp
  · exact vectorOp_poisoned hq hc hcut hv rfl (fun _ _ _ _ _ => rfl) hp
  · exact vectorOp_poisoned hq hc hcut hv rfl (fun _ _ _ _ _ => rfl) hp
  · exact vectorOp_poisoned hq hc hcut hv rfl (fun _ _ _ _ _ => rfl) hp
  · exact vectorUnary_poisoned hq hc hcut hv rfl (funext₂ opAbs_eq) hp
  · exact vectorUnary_poisoned hq hc hcut hv rfl rfl hp
  · cases hv
    exact poisonedAt_consumes (l := s.hart.issued) hq hc hcut rfl (fun _ => rfl) rfl hp
  · cases hv
    obtain ⟨-, -, ⟨x, hx, -⟩, -⟩ := hp
    cases hx
  · cases hv

/-! ## Float members -/

variable {f : Fmt}

theorem floatVV_poisoned {claim : Flop} {fused : Bool} {f3 : BitVec 3} (hf : floatOf s.hart.regs.vt = some f)
    (hv : fvv s f e d a b m fused claim = some (m', r)) (hexec : exec i s = floatVV claim fused f3 e d a b m s)
    (hp : FirstPoisoned s.hart m' r.src j) : PoisonedAt i s j fun u => Claims.Written s u r j := by
  cases hv
  rw [floatVV, floatFamily_of_some hf] at hexec
  exact poisonedAt_consumes (l := s.hart.issued) hq hc hcut hexec (fun _ => rfl) rfl hp

theorem floatVX_poisoned {claim : Flop} {fused : Bool} {f3 : BitVec 3} (hf : floatOf s.hart.regs.vt = some f)
    (hv : fvx s f e d a y m fused claim = some (m', r)) (hexec : exec i s = floatVX claim fused f3 e d a y m s)
    (hp : FirstPoisoned s.hart m' r.src j) : PoisonedAt i s j fun u => Claims.Written s u r j := by
  cases hv
  have hseed := seed_atIssue s (s.g y) 0
  obtain ⟨l, hl⟩ := atIssue_state s (s.g y) 0
  rw [hl] at hseed
  simp only [floatVX, hl, floatFamily_of_some (s := s.modHart fun h => { h with issued := l }) hf] at hexec
  refine poisonedAt_consumes (l := l) hq hc hcut hexec (fun k => ?_) rfl hp
  simp only [Hart.stochastic, chance]
  rw [← hseed]
  rfl

theorem floatUnary_poisoned {claim : Fmt → Nat → Nat → Nat → Nat} {f3 : BitVec 3} (hf : floatOf s.hart.regs.vt = some f)
    (hv : fv1 s f e d a m claim = some (m', r)) (hexec : exec i s = floatUnary claim f3 e d a m s)
    (hp : FirstPoisoned s.hart m' r.src j) : PoisonedAt i s j fun u => Claims.Written s u r j := by
  cases hv
  rw [floatUnary, floatFamily_of_some hf] at hexec
  exact poisonedAt_consumes (l := s.hart.issued) hq hc hcut hexec (fun _ => rfl) rfl hp

theorem float_poisoned (hf : floatOf s.hart.regs.vt = some f) (hv : floatVector s f i = some (m', r)) (hp : FirstPoisoned s.hart m' r.src j) :
    PoisonedAt i s j fun u => Claims.Written s u r j := by
  unfold floatVector at hv
  split at hv
  iterate 8 exact floatVV_poisoned hq hc hcut hf hv rfl hp
  iterate 8 exact floatVX_poisoned hq hc hcut hf hv rfl hp
  iterate 7 exact floatUnary_poisoned hq hc hcut hf hv rfl hp
  · cases hv
    rename_i e d a b
    have hexec : exec (.vfscale e d a b m') s = execVfscale e d a b m' s := rfl
    rw [execVfscale, floatFamily_of_some hf] at hexec
    have hsigned : toSigned (8 * vtBytes s.hart.regs.vt) = signed f.bits := by rw [floatOf_bits hf, toSigned_eq_signed]
    refine poisonedAt_consumes (l := s.hart.issued) hq hc hcut hexec (fun k => ?_) rfl hp
    change consumes s.hart [(a.toNat, vtBytes s.hart.regs.vt, k), (b.toNat, vtBytes s.hart.regs.vt, k)] (.ok fun t =>
      t.setElem d.toNat (vtBytes s.hart.regs.vt) k (f.encode (vtRound s.hart.regs.vt) (s.hart.stochastic k)
        (FVal.scale (toSigned (8 * vtBytes s.hart.regs.vt) (s.hart.elem b.toNat (vtBytes s.hart.regs.vt) k))
          (f.decode (s.hart.elem a.toNat (vtBytes s.hart.regs.vt) k))))) = _
    rw [hsigned]
    rfl
  · cases hv

end

/-! ## Conditions -/

theorem condNe_eq : condNe = fun _ x y => decide (x ≠ y) := by
  funext _ x y
  simp [condNe, bne, beq_eq_decide]

theorem condLt_eq : condLt = fun n x y => decide (signed n x < signed n y) := by
  funext n x y
  rw [condLt, toSigned_eq_signed]

theorem condGe_eq : condGe = fun n x y => decide (signed n y ≤ signed n x) := by
  funext n x y
  rw [condGe, toSigned_eq_signed]

/-- A mask instruction consumes no register element. -/
theorem bitwise_clean {s : State} {j : Nat} {m m' : Bool} {r : MaskRule} {e : Bool} {d a b : MReg} {f : Bool → Bool → Bool}
    (hv : bitwise s e d a b m f = some (m', r)) : ¬ FirstPoisoned s.hart m' r.src j := by
  cases hv
  rintro ⟨-, -, ⟨x, hx, -⟩, -⟩
  cases hx

section
variable {i : Instr} {s : State} {j : Nat} {m' : Bool} {r : MaskRule} {e : Bool} {d : MReg} {a b : VReg} {y : GReg} {m : Bool}
variable (hq : Quiet s) (hc : s.hart.region.isOpen = false) (hcut : s.hart.cut = none)
include hq hc hcut

/-! ## Compares -/

theorem compareInt_poisoned {c claim : Cond} (hv : cmp s e d a b m claim = some (m', r)) (hexec : exec i s = compareInt c e d a b m s)
    (hclaim : c = claim) (hp : FirstPoisoned s.hart m' r.src j) : PoisonedAt i s j fun u => WrittenMask s u r j := by
  cases hv; cases hclaim
  exact poisonedAt_consumes_bits (l := s.hart.issued) hq hc hcut hexec (fun _ => rfl) rfl hp

theorem compareIntX_poisoned {c claim : Cond} (hv : cmpx s e d a y m claim = some (m', r)) (hexec : exec i s = compareIntX c e d a y m s)
    (hclaim : c = claim) (hp : FirstPoisoned s.hart m' r.src j) : PoisonedAt i s j fun u => WrittenMask s u r j := by
  cases hv; cases hclaim
  obtain ⟨l, hl⟩ := atIssue_state s (s.g y) 0
  simp only [compareIntX, hl] at hexec
  exact poisonedAt_consumes_bits (l := l) hq hc hcut hexec (fun _ => rfl) rfl hp

theorem compares_poisoned (hv : maskVector s i = some (m', r)) (hp : FirstPoisoned s.hart m' r.src j) :
    PoisonedAt i s j fun u => WrittenMask s u r j := by
  unfold maskVector at hv
  split at hv
  · exact compareInt_poisoned hq hc hcut hv rfl rfl hp
  · exact compareInt_poisoned hq hc hcut hv rfl condNe_eq hp
  · exact compareInt_poisoned hq hc hcut hv rfl condLt_eq hp
  · exact compareInt_poisoned hq hc hcut hv rfl condGe_eq hp
  · exact compareInt_poisoned hq hc hcut hv rfl rfl hp
  · exact compareInt_poisoned hq hc hcut hv rfl rfl hp
  · exact compareIntX_poisoned hq hc hcut hv rfl rfl hp
  · exact compareIntX_poisoned hq hc hcut hv rfl condNe_eq hp
  · exact compareIntX_poisoned hq hc hcut hv rfl condLt_eq hp
  · exact compareIntX_poisoned hq hc hcut hv rfl condGe_eq hp
  · exact compareIntX_poisoned hq hc hcut hv rfl rfl hp
  · exact compareIntX_poisoned hq hc hcut hv rfl rfl hp
  iterate 6 exact absurd hp (bitwise_clean hv)
  · cases hv

variable {f : Fmt}

theorem compareFloat_poisoned {c : Fmt → Nat → Nat → Bool} {f3 : BitVec 3} (hf : floatOf s.hart.regs.vt = some f)
    (hv : cmp s e d a b m (fun _ => c f) = some (m', r)) (hexec : exec i s = compareFloat c f3 e d a b m s)
    (hp : FirstPoisoned s.hart m' r.src j) : PoisonedAt i s j fun u => WrittenMask s u r j := by
  cases hv
  rw [compareFloat, floatFamily_of_some hf] at hexec
  exact poisonedAt_consumes_bits (l := s.hart.issued) hq hc hcut hexec (fun _ => rfl) rfl hp

theorem compareFloatX_poisoned {c : Fmt → Nat → Nat → Bool} {f3 : BitVec 3} (hf : floatOf s.hart.regs.vt = some f)
    (hv : cmpx s e d a y m (fun _ => c f) = some (m', r)) (hexec : exec i s = compareFloatX c f3 e d a y m s)
    (hp : FirstPoisoned s.hart m' r.src j) : PoisonedAt i s j fun u => WrittenMask s u r j := by
  cases hv
  obtain ⟨l, hl⟩ := atIssue_state s (s.g y) 0
  simp only [compareFloatX, hl, floatFamily_of_some (s := s.modHart fun h => { h with issued := l }) hf] at hexec
  exact poisonedAt_consumes_bits (l := l) hq hc hcut hexec (fun _ => rfl) rfl hp

theorem floatCompares_poisoned (hf : floatOf s.hart.regs.vt = some f) (hv : floatMask s f i = some (m', r))
    (hp : FirstPoisoned s.hart m' r.src j) : PoisonedAt i s j fun u => WrittenMask s u r j := by
  unfold floatMask at hv
  split at hv
  · exact compareFloat_poisoned (c := flLt) hq hc hcut hf hv rfl hp
  · exact compareFloat_poisoned (c := flLe) hq hc hcut hf hv rfl hp
  · exact compareFloatX_poisoned (c := flLt) hq hc hcut hf hv rfl hp
  · exact compareFloatX_poisoned (c := flLe) hq hc hcut hf hv rfl hp
  · cases hv

end

/-! ## Members that run to completion -/

variable {i : Instr} {s : State} {j : Nat} {m : Bool}

/-- A member that runs to completion traps before effect where an active element consumes a poisoned one. -/
theorem toCompletion_poisoned (hc : s.hart.region.isOpen = false) (hcut : s.hart.cut = none) {src : Hart → Nat → List (Nat × Nat × Nat)}
    (hs : ¬ Clean s.hart m (src s.hart)) (f : Hart → (Nat → Bool) → Hart) : toCompletion m src f s = .trap poisonTrap s := by
  have hh : ({ s.hart with cut := none } : Hart) = s.hart := by rw [← hcut]
  have hsome : ((List.range s.hart.regs.vl).find? fun i =>
      s.hart.active m i && (src s.hart i).any fun x => s.hart.elemPoison x.1 x.2.1 x.2.2).isSome = true := by
    simp only [Clean, not_forall] at hs
    obtain ⟨k, hk, x, hx, hbad⟩ := hs
    refine List.find?_isSome.2 ⟨k, List.mem_range.2 (active_lt hk), ?_⟩
    rw [hk, Bool.true_and]
    exact List.any_eq_true.2 ⟨x, hx, by simpa using hbad⟩
  obtain ⟨k, hk⟩ := Option.isSome_iff_exists.1 hsome
  simp [toCompletion, hh, hk, unsettled_of_closed hc]

/-! ## Conversions -/

theorem exec_conversion {c : Conversion} (hi : conversion i = some c) :
    ∃ f3, exec i s = convertOp c.source c.target f3 c.e c.d c.a c.b c.m s := by
  unfold conversion at hi
  split at hi <;> cases hi <;> exact ⟨_, rfl⟩

theorem convertOp_legal {c : Conversion} {src dst : Kind} (hsrc : kindOf c.source s.hart.regs.vt = some src) (hdst : kindOf c.target c.b = some dst)
    (hl : c.legal s) : ((kindOf c.source s.hart.regs.vt).isSome && (kindOf c.target c.b).isSome &&
      decide (s.hart.regs.vl ≤ s.hart.rb / max (vtBytes s.hart.regs.vt) (vtBytes c.b)) && (vtBytes s.hart.regs.vt == vtBytes c.b || c.d != c.a)) = true := by
  obtain ⟨h1, h2⟩ := hl
  simpa [hsrc, hdst, h1] using h2

theorem conversion_poisoned (hq : Quiet s) (hc : s.hart.region.isOpen = false) (hcut : s.hart.cut = none) {c : Conversion} {src dst : Kind}
    (hi : conversion i = some c) (hsrc : kindOf c.source s.hart.regs.vt = some src) (hdst : kindOf c.target c.b = some dst) (hl : c.legal s) :
    (vtBytes s.hart.regs.vt = vtBytes c.b → FirstPoisoned s.hart c.m (c.rule s src dst).src j →
      PoisonedAt i s j fun u => Claims.Written s u (c.rule s src dst) j) ∧
    (vtBytes s.hart.regs.vt ≠ vtBytes c.b → ¬ Clean s.hart c.m (c.rule s src dst).src → exec i s = .next (s.deliver (.own 0x1A 0))) := by
  obtain ⟨f3, hexec⟩ := exec_conversion (s := s) hi
  rw [convertOp, illegalRegister, if_pos (convertOp_legal hsrc hdst hl)] at hexec
  simp only [hsrc, hdst] at hexec
  constructor
  · intro hw hp
    rw [if_pos hw] at hexec
    exact poisonedAt_consumes (l := s.hart.issued) hq hc hcut hexec (fun _ => rfl) rfl hp
  · intro hw hs
    rw [if_neg hw, toCompletion_poisoned hc hcut hs] at hexec
    exact hexec.trans (member_trap hq ..)

/-! ## Residue instructions -/

theorem exec_residue {r : Residue} (hi : residue i = some r) :
    ∃ f3, exec i s = residueOp r.f r.bad f3 r.e r.d r.a (r.b.getD 0) r.b.isSome r.m s := by
  unfold residue at hi
  rw [← toSigned_eq_signed, ← ofSigned_eq_cut] at hi
  split at hi <;> cases hi <;> exact ⟨_, rfl⟩

/-- The value that a residue instruction computes at an element, none for an invalid input. -/
def residueAt (r : Residue) (h : Hart) (k : Nat) : Option Nat := r.f (h.elem r.a.toNat 4 k) (h.elem ((r.b.map (·.toNat)).getD 0) 4 k)

theorem residue_poisoned (hq : Quiet s) (hc : s.hart.region.isOpen = false) (hcut : s.hart.cut = none) {r : Residue} (hi : residue i = some r)
    (hw : vtBytes s.hart.regs.vt = 4) :
    let src (k : Nat) := (r.a.toNat, 4, k) :: (r.b.map fun b => (b.toNat, 4, k)).toList
    FirstPoisoned s.hart r.m src j → (∀ k, s.hart.elix ≤ k → k < j → s.hart.active r.m k = true → (residueAt r s.hart k).isSome = true) →
      PoisonedAt i s j fun u => Claims.Written s u ⟨r.e, r.d, 4, src, atActive s.hart r.m fun k => (residueAt r s.hart k).getD 0⟩ j := by
  intro src hp hval
  obtain ⟨f3, hexec⟩ := exec_residue (s := s) hi
  have hsrc (k : Nat) : (r.a.toNat, 4, k) :: (if r.b.isSome then [((r.b.getD 0).toNat, 4, k)] else []) = src k := by
    unfold src
    cases r.b <;> rfl
  have hat (k : Nat) : r.f (s.hart.elem r.a.toNat 4 k) (s.hart.elem (r.b.getD 0).toNat 4 k) = residueAt r s.hart k := by
    rw [residueAt]
    cases r.b <;> rfl
  rw [residueOp, illegalRegister, if_pos (show (s.hart.width == 4) = true from beq_iff_eq.2 hw)] at hexec
  have ⟨_, _, hbad, hclean⟩ := hp
  refine poisonedAt_elements (l := s.hart.issued) hq hc hcut hexec hp rfl (fun k h1 h2 h3 => ?_) ?_
  · obtain ⟨v, hv⟩ := Option.isSome_iff_exists.1 (hval k h1 h2 h3)
    refine (consumes_of_clean (h := s.hart) (hsrc k ▸ hclean k h1 h2 h3) _).trans ?_
    simp only [hat, hv]
    rfl
  · exact consumes_of_poisoned (h := s.hart) (hsrc j ▸ hbad) _

end Sys2Proof.Machine
end

section
/-!
Reductions, permutes and VEXTR at a poisoned element (R126, R127, R154 to R156, R226). With O31.
-/
namespace Sys2Proof.Machine
open Sys2Proof.Claims

variable {i : Instr} {s : State} {j : Nat} {e : Bool} {m : Bool}

/-! ## Members that run to completion -/

theorem completion_poisoned (hq : Quiet s) (hc : s.hart.region.isOpen = false) (hcut : s.hart.cut = none) {src : Hart → Nat → List (Nat × Nat × Nat)}
    {f : Hart → (Nat → Bool) → Hart} (hexec : exec i s = member e (toCompletion m src f s)) (hs : ¬ Clean s.hart m (src s.hart)) :
    exec i s = .next (s.deliver (.own 0x1A 0)) := by
  rw [hexec, toCompletion_poisoned hc hcut hs]
  exact member_trap hq ..

theorem chosen_active (k : MReg) : s.hart.chosen (s.hart.active m) k.toNat = chosen s m k := by
  simp [Hart.chosen, chosen, act, List.filter_filter, Bool.and_comm]

theorem permute_poisoned (hq : Quiet s) (hc : s.hart.region.isOpen = false) (hcut : s.hart.cut = none) {r : ElemRule}
    (hv : permute s i = some (m, r)) (hs : ¬ Clean s.hart m r.src) : exec i s = .next (s.deliver (.own 0x1A 0)) := by
  unfold permute at hv
  split at hv
  · cases hv; exact completion_poisoned hq hc hcut rfl hs
  · cases hv; exact completion_poisoned hq hc hcut rfl hs
  · cases hv; exact completion_poisoned hq hc hcut rfl hs
  · cases hv
    simp only [← chosen_active] at hs
    exact completion_poisoned hq hc hcut rfl hs
  · cases hv; exact completion_poisoned hq hc hcut rfl hs
  · cases hv; exact completion_poisoned hq hc hcut rfl hs
  · cases hv

theorem vextr_poisoned (hq : Quiet s) {d : GReg} {a : VReg} {b : GReg} (hk : (s.g b).toNat < s.hart.regs.vl)
    (hp : s.hart.elemPoison a.toNat (vtBytes s.hart.regs.vt) (s.g b).toNat = true) :
    exec (.vextr e d a b m) s = .next (s.deliver (.own 0x1A 0)) := by
  change execVextr e d a b m s = _
  rw [execVextr, if_neg (Nat.not_le.2 hk), if_pos (show s.hart.elemPoison a.toNat s.hart.width _ = true from hp)]
  exact member_trap hq ..

/-! ## Reductions -/

/-- A fold in another form, where the form is faithful on the values that the fold goes through. -/
theorem foldl_form {α β γ : Type} (form : α → β) (P : α → Prop) {g : α → γ → α} {g' : β → γ → β} (ys : List γ)
    (hP : ∀ x, ∀ y ∈ ys, P x → P (g x y)) (hg : ∀ x, ∀ y ∈ ys, P x → g' (form x) y = form (g x y)) :
    ∀ x, P x → ys.foldl g' (form x) = form (ys.foldl g x) := by
  induction ys with
  | nil => exact fun _ _ => rfl
  | cons y ys ih =>
    intro x hx
    have hy := List.mem_cons_self (a := y) (l := ys)
    rw [List.foldl_cons, hg x y hy hx, ih (fun x z hz => hP x z (List.mem_cons_of_mem _ hz)) (fun x z hz => hg x z (List.mem_cons_of_mem _ hz)) _ (hP x y hy hx)]
    rfl

/-- An integer that a 64-bit word holds as a signed number. -/
def FitsWord (x : Int) : Prop := -(2 ^ 63) ≤ x ∧ x < 2 ^ 63

theorem FitsWord.toInt {x : Int} (hx : FitsWord x) : (BitVec.ofInt 64 x).toInt = x := BitVec.toInt_ofInt_eq_self (by decide) hx.1 hx.2

theorem bits_pos_le (s : State) : 0 < bits s ∧ bits s ≤ 64 := by
  have hpos : 0 < vtBytes s.hart.regs.vt := Nat.two_pow_pos _
  have hle : vtBytes s.hart.regs.vt ≤ 2 ^ 3 := Nat.pow_le_pow_right (by decide) (Nat.le_of_lt_succ (BitVec.isLt _))
  rw [bits]
  omega

section
variable {n : Nat} (hn : 0 < n) (hn' : n ≤ 64)
include hn hn'

theorem halfRange_le : (2 : Int) ^ (n - 1) ≤ 2 ^ 63 := pow_le_pow_right₀ (by decide) (by omega)

theorem fitsWord_signed (x : Nat) : FitsWord (signed n x) := by
  have hlo := BitVec.le_toInt (BitVec.ofNat n x)
  have hhi := BitVec.toInt_lt (x := BitVec.ofNat n x)
  have := halfRange_le hn hn'
  rw [FitsWord, signed]
  omega

theorem fitsWord_minSigned : FitsWord (minSigned n) := by
  have := halfRange_le hn hn'
  have : (0 : Int) < 2 ^ (n - 1) := by positivity
  rw [FitsWord, minSigned]
  omega

theorem fitsWord_maxSigned : FitsWord (maxSigned n) := by
  have := halfRange_le hn hn'
  have : (0 : Int) < 2 ^ (n - 1) := by positivity
  rw [FitsWord, maxSigned]
  omega

end

theorem signedPick_max {x : Int} (hx : FitsWord x) (n y : Nat) :
    signedPick (fun x y => decide (y < x)) n (BitVec.ofInt 64 x) y = BitVec.ofInt 64 (max x (signed n y)) := by
  rw [signedPick, hx.toInt, toSigned_eq_signed]
  rcases lt_or_ge x (signed n y) with h | h
  · simp [h, max_eq_right h.le]
  · simp [h]

theorem signedPick_min {x : Int} (hx : FitsWord x) (n y : Nat) :
    signedPick (fun x y => decide (x < y)) n (BitVec.ofInt 64 x) y = BitVec.ofInt 64 (min x (signed n y)) := by
  rw [signedPick, hx.toInt, toSigned_eq_signed]
  rcases lt_or_ge (signed n y) x with h | h
  · simp [h, min_eq_right h.le]
  · simp [h]

theorem FitsWord.max {x y : Int} (hx : FitsWord x) (hy : FitsWord y) : FitsWord (Max.max x y) := by
  unfold FitsWord at *
  omega

theorem FitsWord.min {x y : Int} (hx : FitsWord x) (hy : FitsWord y) : FitsWord (Min.min x y) := by
  unfold FitsWord at *
  omega

theorem upTo_of_zero {h : Hart} (h0 : h.elix = 0) : h.upTo j = List.range j := by
  simp [Hart.upTo, h0]

/-- The active elements of a member that starts at element 0, below one of them. -/
theorem act_until (hj : j ≤ s.hart.regs.vl) : act (s.modRegs fun r => { r with vl := j }) m = (List.range j).filter (s.hart.active m) := by
  refine List.filter_congr fun k hk => ?_
  have hk : k < j := List.mem_range.1 hk
  have hk' : k < s.hart.regs.vl := Nat.lt_of_lt_of_le hk hj
  simp only [Hart.active, State.modRegs_hart, hk, hk']
  rfl

/-- A reduction from element 0 on stops at its first poisoned element with the partial result in its register (R154, R226). -/
theorem reduction_poisoned (hq : Quiet s) (hc : s.hart.region.isOpen = false) (hcut : s.hart.cut = none) (h0 : s.hart.elix = 0) {a : VReg}
    (hp : FirstPoisoned s.hart m (fun k => [(a.toNat, vtBytes s.hart.regs.vt, k)]) j) (init : Word) (step : Word → Nat → Word) (d : GReg) :
    reduction init step d a m s = .trap poisonTrap ((s.setG d ((act (s.modRegs fun r => { r with vl := j }) m).foldl
      (fun x k => step x (s.hart.elem a.toNat (vtBytes s.hart.regs.vt) k)) init)).modHart fun h => { h with elix := j }) := by
  obtain ⟨hle, hj, hbad, hclean⟩ := hp
  obtain ⟨rest, hsplit⟩ := elements_split hcut hle (active_lt hj)
  have horder := hsplit ▸ elements_ascending s.hart
  rw [upTo_of_zero h0] at hsplit horder
  have hrest : ∀ k ∈ j :: rest, ¬ k < j := by
    have := (List.pairwise_cons.1 (List.pairwise_append.1 horder).2.1).1
    intro k hk
    rcases List.mem_cons.1 hk with rfl | hk
    · exact Nat.lt_irrefl _
    · exact Nat.lt_asymm (this k hk)
  have hfind : (s.hart.elements.filter (s.hart.active m)).find? (fun i => s.hart.elemPoison a.toNat s.hart.width i) = some j := by
    have hnone : ((List.range j).filter (s.hart.active m)).find? (fun i => s.hart.elemPoison a.toNat s.hart.width i) = none := by
      refine List.find?_eq_none.2 fun k hk => ?_
      obtain ⟨hk, hact⟩ := List.mem_filter.1 hk
      have := hclean k (h0 ▸ Nat.zero_le k) (List.mem_range.1 hk) hact _ List.mem_cons_self
      exact Bool.not_eq_true _ ▸ this
    obtain ⟨x, hx, hbad⟩ := hbad
    obtain rfl := List.mem_singleton.1 hx
    rw [hsplit, List.filter_append, List.filter_cons_of_pos hj, List.find?_append, hnone, Option.none_or, List.find?_cons_of_pos]
    exact hbad
  have hbelow : (s.hart.elements.filter (s.hart.active m)).filter (fun i => decide (i < j)) = (List.range j).filter (s.hart.active m) := by
    have hleft : ((List.range j).filter (s.hart.active m)).filter (fun i => decide (i < j)) = (List.range j).filter (s.hart.active m) :=
      List.filter_eq_self.2 fun k hk => decide_eq_true (List.mem_range.1 (List.mem_filter.1 hk).1)
    have hright : ((j :: rest).filter (s.hart.active m)).filter (fun i => decide (i < j)) = [] :=
      List.filter_eq_nil_iff.2 fun k hk => by simpa using hrest k (List.mem_filter.1 hk).1
    rw [hsplit, List.filter_append, List.filter_append, hleft, hright, List.append_nil]
  rw [act_until (Nat.le_of_lt (active_lt hj)), reduction]
  simp only [hfind, hbelow, h0, if_true]
  exact stopAt_of_closed (s := s.setG d _) (by exact hq.2) (by exact hc) ..

section
variable (hq : Quiet s) (hc : s.hart.region.isOpen = false) (hcut : s.hart.cut = none) (h0 : s.hart.elix = 0) {d : GReg} {a : VReg}
  (hp : FirstPoisoned s.hart m (fun k => [(a.toNat, vtBytes s.hart.regs.vt, k)]) j)
include hq hc hcut h0 hp

theorem reduction_stops {init : Word} {step : Word → Nat → Word} (hexec : exec i s = member e (reduction init step d a m s)) {p : Word}
    (hpart : (act (s.modRegs fun r => { r with vl := j }) m).foldl
      (fun x k => step x (s.hart.elem a.toNat (vtBytes s.hart.regs.vt) k)) init = p) :
    PoisonedAt i s j fun u => u.hart.regs = s.hart.regs.setG d p := by
  rw [reduction_poisoned hq hc hcut h0 hp, hpart] at hexec
  exact ⟨(s.setG d p).modHart fun h => { h with elix := j }, hexec.trans (member_trap (by exact hq) ..), rfl, rfl⟩

theorem reduced_poisoned {v p : Word} (hv : reduced s i = some (e, d, some a, m, v))
    (hpart : reduced (s.modRegs fun r => { r with vl := j }) i = some (e, d, some a, m, p)) :
    PoisonedAt i s j fun u => u.hart.regs = s.hart.regs.setG d p := by
  obtain ⟨hbits, hword⟩ := bits_pos_le s
  unfold reduced at hv
  split at hv
  · cases hv; cases hpart
    refine reduction_stops hq hc hcut h0 hp rfl ?_
    rw [List.sum_eq_foldl, List.foldl_map]
    refine foldl_form (BitVec.ofInt 64) (fun _ => True) _ (fun _ _ _ _ => trivial) (fun x k _ _ => ?_) 0 trivial
    rw [toSigned_eq_signed, BitVec.ofInt_add]
    rfl
  · cases hv; cases hpart
    refine reduction_stops hq hc hcut h0 hp rfl ?_
    refine foldl_form (BitVec.ofInt 64) FitsWord _ (fun _ _ _ hx => ?_) (fun _ _ _ hx => ?_) _ (fitsWord_minSigned hbits hword)
    · exact hx.max (fitsWord_signed hbits hword _)
    · exact signedPick_max hx ..
  · cases hv; cases hpart
    refine reduction_stops hq hc hcut h0 hp rfl ?_
    refine foldl_form (BitVec.ofInt 64) FitsWord _ (fun _ _ _ hx => ?_) (fun _ _ _ hx => ?_) _ (fitsWord_maxSigned hbits hword)
    · exact hx.min (fitsWord_signed hbits hword _)
    · exact signedPick_min hx ..
  · cases hv; cases hpart
    refine reduction_stops hq hc hcut h0 hp rfl ?_
    exact foldl_form (BitVec.ofNat 64) (fun _ => True) _ (fun _ _ _ _ => trivial) (fun _ _ _ _ => BitVec.ofNat_and.symm) _ trivial
  · cases hv; cases hpart
    refine reduction_stops hq hc hcut h0 hp rfl ?_
    exact foldl_form (BitVec.ofNat 64) (fun _ => True) _ (fun _ _ _ _ => trivial) (fun _ _ _ _ => BitVec.ofNat_or.symm) 0 trivial
  · cases hv
  · cases hv
  · cases hv

end

end Sys2Proof.Machine
end

section
/-!
Float reductions at a poisoned element (R126, R127, R154, R155, R226): encodings of a format, and their sums and maxima as words. With O31.
-/
namespace Sys2Proof.Machine
open Sys2Proof.Claims

/-! ## Encodings -/

theorem floatOf_mem {vt : BitVec 7} {f : Fmt} (hf : floatOf vt = some f) : f ∈ formats := by
  unfold floatOf at hf
  split at hf <;> cases hf
  · split <;> decide
  · split <;> decide
  · decide

/-- Every encoding that a format names lies within its bits, and those within 32. -/
theorem codes_of_format : ∀ f ∈ formats,
    f.bits ≤ 32 ∧ f.nan < 2 ^ f.bits ∧ f.maxCode < 2 ^ (f.ebits + f.fbits) ∧ f.inf true < 2 ^ f.bits ∧ f.inf false < 2 ^ f.bits := by
  decide

variable {f : Fmt}

theorem signed_lt {c : Nat} (hc : c < 2 ^ (f.ebits + f.fbits)) (neg : Bool) : f.signed neg c < 2 ^ f.bits := by
  have : 2 ^ f.bits = 2 * 2 ^ (f.ebits + f.fbits) := by rw [Fmt.bits, Nat.add_assoc, Nat.pow_add]
  rw [Fmt.signed]
  split <;> omega

section
variable (hf : f ∈ formats)
include hf

theorem inf_lt (neg : Bool) : f.inf neg < 2 ^ f.bits := by
  obtain ⟨-, -, -, htrue, hfalse⟩ := codes_of_format f hf
  cases neg
  · exact hfalse
  · exact htrue

theorem overflow_lt (rm : Nat) (neg : Bool) : f.overflow rm neg < 2 ^ f.bits := by
  obtain ⟨-, -, hmax, -⟩ := codes_of_format f hf
  unfold Fmt.overflow
  split
  · split
    · exact signed_lt hmax neg
    · exact inf_lt hf neg
  · exact signed_lt hmax neg

theorem round_lt (rm rnd : Nat) (neg : Bool) (k : Nat) (e : Int) (sticky : Bool) : f.round rm rnd neg k e sticky < 2 ^ f.bits := by
  obtain ⟨-, -, hmax, -⟩ := codes_of_format f hf
  unfold Fmt.round
  split
  · exact signed_lt (Nat.two_pow_pos _) neg
  · extract_lets lowest u sh lo r n carry n' u' ex code
    split
    · rename_i hn
      exact signed_lt (Nat.lt_of_lt_of_le hn (Nat.pow_le_pow_right (by decide) (Nat.le_add_left _ _))) neg
    · split
      · exact overflow_lt hf rm neg
      · rename_i hcode
        exact signed_lt (Nat.lt_of_le_of_lt (Nat.le_of_not_gt hcode) hmax) neg

theorem encode_lt (rm rnd : Nat) (v : FVal) : f.encode rm rnd v < 2 ^ f.bits := by
  obtain ⟨-, hnan, -⟩ := codes_of_format f hf
  cases v with
  | nan => exact hnan
  | inf neg => exact inf_lt hf neg
  | num neg k e => exact round_lt hf ..

theorem nanMax_lt {x y : Nat} (hx : x < 2 ^ f.bits) (hy : y < 2 ^ f.bits) : nanMax f x y < 2 ^ f.bits := by
  obtain ⟨-, hnan, -⟩ := codes_of_format f hf
  unfold nanMax Fmt.maxNum
  extract_lets a b
  repeat' split
  all_goals assumption

/-- An encoding kept in a word is read back. -/
theorem toNat_code {x : Nat} (hx : x < 2 ^ f.bits) : (BitVec.ofNat 64 x).toNat = x := by
  obtain ⟨hbits, -⟩ := codes_of_format f hf
  have : 2 ^ f.bits ≤ 2 ^ 32 := Nat.pow_le_pow_right (by decide) hbits
  rw [BitVec.toNat_ofNat, Nat.mod_eq_of_lt]
  omega

/-- No encoding is the mark of an empty sum (R155). -/
theorem code_ne_emptySum {x : Nat} (hx : x < 2 ^ f.bits) : BitVec.ofNat 64 x ≠ emptySum := by
  obtain ⟨hbits, -⟩ := codes_of_format f hf
  have : 2 ^ f.bits ≤ 2 ^ 32 := Nat.pow_le_pow_right (by decide) hbits
  intro h
  have := congrArg BitVec.toNat h
  rw [toNat_code hf hx] at this
  change x = 0x8000000000000000 at this
  omega

/-! ## Sums and maxima as words -/

theorem foldl_nanMax {ys : List Nat} (hys : ∀ y ∈ ys, y < 2 ^ f.bits) :
    ys.foldl (fun x y => Word.ofNat (nanMax f (x.toNat % 2 ^ f.bits) y)) (Word.ofNat (f.inf true)) = BitVec.ofNat 64 (floatMax f ys) := by
  refine foldl_form (BitVec.ofNat 64) (· < 2 ^ f.bits) ys (fun x y hy hx => nanMax_lt hf hx (hys y hy)) (fun x y _ hx => ?_) _ (inf_lt hf true)
  rw [toNat_code hf hx, Nat.mod_eq_of_lt hx]
  rfl

theorem foldl_orderedStep {x : Nat} (hx : x < 2 ^ f.bits) (ys : List Nat) :
    (x :: ys).foldl (orderedStep f) emptySum = BitVec.ofNat 64
      (ys.foldl (fun x y => f.encode 0 0 ((f.decode x).add 0 (f.decode y))) (if (f.decode x).isNan then f.nan else x)) := by
  obtain ⟨-, hnan, -⟩ := codes_of_format f hf
  rw [List.foldl_cons]
  conv_lhs => rw [orderedStep, if_pos rfl]
  refine foldl_form (BitVec.ofNat 64) (· < 2 ^ f.bits) ys (fun _ _ _ _ => encode_lt hf ..) (fun x y _ hx => ?_) _ ?_
  · rw [orderedStep, if_neg (code_ne_emptySum hf hx), toNat_code hf hx, Nat.mod_eq_of_lt hx]
    rfl
  · split
    · exact hnan
    · exact hx

end

/-! ## Float reductions -/

section
variable {i : Instr} {s : State} {j : Nat} {e m : Bool} {d : GReg} {a : VReg} {v p : Nat}
  (hq : Quiet s) (hc : s.hart.region.isOpen = false) (hcut : s.hart.cut = none) (hf : floatOf s.hart.regs.vt = some f)
  (hp : FirstPoisoned s.hart m (fun k => [(a.toNat, vtBytes s.hart.regs.vt, k)]) j)
include hq hc hcut hf hp

theorem vfsumt_poisoned : exec (.vfsumt e d a m) s = .next (s.deliver (.own 0x1A 0)) := by
  have hexec : exec (.vfsumt e d a m) s = execVfsumt e d a m s := rfl
  rw [execVfsumt, floatFamily_of_some hf] at hexec
  refine completion_poisoned hq hc hcut hexec fun hclean => ?_
  obtain ⟨-, hj, ⟨x, hx, hbad⟩, -⟩ := hp
  exact absurd (hclean j hj x hx) (by simp [hbad])

variable (h0 : s.hart.elix = 0)
include h0

theorem vfrmax_poisoned (hpart : floatReduced (s.modRegs fun r => { r with vl := j }) f (.vfrmax e d a m) = some (e, d, a, m, p)) :
    PoisonedAt (.vfrmax e d a m) s j fun u => u.hart.regs = s.hart.regs.setG d (BitVec.ofNat 64 p) := by
  have hexec : exec (.vfrmax e d a m) s = execVfrmax e d a m s := rfl
  rw [execVfrmax, floatFamily_of_some hf] at hexec
  cases hpart
  refine reduction_stops hq hc hcut h0 hp hexec ?_
  rw [← List.foldl_map (g := fun x y => Word.ofNat (nanMax f (x.toNat % 2 ^ f.bits) y))]
  refine foldl_nanMax (floatOf_mem hf) fun y hy => ?_
  obtain ⟨k, -, rfl⟩ := List.mem_map.1 hy
  exact floatOf_bits hf ▸ elem_lt ..

theorem vfsumo_poisoned (hpart : floatReduced (s.modRegs fun r => { r with vl := j }) f (.vfsumo e d a m) = some (e, d, a, m, p)) :
    PoisonedAt (.vfsumo e d a m) s j fun u => u.hart.regs =
      s.hart.regs.setG d (if ∃ k, k < j ∧ s.hart.active m k = true then BitVec.ofNat 64 p else 0x8000000000000000) := by
  have hexec : exec (.vfsumo e d a m) s = execVfsumo e d a m s := rfl
  rw [execVfsumo, floatFamily_of_some hf, reduction_poisoned hq hc hcut h0 hp, ← List.foldl_map (g := orderedStep f)] at hexec
  refine ⟨_, hexec.trans (member_trap (by exact hq) ..), ?_, rfl⟩
  have hany : (∃ k, k < j ∧ s.hart.active m k = true) ↔ act (s.modRegs fun r => { r with vl := j }) m ≠ [] := by
    rw [act_until (Nat.le_of_lt (active_lt hp.2.1)), Ne, List.filter_eq_nil_iff]
    simp
  cases hpart
  refine congrArg (s.hart.regs.setG d) ?_
  cases hks : act (s.modRegs fun r => { r with vl := j }) m with
  | nil => rw [if_neg (by rw [hany, hks]; simp)]; rfl
  | cons k ks =>
    rw [if_pos (by rw [hany, hks]; simp)]
    exact foldl_orderedStep (floatOf_mem hf) (floatOf_bits hf ▸ elem_lt ..) _

end

end Sys2Proof.Machine

open Sys2Proof Sys2Proof.Machine Sys2Proof.Claims in
/-- Settles O31: each member goes through `elementwise`, `reduction`, `toCompletion` or `sweep`, and each of these stops at the first poisoned
element with what the elements below it leave; the hart is quiet, so the trap is delivered from there. A store's checks and the stores that it
issues keep the exit region, so its trap is delivered at once too. -/
theorem poisonedElementTraps : Obligations.PoisonedElementTraps := by
  unfold Obligations.PoisonedElementTraps
  intro i s j hq hc hcut
  refine ⟨?_, ?_, ?_, ?_, ?_, ?_, ?_, ?_, ?_⟩
  · rintro m r (hv | ⟨f, hf, hv⟩) hp
    · exact integer_poisoned hq hc hcut hv hp
    · exact float_poisoned hq hc hcut hf hv hp
  · rintro m r (hv | ⟨f, hf, hv⟩) hp
    · exact compares_poisoned hq hc hcut hv hp
    · exact floatCompares_poisoned hq hc hcut hf hv hp
  · exact fun c src dst => conversion_poisoned hq hc hcut
  · exact fun r => residue_poisoned hq hc hcut
  · exact fun e d a m v p hv h0 hp hpart => reduced_poisoned hq hc hcut h0 hp hv hpart
  · rintro f e d a m v p hf - h0 hp hpart
    refine ⟨?_, ?_, ?_⟩
    · rintro rfl; exact vfsumt_poisoned hq hc hcut hf hp
    · rintro rfl; exact vfrmax_poisoned hq hc hcut hf hp h0 hpart
    · rintro rfl; exact vfsumo_poisoned hq hc hcut hf hp h0 hpart
  · exact fun m r hv _ hs => permute_poisoned hq hc hcut hv hs
  · rintro e d a b m rfl hk hp
    exact vextr_poisoned hq hk hp
  · exact fun v hv hstore hl hne t b u rs hb => store_poisoned i v hv hstore hl hc hne hb
end

section
/-!
Scalar registers through the window (R54), and the registers right after reset (R56, R64, R427). With O1 and O57.
-/
namespace Sys2Proof.Machine

variable (r : Regs) {i j : GReg} (v : Word)

theorem Regs.setG_zero : r.setG 0 v = r := rfl

/-- The physical register that a field names holds what was written through the field. -/
theorem Regs.get_phys_setG (hi : i ≠ 0) : Sparse.get zeroWord (r.setG i v).gpr (r.phys i) = v := by
  rw [Regs.setG, if_neg hi]
  exact Sparse.get_put_same ..

/-- Outside the window a field names the physical register of its own number. -/
theorem Regs.phys_of_lt (hi : i.toNat < 64) : r.phys i = i.toNat := if_pos hi

theorem Regs.phys_ne_of_lt (hi : i.toNat < 64) (hj : j.toNat < 64) (hij : i ≠ j) : r.phys j ≠ r.phys i := by
  rw [r.phys_of_lt hi, r.phys_of_lt hj]
  exact fun h => hij (BitVec.eq_of_toNat_eq h.symm)

/-- Outside the window a write leaves every other register as it was. -/
theorem Regs.g_setG_other (hi : i.toNat < 64) (hj : j.toNat < 64) (hij : i ≠ j) : (r.setG i v).g j = r.g j := by
  have hget := r.gpr_setG i v (r.phys j) (.inr (r.phys_ne_of_lt hi hj hij))
  simp only [Regs.g, Regs.phys, Regs.setG_wb] at hget ⊢
  rw [hget]

theorem reset_gpr : State.reset.hart.regs.gpr = [] := rfl

end Sys2Proof.Machine

open Sys2Proof Sys2Proof.Machine in
/-- Settles O1, by the read after a write of the sparse register file, at the physical register that the field names. -/
theorem scalarRegistersReadAsWritten : Obligations.ScalarRegistersReadAsWritten := by
  intro s i j v
  have hgpr (k : Nat) (hk : k ≠ s.hart.regs.phys i) := s.hart.regs.gpr_setG i v k (.inr hk)
  refine ⟨rfl, rfl, fun hi => ?_, s.hart.regs.get_phys_setG v, hgpr, s.hart.regs.g_setG_other v⟩
  exact (s.hart.regs.g_setG i v).trans (if_neg hi)

open Sys2Proof Sys2Proof.Machine in
/-- Settles O57: the register files are empty, so each register of them reads 0, as does memory outside the frame table; each special
register is a field of the reset state or a number computed from a few. -/
theorem resetState : Obligations.ResetState := by
  refine ⟨fun i => ?_, fun k => ?_, fun _ => rfl, fun _ _ => rfl, rfl, rfl, rfl, rfl, rfl, rfl, rfl, rfl, rfl, rfl, rfl, ?_, rfl, rfl, rfl, rfl, rfl,
    rfl, fun k => rfl, fun a hlo hhi => ?_⟩
  · change (if i = 0 then 0 else Sparse.get zeroWord State.reset.hart.regs.gpr _) = 0
    rw [reset_gpr, Sparse.get_nil, zeroWord, ite_self]
  · rw [reset_gpr, Sparse.get_nil, zeroWord]
  · simp only [List.forall_mem_cons]
    exact ⟨rfl, rfl, rfl, rfl, rfl, rfl, rfl, rfl, rfl, rfl, rfl, rfl, rfl, rfl, rfl, rfl, rfl, rfl, rfl, rfl, rfl, rfl, rfl, nofun⟩
  · exact if_pos ⟨hlo, hhi⟩
end

section
/-!
Transfers to a register or by an offset (R91, R92, R104), and the return from a trap (R72). With O11 and O17.
-/
namespace Sys2Proof.Machine
open Sys2Proof.Claims

variable {s : State}

/-! ## Before a member's effect -/

/-- A settled hart's member waits for nothing. -/
theorem settled_eq (h : Settled s) (k : State → Res) : settled s k = k s := if_pos (sure_of_settled h)

theorem privileged_of_supervisor (h : s.hart.regs.tstat.getLsbD 0 = true) (w : Code) (k : State → Res) : privileged s w k = k s := if_pos h

/-! ## Targets -/

/-- A target by a word offset, as the statements count it (R35). -/
theorem targetOf_eq_away (s : State) {n : Nat} (o : BitVec n) : targetOf s.hart.pc o = away s o.toInt := by
  rw [targetOf, away, BitVec.ofInt_mul]
  rfl

theorem member_take (e : Bool) (t : Word) : member e (take s t) = Transfers s t := rfl

/-! ## Transfers to a register's value -/

theorem jumpReg_of_ne {t : Word} (ht : t ≠ 0) (go : State → Res) : jumpReg s t go = go s := if_neg ht

/-- A transfer to 0 is the hart's last (R65). -/
theorem jumpReg_zero (h : Settled s) (go : State → Res) : jumpReg s 0 go = .moved (s.leaveWith .retiring) := by
  rw [jumpReg, if_pos rfl, settled_eq h]

/-! ## Calls -/

theorem callAt_of_loopEnd (h : s.hart.regs.isLoopEnd s.hart.pc = true) (k : State → Res) : callAt s k = .trap (.own 0x1B 0) s := if_pos h

theorem callAt_of_inside (h : s.hart.regs.isLoopEnd s.hart.pc = false) (k : State → Res) : callAt s k = k s :=
  if_neg (by rw [h]; decide)

theorem settled_link (h : Settled s) : Settled s.link := h

/-! ## TSTAT after a trap -/

theorem returned_returnStatus (t : Word) : returned t (returnStatus t) := by
  simp only [returned, returnStatus, getLsbD_setBit, Nat.reduceLT]
  refine ⟨rfl, rfl, rfl, rfl, rfl, rfl, rfl, rfl, fun k hk => ?_⟩
  simp only [if_neg (show k ≠ 7 by omega), if_neg (show k ≠ 6 by omega), if_neg (show k ≠ 3 by omega), if_neg (show k ≠ 2 by omega),
    if_neg (show k ≠ 0 by omega)]

end Sys2Proof.Machine

open Sys2Proof Sys2Proof.Machine Sys2Proof.Claims in
/-- Settles O11: each of the five is a transfer to its target, after the check of R104 for a call; one to 0 ends the hart. -/
theorem jumpResults : Obligations.JumpResults := by
  intro e a o s linked stopped
  have hjr : exec (.jr e a) s = member e (jumpReg s (s.g a) fun s => take s (s.g a)) := rfl
  have hret : exec (.ret e) s = member e (jumpReg s s.hart.regs.lr fun s => take s s.hart.regs.lr) := rfl
  have hcall : exec (.call e o) s = member e (callAt s fun s => .jump s.link (targetOf s.hart.pc o)) := rfl
  have hcallr : exec (.callr e a) s = member e (callAt s fun u => jumpReg u.link (s.g a) fun u => .jump u (s.g a)) := rfl
  refine ⟨?_, fun ha => ?_, fun hlr => ?_, fun hin => ?_, fun hin ha => ?_, fun hend hq => ⟨?_, ?_⟩, fun hs ha => ?_, fun hs hlr => ?_,
    fun hs ha hin => ?_⟩
  · rw [← targetOf_eq_away]
    rfl
  · rw [hjr, jumpReg_of_ne ha, member_take]
  · rw [hret, jumpReg_of_ne hlr, member_take]
  · rw [hcall, callAt_of_inside hin, targetOf_eq_away]
    rfl
  · rw [hcallr, callAt_of_inside hin, jumpReg_of_ne ha]
    rfl
  · rw [hcall, callAt_of_loopEnd hend, member_trap hq]
  · rw [hcallr, callAt_of_loopEnd hend, member_trap hq]
  · rw [hjr, ha, jumpReg_zero hs]
    rfl
  · rw [hret, hlr, jumpReg_zero hs]
    rfl
  · rw [hcallr, callAt_of_inside hin, ha, jumpReg_zero (settled_link hs)]
    rfl

open Sys2Proof Sys2Proof.Machine Sys2Proof.Claims in
/-- Settles O17: a settled hart in supervisor mode that serves no other is as `Hart.fromTrap` leaves it. -/
theorem returnFromTrap : Obligations.ReturnFromTrap := by
  intro e s hs hsup hserves
  refine ⟨_, returned_returnStatus s.hart.regs.tstat, ?_⟩
  change member e (settled s _) = _
  rw [settled_eq hs, privileged_of_supervisor hsup, hserves]
  rfl
end

section
/-!
Special registers read (R56, R100, R182). With O18.
-/
namespace Sys2Proof.Machine
open Sys2Proof.Claims

variable {s : State} {n : BitVec 11} {v : Word}

/-! ## The privileged trap -/

/-- A register that user mode may not reach is refused to it (R56, R75). -/
theorem refused_iff (s : State) (may : Bool) :
    (!may && !s.hart.regs.supervisor) = true ↔ ¬ (may = true ∨ s.hart.regs.tstat.getLsbD 0 = true) := by
  simp [Regs.supervisor]

theorem wordTval_eq (w : Code) (m : Nat) : wordTval w m = BitVec.ofNat 64 (w.toNat + m % 8 * 2 ^ 32) := by
  rw [BitVec.ofNat_add, BitVec.ofNat_toNat]
  rfl

/-- The trap of R75 on a member whose word is `w`. -/
theorem own_eq_privilegedTrap {i : Instr} {w : Code} (hi : encode i = some w) :
    Trap.own 0x05 (wordTval w s.hart.member) = privilegedTrap s i := by
  rw [wordTval_eq, privilegedTrap, hi]
  rfl

/-! ## Values -/

theorem ctxid_eq (s : State) (n : Nat) : s.ctxid n = ((s.ctx? n).map (·.depth)).getD 0 * 65536 + n := by
  unfold State.ctxid
  cases hc : s.ctx? n with
  | none => simp
  | some c =>
    have hnum : c.num = n := by simpa using List.find?_some hc
    simp [Ctx.handle, hnum]

/-- MFS reads ELIX, ASTAT and SPHW as R100 says, and each other register as it stands. -/
theorem readSpecial_of_ne (h7 : n.toNat ≠ 0x007) (h38 : n.toNat ≠ 0x038) (h36 : n.toNat ≠ 0x036) : s.readSpecial n = s.special n.toNat := by
  simp [State.readSpecial, ← BitVec.toNat_inj, h7, h38, h36]

theorem special_of_specialValue {k : Nat} (h : specialValue s k = some v) (h7 : k ≠ 0x007) (h38 : k ≠ 0x038) (h36 : k ≠ 0x036) :
    s.special k = v := by
  by_cases h31 : k = 0x031
  · subst h31
    cases h
    exact congrArg (BitVec.ofNat 64) (ctxid_eq s s.hart.ctx)
  · unfold specialValue at h
    split at h <;> first | contradiction | exact Option.some.inj h

theorem readSpecial_of_specialValue (h : specialValue s n.toNat = some v) : s.readSpecial n = v := by
  by_cases h7 : n.toNat = 0x007
  · obtain rfl : n = 0x007 := BitVec.eq_of_toNat_eq h7
    exact Option.some.inj h
  by_cases h38 : n.toNat = 0x038
  · obtain rfl : n = 0x038 := BitVec.eq_of_toNat_eq h38
    exact Option.some.inj h
  by_cases h36 : n.toNat = 0x036
  · obtain rfl : n = 0x036 := BitVec.eq_of_toNat_eq h36
    exact Option.some.inj h
  rw [readSpecial_of_ne h7 h38 h36, special_of_specialValue h h7 h38 h36]

/-! ## Who may read -/

/-- R56 numbers no register between the trap registers and HARTCRD. -/
theorem number_of_specialValue {k : Nat} (h : specialValue s k = some v) : k ≤ 0x026 ∨ 0x030 ≤ k := by
  by_contra hk
  have hlo : 0x027 ≤ k := by omega
  have hhi : k ≤ 0x02F := by omega
  interval_cases k <;> cases h

theorem userReads_eq (h : specialValue s n.toNat = some v) : userReads n = userReadable n.toNat := by
  have hk := number_of_specialValue h
  rw [Bool.eq_iff_iff]
  simp only [userReads, userReadable, Bool.or_eq_true, Bool.not_eq_true', Bool.and_eq_false_iff, decide_eq_true_eq, decide_eq_false_iff_not, beq_iff_eq]
  omega

theorem execMfs_of_permitted (e : Bool) (d : GReg) (h : userReads n = true ∨ s.hart.regs.tstat.getLsbD 0 = true) :
    exec (.mfs e d n) s = Wrote s e (s.hart.regs.setG d (s.readSpecial n)) := by
  change member e (if _ then _ else _) = _
  rw [if_neg fun hr => (refused_iff ..).1 hr h]
  rfl

theorem execMfs_of_refused (e : Bool) (d : GReg) (h : ¬ (userReads n = true ∨ s.hart.regs.tstat.getLsbD 0 = true)) (hq : Quiet s) :
    exec (.mfs e d n) s = .next (s.deliver (privilegedTrap s (.mfs e d n))) := by
  change member e (if _ then _ else _) = _
  rw [if_pos ((refused_iff ..).2 h), own_eq_privilegedTrap (i := .mfs e d n) rfl, member_trap hq]

end Sys2Proof.Machine

open Sys2Proof Sys2Proof.Machine Sys2Proof.Claims in
/-- Settles O18: what MFS reads is the value of R56 by its number, and the mode decides whether it reads. -/
theorem specialRegisterReads : Obligations.SpecialRegisterReads := by
  intro e d n s v hv
  rw [← userReads_eq hv, ← readSpecial_of_specialValue hv]
  exact ⟨execMfs_of_permitted e d, fun hn hs => execMfs_of_refused e d (by rw [hn, hs]; decide)⟩
end

section
/-!
Special registers written (R56, R57, R59, R101, R107). With O19.
-/
namespace Sys2Proof.Machine
open Sys2Proof.Claims

variable {s : State} {n m : BitVec 11} {v : Word}

/-! ## Ranges -/

theorem vtLegal_eq (b : BitVec 7) :
    vtLegal b = (decide (b.toNat % 8 ≤ 4) && decide (b.toNat / 8 % 4 ≤ 1) && (decide (b.toNat / 32 ≤ 1) || b.toNat / 8 % 4 == 0)) := by
  have h0 : (b.extractLsb' 0 3).toNat = b.toNat % 8 := by simp [BitVec.extractLsb'_toNat]
  have h3 : (b.extractLsb' 3 2).toNat = b.toNat / 8 % 4 := by simp [BitVec.extractLsb'_toNat, Nat.shiftRight_eq_div_pow]
  have h5 : (b.extractLsb' 5 2).toNat = b.toNat / 32 := by
    simp only [BitVec.extractLsb'_toNat, Nat.shiftRight_eq_div_pow]
    omega
  have hvar : (b.extractLsb' 3 2 == 0) = (b.toNat / 8 % 4 == 0) := by
    rw [← h3, Bool.eq_iff_iff, beq_iff_eq, beq_iff_eq, ← BitVec.toNat_inj]
    rfl
  rw [vtLegal, h0, h3, h5, hvar]

theorem specialInRange_of_vt (hn : n.toNat = 0x003) : s.specialInRange n v = inRange (padSize s) 0x003 v.toNat := by
  simp only [State.specialInRange, hn, vtLegal_eq]
  by_cases hv : v.toNat < 128
  · simp [inRange, hv, Nat.mod_eq_of_lt hv, Bool.and_assoc]
  · simp [inRange, hv]

/-- The range checked is that of the statement. -/
theorem specialInRange_eq : s.specialInRange n v = inRange (padSize s) n.toNat v.toNat := by
  by_cases hvt : n.toNat = 0x003
  · rw [specialInRange_of_vt hvt, hvt]
  unfold State.specialInRange
  split
  any_goals contradiction
  case h_18 => simp_all [inRange]
  all_goals next h => rw [h]; rfl

/-! ## The state that a write leaves, register by register -/

/-- What each register of the hart holds after a write of `v` to number `n`. -/
def Hart.afterWrite (h : Hart) (granted n : Nat) (v : Word) : Hart :=
  let r := h.regs
  { h with
    xrd := if n = 0x00A then v else h.xrd
    grd := if n = 0x00B then v else h.grd
    tcause := if n = 0x020 then v else h.tcause
    tpc := if n = 0x021 then v else h.tpc
    telix := if n = 0x022 then v else h.telix
    tval := if n = 0x023 then v else h.tval
    tvec := if n = 0x024 then v else h.tvec
    tscr := if n = 0x026 then v else h.tscr
    rseed := if n = 0x034 then v else h.rseed
    splane0 := if n = 0x040 then v else h.splane0
    splane1 := if n = 0x041 then v else h.splane1
    splane2 := if n = 0x042 then v else h.splane2
    splane3 := if n = 0x043 then v else h.splane3
    regs := { r with
      lr := if n = 0x001 then v else r.lr
      wb := if n = 0x002 then v else r.wb
      vt := if n = 0x003 then v.setWidth 7 else r.vt
      vl := if n = 0x003 then (h.setVt (v.setWidth 7)).regs.vl else if n = 0x004 then granted else r.vl
      bx := if n = 0x008 then v else r.bx
      fx := if n = 0x009 then v else r.fx
      ls0 := if n = 0x010 then v else r.ls0
      le0 := if n = 0x011 then v else r.le0
      lc0 := if n = 0x012 then v else r.lc0
      ls1 := if n = 0x013 then v else r.ls1
      le1 := if n = 0x014 then v else r.le1
      lc1 := if n = 0x015 then v else r.lc1
      tstat := if n = 0x025 then v else if n = 0x012 then (r.writeLc false v).tstat else if n = 0x015 then (r.writeLc true v).tstat else r.tstat
      astat := if n = 0x038 then v else r.astat } }

/-- A team as a write of SPHW leaves it (R62): that of the hart has the new value. -/
def State.putSphw (s : State) (w : Nat) (x : Team) : Team :=
  if (s.slotTeam? s.hart.crew s.hart.slot).any (x.id == ·.id) then { x with sphw := w } else x

/-- The machine after a write of `v` to number `n`: what is not named here stays. -/
def State.afterWrite (s : State) (n : Nat) (v : Word) : State :=
  { s with
    hart := s.hart.afterWrite (s.grantedVl v.toNat) n v
    teams := if n = 0x036 then s.teams.map (s.putSphw v.toNat) else s.teams }

theorem writeLc_false (r : Regs) (v : Word) : r.writeLc false v = { r with lc0 := v, tstat := (r.writeLc false v).tstat } := by
  unfold Regs.writeLc
  split <;> rfl

theorem writeLc_true (r : Regs) (v : Word) : r.writeLc true v = { r with lc1 := v, tstat := (r.writeLc true v).tstat } := by
  unfold Regs.writeLc
  split <;> rfl

theorem writeSpecial_lc0 (hn : n.toNat = 0x012) : s.writeSpecial n v = s.afterWrite 0x012 v := by
  have h : s.writeSpecial n v = s.modRegs fun r => r.writeLc false v := by simp only [State.writeSpecial, hn]
  rw [h, State.modRegs, writeLc_false]
  rfl

theorem writeSpecial_lc1 (hn : n.toNat = 0x015) : s.writeSpecial n v = s.afterWrite 0x015 v := by
  have h : s.writeSpecial n v = s.modRegs fun r => r.writeLc true v := by simp only [State.writeSpecial, hn]
  rw [h, State.modRegs, writeLc_true]
  rfl

theorem writeSpecial_sphw (hn : n.toNat = 0x036) : s.writeSpecial n v = s.afterWrite 0x036 v := by
  have hafter : s.afterWrite 0x036 v = { s with teams := s.teams.map (s.putSphw v.toNat) } := rfl
  rw [hafter]
  cases hown : s.slotTeam? s.hart.crew s.hart.slot with
  | none =>
    have hput : s.putSphw v.toNat = id := funext fun x => by simp [State.putSphw, hown]
    simp only [State.writeSpecial, hn, hown, hput, List.map_id]
  | some t =>
    have hput : s.putSphw v.toNat = fun x => if x.id = t.id then { x with sphw := v.toNat } else x :=
      funext fun x => by simp [State.putSphw, hown]
    simp only [State.writeSpecial, hn, hown, hput, State.modTeam]

/-- MTS writes as `afterWrite` says, register by register. -/
theorem writeSpecial_eq : s.writeSpecial n v = s.afterWrite n.toNat v := by
  by_cases h12 : n.toNat = 0x012
  · rw [writeSpecial_lc0 h12, h12]
  by_cases h15 : n.toNat = 0x015
  · rw [writeSpecial_lc1 h15, h15]
  by_cases h36 : n.toNat = 0x036
  · rw [writeSpecial_sphw h36, h36]
  unfold State.writeSpecial
  split
  any_goals contradiction
  case h_29 => simp_all [State.afterWrite, Hart.afterWrite]
  all_goals next h => rw [h]; rfl

/-! ## The team's part -/

theorem slotTeam_afterWrite (k : Nat) (crew slot : Nat) :
    ((s.afterWrite k v).slotTeam? crew slot) = (s.slotTeam? crew slot).map (if k = 0x036 then s.putSphw v.toNat else id) := by
  have hkeep (x : Team) : (s.putSphw v.toNat x).crew = x.crew ∧ (s.putSphw v.toNat x).slot = x.slot := by
    unfold State.putSphw
    split <;> exact ⟨rfl, rfl⟩
  by_cases hk : k = 0x036
  · simp [State.slotTeam?, State.afterWrite, hk, List.find?_map, hkeep]
  · simp [State.slotTeam?, State.afterWrite, hk]

theorem ownTeam_afterWrite (k : Nat) : (s.afterWrite k v).slotTeam? (s.afterWrite k v).hart.crew (s.afterWrite k v).hart.slot =
    (s.slotTeam? s.hart.crew s.hart.slot).map (if k = 0x036 then s.putSphw v.toNat else id) := slotTeam_afterWrite ..

theorem unitOf_afterWrite (k : Nat) : (s.afterWrite k v).unitOf (s.afterWrite k v).hart = s.unitOf s.hart := by
  have hcore (x : Team) : (s.putSphw v.toNat x).core = x.core := by
    unfold State.putSphw
    split <;> rfl
  simp only [State.unitOf, ownTeam_afterWrite]
  cases s.slotTeam? s.hart.crew s.hart.slot with
  | none => rfl
  | some t =>
    by_cases hk : k = 0x036
    · simp [hk, hcore]
    · simp [hk]

theorem sphw_afterWrite_of_ne {k : Nat} (hk : k ≠ 0x036) : (s.afterWrite k v).sphw = s.sphw := by
  simp only [State.sphw, ownTeam_afterWrite, if_neg hk, Option.map_id_fun, id]

/-- A value in the range of R62 is SPHW after the write; a hart without a team reads 0, the one value in range there. -/
theorem sphw_afterWrite (hv : v.toNat ≤ padSize s) : (s.afterWrite 0x036 v).sphw = v.toNat := by
  simp only [State.sphw, ownTeam_afterWrite, if_pos]
  cases hown : s.slotTeam? s.hart.crew s.hart.slot with
  | none =>
    rw [padSize, hown] at hv
    exact (Nat.le_zero.1 hv).symm
  | some t => simp [State.putSphw, hown]

/-! ## The special registers after a write -/

theorem vlmax_afterWrite {k : Nat} (hk : k ≠ 0x003) : (s.afterWrite k v).hart.vlmax = s.hart.vlmax := by
  change s.hart.rb / vtBytes (if k = 0x003 then _ else _) = _
  rw [if_neg hk]
  rfl

theorem grantCap_afterWrite {k : Nat} (hk : k ≠ 0x003) : (s.afterWrite k v).grantCap = s.grantCap := by
  rw [State.grantCap, vlmax_afterWrite hk, State.grantK, unitOf_afterWrite]
  rfl

/-- VL changes with VT and itself alone (R59). -/
theorem vl_afterWrite {k : Nat} (hvt : k ≠ 0x003) (hvl : k ≠ 0x004) : (s.afterWrite k v).hart.regs.vl = s.hart.regs.vl :=
  (if_neg hvt).trans (if_neg hvl)

/-- In supervisor mode LCk leaves TSTAT as it is (R107). -/
theorem tstat_writeLc {r : Regs} (h : r.tstat.getLsbD 0 = true) (l : Level) : (r.writeLc l v).tstat = r.tstat := by
  rw [Regs.writeLc, Regs.supervisor, if_pos h]
  cases l <;> rfl

theorem tstat_afterWrite {k : Nat} (hts : k ≠ 0x025) (hlc : s.hart.regs.tstat.getLsbD 0 = true ∨ k ≠ 0x012 ∧ k ≠ 0x015) :
    (s.afterWrite k v).hart.regs.tstat = s.hart.regs.tstat := by
  simp only [State.afterWrite, Hart.afterWrite, if_neg hts]
  obtain hsup | ⟨h0, h1⟩ := hlc
  · simp only [tstat_writeLc hsup, ite_self]
  · rw [if_neg h0, if_neg h1]

/-- A special register that R56 to R107 do not couple to the one written reads as before. -/
theorem special_afterWrite_other {k j : Nat} (h : changes (!s.hart.regs.tstat.getLsbD 0) k j = false) :
    (s.afterWrite k v).special j = s.special j := by
  have hne : k ≠ j := fun hk => by simp [changes, hk] at h
  have hvt : j = 0x004 ∨ j = 0x005 ∨ j = 0x037 → k ≠ 0x003 := by
    rintro (rfl | rfl | rfl) rfl <;> simp [changes] at h
  have hlc : j = 0x025 → s.hart.regs.tstat.getLsbD 0 = true ∨ k ≠ 0x012 ∧ k ≠ 0x015 := by
    rintro rfl
    cases hsup : s.hart.regs.tstat.getLsbD 0 <;> simp_all [changes]
  obtain rfl | hj := eq_or_ne j 0x004
  · exact congrArg (BitVec.ofNat 64) (vl_afterWrite (hvt (by decide)) hne)
  obtain rfl | hj := eq_or_ne j 0x005
  · exact congrArg (BitVec.ofNat 64) (vlmax_afterWrite (hvt (by decide)))
  obtain rfl | hj := eq_or_ne j 0x025
  · exact tstat_afterWrite hne (hlc rfl)
  obtain rfl | hj := eq_or_ne j 0x036
  · exact congrArg (BitVec.ofNat 64) (sphw_afterWrite_of_ne hne)
  obtain rfl | hj := eq_or_ne j 0x037
  · exact congrArg (BitVec.ofNat 64) (grantCap_afterWrite (hvt (by decide)))
  unfold State.special
  split
  any_goals contradiction
  all_goals simp [State.afterWrite, Hart.afterWrite, State.ctxid, State.ctx?, State.tick, hne]

theorem writable_of_mtsLegal (h : mtsLegal n = true) : n.toNat ∈ srNumbers ∧ n.toNat ∉ srReadOnly := by simpa [mtsLegal] using h

/-- A legal value in range reads as written; VL as granted. -/
theorem special_afterWrite_same (hl : mtsLegal n = true) (hr : inRange (padSize s) n.toNat v.toNat = true) :
    (s.afterWrite n.toNat v).special n.toNat = if n.toNat = 0x004 then BitVec.ofNat 64 (min v.toNat (min s.hart.vlmax s.grantCap)) else v := by
  obtain ⟨hin, hro⟩ := writable_of_mtsLegal hl
  generalize n.toNat = k at *
  by_cases h3 : k = 0x003
  · subst h3
    have hv : v.toNat < 128 := by
      simp [inRange] at hr
      omega
    change zextWord (v.setWidth 7) = v
    apply BitVec.eq_of_toNat_eq
    simp [zextWord]
    omega
  by_cases h36 : k = 0x036
  · subst h36
    have hv : v.toNat ≤ padSize s := by
      simp [inRange] at hr
      exact hr.2
    change BitVec.ofNat 64 (s.afterWrite 0x036 v).sphw = v
    rw [sphw_afterWrite hv]
    simp
  unfold State.special
  split <;> simp_all [srNumbers, srReadOnly, State.afterWrite, Hart.afterWrite, State.grantedVl, Word.ofNat]

/-! ## Who may write, and what -/

/-- MTS that the mode and the range permit writes its register (R101). -/
theorem execMts_of_permitted (e : Bool) (a : GReg) (hs : Settled s) (hmay : userWrites n = true ∨ s.hart.regs.tstat.getLsbD 0 = true)
    (hfits : s.specialInRange n (s.g a) = true) : exec (.mts e a n) s = .next ((s.writeSpecial n (s.g a)).retire e) := by
  change member e (settled s _) = _
  rw [settled_eq hs, if_neg fun hr => (refused_iff ..).1 hr hmay, hfits]
  rfl

theorem execMts_of_refused (e : Bool) (a : GReg) (hq : Quiet s) (hmay : ¬ (userWrites n = true ∨ s.hart.regs.tstat.getLsbD 0 = true)) :
    exec (.mts e a n) s = .next (s.deliver (privilegedTrap s (.mts e a n))) := by
  change member e (settled s _) = _
  rw [settled_eq hq.1, if_pos ((refused_iff ..).2 hmay), own_eq_privilegedTrap (i := .mts e a n) rfl, member_trap hq]

theorem execMts_of_outOfRange (e : Bool) (a : GReg) (hq : Quiet s) (hmay : userWrites n = true ∨ s.hart.regs.tstat.getLsbD 0 = true)
    (hfits : s.specialInRange n (s.g a) = false) : exec (.mts e a n) s = .next (s.deliver (.own 0x03 (n.setWidth 64))) := by
  change member e (settled s _) = _
  rw [settled_eq hq.1, if_neg fun hr => (refused_iff ..).1 hr hmay, hfits, if_pos (by rfl), member_trap hq]
  rfl

end Sys2Proof.Machine

open Sys2Proof Sys2Proof.Machine Sys2Proof.Claims in
/-- Settles O19: the mode and the range decide what MTS does; what it writes is said register by register by `State.afterWrite`. -/
theorem specialRegisterWrites : Obligations.SpecialRegisterWrites := by
  intro e a n s hs may fits
  have hfits : s.specialInRange n (s.g a) = inRange (padSize s) n.toNat (s.g a).toNat := specialInRange_eq
  refine ⟨fun hlegal hmay hin => ⟨s.afterWrite n.toNat (s.g a), ?_, special_afterWrite_same hlegal hin, fun m => special_afterWrite_other,
    rfl, rfl, rfl, rfl, rfl, rfl, rfl⟩, fun hlate hmay => ?_, fun hlate hmay hout => ?_⟩
  · rw [← writeSpecial_eq]
    exact execMts_of_permitted e a hs hmay (hfits.trans hin)
  · exact execMts_of_refused e a ⟨hs, hlate⟩ hmay
  · exact execMts_of_outOfRange e a ⟨hs, hlate⟩ hmay (hfits.trans (Bool.eq_false_iff.2 hout))
end

section
/-!
Register arithmetic, immediates and constants (R77 to R84): the values of the model's operations. With O2, O3 and O4.
-/
namespace Sys2Proof.Machine
open Sys2Proof.Claims

variable {s : State} {e : Bool} {d : GReg}

/-! ## Values of the operations -/


/-- A member that writes one scalar register completes with that value. -/
theorem wrote_setG {v w : Word} (h : v = w) : member e (.ok (s.setG d v)) = Wrote s e (s.hart.regs.setG d w) := by rw [h]; rfl

theorem shiftArith_eq (x : Word) (k : Nat) : shiftArith x k = BitVec.ofInt 64 (x.toInt / 2 ^ k) := by
  refine (BitVec.ofInt_toInt (x := shiftArith x k)).symm.trans (congrArg _ ?_)
  rw [shiftArith, BitVec.toInt_sshiftRight, Int.shiftRight_eq_div_pow]
  norm_cast

theorem boolWord_slt (x y : Word) : boolWord (x.slt y) = if x.toInt < y.toInt then 1 else 0 := by
  simp [boolWord, BitVec.slt]

/-- An immediate is compared by its own sign (R81). -/
theorem boolWord_slti (x : Word) (i : BitVec 11) : boolWord (x.slt (sextWord i)) = if x.toInt < i.toInt then 1 else 0 := by
  rw [boolWord_slt, sextWord, BitVec.toInt_signExtend_of_le (by decide)]

theorem boolWord_ult (x y : Word) : boolWord (x.ult y) = if x.toNat < y.toNat then 1 else 0 := by
  simp [boolWord, BitVec.ult]

theorem signedMin_eq (x y : Word) : signedMin x y = BitVec.ofInt 64 (min x.toInt y.toInt) := by
  simp only [signedMin, BitVec.slt, decide_eq_true_eq]
  split
  · rw [min_eq_left (by omega), BitVec.ofInt_toInt]
  · rw [min_eq_right (by omega), BitVec.ofInt_toInt]

theorem signedMax_eq (x y : Word) : signedMax x y = BitVec.ofInt 64 (max x.toInt y.toInt) := by
  simp only [signedMax, BitVec.slt, decide_eq_true_eq]
  split
  · rw [max_eq_right (by omega), BitVec.ofInt_toInt]
  · rw [max_eq_left (by omega), BitVec.ofInt_toInt]

theorem unsignedMin_eq (x y : Word) : unsignedMin x y = BitVec.ofNat 64 (min x.toNat y.toNat) := by
  simp only [unsignedMin, BitVec.lt_def]
  split
  · rw [min_eq_left (by omega), BitVec.ofNat_toNat, BitVec.setWidth_eq]
  · rw [min_eq_right (by omega), BitVec.ofNat_toNat, BitVec.setWidth_eq]

theorem unsignedMax_eq (x y : Word) : unsignedMax x y = BitVec.ofNat 64 (max x.toNat y.toNat) := by
  simp only [unsignedMax, BitVec.lt_def]
  split
  · rw [max_eq_right (by omega), BitVec.ofNat_toNat, BitVec.setWidth_eq]
  · rw [max_eq_left (by omega), BitVec.ofNat_toNat, BitVec.setWidth_eq]

theorem mul_eq_ofNat (x y : Word) : x * y = BitVec.ofNat 64 (x.toNat * y.toNat) := by
  rw [BitVec.ofNat_mul, BitVec.ofNat_toNat, BitVec.ofNat_toNat, BitVec.setWidth_eq, BitVec.setWidth_eq]

/-- All ones, as the statements write it (R79). -/
theorem ones_eq : Word.ones = 0xFFFFFFFFFFFFFFFF := by decide

theorem signedDiv_eq (x y : Word) : signedDiv x y = if y = 0 then 0xFFFFFFFFFFFFFFFF else x.sdiv y := by
  have h : BitVec.ofInt 64 (x.toInt.tdiv y.toInt) = x.sdiv y := by
    apply BitVec.eq_of_toInt_eq
    rw [BitVec.toInt_ofInt, BitVec.toInt_sdiv]
  rw [signedDiv, h, ones_eq]

theorem signedRem_eq (x y : Word) : signedRem x y = if y = 0 then x else x.srem y := by
  have h : BitVec.ofInt 64 (x.toInt.tmod y.toInt) = x.srem y := by
    rw [← BitVec.ofInt_toInt (x := x.srem y), BitVec.toInt_srem]
  rw [signedRem, h]

theorem unsignedDiv_eq (x y : Word) : unsignedDiv x y = if y = 0 then 0xFFFFFFFFFFFFFFFF else x / y := by
  rw [unsignedDiv, ← BitVec.toNat_udiv, BitVec.ofNat_toNat, BitVec.setWidth_eq, ones_eq]

theorem unsignedRem_eq (x y : Word) : unsignedRem x y = if y = 0 then x else x % y := by
  rw [unsignedRem, ← BitVec.toNat_umod, BitVec.ofNat_toNat, BitVec.setWidth_eq]

/-- The low bits of a word, cut out by a mask. -/
theorem zextWord_setWidth_eq_and (x : Word) (n : Nat) : zextWord (x.setWidth n) = x &&& BitVec.ofNat 64 (2 ^ n - 1) := by
  apply BitVec.eq_of_getLsbD_eq
  intro i hi
  simp only [zextWord, BitVec.getLsbD_setWidth, BitVec.getLsbD_and, BitVec.getLsbD_ofNat, Nat.testBit_two_pow_sub_one, hi, decide_true, Bool.true_and]
  exact Bool.and_comm ..

theorem lihi_eq (x : Word) (i : BitVec 18) : (x <<< 18) ||| zextWord i = BitVec.ofNat 64 (x.toNat * 2 ^ 18 + i.toNat) := by
  rw [show x.toNat * 2 ^ 18 + i.toNat = (x ++ i).toNat from (toNat_append_eq_add x i).symm]
  apply BitVec.eq_of_getLsbD_eq
  intro j hj
  simp [zextWord]
  grind

/-- Register arithmetic of R78 and R79: the model's operation on its operands gives the value of the table. -/
theorem exec_arithmetic {i : Instr} {v : Word} (h : arithmetic s i = some (e, d, v)) : exec i s = Wrote s e (s.hart.regs.setG d v) := by
  unfold arithmetic at h
  split at h
  case h_32 => cases h
  all_goals cases h
  case h_10 => exact wrote_setG (shiftArith_eq ..) -- SRA
  case h_13 => exact wrote_setG (boolWord_slt ..) -- SLT
  case h_14 => exact wrote_setG (boolWord_ult ..) -- SLTN
  case h_15 => exact wrote_setG (signedMin_eq ..) -- MIN
  case h_16 => exact wrote_setG (signedMax_eq ..) -- MAX
  case h_17 => exact wrote_setG (unsignedMin_eq ..) -- MINN
  case h_18 => exact wrote_setG (unsignedMax_eq ..) -- MAXN
  case h_19 => exact wrote_setG (mul_eq_ofNat ..) -- MUL
  case h_22 => exact wrote_setG (signedDiv_eq ..) -- DIV
  case h_23 => exact wrote_setG (unsignedDiv_eq ..) -- DIVN
  case h_24 => exact wrote_setG (signedRem_eq ..) -- REM
  case h_25 => exact wrote_setG (unsignedRem_eq ..) -- REMN
  case h_29 => exact wrote_setG (zextWord_setWidth_eq_and ..) -- ZEXT8
  case h_30 => exact wrote_setG (zextWord_setWidth_eq_and ..) -- ZEXT16
  case h_31 => exact wrote_setG (zextWord_setWidth_eq_and ..) -- ZEXT32
  all_goals rfl

/-- The immediate and constant forms of R81 to R84. -/
theorem exec_constant {i : Instr} {v : Word} (h : constant s i = some (e, d, v)) : exec i s = Wrote s e (s.hart.regs.setG d v) := by
  unfold constant at h
  split at h
  case h_14 => cases h
  all_goals cases h
  case h_5 => exact wrote_setG (boolWord_slti ..) -- SLTI
  case h_6 => exact wrote_setG (boolWord_ult ..) -- SLTNI
  case h_9 => exact wrote_setG (shiftArith_eq ..) -- SRAI
  case h_12 => exact wrote_setG (lihi_eq ..) -- LIHI
  case h_13 => exact wrote_setG (targetOf_eq_away ..) -- ADDPC
  all_goals rfl

end Sys2Proof.Machine

open Sys2Proof Sys2Proof.Machine Sys2Proof.Claims in
/-- Settles O2: each member writes what its operation gives, which is the value of the table. -/
theorem arithmeticResults : Obligations.ArithmeticResults :=
  fun _ _ _ _ _ h => h.elim exec_arithmetic exec_constant

namespace Sys2Proof.Machine
open Sys2Proof.Claims

/-! ## Bits and bytes of a word (R78) -/

/-- Bits above the highest one bit are clear, and it is set. -/
theorem leadingZeros_spec (a : Word) : ∃ n, n ≤ 64 ∧ (∀ k, k < n → a.getLsbD (63 - k) = false) ∧ (n < 64 → a.getLsbD (63 - n) = true) ∧
    leadingZeros a = BitVec.ofNat 64 n := by
  by_cases ha : a = 0
  · exact ⟨64, le_rfl, by simp [ha], by simp, by rw [leadingZeros, if_pos ha]; rfl⟩
  · have hne : a.toNat ≠ 0 := fun h => ha (BitVec.eq_of_toNat_eq h)
    have hlog : Nat.log2 a.toNat < 64 := (Nat.log2_lt hne).2 a.isLt
    refine ⟨63 - Nat.log2 a.toNat, by omega, fun k hk => ?_, fun _ => ?_, by rw [leadingZeros, if_neg ha]; rfl⟩
    · exact Nat.testBit_lt_two_pow ((Nat.log2_lt hne).1 (by omega))
    · rw [show 63 - (63 - Nat.log2 a.toNat) = Nat.log2 a.toNat by omega]
      exact Nat.testBit_log2 hne

/-- Bits below the lowest one bit are clear, and it is set. -/
theorem trailingZeros_spec (a : Word) : ∃ n, n ≤ 64 ∧ (∀ k, k < n → a.getLsbD k = false) ∧ (n < 64 → a.getLsbD n = true) ∧
    trailingZeros a = BitVec.ofNat 64 n := by
  unfold trailingZeros
  cases h : (List.range 64).find? fun i => a.getLsbD i with
  | none =>
    refine ⟨64, le_rfl, fun k hk => ?_, by simp, rfl⟩
    simpa using List.find?_eq_none.1 h k (List.mem_range.2 hk)
  | some n =>
    obtain ⟨hbit, hn, hbelow⟩ := List.find?_range_eq_some.1 h
    exact ⟨n, (List.mem_range.1 hn).le, fun k hk => by simpa using hbelow k hk, fun _ => hbit, rfl⟩

/-- Elements of `Fin n` counted are numbers below `n` counted. -/
theorem card_filter_fin (n : Nat) (p : Nat → Bool) : (Finset.univ.filter fun k : Fin n => p k.val = true).card = ((List.range n).filter p).length := by
  rw [Finset.card_filter, Fin.sum_univ_eq_sum_range (fun k => if p k = true then 1 else 0) n, ← Finset.card_filter]
  exact congrArg List.length (List.filter_congr fun k _ => Bool.decide_eq_true)

theorem onesCount_eq (a : Word) : onesCount a = BitVec.ofNat 64 (Finset.univ.filter fun k : Fin 64 => a.getLsbD k.val = true).card :=
  congrArg _ (card_filter_fin 64 a.getLsbD).symm

/-- Byte `k` of a number that bytes hold. -/
theorem bytesToNat_div_mod (bs : List Byte) (k : Nat) (hk : k < bs.length) : bytesToNat bs / 2 ^ (8 * k) % 2 ^ 8 = bs[k].toNat := by
  induction bs generalizing k with
  | nil => cases hk
  | cons b bs ih =>
    have hb := b.isLt
    cases k with
    | zero => simp [bytesToNat]; omega
    | succ k =>
      have hdiv : bytesToNat (b :: bs) / 2 ^ (8 * (k + 1)) = bytesToNat bs / 2 ^ (8 * k) := by
        rw [bytesToNat, Nat.mul_succ, Nat.add_comm (8 * k), Nat.pow_add, ← Nat.div_div_eq_div_mul]
        congr 1
        omega
      rw [hdiv]
      exact ih k (Nat.lt_of_succ_lt_succ hk)

/-- Byte `k` of a word that bytes hold. -/
theorem extractLsb'_bytesToNat (bs : List Byte) {k : Nat} (hk : k < bs.length) (h8 : k < 8) :
    (BitVec.ofNat 64 (bytesToNat bs)).extractLsb' (8 * k) 8 = bs[k] := by
  apply BitVec.eq_of_getLsbD_eq
  intro i hi
  have hbit : bs[k].toNat.testBit i = (bytesToNat bs).testBit (8 * k + i) := by
    rw [← bytesToNat_div_mod bs k hk, Nat.testBit_mod_two_pow, Nat.testBit_div_two_pow]
    simp [hi, Nat.add_comm]
  rw [BitVec.getLsbD_extractLsb', BitVec.getLsbD_ofNat, ← hbit]
  simp only [hi, show 8 * k + i < 64 by omega, decide_true, Bool.true_and]
  rfl

theorem natToBytes_getElem (x n k : Nat) (hk : k < (natToBytes x n).length) : (natToBytes x n)[k] = BitVec.ofNat 8 (x / 2 ^ (8 * k)) := by
  induction n generalizing x k with
  | zero => cases hk
  | succ n ih =>
    cases k with
    | zero => simp [natToBytes]
    | succ k =>
      rw [Nat.mul_succ, Nat.add_comm (8 * k), Nat.pow_add, ← Nat.div_div_eq_div_mul]
      exact ih (x / 256) k (Nat.lt_of_succ_lt_succ hk)

theorem wordBytes_getElem (a : Word) (k : Nat) (hk : k < (wordBytes a).length) : (wordBytes a)[k] = a.extractLsb' (8 * k) 8 := by
  apply BitVec.eq_of_toNat_eq
  simp only [wordBytes]
  rw [natToBytes_getElem, BitVec.toNat_ofNat, BitVec.extractLsb'_toNat, Nat.shiftRight_eq_div_pow]

theorem byteSwap_spec (a : Word) {k : Nat} (hk : k < 8) : (byteSwap a).extractLsb' (8 * k) 8 = a.extractLsb' (8 * (7 - k)) 8 := by
  have hlen : (wordBytes a).length = 8 := natToBytes_length ..
  rw [byteSwap, extractLsb'_bytesToNat _ (by simpa [hlen] using hk) hk, List.getElem_reverse, wordBytes_getElem]
  simp only [hlen, Nat.add_one_sub_one]

end Sys2Proof.Machine

open Sys2Proof Sys2Proof.Machine Sys2Proof.Claims in
/-- Settles O3: each count and the byte reversal by the bits of the operand. -/
theorem bitCountResults : Obligations.BitCountResults := by
  intro e d a s
  obtain ⟨l, hl, hlow, hbit, heq⟩ := leadingZeros_spec (s.g a)
  obtain ⟨t, ht, tlow, tbit, teq⟩ := trailingZeros_spec (s.g a)
  exact ⟨⟨l, hl, hlow, hbit, wrote_setG heq⟩, ⟨t, ht, tlow, tbit, wrote_setG teq⟩, wrote_setG (onesCount_eq _),
    ⟨byteSwap (s.g a), fun _ => byteSwap_spec _, rfl⟩⟩

open Sys2Proof Sys2Proof.Machine Sys2Proof.Claims in
/-- Settles O4: the three have one form, which decides by the exact result whether it writes or traps. -/
theorem checkedArithmetic : Obligations.CheckedArithmetic := by
  intro e d a b s i x h
  have hexec : exec i s = member e (if -(2 ^ 63) ≤ x ∧ x < 2 ^ 63 then .ok (s.setG d (BitVec.ofInt 64 x)) else .trap (.own 0x0D 0) s) := by
    rcases h with ⟨rfl, rfl⟩ | ⟨rfl, rfl⟩ | ⟨rfl, rfl⟩ <;> rfl
  rw [hexec]
  refine ⟨fun hfits => ⟨BitVec.ofInt 64 x, FitsWord.toInt hfits, ?_⟩, fun hout hq => ?_⟩
  · rw [if_pos hfits]
    rfl
  · rw [if_neg hout, member_trap hq]
end

section
/-!
Branches, loops and system members (R90 to R106), and the frame of the members that write one scalar register. With O10, O12, O13, O15 and O20.
-/
namespace Sys2Proof.Machine
open Sys2Proof.Claims

/-! ## The registers of the loop levels (R103 to R106) -/

/-- Of the registers, at most the levels' counts and active bits differ. -/
def Regs.SameButLevels (r q : Regs) : Prop :=
  ∃ c0 c1 u, q = { r with lc0 := c0, lc1 := c1, tstat := u } ∧ ∀ b, b ≠ 2 → b ≠ 3 → u.getLsbD b = r.tstat.getLsbD b

namespace Regs

variable {r q p : Regs} (k : Level)

theorem SameButLevels.refl (r : Regs) : r.SameButLevels r := ⟨_, _, _, rfl, fun _ _ _ => rfl⟩

theorem SameButLevels.trans (h : r.SameButLevels q) (h' : q.SameButLevels p) : r.SameButLevels p := by
  obtain ⟨c0, c1, u, rfl, hu⟩ := h
  obtain ⟨c0', c1', u', rfl, hu'⟩ := h'
  exact ⟨_, _, _, rfl, fun b h2 h3 => (hu' b h2 h3).trans (hu b h2 h3)⟩

theorem sameButLevels_setLc (r : Regs) (v : Word) : r.SameButLevels (r.setLc k v) := by
  cases k <;> exact ⟨_, _, _, rfl, fun _ _ _ => rfl⟩

theorem sameButLevels_setLa (r : Regs) (b : Bool) : r.SameButLevels (r.setLa k b) := by
  cases k
  case false => exact ⟨_, _, _, rfl, fun j h2 _ => (getLsbD_setBit _ _ _ _ (by decide)).trans (if_neg h2)⟩
  case true => exact ⟨_, _, _, rfl, fun j _ h3 => (getLsbD_setBit _ _ _ _ (by decide)).trans (if_neg h3)⟩

theorem sameButLevels_endLevel (r : Regs) : r.SameButLevels (r.endLevel k).1 := by
  by_cases h : r.lc k = 1
  · rw [endLevel_of_one h]
    exact (sameButLevels_setLc k r 0).trans (sameButLevels_setLa k _ false)
  · rw [endLevel_of_ne h]
    exact sameButLevels_setLc k r _

/-- End processing changes the levels alone (R105). -/
theorem sameButLevels_loopEnd (r : Regs) (a : Word) : r.SameButLevels (r.loopEnd a).1 := by
  have one {k : Level} {r q : Regs} {y : Option Word} (h : r.endLevel k = (q, y)) : r.SameButLevels q := by
    have key := sameButLevels_endLevel k r
    rwa [h] at key
  unfold loopEnd
  split
  · split
    · exact one ‹_›
    · have h1 := one ‹_›
      split
      · split <;> exact h1.trans (one ‹_›)
      · exact h1
  · split
    · split <;> exact one ‹_›
    · exact .refl r

/-- A transfer from `a` to `t` leaves a level. -/
def leavesBody (r : Regs) (k : Level) (a t : Word) : Bool := r.la k && r.inBody k a && !r.inBody k t

variable {k} {a t : Word}

theorem leaveLevel_of_leaves (h : r.leavesBody k a t = true) : r.leaveLevel k a t = (r.setLa k false).setLc k 0 := if_pos h

theorem leaveLevel_of_stays (h : r.leavesBody k a t = false) : r.leaveLevel k a t = r := if_neg (by rw [leavesBody] at h; simp [h])

theorem sameButLevels_leaveLevel (r : Regs) (k : Level) (a t : Word) : r.SameButLevels (r.leaveLevel k a t) := by
  cases h : r.leavesBody k a t
  · rw [leaveLevel_of_stays h]
    exact .refl r
  · rw [leaveLevel_of_leaves h]
    exact (sameButLevels_setLa k r false).trans (sameButLevels_setLc k _ 0)

/-- A transfer changes the levels alone (R106). -/
theorem sameButLevels_leave (r : Regs) (a t : Word) : r.SameButLevels (r.leave a t) :=
  (sameButLevels_leaveLevel r false a t).trans (sameButLevels_leaveLevel _ true a t)

variable (r k a t) (j : Level)

theorem la_leaveLevel : (r.leaveLevel k a t).la j = if j = k then r.la k && !r.leavesBody k a t else r.la j := by
  cases h : r.leavesBody k a t
  · rw [leaveLevel_of_stays h]
    split <;> simp [*]
  · simp [leaveLevel_of_leaves h]

theorem lc_leaveLevel : (r.leaveLevel k a t).lc j = if j = k ∧ r.leavesBody k a t = true then 0 else r.lc j := by
  cases h : r.leavesBody k a t
  · simp [leaveLevel_of_stays h]
  · simp [leaveLevel_of_leaves h]

theorem inBody_leaveLevel (x : Word) : (r.leaveLevel k a t).inBody j x = r.inBody j x := by
  cases h : r.leavesBody k a t
  · simp [leaveLevel_of_stays h]
  · simp [leaveLevel_of_leaves h, inBody]

/-- Whether a transfer leaves one level does not depend on the other. -/
theorem leavesBody_leaveLevel (h : j ≠ k) : (r.leaveLevel k a t).leavesBody j a t = r.leavesBody j a t := by
  simp [leavesBody, la_leaveLevel, inBody_leaveLevel, h]

theorem la_leave : (r.leave a t).la k = (r.la k && !r.leavesBody k a t) := by
  cases k <;> simp [leave, la_leaveLevel, leavesBody_leaveLevel]

theorem lc_leave : (r.leave a t).lc k = if r.leavesBody k a t = true then 0 else r.lc k := by
  cases k <;> simp [leave, lc_leaveLevel, leavesBody_leaveLevel]

/-! ## A level opened (R103) -/

/-- Level `k` set up by LOOP or LOOPI, before it becomes active. -/
def setUp (r : Regs) (k : Level) (start last count : Word) : Regs := ((r.setLs k start).setLe k last).setLc k count

variable (start last count : Word)

theorem ls_setUp : (r.setUp k start last count).ls j = if j = k then start else r.ls j := by cases j <;> cases k <;> rfl
theorem le_setUp : (r.setUp k start last count).le j = if j = k then last else r.le j := by cases j <;> cases k <;> rfl
theorem lc_setUp : (r.setUp k start last count).lc j = if j = k then count else r.lc j := by cases j <;> cases k <;> rfl
theorem la_setUp : (r.setUp k start last count).la j = r.la j := by cases k <;> rfl
theorem gpr_setUp : (r.setUp k start last count).gpr = r.gpr := by cases k <;> rfl
theorem lr_setUp : (r.setUp k start last count).lr = r.lr := by cases k <;> rfl
theorem tstat_setUp : (r.setUp k start last count).tstat = r.tstat := by cases k <;> rfl

end Regs

end Sys2Proof.Machine

open Sys2Proof Sys2Proof.Machine Sys2Proof.Claims in
/-- Settles O12: each level is left or kept by its own body, whatever becomes of the other. -/
theorem transferEndsLevels : Obligations.TransferEndsLevels := by
  intro r a t k ends
  have hends : ends = r.leavesBody k a t := by simp only [ends, Regs.leavesBody, Regs.inBody, Bool.and_assoc]
  rw [hends]
  exact ⟨r.la_leave k a t, r.lc_leave k a t, r.sameButLevels_leave a t⟩

namespace Sys2Proof.Machine
open Sys2Proof.Claims

variable {s : State}

/-! ## Branches (R90) -/

theorem branch_eq {c : Word → Word → Bool} {taken e : Bool} {a b : GReg} {o : BitVec 11} (h : c (s.g a) (s.g b) = taken) :
    branch c e a b o s = if taken then Transfers s (away s o.toInt) else .next (s.retire e) := by
  rw [branch, h, targetOf_eq_away]
  cases taken <;> rfl

theorem not_slt (x y : Word) : (!x.slt y) = decide (y.toInt ≤ x.toInt) := by
  rw [BitVec.slt, ← decide_not, decide_eq_decide, not_lt]

theorem not_ult (x y : Word) : (!x.ult y) = decide (y.toNat ≤ x.toNat) := by
  rw [BitVec.ult, ← decide_not, decide_eq_decide, not_lt]

/-! ## The privileged trap (R75) -/

theorem privileged_of_user (h : s.hart.regs.tstat.getLsbD 0 = false) (w : Code) (k : State → Res) :
    privileged s w k = .trap (.own 0x05 (wordTval w s.hart.member)) s := if_neg (by rw [Regs.supervisor, h]; decide)

/-! ## Loops (R103, R104) -/

/-- LOOP and LOOPI in one form. -/
theorem exec_loop {e l : Bool} {a : GReg} {o : BitVec 11} {c o' : BitVec 12} {i : Instr} {count : Word} {n : Nat}
    (h : i = .loop e l a o ∧ count = s.g a ∧ n = o.toNat ∨ i = .loopi e l c o' ∧ count = c.setWidth 64 ∧ n = o'.toNat) :
    exec i s = member e (openLoop s l count n) := by
  rcases h with ⟨rfl, rfl, rfl⟩ | ⟨rfl, rfl, rfl⟩ <;> rfl

/-- Level `l` fits into the other level, where that is active (R104). -/
def Nests (s : State) (l : Level) (n : Nat) : Prop :=
  s.hart.regs.la (!l) = true → s.hart.regs.ls (!l) ≤ s.hart.pc ∧ s.hart.pc + BitVec.ofNat 64 (4 * n) < s.hart.regs.le (!l)

/-- The registers that LOOP and LOOPI leave. -/
def opened (s : State) (l : Level) (count : Word) (n : Nat) : Regs :=
  let r := s.hart.regs.setUp l (s.hart.pc + 4) (s.hart.pc + BitVec.ofNat 64 (4 * n)) count
  if count = 0 then r else r.setLa l true

variable {l : Level} {count : Word} {n : Nat}

theorem openLoop_of_active (h : s.hart.regs.la l = true) : openLoop s l count n = .trap (.own 0x1B 0) s := if_pos h

theorem openLoop_of_crossing (h : s.hart.regs.la l = false) (hn : ¬ Nests s l n) : openLoop s l count n = .trap (.own 0x1B 0) s := by
  obtain ⟨hla, hbody⟩ := Classical.not_imp.1 hn
  have hc : (s.hart.regs.la (!l) && !(decide (s.hart.regs.ls (!l) ≤ s.hart.pc) &&
      decide (s.hart.pc + BitVec.ofNat 64 (4 * n) < s.hart.regs.le (!l)))) = true := by
    rw [hla, Bool.true_and, Bool.not_eq_true', ← Bool.decide_and]
    exact decide_eq_false hbody
  exact (if_neg (by rw [h]; decide)).trans (if_pos hc)

theorem openLoop_of_nests (h : s.hart.regs.la l = false) (hn : Nests s l n) :
    openLoop s l count n = .jump (s.modRegs fun _ => opened s l count n)
      (if count = 0 then s.hart.pc + BitVec.ofNat 64 (4 * n) + 4 else s.hart.pc + 4) := by
  have hc : ¬ (s.hart.regs.la (!l) && !(decide (s.hart.regs.ls (!l) ≤ s.hart.pc) &&
      decide (s.hart.pc + BitVec.ofNat 64 (4 * n) < s.hart.regs.le (!l)))) = true := by
    simpa [Nests] using hn
  refine (if_neg (by rw [h]; decide)).trans ((if_neg hc).trans ?_)
  unfold opened
  split <;> rfl

variable (s l count n) (j : Level)

theorem ls_opened : (opened s l count n).ls j = if j = l then s.hart.pc + 4 else s.hart.regs.ls j := by
  unfold opened
  split <;> simp [Regs.ls_setUp]

theorem le_opened : (opened s l count n).le j = if j = l then s.hart.pc + BitVec.ofNat 64 (4 * n) else s.hart.regs.le j := by
  unfold opened
  split <;> simp [Regs.le_setUp]

theorem lc_opened : (opened s l count n).lc j = if j = l then count else s.hart.regs.lc j := by
  unfold opened
  split <;> simp [Regs.lc_setUp]

theorem la_opened : (opened s l count n).la j = if j = l ∧ count ≠ 0 then true else s.hart.regs.la j := by
  unfold opened
  split
  case isTrue hc => simp [Regs.la_setUp, hc]
  case isFalse hc => by_cases hj : j = l <;> simp [Regs.la_setUp, hj, show ¬ count = 0#64 from hc]

/-- Opening a level leaves the scalar registers, LR and the other bits of TSTAT (R103). -/
theorem opened_frame : (opened s l count n).gpr = s.hart.regs.gpr ∧ (opened s l count n).lr = s.hart.regs.lr ∧
    ∀ b, b ≠ 2 → b ≠ 3 → (opened s l count n).tstat.getLsbD b = s.hart.regs.tstat.getLsbD b := by
  have hset := Regs.gpr_setUp s.hart.regs l (s.hart.pc + 4) (s.hart.pc + BitVec.ofNat 64 (4 * n)) count
  have hlr := Regs.lr_setUp s.hart.regs l (s.hart.pc + 4) (s.hart.pc + BitVec.ofNat 64 (4 * n)) count
  have htstat := Regs.tstat_setUp s.hart.regs l (s.hart.pc + 4) (s.hart.pc + BitVec.ofNat 64 (4 * n)) count
  unfold opened
  split
  · exact ⟨hset, hlr, fun b _ _ => by rw [htstat]⟩
  · obtain ⟨c0, c1, u, hu, hbits⟩ := Regs.sameButLevels_setLa l
      (s.hart.regs.setUp l (s.hart.pc + 4) (s.hart.pc + BitVec.ofNat 64 (4 * n)) count) true
    simp only [hu]
    exact ⟨hset, hlr, fun b h2 h3 => (hbits b h2 h3).trans (by rw [htstat])⟩

end Sys2Proof.Machine

open Sys2Proof Sys2Proof.Machine Sys2Proof.Claims in
/-- Settles O10: the model's condition of each branch is that of R90. -/
theorem branchResults : Obligations.BranchResults := by
  intro i s e o c h
  unfold condition at h
  split at h
  case h_7 => cases h
  all_goals cases h
  case h_1 => exact branch_eq (by rw [Bool.beq_eq_decide_eq])
  case h_2 => exact branch_eq (by simp only [bne, Bool.beq_eq_decide_eq, decide_not])
  case h_3 => exact branch_eq rfl
  case h_4 => exact branch_eq (c := fun x y => !x.slt y) (not_slt ..)
  case h_5 => exact branch_eq rfl
  case h_6 => exact branch_eq (c := fun x y => !x.ult y) (not_ult ..)

open Sys2Proof Sys2Proof.Machine Sys2Proof.Claims in
/-- Settles O13: of the three cases of R103 and R104 each is the one that `openLoop` takes. -/
theorem loopResults : Obligations.LoopResults := by
  intro e l a o c o' s i count n h p r last nests
  rw [exec_loop h]
  refine ⟨fun hla hq => ?_, fun hla hn hq => ?_, fun hla hn => ?_⟩
  · rw [openLoop_of_active hla, member_trap hq]
  · rw [openLoop_of_crossing hla hn, member_trap hq]
  · rw [openLoop_of_nests hla hn]
    obtain ⟨hgpr, hlr, hbits⟩ := opened_frame s l count n
    have hother : (!l) ≠ l := by cases l <;> decide
    have hopen : (if l = l ∧ count ≠ 0 then true else s.hart.regs.la l) = decide (count ≠ 0) := by
      rw [show s.hart.regs.la l = false from hla]
      by_cases hc : count = 0 <;> simp [hc]
    refine ⟨_, rfl, rfl, (ls_opened ..).trans (if_pos rfl), (le_opened ..).trans (if_pos rfl), (lc_opened ..).trans (if_pos rfl),
      (la_opened ..).trans hopen, rfl, rfl, (ls_opened ..).trans (if_neg hother), (le_opened ..).trans (if_neg hother),
      (lc_opened ..).trans (if_neg hother), (la_opened ..).trans (if_neg fun hc => hother hc.1), hgpr, hlr, hbits⟩

open Sys2Proof Sys2Proof.Machine Sys2Proof.Claims in
/-- Settles O15: NOP and WINB complete at once, WAIT, HALT and RFT where the hart is settled, HALT and RFT by its mode. -/
theorem systemResults : Obligations.SystemResults := by
  intro e w s
  refine ⟨rfl, rfl, fun hs => ?_, fun hs hsup => ?_, fun hq huser => ⟨?_, ?_⟩⟩
  · change member e (settled s _) = _
    rw [settled_eq hs]
    rfl
  · change member e (settled s _) = _
    rw [settled_eq hs, privileged_of_supervisor hsup]
    rfl
  · change member e (settled s _) = _
    rw [settled_eq hq.1, privileged_of_user huser, own_eq_privilegedTrap (i := .halt e) rfl, member_trap hq]
  · change member e (settled s _) = _
    rw [settled_eq hq.1, privileged_of_user huser, own_eq_privilegedTrap (i := .rft e) rfl, member_trap hq]

namespace Sys2Proof.Machine
open Sys2Proof.Claims

/-! ## The frame of a member that writes one scalar register (R44, R105) -/

/-- Completion changes the hart's position and, at the end of a convoy, the registers of the levels (R44, R105). -/
theorem retire_frame (s : State) (e : Bool) :
    s.retire e = { s with hart := { s.hart with
      regs := (s.retire e).hart.regs, pc := (s.retire e).hart.pc, convoy := (s.retire e).hart.convoy, member := (s.retire e).hart.member
      issued := (s.retire e).hart.issued, elix := 0, m15only := false, waiting := .none, cut := none, walk := none } } := by
  cases e <;> rfl

/-- What completion leaves of the registers. -/
theorem retire_regs_spec (s : State) (e : Bool) : ∃ c0 c1 u, (s.retire e).hart.regs = { s.hart.regs with lc0 := c0, lc1 := c1, tstat := u } ∧
    (∀ b, b ≠ 2 → b ≠ 3 → u.getLsbD b = s.hart.regs.tstat.getLsbD b) ∧
    (e = false → c0 = s.hart.regs.lc0 ∧ c1 = s.hart.regs.lc1 ∧ u = s.hart.regs.tstat) := by
  rw [State.retire_regs]
  cases e
  case false => exact ⟨_, _, _, rfl, fun _ _ _ => rfl, fun _ => ⟨rfl, rfl, rfl⟩⟩
  case true =>
    obtain ⟨c0, c1, u, h, hu⟩ := s.hart.regs.sameButLevels_loopEnd s.hart.pc
    exact ⟨c0, c1, u, h, hu, by rintro ⟨⟩⟩

theorem setG_eq (r : Regs) (d : GReg) (v : Word) : r.setG d v = { r with gpr := (r.setG d v).gpr } := by
  unfold Regs.setG
  split <;> rfl

/-- The members that write one scalar register, MFS in supervisor mode among them, complete with some value of it. -/
theorem exec_of_scalarResult {i : Instr} {s : State} {e : Bool} {d : GReg} {v : Word}
    (h : arithmetic s i = some (e, d, v) ∨ constant s i = some (e, d, v) ∨ ∃ n, i = .mfs e d n ∧ s.hart.regs.tstat.getLsbD 0 = true) :
    ∃ w, exec i s = Wrote s e (s.hart.regs.setG d w) := by
  rcases h with h | h | ⟨n, rfl, hsup⟩
  · exact ⟨v, exec_arithmetic h⟩
  · exact ⟨v, exec_constant h⟩
  · exact ⟨s.readSpecial n, execMfs_of_permitted e d (.inr hsup)⟩

end Sys2Proof.Machine

open Sys2Proof Sys2Proof.Machine Sys2Proof.Claims in
/-- Settles O20: the frame of the one register write, and that of completion. -/
theorem scalarResultFrame : Obligations.ScalarResultFrame := by
  intro i s t e d v h hexec
  obtain ⟨w, hw⟩ := exec_of_scalarResult h
  obtain rfl : (s.setG d w).retire e = t := by
    rw [hw] at hexec
    exact Host.Outcome.next.inj hexec
  obtain ⟨c0, c1, u, hregs, hu, hsame⟩ := retire_regs_spec (s.setG d w) e
  have hsetG : (s.setG d w).hart.regs = { s.hart.regs with gpr := (s.hart.regs.setG d w).gpr } := setG_eq ..
  rw [hsetG] at hregs hu hsame
  refine ⟨fun k hk => ?_, ⟨_, c0, c1, u, hregs, hu, hsame⟩, retire_frame .., fun a => ?_⟩
  · rw [State.retire_gpr]
    exact Regs.gpr_setG _ _ _ _ hk
  · rw [State.retire_mem, State.setG_mem]
end

section
/-!
Scalar loads and stores (R85 to R89). With O5 and O6.
-/
namespace Sys2Proof.Machine
open Sys2Proof.Claims

variable {s t u : State} {e : Bool} {d a b : GReg} {w : BitVec 3} {n x : Nat} {ea : Word} {r : Reached}

/-! ## Width codes and addresses (R85, R86) -/

/-- Code 7 alone has no size. -/
theorem size_of_ne : ∀ w : BitVec 3, w ≠ 7 → Claims.size w = some (widthBytes w) ∧ 0 < widthBytes w := by decide

theorem ne_of_size (h : Claims.size w = some n) : w ≠ 7 := by
  rintro rfl
  cases h

theorem widthBytes_of_size (h : Claims.size w = some n) : widthBytes w = n ∧ 0 < n := by
  obtain ⟨hw, hpos⟩ := size_of_ne w (ne_of_size h)
  obtain rfl := Option.some.inj (hw.symm.trans h)
  exact ⟨rfl, hpos⟩

theorem ofInt_toSigned (n x : Nat) : BitVec.ofInt 64 (toSigned n x) = (BitVec.ofNat n x).signExtend 64 := by
  rw [toSigned_eq_signed]
  rfl

theorem extendLoad_eq (h : w ≠ 7) (x : Nat) : extendLoad w x = extended w x := by
  have signed (n : Nat) := ofInt_toSigned n x
  have hw : w = 0 ∨ w = 1 ∨ w = 2 ∨ w = 3 ∨ w = 4 ∨ w = 5 ∨ w = 6 := by decide +revert
  rcases hw with rfl | rfl | rfl | rfl | rfl | rfl | rfl
  · exact signed 8
  · rfl
  · exact signed 16
  · rfl
  · exact signed 32
  · rfl
  · exact (signed 64).trans (BitVec.signExtend_eq _)

theorem mAddress_eq (h : Claims.size w = some n) (s : State) (a : GReg) (o : BitVec 8) : mAddress s a w o = s.g a + BitVec.ofInt 64 (o.toInt * n) := by
  rw [mAddress, (widthBytes_of_size h).1, BitVec.ofInt_mul]
  rfl

/-! ## Loads and stores (R85 to R88) -/

theorem crossesLine_eq_false (h : ea.toNat % 256 + n ≤ 256) : crossesLine ea n = false := decide_eq_false (by omega)

/-- A load that passes its checks reads the bytes of its place. -/
theorem scalarLoad_of_lands (hl : ea.toNat % 256 + n ≤ 256) (h : Lands s .read ea n t r) (hp : t.viewPoison ownScalar r.place n = false)
    (acquire : Bool) : s.scalarLoad ea n acquire = ((t.loadBytes acquire r.place n).1, .ok (bytesToNat (t.loadBytes acquire r.place n).2)) := by
  obtain ⟨v, hv, rfl⟩ := h
  simp [State.scalarLoad, crossesLine_eq_false hl, hv, hp]

theorem scalarLoad_of_loads (h : Loads s ea n u x) : s.scalarLoad ea n = (u, .ok x) := by
  obtain ⟨hl, t, r, ht, hp, rfl, rfl⟩ := h
  exact scalarLoad_of_lands hl ht hp false

theorem scalarLoad_of_acquires (h : Acquires s ea n u x) : s.scalarLoad ea n true = (u, .ok x) := by
  obtain ⟨hl, t, r, ht, hp, rfl, rfl⟩ := h
  exact scalarLoad_of_lands hl ht hp true

theorem loadTo_of_loads (hw : Claims.size w = some n) (h : Loads s ea n u x) : loadTo d w ea s = .ok (u.setG d (extended w x)) := by
  rw [← extendLoad_eq (ne_of_size hw), loadTo, (widthBytes_of_size hw).1, scalarLoad_of_loads h]

theorem storeFrom_of_lands (hw : Claims.size w = some n) (hs : Settled s) (hl : ea.toNat % 256 + n ≤ 256) (h : Lands s .write ea n u r) :
    storeFrom d w ea s = .ok (u.issueStore (scalarPending u r n (s.g d))) := by
  obtain ⟨v, hv, rfl⟩ := h
  rw [storeFrom, settled_eq hs, (widthBytes_of_size hw).1]
  simp only [State.scalarStore, crossesLine_eq_false hl, hv, Bool.false_eq_true, if_false]
  rfl

/-! ## A load that reads no overwritten value (R305, R311) -/

theorem Place.add_add (p : Place) (j k : Nat) : (p.add j).add k = p.add (j + k) := by
  cases p <;> simp [Place.add, Nat.add_assoc]

theorem Place.add_zero (p : Place) : p.add 0 = p := by cases p <;> rfl

theorem viewList_add (s : State) (sel : Pending → Bool) (p : Place) (m n : Nat) :
    s.viewList sel p (m + n) = s.viewList sel p m ++ s.viewList sel (p.add m) n := by
  induction m generalizing p with
  | zero => rw [Nat.zero_add, Place.add_zero]; rfl
  | succ m ih => rw [Nat.succ_add, State.viewList, State.viewList, ih, Place.add_add, Nat.add_comm 1 m]; rfl

/-- A value that touches a unit of the access touches the access. -/
theorem stale_of_unit {p : Place} {j m : Nat} (hs : s.stale p n = []) (hj : j + m ≤ n) : s.stale (p.add j) m = [] := by
  rw [State.stale, List.filter_eq_nil_iff] at *
  intro o ho hc
  refine hs o ho ?_
  simp only [Bool.and_eq_true, Old.touches, List.any_eq_true, List.mem_range] at *
  obtain ⟨⟨hw, k, hk, hbyte⟩, hr⟩ := hc
  exact ⟨⟨hw, j + k, by omega, by rwa [Place.add_add] at hbyte⟩, hr⟩

theorem readUnit_of_fresh {p : Place} (h : s.stale p n = []) (sel : Pending → Bool) : s.readUnit sel p n = (s.renewed p, s.viewList sel p n) := by
  rw [State.readUnit, h]

theorem renewed_of_no_object {p : Place} (h : s.objOf p = none) : s.renewed p = s := by
  rw [State.renewed, h]

/-- Units of one size read one after another, none of them of an object: the bytes as the hart sees them. -/
theorem readUnits_of_fresh {p : Place} (h : s.stale p n = []) (ho : ∀ k, k < n → s.objOf (p.add k) = none) (sel : Pending → Bool)
    (c : Nat) (hc : 0 < c) (m : Nat) (hm : c * m ≤ n) :
    ((List.range m).map fun k => (c * k, c)).foldl (fun r u => ((r.1.readUnit sel (p.add u.1) u.2).1, r.2 ++ (r.1.readUnit sel (p.add u.1) u.2).2)) (s, []) =
      (s, s.viewList sel p (c * m)) := by
  induction m with
  | zero => rfl
  | succ m ih =>
    rw [Nat.mul_succ] at hm
    rw [List.range_succ, List.map_append, List.foldl_append, ih (by omega), Nat.mul_succ, viewList_add]
    simp only [List.map_cons, List.map_nil, List.foldl_cons, List.foldl_nil, readUnit_of_fresh (stale_of_unit h hm), renewed_of_no_object (ho (c * m) (by omega))]

/-- A plain load of which no overwritten value can be read gives the bytes as the hart sees them. -/
theorem readList_of_fresh {p : Place} (hn : 0 < n) (h : s.stale p n = []) (hu : unitsOf p n = [(0, n)] ∨ ∀ k, k < n → s.objOf (p.add k) = none)
    (sel : Pending → Bool) : s.readList sel p n = (s.renewed p, s.viewList sel p n) := by
  have whole (hw : unitsOf p n = [(0, n)]) : s.readList sel p n = (s.renewed p, s.viewList sel p n) := by
    rw [State.readList, hw]
    simp only [List.foldl_cons, List.foldl_nil, Place.add_zero, readUnit_of_fresh h, List.nil_append]
  rcases hu with hw | ho
  · exact whole hw
  · have pieces := readUnits_of_fresh h ho sel
    have hr := renewed_of_no_object (Place.add_zero p ▸ ho 0 hn)
    by_cases h1 : (n = 1 ∨ n = 2 ∨ n = 4 ∨ n = 8) ∧ p.number % n = 0
    · exact whole (if_pos h1)
    · by_cases h8 : p.number % 8 = 0 ∧ n % 8 = 0
      · have key := pieces 8 (by decide) (n / 8) (by omega)
        rw [State.readList, unitsOf, if_neg h1, if_pos h8, hr]
        rw [show 8 * (n / 8) = n by omega] at key
        exact key
      · have key := pieces 1 (by decide) n (by omega)
        rw [State.readList, unitsOf, if_neg h1, if_neg h8, hr]
        simp only [Nat.one_mul] at key
        exact key

end Sys2Proof.Machine

open Sys2Proof Sys2Proof.Machine Sys2Proof.Claims in
/-- Settles O5: a load that passes its checks writes the number read, which is what the hart sees where no overwritten value can be read. -/
theorem scalarLoadResults : Obligations.ScalarLoadResults := by
  intro e d a b w o s u n x hw
  refine ⟨fun h => ?_, fun h => ?_, fun ea t r hl ht hp hstale hunits => ?_⟩
  · change member e (loadTo d w (mAddress s a w o) s) = _
    rw [mAddress_eq hw, loadTo_of_loads hw h]
    rfl
  · change member e (loadTo d w (s.g a + s.g b) s) = _
    rw [loadTo_of_loads hw h]
    rfl
  · have hread := readList_of_fresh (widthBytes_of_size hw).2 hstale hunits ownScalar
    exact ⟨hl, t, r, ht, hp, by rw [hread], by rw [hread]⟩

open Sys2Proof Sys2Proof.Machine Sys2Proof.Claims in
/-- Settles O6: a store that passes its checks is issued at its place. -/
theorem scalarStoreResults : Obligations.ScalarStoreResults := by
  intro e d a b w o s u n r ea hw hs hl h
  refine ⟨?_, ?_⟩
  · rintro rfl
    change member e (storeFrom d w (mAddress s a w o) s) = _
    rw [mAddress_eq hw, storeFrom_of_lands hw hs hl h]
    rfl
  · rintro rfl
    change member e (storeFrom d w (s.g a + s.g b) s) = _
    rw [storeFrom_of_lands hw hs hl h]
    rfl
end

section
/-!
What stores, filed events and the end of a crew leave of every hart (R306, R404, R433).
-/
namespace Sys2Proof.Machine

/-- A hart but for its watch and its pending stores, which alone the stores of any hart change of it. -/
def Hart.core (h : Hart) : Hart := { h with watch := none, stores := [] }

/-- Every hart is as it was, but for its watch and its pending stores. -/
structure KeepsHarts (s t : State) : Prop where
  hart : t.hart.core = s.hart.core
  others : t.others.map Hart.core = s.others.map Hart.core

namespace KeepsHarts

variable {s t u : State}

theorem refl (s : State) : KeepsHarts s s := ⟨rfl, rfl⟩

theorem trans (h : KeepsHarts s t) (k : KeepsHarts t u) : KeepsHarts s u := ⟨k.hart.trans h.hart, k.others.trans h.others⟩

theorem of_eq (hh : t.hart = s.hart) (ho : t.others = s.others) : KeepsHarts s t := ⟨by rw [hh], by rw [ho]⟩

theorem mapHarts {f : Hart → Hart} (hf : ∀ h, (f h).core = h.core) : KeepsHarts s (s.mapHarts f) :=
  ⟨hf s.hart, by rw [State.mapHarts_others, List.map_map]; exact List.map_congr_left fun h _ => hf h⟩

theorem foldl {β : Type} {f : State → β → State} (hf : ∀ s x, KeepsHarts s (f s x)) (l : List β) (s : State) : KeepsHarts s (l.foldl f s) := by
  induction l generalizing s with
  | nil => exact refl s
  | cons x l ih => exact (hf s x).trans (ih _)

/-- What holds of every hart, whatever it watches or has yet to store, still holds. -/
theorem forall_harts (h : KeepsHarts s t) {P : Hart → Prop} (hP : ∀ x ∈ s.harts, P x.core) : ∀ x ∈ t.harts, P x.core := by
  have hcores : t.harts.map Hart.core = s.harts.map Hart.core := by
    rw [State.harts, State.harts, List.map_cons, List.map_cons, h.hart, h.others]
  intro x hx
  obtain ⟨y, hy, hyx⟩ := List.mem_map.1 (hcores ▸ List.mem_map_of_mem hx)
  exact hyx ▸ hP y hy

theorem run (h : KeepsHarts s t) : t.hart.run = s.hart.run := (congrArg Hart.run h.hart :)
theorem id (h : KeepsHarts s t) : t.hart.id = s.hart.id := (congrArg Hart.id h.hart :)

end KeepsHarts

variable (s : State)

/-! ## Stores performed -/

theorem deviceWrite_others (off : Nat) (v : Word) : (s.deviceWrite off v).others = s.others := by
  unfold State.deviceWrite
  split
  · split <;> rfl
  · repeat' split
    all_goals rfl

theorem keepsHarts_wakeLines (p : Place) (n : Nat) : KeepsHarts s (s.wakeLines p n) := by
  refine .mapHarts fun h => ?_
  split
  · split <;> rfl
  · rfl

theorem keepsHarts_poke (p : Place) (data : List Byte) (tag : Bool) (owner : Nat) : KeepsHarts s (s.poke p data tag owner) := by
  unfold State.poke
  extract_lets n t
  split
  · exact .refl s
  · refine .trans ?_ (keepsHarts_wakeLines t p n)
    cases p with
    | pad t o => exact .of_eq rfl rfl
    | phys a =>
      change KeepsHarts s (if inScan a then _ else _)
      split
      · exact .of_eq (deviceWrite_hart ..) (deviceWrite_others ..)
      · exact .of_eq rfl rfl

theorem keepsHarts_setMemBit (owner a bit : Nat) : KeepsHarts s (s.setMemBit owner a bit) := by
  unfold State.setMemBit
  refine .trans ?_ (keepsHarts_wakeLines ..)
  exact .of_eq rfl rfl

theorem keepsHarts_setDirty (owner : Nat) (dirty : List (Nat × Nat)) : KeepsHarts s (s.setDirty owner dirty) :=
  .foldl (fun s (d : Nat × Nat) => keepsHarts_setMemBit s owner d.1 d.2) dirty s

theorem keepOld_others (w : Nat) (p : Place) (data : List Byte) : (s.keepOld w p data).others = s.others := by
  unfold State.keepOld
  split <;> rfl

theorem stampStore_others (w : Nat) (p : Place) : (s.stampStore w p).others = s.others := by
  unfold State.stampStore
  split
  · split <;> rfl
  · rfl

theorem keepsHarts_performOne (w : Nat) (q : Pending) : KeepsHarts s (s.performOne w q) := by
  unfold State.performOne
  split
  · exact .refl s
  · refine .trans (keepsHarts_setDirty s q.owner q.dirty) (.trans (.of_eq ?_ ?_) (keepsHarts_poke ..))
    · rw [stampStore_hart, keepOld_hart, forgetBy_hart]
    · rw [stampStore_others, keepOld_others]
      rfl

theorem keepsHarts_performAfter (fuel : Nat) (x : Nat × Pending) : KeepsHarts s (State.performAfter fuel s x) := by
  induction fuel generalizing s x with
  | zero => exact keepsHarts_performOne ..
  | succ n ih =>
    unfold State.performAfter
    split
    · exact keepsHarts_performOne ..
    · refine .trans (.trans ?_ (.foldl ih _ _)) (keepsHarts_performOne ..)
      exact .mapHarts fun _ => rfl

theorem keepsHarts_perform (q : Pending) : KeepsHarts s (s.perform q) := keepsHarts_performAfter ..

/-! ## Accesses of the device -/

theorem keepsHarts_setAccessed (owner : Nat) (ls : List Leaf) : KeepsHarts s (s.setAccessed owner ls).1 := by
  induction ls generalizing s with
  | nil => exact .refl s
  | cons l rest ih =>
    unfold State.setAccessed
    split
    · exact ih s
    · extract_lets byte
      split
      · exact ih s
      · split
        · exact .refl s
        · exact (keepsHarts_setMemBit ..).trans (ih _)

/-- An attempt keeps the harts, whether it fails or not; `at'` is the state in its result. -/
def AttemptsKeeping {α : Type} (s : State) (at' : α → State) (r : Except State α) : Prop :=
  (∀ a, r = .ok a → KeepsHarts s (at' a)) ∧ ∀ t, r = .error t → KeepsHarts s t

namespace AttemptsKeeping

variable {s} {α β : Type} {f : α → State} {g : β → State}

theorem ok {a : α} (h : KeepsHarts s (f a)) : AttemptsKeeping s f (.ok a) := ⟨by rintro _ ⟨⟩; exact h, by rintro _ ⟨⟩⟩

theorem error {t : State} (h : KeepsHarts s t) : AttemptsKeeping s f (.error t) := ⟨by rintro _ ⟨⟩, by rintro _ ⟨⟩; exact h⟩

theorem of_keeps {t : State} {r : Except State α} (h : KeepsHarts s t) (hr : AttemptsKeeping t f r) : AttemptsKeeping s f r :=
  ⟨fun a e => h.trans (hr.1 a e), fun u e => h.trans (hr.2 u e)⟩

theorem bind {r : Except State α} {k : α → Except State β} (hr : AttemptsKeeping s f r) (hk : ∀ a, AttemptsKeeping (f a) g (k a)) :
    AttemptsKeeping s g (r >>= k) := by
  cases r with
  | error t => exact error (hr.2 t rfl)
  | ok a => exact of_keeps (hr.1 a rfl) (hk a)

theorem map {r : Except State α} {k : α → β} (hr : AttemptsKeeping s f r) (hk : ∀ a, KeepsHarts (f a) (g (k a))) : AttemptsKeeping s g (r.map k) := by
  cases r with
  | error t => exact error (hr.2 t rfl)
  | ok a => exact ok ((hr.1 a rfl).trans (hk a))

end AttemptsKeeping

theorem deviceReach_keeping (c : Nat) (write plain : Bool) (x : Except XFail Xl) : AttemptsKeeping s (·.1) (s.deviceReach c write plain x) := by
  unfold State.deviceReach
  split
  · exact .error (.refl s)
  · rename_i x
    have key := keepsHarts_setAccessed s c x.leaves
    split
    · rename_i t _ h; rw [h] at key; exact .error key
    · rename_i t h
      rw [h] at key
      split
      · exact .error key
      · split
        · exact .error key
        · exact .ok key

theorem ctxWord_keeping (c va : Nat) (plain : Bool) : AttemptsKeeping s (·.1) (s.ctxWord c va plain) :=
  .map (f := (·.1)) (.map (f := (·.1)) (deviceReach_keeping ..) fun _ => .refl _) fun _ => .refl _

theorem ctxPut_keeping (c va v : Nat) (plain : Bool) : AttemptsKeeping s id (s.ctxPut c va v plain) :=
  .map (f := (·.1)) (deviceReach_keeping ..) fun _ => keepsHarts_perform ..

/-! ## Events filed -/

theorem ringPut_keeping (c : Ctx) (code addr src : Nat) : AttemptsKeeping s id (s.ringPut c code addr src) := by
  unfold State.ringPut
  extract_lets base n rest
  refine .bind (ctxWord_keeping ..) fun x => .bind (ctxPut_keeping ..) fun t => .bind (ctxWord_keeping ..) fun y => ?_
  have hrest (u : State) : AttemptsKeeping u id (rest u) := by
    refine .bind (ctxWord_keeping ..) fun z => ?_
    dsimp only
    split
    · exact .ok (.refl _)
    · refine .bind (ctxWord_keeping ..) fun p => .bind (ctxWord_keeping ..) fun c => ?_
      split
      · exact .bind (ctxPut_keeping ..) fun _ => .bind (ctxPut_keeping ..) fun _ => .bind (ctxPut_keeping ..) fun _ =>
          .bind (ctxPut_keeping ..) fun _ => ctxPut_keeping ..
      · exact .bind (ctxWord_keeping ..) fun _ => ctxPut_keeping ..
  dsimp only
  split
  · exact .bind (f := id) (.ok (.refl _)) hrest
  · exact .bind (ctxPut_keeping ..) hrest

theorem keepsHarts_fileIn (fuel n code addr src : Nat) : KeepsHarts s (s.fileIn fuel n code addr src) := by
  induction fuel generalizing s n code addr with
  | zero => exact .refl s
  | succ k ih =>
    unfold State.fileIn
    split
    · exact .refl s
    · rename_i c _
      split
      · exact .of_eq rfl rfl
      · extract_lets fatal t
        have put := ringPut_keeping s c code addr src
        have ht : KeepsHarts s t := by
          unfold t
          split
          · exact put.1 _ ‹_›
          · split
            · exact (put.2 _ ‹_›).trans (ih ..)
            · exact put.2 _ ‹_›
        split
        · split
          · refine ht.trans (.trans ?_ (ih ..))
            exact .of_eq rfl rfl
          · exact ht
        · exact ht

theorem keepsHarts_fileEvent (n code addr src : Nat) : KeepsHarts s (s.fileEvent n code addr src) := by
  unfold State.fileEvent
  split <;> exact keepsHarts_fileIn ..

/-! ## Frames and phases -/

theorem frameReach_keeping (h : Hart) (off : Nat) (write : Bool) : AttemptsKeeping s (·.1) (s.frameReach h off write) := by
  unfold State.frameReach
  split
  · split
    · exact .ok (.refl s)
    · exact .map (deviceReach_keeping ..) fun _ => keepsHarts_setDirty ..
  · exact .error (.refl s)

theorem frameWrite_keeping (h : Hart) (fuel off size : Nat) (img : Sparse Byte) : AttemptsKeeping s id (s.frameWrite h fuel off size img) := by
  induction fuel generalizing s off size img with
  | zero => exact .ok (.refl s)
  | succ n ih =>
    have key := frameReach_keeping s h off true
    unfold State.frameWrite
    split
    · exact .ok (.refl s)
    · dsimp only
      split
      · exact .error (key.2 _ ‹_›)
      · refine .of_keeps (key.1 _ ‹_›) (.of_keeps (.trans ?_ (keepsHarts_wakeLines ..)) (ih ..))
        exact .of_eq rfl rfl

theorem setFrameState_keeping (h : Hart) (n : Nat) : AttemptsKeeping s id (s.setFrameState h n) := frameWrite_keeping ..

theorem keepsHarts_outcome {r : Except State State} (h : AttemptsKeeping s id r) : KeepsHarts s (outcome r) := by
  cases r with
  | ok t => exact h.1 t rfl
  | error t => exact h.2 t rfl

theorem keepsHarts_settlePhase (crew k : Nat) : KeepsHarts s (s.settlePhase crew k) := by
  unfold State.settlePhase
  split
  · exact .refl s
  · dsimp only
    split <;> exact .of_eq rfl rfl

theorem keepsHarts_settlePhases (crew : Nat) : KeepsHarts s (s.settlePhases crew) :=
  .foldl (fun s k => keepsHarts_settlePhase s crew k) _ s

theorem keepsHarts_countStop (aborted faulted : Bool) : KeepsHarts s (s.countStop aborted faulted) := by
  unfold State.countStop
  split <;> exact .of_eq rfl rfl

/-- A hart that halts in the crown context stops for good (R71). -/
theorem run_crownHalt (t : Trap) : (s.crownHalt t).hart.run = .crownHalted := by
  unfold State.crownHalt
  extract_lets halted settled
  have hhalted : halted.hart.run = .crownHalted := (keepsHarts_countStop ..).run
  have hsettled : settled.hart.run = halted.hart.run :=
    ((keepsHarts_outcome halted (setFrameState_keeping ..)).trans (keepsHarts_settlePhases ..)).run
  rw [(keepsHarts_fileEvent ..).run, hsettled, hhalted]

end Sys2Proof.Machine
end

section
/-!
A translation that cannot be had yet is no trap (R424). With O7.
-/
namespace Sys2Proof.Machine
open Sys2Proof.Claims

/-! ## A translation that reads a table behind a host link (R424) -/

/-- The machine after reset, with the crown's root table behind host port 0, whose link is not up (R422, R424). -/
def State.rootBehindLink : State :=
  { State.reset with ctxs := State.reset.ctxs.map fun c => { c with stage := { c.stage with root := 4 * 2 ^ 48 } } }

/-- The walk cannot read its first entry, and waits for the link. -/
theorem lookup_rootBehindLink : State.rootBehindLink.lookup State.rootBehindLink.hart.ctx 0 = .error ⟨0xFF, 0, 0, 16⟩ := rfl

/-- A load there stays where it stands. -/
theorem exec_rootBehindLink : exec (.ld true 1 0 0 0) State.rootBehindLink = .next State.rootBehindLink := by with_unfolding_all rfl

/-- A trap whose cause no context can enable stops the hart for good (R71). -/
theorem run_trapPath_of_le_cause {s : State} {t : Trap} (ht : 64 ≤ t.cause.toNat) : (s.trapPath t).hart.run = .crownHalted := by
  have halts := run_crownHalt s t
  unfold State.trapPath
  extract_lets chain enables
  have henables : enables = fun _ => false := funext fun c => BitVec.getLsbD_of_ge c.enable _ ht
  generalize s.crownHalt t = u at *
  generalize List.drop (max t.stage 1) (chain.zip (List.range 4)) = above
  have hfind : above.find? (fun p => enables p.1) = none := by simp [henables]
  rw [hfind, henables]
  cases chain.head? <;> simpa using halts

/-- A trap of its cause would do so. -/
theorem run_deliver_rootBehindLink (rfm fr : Bool) (pages : List Word) (write : Bool) :
    (State.rootBehindLink.deliver ⟨0xFF, 0, 0, rfm, fr, pages, write⟩).hart.run = .crownHalted := by
  unfold State.deliver
  exact run_trapPath_of_le_cause (show 64 ≤ (0xFF#8).toNat by decide)

end Sys2Proof.Machine

open Sys2Proof Sys2Proof.Machine Sys2Proof.Claims in
/-- Refutes O7: a translation that reads a table behind a host link that is down is no trap, the load waits for the link (R424). -/
theorem not_scalarAccessTraps : ¬ Obligations.ScalarAccessTraps := by
  intro h
  obtain ⟨-, htrap⟩ := h true 1 0 0 0 0 State.rootBehindLink 1 0 (.ld true 1 0 0 0) rfl ⟨⟨rfl, rfl, rfl⟩, rfl⟩ (.inl ⟨rfl, .inl rfl⟩)
  obtain ⟨⟨_, _, _, rfm, fr, pages, write⟩, rfl, rfl, rfl, hexec⟩ := htrap ⟨0xFF, 0, 0, 16⟩ (by decide) rfl lookup_rootBehindLink
  rw [exec_rootBehindLink] at hexec
  have hrun := run_deliver_rootBehindLink rfm fr pages write
  rw [← Host.Outcome.next.inj hexec] at hrun
  exact absurd hrun (by decide)
end

section
/-!
The 32 atomics as one access (R87, R309 to R313, R423). With O21.
-/
namespace Sys2Proof.Machine
open Sys2Proof.Claims

/-! ## The 32 atomics -/

theorem amoMax_eq : amoMax = greater := by
  funext n o b _
  simp only [amoMax, greater, toSigned_eq_signed, signed]

theorem amoMin_eq : amoMin = lesser := by
  funext n o b _
  simp only [amoMin, lesser, toSigned_eq_signed, signed]

/-- Every atomic is the one access with its operation, its order and its form (R310, R312). -/
theorem exec_amo {i : Instr} {r : Amo} (h : amo i = some r) (s : State) :
    exec i s = atomic r.op r.native r.acquire r.release r.e r.d r.a r.b r.eight s := by
  suffices key : ∃ op, op = r.op ∧ exec i s = atomic op r.native r.acquire r.release r.e r.d r.a r.b r.eight s by
    obtain ⟨op, rfl, hexec⟩ := key
    exact hexec
  unfold amo at h
  split at h
  case h_33 => cases h
  all_goals obtain rfl := Option.some.inj h
  case h_6 | h_14 | h_22 | h_30 => exact ⟨amoMax, amoMax_eq, rfl⟩
  case h_7 | h_15 | h_23 | h_31 => exact ⟨amoMin, amoMin_eq, rfl⟩
  all_goals exact ⟨_, rfl, rfl⟩

variable {s t : State}

/-- An access of an atomic that the port of its place refuses (R423). -/
theorem access_of_refused {ea : Word} {n : Nat} {native : Bool} {x : Reached} {p : HostPort} (h : s.reach ea n .write = (t, .ok x))
    (hp : t.portAt x.place = some p) (hr : p.refuses native = true) :
    s.access ea n .write none (some native) = (t, .error (.trap (.own 0x0A ea))) := by
  unfold State.access
  simp [h, hp, hr]

theorem HostPort.refuses_of_mode {p : HostPort} {native : Bool} (hm : p.mode = 5 ∨ p.mode = 6 ∨ p.mode = 7) (hr : native = false ∨ p.atomicOps = false) :
    p.refuses native = true := by
  have h1 : [5, 6, 7].contains p.mode = true := by simpa using hm
  have h2 : (native && p.atomicOps) = false := by
    obtain rfl | h := hr
    · rfl
    · rw [h, Bool.and_false]
  rw [HostPort.refuses, h1, h2]
  rfl

end Sys2Proof.Machine

open Sys2Proof Sys2Proof.Machine Sys2Proof.Claims in
/-- Settles O21: each is the one access with its own operation, whose checks come in the order of R87. -/
theorem atomicResults : Obligations.AtomicResults := by
  intro i s r hi hs n
  rw [exec_amo hi]
  have hn : unitBytes r.eight = n := rfl
  refine ⟨fun hl ha => ?_, fun t x p hl ha hreach hport hmode hr => ?_, fun t x ha hx hplace hpois => ?_⟩
  · refine (congrArg (member r.e) (settled_eq hs _)).trans ?_
    rw [hn, if_pos ha]
    exact member_trap ⟨hs, hl⟩ ..
  · have hq : Quiet t := (congrArg Prod.fst hreach ▸ keepsExit_reach s ..).quiet ⟨hs, hl⟩
    refine (congrArg (member r.e) (settled_eq hs _)).trans ?_
    rw [hn, if_neg (not_not.2 ha), access_of_refused hreach hport (HostPort.refuses_of_mode hmode hr)]
    exact member_trap hq ..
  · refine (congrArg (member r.e) (settled_eq hs _)).trans ?_
    rw [hn, if_neg (not_not.2 ha), hx]
    dsimp only
    rw [if_neg hplace, hpois]
    simp only [Bool.false_eq_true, if_false, sextUnit, toSigned_eq_signed, lowBytes]
    rfl
end

section
/-!
What stores performed leave, and what a hart sees behind its own stores (R89, R306). With O9.
-/
namespace Sys2Proof.Machine
open Sys2Proof.Claims

/-! ## What performed stores leave (R89, R306) -/

/-- The stores issued and not performed, of every hart. -/
def State.issuedStores (s : State) : List Pending := s.harts.flatMap Hart.stores

/-- A place that is no device register (R420). -/
def Place.OffScan (p : Place) : Prop := ∀ a, p = .phys a → inScan a = false

/-- No store that waits would change a device register. -/
def State.StoresOffScan (s : State) : Prop := ∀ q ∈ s.issuedStores, q.place.OffScan

/-- What stores to memory and scratchpads leave: the package, the teams there are, and no store that was not there before. -/
structure PerformsStores (s t : State) : Prop where
  pkg : t.pkg = s.pkg
  teams : t.teams.map Team.id = s.teams.map Team.id
  own : t.hart.stores ⊆ s.hart.stores
  issued : t.issuedStores ⊆ s.issuedStores

namespace PerformsStores

variable {s t u : State}

theorem refl (s : State) : PerformsStores s s := ⟨rfl, rfl, List.Subset.refl _, List.Subset.refl _⟩

theorem trans (h : PerformsStores s t) (k : PerformsStores t u) : PerformsStores s u :=
  ⟨k.pkg.trans h.pkg, k.teams.trans h.teams, List.Subset.trans k.own h.own, List.Subset.trans k.issued h.issued⟩

theorem of_eq (hp : t.pkg = s.pkg) (ht : t.teams.map Team.id = s.teams.map Team.id) (hh : t.hart = s.hart) (ho : t.others = s.others) :
    PerformsStores s t := by
  refine ⟨hp, ht, ?_, ?_⟩
  · rw [hh]; exact List.Subset.refl _
  · rw [State.issuedStores, State.harts, hh, ho]; exact List.Subset.refl _

theorem mapHarts {f : Hart → Hart} (hf : ∀ h, (f h).stores ⊆ h.stores) : PerformsStores s (s.mapHarts f) := by
  refine ⟨rfl, rfl, hf s.hart, fun q hq => ?_⟩
  obtain ⟨x, hx, hqx⟩ := List.mem_flatMap.1 hq
  obtain ⟨y, hy, rfl⟩ := List.mem_map.1 (show x ∈ s.harts.map f from hx)
  exact List.mem_flatMap.2 ⟨y, hy, hf y hqx⟩

theorem modHart {f : Hart → Hart} (hf : (f s.hart).stores ⊆ s.hart.stores) : PerformsStores s (s.modHart f) := by
  refine ⟨rfl, rfl, hf, fun q hq => ?_⟩
  obtain ⟨x, hx, hqx⟩ := List.mem_flatMap.1 hq
  obtain rfl | hx := List.mem_cons.1 (show x ∈ f s.hart :: s.others from hx)
  · exact List.mem_flatMap.2 ⟨s.hart, List.mem_cons_self, hf hqx⟩
  · exact List.mem_flatMap.2 ⟨x, List.mem_cons_of_mem _ hx, hqx⟩

theorem storesOffScan (h : PerformsStores s t) (hs : s.StoresOffScan) : t.StoresOffScan := fun q hq => hs q (h.issued hq)

theorem foldl {β : Type} {f : State → β → State} (l : List β) (hf : ∀ x ∈ l, ∀ s : State, s.StoresOffScan → PerformsStores s (f s x)) (s : State)
    (hs : s.StoresOffScan) : PerformsStores s (l.foldl f s) := by
  induction l generalizing s with
  | nil => exact refl s
  | cons x l ih =>
    have hx := hf x List.mem_cons_self s hs
    exact hx.trans (ih (fun y hy => hf y (List.mem_cons_of_mem _ hy)) _ (hx.storesOffScan hs))

theorem linkLost (h : PerformsStores s t) (p : Place) : t.linkLost p = s.linkLost p := by
  cases p with
  | phys a => simp only [State.linkLost, State.portAt, State.portOf, h.pkg]
  | pad _ _ => rfl

theorem isSome_team? (h : PerformsStores s t) (n : Nat) : (t.team? n).isSome = (s.team? n).isSome := by
  have key (u : State) : (u.team? n).isSome = (u.teams.map Team.id).any (· == n) := by
    rw [Bool.eq_iff_iff, State.team?, List.find?_isSome, List.any_map, List.any_eq_true]
    rfl
  rw [key, key, h.teams]

end PerformsStores

variable {s : State}

theorem map_id_modTeam (n : Nat) {f : Team → Team} (hf : ∀ x, (f x).id = x.id) : (s.modTeam n f).teams.map Team.id = s.teams.map Team.id := by
  rw [State.modTeam, List.map_map]
  refine List.map_congr_left fun x _ => ?_
  rw [Function.comp]
  split
  · exact hf x
  · rfl

theorem performsStores_wakeLines (p : Place) (n : Nat) : PerformsStores s (s.wakeLines p n) := by
  refine .mapHarts fun h => ?_
  split
  · split <;> exact List.Subset.refl _
  · exact List.Subset.refl _

theorem performsStores_poke {p : Place} (hp : p.OffScan) (data : List Byte) (tag : Bool) (owner : Nat) :
    PerformsStores s (s.poke p data tag owner) := by
  unfold State.poke
  extract_lets n t
  split
  · exact .refl s
  · refine .trans ?_ (performsStores_wakeLines p n)
    cases p with
    | pad t o => exact .of_eq rfl (map_id_modTeam _ fun _ => rfl) rfl rfl
    | phys a =>
      change PerformsStores s (if inScan a then _ else _)
      rw [hp a rfl]
      exact .of_eq rfl rfl rfl rfl

theorem performsStores_setDirty (owner : Nat) (dirty : List (Nat × Nat)) : PerformsStores s (s.setDirty owner dirty) := by
  induction dirty generalizing s with
  | nil => exact .refl s
  | cons d ds ih =>
    refine .trans (.trans ?_ (performsStores_wakeLines (.phys d.1) 1)) ih
    exact .of_eq rfl rfl rfl rfl

theorem performsStores_keepOld (w : Nat) (p : Place) (data : List Byte) : PerformsStores s (s.keepOld w p data) := by
  unfold State.keepOld
  split <;> exact .of_eq rfl rfl rfl rfl

theorem performsStores_stampStore (w : Nat) (p : Place) : PerformsStores s (s.stampStore w p) := by
  unfold State.stampStore
  split
  · split
    · exact .refl s
    · exact .of_eq rfl (map_id_modTeam _ fun _ => rfl) rfl rfl
  · exact .refl s

/-- The machine as a store of hart `w` finds it when its bytes are written: its dirty bits are set, what it overwrites is kept. -/
def State.readyFor (s : State) (w : Nat) (q : Pending) : State :=
  ((((s.setDirty q.owner q.dirty).forgetBy w fun o => o.touches (q.place.setNumber (q.place.number / 8 * 8)) (q.place.number % 8 + q.data.length)).keepOld w
    q.place q.data).stampStore w q.place)

theorem performsStores_readyFor (w : Nat) (q : Pending) : PerformsStores s (s.readyFor w q) :=
  have hforget (u : State) (sel : Old → Bool) : PerformsStores u (u.forgetBy w sel) := .of_eq rfl rfl rfl rfl
  (performsStores_setDirty ..).trans <| (hforget _ _).trans <| (performsStores_keepOld ..).trans (performsStores_stampStore ..)

theorem performOne_of_linkLost {q : Pending} (h : s.linkLost q.place = true) (w : Nat) : s.performOne w q = s := if_pos h

theorem performOne_of_linked {q : Pending} (h : s.linkLost q.place = false) (w : Nat) :
    s.performOne w q = (s.readyFor w q).poke q.place q.data q.tag q.owner := by
  rw [State.performOne, h]
  rfl

theorem performsStores_performOne (w : Nat) {q : Pending} (hq : q.place.OffScan) : PerformsStores s (s.performOne w q) := by
  cases h : s.linkLost q.place with
  | true =>
    rw [performOne_of_linkLost h]
    exact .refl s
  | false =>
    rw [performOne_of_linked h]
    exact (performsStores_readyFor ..).trans (performsStores_poke hq ..)

/-- A store is performed last, after the stores that it waits for (R383). -/
theorem performAfter_eq_performOne (fuel : Nat) (x : Nat × Pending) (hs : s.StoresOffScan) :
    ∃ u, PerformsStores s u ∧ State.performAfter fuel s x = u.performOne x.1 x.2 := by
  induction fuel generalizing s x with
  | zero => exact ⟨s, .refl s, rfl⟩
  | succ n ih =>
    unfold State.performAfter
    split
    · exact ⟨s, .refl s, rfl⟩
    · rename_i due hdue
      refine ⟨_, ?_, rfl⟩
      have hremoved : PerformsStores s (s.mapHarts fun h => { h with stores := h.stores.filter fun y => !usesEntry y.via x.2.place x.2.data.length }) :=
        .mapHarts fun h => (List.filter_sublist).subset
      refine hremoved.trans (.foldl _ (fun y hy t ht => ?_) _ (hremoved.storesOffScan hs))
      obtain ⟨h, hh, hy⟩ := List.mem_flatMap.1 hy
      obtain ⟨q, hq, rfl⟩ := List.mem_map.1 hy
      obtain ⟨u, hu, heq⟩ := ih (h.id, q) ht
      rw [heq]
      exact hu.trans (performsStores_performOne _ (hs q (List.mem_flatMap.2 ⟨h, hh, (List.mem_filter.1 hq).1⟩)))

theorem perform_eq_performOne (q : Pending) (hs : s.StoresOffScan) : ∃ u, PerformsStores s u ∧ s.perform q = u.performOne s.hart.id q :=
  performAfter_eq_performOne _ _ hs

theorem performsStores_perform {q : Pending} (hq : q.place.OffScan) (hs : s.StoresOffScan) : PerformsStores s (s.perform q) := by
  obtain ⟨u, hu, heq⟩ := perform_eq_performOne q hs
  rw [heq]
  exact hu.trans (performsStores_performOne _ hq)

/-- After the stores of a kind are performed, those of them that nothing held up are gone. -/
theorem drain_spec (sel : Pending → Bool) (hs : s.StoresOffScan) :
    PerformsStores s (s.drain sel) ∧ ∀ q, sel q = true → s.stuck q = false → q ∉ (s.drain sel).hart.stores := by
  unfold State.drain
  extract_lets all go due
  have hremoved : PerformsStores s (s.modHart fun h => { h with stores := h.stores.filter fun q => !go q }) :=
    .modHart (List.filter_sublist).subset
  have hdue (q : Pending) (hq : q ∈ due) : q.place.OffScan := hs q (List.mem_flatMap.2 ⟨s.hart, List.mem_cons_self, (List.mem_filter.1 hq).1⟩)
  have hrest := PerformsStores.foldl due (fun q hq _ hs => performsStores_perform (hdue q hq) hs) _ (hremoved.storesOffScan hs)
  refine ⟨hremoved.trans hrest, fun q hq hstuck hmem => ?_⟩
  have hgo := (List.mem_filter.1 (hrest.own hmem)).2
  simp [go, hq, hstuck] at hgo

/-! ## Bytes written and read again -/

theorem dist_add_self (p : Place) (k : Nat) : p.dist (p.add k) = some k := by
  cases p <;> simp [Place.dist, Place.add]

theorem team?_modTeam (n : Nat) {f : Team → Team} (hf : ∀ x, (f x).id = x.id) : (s.modTeam n f).team? n = (s.team? n).map f := by
  have hid (x : Team) : ((fun x : Team => x.id == n) ∘ fun x => if x.id = n then f x else x) x = (x.id == n) := by
    rw [Function.comp]
    split
    · rw [hf]
    · rfl
  rw [State.team?, State.team?, State.modTeam_teams, List.find?_map, funext hid]
  cases h : s.teams.find? (fun x => x.id == n) with
  | none => rfl
  | some x =>
    have hx : x.id = n := by simpa using List.find?_some h
    rw [Option.map_some, Option.map_some, if_pos hx]

/-- A team after bytes are written into its scratchpad. -/
def Team.written (x : Team) (o : Nat) (data : List Byte) : Team :=
  { x with bytes := Sparse.putList zeroByte x.bytes o data, pois := clearCovered x.pois o data.length
           sphw := max x.sphw (ceilDiv (o + data.length) 256 * 256) }

theorem team?_poke {t o : Nat} {data : List Byte} (hn : data.length ≠ 0) (tag : Bool) (owner : Nat) :
    (s.poke (.pad t o) data tag owner).team? t = (s.team? t).map fun x => x.written o data := by
  unfold State.poke
  simp only [hn, if_false]
  exact team?_modTeam t (f := fun x => x.written o data) fun _ => rfl

/-- What is written at a place is read there. -/
theorem peek_poke {p : Place} {data : List Byte} {k : Nat} (hk : k < data.length) (hp : p.OffScan) (hpk : (p.add k).OffScan)
    (ht : ∀ t o, p = .pad t o → (s.team? t).isSome = true) (tag : Bool) (owner : Nat) : (s.poke p data tag owner).peek (p.add k) = data[k] := by
  have hn : data.length ≠ 0 := by omega
  cases p with
  | phys a =>
    have hread : Memory.read (s.poke (.phys a) data tag owner).mem (a + k) = data[k] := by
      unfold State.poke
      simp only [hn, if_false, hp a rfl, Bool.false_eq_true]
      rw [wakeLines_mem, Memory.read_writeList, dif_pos (by omega)]
      simp
    rw [Place.add, State.peek, hpk _ rfl]
    exact hread
  | pad t o =>
    obtain ⟨x, hx⟩ := Option.isSome_iff_exists.1 (ht t o rfl)
    rw [Place.add, State.peek, team?_poke hn, hx]
    simp only [Option.map_some, Team.written]
    rw [Sparse.get_putList, dif_pos (by omega)]
    simp

/-! ## What a hart sees behind its own stores -/

theorem byteAt_add {q : Pending} {k : Nat} (h : k < q.data.length) : q.byteAt (q.place.add k) = some q.data[k] := by
  rw [Pending.byteAt, dist_add_self]
  exact List.getElem?_eq_getElem h

theorem view_of_last {q : Pending} {sel : Pending → Bool} {k : Nat} {qs : List Pending} (hs : s.hart.stores = qs ++ [q]) (hq : sel q = true)
    (hk : k < q.data.length) : s.view sel (q.place.add k) = q.data[k] := by
  rw [State.view, hs, List.reverse_append, List.reverse_singleton, List.singleton_append, List.filter_cons_of_pos hq, List.findSome?_cons, byteAt_add hk]

theorem view_of_untouched {sel : Pending → Bool} {p : Place} (h : ∀ q ∈ s.hart.stores, sel q = true → q.byteAt p = none) : s.view sel p = s.peek p := by
  have hnone : (s.hart.stores.reverse.filter sel).findSome? (fun q => q.byteAt p) = none := by
    refine List.findSome?_eq_none_iff.2 fun q hq => ?_
    obtain ⟨hmem, hsel⟩ := List.mem_filter.1 hq
    exact h q (List.mem_reverse.1 hmem) hsel
  rw [State.view, hnone]

theorem touches_of_byteAt {q : Pending} {p : Place} {n k : Nat} (hk : k < n) (h : q.byteAt (p.add k) ≠ none) : q.touches p n = true :=
  List.any_eq_true.2 ⟨k, List.mem_range.2 hk, Option.isSome_iff_ne_none.2 h⟩

/-- A store performed is seen, where the hart has no later one. -/
theorem view_perform {q : Pending} {sel : Pending → Bool} {k : Nat} (hk : k < q.data.length) (hp : q.place.OffScan) (hpk : (q.place.add k).OffScan)
    (ht : ∀ t o, q.place = .pad t o → (s.team? t).isSome = true) (hlink : s.linkLost q.place = false) (hoff : s.StoresOffScan)
    (hnone : ∀ y ∈ s.hart.stores, sel y = true → y.byteAt (q.place.add k) = none) : (s.perform q).view sel (q.place.add k) = q.data[k] := by
  obtain ⟨u, hu, heq⟩ := perform_eq_performOne q hoff
  have hready := hu.trans (performsStores_readyFor s.hart.id q)
  rw [heq, performOne_of_linked (hu.linkLost q.place ▸ hlink), view_of_untouched, peek_poke hk hp hpk]
  · exact fun t o e => hready.isSome_team? t ▸ ht t o e
  · exact fun y hy => hnone y (hready.own ((performsStores_poke hp ..).own hy))

/-- Whether an earlier store `p` of the hart goes before its store `q`: one of its class to the same bytes, or one released before it (R89, R176, R196). -/
def Pending.goesAfter (q p : Pending) : Bool :=
  p.vector == q.vector && (q.touches p.place p.data.length || p.touches q.place q.data.length || (p.released && q.released))

theorem goesAfter_of_byteAt {q p : Pending} {k : Nat} (hv : p.vector = q.vector) (hk : k < q.data.length) (h : p.byteAt (q.place.add k) ≠ none) :
    q.goesAfter p = true := by
  rw [Pending.goesAfter, touches_of_byteAt hk h, hv]
  simp

/-- A hart's own loads see a store that it issues: one that was held back is its latest, and one performed leaves no earlier store of its class
over its bytes. -/
theorem view_issueStore {q : Pending} {k : Nat} (hk : k < q.data.length) (hv : q.vector = false) (hp : q.place.OffScan) (hpk : (q.place.add k).OffScan)
    (ht : ∀ t o, q.place = .pad t o → (s.team? t).isSome = true) (hlink : s.linkLost q.place = false) (hoff : s.StoresOffScan)
    (hstuck : ∀ y ∈ s.hart.stores, s.stuck y = false) : (s.issueStore q).view ownScalar (q.place.add k) = q.data[k] := by
  have hown : ownScalar q = true := by rw [ownScalar, hv]; rfl
  unfold State.issueStore
  split
  · exact view_of_last rfl hown hk
  · let t : State := { s with hold := s.hold.drop 1 }
    change ((t.drain q.goesAfter).perform q).view ownScalar (q.place.add k) = q.data[k]
    obtain ⟨hdrain, hgone⟩ := drain_spec (s := t) q.goesAfter hoff
    refine view_perform hk hp hpk (fun n o e => hdrain.isSome_team? n ▸ ht n o e) (hdrain.linkLost q.place ▸ hlink) (hdrain.storesOffScan hoff) ?_
    intro y hy hys
    by_contra hbyte
    have hclass : y.vector = q.vector := by
      rw [hv]
      simpa [ownScalar] using hys
    exact hgone y (goesAfter_of_byteAt hclass hk hbyte) (hstuck y (hdrain.own hy)) hy

end Sys2Proof.Machine

open Sys2Proof Sys2Proof.Machine Sys2Proof.Claims in
/-- Settles O9, by what a hart sees of a store that it issues. -/
theorem storeSeenByOwnLoads : Obligations.StoreSeenByOwnLoads := by
  intro s p data dirty tag owner k via hk hplace hlink hstuck hstores
  have hoff : s.StoresOffScan := by
    intro q hq
    obtain ⟨x, hx, hqx⟩ := List.mem_flatMap.1 hq
    exact hstores x hx q hqx
  cases p with
  | phys a =>
    obtain ⟨ha, hak⟩ := hplace
    exact view_issueStore (q := ⟨.phys a, data, tag, false, false, owner, dirty, via, false⟩) hk rfl (by rintro _ ⟨⟩; exact ha) (by rintro _ ⟨⟩; exact hak)
      nofun hlink hoff hstuck
  | pad t o =>
    exact view_issueStore (q := ⟨.pad t o, data, tag, false, false, owner, dirty, via, false⟩) hk rfl nofun nofun (by rintro _ _ ⟨⟩; exact hplace)
      hlink hoff hstuck
end

section
/-!
LAUNCH, LWAIT, LPRIO and YIELD (R97, R406 to R408). With O48.
-/
namespace Sys2Proof.Machine
open Sys2Proof.Claims

variable {s u v : State} {d a b : GReg} {e : Bool} {q : Word}

/-! ## LAUNCH (R406) -/

theorem execLaunch_of_aligned (hs : Settled s) (hq : (s.g a).toNat % 256 = 0) :
    execLaunch e d a b s = member e (if s.g b = 0 then registerQueue d (s.g a) s else if s.g b = 1 then unregisterQueue d (s.g a) s
      else enqueueRecord d (s.g a) (s.g b) s) := by
  refine (congrArg (member e) (settled_eq hs _)).trans ?_
  rw [if_neg (not_not.2 hq)]

theorem launchesOf_any_of_none {x : Queue} (h : ∀ l ∈ s.launches, l.ctx = s.hart.ctx → l.queue ≠ x.num) :
    (s.launchesOf s.hart.ctx).any (fun l => l.queue == x.num) = false := by
  refine List.any_eq_false.2 fun l hl => ?_
  obtain ⟨hmem, hctx⟩ := List.mem_filter.1 hl
  simpa using h l hmem (by simpa using hctx)

/-- Of 64 queue numbers fewer than 64 are in use, so one is free. -/
theorem exists_free_number {used : List Nat} (h : used.length < 64) (c : Nat) :
    let free := (List.range 64).filter fun n => !used.contains n
    free.getD (c % free.length) 0 < 64 ∧ free.getD (c % free.length) 0 ∉ used := by
  intro free
  have hpos : 0 < free.length := by
    by_contra hnone
    have hnil : free = [] := List.eq_nil_of_length_eq_zero (by omega)
    have hsub : List.range 64 ⊆ used := fun n hn => by
      by_contra hfree
      have hmem : n ∈ free := List.mem_filter.2 ⟨hn, by simpa using hfree⟩
      rw [hnil] at hmem
      exact List.not_mem_nil hmem
    have := (List.nodup_range.subperm hsub).length_le
    rw [List.length_range] at this
    omega
  have hlt : c % free.length < free.length := Nat.mod_lt _ hpos
  have hmem : free.getD (c % free.length) 0 ∈ free := by
    rw [List.getD_eq_getElem _ _ hlt]
    exact List.getElem_mem hlt
  obtain ⟨hrange, hnot⟩ := List.mem_filter.1 hmem
  exact ⟨List.mem_range.1 hrange, by simpa using hnot⟩

theorem registerQueue_of_legal {ws : List Nat} {c : Ctx} (hw : s.loadWords q 32 = (u, .ok ws)) (hl : queueLegal ws = true) (hp : u.plainPage q = true)
    (hq : u.queueAt q = none) (hc : u.issuer = some c) (hr : u.remaining c 3 ≠ 0) (hn : (u.queues.filter fun x => x.ctx == u.hart.ctx).length < 64) :
    ∃ n, n < 64 ∧ (∀ x ∈ u.queues, x.ctx = u.hart.ctx → x.num ≠ n) ∧
      registerQueue d q s = .ok ({ u with free := u.free + 1, queues := u.queues ++ [(⟨u.hart.ctx, n, q.toNat⟩ : Queue)] }.setG d (BitVec.ofNat 64 n)) := by
  have hused : ((u.queues.filter fun x => x.ctx == u.hart.ctx).map (·.num)).length < 64 := by rwa [List.length_map]
  obtain ⟨hlt, hfree⟩ := exists_free_number hused (Config.freeChoice u.free)
  refine ⟨_, hlt, fun x hx hctx hnum => hfree ?_, ?_⟩
  · exact List.mem_map.2 ⟨x, List.mem_filter.2 ⟨hx, by simpa using hctx⟩, hnum⟩
  · rw [registerQueue, hw]
    have hleft : (decide (u.remaining c 3 = 0) || decide (((u.queues.filter fun x => x.ctx == u.hart.ctx).map (·.num)).length ≥ 64)) = false := by
      rw [decide_eq_false hr, decide_eq_false (Nat.not_le.2 hused), Bool.or_false]
    dsimp only
    rw [hl, hp, hq, hc]
    dsimp only
    rw [hleft]
    rfl

theorem unregisterQueue_of_empty {ws : List Nat} {x : Queue} (hx : s.queueAt q = some x) (hw : s.loadWords q 5 = (u, .ok ws))
    (he : ws.getD 3 0 % 2 ^ 32 = ws.getD 4 0 % 2 ^ 32) (hl : ∀ l ∈ u.launches, l.ctx = u.hart.ctx → l.queue ≠ x.num) :
    unregisterQueue d q s = .ok ({ u with queues := u.queues.filter fun y => y != x }.setG d 0) := by
  rw [unregisterQueue, hx]
  dsimp only
  rw [hw]
  dsimp only
  rw [launchesOf_any_of_none hl, he]
  simp

theorem unregisterQueue_of_filled {ws : List Nat} {x : Queue} (hx : s.queueAt q = some x) (hw : s.loadWords q 5 = (u, .ok ws))
    (he : ws.getD 3 0 % 2 ^ 32 ≠ ws.getD 4 0 % 2 ^ 32) : unregisterQueue d q s = .hold u := by
  rw [unregisterQueue, hx]
  dsimp only
  rw [hw]
  dsimp only
  rw [bne_iff_ne.2 he]
  rfl

/-- A legal record comes to the ring of its queue, of which the words `x` are read after it. -/
theorem enqueueRecord_of_legal {r : Word} {w x : List Nat} {y : Queue} (hr : r.toNat % 256 = 0) (hy : s.queueAt q = some y)
    (hw : s.loadWords r 32 = (u, .ok w)) (hl : recordLegal w = true) (hx : u.loadWords q 5 = (v, .ok x)) :
    enqueueRecord d q r s =
      (let n := x.getD 1 0
       let t := x.getD 3 0 % 2 ^ 32
       if n ≤ (t + 2 ^ 32 - x.getD 4 0 % 2 ^ 32) % 2 ^ 32 then .ok (v.setG d Word.ones)
       else
         let done := w.getD 2 0
         let slot := BitVec.ofNat 64 (x.getD 0 0 + 256 * (t % max 1 n))
         let targets := (if done = 0 then [] else [BitVec.ofNat 64 done]) ++ ((List.range 32).map fun k => slot + BitVec.ofNat 64 (8 * k)) ++ [q + 0x18]
         let values := (if done = 0 then [] else [0xFFFF * 2 ^ 48 + w.getD 3 0 % 65536 * 2 ^ 32]) ++ w ++ [(t + 1) % 2 ^ 32]
         match v.storeTargets targets with
         | (s, .error p) => p.res s
         | (s, .ok rs) => .ok ((s.drainAll.storeWords (rs.zip values)).setG d (BitVec.ofNat 64 t))) := by
  rw [enqueueRecord, if_neg (not_not.2 hr), hy]
  dsimp only
  rw [hw]
  dsimp only
  rw [hl, hx]
  rfl

/-! ## LWAIT, LPRIO and YIELD (R97, R407, R408) -/

theorem execLwait_of_acquires {x : Nat} (hs : Settled s) (hq : (s.g a).toNat % 8 = 0) (h : Acquires s (s.g a) 8 u x) (hv : v = u.waitUntil (u.g b).toNat) :
    execLwait e d a b s = member e (if x / 2 ^ 48 != 0xFFFF || v.limitPassed then .ok (v.setG d (Word.ofNat x)) else .hold v) := by
  subst hv
  refine (congrArg (member e) (settled_eq hs _)).trans ?_
  rw [if_neg (not_not.2 hq), scalarLoad_of_acquires h]

theorem execLprio_of_priority (hs : Settled s) (hp : (s.g b).toNat ≤ 7) :
    execLprio e d a b s = member e (match s.launchAt s.hart.ctx (s.g a).toNat with
      | none => .ok (s.setG d Word.ones)
      | some l => .ok ((s.modLaunch l.id fun l => { l with base := min (s.g b).toNat (s.ceilingOf l.ctx) }).setG d (Word.ofNat l.base))) :=
  (congrArg (member e) (settled_eq hs _)).trans (congrArg (member e) (if_neg (Nat.not_lt.2 hp)))

theorem execYield_of_crew {c : Crew} (hs : Settled s) (hc : (s.retire e).crew? (s.retire e).hart.crew = some c) :
    execYield e s =
      (let t := s.retire e
       member e (if c.ctx == t.hart.ctx && (t.readyCrews c.ctx).any fun k =>
           decide (t.crewPriority c ≤ (k.launch.map t.priority).getD 7) && (t.fit k c.id 0).isSome then
         .moved (t.modCrew c.id fun c => { c with preempting := true }) else .moved t)) := by
  refine (congrArg (member e) (settled_eq hs _)).trans ?_
  dsimp only
  rw [hc]

end Sys2Proof.Machine

open Sys2Proof Sys2Proof.Machine Sys2Proof.Claims in
/-- Settles O48, member by member: each of LAUNCH's three uses, LWAIT, LPRIO and YIELD. -/
theorem launchResults : Obligations.LaunchResults := by
  intro e d a b s hs q
  refine ⟨fun u ws c hq hb hw hl hp hn hi hr h64 => ?_, fun u ws x hq hb hx hw => ⟨fun he hnone => ?_, fun he => ?_⟩,
    fun u1 ws u2 xs x hq hb0 hb hx hw hl hws => ?_, fun u x hq h => ?_, fun hb => ?_, fun hb hnone => ?_, fun l hb hl => ?_, fun c hc => ?_, fun hc => ?_⟩
  · obtain ⟨n, hlt, hfree, heq⟩ := registerQueue_of_legal (d := d) hw hl hp hn hi hr h64
    refine ⟨n, hlt, hfree, ?_⟩
    change execLaunch e d a b s = _
    rw [execLaunch_of_aligned hs hq, if_pos hb, heq]
    rfl
  · change execLaunch e d a b s = _
    rw [execLaunch_of_aligned hs hq, hb, if_neg (by decide), if_pos rfl, unregisterQueue_of_empty hx hw he hnone]
    rfl
  · change execLaunch e d a b s = _
    rw [execLaunch_of_aligned hs hq, hb, if_neg (by decide), if_pos rfl, unregisterQueue_of_filled hx hw he]
    rfl
  · have hb1 : s.g b ≠ 1 := fun h => absurd (h ▸ hb) (by decide)
    have henq : exec (.launch e d a b) s = _ := (execLaunch_of_aligned hs hq).trans (by
      rw [if_neg hb0, if_neg hb1, enqueueRecord_of_legal hb hx hw hl hws])
    refine ⟨fun hfull => ?_, fun u3 rs hroom htargets => ?_⟩
    · rw [henq]
      dsimp only
      rw [if_pos hfull]
      rfl
    · rw [Completes, henq]
      dsimp only
      rw [if_neg (Nat.not_le.2 hroom), htargets]
      rfl
  · have hwait : exec (.lwait e d a b) s = _ := execLwait_of_acquires hs hq h rfl
    refine ⟨fun hdone => ?_, fun hx hlimit => ?_⟩
    · rw [Completes, hwait, if_pos (by simpa using hdone)]
      rfl
    · rw [hwait, hx, hlimit]
      rfl
  · refine (congrArg (member e) (settled_eq hs _)).trans ?_
    rw [if_pos hb]
    rfl
  · refine (execLprio_of_priority hs hb).trans ?_
    rw [hnone]
    rfl
  · refine ⟨s.modLaunch l.id fun l => { l with base := min (s.g b).toNat (s.ceilingOf l.ctx) }, (execLprio_of_priority hs hb).trans ?_, rfl, rfl⟩
    rw [hl]
    rfl
  · have hyield : exec (.yield e) s = _ := execYield_of_crew hs hc
    refine ⟨fun hctx hwants => ?_, fun hno => ?_⟩
    · rw [hyield]
      dsimp only
      rw [if_pos (by simpa [hctx] using hwants)]
      rfl
    · rw [hyield]
      dsimp only
      rw [if_neg ?_]
      · rfl
      · rw [Bool.and_eq_true]
        rintro ⟨hctx, hany⟩
        obtain ⟨k, hk, hwants⟩ := List.any_eq_true.1 hany
        obtain hno | hne := hno
        · exact hno k hk (by simpa using hwants)
        · exact hne (eq_of_beq hctx)
  · refine (congrArg (member e) (settled_eq hs _)).trans ?_
    dsimp only
    rw [hc]
    rfl
end

section
/-!
Events of a hart's engines: ends of waits, tokens, copies, queued gathers and samples (R76, R262, R264, R284, R315, R364, R399).
-/
namespace Sys2Proof.Machine
open Sys2Proof.Claims

variable {s v : State} {n : Nat}

/-! ## Events of an engine (R267) -/

theorem onEngine_of_on (h : On s n) (f : State → State) : s.onEngine n f = (f (s.focus n)).focus s.hart.id := by
  obtain ⟨h, hfind, hrun⟩ := h
  rw [State.onEngine, hfind]
  exact if_pos hrun

/-- An event that is an action of an engine of the hart leaves what the action makes of the machine with the hart in focus. -/
theorem leaves_of_engine {i : Instr} {f : State → State} (h : On s n) (hexec : exec i s = event (s.onEngine n f)) (hf : f (s.focus n) = v) : Leaves i s v := by
  rw [Leaves, hexec, onEngine_of_on h, hf]
  rfl

/-! ## Waits with a limit (R315, R399, R407, R445) -/

variable {u : State} {t : Nat} {e : Bool} {d a b : GReg}

theorem waitUntil_of_until (h : u.hart.waiting = .until t) (limit : Nat) : u.waitUntil limit = u := by
  rw [State.waitUntil, h]

theorem limitPassed_of_until (h : u.hart.waiting = .until t) (ht : t ≤ u.pkg.cycle / 256) : u.limitPassed = true := by
  rw [State.limitPassed, h]
  exact decide_eq_true ht

theorem timeOut_of_passed {i : Instr} {rest : List Instr} {again : Instr → Option Out} {w : State} (hc : u.hart.convoy = i :: rest)
    (hl : u.limitPassed = true) (ha : again i = some (.next w)) : u.timeOut again = w := by
  rw [State.timeOut, hc]
  simp only [hl, ha, if_true, Option.map_some, Option.getD_some]
  rfl

theorem execWaitw_of_ended {w : Watch} (hs : Settled u) (hw : u.hart.watch = some w) (hu : u.hart.waiting = .until t)
    (he : (w.fired || u.limitPassed) = true) : execWaitw e b u = .next ((u.modHart fun h => { h with watch := none }).retire e) := by
  refine (congrArg (member e) (settled_eq hs _)).trans ?_
  rw [hw]
  dsimp only
  rw [waitUntil_of_until hu, he]
  rfl

theorem execColw_of_passed {c : Coll} (hs : Settled u) (hu : u.hart.waiting = .until t) (ht : t ≤ u.pkg.cycle / 256) (hc : u.hart.collOf a = some c)
    (hopen : c.ended = none) : execColw e d a b u = .next ((u.setG d (status 0xFFFF c.op c.written)).retire e) := by
  refine (congrArg (member e) (settled_eq hs _)).trans ?_
  rw [hc]
  dsimp only
  rw [waitUntil_of_until hu, hopen]
  dsimp only
  rw [limitPassed_of_until hu ht]
  rfl

theorem execFenceSc_of_passed {c : BitVec 3} (hs : Settled u) (hu : u.hart.waiting = .boundary t) (ht : t < u.pkg.cycle / 256) :
    execFenceSc e c u = .next (u.synced.retire e) := by
  refine (congrArg (member e) (settled_eq hs _)).trans ?_
  rw [hu]
  exact congrArg (member e) (if_pos ht)

/-! ## Tokens (R76, R264) -/

theorem told_deliverToken {token : Nat} {w : Word} : Told s (s.deliverToken token w) token w := by
  unfold State.deliverToken
  split
  · exact ⟨fun h => absurd ‹token = 0› h, fun k hk => ⟨hk, fun h => absurd ‹token = 0› h⟩⟩
  · have hpend (k : Nat) (hk : k ∈ s.hart.pend.filter (· != token)) : k ∈ s.hart.pend ∧ (token ≠ 0 → k ≠ token) := by
      obtain ⟨hmem, hne⟩ := List.mem_filter.1 hk
      exact ⟨hmem, fun _ => by simpa using hne⟩
    split
    · rename_i hgone
      exact ⟨fun _ h => absurd (h ▸ hgone) (by decide), hpend⟩
    · rename_i htoken _
      refine ⟨fun _ _ => ?_, hpend⟩
      simp [State.modHart, Hart.lateWrite, Regs.setP, htoken, Sparse.get_put_same]

theorem notePoison_hart (st : Nat) : (s.notePoison st).hart = s.hart := by
  unfold State.notePoison
  split
  · split <;> rfl
  · rfl

/-! ## Copies (R262, R264) -/

variable {k : Nat} {c : Copy}

theorem id_of_copy? (h : s.copy? k = some c) : c.id = k := by simpa using List.find?_some h

theorem copyStrip_of_open (h : s.copy? k = some c) (he : c.ended = none) : s.copyStrip k = if c.aborting then s.endCopy k 2 else s.runStrip c := by
  rw [State.copyStrip, h]
  simp only [he]
  rfl

theorem copyDeliver_of_unacked (h : s.copy? k = some c) (hn : c.unacked ≠ 0) : s.copyDeliver k = s := by
  have hst : c.status = none := if_neg hn
  rw [State.copyDeliver, h]
  simp only [hst]

theorem copyDeliver_of_ended {st : Nat} (h : s.copy? k = some c) (he : c.ended = some st) (hd : c.delivered = false) (hn : c.unacked = 0) :
    s.copyDeliver k = ((s.notePoison st).deliverToken c.token (status st c.op c.count)).modCopy k fun c => { c with delivered := true } := by
  have hst : c.status = some st := (if_pos hn).trans he
  rw [State.copyDeliver, h]
  simp only [hst, hd]
  rfl

theorem delivered_modCopy {x : Copy} (h : x ∈ (s.modCopy k fun c => { c with delivered := true }).hart.copies) (hx : x.id = k) : x.delivered = true := by
  obtain ⟨y, -, rfl⟩ := List.mem_map.1 h
  by_cases hy : y.id = k
  · rw [if_pos hy]
  · rw [if_neg hy] at hx
    exact absurd hx hy

/-- A strip whose elements all pass is read, written and counted. -/
theorem runStrip_of_moves {s1 s2 s3 s4 : State} {sb db : Base} {xs gs : List _}
    (hsb : (if c.length = 0 then (s.performLate.drainAll, Base.window) else s.performLate.drainAll.baseOf (c.reg 0)) = (s1, sb))
    (hdb : (if c.length = 0 ∨ c.multi = true then (s1, Base.window) else s1.baseOf (c.reg 1)) = (s2, db))
    (hx : s2.checkMoves (c.side false sb) (c.side true db) (c.moves s2.hart.spbase (elemBits sb.fmt c.vt) (elemBits db.fmt c.vt) c.strips) = (s3, .ok xs))
    (hg : s3.readMoves c (c.side false sb) (c.side true db) xs = (s4, gs)) :
    s.runStrip c =
      (let w := s4.writeStrip (c.side true db) gs
       w.modCopy c.id fun x => { x with
         strips := x.strips + 1, count := x.count + c.length, poisoned := x.poisoned || gs.any (·.2)
         unacked := x.unacked + (gs.filter fun g => w.mirrored w.hart.ctx g.1.place).length
         ended := if x.strips + 1 < x.total then none else some (if x.poisoned || gs.any (·.2) then 4 else 0) }) := by
  unfold State.runStrip
  have hcond : (decide (c.length = 0) || c.multi) = true ↔ c.length = 0 ∨ c.multi = true := by simp
  simp only [hsb, hcond, hdb, hx, hg]

/-! ## Queued gathers and samples (R284, R364) -/

theorem performGather_of_open {g : GatherDesc} {s1 s2 : State} {base : Base} {r : Option (Nat × List Nat)} (hg : s.hart.gathers[k]? = some g)
    (hp : g.performed = none) (hb : s.drainAll.seqBase (fun _ => true) g.table g.packed [0] = (s1, base))
    (hr : s1.gatherRun g base (List.range g.vl) = (s2, r)) :
    s.performGather k = s2.modHart fun h => { h with gathers := h.gathers.modify k fun g => { g with performed := r } } := by
  rw [State.performGather, hg]
  simp only [hp, hb, hr]
  rfl

/-- A completed sample whose member no older trim can undo is written, and its token told. -/
theorem writeSample_of_done {x : Sample} {head info : Word} {elems : List Nat} (hx : s.hart.sample = some x) (hd : x.stage = .done false head info elems) :
    s.writeSample = ((({ s with free := s.free + 4 } : State).perform
      ⟨x.place, sampleRecord s.free head info elems, false, false, false, s.hart.ctx, x.dirty, x.via, false⟩).modHart fun h => { h with sample := none }).deliverToken
      x.token (status 0 0 64) := by
  rw [State.writeSample, hx]
  dsimp only
  rw [hd]
  rfl

theorem length_sampleRecord (d : Nat) (head info : Word) (elems : List Nat) : (sampleRecord d head info elems).length = 64 := by
  simp [sampleRecord, wordBytes, natToBytes_length, List.range_succ]

theorem take_sampleRecord (d : Nat) (head info : Word) (elems : List Nat) :
    (sampleRecord d head info elems).take 16 = natToBytes head.toNat 8 ++ natToBytes info.toNat 8 := by
  rw [sampleRecord, List.take_left' (by simp [wordBytes, natToBytes_length])]
  rfl

end Sys2Proof.Machine
end

section
/-!
The oldest access of a class (R177, R311), and how exit tests and trims resolve (R184, R188).
-/
namespace Sys2Proof.Machine
open Sys2Proof.Claims

variable {s u : State}

/-! ## The oldest access of a class (R177, R311) -/

theorem performOldest_of_late (h : s.hart.late ≠ []) : s.performOldest true = s.performLate := by
  have hne : s.hart.late.isEmpty = false := by simpa using h
  rw [State.performOldest, hne]
  rfl

/-- The place of the first store of a class in a list. -/
theorem find?_index_of_first {v : Bool} {old new : List Pending} {q : Pending} (ho : ∀ x ∈ old, x.vector ≠ v) (hq : q.vector = v) :
    ((List.range (old ++ q :: new).length).find? fun k => (((old ++ q :: new)[k]?).map (·.vector == v)).getD false) = some old.length := by
  rw [List.find?_range_eq_some]
  refine ⟨?_, by simp, fun j hj => ?_⟩
  · simp [hq]
  · have hv := ho old[j] (List.getElem_mem hj)
    rw [List.getElem?_append_left hj, List.getElem?_eq_getElem hj]
    simp [hv]

theorem performOldest_of_first {v : Bool} {old new : List Pending} {q : Pending} (hl : v = true → s.hart.late = []) (hs : s.hart.stores = old ++ q :: new)
    (ho : ∀ x ∈ old, x.vector ≠ v) (hq : q.vector = v) (hstuck : s.stuck q = false) :
    s.performOldest v = (s.modHart fun h => { h with stores := old ++ new }).perform q := by
  have hlate : (v && !s.hart.late.isEmpty) = false := by
    cases v with
    | false => rfl
    | true => simp [hl rfl]
  have herase : (s.modHart fun h => { h with stores := h.stores.eraseIdx old.length }) = s.modHart fun h => { h with stores := old ++ new } := by
    refine congrArg (fun l => ({ s with hart := { s.hart with stores := l } } : State)) ?_
    rw [hs, List.eraseIdx_append_of_length_le (Nat.le_refl _), Nat.sub_self]
    rfl
  unfold State.performOldest
  rw [hlate, hs, find?_index_of_first ho hq]
  simp [hstuck, herase]

/-! ## Exit tests and trims (R184, R188) -/

theorem modRegion_of_eq {f : Region → Region} (h : f s.hart.region = s.hart.region) : s.modRegion f = s :=
  congrArg (fun r => ({ s with hart := { s.hart with region := r } } : State)) h

/-- Where the oldest trim has no older store of its strip before it, nothing is released. -/
theorem releaseCaddy_of_first {tr : Trim} {more : List Trim} (h : s.hart.region.trims = tr :: more) (hc : tr.caddy = 0) : s.releaseCaddy = s := by
  unfold State.releaseCaddy
  split
  · rfl
  · have htrims : s.hart.region.trims.map (fun t => { t with caddy := t.caddy - 0 }) = s.hart.region.trims := List.map_id' _
    simp only [h, hc, List.take_zero, List.foldl_nil, List.drop_zero, State.modHart, List.isEmpty_cons, Bool.false_eq_true, if_false]
    rw [← h, htrims]

theorem resolveTests_of_first {tr : Trim} {more : List Trim} (hs : s.hart.region.strips = []) (hp : s.hart.region.pending = false)
    (h : s.hart.region.trims = tr :: more) (hc : tr.caddy = 0) : s.resolveTests = .ok s := by
  have hstrips : s.modRegion (fun r => { r with strips := [] }) = s :=
    modRegion_of_eq (congrArg (fun l => { s.hart.region with strips := l }) hs.symm)
  have hpending : s.modRegion (fun r => { r with pending := false }) = s :=
    modRegion_of_eq (congrArg (fun p => { s.hart.region with pending := p }) hp.symm)
  rw [State.resolveTests, State.resolveStrips, hs, State.resolveEach, hstrips]
  dsimp only
  rw [hpending, releaseCaddy_of_first h hc]

/-- At the decision point the oldest trim is taken, where no candidate suppresses it. -/
theorem decideTrims_of_first {tr : Trim} {more : List Trim} (hs : s.hart.region.strips = []) (hp : s.hart.region.pending = false)
    (h : s.hart.region.trims = tr :: more) (hc : tr.caddy = 0) (hsup : tr.suppressed = false) (ends : Bool) :
    s.decideTrims ends = .error (s.takeTrim s.hart.caddy tr) := by
  have hgen : genuine (tr :: more) = some tr := List.find?_cons_of_pos (by rw [hsup]; rfl)
  rw [State.decideTrims, resolveTests_of_first hs hp h hc]
  dsimp only
  rw [h, hgen]

theorem head?_chain {n : Nat} {c : Ctx} (h : s.ctx? n = some c) : (s.chain n).head? = some c := by
  rw [State.chain, State.chainFrom, h]
  rfl

/-- A trap of the hart's own context in user mode, which enables it, enters the hart's handler (R70). -/
theorem trapPath_of_enabled {t : Trap} {c : Ctx} (ht : t.stage = 0) (hu : s.hart.regs.supervisor = false) (hc : s.ctx? s.hart.ctx = some c)
    (he : c.enable.getLsbD t.cause.toNat = true) : s.trapPath t = s.enterHandler t := by
  refine if_pos ?_
  rw [head?_chain hc, ht, hu]
  exact he

theorem deliver_of_plain {t : Trap} (h7 : t.cause ≠ 0x07) (h14 : t.cause ≠ 0x14) (hm : s.hart.m15only = false) : s.deliver t = s.trapPath t := by
  unfold State.deliver
  simp only [if_neg h7, if_neg h14, hm, Bool.or_false]

theorem entered_enterStatus (w : Word) (rfm fr : Bool) : entered w (enterStatus w rfm fr) rfm fr := by
  simp only [entered, enterStatus, getLsbD_setBit, Nat.reduceLT]
  refine ⟨rfl, rfl, rfl, rfl, rfl, rfl, rfl, rfl, fun k hk => ?_⟩
  simp only [if_neg (show k ≠ 7 by omega), if_neg (show k ≠ 6 by omega), if_neg (show k ≠ 5 by omega), if_neg (show k ≠ 4 by omega),
    if_neg (show k ≠ 3 by omega), if_neg (show k ≠ 2 by omega), if_neg (show k ≠ 1 by omega), if_neg (show k ≠ 0 by omega)]

/-- A trim taken whose trap is no missing page goes back to its member, from where the trap is delivered. -/
theorem takeTrim_of_cause {tr : Trim} (h7 : tr.cause ≠ 0x07) (caddy : List Held) :
    ∃ (pages : List Word) (write : Bool), s.takeTrim caddy tr =
      ((s.backTo caddy tr).modHart fun h => { h with m15only := false }).deliver ⟨tr.cause, tr.tval, tr.stage, false, false, pages, write⟩ := by
  unfold State.takeTrim
  by_cases hh : tr.held = true
  · exact ⟨tr.pages, tr.store, if_pos hh⟩
  · exact ⟨[], false, (if_neg hh).trans (if_neg h7)⟩

/-- A trim that is taken into the hart's own handler (R70, R188). -/
theorem takeTrim_of_enabled {tr : Trim} {c : Ctx} (h7 : tr.cause ≠ 0x07) (h14 : tr.cause ≠ 0x14) (hcaddy : tr.caddy = 0) (hstage : tr.stage = 0)
    (hmode : tr.saved.tstat.getLsbD 0 = false) (hc : s.ctx? s.hart.ctx = some c) (he : c.enable.getLsbD tr.cause.toNat = true) (caddy : List Held) :
    ∃ (pages : List Word) (write : Bool), s.takeTrim caddy tr =
      ((s.backTo caddy tr).modHart fun h => { h with m15only := false }).enterHandler ⟨tr.cause, tr.tval, tr.stage, false, false, pages, write⟩ := by
  obtain ⟨pages, write, heq⟩ := takeTrim_of_cause (s := s) h7 caddy
  have hback : (s.backTo caddy tr).ctx? (s.backTo caddy tr).hart.ctx = some c := by
    rw [State.backTo, hcaddy]
    exact hc
  exact ⟨pages, write, heq.trans ((deliver_of_plain h7 h14 rfl).trans (trapPath_of_enabled hstage hmode hback he))⟩

/-! ## Resolving exit tests (R184) -/

theorem resolveLeading_of_genuine {x : Strip} {rest : List Strip} {tr : Trim} (hs : s.hart.region.strips = x :: rest) (hp : x.pending = false)
    (hg : genuine x.trims = some tr) (fuel : Nat) : s.resolveLeading (fuel + 1) = (s.takeTrim x.caddy tr).resolveLeading fuel := by
  have hfirst : s.resolveFirst = s.takeTrim x.caddy tr := by
    rw [State.resolveFirst, hs]
    dsimp only
    rw [hg]
  rw [State.resolveLeading, hs]
  dsimp only
  rw [hp, hfirst]
  rfl

theorem settleFirst_of_cons {x : Strip} {rest : List Strip} (h : s.hart.region.strips = x :: rest) :
    s.settleFirst = s.modHart fun h => { h with region := { h.region with strips := { x with pending := false } :: rest } } := by
  refine congrArg (fun l => ({ s with hart := { s.hart with region := { s.hart.region with strips := l } } } : State)) ?_
  rw [h]

theorem execExitTestResolve_of_running (h : s.executes = true) : execExitTestResolve s =
    event (if s.hart.region.strips.isEmpty then s.awaitTests else s.settleFirst.resolveLeading (s.hart.region.strips.length + 1)) := by
  rw [execExitTestResolve, h]
  rfl

end Sys2Proof.Machine
end

section
/-!
A hart that stops for good (R65, R98). With O50.
-/
namespace Sys2Proof.Machine
open Sys2Proof.Claims

variable {s t u w : State} {n : Nat} {r : Run}

/-! ## A hart that stops for good (R65, R98) -/

/-- The names of the harts stay, and which of them steps. -/
structure KeepsIds (s t : State) : Prop where
  hart : t.hart.id = s.hart.id
  others : t.others.map Hart.id = s.others.map Hart.id

namespace KeepsIds

theorem refl (s : State) : KeepsIds s s := ⟨rfl, rfl⟩

theorem trans (h : KeepsIds s t) (k : KeepsIds t u) : KeepsIds s u := ⟨k.hart.trans h.hart, k.others.trans h.others⟩

theorem of_keepsHarts (h : KeepsHarts s t) : KeepsIds s t := by
  refine ⟨h.id, ?_⟩
  have hids (l : List Hart) : l.map Hart.id = (l.map Hart.core).map Hart.id := by
    rw [List.map_map]
    rfl
  rw [hids t.others, h.others, ← hids]

theorem ne_of_mem (h : KeepsIds s t) (hs : ∀ x ∈ s.others, x.id ≠ n) : ∀ x ∈ t.others, x.id ≠ n := by
  intro x hx hid
  obtain ⟨y, hy, hyx⟩ := List.mem_map.1 (h.others ▸ List.mem_map_of_mem hx)
  exact hs y hy (hyx.trans hid)

theorem modHart {f : Hart → Hart} (hf : (f s.hart).id = s.hart.id) : KeepsIds s (s.modHart f) := ⟨hf, rfl⟩

end KeepsIds

theorem keepsIds_deliverToken (token : Nat) (v : Word) : KeepsIds s (s.deliverToken token v) := by
  unfold State.deliverToken
  split
  · exact .refl s
  · split <;> exact ⟨rfl, rfl⟩

theorem keepsIds_dropSample : KeepsIds s s.dropSample := by
  unfold State.dropSample
  split
  · exact .refl s
  · exact .trans (.modHart rfl) (keepsIds_deliverToken ..)

theorem keepsIds_writeSample : KeepsIds s s.writeSample := by
  unfold State.writeSample
  split
  · exact .refl s
  · split
    · exact .refl s
    · exact keepsIds_dropSample
    · exact .refl s
    · have hdrawn : KeepsHarts s (s.drawMany 4).1 := .of_eq rfl rfl
      exact (KeepsIds.of_keepsHarts (hdrawn.trans (keepsHarts_perform ..))).trans (.trans (.modHart rfl) (keepsIds_deliverToken ..))

theorem keepsIds_endSample : KeepsIds s s.endSample := by
  unfold State.endSample
  split
  · exact .trans (.modHart rfl) keepsIds_writeSample
  · exact keepsIds_dropSample

/-- Every hart of a name stands at `r`. -/
def StandsAt (n : Nat) (r : Run) (s : State) : Prop := ∀ h ∈ s.harts, h.id = n → h.run = r

theorem StandsAt.of_keepsHarts (h : StandsAt n r s) (k : KeepsHarts s t) : StandsAt n r t := k.forall_harts (P := fun x => x.id = n → x.run = r) h

theorem StandsAt.of_subset (h : StandsAt n r s) (k : t.harts ⊆ s.harts) : StandsAt n r t := fun x hx => h x (k hx)

theorem standsAt_of_hart (hrun : s.hart.run = r) (hs : ∀ x ∈ s.others, x.id ≠ n) : StandsAt n r s := by
  intro x hx hid
  obtain rfl | hx := List.mem_cons.1 hx
  · exact hrun
  · exact absurd hid (hs x hx)

theorem harts_focus_subset : (s.focus n).harts ⊆ s.harts := by
  unfold State.focus
  split
  · exact List.Subset.refl _
  · split
    · rename_i h hfind
      intro x hx
      obtain rfl | hx := List.mem_cons.1 hx
      · exact List.mem_cons_of_mem _ (List.mem_of_find?_eq_some hfind)
      · obtain rfl | hx := List.mem_cons.1 hx
        · exact List.mem_cons_self
        · exact List.mem_cons_of_mem _ (List.mem_filter.1 hx).1
    · exact List.Subset.refl _

theorem harts_reap_subset : s.reap.harts ⊆ s.harts := by
  have hleave : s.leaveFinished.harts ⊆ s.harts := by
    unfold State.leaveFinished
    split
    · split
      · exact harts_focus_subset
      · exact List.Subset.refl _
    · exact List.Subset.refl _
  refine List.Subset.trans (fun x hx => ?_) hleave
  obtain rfl | hx := List.mem_cons.1 hx
  · exact List.mem_cons_self
  · exact List.mem_cons_of_mem _ (List.mem_filter.1 hx).1

theorem standsAt_mapHarts {f : Hart → Hart} (h : StandsAt n r s) (hf : ∀ x, (f x).id = x.id ∧ (x.run = r → (f x).run = r)) : StandsAt n r (s.mapHarts f) := by
  intro x hx hid
  obtain ⟨y, hy, rfl⟩ := List.mem_map.1 (show x ∈ s.harts.map f from hx)
  obtain ⟨hsame, hrun⟩ := hf y
  exact hrun (h y hy (hsame ▸ hid))

/-- A handler hart that ends leaves the hart that it served stopped (R397), and no other hart otherwise. -/
theorem standsAt_endService (h : StandsAt n r s) (hr : r ≠ .reflected) (served : Option Nat) :
    StandsAt n r (match served with
      | some m => s.mapHarts fun (h : Hart) => if h.id = m ∧ h.run = Run.reflected then { h with run := Run.stopped } else h
      | none => s) := by
  split
  · refine standsAt_mapHarts h fun x => ?_
    split
    · rename_i hx
      exact ⟨rfl, fun hrun => absurd (hrun.symm.trans hx.2) hr⟩
    · exact ⟨rfl, fun h => h⟩
  · exact h

theorem drainAll_of_none (h : s.hart.stores = []) : s.drainAll = s := by
  have hhart : ({ s.hart with stores := [] } : Hart) = s.hart := by rw [← h]
  unfold State.drainAll State.drain
  simp only [h, List.filter_nil, List.foldl_nil, State.modHart, hhart]

/-- The tiles that a hart has claimed are given back (R233). -/
theorem keepsHarts_dropClaims (me : Hart) : KeepsHarts s (match s.slotTeam? me.crew me.slot with
    | some t => s.modTeam t.id fun t => { t with tiles := t.tiles.map fun (x : Tile) => if x.claim == some me.id then Tile.empty else x }
    | none => s) := by
  split
  · exact .of_eq rfl rfl
  · exact .refl s

/-- A hart with nothing left to perform stops, and stays stopped while what it held is given back. -/
theorem standsAt_finishStop (hm : s.hart.matrix = []) (hst : s.hart.stores = []) (hl : s.hart.late = []) (hstuck : s.storesStuck = false)
    (hn : ∀ x ∈ s.others, x.id ≠ n) (hw : s.setFrameState s.hart 0 = .ok w) :
    StandsAt n (if s.hart.run == .halting then .halted else .retired) s.finishStop := by
  unfold State.finishStop
  rw [performLate_of_none hl, drainAll_of_none hst]
  dsimp only
  rw [hstuck, hm, hw]
  simp only [Bool.false_eq_true, if_false, List.isEmpty_nil, Bool.not_true]
  generalize hr : (if s.hart.run == .halting then Run.halted else Run.retired) = r
  have hreflected : r ≠ .reflected := by
    rw [← hr]
    split <;> decide
  refine (StandsAt.of_keepsHarts ?_ (keepsHarts_settlePhases ..)).of_subset harts_reap_subset
  refine standsAt_endService ?_ hreflected _
  have hsample : KeepsIds s w.endSample := (KeepsIds.of_keepsHarts ((setFrameState_keeping ..).1 _ hw)).trans keepsIds_endSample
  have hcount : KeepsIds s (w.endSample.countStop (s.hart.run == .halting) false) := hsample.trans (.of_keepsHarts (keepsHarts_countStop ..))
  have hstopped : StandsAt n r ((w.endSample.countStop (s.hart.run == .halting) false).modHart fun h => { h with run := r, watch := none, session := none }) :=
    standsAt_of_hart rfl (hcount.ne_of_mem hn)
  split
  · exact (hstopped.of_keepsHarts (keepsHarts_dropClaims _)).of_keepsHarts (keepsHarts_fileEvent ..)
  · exact hstopped.of_keepsHarts (keepsHarts_dropClaims _)

end Sys2Proof.Machine

open Sys2Proof Sys2Proof.Machine Sys2Proof.Claims in
/-- Settles O50, event by event: an engine's by what its action makes of the hart in focus, the exit tests' and the strip's by what the hart that
steps resolves. -/
theorem hartEvents : Obligations.HartEvents := by
  intro s n u
  refine ⟨fun hon => ⟨?_, ?_, ?_, ?_, ?_, ?_, ?_, ?_, ?_, ?_, ?_, ?_, ?_, ?_, ?_⟩, ?_, ?_, ?_, ?_, ?_, ?_, ?_, ?_⟩
  · -- WAIT_END after its tick
    intro t ht hne
    refine leaves_of_engine hon rfl ?_
    simp only [show (s.focus n).hart.waiting = .tick t from ht]
    exact if_neg hne
  · -- WAIT_END in its tick
    intro t ht he
    refine leaves_of_engine hon rfl ?_
    simp only [show (s.focus n).hart.waiting = .tick t from ht]
    exact if_pos he
  · -- WAITW_TIMEOUT
    intro e b rest w t hc hs hw hu ht
    have hl := limitPassed_of_until hu ht
    exact leaves_of_engine hon rfl (timeOut_of_passed hc hl (congrArg some (execWaitw_of_ended hs hw hu (by rw [hl, Bool.or_true]))))
  · -- WAITW_WAKE
    intro e b rest w t hc hs hw hu hf
    refine leaves_of_engine hon rfl ?_
    simp only [show (s.focus n).hart.waiting = .until t from hu, show (s.focus n).hart.convoy = .waitw e b :: rest from hc,
      show (s.focus n).hart.watch = some w from hw, Option.map_some, Option.getD_some, hf, if_true]
    exact congrArg (State.after _) (execWaitw_of_ended hs hw hu (by rw [hf, Bool.true_or]))
  · -- LWAIT_TIMEOUT
    intro e d a b rest v x t hc hs hu ht ha hx hv hvt
    have hw := execLwait_of_acquires (e := e) (d := d) (b := b) hs ha hx rfl
    rw [waitUntil_of_until hv, limitPassed_of_until hv hvt, Bool.or_true] at hw
    exact leaves_of_engine hon rfl (timeOut_of_passed hc (limitPassed_of_until hu ht) (congrArg some hw))
  · -- COLW_TIMEOUT
    intro e d a b rest c t hc hs hu ht hcoll hopen
    exact leaves_of_engine hon rfl (timeOut_of_passed hc (limitPassed_of_until hu ht) (congrArg some (execColw_of_passed hs hu ht hcoll hopen)))
  · -- FENCE_SC_TICK
    intro e c rest t hc hs hu ht
    refine leaves_of_engine hon rfl ?_
    simp only [show (s.focus n).hart.waiting = .boundary t from hu, show (s.focus n).hart.convoy = .fenceSc e c :: rest from hc]
    exact congrArg (State.after _) (execFenceSc_of_passed hs hu ht)
  · -- COPY_STRIP of a copy that is stopped
    intro k c hc he ha
    exact leaves_of_engine hon rfl ((copyStrip_of_open hc he).trans (if_pos ha))
  · -- COPY_STRIP of one that goes on
    intro k c s1 sb s2 db s3 xs s4 gs hc he ha v hsb hdb hx hg w bad
    have hrun := (copyStrip_of_open hc he).trans ((if_neg (by rw [ha]; decide)).trans (runStrip_of_moves hsb hdb hx hg))
    rw [id_of_copy? hc] at hrun
    exact ⟨_, leaves_of_engine hon rfl hrun, rfl, rfl⟩
  · -- COPY_COMPLETION
    intro k c st hc he hd hn
    refine ⟨_, leaves_of_engine hon rfl (copyDeliver_of_ended hc he hd hn), ?_, fun x hx => delivered_modCopy hx⟩
    have told := told_deliverToken (s := u.notePoison st) (token := c.token) (w := status st c.op c.count)
    rw [Told, notePoison_hart] at told
    exact told
  · -- COPY_COMPLETION before every element is acknowledged
    intro k c st hc he hn
    exact leaves_of_engine hon rfl (copyDeliver_of_unacked hc hn)
  · -- MATRIX_OP_PERFORM
    intro op rest hm
    refine leaves_of_engine hon rfl ?_
    rw [State.matrixStep, show (s.focus n).hart.matrix = op :: rest from hm]
  · -- QUEUED_GATHER_PERFORM
    intro k g s1 base s2 r hg hp hb hr
    exact leaves_of_engine hon rfl (performGather_of_open hg hp hb hr)
  · -- SAMPLE_RECORD_WRITE
    intro place dirty via token head info elems hx
    exact ⟨_, length_sampleRecord .., take_sampleRecord .., leaves_of_engine hon rfl (writeSample_of_done hx rfl)⟩
  · -- HART_RETIRE
    intro w hm hst hl hstuck hn hw
    have hstop := standsAt_finishStop hm hst hl hstuck hn hw
    refine ⟨fun hrun => ⟨_, leaves_of_engine hon rfl (if_pos (.inl hrun)), ?_⟩, fun hrun => ⟨_, leaves_of_engine hon rfl (if_pos (.inr hrun)), ?_⟩⟩
    · rw [hrun] at hstop
      exact hstop
    · rw [hrun] at hstop
      exact hstop
  · -- ACCESS_PERFORMED of late vector loads
    intro hhas hl
    refine (congrArg event (if_pos hhas)).trans ?_
    exact congrArg (fun t : State => event (t.focus s.hart.id)) (performOldest_of_late hl)
  · -- ACCESS_PERFORMED of a store
    intro v old q new hhas hl hs ho hq hstuck
    refine (congrArg event (if_pos hhas)).trans ?_
    exact congrArg (fun t : State => event (t.focus s.hart.id)) (performOldest_of_first hl hs ho hq hstuck)
  · -- MIRROR_ACK
    exact fun m => rfl
  · -- EXIT_TEST_RESOLVE of a hart that does not execute
    intro he
    refine congrArg event (if_pos ?_)
    rw [he]
    rfl
  · -- EXIT_TEST_RESOLVE with no open test
    intro he hs hp
    refine (execExitTestResolve_of_running he).trans ?_
    rw [hs, State.awaitTests, hp]
    rfl
  · -- EXIT_TEST_RESOLVE with open tests in the present strip
    intro he hs hp
    refine (execExitTestResolve_of_running he).trans ?_
    rw [hs, State.awaitTests, hp]
    rfl
  · -- EXIT_TEST_RESOLVE of the oldest strip
    intro x rest he hs v
    have hrun : exec .exitTestResolve s = .next (v.resolveLeading (rest.length + 2)) := by
      refine (execExitTestResolve_of_running he).trans ?_
      rw [settleFirst_of_cons hs, hs]
      rfl
    exact ⟨hrun, fun tr hg => hrun.trans (congrArg Host.Outcome.next (resolveLeading_of_genuine (x := { x with pending := false }) rfl rfl hg _))⟩
  · -- STRIP_RESOLVE
    intro i rest tr more c hc ht he hd h7 hs hp hsup hcaddy h14 hstage hmode hctx hen
    obtain ⟨pages, write, htake⟩ := takeTrim_of_enabled h7 h14 hcaddy hstage hmode hctx hen s.hart.caddy
    have hexec : exec .stripResolve s = .next (s.takeTrim s.hart.caddy tr) := by
      refine congrArg event ?_
      rw [he, hs, hc]
      simp only [hd, decideTrims_of_first hs hp ht hcaddy hsup]
      rfl
    refine ⟨_, _, hexec.trans (congrArg Host.Outcome.next htake), entered_enterStatus tr.saved.tstat false false, rfl, rfl, rfl, rfl, rfl, ?_, rfl, rfl, ?_, ?_, ?_⟩
    all_goals rw [State.backTo, hcaddy]; rfl
end

section
/-!
Where a trap leaves its hart (R70, R71, R397, R416), and a residue trap of a member that runs under m15 (R70, R124). With O28.
-/
namespace Sys2Proof.Machine
open Sys2Proof.Claims

variable (s : State) (t : Trap)

/-! ## Where a trap leaves its hart (R70, R71, R397, R416) -/

theorem run_frameFault (access : FrameAccess) : (s.frameFault access).hart.run ≠ .ready := by
  unfold State.frameFault
  split
  · exact Run.noConfusion
  · split
    · exact Run.noConfusion
    · rw [run_crownHalt]
      exact Run.noConfusion

/-- A hart that starts marked resident in its frame goes on as what it is, or does not go on (R415, R416). -/
theorem serves_startFrame (hr : s.startFrame.hart.run = .ready) : s.startFrame.hart.serves = s.hart.serves := by
  unfold State.startFrame at *
  have key : AttemptsKeeping s.synced id (s.synced.setFrameState s.hart 1) := setFrameState_keeping ..
  split
  · exact (congrArg Hart.serves (key.1 _ ‹_›).hart :)
  · rename_i u h
    rw [h] at hr
    exact absurd hr (run_frameFault _ _)

/-- Where a reflected hart's slot goes on, its hart is a handler hart (R397). -/
theorem serves_reflect (j : Nat) (a : Ctx) (hr : (s.reflect t j a).hart.run = .ready) : (s.reflect t j a).hart.serves ≠ none := by
  unfold State.reflect at *
  extract_lets at *
  split
  · rename_i he
    simp only [he] at hr
    exact absurd hr (run_frameFault _ _)
  · rename_i he
    simp only [he] at hr
    rw [serves_startFrame _ hr]
    exact Option.some_ne_none _

/-- The trap path leads to the hart's own handler, to a handler hart, or to a hart that does not go on. -/
theorem trapPath_cases : s.trapPath t = s.enterHandler t ∨ (s.trapPath t).hart.serves ≠ none ∨ (s.trapPath t).hart.run ≠ .ready := by
  unfold State.trapPath
  extract_lets chain enables
  split_ifs
  · exact .inl rfl
  · refine .inr ?_
    split
    · exact Classical.or_iff_not_imp_right.2 fun h => serves_reflect s t _ _ (not_not.1 h)
    · exact .inr (by rw [run_crownHalt]; exact Run.noConfusion)

/-! ## A residue trap under m15 (R70, R124) -/

/-- A hart that executes under m15 alone, in user mode, with RIE set: its one element is active and is no residue value (R122, R136). -/
def State.underM15 : State := State.reset.modHart fun h =>
  let h := (h.setElem 1 4 0 0xFFFFFFFF).setMask 15 0 true
  { h with m15only := true, regs := { h.regs with vl := 1, astat := 4 } }

/-- What the residue trap there leaves: the hart is in its own handler with RFM set, as m15 names the rest of the member (R70). -/
theorem exec_underM15 : ∃ u : State, exec (.vrout true 3 1 false) State.underM15 = .next u ∧
    u.hart.run = .ready ∧ u.hart.serves = none ∧ u.hart.regs.tstat.getLsbD 6 = true :=
  ⟨_, rfl, by decide +kernel, by decide +kernel, by decide +kernel⟩

theorem clean_underM15 : Clean State.underM15.hart false fun j => [(1, 4, j)] := by
  intro j _ x _
  rfl

end Sys2Proof.Machine

open Sys2Proof Sys2Proof.Machine Sys2Proof.Claims in
/-- Refutes O28: a residue trap of a member that executes under m15 alone enters the handler with RFM set (R70), which the trap path of a trap
without it does from no state. -/
theorem not_residueResults : ¬ Obligations.ResidueResults := by
  intro h
  obtain ⟨-, hbad⟩ := h (.vrout true 3 1 false) State.underM15 _ rfl (by decide +kernel) clean_underM15 rfl
  obtain ⟨-, htrap⟩ := hbad rfl rfl (by decide +kernel) (by decide +kernel)
  obtain ⟨t, hexec, -⟩ := htrap (by decide +kernel) ⟨⟨rfl, rfl, rfl⟩, rfl⟩ rfl
  obtain ⟨u, hu, hrun, hserves, hrfm⟩ := exec_underM15
  obtain rfl := Host.Outcome.next.inj (hu.symm.trans hexec)
  obtain henter | hhandler | hstop := trapPath_cases t (.own 0x14 0)
  · rw [henter] at hrfm
    obtain ⟨-, -, -, -, -, -, hclear, -⟩ := entered_enterStatus t.hart.regs.tstat false false
    exact Bool.false_ne_true (hclear.symm.trans hrfm)
  · exact hhandler hserves
  · exact hstop hrun
end

section
/-!
Reductions, MPOP and MFIRST from element 0 on with no poisoned element (R126, R127, R150, R154, R155). With O29.
-/
namespace Sys2Proof.Machine
open Sys2Proof.Claims

/-! ## Scalar registers written twice -/

theorem Sparse.drop_insert {α : Type} (m : Sparse α) (k : Nat) (v : α) : Sparse.drop (Sparse.insert m k v) k = Sparse.drop m k := by
  induction m with
  | nil => simp [Sparse.insert, Sparse.drop]
  | cons x m ih =>
    obtain ⟨j, w⟩ := x
    rw [Sparse.insert]
    split
    · simp_all [Sparse.drop]
    · split
      · simp [Sparse.drop]
      · simp_all [Sparse.drop]

/-- A register cleared after a write is as if it had been cleared at once. -/
theorem Regs.setG_zero_setG (r : Regs) (d : GReg) {v : Word} (hv : v ≠ 0) : (r.setG d v).setG d 0 = r.setG d 0 := by
  by_cases hd : d = 0
  · simp [Regs.setG, hd]
  · have hput (m : Sparse Word) (k : Nat) : Sparse.put zeroWord (Sparse.put zeroWord m k v) k 0 = Sparse.put zeroWord m k 0 := by
      have hzero : (0 : Word) = zeroWord k := rfl
      rw [Sparse.put, if_pos hzero, Sparse.put, if_neg (show v ≠ zeroWord k from hv), Sparse.drop_insert, Sparse.put, if_pos hzero]
    simp only [Regs.setG, if_neg hd]
    exact congrArg (fun g => ({ r with gpr := g } : Regs)) (hput ..)

/-! ## Members that no pre-emption stops -/

variable {i : Instr} {s : State} {e m : Bool} {d : GReg}

theorem through_of_uncut (hcut : s.hart.cut = none) : s.through = .ok s := by
  rw [State.through, State.throughTo, hcut]

theorem elements_of_uncut {h : Hart} (hcut : h.cut = none) : h.elements = h.upTo h.regs.vl := by
  rw [Hart.elements, Hart.last, hcut, Hart.upTo]

theorem toCompletion_of_clean (hcut : s.hart.cut = none) {src : Hart → Nat → List (Nat × Nat × Nat)} (hc : Clean s.hart m (src s.hart))
    (f : Hart → (Nat → Bool) → Hart) : toCompletion m src f s = .ok { s with hart := f s.hart (s.hart.active m) } := by
  have hh : ({ s.hart with cut := none } : Hart) = s.hart := by rw [← hcut]
  have hfind : (List.range s.hart.regs.vl).find? (fun j => s.hart.active m j && (src s.hart j).any fun x => s.hart.elemPoison x.1 x.2.1 x.2.2) = none := by
    simp only [List.find?_eq_none, Bool.and_eq_true, List.any_eq_true, not_and, not_exists]
    intro j _ hj x hx hbad
    exact Bool.false_ne_true ((hc j hj x hx).symm.trans hbad)
  simp [toCompletion, hh, hfind]

/-! ## Folds in the words of a scalar register -/

section
variable {n : Nat} (hn : 0 < n) (hn' : n ≤ 64) (y : Nat → Nat) (js : List Nat)

theorem foldl_sum : js.foldl (fun x j => x + BitVec.ofInt 64 (toSigned n (y j))) 0 = BitVec.ofInt 64 (js.map fun j => signed n (y j)).sum := by
  rw [List.sum_eq_foldl, List.foldl_map]
  refine foldl_form (BitVec.ofInt 64) (fun _ => True) js (fun _ _ _ _ => trivial) (fun x j _ _ => ?_) 0 trivial
  rw [toSigned_eq_signed, BitVec.ofInt_add]

include hn hn' in
theorem foldl_signedMax : js.foldl (fun x j => signedPick (fun x y => decide (y < x)) n x (y j)) (BitVec.ofInt 64 (minSigned n)) =
    BitVec.ofInt 64 (js.foldl (fun x j => max x (signed n (y j))) (-(2 ^ (n - 1)))) :=
  foldl_form (BitVec.ofInt 64) FitsWord js (fun _ j _ hx => hx.max (fitsWord_signed hn hn' (y j))) (fun _ j _ hx => signedPick_max hx n (y j)) _
    (fitsWord_minSigned hn hn')

include hn hn' in
theorem foldl_signedMin : js.foldl (fun x j => signedPick (fun x y => decide (x < y)) n x (y j)) (BitVec.ofInt 64 (maxSigned n)) =
    BitVec.ofInt 64 (js.foldl (fun x j => min x (signed n (y j))) (2 ^ (n - 1) - 1)) :=
  foldl_form (BitVec.ofInt 64) FitsWord js (fun _ j _ hx => hx.min (fitsWord_signed hn hn' (y j))) (fun _ j _ hx => signedPick_min hx n (y j)) _
    (fitsWord_maxSigned hn hn')

theorem foldl_and (x : Nat) : js.foldl (fun x j => x &&& Word.ofNat (y j)) (Word.ofNat x) = BitVec.ofNat 64 (js.foldl (fun x j => x &&& y j) x) :=
  foldl_form (BitVec.ofNat 64) (fun _ => True) js (fun _ _ _ _ => trivial) (fun _ _ _ _ => BitVec.ofNat_and.symm) x trivial

theorem foldl_or (x : Nat) : js.foldl (fun x j => x ||| Word.ofNat (y j)) (Word.ofNat x) = BitVec.ofNat 64 (js.foldl (fun x j => x ||| y j) x) :=
  foldl_form (BitVec.ofNat 64) (fun _ => True) js (fun _ _ _ _ => trivial) (fun _ _ _ _ => BitVec.ofNat_or.symm) x trivial

end

/-- An ordered sum is an encoding of its format (R126). -/
theorem orderedSum_lt {f : Fmt} (hf : f ∈ formats) {x : Nat} (hx : x < 2 ^ f.bits) (ys : List Nat) :
    ys.foldl (fun x y => f.encode 0 0 ((f.decode x).add 0 (f.decode y))) (if (f.decode x).isNan then f.nan else x) < 2 ^ f.bits := by
  have hstart : (if (f.decode x).isNan then f.nan else x) < 2 ^ f.bits := by
    split
    · exact (codes_of_format f hf).2.1
    · exact hx
  induction ys using List.reverseRecOn with
  | nil => exact hstart
  | append_singleton ys y _ =>
    rw [List.foldl_append]
    exact encode_lt hf ..

/-! ## Reductions -/

section
variable (hcut : s.hart.cut = none) (h0 : s.hart.elix = 0)
include hcut h0

theorem elements_active : s.hart.elements.filter (s.hart.active m) = act s m := by
  rw [elements_of_uncut hcut, upTo_of_zero h0, act]

theorem reduction_of_clean {a : VReg} (hc : ∀ j ∈ act s m, s.hart.elemPoison a.toNat (vtBytes s.hart.regs.vt) j = false) (init : Word)
    (step : Word → Nat → Word) (d : GReg) : reduction init step d a m s =
      .ok (s.setG d ((act s m).foldl (fun x j => step x (s.hart.elem a.toNat (vtBytes s.hart.regs.vt) j)) init)) := by
  have hfind : (act s m).find? (fun j => s.hart.elemPoison a.toNat s.hart.width j) = none :=
    List.find?_eq_none.2 fun j hj => Bool.eq_false_iff.1 (hc j hj)
  simp only [reduction, elements_active hcut h0, hfind, if_pos h0]
  exact through_of_uncut hcut

theorem wrote_of_reduction {a : VReg} (hc : ∀ j ∈ act s m, s.hart.elemPoison a.toNat (vtBytes s.hart.regs.vt) j = false) {init v : Word}
    {step : Word → Nat → Word} (hexec : exec i s = member e (reduction init step d a m s))
    (hv : (act s m).foldl (fun x j => step x (s.hart.elem a.toNat (vtBytes s.hart.regs.vt) j)) init = v) :
    exec i s = Wrote s e (s.hart.regs.setG d v) := by
  rw [hexec, reduction_of_clean hcut h0 hc, hv]
  rfl

theorem mpop_writes (a : MReg) : exec (.mpop e d a m) s =
    Wrote s e (s.hart.regs.setG d (BitVec.ofNat 64 ((act s m).filter fun j => s.hart.regs.mask a.toNat j).length)) := by
  have hcount : s.hart.elements.filter (fun j => s.hart.active m j && s.hart.regs.mask a.toNat j) =
      (act s m).filter fun j => s.hart.regs.mask a.toNat j := by
    rw [← elements_active hcut h0, List.filter_filter]
    simp only [Bool.and_comm]
  change execMpop e d a m s = _
  rw [execMpop, hcount, if_pos h0, zero_add, through_of_uncut (by exact hcut)]
  rfl

theorem mfirst_writes (a : MReg) : exec (.mfirst e d a m) s =
    Wrote s e (s.hart.regs.setG d (BitVec.ofNat 64 (((act s m).find? fun j => s.hart.regs.mask a.toNat j).getD s.hart.regs.vl))) := by
  have hfound : s.hart.elements.find? (fun j => s.hart.active m j && s.hart.regs.mask a.toNat j) =
      (act s m).find? fun j => s.hart.regs.mask a.toNat j := by
    rw [← elements_active hcut h0, List.find?_filter]
    simp
  change execMfirst e d a m s = _
  rw [execMfirst, hfound, if_neg fun h => h.1 h0]
  cases (act s m).find? fun j => s.hart.regs.mask a.toNat j with
  | none => exact congrArg (member e) (through_of_uncut (s := s.setG d _) hcut)
  | some j => rfl

theorem reduced_writes {a : Option VReg} {v : Word} (hv : reduced s i = some (e, d, a, m, v))
    (hc : ∀ x, a = some x → ∀ j ∈ act s m, s.hart.elemPoison x.toNat (vtBytes s.hart.regs.vt) j = false) :
    exec i s = Wrote s e (s.hart.regs.setG d v) := by
  obtain ⟨hbits, hword⟩ := bits_pos_le s
  unfold reduced at hv
  split at hv <;> cases hv
  · exact wrote_of_reduction hcut h0 (hc _ rfl) rfl (foldl_sum ..)
  · exact wrote_of_reduction hcut h0 (hc _ rfl) rfl (foldl_signedMax hbits hword ..)
  · exact wrote_of_reduction hcut h0 (hc _ rfl) rfl (foldl_signedMin hbits hword ..)
  · exact wrote_of_reduction hcut h0 (hc _ rfl) rfl (foldl_and ..)
  · exact wrote_of_reduction hcut h0 (hc _ rfl) rfl (foldl_or ..)
  · exact mpop_writes hcut h0 _
  · exact mfirst_writes hcut h0 _

/-! ## Float reductions -/

variable {f : Fmt} {a : VReg} (hf : floatOf s.hart.regs.vt = some f)
  (hc : ∀ j ∈ act s m, s.hart.elemPoison a.toNat (vtBytes s.hart.regs.vt) j = false)
include hf hc

theorem vfrmax_writes : exec (.vfrmax e d a m) s = Wrote s e (s.hart.regs.setG d (BitVec.ofNat 64
    (floatMax f ((act s m).map fun j => s.hart.elem a.toNat (vtBytes s.hart.regs.vt) j)))) := by
  have hexec : exec (.vfrmax e d a m) s = execVfrmax e d a m s := rfl
  rw [execVfrmax, floatFamily_of_some hf] at hexec
  refine wrote_of_reduction hcut h0 hc hexec ?_
  rw [← List.foldl_map (g := fun x y => Word.ofNat (nanMax f (x.toNat % 2 ^ f.bits) y))]
  refine foldl_nanMax (floatOf_mem hf) fun y hy => ?_
  obtain ⟨k, -, rfl⟩ := List.mem_map.1 hy
  exact floatOf_bits hf ▸ elem_lt ..

theorem vfsumo_writes : exec (.vfsumo e d a m) s = Wrote s e (s.hart.regs.setG d (BitVec.ofNat 64
    (match (act s m).map fun j => s.hart.elem a.toNat (vtBytes s.hart.regs.vt) j with
      | [] => 0
      | x :: xs => xs.foldl (fun x y => f.encode 0 0 ((f.decode x).add 0 (f.decode y))) (if (f.decode x).isNan then f.nan else x)))) := by
  have hexec : exec (.vfsumo e d a m) s = execVfsumo e d a m s := rfl
  rw [execVfsumo, floatFamily_of_some hf, reduction_of_clean hcut h0 hc, ← List.foldl_map (g := orderedStep f)] at hexec
  have hread (v : Word) : (s.setG d v).g d = if d = 0 then 0 else v := s.hart.regs.g_setG d v
  cases hys : (act s m).map fun j => s.hart.elem a.toNat (vtBytes s.hart.regs.vt) j with
  | nil =>
    simp only [hys, List.foldl_nil, hread] at hexec
    rw [hexec]
    by_cases hd : d = 0
    · rw [if_pos hd, if_neg (by decide), hd]
      rfl
    · rw [if_neg hd, if_pos rfl]
      exact congrArg (fun r => Wrote s e r) (s.hart.regs.setG_zero_setG d (by decide))
  | cons y ys =>
    have hmem := floatOf_mem hf
    have hlt : y < 2 ^ f.bits := by
      obtain ⟨k, -, rfl⟩ := List.mem_map.1 (hys ▸ List.mem_cons_self (a := y) (l := ys))
      exact floatOf_bits hf ▸ elem_lt ..
    simp only [hys, hread] at hexec
    rw [hexec, foldl_orderedStep hmem hlt, if_neg]
    · rfl
    · split
      · decide
      · exact code_ne_emptySum hmem (orderedSum_lt hmem hlt ys)

omit h0 in
theorem vfsumt_writes : exec (.vfsumt e d a m) s = Wrote s e (s.hart.regs.setG d (BitVec.ofNat 64
    (match sumTree f 17 ((List.range s.hart.regs.vl).map fun j =>
        if s.hart.active m j then some (s.hart.elem a.toNat (vtBytes s.hart.regs.vt) j) else none) with
      | none => 0
      | some x => if (f.decode x).isNan then f.nan else x))) := by
  have hclean : Clean s.hart m fun j => [(a.toNat, vtBytes s.hart.regs.vt, j)] := by
    intro j hj x hx
    obtain rfl := List.mem_singleton.1 hx
    exact hc j (List.mem_filter.2 ⟨List.mem_range.2 (active_lt hj), hj⟩)
  have hexec : exec (.vfsumt e d a m) s = execVfsumt e d a m s := rfl
  rw [execVfsumt, floatFamily_of_some hf, toCompletion_of_clean hcut hclean] at hexec
  rw [hexec]
  rfl

theorem floatReduced_writes {v : Nat} (hv : floatReduced s f i = some (e, d, a, m, v)) :
    exec i s = Wrote s e (s.hart.regs.setG d (BitVec.ofNat 64 v)) := by
  unfold floatReduced at hv
  split at hv <;> cases hv
  · exact vfsumo_writes hcut h0 hf hc
  · exact vfsumt_writes hcut hf hc
  · exact vfrmax_writes hcut h0 hf hc

end

end Sys2Proof.Machine

open Sys2Proof Sys2Proof.Machine Sys2Proof.Claims in
/-- Settles O29: no element is poisoned, so each reduction folds over all its active elements in order, and the scalar register holds the fold. -/
theorem reductionResults : Obligations.ReductionResults := by
  unfold Obligations.ReductionResults
  constructor
  · exact fun i s e d a m v hv h0 hcut hc => reduced_writes hcut h0 hv hc
  · exact fun i s f e d a m v hf hv h0 hcut hc => floatReduced_writes hcut h0 hf hc hv
end

section
/-!
Members that go element by element, or to completion, with no poisoned element, and so the conversions (R116, R136, R151, R152). With O27.
-/
namespace Sys2Proof.Machine
open Sys2Proof.Claims

variable {i : Instr} {s : State} {m : Bool} {l : List Issue} {f : Hart → Nat → Element}

/-- The pass goes through where no active element traps; the active ones have taken effect. -/
theorem runElements_through {act : Nat → Bool} {f : Nat → Element} {g : Nat → Hart → Hart} {ks : List Nat}
    (hok : ∀ k ∈ ks, act k = true → f k = .ok (g k)) (h : Hart) :
    runElements act f ks h = ((ks.filter act).foldl (fun h k => g k h) h, none) := by
  induction ks generalizing h with
  | nil => rfl
  | cons k ks ih =>
    have ih := ih fun j hj => hok j (List.mem_cons_of_mem _ hj)
    by_cases hk : act k = true
    · simp [runElements, hk, hok k List.mem_cons_self hk, ih]
    · simp [runElements, hk, ih]

/-- The active elements of a member that no pre-emption stops, each with its value. -/
def Hart.results (h : Hart) (m : Bool) (val : Nat → Nat) : List (Nat × Nat) := ((h.upTo h.regs.vl).filter (h.active m)).map fun k => (k, val k)

theorem mem_results {h : Hart} {val : Nat → Nat} {k v : Nat} :
    (k, v) ∈ h.results m val ↔ k < h.regs.vl ∧ atActive h m val k = some v := by
  simp only [Hart.results, List.mem_map, List.mem_filter, mem_upTo, Prod.mk.injEq, atActive]
  grind

theorem results_nodup (h : Hart) (val : Nat → Nat) : ((h.results m val).map (·.1)).Nodup := by
  rw [Hart.results, List.map_map]
  exact (List.map_id _).symm ▸ upTo_nodup.filter _

/-- The active elements written one after the other. -/
theorem foldl_setElem (h t : Hart) (d w : Nat) (val : Nat → Nat) :
    ((h.upTo h.regs.vl).filter (h.active m)).foldl (fun t k => t.setElem d w k (val k)) t = t.putAll d w (h.results m val) := by
  rw [Hart.putAll, Hart.results, List.foldl_map]

theorem elementwise_through {g : Nat → Hart → Hart} {t : Hart} (hcut : s.hart.cut = none) (hok : ∀ k, s.hart.active m k = true → f s.hart k = .ok (g k))
    (ht : ((s.hart.upTo s.hart.regs.vl).filter (s.hart.active m)).foldl (fun h k => g k h) s.hart = t) (htc : t.cut = none) :
    elementwise m f s = .ok { s with hart := t } := by
  have hrun := runElements_through (ks := s.hart.upTo s.hart.regs.vl) (fun k _ => hok k) s.hart
  rw [ht, ← elements_of_uncut hcut] at hrun
  simp only [elementwise, hrun]
  exact through_of_uncut htc

/-- A member that leaves its active elements written, and what it read at issue, does what its rule says. -/
theorem writesElements_of_putAll {r : ElemRule} {val : Nat → Nat} (hnew : r.new = atActive s.hart m val)
    (hexec : exec i s = .next (State.retire { s with hart := ({ s.hart with issued := l } : Hart).putAll r.d.toNat r.w (s.hart.results m val) } r.e)) :
    WritesElements i s r := by
  refine ⟨_, hexec, written_putAll (xs := s.hart.results m val) ?_ (putAll_issued ..) (results_nodup ..) ?_, ?_⟩
  · rw [putAll_hart]
  · rw [hnew]
    exact fun _ _ => mem_results
  · rw [putAll_hart]

/-- A member each of whose elements writes one value, with no poisoned element consumed, writes them all. -/
theorem writesElements_of_consumes {r : ElemRule} {val : Nat → Nat} (hcut : s.hart.cut = none)
    (hexec : exec i s = member r.e (elementwise m f (s.modHart fun h => { h with issued := l })))
    (hok : ∀ k, s.hart.active m k = true → f { s.hart with issued := l } k = consumes s.hart (r.src k) (.ok fun t => t.setElem r.d.toNat r.w k (val k)))
    (hnew : r.new = atActive s.hart m val) (hc : Clean s.hart m r.src) : WritesElements i s r := by
  have hput (k : Nat) (hk : s.hart.active m k = true) := (hok k hk).trans (consumes_of_clean (hc k hk) _)
  have hrun := elementwise_through (s := s.modHart fun h => { h with issued := l }) (by exact hcut) (by exact hput)
    (foldl_setElem s.hart ..) (by rw [putAll_hart]; exact hcut)
  exact writesElements_of_putAll (l := l) hnew (hexec.trans (congrArg (member r.e) hrun))

theorem conversion_writes (hcut : s.hart.cut = none) {c : Conversion} {src dst : Kind} (hi : conversion i = some c)
    (hsrc : kindOf c.source s.hart.regs.vt = some src) (hdst : kindOf c.target c.b = some dst) (hl : c.legal s)
    (hc : Clean s.hart c.m (c.rule s src dst).src) : WritesElements i s (c.rule s src dst) := by
  obtain ⟨f3, hexec⟩ := exec_conversion (s := s) hi
  rw [convertOp, illegalRegister, if_pos (convertOp_legal hsrc hdst hl)] at hexec
  simp only [hsrc, hdst] at hexec
  split at hexec
  · exact writesElements_of_consumes (l := s.hart.issued) hcut hexec (fun _ _ => rfl) rfl hc
  · rw [toCompletion_of_clean hcut hc, elements_of_uncut hcut, foldl_setElem] at hexec
    exact writesElements_of_putAll (m := c.m) (l := s.hart.issued) rfl hexec

end Sys2Proof.Machine
end

section
/-!
The magnitudes of a float format's encodings (R111), in units of 2^-149: their order, and what decoding an encoding gives. With O27.
-/
namespace Sys2Proof.Machine
open Sys2Proof.Claims

/-! ## Encodings as magnitudes -/

/-- The magnitude of an encoding without its sign, in units of the smallest subnormal, for `F` fraction bits. -/
def codeValue (F c : Nat) : Nat := if c < 2 ^ F then c else (2 ^ F + c % 2 ^ F) * 2 ^ (c / 2 ^ F - 1)

section
variable {F k n : Nat}

/-- Significand `n` and exponent `k` stand for the encoding k × 2^F + n, with or without a carry into the exponent. -/
theorem codeValue_significand (hn : n ≤ 2 ^ (F + 1)) (hk : k = 0 ∨ 2 ^ F ≤ n) : codeValue F (k * 2 ^ F + n) = n * 2 ^ k := by
  have hpos : 0 < 2 ^ F := Nat.two_pow_pos F
  have htwo : 2 ^ (F + 1) = 2 ^ F + 2 ^ F := by ring
  rw [codeValue]
  rcases Nat.lt_or_ge n (2 ^ F) with hlt | hge
  · have hk : k = 0 := hk.resolve_right (Nat.not_le.2 hlt)
    simp [hk, hlt]
  · obtain ⟨q, rfl⟩ := Nat.exists_eq_add_of_le hge
    have hsplit : k * 2 ^ F + (2 ^ F + q) = q + 2 ^ F * (k + 1) := by ring
    rw [if_neg (by omega), hsplit, Nat.add_mul_mod_self_left, Nat.add_mul_div_left _ _ hpos]
    rcases Nat.lt_or_ge q (2 ^ F) with hq | hq
    · rw [Nat.mod_eq_of_lt hq, Nat.div_eq_of_lt hq, Nat.zero_add, Nat.add_sub_cancel]
    · obtain rfl : q = 2 ^ F := by omega
      rw [Nat.mod_self, Nat.div_self hpos]
      simp only [Nat.add_zero, Nat.add_sub_cancel_left]
      ring

/-- Every encoding has a significand that carries no further. -/
theorem exists_significand (F c : Nat) : ∃ k n, c = k * 2 ^ F + n ∧ n < 2 ^ (F + 1) ∧ (k = 0 ∨ 2 ^ F ≤ n) := by
  have hpos : 0 < 2 ^ F := Nat.two_pow_pos F
  have htwo : 2 ^ (F + 1) = 2 ^ F + 2 ^ F := by ring
  have hmod := Nat.mod_lt c hpos
  have hdiv := Nat.div_add_mod c (2 ^ F)
  cases hk : c / 2 ^ F with
  | zero => exact ⟨0, c, by simp, by rw [hk] at hdiv; omega, .inl rfl⟩
  | succ k =>
    refine ⟨k, 2 ^ F + c % 2 ^ F, ?_, by omega, .inr (by omega)⟩
    rw [hk] at hdiv
    linarith

theorem codeValue_strictMono (F : Nat) : StrictMono (codeValue F) := by
  refine strictMono_nat_of_lt_succ fun c => ?_
  obtain ⟨k, n, rfl, hn, hk⟩ := exists_significand F c
  rw [codeValue_significand hn.le hk, Nat.add_assoc, codeValue_significand hn (hk.imp_right fun h => by omega)]
  exact Nat.mul_lt_mul_of_pos_right n.lt_succ_self (Nat.two_pow_pos k)

end

/-- The exponent of a format's smallest subnormal, counted from 2^-149. -/
def Fmt.low (f : Fmt) : Nat := 150 - (f.bias + f.fbits)

/-- The magnitude of an encoding without its sign, in units of 2^-149. -/
def Fmt.mag (f : Fmt) (c : Nat) : Nat := codeValue f.fbits c * 2 ^ f.low

variable {f : Fmt}

theorem mag_strictMono (f : Fmt) : StrictMono f.mag := fun _ _ h =>
  Nat.mul_lt_mul_of_pos_right (codeValue_strictMono _ h) (Nat.two_pow_pos _)

theorem mag_zero (f : Fmt) : f.mag 0 = 0 := by simp [Fmt.mag, codeValue]

theorem mag_significand {k n : Nat} (hn : n ≤ 2 ^ (f.fbits + 1)) (hk : k = 0 ∨ 2 ^ f.fbits ≤ n) :
    f.mag (k * 2 ^ f.fbits + n) = n * 2 ^ (k + f.low) := by
  rw [Fmt.mag, codeValue_significand hn hk, Nat.pow_add]
  ring

/-- A magnitude with a sign. -/
def signedMag (neg : Bool) (x : Nat) : Int := if neg then -x else x

@[simp] theorem natAbs_signedMag (neg : Bool) (x : Nat) : (signedMag neg x).natAbs = x := by cases neg <;> simp [signedMag]

theorem signedMag_mul (neg : Bool) (x y : Nat) : signedMag neg x * signedMag neg y = (x * y : Nat) := by cases neg <;> simp [signedMag]

theorem signedMag_neg_iff {neg : Bool} {x : Nat} (hx : 0 < x) : signedMag neg x < 0 ↔ neg = true := by
  cases neg
  · simp [signedMag]
  · simpa [signedMag] using hx

/-! ## Decoding -/

/-- What the formats of R111 have in common. -/
theorem format_facts : ∀ f ∈ formats, 1 ≤ f.fbits ∧ f.bias + f.fbits ≤ 150 ∧ 2 ^ f.ebits ≤ 256 ∧ 2 ^ f.fbits ≤ f.maxCode ∧
    f.maxCode < 2 ^ (f.ebits + f.fbits) ∧ largest f = f.maxCode ∧
    ((f.top = .ieee ∧ f.maxCode = (2 ^ f.ebits - 1) * 2 ^ f.fbits - 1) ∨ f = e4m3) := by
  decide

/-- The sign and the magnitude code of an encoding. -/
def Fmt.sign (f : Fmt) (x : Nat) : Bool := x / 2 ^ (f.ebits + f.fbits) % 2 == 1
def Fmt.code (f : Fmt) (x : Nat) : Nat := x % 2 ^ (f.ebits + f.fbits)

theorem code_fields (f : Fmt) (x : Nat) : f.code x = x / 2 ^ f.fbits % 2 ^ f.ebits * 2 ^ f.fbits + x % 2 ^ f.fbits := by
  rw [Fmt.code, Nat.add_comm, Nat.pow_add, Nat.mod_mul, Nat.add_comm, Nat.mul_comm]

section
variable (hf : f ∈ formats) {x : Nat}
include hf

/-- The finite encodings, by their fields (R111). -/
theorem decode_of_finite (hx : f.code x ≤ f.maxCode) : f.decode x =
    if x / 2 ^ f.fbits % 2 ^ f.ebits = 0 then .num (f.sign x) (x % 2 ^ f.fbits) (1 - f.bias - f.fbits)
    else .num (f.sign x) (2 ^ f.fbits + x % 2 ^ f.fbits) (Int.ofNat (x / 2 ^ f.fbits % 2 ^ f.ebits) - f.bias - f.fbits) := by
  obtain ⟨-, -, -, hmin, -, -, ⟨htop, hmax⟩ | rfl⟩ := format_facts f hf
  · have hex : x / 2 ^ f.fbits % 2 ^ f.ebits ≠ 2 ^ f.ebits - 1 := by
      intro h
      have hpos : 0 < 2 ^ f.fbits := Nat.two_pow_pos _
      rw [code_fields, h] at hx
      omega
    simp [Fmt.decode, htop, hex, Fmt.sign]
  · have hex : ¬ (x / 2 ^ 3 % 2 ^ 4 = 15 ∧ x % 2 ^ 3 = 7) := by
      rw [code_fields] at hx
      change x / 2 ^ 3 % 2 ^ 4 * 2 ^ 3 + x % 2 ^ 3 ≤ 126 at hx
      omega
    simp_all [Fmt.decode, e4m3, Fmt.sign]

/-- Every other encoding is an infinity or a NaN (R111). -/
theorem decode_of_not_finite (hx : f.maxCode < f.code x) (neg : Bool) (k : Nat) (e : Int) : f.decode x ≠ .num neg k e := by
  obtain ⟨-, -, -, hmin, -, -, ⟨htop, hmax⟩ | rfl⟩ := format_facts f hf
  · have hex : x / 2 ^ f.fbits % 2 ^ f.ebits = 2 ^ f.ebits - 1 := by
      have hpos : 0 < 2 ^ f.fbits := Nat.two_pow_pos _
      have hlt := Nat.mod_lt (x / 2 ^ f.fbits) (Nat.two_pow_pos f.ebits)
      have hfr := Nat.mod_lt x hpos
      rw [code_fields] at hx
      by_contra hne
      have := Nat.mul_le_mul_right (2 ^ f.fbits) (show x / 2 ^ f.fbits % 2 ^ f.ebits + 1 ≤ 2 ^ f.ebits - 1 by omega)
      rw [Nat.succ_mul] at this
      omega
    simp only [Fmt.decode, htop, hex, beq_self_eq_true, Bool.and_self, if_true]
    split <;> exact FVal.noConfusion
  · have hex : x / 2 ^ 3 % 2 ^ 4 = 15 ∧ x % 2 ^ 3 = 7 := by
      rw [code_fields] at hx
      change 126 < x / 2 ^ 3 % 2 ^ 4 * 2 ^ 3 + x % 2 ^ 3 at hx
      omega
    obtain ⟨h15, h7⟩ : x / 8 % 16 = 15 ∧ x % 8 = 7 := hex
    simp [Fmt.decode, e4m3, h15, h7]

/-- A finite encoding decodes to its sign and magnitude (R111). -/
theorem exists_decode (hx : f.code x ≤ f.maxCode) : ∃ k e, f.decode x = .num (f.sign x) k e ∧ -149 ≤ e ∧ e ≤ 256 ∧
    k * 2 ^ (e + 149).toNat = f.mag (f.code x) := by
  obtain ⟨hF, hbias, hebits, -⟩ := format_facts f hf
  have hlow : ((f.low : Nat) : Int) = 150 - (f.bias + f.fbits) := by rw [Fmt.low]; omega
  have hfr := Nat.mod_lt x (Nat.two_pow_pos f.fbits)
  have hexp := Nat.mod_lt (x / 2 ^ f.fbits) (Nat.two_pow_pos f.ebits)
  have htwo : 2 ^ (f.fbits + 1) = 2 ^ f.fbits + 2 ^ f.fbits := by ring
  rw [decode_of_finite hf hx, code_fields, Int.ofNat_eq_natCast]
  cases hex : x / 2 ^ f.fbits % 2 ^ f.ebits with
  | zero =>
    refine ⟨_, _, if_pos rfl, by omega, by omega, ?_⟩
    rw [mag_significand (by omega) (.inl rfl)]
    congr 2
    omega
  | succ k =>
    refine ⟨_, _, if_neg (Nat.succ_ne_zero k), by omega, by omega, ?_⟩
    rw [show (k + 1) * 2 ^ f.fbits + x % 2 ^ f.fbits = k * 2 ^ f.fbits + (2 ^ f.fbits + x % 2 ^ f.fbits) by ring,
      mag_significand (by omega) (.inr (by omega))]
    congr 2
    omega

theorem units_decode (hx : f.code x ≤ f.maxCode) : units (f.decode x) = some (signedMag (f.sign x) (f.mag (f.code x))) := by
  obtain ⟨k, e, hdec, -, -, hmag⟩ := exists_decode hf hx
  rw [hdec, units, ← hmag]
  cases f.sign x <;> simp [signedMag]

theorem code_le_of_units {v : Int} (hv : units (f.decode x) = some v) : f.code x ≤ f.maxCode := by
  by_contra hx
  have hnum := decode_of_not_finite hf (Nat.lt_of_not_le hx)
  cases hd : f.decode x with
  | nan => simp [hd, units] at hv
  | inf neg => simp [hd, units] at hv
  | num neg k e => exact hnum neg k e hd

end

/-! ## Encodings with a sign -/

section
variable {c : Nat} (hc : c < 2 ^ (f.ebits + f.fbits)) (neg : Bool)
include hc

theorem code_signed : f.code (f.signed neg c) = c := by
  rw [Fmt.code, Fmt.signed]
  split
  · rw [Nat.add_mod_right, Nat.mod_eq_of_lt hc]
  · exact Nat.mod_eq_of_lt hc

theorem signed_div : f.signed neg c / 2 ^ (f.ebits + f.fbits) = if neg then 1 else 0 := by
  rw [Fmt.signed]
  split
  · rw [Nat.add_div_right _ (Nat.two_pow_pos _), Nat.div_eq_of_lt hc]
  · exact Nat.div_eq_of_lt hc

theorem sign_signed : f.sign (f.signed neg c) = neg := by
  rw [Fmt.sign, signed_div hc]
  cases neg <;> rfl

end

theorem signed_mod_two (hf : f ∈ formats) (neg : Bool) (c : Nat) : f.signed neg c % 2 = c % 2 := by
  obtain ⟨hF, -⟩ := format_facts f hf
  obtain ⟨k, hk⟩ := Nat.exists_eq_add_of_le' (Nat.le_trans hF (Nat.le_add_left _ f.ebits))
  rw [Fmt.signed, hk, Nat.pow_succ]
  split
  · omega
  · rfl

theorem units_signed (hf : f ∈ formats) {c : Nat} (hc : c ≤ f.maxCode) (neg : Bool) :
    units (f.decode (f.signed neg c)) = some (signedMag neg (f.mag c)) := by
  obtain ⟨-, -, -, -, hmax, -⟩ := format_facts f hf
  have hlt := Nat.lt_of_le_of_lt hc hmax
  rw [units_decode hf (by rwa [code_signed hlt]), code_signed hlt, sign_signed hlt]

/-! ## The grid of a format -/

section
variable (hf : f ∈ formats)
include hf

theorem floats_mag {c : Nat} (hc : c ≤ f.maxCode) (neg : Bool) : floats f (signedMag neg (f.mag c)) := ⟨_, units_signed hf hc neg⟩

theorem evenFloats_mag {c : Nat} (hc : c ≤ f.maxCode) (heven : c % 2 = 0) (neg : Bool) : evenFloats f (signedMag neg (f.mag c)) :=
  ⟨_, (signed_mod_two hf neg c).trans heven, units_signed hf hc neg⟩

/-- No value of the format lies between neighbouring magnitudes. -/
theorem floats_gap (c : Nat) (z : Int) (hz : floats f z) : ¬ (f.mag c < z.natAbs ∧ z.natAbs < f.mag (c + 1)) := by
  obtain ⟨x, hx⟩ := hz
  have hval := units_decode hf (code_le_of_units hf hx)
  obtain rfl := Option.some.inj (hx.symm.trans hval)
  rw [natAbs_signedMag, (mag_strictMono f).lt_iff_lt, (mag_strictMono f).lt_iff_lt]
  omega

end

end Sys2Proof.Machine
end

section
/-!
Rounding between two neighbours of a grid (R113, R114), and the rounding of the model into a float format and to whole numbers. With O27.
-/
namespace Sys2Proof.Machine
open Sys2Proof.Claims

/-! ## One step between neighbours -/

/-- A magnitude that lies `d` above its lower neighbour, of `g` up to the next, steps up; `odd` says that a tie does (R113, R114). -/
def StepsUp (rm rnd : Nat) (neg odd : Bool) (d g : Nat) : Prop :=
  match rm with
  | 0 => g < 2 * d ∨ (2 * d = g ∧ odd = true)
  | 2 => neg = true ∧ d ≠ 0
  | 3 => neg = false ∧ d ≠ 0
  | 4 => 65536 ≤ d * 65536 / g + rnd
  | _ => False

variable {rm rnd : Nat} {neg odd : Bool}

/-- A value on the grid stays. -/
theorem not_stepsUp_zero (hrnd : rnd < 65536) {g : Nat} (hg : 0 < g) : ¬ StepsUp rm rnd neg odd 0 g := by
  unfold StepsUp
  split
  · omega
  · simp
  · simp
  · simpa using hrnd
  · exact id

/-- The model's step counts the discarded part in parts of 2^sh, which is the same share of the way. -/
theorem roundsUp_iff {lo r sh d g : Nat} (hg : 0 < g) (h : r * g = d * 2 ^ sh) :
    roundsUp rm rnd neg lo r sh false = true ↔ StepsUp rm rnd neg (lo % 2 == 1) d g := by
  have hsh : 0 < 2 ^ sh := Nat.two_pow_pos sh
  have hscale (a b : Nat) : a * 2 ^ sh < b * g * 2 ^ sh ↔ a < b * g := Nat.mul_lt_mul_right hsh
  have hhalf : 2 ^ sh < 2 * r ↔ g < 2 * d := by
    rw [← Nat.mul_lt_mul_right hg, ← Nat.mul_lt_mul_right (b := g) hsh, Nat.mul_comm g, Nat.mul_assoc, h, Nat.mul_assoc]
  have htie : 2 * r = 2 ^ sh ↔ 2 * d = g := by
    rw [← Nat.mul_left_inj hg.ne', ← Nat.mul_left_inj (b := 2 * d) hsh.ne', Nat.mul_comm g, Nat.mul_assoc, h, Nat.mul_assoc]
  have hzero : r = 0 ↔ d = 0 := by
    have hzero := Eq.congr h (rfl : 0 = 0)
    simpa [hg.ne'] using hzero
  have hshare : r * 65536 / 2 ^ sh = d * 65536 / g := by
    rw [← Nat.mul_div_mul_right _ _ hg, ← Nat.mul_div_mul_right (d * 65536) _ hsh, Nat.mul_right_comm, h, Nat.mul_right_comm, Nat.mul_comm g]
  unfold roundsUp StepsUp
  split <;> simp [hhalf, htie, hzero, hshare]

/-- The step to a neighbour is the rounding of R113 and R114. -/
theorem rounded_of_stepsUp {on even : Int → Prop} {a b x : Nat} (hrm : rm ≤ 4) (hrnd : rnd < 65536) (ha : a ≤ x) (hb : x < b)
    (hona : on (signedMag neg a)) (honb : x ≠ a → on (signedMag neg b)) (hgap : ∀ z, on z → ¬ (a < z.natAbs ∧ z.natAbs < b))
    (hevena : odd = false → even (signedMag neg a)) (hevenb : x ≠ a → odd = true → even (signedMag neg b)) {y : Nat}
    (hup : StepsUp rm rnd neg odd (x - a) (b - a) → y = b) (hstay : ¬ StepsUp rm rnd neg odd (x - a) (b - a) → y = a) :
    Rounded on even rm rnd (signedMag neg x) (signedMag neg y) := by
  by_cases hx : x = a
  · subst hx
    rw [Nat.sub_self] at hstay
    exact .inl ⟨hona, congrArg _ (hstay (not_stepsUp_zero hrnd (by omega)))⟩
  · have hpos : 0 < x := by omega
    have hneg := signedMag_neg_iff (neg := neg) hpos
    have hd : x - a ≠ 0 := by omega
    have hstep {P : Prop} [Decidable P] (hP : P ↔ StepsUp rm rnd neg odd (x - a) (b - a)) :
        signedMag neg y = if P then signedMag neg b else signedMag neg a := by
      split
      · exact congrArg _ (hup (hP.1 ‹_›))
      · exact congrArg _ (hstay fun h => ‹¬ P› (hP.2 h))
    refine .inr ⟨signedMag neg a, signedMag neg b, hona, honb hx, ?_, ?_, ?_, ?_, ?_, ?_⟩
    · simp only [natAbs_signedMag]; omega
    · simp only [natAbs_signedMag]; omega
    · rw [signedMag_mul]; positivity
    · rw [signedMag_mul]
      have : 0 < b := by omega
      positivity
    · simpa only [natAbs_signedMag] using hgap
    · obtain rfl | rfl | rfl | rfl | rfl : rm = 0 ∨ rm = 1 ∨ rm = 2 ∨ rm = 3 ∨ rm = 4 := by omega
      · simp only [natAbs_signedMag]
        simp only [StepsUp] at hup hstay
        refine ⟨fun h => congrArg _ (hstay (by omega)), fun h => congrArg _ (hup (by omega)), fun h => ?_⟩
        cases odd with
        | false => exact .inl ⟨congrArg _ (hstay (by simp; omega)), hevena rfl⟩
        | true => exact .inr ⟨congrArg _ (hup (by simp; omega)), hevenb hx rfl⟩
      · exact congrArg _ (hstay id)
      · exact hstep (P := signedMag neg x < 0) (by simp only [hneg, StepsUp]; exact ⟨fun h => ⟨h, hd⟩, fun h => h.1⟩)
      · exact (hstep (P := ¬ signedMag neg x < 0) (by simp only [hneg, StepsUp, Bool.not_eq_true]; exact ⟨fun h => ⟨h, hd⟩, fun h => h.1⟩)).trans (ite_not ..)
      · simp only [natAbs_signedMag]
        exact hstep Iff.rfl

/-! ## Rounding into a float format -/

/-- A magnitude m × 2^e cut to a multiple of 2^u, and what of it is cut off, as the model has them. -/
def cutLow (m : Nat) (e u : Int) : Nat := if e ≥ u then m * 2 ^ (e - u).toNat else m / 2 ^ (u - e).toNat
def cutRest (m : Nat) (e u : Int) : Nat := if e ≥ u then 0 else m % 2 ^ (u - e).toNat

section
variable {m F : Nat} {e u : Int}

theorem cut_add (he : -149 ≤ e) (hu : -149 ≤ u) : ∃ d, cutLow m e u * 2 ^ (u + 149).toNat + d = m * 2 ^ (e + 149).toNat ∧
    cutRest m e u * 2 ^ (u + 149).toNat = d * 2 ^ (u - e).toNat ∧ d < 2 ^ (u + 149).toNat := by
  unfold cutLow cutRest
  split
  · refine ⟨0, ?_, by simp, Nat.two_pow_pos _⟩
    rw [Nat.add_zero, Nat.mul_assoc, ← Nat.pow_add]
    congr 2
    omega
  · have hexp : (u + 149).toNat = (u - e).toNat + (e + 149).toNat := by omega
    have hlt := Nat.mod_lt m (Nat.two_pow_pos (u - e).toNat)
    refine ⟨m % 2 ^ (u - e).toNat * 2 ^ (e + 149).toNat, ?_, by rw [hexp, Nat.pow_add]; ring, ?_⟩
    · rw [hexp, Nat.pow_add, ← Nat.mul_assoc, ← Nat.add_mul, Nat.div_add_mod']
    · rw [hexp, Nat.pow_add]
      exact Nat.mul_lt_mul_of_pos_right hlt (Nat.two_pow_pos _)

theorem cutLow_lt (hu : e + Nat.log2 m - F ≤ u) : cutLow m e u < 2 ^ (F + 1) := by
  have hm := Nat.lt_log2_self (n := m)
  unfold cutLow
  split
  · calc m * 2 ^ (e - u).toNat < 2 ^ (m.log2 + 1) * 2 ^ (e - u).toNat := Nat.mul_lt_mul_of_pos_right hm (Nat.two_pow_pos _)
      _ = 2 ^ (m.log2 + 1 + (e - u).toNat) := (Nat.pow_add ..).symm
      _ ≤ 2 ^ (F + 1) := Nat.pow_le_pow_right (by decide) (by omega)
  · refine Nat.div_lt_of_lt_mul ?_
    calc m < 2 ^ (m.log2 + 1) := hm
      _ ≤ 2 ^ ((u - e).toNat + (F + 1)) := Nat.pow_le_pow_right (by decide) (by omega)
      _ = _ := Nat.pow_add ..

theorem le_cutLow (hm : m ≠ 0) (hu : u ≤ e + Nat.log2 m - F) : 2 ^ F ≤ cutLow m e u := by
  have hm := Nat.log2_self_le hm
  unfold cutLow
  split
  · calc 2 ^ F ≤ 2 ^ (m.log2 + (e - u).toNat) := Nat.pow_le_pow_right (by decide) (by omega)
      _ = 2 ^ m.log2 * 2 ^ (e - u).toNat := Nat.pow_add ..
      _ ≤ m * 2 ^ (e - u).toNat := Nat.mul_le_mul_right _ hm
  · rw [Nat.le_div_iff_mul_le (Nat.two_pow_pos _), ← Nat.pow_add]
    exact (Nat.pow_le_pow_right (by decide) (by omega)).trans hm

end

variable {f : Fmt}

/-- The encoding of a magnitude code with a sign, or what R117 gives where it lies beyond the largest finite one. -/
def Fmt.place (f : Fmt) (rm : Nat) (neg : Bool) (c : Nat) : Nat := if f.maxCode < c then f.overflow rm neg else f.signed neg c

section
variable (hf : f ∈ formats)
include hf

/-- The encoding that the model forms of a significand `n` at an exponent. -/
theorem place_of_significand (rm : Nat) (neg : Bool) {n k : Nat} {u : Int} (hu : u = 1 - f.bias - f.fbits + k) (hk : k = 0 ∨ 2 ^ f.fbits ≤ n) :
    (if n < 2 ^ f.fbits then f.signed neg n
      else if (u + f.fbits + f.bias).toNat * 2 ^ f.fbits + (n - 2 ^ f.fbits) > f.maxCode then f.overflow rm neg
        else f.signed neg ((u + f.fbits + f.bias).toNat * 2 ^ f.fbits + (n - 2 ^ f.fbits))) = f.place rm neg (k * 2 ^ f.fbits + n) := by
  obtain ⟨-, -, -, hmin, -⟩ := format_facts f hf
  rw [Fmt.place]
  split
  · obtain rfl : k = 0 := hk.resolve_right (by omega)
    rw [if_neg (by omega)]
    simp
  · have hcode : (u + f.fbits + f.bias).toNat * 2 ^ f.fbits + (n - 2 ^ f.fbits) = k * 2 ^ f.fbits + n := by
      rw [show (u + f.fbits + f.bias).toNat = k + 1 by omega, Nat.succ_mul]
      omega
    rw [hcode]

/-- The same after the carry of a significand that rounding has filled up. -/
theorem place_of_carry (rm : Nat) (neg : Bool) {n k : Nat} {u : Int} (hu : u = 1 - f.bias - f.fbits + k) (hk : k = 0 ∨ 2 ^ f.fbits ≤ n) :
    (let carry := n == 2 ^ (f.fbits + 1)
    let n := if carry then n / 2 else n
    let u := if carry then u + 1 else u
    if n < 2 ^ f.fbits then f.signed neg n
    else
      let ex := (u + f.fbits + f.bias).toNat
      let code := ex * 2 ^ f.fbits + (n - 2 ^ f.fbits)
      if code > f.maxCode then f.overflow rm neg else f.signed neg code) = f.place rm neg (k * 2 ^ f.fbits + n) := by
  by_cases hn : n = 2 ^ (f.fbits + 1)
  · have hhalf : n / 2 = 2 ^ f.fbits := by rw [hn, Nat.pow_succ, Nat.mul_div_cancel _ (by decide)]
    simp only [hn, beq_self_eq_true, if_true]
    rw [← hn, hhalf, place_of_significand hf rm neg (k := k + 1) (by rw [hu]; push_cast; ring) (.inr le_rfl), hn]
    congr 1
    ring
  · simp only [beq_eq_false_iff_ne.2 hn, Bool.false_eq_true, if_false]
    exact place_of_significand hf rm neg hu hk

/-- Code `c` is the magnitude `x` rounded on a format's grid, which goes on above the largest finite value: `a` is its lower neighbour, from
which it steps up or not. -/
structure RoundsTo (f : Fmt) (rm rnd : Nat) (neg : Bool) (x a c : Nat) : Prop where
  lower : f.mag a ≤ x
  upper : x < f.mag (a + 1)
  up : StepsUp rm rnd neg (a % 2 == 1) (x - f.mag a) (f.mag (a + 1) - f.mag a) → c = a + 1
  stay : ¬ StepsUp rm rnd neg (a % 2 == 1) (x - f.mag a) (f.mag (a + 1) - f.mag a) → c = a

/-- The model's rounding of a magnitude m × 2^e into a format. -/
theorem exists_roundsTo (hrnd : rnd < 65536) (m : Nat) {e : Int} (he : -149 ≤ e) (rm : Nat) (neg : Bool) :
    ∃ a c, RoundsTo f rm rnd neg (m * 2 ^ (e + 149).toNat) a c ∧ f.round rm rnd neg m e false = f.place rm neg c := by
  by_cases hm : m = 0
  · have hfirst := mag_strictMono f (Nat.zero_lt_one)
    rw [mag_zero] at hfirst
    refine ⟨0, 0, ⟨?_, ?_, fun hup => ?_, fun _ => rfl⟩, ?_⟩
    · rw [mag_zero]; exact Nat.zero_le _
    · rw [hm, Nat.zero_mul]; exact hfirst
    · rw [hm, mag_zero, Nat.zero_mul] at hup
      exact absurd hup (not_stepsUp_zero hrnd hfirst)
    · simp [Fmt.round, Fmt.place, hm]
  · obtain ⟨hF, hbias, -⟩ := format_facts f hf
    obtain ⟨u, hu⟩ : ∃ u : Int, u = max (e + Nat.log2 m - f.fbits) (1 - f.bias - f.fbits) := ⟨_, rfl⟩
    obtain ⟨k, hk⟩ : ∃ k : Nat, u = 1 - f.bias - f.fbits + k := ⟨(u - (1 - f.bias - f.fbits)).toNat, by omega⟩
    have hlow : (u + 149).toNat = k + f.low := by rw [Fmt.low]; omega
    have hlt : cutLow m e u < 2 ^ (f.fbits + 1) := cutLow_lt (by omega)
    have hnormal : k = 0 ∨ 2 ^ f.fbits ≤ cutLow m e u := by
      by_cases hk0 : k = 0
      · exact .inl hk0
      · exact .inr (le_cutLow hm (by omega))
    obtain ⟨d, hsum, hrest, hd⟩ := cut_add (m := m) he (show -149 ≤ u by omega)
    rw [hlow] at hsum hrest hd
    have hmag := mag_significand (f := f) hlt.le hnormal
    have hmag' := mag_significand (f := f) (Nat.succ_le_of_lt hlt) (hnormal.imp_right fun h => Nat.le_succ_of_le h)
    rw [Nat.succ_eq_add_one, ← Nat.add_assoc, Nat.succ_mul] at hmag'
    have hparity : (k * 2 ^ f.fbits + cutLow m e u) % 2 = cutLow m e u % 2 := by
      obtain ⟨p, hp⟩ := Nat.exists_eq_add_of_le' hF
      rw [hp, Nat.pow_succ, ← Nat.mul_assoc]
      omega
    have hup := roundsUp_iff (rm := rm) (rnd := rnd) (neg := neg) (lo := cutLow m e u) (Nat.two_pow_pos (k + f.low)) hrest
    have hround : f.round rm rnd neg m e false = f.place rm neg
        (k * 2 ^ f.fbits + if roundsUp rm rnd neg (cutLow m e u) (cutRest m e u) (u - e).toNat false then cutLow m e u + 1 else cutLow m e u) := by
      rw [← place_of_carry hf rm neg hk, Fmt.round, if_neg (by simp [hm]), hu]
      · rfl
      · refine hnormal.imp_right fun h => ?_
        split
        · exact Nat.le_succ_of_le h
        · exact h
    refine ⟨k * 2 ^ f.fbits + cutLow m e u, _, ⟨?_, ?_, ?_, ?_⟩, hround⟩
    · omega
    · omega
    · rw [hmag, hmag', hparity, ← hsum, Nat.add_sub_cancel_left, Nat.add_sub_cancel_left, ← hup]
      exact fun h => by rw [if_pos h, Nat.add_assoc]
    · rw [hmag, hmag', hparity, ← hsum, Nat.add_sub_cancel_left, Nat.add_sub_cancel_left, ← hup]
      exact fun h => by rw [if_neg h]

end

end Sys2Proof.Machine
end

section
/-!
Conversions give what the table of R116 says: rounding into a format and past its largest value (R114, R117), and rounding to whole numbers. With O27.
-/
namespace Sys2Proof.Machine
open Sys2Proof.Claims

variable {f : Fmt} {rm rnd : Nat} {neg : Bool}

/-! ## Past the largest finite value (R114, R117) -/

/-- A magnitude `d` above the largest finite one, where the grid's last step is `g`, becomes that one and not infinity. -/
def StaysFinite (rm rnd : Nat) (neg : Bool) (d g : Nat) : Prop :=
  rm = 1 ∨ (rm = 2 ∧ neg = false) ∨ (rm = 3 ∧ neg = true) ∨ (rm = 0 ∧ 2 * d < g) ∨ (rm = 4 ∧ d < g ∧ d * 65536 / g + rnd < 65536)

/-- The modes that go to the largest finite value whatever the magnitude. -/
def TowardFinite (rm : Nat) (neg : Bool) : Prop := rm = 1 ∨ (rm = 2 ∧ neg = false) ∨ (rm = 3 ∧ neg = true)

theorem staysFinite_iff_of_lt {d g : Nat} (hrm : rm ≤ 4) (hd : d ≠ 0) (hlt : d < g) :
    StaysFinite rm rnd neg d g ↔ TowardFinite rm neg ∨ ¬ StepsUp rm rnd neg true d g := by
  obtain rfl | rfl | rfl | rfl | rfl : rm = 0 ∨ rm = 1 ∨ rm = 2 ∨ rm = 3 ∨ rm = 4 := by omega
  · simp [StaysFinite, TowardFinite, StepsUp]
    omega
  · simp [StaysFinite, TowardFinite]
  · simp [StaysFinite, TowardFinite, StepsUp, hd]
  · simp [StaysFinite, TowardFinite, StepsUp, hd]
  · simp [StaysFinite, TowardFinite, StepsUp, hlt]

theorem staysFinite_iff_of_le {d g : Nat} (hle : g ≤ d) : StaysFinite rm rnd neg d g ↔ TowardFinite rm neg := by
  have hhalf : ¬ 2 * d < g := by omega
  simp [StaysFinite, TowardFinite, hhalf, Nat.not_lt.2 hle]

theorem overflow_of_ieee (htop : f.top = .ieee) : (TowardFinite rm neg → f.overflow rm neg = f.signed neg f.maxCode) ∧
    (¬ TowardFinite rm neg → f.overflow rm neg = f.inf neg) := by
  cases neg <;> simp [Fmt.overflow, htop, TowardFinite] <;> omega

section
variable (hf : f ∈ formats)
include hf

theorem inf_eq_withSign (neg : Bool) : f.inf neg = withSign f neg (infinite f) := by
  have h : ∀ f ∈ formats, ∀ neg, f.inf neg = withSign f neg (infinite f) := by decide
  exact h f hf neg

omit hf in
theorem signed_eq_withSign (neg : Bool) (c : Nat) : f.signed neg c = withSign f neg c := by
  rw [Fmt.signed, withSign, Fmt.bits, Nat.add_assoc, Nat.add_sub_cancel_left]

/-- The last step of the grid of a format with infinities, as R114 takes it. -/
theorem mag_maxCode (htop : f.top = .ieee) : ∃ p, 0 < p ∧ f.mag f.maxCode = (2 ^ (f.fbits + 1) - 1) * p ∧ f.mag (f.maxCode + 1) = 2 ^ (f.fbits + 1) * p ∧
    f.maxCode % 2 = 1 := by
  have hk : ∀ f ∈ formats, f.top = .ieee → f.maxCode = (2 ^ f.ebits - 3) * 2 ^ f.fbits + (2 ^ (f.fbits + 1) - 1) ∧ f.maxCode % 2 = 1 := by decide
  obtain ⟨hmax, hodd⟩ := hk f hf htop
  have hpos : 0 < 2 ^ f.fbits := Nat.two_pow_pos _
  have htwo : 2 ^ (f.fbits + 1) = 2 ^ f.fbits + 2 ^ f.fbits := by ring
  refine ⟨2 ^ (2 ^ f.ebits - 3 + f.low), Nat.two_pow_pos _, ?_, ?_, hodd⟩
  · rw [hmax, mag_significand (by omega) (.inr (by omega))]
  · rw [hmax, Nat.add_assoc, mag_significand (by omega) (.inr (by omega)), Nat.sub_add_cancel (by omega)]

variable {x a c : Nat} (h : RoundsTo f rm rnd neg x a c)
include h

/-- A magnitude past the largest finite one rounds as R117 says. -/
theorem round_past (hrm : rm ≤ 4) (hpast : f.mag f.maxCode < x) :
    let stays := StaysFinite rm rnd neg (x - f.mag f.maxCode) (f.mag f.maxCode / (2 ^ (f.fbits + 1) - 1))
    (stays → f.place rm neg c = withSign f neg (largest f)) ∧ (¬ stays → f.place rm neg c = withSign f neg (infinite f)) := by
  obtain ⟨hlow, hx, hup, hstay⟩ := h
  have hle : f.maxCode ≤ a := Nat.le_of_lt_succ ((mag_strictMono f).lt_iff_lt.1 (hpast.trans hx))
  have hover (hlt : f.maxCode < c) : f.place rm neg c = f.overflow rm neg := if_pos hlt
  have htop (heq : c = f.maxCode) : f.place rm neg c = f.signed neg f.maxCode := by rw [Fmt.place, heq, if_neg (Nat.lt_irrefl _)]
  have hac : a ≤ c := by
    by_cases hs : StepsUp rm rnd neg (a % 2 == 1) (x - f.mag a) (f.mag (a + 1) - f.mag a)
    · exact hup hs ▸ a.le_succ
    · exact (hstay hs).ge
  obtain ⟨-, -, -, -, -, hlargest, ⟨hieee, -⟩ | rfl⟩ := format_facts f hf
  · -- a format with infinities
    obtain ⟨p, -, hmax, hnext, hodd⟩ := mag_maxCode hf hieee
    have hone : 0 < 2 ^ (f.fbits + 1) - 1 := by have := Nat.pow_lt_pow_right (a := 2) (by decide) f.fbits.succ_pos; omega
    have hstep : f.mag f.maxCode / (2 ^ (f.fbits + 1) - 1) = p := by rw [hmax, Nat.mul_div_cancel_left _ hone]
    have hgap : f.mag (f.maxCode + 1) = f.mag f.maxCode + p := by
      rw [hmax, hnext, ← Nat.succ_mul, Nat.succ_eq_add_one, Nat.sub_add_cancel (by omega)]
    obtain ⟨hfinite, hinf⟩ := overflow_of_ieee (rm := rm) (neg := neg) hieee
    rw [hstep, hlargest, ← signed_eq_withSign, ← inf_eq_withSign hf]
    rcases hle.eq_or_lt with heq | hlt
    · -- between the largest finite value and the next step of the grid
      rw [← heq, hgap, Nat.add_sub_cancel_left, hodd] at hup hstay
      rw [← heq, hgap] at hx
      intro stays
      have hiff : stays ↔ _ := staysFinite_iff_of_lt hrm (by omega) (by omega)
      rw [hiff]
      by_cases hs : StepsUp rm rnd neg true (x - f.mag f.maxCode) p
      · rw [hover (by rw [hup hs]; exact Nat.lt_succ_self _)]
        exact ⟨fun h => hfinite (h.resolve_right (not_not.2 hs)), fun h => hinf fun hT => h (.inl hT)⟩
      · exact ⟨fun _ => htop (hstay hs), fun h => absurd (.inr hs) h⟩
    · -- beyond that step
      have hbeyond : f.mag (f.maxCode + 1) ≤ x := ((mag_strictMono f).monotone hlt).trans hlow
      rw [hover (by omega), staysFinite_iff_of_le (by omega)]
      exact ⟨hfinite, hinf⟩
  · -- E4M3, which has none
    have hc : e4m3.place rm neg c = withSign e4m3 neg 0x7E := by
      rw [← signed_eq_withSign]
      rcases (hle.trans hac).eq_or_lt with heq | hlt
      · exact htop heq.symm
      · exact hover hlt
    exact ⟨fun _ => hc, fun _ => hc⟩

omit hf in
/-- Up to the largest finite magnitude, so does the rounded one lie, with its upper neighbour wherever it is not on the grid. -/
theorem roundsTo_le (hrnd : rnd < 65536) (hle : x ≤ f.mag f.maxCode) : a ≤ f.maxCode ∧ c ≤ f.maxCode ∧ (x ≠ f.mag a → a + 1 ≤ f.maxCode) := by
  have ha : a ≤ f.maxCode := (mag_strictMono f).le_iff_le.1 (h.lower.trans hle)
  have hnext (hne : x ≠ f.mag a) : a + 1 ≤ f.maxCode :=
    (mag_strictMono f).lt_iff_lt.1 (Nat.lt_of_lt_of_le (Nat.lt_of_le_of_ne h.lower hne.symm) hle)
  refine ⟨ha, ?_, hnext⟩
  by_cases hs : StepsUp rm rnd neg (a % 2 == 1) (x - f.mag a) (f.mag (a + 1) - f.mag a)
  · rw [h.up hs]
    refine hnext fun heq => ?_
    rw [heq, Nat.sub_self] at hs
    exact not_stepsUp_zero hrnd (Nat.sub_pos_of_lt (mag_strictMono f a.lt_succ_self)) hs
  · exact (h.stay hs).trans_le ha

theorem rounded_of_roundsTo (hrm : rm ≤ 4) (hrnd : rnd < 65536) (hle : x ≤ f.mag f.maxCode) :
    Rounded (floats f) (evenFloats f) rm rnd (signedMag neg x) (signedMag neg (f.mag c)) := by
  obtain ⟨ha, -, hnext⟩ := roundsTo_le h hrnd hle
  refine rounded_of_stepsUp (odd := a % 2 == 1) hrm hrnd h.lower h.upper (floats_mag hf ha neg) (fun hne => floats_mag hf (hnext hne) neg)
    (floats_gap hf a) (fun heven => evenFloats_mag hf ha ?_ neg) (fun hne hodd => evenFloats_mag hf (hnext hne) ?_ neg)
    (fun hs => congrArg _ (h.up hs)) (fun hs => congrArg _ (h.stay hs))
  · have := beq_eq_false_iff_ne.1 heven
    omega
  · have := beq_iff_eq.1 hodd
    omega

omit h in
/-- Rounding a magnitude with a sign into a format (R113, R114, R116, R117). -/
theorem encoded_round (hrm : rm ≤ 4) (hrnd : rnd < 65536) (m : Nat) {e : Int} (he : -149 ≤ e) (neg : Bool) :
    Encoded f rm rnd neg (signedMag neg (m * 2 ^ (e + 149).toNat)) (f.round rm rnd neg m e false) := by
  obtain ⟨a, c, h, hround⟩ := exists_roundsTo hf hrnd m he rm neg
  obtain ⟨-, -, -, -, hmax, hlargest, -⟩ := format_facts f hf
  rw [hround]
  refine ⟨f.mag f.maxCode, ?_, ?_, ?_⟩
  · rw [hlargest]
    exact units_signed hf le_rfl false
  · rw [natAbs_signedMag, Int.natAbs_natCast]
    intro hle
    obtain ⟨-, hc, -⟩ := roundsTo_le h hrnd hle
    have hlt := Nat.lt_of_le_of_lt hc hmax
    rw [Fmt.place, if_neg (Nat.not_lt.2 hc)]
    refine ⟨signed_lt hlt neg, ?_, _, units_signed hf hc neg, rounded_of_roundsTo hf h hrm hrnd hle⟩
    rw [Fmt.bits, Nat.add_assoc, Nat.add_sub_cancel_left, signed_div hlt]
    cases neg <;> decide
  · rw [natAbs_signedMag, Int.natAbs_natCast]
    exact round_past hf h hrm

end

/-! ## Whole numbers (R116) -/

theorem signedMag_scale (neg : Bool) (n : Nat) : signedMag neg (n * 2 ^ 149) = signedMag neg n * 2 ^ 149 := by
  cases neg <;> simp [signedMag]

theorem wholes_signedMag (neg : Bool) (n : Nat) : wholes (signedMag neg (n * 2 ^ 149)) := ⟨signedMag neg n, signedMag_scale neg n⟩

theorem evenWholes_signedMag (neg : Bool) {n : Nat} (hn : n % 2 = 0) : evenWholes (signedMag neg (n * 2 ^ 149)) := by
  obtain ⟨k, rfl⟩ := Nat.dvd_of_mod_eq_zero hn
  refine ⟨signedMag neg k, ?_⟩
  rw [signedMag_scale]
  cases neg <;> simp [signedMag]

theorem wholes_gap (n : Nat) (z : Int) (hz : wholes z) : ¬ (n * 2 ^ 149 < z.natAbs ∧ z.natAbs < (n + 1) * 2 ^ 149) := by
  obtain ⟨k, rfl⟩ := hz
  rw [Int.natAbs_mul, show ((2 : Int) ^ 149).natAbs = 2 ^ 149 by decide, Nat.mul_lt_mul_right (by decide), Nat.mul_lt_mul_right (by decide)]
  omega

/-- The whole number that the model rounds a magnitude m × 2^e to. -/
def wholePart (rm rnd : Nat) (neg : Bool) (m : Nat) (e : Int) : Nat :=
  if roundsUp rm rnd neg (cutLow m e 0) (cutRest m e 0) (0 - e).toNat false then cutLow m e 0 + 1 else cutLow m e 0

theorem toInt_num (hrnd : rnd < 65536) (m : Nat) {e : Int} (he : e ≤ 256) (neg : Bool) (lo hi : Int) :
    FVal.toInt rm rnd lo hi (.num neg m e) = max lo (min hi (signedMag neg (wholePart rm rnd neg m e))) := by
  by_cases h0 : e ≥ 0
  · have hstay : ¬ roundsUp rm rnd neg (cutLow m e 0) 0 (0 - e).toNat false = true := by
      rw [roundsUp_iff (d := 0) (g := 1) (by decide) (by simp)]
      exact not_stepsUp_zero hrnd (by decide)
    rw [wholePart, cutRest, if_pos h0, if_neg hstay, cutLow, if_pos h0, FVal.toInt, if_pos h0, min_eq_left (show e ≤ 4000 by omega), sub_zero]
    rfl
  · rw [wholePart, cutRest, cutLow, if_neg h0, if_neg h0, FVal.toInt, if_neg h0, zero_sub]
    rfl

/-- The mode rounds a finite value to that whole number (R113, R114, R116). -/
theorem rounded_wholePart (hrm : rm ≤ 4) (hrnd : rnd < 65536) (m : Nat) {e : Int} (he : -149 ≤ e) (neg : Bool) :
    Rounded wholes evenWholes rm rnd (signedMag neg (m * 2 ^ (e + 149).toNat)) (signedMag neg (wholePart rm rnd neg m e) * 2 ^ 149) := by
  obtain ⟨d, hsum, hrest, hd⟩ := cut_add (m := m) (u := 0) he (by decide)
  rw [show ((0 : Int) + 149).toNat = 149 by rfl] at hsum hrest hd
  have hup := roundsUp_iff (rm := rm) (rnd := rnd) (neg := neg) (lo := cutLow m e 0) (Nat.two_pow_pos 149) hrest
  have hgap : (cutLow m e 0 + 1) * 2 ^ 149 - cutLow m e 0 * 2 ^ 149 = 2 ^ 149 := by omega
  rw [← signedMag_scale, ← hsum]
  refine rounded_of_stepsUp (odd := cutLow m e 0 % 2 == 1) (b := (cutLow m e 0 + 1) * 2 ^ 149) hrm hrnd (Nat.le_add_right ..) (by omega)
    (wholes_signedMag ..) (fun _ => wholes_signedMag ..) (wholes_gap _) (fun h => evenWholes_signedMag neg ?_) (fun _ h => evenWholes_signedMag neg ?_) ?_ ?_
  · have := beq_eq_false_iff_ne.1 h
    omega
  · have := beq_iff_eq.1 h
    omega
  · rw [hgap, Nat.add_sub_cancel_left, ← hup]
    exact fun h => by rw [wholePart, if_pos h]
  · rw [hgap, Nat.add_sub_cancel_left, ← hup]
    exact fun h => by rw [wholePart, if_neg h]

/-! ## The table of R116 -/

theorem units_num (neg : Bool) (m : Nat) (e : Int) : units (.num neg m e) = some (signedMag neg (m * 2 ^ (e + 149).toNat)) := by
  cases neg <;> simp [units, signedMag]

theorem exponent_of_decode (hf : f ∈ formats) {x m : Nat} {e : Int} (h : f.decode x = .num neg m e) : -149 ≤ e ∧ e ≤ 256 := by
  obtain ⟨k, e', hdec, hlo, hhi, -⟩ := exists_decode hf (code_le_of_units hf (by rw [h, units_num]))
  cases h.symm.trans hdec
  exact ⟨hlo, hhi⟩

variable (hf : f ∈ formats) (hrm : rm ≤ 4) (hrnd : rnd < 65536) {n x : Nat}
include hf hrm hrnd

theorem encoded_of_float {g : Fmt} (hg : g ∈ formats) {m : Nat} {e v : Int} (h : f.decode x = .num neg m e) (hv : units (f.decode x) = some v) :
    Encoded g rm rnd neg v (convert (.float f) (.float g) rm rnd x) := by
  rw [h, units_num] at hv
  cases hv
  rw [convert, h]
  exact encoded_round hg hrm hrnd m (exponent_of_decode hf h).1 neg

theorem rounded_of_float {v : Int} (hv : units (f.decode x) = some v) : ∃ y : Int, Rounded wholes evenWholes rm rnd v (y * 2 ^ 149) ∧
    convert (.float f) (.int n) rm rnd x = cut n (saturate n y) := by
  cases h : f.decode x with
  | nan => simp [h, units] at hv
  | inf neg => simp [h, units] at hv
  | num neg m e =>
    obtain ⟨hlo, hhi⟩ := exponent_of_decode hf h
    rw [h, units_num] at hv
    cases hv
    refine ⟨_, rounded_wholePart hrm hrnd m hlo neg, ?_⟩
    rw [convert, h, toInt_num hrnd m hhi, ofSigned_eq_cut, ← clamp_eq_saturate]
    rfl

theorem encoded_of_int : Encoded f rm rnd (decide (signed n x < 0)) (signed n x * 2 ^ 149) (convert (.int n) (.float f) rm rnd x) := by
  have hround := encoded_round hf hrm hrnd (signed n x).natAbs (e := 0) (by decide) (decide (signed n x < 0))
  have hval : signedMag (decide (signed n x < 0)) ((signed n x).natAbs * 2 ^ ((0 : Int) + 149).toNat) = signed n x * 2 ^ 149 := by
    rw [show ((0 : Int) + 149).toNat = 149 by rfl]
    by_cases hx : signed n x < 0
    · simp only [hx, decide_true, signedMag, if_true]
      push_cast
      rw [abs_of_neg hx]
      ring
    · simp only [hx, decide_false, signedMag, Bool.false_eq_true, if_false]
      push_cast
      rw [abs_of_nonneg (not_lt.1 hx)]
  rw [hval] at hround
  rw [convert, toSigned_eq_signed]
  exact hround

end Sys2Proof.Machine

open Sys2Proof Sys2Proof.Machine Sys2Proof.Claims in
/-- Settles O27: a conversion writes each active element converted, and the model's rounding steps between neighbours of the target's grid as
the mode says; the grid goes on above the largest finite value, where R117 tells what a step leads to. -/
theorem conversionResults : Obligations.ConversionResults := by
  unfold Obligations.ConversionResults
  refine ⟨?_, ?_, ?_, ?_⟩
  · exact fun i s c src dst hi hsrc hdst hl hcut hc => conversion_writes hcut hi hsrc hdst hl hc
  · intro f g rm rnd x hf hg hrm hrnd
    refine ⟨fun h => ?_, fun neg h => ?_, fun neg m e v h hv => encoded_of_float hf hrm hrnd hg h hv⟩
    · rw [convert, h]
      rfl
    · rw [convert, h]
      exact inf_eq_withSign hg neg
  · intro f n rm rnd x hf hn hrm hrnd
    refine ⟨fun h => ?_, fun neg h => ?_, fun v => rounded_of_float hf hrm hrnd, encoded_of_int hf hrm hrnd⟩
    · simp [convert, h, FVal.toInt, ofSigned]
    · rw [convert, h]
      obtain rfl | rfl | rfl | rfl := hn <;> cases neg <;> rfl
  · intro n k rm rnd x _ _
    rw [convert, toSigned_eq_signed, ofSigned_eq_cut, ← clamp_eq_saturate]
    rfl
end

section
/-!
Vector configuration (R133 to R135). With O24.
-/
namespace Sys2Proof.Machine
open Sys2Proof.Claims

variable {s : State}

theorem exec_vconf (e : Bool) (b : BitVec 7) : exec (.vconf e b) s = execVconf e b s := rfl

theorem vectorQuiet_of_performed (hm : s.hart.matrix = []) (hg : ∀ g ∈ s.hart.gathers, g.performed ≠ none) : s.hart.vectorQuiet = true := by
  simpa [Hart.vectorQuiet, hm, Option.isSome_iff_ne_none] using hg

/-- VCONF clears the vector and mask registers, and VL keeps within the new VLMAX (R58, R133). -/
theorem confVectors_eq (h : Hart) (n : Nat) : h.confVectors n = { h with regs :=
    { h.regs with vnreg := n, vrf := [], vpois := [], masks := [], vl := min h.regs.vl (h.rows / n * 256 / vtBytes h.regs.vt) } } := by
  rw [min_def]
  rfl

end Sys2Proof.Machine

open Sys2Proof Sys2Proof.Machine Sys2Proof.Claims in
/-- Settles O24: VSETL and VGRANT are their rules; VCONF has two guards, and past them what it does to the hart. -/
theorem vectorConfiguration : Obligations.VectorConfiguration := by
  unfold Obligations.VectorConfiguration
  intro e d a b s
  refine ⟨fun ho hn hm hg => ?_, fun hbad hq => ?_, rfl, rfl⟩
  · rw [exec_vconf, execVconf, ho, if_neg (by simpa using hn), vectorQuiet_of_performed hm hg, if_neg (by decide)]
    exact congrArg (fun h => member e (.ok { s with hart := h })) (confVectors_eq ..)
  · rw [exec_vconf, execVconf, if_pos (by simpa using hbad)]
    exact member_trap hq ..
end

section
/-!
Integer members, compares and mask instructions that no poisoned element stops (R136, R138, R143, R144, R149, R150, R156). With O25.
-/
namespace Sys2Proof.Machine
open Sys2Proof.Claims

variable {i : Instr} {s : State} {e m m' : Bool} {c : Nat}

/-! ## Members that go element by element -/

/-- Under the mask bit `m` each element `k` of the member consumes `src k`, and then does `put k` (R136, R138). -/
def GoesByElement (i : Instr) (s : State) (e m : Bool) (src : Nat → List (Nat × Nat × Nat)) (put : Nat → Hart → Hart) : Prop :=
  ∃ l f, exec i s = member e (elementwise m f (s.modHart fun h => { h with issued := l })) ∧
    ∀ k, f { s.hart with issued := l } k = consumes s.hart (src k) (.ok (put k))

/-- The member goes element by element and writes what the rule says to a vector register. -/
def FollowsRule (i : Instr) (s : State) (m : Bool) (r : ElemRule) : Prop :=
  ∃ val, r.new = atActive s.hart m val ∧ GoesByElement i s r.e m r.src fun k t => t.setElem r.d.toNat r.w k (val k)

/-- The same for a mask register. -/
def FollowsMaskRule (i : Instr) (s : State) (m : Bool) (r : MaskRule) : Prop :=
  ∃ val, r.new = atActive s.hart m val ∧ GoesByElement i s r.e m r.src fun k t => t.setMask r.d.toNat k (val k)

theorem FollowsRule.writes {r : ElemRule} (h : FollowsRule i s m r) (hcut : s.hart.cut = none) (hc : Clean s.hart m r.src) : WritesElements i s r := by
  obtain ⟨val, hnew, l, f, hexec, hf⟩ := h
  exact writesElements_of_consumes hcut hexec (fun k _ => hf k) hnew hc

theorem elements_of_cut {h : Hart} (hcut : h.cut = some c) (hlt : c < h.regs.vl) : h.elements = h.upTo c := by
  rw [Hart.elements, Hart.last, hcut, Hart.upTo]
  simp only [min_eq_left hlt.le]

theorem through_of_cut (hcut : s.hart.cut = some c) (hlt : c < s.hart.regs.vl) :
    s.through = .hold (s.modHart fun h => { h with elix := c, cut := none }) := by
  rw [State.through, State.throughTo, hcut]
  exact if_pos hlt

/-- The active elements below `c`, from ELIX on, each with its value. -/
def Hart.resultsTo {α : Type} (h : Hart) (m : Bool) (c : Nat) (val : Nat → α) : List (Nat × α) := ((h.upTo c).filter (h.active m)).map fun k => (k, val k)

theorem mem_resultsTo {α : Type} {h : Hart} {val : Nat → α} {k : Nat} {v : α} :
    (k, v) ∈ h.resultsTo m c val ↔ k < c ∧ atActive h m val k = some v := by
  simp only [Hart.resultsTo, List.mem_map, List.mem_filter, mem_upTo, Prod.mk.injEq, atActive]
  grind

theorem resultsTo_nodup {α : Type} (h : Hart) (val : Nat → α) : ((h.resultsTo m c val).map (·.1)).Nodup := by
  rw [Hart.resultsTo, List.map_map]
  exact (List.map_id _).symm ▸ upTo_nodup.filter _

theorem elementwise_of_run {f : Hart → Nat → Element} {t : Hart}
    (h : runElements (s.hart.active m) (f s.hart) s.hart.elements s.hart = (t, none)) : elementwise m f s = State.through { s with hart := t } := by
  simp only [elementwise, h]

/-- With no poisoned element consumed, the active elements of the member take effect one after the other. -/
theorem GoesByElement.exec_eq {src : Nat → List (Nat × Nat × Nat)} {put : Nat → Hart → Hart} (h : GoesByElement i s e m src put)
    (helems : s.hart.elements = s.hart.upTo c) (hc : Clean s.hart m src) :
    ∃ l, exec i s = member e (State.through { s with
      hart := ((s.hart.upTo c).filter (s.hart.active m)).foldl (fun t k => put k t) { s.hart with issued := l } }) := by
  obtain ⟨l, f, hexec, hf⟩ := h
  have hrun := runElements_through (ks := s.hart.upTo c) (fun k _ hk => (hf k).trans (consumes_of_clean (hc k hk) _)) { s.hart with issued := l }
  rw [← helems] at hrun ⊢
  exact ⟨l, hexec.trans (congrArg (member e) (elementwise_of_run hrun))⟩

/-- A pre-emption stops the member at element `c`, the elements below it written. -/
theorem FollowsRule.stops {r : ElemRule} (h : FollowsRule i s m r) (hcut : s.hart.cut = some c) (hlt : c < s.hart.regs.vl)
    (hc : Clean s.hart m r.src) : StopsAt i s r c := by
  obtain ⟨val, hnew, hg⟩ := h
  obtain ⟨l, hexec⟩ := hg.exec_eq (elements_of_cut hcut hlt) hc
  rw [← List.foldl_map (f := fun k => (k, val k)) (g := fun t x => Hart.setElem t r.d.toNat r.w x.1 x.2), ← Hart.putAll, ← Hart.resultsTo, putAll_hart,
    putAll_issued, through_of_cut (c := c)] at hexec
  · exact ⟨_, hexec, written_putAll rfl rfl (resultsTo_nodup ..) fun _ _ => hnew ▸ mem_resultsTo, rfl⟩
  · exact hcut
  · rw [putAll_regs]
    exact hlt

theorem putMask_hart (h : Hart) (d : Nat) (xs : List (Nat × Bool)) : h.putMask d xs = { h with regs := (h.putMask d xs).regs } := by
  induction xs generalizing h with
  | nil => rfl
  | cons x xs ih => exact ih (h.setMask d x.1 x.2)

theorem FollowsMaskRule.writes {r : MaskRule} (h : FollowsMaskRule i s m r) (hcut : s.hart.cut = none) (hc : Clean s.hart m r.src) : WritesMask i s r := by
  obtain ⟨val, hnew, hg⟩ := h
  obtain ⟨l, hexec⟩ := hg.exec_eq (elements_of_uncut hcut) hc
  rw [← List.foldl_map (f := fun k => (k, val k)) (g := fun t x => Hart.setMask t r.d.toNat x.1 x.2), ← Hart.putMask, ← Hart.resultsTo, putMask_hart,
    putMask_issued, through_of_uncut (by exact hcut)] at hexec
  exact ⟨_, hexec, writtenMask_putMask rfl (resultsTo_nodup ..) fun _ _ => hnew ▸ mem_resultsTo, rfl⟩

/-! ## Integer members (R143, R144, R156) -/

section
variable {r : ElemRule} {d a b : VReg} {y : GReg}

theorem vectorOp_follows {op claim : IntOp} (hv : vv s e d a b m claim = some (m', r)) (hexec : exec i s = vectorOp op e d a b m s)
    (hop : ∀ n x y, x < 2 ^ n → y < 2 ^ n → op n x y = claim n x y) : FollowsRule i s m' r := by
  cases hv
  exact ⟨_, rfl, s.hart.issued, _, hexec,
    fun k => congrArg (fun x => consumes s.hart _ (.ok fun t => t.setElem d.toNat _ k x)) (hop _ _ _ (elem_lt ..) (elem_lt ..))⟩

theorem vectorOpX_follows {op claim : IntOp} (hv : vx s e d a y m claim = some (m', r)) (hexec : exec i s = vectorOpX op e d a y m s)
    (hop : ∀ n x y, x < 2 ^ n → y < 2 ^ n → op n x y = claim n x y) : FollowsRule i s m' r := by
  cases hv
  obtain ⟨l, hl⟩ := atIssue_state s (s.g y) 0
  simp only [vectorOpX, hl] at hexec
  exact ⟨_, rfl, l, _, hexec, fun k => congrArg (fun x => consumes s.hart _ (.ok fun t => t.setElem d.toNat _ k x))
    (hop _ _ _ (elem_lt ..) (Nat.mod_lt _ (Nat.two_pow_pos _)))⟩

theorem vectorUnary_follows {op claim : Nat → Nat → Nat} (hv : v1 s e d a m claim = some (m', r)) (hexec : exec i s = vectorUnary op e d a m s)
    (hop : op = claim) : FollowsRule i s m' r := by
  cases hv; cases hop
  exact ⟨_, rfl, s.hart.issued, _, hexec, fun _ => rfl⟩

theorem integer_follows (hv : integerVector s i = some (m', r)) : FollowsRule i s m' r := by
  have same (op : IntOp) (n x y : Nat) (_ : x < 2 ^ n) (_ : y < 2 ^ n) : op n x y = op n x y := rfl
  unfold integerVector at hv
  split at hv
  · exact vectorOp_follows hv rfl (same _)
  · exact vectorOp_follows hv rfl fun _ _ _ _ h => opSub_eq_cut _ h
  iterate 4 exact vectorOp_follows hv rfl (same _)
  · exact vectorOp_follows hv rfl fun _ _ _ _ _ => opMin_eq ..
  · exact vectorOp_follows hv rfl fun _ _ _ _ _ => opMax_eq ..
  · exact vectorOpX_follows hv rfl (same _)
  · exact vectorOpX_follows hv rfl fun _ _ _ _ h => opSub_eq_cut _ h
  iterate 4 exact vectorOpX_follows hv rfl (same _)
  · exact vectorOpX_follows hv rfl fun _ _ _ _ _ => opMin_eq ..
  · exact vectorOpX_follows hv rfl fun _ _ _ _ _ => opMax_eq ..
  iterate 2 exact vectorOp_follows hv rfl (same _)
  · exact vectorOp_follows hv rfl fun _ _ _ _ _ => opSra_eq ..
  · exact vectorOp_follows hv rfl fun _ _ _ _ _ => opMulh_eq ..
  · exact vectorOp_follows hv rfl fun _ _ _ _ _ => opDiv_eq ..
  · exact vectorOp_follows hv rfl fun _ _ _ _ _ => opRem_eq ..
  · exact vectorOp_follows hv rfl fun _ _ _ _ _ => opAddSat_eq ..
  · exact vectorOp_follows hv rfl fun _ _ _ _ _ => opSubSat_eq ..
  iterate 5 exact vectorOp_follows hv rfl (same _)
  · exact vectorUnary_follows hv rfl (funext₂ opAbs_eq)
  · exact vectorUnary_follows hv rfl rfl
  iterate 2
    cases hv
    exact ⟨_, rfl, s.hart.issued, _, rfl, fun _ => rfl⟩
  · cases hv

end

/-! ## Compares and mask instructions (R149, R150) -/

section
variable {r : MaskRule} {d : MReg} {a b : VReg} {y : GReg}

theorem compareInt_follows {c claim : Cond} (hv : cmp s e d a b m claim = some (m', r)) (hexec : exec i s = compareInt c e d a b m s)
    (hc : c = claim) : FollowsMaskRule i s m' r := by
  cases hv; cases hc
  exact ⟨_, rfl, s.hart.issued, _, hexec, fun _ => rfl⟩

theorem compareIntX_follows {c claim : Cond} (hv : cmpx s e d a y m claim = some (m', r)) (hexec : exec i s = compareIntX c e d a y m s)
    (hc : c = claim) : FollowsMaskRule i s m' r := by
  cases hv; cases hc
  obtain ⟨l, hl⟩ := atIssue_state s (s.g y) 0
  simp only [compareIntX, hl] at hexec
  exact ⟨_, rfl, l, _, hexec, fun _ => rfl⟩

theorem maskOp_follows {a b : MReg} {f : Bool → Bool → Bool} (hv : bitwise s e d a b m f = some (m', r)) (hexec : exec i s = maskOp f e d a b m s) :
    FollowsMaskRule i s m' r := by
  cases hv
  exact ⟨_, rfl, s.hart.issued, _, hexec, fun _ => rfl⟩

theorem mask_follows (hv : maskVector s i = some (m', r)) : FollowsMaskRule i s m' r := by
  unfold maskVector at hv
  split at hv
  · exact compareInt_follows hv rfl rfl
  · exact compareInt_follows hv rfl condNe_eq
  · exact compareInt_follows hv rfl condLt_eq
  · exact compareInt_follows hv rfl condGe_eq
  iterate 2 exact compareInt_follows hv rfl rfl
  · exact compareIntX_follows hv rfl rfl
  · exact compareIntX_follows hv rfl condNe_eq
  · exact compareIntX_follows hv rfl condLt_eq
  · exact compareIntX_follows hv rfl condGe_eq
  iterate 2 exact compareIntX_follows hv rfl rfl
  iterate 6 exact maskOp_follows hv rfl
  · cases hv

end

end Sys2Proof.Machine

open Sys2Proof Sys2Proof.Machine Sys2Proof.Claims in
/-- Settles O25: each instruction goes element by element and follows its rule; such a member writes all its active elements, or those below the
element at which a pre-emption stops it. -/
theorem integerVectorResults : Obligations.IntegerVectorResults := by
  unfold Obligations.IntegerVectorResults
  refine ⟨?_, ?_, ?_⟩
  · exact fun i s m r hv hcut hc => (integer_follows hv).writes hcut hc
  · exact fun i s m r hv hcut hc => (mask_follows hv).writes hcut hc
  · exact fun i s m r c hv hcut _ hlt hc => (integer_follows hv).stops hcut hlt hc
end

section
/-!
Float members and compares in the format of VT (R139, R143, R145 to R149). With O26.
-/
namespace Sys2Proof.Machine
open Sys2Proof.Claims

variable {i : Instr} {s : State} {e m m' : Bool} {f : Fmt}

/-- The member is of the float family: it goes element by element in the format of VT, and where that is `f`, each element `k` consumes `src k` and
then does `put k` (R139, R145 to R149). -/
def GoesInFormat (i : Instr) (s : State) (f : Fmt) (e m : Bool) (src : Nat → List (Nat × Nat × Nat)) (put : Nat → Hart → Hart) : Prop :=
  ∃ l w, ∃ g : Fmt → Hart → Nat → Element, encode i = some w ∧
    exec i s = member e (floatFamily w (s.modHart fun h => { h with issued := l }) fun f => elementwise m (g f)) ∧
    (floatOf s.hart.regs.vt = some f → ∀ k, g f { s.hart with issued := l } k = consumes s.hart (src k) (.ok (put k)))

variable {src : Nat → List (Nat × Nat × Nat)} {put : Nat → Hart → Hart}

theorem GoesInFormat.byElement (h : GoesInFormat i s f e m src put) (hf : floatOf s.hart.regs.vt = some f) : GoesByElement i s e m src put := by
  obtain ⟨l, w, g, -, hexec, hg⟩ := h
  rw [floatFamily_of_some (s := s.modHart fun h => { h with issued := l }) hf] at hexec
  exact ⟨l, g f, hexec, hg hf⟩

theorem floatFamily_of_none (hf : floatOf s.hart.regs.vt = none) (w : Code) (k : Fmt → State → Res) :
    floatFamily w s k = .trap (.own 0x03 (wordTval w s.hart.member)) s := by
  simp [floatFamily, illegalRegister, hf]

/-- At VT width 64 the member raises the illegal-register trap (R139). -/
theorem GoesInFormat.traps (h : GoesInFormat i s f e m src put) (hf : floatOf s.hart.regs.vt = none) (hq : Quiet s) :
    ∃ u : State, exec i s = .next (u.deliver { cause := 0x03, tval := BitVec.ofNat 64 (((encode i).getD 0).toNat + s.hart.member % 8 * 2 ^ 32) }) ∧
      u = { s with hart := { s.hart with issued := u.hart.issued } } := by
  obtain ⟨l, w, g, hw, hexec, -⟩ := h
  refine ⟨s.modHart fun h => { h with issued := l }, ?_, rfl⟩
  rw [floatFamily_of_none (s := s.modHart fun h => { h with issued := l }) hf, member_trap (by exact hq), wordTval_eq] at hexec
  rw [hexec, hw]
  rfl

/-- The member is of the float family and writes what the rule says to a vector register. -/
def FollowsInFormat (i : Instr) (s : State) (f : Fmt) (m : Bool) (r : ElemRule) : Prop :=
  ∃ val, r.new = atActive s.hart m val ∧ GoesInFormat i s f r.e m r.src fun k t => t.setElem r.d.toNat r.w k (val k)

/-- The same for a mask register. -/
def FollowsMaskInFormat (i : Instr) (s : State) (f : Fmt) (m : Bool) (r : MaskRule) : Prop :=
  ∃ val, r.new = atActive s.hart m val ∧ GoesInFormat i s f r.e m r.src fun k t => t.setMask r.d.toNat k (val k)

section
variable {r : ElemRule} {d a b : VReg} {y : GReg} {f3 : BitVec 3}

theorem floatVV_follows {claim : Flop} {fused : Bool} (hv : fvv s f e d a b m fused claim = some (m', r))
    (hexec : exec i s = floatVV claim fused f3 e d a b m s) (hw : encode i = some (encV e 0x2B d a b m f3)) : FollowsInFormat i s f m' r := by
  cases hv
  exact ⟨_, rfl, s.hart.issued, _, _, hw, hexec, fun _ _ => rfl⟩

theorem floatVX_follows {claim : Flop} {fused : Bool} (hv : fvx s f e d a y m fused claim = some (m', r))
    (hexec : exec i s = floatVX claim fused f3 e d a y m s) (hw : encode i = some (encV e 0x2C d a y m f3)) : FollowsInFormat i s f m' r := by
  cases hv
  have hseed := seed_atIssue s (s.g y) 0
  obtain ⟨l, hl⟩ := atIssue_state s (s.g y) 0
  rw [hl] at hseed
  simp only [floatVX, hl] at hexec
  refine ⟨_, rfl, l, _, _, hw, hexec, fun _ k => ?_⟩
  simp only [Hart.stochastic, chance]
  rw [← hseed]
  rfl

theorem floatUnary_follows {claim : Fmt → Nat → Nat → Nat → Nat} (hv : fv1 s f e d a m claim = some (m', r))
    (hexec : exec i s = floatUnary claim f3 e d a m s) (hw : encode i = some (encV e 0x2D d a 0 m f3)) : FollowsInFormat i s f m' r := by
  cases hv
  exact ⟨_, rfl, s.hart.issued, _, _, hw, hexec, fun _ _ => rfl⟩

theorem vfscale_follows (hv : floatVector s f (.vfscale e d a b m) = some (m', r)) : FollowsInFormat (.vfscale e d a b m) s f m' r := by
  cases hv
  have hexec : exec (.vfscale e d a b m) s = execVfscale e d a b m s := rfl
  refine ⟨_, rfl, s.hart.issued, _, _, rfl, hexec, fun hf k => ?_⟩
  have hsigned : toSigned (8 * vtBytes s.hart.regs.vt) = signed f.bits := by rw [floatOf_bits hf, toSigned_eq_signed]
  exact congrArg (fun exponent : Nat → Int => consumes s.hart _ (.ok fun t => t.setElem d.toNat _ k
    (f.encode _ _ ((f.decode _).scale (exponent (s.hart.elem b.toNat (vtBytes s.hart.regs.vt) k)))))) hsigned

theorem float_follows (hv : floatVector s f i = some (m', r)) : FollowsInFormat i s f m' r := by
  unfold floatVector at hv
  split at hv
  iterate 8 exact floatVV_follows hv rfl rfl
  iterate 8 exact floatVX_follows hv rfl rfl
  iterate 7 exact floatUnary_follows hv rfl rfl
  · exact vfscale_follows hv
  · cases hv

end

section
variable {r : MaskRule} {d : MReg} {a b : VReg} {y : GReg} {c : Fmt → Nat → Nat → Bool} {f3 : BitVec 3}

theorem compareFloat_follows (hv : cmp s e d a b m (fun _ => c f) = some (m', r)) (hexec : exec i s = compareFloat c f3 e d a b m s)
    (hw : encode i = some (encV e 0x2E (ofMask d) a b m f3)) : FollowsMaskInFormat i s f m' r := by
  cases hv
  exact ⟨_, rfl, s.hart.issued, _, _, hw, hexec, fun _ _ => rfl⟩

theorem compareFloatX_follows (hv : cmpx s e d a y m (fun _ => c f) = some (m', r)) (hexec : exec i s = compareFloatX c f3 e d a y m s)
    (hw : encode i = some (encV e 0x2F (ofMask d) a y m f3)) : FollowsMaskInFormat i s f m' r := by
  cases hv
  obtain ⟨l, hl⟩ := atIssue_state s (s.g y) 0
  simp only [compareFloatX, hl] at hexec
  exact ⟨_, rfl, l, _, _, hw, hexec, fun _ _ => rfl⟩

theorem floatMask_follows (hv : floatMask s f i = some (m', r)) : FollowsMaskInFormat i s f m' r := by
  unfold floatMask at hv
  split at hv
  · exact compareFloat_follows (c := flLt) hv rfl rfl
  · exact compareFloat_follows (c := flLe) hv rfl rfl
  · exact compareFloatX_follows (c := flLt) hv rfl rfl
  · exact compareFloatX_follows (c := flLe) hv rfl rfl
  · cases hv

end
end Sys2Proof.Machine

open Sys2Proof Sys2Proof.Machine Sys2Proof.Claims in
/-- Settles O26: each instruction is of the float family, so it goes element by element in the format of VT, or traps where VT has none. -/
theorem floatVectorResults : Obligations.FloatVectorResults := by
  unfold Obligations.FloatVectorResults
  refine ⟨?_, ?_, ?_⟩
  · intro i s f m r hf hv hcut hc
    obtain ⟨val, hnew, hg⟩ := float_follows hv
    exact FollowsRule.writes ⟨val, hnew, hg.byElement hf⟩ hcut hc
  · intro i s f m r hf hv hcut hc
    obtain ⟨val, hnew, hg⟩ := floatMask_follows hv
    exact FollowsMaskRule.writes ⟨val, hnew, hg.byElement hf⟩ hcut hc
  · rintro i s f hf (hv | hv) hq <;> obtain ⟨⟨m, r⟩, hv⟩ := Option.isSome_iff_exists.1 hv
    · obtain ⟨_, _, hg⟩ := float_follows hv
      exact hg.traps hf hq
    · obtain ⟨_, _, hg⟩ := floatMask_follows hv
      exact hg.traps hf hq
end

section
/-!
The permutes and VEXTR with no poisoned element consumed (R156). With O30.
-/
namespace Sys2Proof.Machine
open Sys2Proof.Claims

variable {i : Instr} {s : State} {e m m' : Bool} {r : ElemRule} {src : Hart → Nat → List (Nat × Nat × Nat)} {f : Hart → (Nat → Bool) → Hart}

/-! ## Elements written as pairs -/

/-- A member that leaves pairs of an index and a value written does what its rule says where the pairs are the rule's. -/
theorem writesElements_of_pairs {xs : List (Nat × Nat)} (hexec : exec i s = member r.e (.ok { s with hart := s.hart.putAll r.d.toNat r.w xs }))
    (hn : (xs.map (·.1)).Nodup) (hxs : ∀ k v, (k, v) ∈ xs ↔ k < s.hart.regs.vl ∧ r.new k = some v) : WritesElements i s r := by
  rw [putAll_hart] at hexec
  exact ⟨_, hexec, written_putAll rfl rfl hn hxs, rfl⟩

/-- The elements of a vector that `p` picks, each with a value. -/
def Hart.picked (h : Hart) (p : Nat → Bool) (val : Nat → Nat) : List (Nat × Nat) := ((List.range h.regs.vl).filter p).map fun k => (k, val k)

theorem picked_nodup (h : Hart) (p : Nat → Bool) (val : Nat → Nat) : ((h.picked p val).map (·.1)).Nodup := by
  rw [Hart.picked, List.map_map]
  exact (List.map_id _).symm ▸ List.nodup_range.filter _

theorem mem_picked {h : Hart} {p : Nat → Bool} {val : Nat → Nat} {k v : Nat} : (k, v) ∈ h.picked p val ↔ k < h.regs.vl ∧ p k = true ∧ val k = v := by
  simp only [Hart.picked, List.mem_map, List.mem_filter, List.mem_range, Prod.mk.injEq]
  constructor
  · rintro ⟨_, ⟨hk, hp⟩, rfl, hv⟩
    exact ⟨hk, hp, hv⟩
  · rintro ⟨hk, hp, hv⟩
    exact ⟨k, ⟨hk, hp⟩, rfl, hv⟩

/-- A member that runs to completion and writes the elements that `p` picks does what its rule says. -/
theorem completion_writes {p : Nat → Bool} {val : Nat → Nat} (hcut : s.hart.cut = none) (hexec : exec i s = member r.e (toCompletion m src f s))
    (hc : Clean s.hart m (src s.hart)) (hf : f s.hart (s.hart.active m) = s.hart.putAll r.d.toNat r.w (s.hart.picked p val))
    (hnew : ∀ k, r.new k = if p k then some (val k) else none) : WritesElements i s r := by
  rw [toCompletion_of_clean hcut hc, hf] at hexec
  refine writesElements_of_pairs hexec (picked_nodup ..) fun k v => ?_
  rw [mem_picked, hnew]
  simp

theorem elements_eq_range {h : Hart} (hcut : h.cut = none) (h0 : h.elix = 0) : h.elements = List.range h.regs.vl := by
  rw [elements_of_uncut hcut, upTo_of_zero h0]

theorem atActive_of_zero {α : Type} {h : Hart} (h0 : h.elix = 0) (val : Nat → α) (k : Nat) :
    atActive h m val k = if h.active m k then some (val k) else none := by
  rw [atActive, h0]
  simp

/-! ## Ranks in an ascending list -/

/-- How many elements of a list lie below one. -/
def rankIn (l : List Nat) (k : Nat) : Nat := (l.filter fun x => decide (x < k)).length

theorem rankIn_cons_of_le {x k : Nat} {l : List Nat} (h : k ≤ x) (hl : (x :: l).Pairwise (· < ·)) : rankIn (x :: l) k = 0 := by
  rw [rankIn, List.length_eq_zero_iff, List.filter_eq_nil_iff]
  intro y hy
  have : x ≤ y := by
    rcases List.mem_cons.1 hy with rfl | hy
    · exact le_refl _
    · exact ((List.pairwise_cons.1 hl).1 y hy).le
  simpa using h.trans this

theorem rankIn_cons_of_lt {x k : Nat} (l : List Nat) (h : x < k) : rankIn (x :: l) k = rankIn l k + 1 := by
  rw [rankIn, List.filter_cons_of_pos (by simpa using h)]
  rfl

/-- The elements of an ascending list paired with their places. -/
theorem zip_range_eq_rankIn {l : List Nat} (hl : l.Pairwise (· < ·)) (n : Nat) :
    l.zip (List.range' n l.length) = l.map fun k => (k, n + rankIn l k) := by
  induction l generalizing n with
  | nil => rfl
  | cons x l ih =>
    obtain ⟨hx, hrest⟩ := List.pairwise_cons.1 hl
    rw [List.length_cons, List.range'_succ, List.zip_cons_cons, ih hrest, List.map_cons, rankIn_cons_of_le (le_refl x) hl]
    refine congrArg _ (List.map_congr_left fun k hk => ?_)
    rw [rankIn_cons_of_lt l (hx k hk), Nat.add_assoc, Nat.add_comm 1]

/-- VIOTA's pairs: each element with the number of those before it whose mask bit is set. -/
theorem iotaPairs_eq (r : Regs) (b n : Nat) {l : List Nat} (hl : l.Pairwise (· < ·)) :
    iotaPairs r b l n = l.map fun k => (k, n + rankIn (l.filter (r.mask b)) k) := by
  induction l generalizing n with
  | nil => rfl
  | cons x l ih =>
    obtain ⟨hx, hrest⟩ := List.pairwise_cons.1 hl
    have hfirst : rankIn ((x :: l).filter (r.mask b)) x = 0 := by
      rw [rankIn, List.length_eq_zero_iff, List.filter_eq_nil_iff]
      intro y hy
      rcases List.mem_cons.1 (List.mem_filter.1 hy).1 with rfl | hy
      · simp
      · simpa using (hx y hy).le
    rw [iotaPairs, ih _ hrest, List.map_cons, hfirst]
    refine congrArg _ (List.map_congr_left fun k hk => ?_)
    by_cases hb : r.mask b x = true
    · rw [if_pos hb, List.filter_cons_of_pos hb, rankIn_cons_of_lt _ (hx k hk), Nat.add_assoc, Nat.add_comm 1]
    · rw [if_neg hb, List.filter_cons_of_neg hb]

/-! ## The permutes -/

theorem chosen_ascending (h : Hart) (act : Nat → Bool) (b : Nat) : (h.chosen act b).Pairwise (· < ·) := List.pairwise_lt_range.filter _

theorem chosen_length_le (k : MReg) : (chosen s m k).length ≤ s.hart.regs.vl :=
  (List.length_filter_le ..).trans ((List.length_filter_le ..).trans_eq List.length_range)

/-- A list paired with its places, each element read as `val` says. -/
theorem mem_zip_range {l : List Nat} {val : Nat → Nat} {j v : Nat} :
    (j, v) ∈ ((List.range l.length).zip l).map (fun p => (p.1, val p.2)) ↔ l[j]?.map val = some v := by
  constructor
  · intro h
    obtain ⟨⟨n, x⟩, hp, he⟩ := List.mem_map.1 h
    obtain ⟨i, hi⟩ := List.mem_iff_getElem?.1 hp
    obtain ⟨hn, hx⟩ := List.getElem?_zip_eq_some.1 hi
    obtain ⟨_, rfl⟩ := List.getElem?_eq_some_iff.1 hn
    cases he
    rw [List.getElem_range, hx]
    rfl
  · intro h
    obtain ⟨x, hx, rfl⟩ := Option.map_eq_some_iff.1 h
    have hj := (List.getElem?_eq_some_iff.1 hx).1
    exact List.mem_map.2 ⟨(j, x), List.mem_iff_getElem?.2 ⟨j, List.getElem?_zip_eq_some.2 ⟨List.getElem?_range hj, hx⟩⟩, rfl⟩

section
variable {d a b : VReg} {y : GReg} {k : MReg} (hcut : s.hart.cut = none)
include hcut

theorem vcomp_writes (hv : permute s (.vcomp e d a k m) = some (m', r)) (hc : Clean s.hart m' r.src) : WritesElements (.vcomp e d a k m) s r := by
  cases hv
  have hexec : exec (.vcomp e d a k m) s = execVcomp e d a k m s := rfl
  rw [execVcomp, toCompletion_of_clean hcut hc, chosen_active] at hexec
  refine writesElements_of_pairs hexec ?_ fun j v => ?_
  · rw [List.map_map]
    exact (List.map_fst_zip (List.length_range).le).symm ▸ List.nodup_range
  · rw [mem_zip_range]
    refine ⟨fun h => ⟨?_, h⟩, And.right⟩
    obtain ⟨x, hx, -⟩ := Option.map_eq_some_iff.1 h
    exact (List.getElem?_eq_some_iff.1 hx).1.trans_le (chosen_length_le k)

theorem vexpd_writes (hv : permute s (.vexpd e d a k m) = some (m', r)) (hc : Clean s.hart m' r.src) : WritesElements (.vexpd e d a k m) s r := by
  cases hv
  have hpairs := zip_range_eq_rankIn (chosen_ascending s.hart (s.hart.active m) k.toNat) 0
  simp only [← chosen_active] at hc ⊢
  refine completion_writes (p := fun j => s.hart.active m j && s.hart.regs.mask k.toNat j)
    (val := fun j => s.hart.elem a.toNat s.hart.width (rankIn (s.hart.chosen (s.hart.active m) k.toNat) j)) hcut rfl hc ?_ fun j => ?_
  · simp only [List.range_eq_range', hpairs, List.map_map, Function.comp_def, Nat.zero_add]
    rfl
  · simp only [Bool.and_eq_true]
    rfl

theorem viota_writes (hv : permute s (.viota e d k m) = some (m', r)) (h0 : s.hart.elix = 0) (hc : Clean s.hart m' r.src) :
    WritesElements (.viota e d k m) s r := by
  cases hv
  refine completion_writes (p := s.hart.active m) (val := rankIn (chosen s m k)) hcut rfl hc ?_ (atActive_of_zero h0 _)
  rw [iotaPairs_eq _ _ _ (List.pairwise_lt_range.filter _)]
  simp only [Nat.zero_add]
  rfl

variable (h0 : s.hart.elix = 0)
include h0

theorem vslup_writes (hv : permute s (.vslup e d a y m) = some (m', r)) (hc : Clean s.hart m' r.src) : WritesElements (.vslup e d a y m) s r := by
  cases hv
  refine completion_writes (p := fun j => s.hart.active m j && decide ((s.g y).toNat ≤ j))
    (val := fun j => s.hart.elem a.toNat s.hart.width (j - (s.g y).toNat)) hcut rfl hc ?_ fun j => ?_
  · rw [elements_eq_range hcut h0]
    rfl
  · simp only [Bool.and_eq_true, decide_eq_true_eq]
    rfl

theorem vsldn_writes (hv : permute s (.vsldn e d a y m) = some (m', r)) (hc : Clean s.hart m' r.src) : WritesElements (.vsldn e d a y m) s r := by
  cases hv
  refine completion_writes (p := s.hart.active m) hcut rfl hc ?_ (atActive_of_zero h0 _)
  rw [elements_eq_range hcut h0]
  rfl

theorem vrgath_writes (hv : permute s (.vrgath e d a b m) = some (m', r)) (hc : Clean s.hart m' r.src) : WritesElements (.vrgath e d a b m) s r := by
  cases hv
  refine completion_writes (p := s.hart.active m) hcut rfl hc ?_ (atActive_of_zero h0 _)
  rw [elements_eq_range hcut h0]
  rfl

theorem permute_writes (hv : permute s i = some (m', r)) (hc : Clean s.hart m' r.src) : WritesElements i s r := by
  have hcopy := hv
  unfold permute at hcopy
  split at hcopy
  · exact vslup_writes hcut h0 hv hc
  · exact vsldn_writes hcut h0 hv hc
  · exact vcomp_writes hcut hv hc
  · exact vexpd_writes hcut hv hc
  · exact viota_writes hcut hv h0 hc
  · exact vrgath_writes hcut h0 hv hc
  · cases hcopy

end

/-! ## VEXTR -/

section
variable {d : GReg} {a : VReg} {b : GReg}

theorem exec_vextr : exec (.vextr e d a b m) s = execVextr e d a b m s := rfl

theorem vextr_of_le (hk : s.hart.regs.vl ≤ (s.g b).toNat) : exec (.vextr e d a b m) s = Wrote s e (s.hart.regs.setG d 0) := by
  rw [exec_vextr, execVextr, if_pos hk]
  rfl

theorem vextr_of_lt (hk : (s.g b).toNat < s.hart.regs.vl) (hp : s.hart.elemPoison a.toNat (vtBytes s.hart.regs.vt) (s.g b).toNat = false) :
    exec (.vextr e d a b m) s = Wrote s e (s.hart.regs.setG d
      (BitVec.ofInt 64 (signed (bits s) (s.hart.elem a.toNat (vtBytes s.hart.regs.vt) (s.g b).toNat)))) := by
  rw [exec_vextr, execVextr, if_neg (not_le.2 hk), if_neg (by rw [Hart.width, hp]; decide), toSigned_eq_signed]
  rfl

end

end Sys2Proof.Machine

open Sys2Proof Sys2Proof.Machine Sys2Proof.Claims in
/-- Settles O30: each permute runs to completion and writes pairs of an index and a value, and those are the pairs of its rule. -/
theorem permuteResults : Obligations.PermuteResults := by
  unfold Obligations.PermuteResults
  constructor
  · exact fun i s m r hv h0 hcut hc => permute_writes hcut h0 hv hc
  · exact fun e d a b m s => ⟨vextr_of_le, vextr_of_lt⟩
end

section
/-!
What the look-ups and checks of a vector load leave of the element at which a pre-emption stops the member (R138, R352, R354, R412). With O35.
-/
namespace Sys2Proof.Machine
open Sys2Proof.Claims

/-- A pre-emption stops the hart's member where it did before, if anywhere. -/
def KeepsCut (s t : State) : Prop := t.hart.cut = s.hart.cut

namespace KeepsCut

variable {s t u : State}

theorem refl (s : State) : KeepsCut s s := rfl

theorem trans (h : KeepsCut s t) (k : KeepsCut t u) : KeepsCut s u := Eq.trans k h

theorem of_hart (h : t.hart = s.hart) : KeepsCut s t := congrArg Hart.cut h

theorem of_keepsHarts (h : KeepsHarts s t) : KeepsCut s t := (congrArg Hart.cut h.hart :)

theorem foldl {β : Type} {f : State → β → State} (hf : ∀ s x, KeepsCut s (f s x)) (l : List β) (s : State) : KeepsCut s (l.foldl f s) := by
  induction l generalizing s with
  | nil => exact refl s
  | cons x l ih => exact (hf s x).trans (ih _)

theorem uncut (h : KeepsCut s t) (hcut : s.hart.cut = none) : t.hart.cut = none := Eq.trans h hcut

end KeepsCut

variable (s : State)

/-! ## Accesses -/

theorem keepsCut_setAccessed (owner : Nat) (ls : List Leaf) : KeepsCut s (s.setAccessed owner ls).1 := .of_keepsHarts (keepsHarts_setAccessed ..)

theorem keepsCut_fileEvent (n code addr src : Nat) : KeepsCut s (s.fileEvent n code addr src) := .of_keepsHarts (keepsHarts_fileEvent ..)

theorem keepsCut_readList (sel : Pending → Bool) (p : Place) (n : Nat) : KeepsCut s (s.readList sel p n).1 := .of_hart (readList_hart ..)

theorem keepsCut_reach (va : Word) (n : Nat) (u : Use) (want : Option Want) : KeepsCut s (s.reach va n u want).1 := by
  unfold State.reach
  split
  · repeat' split
    all_goals exact .refl s
  · split
    · exact .refl s
    · rename_i x _
      have key := keepsCut_setAccessed s s.hart.ctx x.leaves
      split
      all_goals rename_i h; rw [h] at key; exact key

theorem keepsCut_access (va : Word) (n : Nat) (u : Use) (want : Option Want) : KeepsCut s (s.access va n u want).1 := by
  unfold State.access
  extract_lets report
  have hreport (t : State) : KeepsCut t (report t) := keepsCut_fileEvent ..
  have key := keepsCut_reach s va n u want
  split
  all_goals rename_i h; rw [h] at key
  · dsimp only
    split
    · exact key.trans (hreport _)
    · exact key
  · exact key
  · split
    · exact key
    · split
      · exact key
      · split
        · split <;> exact key.trans (hreport _)
        · exact key

theorem poisonAt_hart (p : Place) (n : Nat) : (s.poisonAt p n).hart = s.hart := by
  cases p <;> rfl

theorem keepsCut_eccAccess (p : Place) (n : Nat) : KeepsCut s (s.eccAccess p n) := by
  unfold State.eccAccess
  split
  · exact .refl s
  · extract_lets t addr
    have ht : KeepsCut s t := .of_hart rfl
    split
    · exact ht
    · refine .trans ?_ (keepsCut_fileEvent ..)
      exact ht
    · exact .trans (.of_hart (poisonAt_hart t p n)) (keepsCut_fileEvent ..)
    · extract_lets l
      split
      · exact ht
      · refine .trans ?_ (keepsCut_fileEvent ..)
        exact .of_hart (poisonAt_hart ..)

theorem keepsCut_baseOf (va : Word) : KeepsCut s (s.baseOf va).1 := by
  unfold State.baseOf
  split
  · exact .refl s
  · split
    · exact .refl s
    · rename_i x _
      have key := keepsCut_setAccessed s s.hart.ctx x.leaves
      split
      all_goals rename_i h; rw [h] at key; exact key

/-! ## The pass of a load -/

theorem keepsCut_checkMx (w : Sweep) (va : Word) (r : Except Stop Reached) : KeepsCut s (s.checkMx w va r).1 := by
  unfold State.checkMx
  split
  · exact .refl s
  · rename_i a _
    extract_lets scale
    have key : KeepsCut s (scale s).1 := keepsCut_access ..
    split
    · exact .refl s
    · split
      · exact .refl s
      · split
        all_goals rename_i h; rw [h] at key; exact key
    · split
      all_goals rename_i h; rw [h] at key; exact key

theorem keepsCut_reachElem (w : Sweep) (va : Word) : KeepsCut s (s.reachElem w va).1 := by
  unfold State.reachElem
  extract_lets n
  split
  · exact .refl s
  · split
    · exact .refl s
    · have key := keepsCut_access s va n (if w.store then .write else .read) (w.base.want w.vt)
      split
      rename_i t r h
      rw [h] at key
      split
      · exact key.trans (keepsCut_checkMx ..)
      · exact key

theorem keepsCut_loadElem (w : Sweep) (i : Nat) (va : Word) (high : Bool) (p : Place) (scale : Option Place) :
    KeepsCut s (s.loadElem w i va high p scale).1 := by
  unfold State.loadElem
  extract_lets t
  have ht : KeepsCut s t := keepsCut_eccAccess ..
  split
  · exact ht
  · exact ht.trans (.of_hart (loadBits_hart ..))

theorem keepsCut_checkElem (w : Sweep) (i : Nat) (va : Word) (high : Bool) : KeepsCut s (s.checkElem w i va high).1 := by
  unfold State.checkElem
  have key := keepsCut_reachElem s w va
  split
  · rename_i h; rw [h] at key; exact key
  · rename_i t x h
    rw [h] at key
    split
    · dsimp only
      split <;> exact key
    · have load := keepsCut_loadElem t w i va high x.1.place x.2
      split
      all_goals rename_i h; rw [h] at load; exact key.trans load

theorem keepsCut_checkAll (w : Sweep) (elems : List (Nat × Except Trap (Word × Bool))) : KeepsCut s (s.checkAll w elems).1 := by
  induction elems generalizing s with
  | nil => exact .refl s
  | cons x rest ih =>
    obtain ⟨i, t | ⟨va, high⟩⟩ := x
    · exact ih s
    · exact (keepsCut_checkElem s w i va high).trans (ih _)

theorem keepsCut_performLate : KeepsCut s s.performLate := by
  have hload (l : LateLoad) (s : State) (x : LateElem) : KeepsCut s (State.loadLate l s x) := by
    unfold State.loadLate
    exact .trans (.of_hart (loadBits_hart ..)) rfl
  unfold State.performLate
  split
  · exact .refl s
  · refine .trans ?_ (.foldl (fun s l => .foldl (hload l) l.elems s) _ _)
    exact rfl

theorem keepsCut_caughtUp (w : Sweep) : KeepsCut s (caughtUp s w) := by
  unfold caughtUp
  split
  · exact keepsCut_performLate s
  · exact .refl s

/-! ## Table words and rows (R350, R352, R354) -/

theorem keepsCut_tableLoad (sel : Pending → Bool) (va : Word) : KeepsCut s (s.tableLoad sel va).1 := by
  unfold State.tableLoad
  have key := keepsCut_access s va 8 .read (s.rawWant va)
  split
  · rename_i h; rw [h] at key; exact key
  · rename_i t r h
    rw [h] at key
    have ht := key.trans (keepsCut_eccAccess t r.place 8)
    dsimp only
    split
    · exact ht
    · exact ht.trans (keepsCut_readList ..)

theorem keepsCut_tableWords (sel : Pending → Bool) (vas : List Word) : KeepsCut s (s.tableWords sel vas).1 := by
  induction vas generalizing s with
  | nil => exact .refl s
  | cons va rest ih =>
    unfold State.tableWords
    have key := keepsCut_tableLoad s sel va
    split
    · rename_i h; rw [h] at key; exact key
    · rename_i t _ h
      rw [h] at key
      have more := ih t
      split
      all_goals rename_i h; rw [h] at more; exact key.trans more

theorem keepsCut_describe (sel : Pending → Bool) (x : Word) (info : Nat) : KeepsCut s (s.describe sel x info).1 := by
  unfold State.describe
  have key := keepsCut_tableWords s sel [x + 0x20, x + 0x28, x + 0x30, x + 0x38]
  split
  · rename_i h; rw [h] at key; exact key
  · rename_i h
    rw [h] at key
    split <;> exact key

theorem keepsCut_descriptor (sel : Pending → Bool) (x : Word) : KeepsCut s (s.descriptor sel x).1 := by
  unfold State.descriptor
  have key := keepsCut_tableLoad s sel (x + 0x18)
  split
  · rename_i h; rw [h] at key; exact key
  · rename_i h
    rw [h] at key
    exact key.trans (keepsCut_describe ..)

theorem keepsCut_seqWalk (sel : Pending → Bool) (t : Word) (p left : Nat) (x : Word) (d : SeqTable) : KeepsCut s (s.seqWalk sel t p left x d).1 := by
  induction left using Nat.strongRecOn generalizing s x d with | _ left ih
  rw [State.seqWalk.eq_def]
  extract_lets blk
  split
  extract_lets entry
  have hentry : KeepsCut s entry.1 := by
    unfold entry
    split
    · exact keepsCut_tableLoad ..
    · exact .refl s
  clear_value entry
  split
  · exact hentry
  · rename_i u e
    split
    · exact hentry
    · split
      · exact hentry
      · have hword := keepsCut_tableLoad u sel (x + 0x10)
        split
        all_goals rename_i h; rw [h] at hword
        · exact hentry.trans hword
        · rename_i v _
          extract_lets y
          split
          · exact hentry.trans hword
          · split
            · exact hentry.trans hword
            · rename_i left
              split
              · exact hentry.trans hword
              · have hnext := keepsCut_descriptor v sel y
                split
                all_goals rename_i h; rw [h] at hnext
                · exact hentry.trans (hword.trans hnext)
                · exact hentry.trans (hword.trans (hnext.trans (ih left (Nat.lt_succ_self left) ..)))

theorem keepsCut_seqLookup (sel : Pending → Bool) (t : Word) (p : Nat) : KeepsCut s (s.seqLookup sel t p).1 := by
  unfold State.seqLookup
  have hinfo := keepsCut_tableLoad s sel (t + 0x18)
  split
  all_goals rename_i h; rw [h] at hinfo
  · exact hinfo
  · rename_i u info
    split
    · exact hinfo
    · have hdesc := keepsCut_describe u sel t info
      split
      all_goals rename_i h; rw [h] at hdesc
      · exact hinfo.trans hdesc
      · rename_i v d
        have hwalk := keepsCut_seqWalk v sel t p 4 t d
        split
        all_goals rename_i h; rw [h] at hwalk; exact hinfo.trans (hdesc.trans hwalk)

theorem keepsCut_seqRow (sel : Pending → Bool) (t packed : Word) (i : Nat) : KeepsCut s (s.seqRow sel t packed i).1 := by
  unfold State.seqRow
  extract_lets p
  split
  · exact .refl s
  · split
    · exact .refl s
    · have key := keepsCut_seqLookup s sel t p
      split
      all_goals rename_i h; rw [h] at key; exact key

theorem keepsCut_seqElement (sel : Pending → Bool) (t packed : Word) (vt : BitVec 7) (i : Nat) : KeepsCut s (s.seqElement sel t packed vt i).1 := by
  unfold State.seqElement
  have hrow := keepsCut_seqRow s sel t packed i
  split
  all_goals rename_i h; rw [h] at hrow
  · exact hrow
  · rename_i u a rb
    extract_lets c at'
    have hbase := keepsCut_baseOf u a
    split
    all_goals rename_i h; rw [h] at hbase
    · exact hrow.trans hbase
    · extract_lets bits
      split <;> exact hrow.trans hbase

theorem keepsCut_seqBase (sel : Pending → Bool) (t packed : Word) (act : List Nat) : KeepsCut s (s.seqBase sel t packed act).1 := by
  induction act generalizing s with
  | nil => exact .refl s
  | cons i rest ih =>
    unfold State.seqBase
    have hrow := keepsCut_seqRow s sel t packed i
    split
    all_goals rename_i h; rw [h] at hrow
    · exact hrow.trans (ih _)
    · rename_i u a rb
      have hbase := keepsCut_baseOf u a
      split
      · rename_i h
        rw [h] at hbase
        exact hrow.trans (hbase.trans (ih _))
      · exact hrow.trans hbase

theorem keepsCut_seqElements (sel : Pending → Bool) (t packed : Word) (vt : BitVec 7) (act : List Nat) :
    KeepsCut s (s.seqElements sel t packed vt act).1 := by
  induction act generalizing s with
  | nil => exact .refl s
  | cons i is ih =>
    unfold State.seqElements
    have key := (keepsCut_seqElement s sel t packed vt i).trans (ih _)
    dsimp only
    split <;> exact key

theorem keepsCut_atIssue (x y : Word) : KeepsCut s (s.atIssue x y).1 := by
  obtain ⟨l, hl⟩ := atIssue_state s x y
  rw [hl]
  rfl

end Sys2Proof.Machine
end

section
/-!
The pass of VSEQ over its rows (R143, R352, R354, R355). With O35.
-/
namespace Sys2Proof.Machine
open Sys2Proof.Claims

variable {s u : State} {w : Sweep} {gs : List Got} {e m : Bool} {d : VReg} {a b : GReg}

/-! ## A load whose elements all pass -/

/-- The elements of a load written to their register. -/
def State.loaded (s : State) (reg : Nat) (vt : BitVec 7) (gs : List Got) : State :=
  ({ s with hold := s.hold.drop 1 } : State).modHart fun h => gs.foldl (fun h g => h.setElem reg (vtBytes vt) g.index g.value) h

theorem performLoad_of_headD (hhold : s.hold.headD false = false) : s.performLoad w gs = s.loaded w.reg w.vt gs := by
  unfold State.performLoad
  split
  · rename_i h
    rw [h] at hhold
    cases hhold
  · rfl

theorem behindHeld_of_nil (hheld : s.hart.heldAll = []) (p : Place) (scale : Option Place) : s.behindHeld w p scale = false := by
  simp [State.behindHeld, Hart.touchesHeld, hheld]

theorem keepsCut_loaded (s : State) (reg : Nat) (vt : BitVec 7) (gs : List Got) : KeepsCut s (s.loaded reg vt gs) := by
  have hgs (h : Hart) : (gs.foldl (fun h g => h.setElem reg (vtBytes vt) g.index g.value) h).cut = h.cut := by
    induction gs generalizing h with
    | nil => rfl
    | cons g gs ih => exact ih _
  exact hgs s.hart

/-- A load whose elements all pass leaves them in its register, and the member is through with them. -/
theorem sweep_of_passes (hw : w.store = false) (hp : Passes (caughtUp s w) w u gs) (hheld : u.hart.heldAll = []) (hhold : u.hold.headD false = false)
    (lost : Nat → List (Nat × Option Nat)) (trims : Bool) : sweep w lost trims s = (u.loaded w.reg w.vt gs).throughTo w.vl := by
  obtain ⟨rs, hrs, hok, rfl⟩ := hp
  have hfails : rs.filterMap stopOf = [] := by
    rw [List.filterMap_eq_nil_iff]
    intro r hr
    obtain ⟨g, hg⟩ := hok r hr
    rw [stopOf, hg]
  have hcaught : (if s.behindLate w then s.performLate else s) = caughtUp s w := rfl
  have hbehind : ((rs.filterMap gotOf).any fun g => u.behindHeld w g.place (g.mx.map (·.2))) = false :=
    List.any_eq_false.2 fun g _ => by simp [behindHeld_of_nil hheld]
  simp only [sweep, hcaught, hrs, hfails, List.find?_nil, State.finishSweep, hw, hbehind, performLoad_of_headD hhold, Bool.false_eq_true, if_false]

/-! ## VSEQ -/

theorem exec_vseq (hs : Settled s) : exec (.vseq e d a b m) s = member e (
    let o := s.atIssue (s.g a) (s.g b)
    let h := o.1.hart
    match h.elements.filter (h.active m) with
    | [] => o.1.through
    | i :: rest =>
      let p := o.1.seqBase (ownOrdered 0) o.2.1 o.2.2 (if h.resumes then (List.range h.regs.vl).filter (h.active m) else [i])
      seqRead d.toNat h.regs.vt h.regs.vl o.2.1 o.2.2 h.seed h.m15only p.2 (i :: rest) p.1) :=
  congrArg (member e) (settled_eq hs _)

theorem vseq_of_inactive (hs : Settled s) (hcut : s.hart.cut = none) :
    let o := s.atIssue (s.g a) (s.g b)
    o.1.hart.elements.filter (o.1.hart.active m) = [] → Completes (.vseq e d a b m) s e o.1 := by
  intro o hact
  rw [Completes, exec_vseq hs]
  refine congrArg (member e) (?_ : _ = Res.ok o.1)
  rw [← through_of_uncut ((keepsCut_atIssue s (s.g a) (s.g b)).uncut hcut)]
  dsimp only
  rw [hact]

theorem exec_vseq_of_active (hs : Settled s) {i : Nat} {rest : List Nat} :
    let o := s.atIssue (s.g a) (s.g b)
    let h := o.1.hart
    h.elements.filter (h.active m) = i :: rest →
    exec (.vseq e d a b m) s = member e (
      let p := o.1.seqBase (ownOrdered 0) o.2.1 o.2.2 (if h.resumes then (List.range h.regs.vl).filter (h.active m) else [i])
      seqRead d.toNat h.regs.vt h.regs.vl o.2.1 o.2.2 h.seed h.m15only p.2 (i :: rest) p.1) := by
  intro o h hact
  rw [exec_vseq hs]
  dsimp only
  rw [hact]

theorem resumes_iff (h : Hart) : h.resumes = true ↔ h.elix ≠ 0 ∨ h.m15only = true := by
  simp [Hart.resumes]

theorem seqRead_of_passes {vt : BitVec 7} {vl : Nat} {t packed seed : Word} {prior : Bool} {base : Base} {act : List Nat} {s2 : State}
    {elems : List (Nat × Except Trap (Word × Bool))} (hcut : s.hart.cut = none)
    (helems : s.seqElements (ownOrdered 0) t packed vt act = (s2, false, elems))
    (hw : w = { store := false, indexed := false, reg := d.toNat, minor := 0, vt := vt, vl := vl, seed := seed, aligned := false
                planes := s2.hart.splanes, base := base, baseVa := t, prior := prior, elems := elems })
    (hp : Passes (caughtUp s2 w) w u gs) (hheld : u.hart.heldAll = []) (hhold : u.hold.headD false = false) :
    seqRead d.toNat vt vl t packed seed prior base act s = .ok (u.loaded d.toNat vt gs) := by
  have hkeeps := keepsCut_seqElements s (ownOrdered 0) t packed vt act
  have hchecks := keepsCut_checkAll (caughtUp s2 w) w w.elems
  obtain ⟨rs, hrs, -⟩ := id hp
  rw [helems] at hkeeps
  rw [hrs] at hchecks
  have hkept := hkeeps.trans ((keepsCut_caughtUp s2 w).trans (hchecks.trans (keepsCut_loaded u d.toNat vt gs)))
  simp only [seqRead, helems, Bool.false_eq_true, if_false, ← hw]
  rw [sweep_of_passes (by rw [hw]) hp hheld hhold, hw, State.throughTo, hkept.uncut hcut]

/-- What VSEQ leaves where the rows of its active elements are found and every element passes. -/
theorem vseq_of_passes (hs : Settled s) (hcut : s.hart.cut = none) {i : Nat} {rest : List Nat} {s1 s2 : State} {base : Base}
    {elems : List (Nat × Except Trap (Word × Bool))} :
    let o := s.atIssue (s.g a) (s.g b)
    let h := o.1.hart
    let act := h.elements.filter (h.active m)
    act = i :: rest →
    o.1.seqBase (ownOrdered 0) o.2.1 o.2.2 (if h.elix ≠ 0 ∨ h.m15only = true then (List.range h.regs.vl).filter (h.active m) else [i]) = (s1, base) →
    s1.seqElements (ownOrdered 0) o.2.1 o.2.2 h.regs.vt act = (s2, false, elems) →
    let w := rowSweep d h s2.hart.splanes o.2.1 base elems
    Passes (caughtUp s2 w) w u gs → u.hart.heldAll = [] → u.hold.headD false = false →
      Completes (.vseq e d a b m) s e (u.loaded d.toNat s.hart.regs.vt gs) := by
  intro o h act hact hbase helems w hp hheld hhold
  have hkeeps := (keepsCut_atIssue s (s.g a) (s.g b)).trans (keepsCut_seqBase o.1 (ownOrdered 0) o.2.1 o.2.2
    (if h.elix ≠ 0 ∨ h.m15only = true then (List.range h.regs.vl).filter (h.active m) else [i]))
  rw [hbase] at hkeeps
  have hread := seqRead_of_passes (d := d) (vl := h.regs.vl) (seed := h.seed) (prior := h.m15only) (base := base) (hkeeps.uncut hcut) helems rfl hp hheld hhold
  have hvt : h.regs.vt = s.hart.regs.vt := by
    obtain ⟨l, hl⟩ := atIssue_state s (s.g a) (s.g b)
    change o.1.hart.regs.vt = _
    rw [show o.1 = _ from hl]
    rfl
  have hsame : (if h.resumes then (List.range h.regs.vl).filter (h.active m) else [i]) =
      if h.elix ≠ 0 ∨ h.m15only = true then (List.range h.regs.vl).filter (h.active m) else [i] := if_congr (resumes_iff h) rfl rfl
  have hexec := exec_vseq_of_active (e := e) (d := d) hs hact
  rw [hsame, hbase, ← hact, hread, hvt] at hexec
  exact hexec

/-! ## Where an element lies (R352, R354) -/

theorem seqRow_ok {sel : Pending → Bool} {t packed : Word} {i rb : Nat} {x : Word} (h : s.seqRow sel t packed i = (u, .ok (x, rb))) :
    ∃ page, s.seqLookup sel t (packed.toNat % 2 ^ 32 + i) = (u, .ok (page, rb)) ∧
      x = BitVec.ofNat 64 (page + packed.toNat / 2 ^ 63 * 16 * rb + (packed.toNat % 2 ^ 32 + i) % 16 * rb) := by
  have hhalf : bitsOf packed.toNat 63 63 = packed.toNat / 2 ^ 63 := Nat.mod_eq_of_lt (by have := packed.isLt; omega)
  unfold State.seqRow at h
  extract_lets p at h
  split at h
  · cases h
  · split at h
    · cases h
    · split at h
      · cases h
      · rename_i page rb' hlook
        rw [hhalf] at h
        cases h
        exact ⟨page, hlook, rfl⟩

theorem seqElement_ok {sel : Pending → Bool} {t packed : Word} {vt : BitVec 7} {i : Nat} {y : Word × Bool}
    (h : s.seqElement sel t packed vt i = (u, .ok y)) :
    ∃ s1 page rb fmt, s.seqLookup sel t (packed.toNat % 2 ^ 32 + i) = (s1, .ok (page, rb)) ∧
      y.1 = BitVec.ofNat 64 (page + packed.toNat / 2 ^ 63 * 16 * rb + (packed.toNat % 2 ^ 32 + i) % 16 * rb +
        packed.toNat / 2 ^ 32 % 2 ^ 31 * elemBits fmt vt / 8) := by
  unfold State.seqElement at h
  split at h
  · cases h
  · rename_i s1 x rb hrow
    obtain ⟨page, hlook, rfl⟩ := seqRow_ok hrow
    extract_lets c at' at h
    split at h
    · cases h
    · rename_i base _ _
      extract_lets bits at h
      split at h
      · cases h
      · cases h
        exact ⟨s1, page, rb, base.fmt, hlook, (BitVec.ofNat_add ..).symm⟩

end Sys2Proof.Machine
end

section
/-!
Rotary angles (R360 to R362). With O35.
-/
namespace Sys2Proof.Machine
open Sys2Proof.Claims

variable {s : State} {e m : Bool} {d v x : VReg} {b : GReg}

theorem rotaryVt_of (hw : vtBytes s.hart.regs.vt = 4) (hv : vtVariant s.hart.regs.vt = 0) : rotaryVt s = true := by
  rw [rotaryVt, Hart.width, hw, hv]
  rfl

/-- A settled hart's trap is delivered once its vector loads are performed (R70, R177). -/
theorem member_trap_of_settled (hs : Settled s) (e : Bool) (t : Trap) : member e (.trap t s) = .next (s.performLate.deliver t) :=
  congrArg Host.Outcome.next (if_pos (sure_of_settled hs))

/-! ## VRANG (R361) -/

/-- The product of a position and element `j`. -/
def angle (h : Hart) (v : VReg) (p j : Nat) : Nat :=
  fp32.encode 0 0 ((fp32.decode (fp32.encode 0 0 (.num false p 0))).mul (fp32.decode (h.elem v.toNat 4 j)))

theorem angles_new (p : Nat) : (angles s e d v m p).new = atActive s.hart m (angle s.hart v p) := rfl

/-- What VRANG does at element `j`. -/
def angleElement (d v : VReg) (p : Nat) (h : Hart) (j : Nat) : Element :=
  consumes h [(v.toNat, 4, j)] (.ok fun t => t.setElem d.toNat 4 j (angle h v p j))

/-- Whether VRANG sets RIX. -/
def inexactAngle (s : State) (m : Bool) (p : Nat) : Bool := decide (p ≥ 2 ^ 24) && (List.range s.hart.regs.vl).any (s.hart.active m)

section
variable (hw : vtBytes s.hart.regs.vt = 4) (hv : vtVariant s.hart.regs.vt = 0)
include hw hv

theorem exec_vrang : ∃ l, exec (.vrang e d v b m) s = member e (
    let t := s.modHart fun h => { h with issued := l }
    if operand s b ≥ 2 ^ 32 then .trap (.own 0x13 (BitVec.ofNat 64 (operand s b))) t
    else (elementwise m (angleElement d v (operand s b)) t).whenDone fun u => if inexactAngle s m (operand s b) then u.modRegs Regs.setRix else u) := by
  obtain ⟨l, hl⟩ := atIssue_state s (s.g b) 0
  have hexec : exec (.vrang e d v b m) s = execVrang e d v b m s := rfl
  have hrot : rotaryVt (s.modHart fun h => { h with issued := l }) = true := rotaryVt_of (by exact hw) (by exact hv)
  refine ⟨l, ?_⟩
  rw [hexec, execVrang]
  simp only [hl, illegalRegister, hrot, if_true]
  rw [operand, BitVec.ofNat_toNat, BitVec.setWidth_eq]
  rfl

theorem vrang_traps (hs : Settled s) (hge : 2 ^ 32 ≤ operand s b) :
    ∃ u : State, exec (.vrang e d v b m) s = .next (u.performLate.deliver (.own 0x13 (BitVec.ofNat 64 (operand s b)))) ∧
      u = { s with hart := { s.hart with issued := u.hart.issued } } := by
  obtain ⟨l, hexec⟩ := exec_vrang (e := e) (m := m) (d := d) (v := v) (b := b) hw hv
  dsimp only at hexec
  rw [if_pos hge, member_trap_of_settled (by exact hs)] at hexec
  exact ⟨_, hexec, rfl⟩

variable (hcut : s.hart.cut = none) (hc : Clean s.hart m fun j => [(v.toNat, 4, j)])
include hcut hc

/-- With no poisoned element, VRANG leaves its products in their register, and sets RIX for a position of 2^24 or more. -/
theorem vrang_of_lt (hlt : operand s b < 2 ^ 32) : ∃ t : State, Claims.Written s t (angles s e d v m (operand s b)) s.hart.regs.vl ∧
    t = { s with hart := { s.hart with regs := t.hart.regs, issued := t.hart.issued } } ∧
    exec (.vrang e d v b m) s = .next (State.retire (if inexactAngle s m (operand s b) then t.modRegs Regs.setRix else t) e) := by
  obtain ⟨l, hexec⟩ := exec_vrang (e := e) (m := m) (d := d) (v := v) (b := b) hw hv
  have hrun := elementwise_through (s := s.modHart fun h => { h with issued := l }) (f := angleElement d v (operand s b)) (by exact hcut)
    (fun j hj => consumes_of_clean (by exact hc j hj) _) (foldl_setElem s.hart ..) (by rw [putAll_hart]; exact hcut)
  dsimp only at hexec
  rw [if_neg (not_le.2 hlt)] at hexec
  refine ⟨_, written_putAll ?_ (putAll_issued ..) (results_nodup ..) fun _ _ => mem_results, ?_,
    hexec.trans (congrArg (fun r => member e (Res.whenDone _ r)) hrun)⟩
  · rw [putAll_hart]
    rfl
  · rw [putAll_hart]
    rfl

theorem vrang_writes (hlt : operand s b < 2 ^ 24) : WritesElements (.vrang e d v b m) s (angles s e d v m (operand s b)) := by
  obtain ⟨t, hwritten, ht, hexec⟩ := vrang_of_lt (e := e) (d := d) hw hv hcut hc (hlt.trans (by decide))
  have hexact : inexactAngle s m (operand s b) = false := by
    rw [inexactAngle, decide_eq_false (not_le.2 hlt), Bool.false_and]
  rw [hexact] at hexec
  exact ⟨t, hexec, hwritten, ht⟩

theorem vrang_inexact (hge : 2 ^ 24 ≤ operand s b) (hlt : operand s b < 2 ^ 32) (hact : ∃ j, s.hart.active m j = true) :
    ∃ t : State, exec (.vrang e d v b m) s = .next (t.retire e) ∧ t.hart.regs.astat = s.hart.regs.astat ||| 1 ∧
      (∀ j y, (angles s e d v m (operand s b)).new j = some y → t.hart.elem d.toNat 4 j = y % 2 ^ 32) ∧
      t.hart.regs.gpr = s.hart.regs.gpr ∧ t.hart.regs.masks = s.hart.regs.masks ∧ t.mem = s.mem := by
  obtain ⟨t, ⟨helem, -, -, hregs⟩, ht, hexec⟩ := vrang_of_lt (e := e) (d := d) hw hv hcut hc hlt
  have hinexact : inexactAngle s m (operand s b) = true := by
    obtain ⟨j, hj⟩ := hact
    rw [inexactAngle, decide_eq_true hge, Bool.true_and]
    exact List.any_eq_true.2 ⟨j, List.mem_range.2 (active_lt hj), hj⟩
  rw [if_pos hinexact] at hexec
  refine ⟨_, hexec, ?_, fun j y hy => ?_, (congrArg Regs.gpr hregs :), (congrArg Regs.masks hregs :), by rw [ht]; rfl⟩
  · exact (congrArg (fun r => (Regs.setRix r).astat) hregs :)
  · have hj : s.hart.elix ≤ j ∧ s.hart.active m j = true := by
      by_contra hne
      rw [angles_new, atActive, if_neg hne] at hy
      cases hy
    exact helem j y (active_lt hj.2) hy

end

/-! ## VROT (R362) -/

/-- The two elements of each pair, from `k` on. -/
theorem flatMap_pairs (k n : Nat) : ((List.range' k n).map (2 * ·)).flatMap (fun i => [i, i + 1]) = List.range' (2 * k) (2 * n) := by
  induction n generalizing k with
  | zero => rfl
  | succ n ih =>
    rw [List.range'_succ, List.map_cons, List.flatMap_cons, ih, Nat.mul_succ 2 n, List.range'_succ, List.range'_succ]
    rfl

/-- The even elements that VROT goes over, with the odd ones above them, are the elements from ELIX on. -/
theorem pairs_eq_upTo {h : Hart} (hvl : h.regs.vl % 2 = 0) (helix : h.elix % 2 = 0) :
    (((List.range (h.regs.vl / 2)).drop (h.elix / 2)).map (2 * ·)).flatMap (fun i => [i, i + 1]) = h.upTo h.regs.vl := by
  have hlo : 2 * (0 + h.elix / 2) = h.elix := by omega
  have hlen : 2 * (h.regs.vl / 2 - h.elix / 2) = h.regs.vl - h.elix := by omega
  rw [List.range_eq_range', List.drop_range', Nat.mul_one, flatMap_pairs, hlo, hlen, List.range'_eq_map_range, Hart.upTo]
  exact List.map_congr_left fun _ _ => Nat.add_comm ..

/-- Element `j` of a rotated pair written where it is active. -/
def rotateElem (h : Hart) (m : Bool) (d v x : VReg) (t : Hart) (j : Nat) : Hart :=
  if h.active m j then t.setElem d.toNat 4 j (rotated h v x j) else t

theorem foldl_rotateElem {h : Hart} (t : Hart) :
    (h.upTo h.regs.vl).foldl (rotateElem h m d v x) t = t.putAll d.toNat 4 (h.results m (rotated h v x)) := by
  rw [← foldl_setElem, List.foldl_filter]
  rfl

theorem rotate_even {h : Hart} {i : Nat} (hi : i % 2 = 0) :
    rotate (h.elem v.toNat 4 i) (h.elem v.toNat 4 (i + 1)) (h.elem x.toNat 4 i) = (rotated h v x i, rotated h v x (i + 1)) := by
  have h0 : i / 2 * 2 = i := by omega
  have h1 : (i + 1) / 2 * 2 = i := by omega
  have h2 : (i + 1) % 2 ≠ 0 := by omega
  simp only [rotate, rotated, h0, h1, if_pos hi, if_neg h2]

/-- Whether VROT rotates the pair of an even element. -/
def pairActive (h : Hart) (m : Bool) (i : Nat) : Bool := h.active m i || h.active m (i + 1)

/-- The two elements of a pair written where they are active. -/
def rotatePair (h : Hart) (m : Bool) (d v x : VReg) (i : Nat) (t : Hart) : Hart := rotateElem h m d v x (rotateElem h m d v x t i) (i + 1)

theorem foldl_rotatePair (ks : List Nat) (h t : Hart) :
    (ks.filter (pairActive h m)).foldl (fun t i => rotatePair h m d v x i t) t = (ks.flatMap fun i => [i, i + 1]).foldl (rotateElem h m d v x) t := by
  induction ks generalizing t with
  | nil => rfl
  | cons i ks ih =>
    rw [List.flatMap_cons, List.foldl_append, ← ih]
    by_cases hi : pairActive h m i = true
    · rw [List.filter_cons_of_pos hi]
      rfl
    · rw [List.filter_cons_of_neg hi]
      obtain ⟨h0, h1⟩ := Bool.or_eq_false_iff.1 (Bool.not_eq_true _ ▸ hi : pairActive h m i = false)
      simp [rotateElem, h0, h1]

/-- VROT's effect at the pair of an even element, from the values before the instruction. -/
def pairElement (h : Hart) (m : Bool) (d v x : VReg) (i : Nat) : Element :=
  consumes h [(v.toNat, 4, i), (x.toNat, 4, i)] (.ok fun t =>
    let r := rotate (h.elem v.toNat 4 i) (h.elem v.toNat 4 (i + 1)) (h.elem x.toNat 4 i)
    let t := if h.active m i then t.setElem d.toNat 4 i r.1 else t
    if h.active m (i + 1) then t.setElem d.toNat 4 (i + 1) r.2 else t)

theorem pairElement_of_clean {i : Nat} (hi : i % 2 = 0) (hc : Clean s.hart m fun j => [(v.toNat, 4, j / 2 * 2), (x.toNat, 4, j / 2 * 2)])
    (hact : pairActive s.hart m i = true) : pairElement s.hart m d v x i = .ok (rotatePair s.hart m d v x i) := by
  have hclean : ∀ y ∈ [(v.toNat, 4, i), (x.toNat, 4, i)], s.hart.elemPoison y.1 y.2.1 y.2.2 = false := by
    obtain ⟨j, hj, hji⟩ : ∃ j, s.hart.active m j = true ∧ j / 2 * 2 = i := by
      rcases Bool.or_eq_true_iff.1 hact with h | h
      · exact ⟨i, h, by omega⟩
      · exact ⟨i + 1, h, by omega⟩
    simpa only [hji] using hc j hj
  rw [pairElement, consumes_of_clean hclean, rotate_even hi]
  rfl

/-- VROT goes over the pairs of its elements. -/
theorem exec_vrot_of_run (hw : vtBytes s.hart.regs.vt = 4) (hv : vtVariant s.hart.regs.vt = 0) (hvl : s.hart.regs.vl % 2 = 0)
    (hcut : s.hart.cut = none) {t : Hart} (hrun : runElements (pairActive s.hart m) (pairElement s.hart m d v x)
      (((List.range (s.hart.regs.vl / 2)).drop (s.hart.elix / 2)).map (2 * ·)) s.hart = (t, none)) :
    exec (.vrot e d v x m) s = member e (State.through { s with hart := t }) := by
  have hexec : exec (.vrot e d v x m) s = execVrot e d v x m s := rfl
  have hlegal : (rotaryVt s && s.hart.regs.vl % 2 == 0) = true := by
    rw [rotaryVt_of hw hv, hvl]
    rfl
  have hlast : s.hart.last = s.hart.regs.vl := by rw [Hart.last, hcut]
  rw [hexec, execVrot, illegalRegister, if_pos hlegal]
  unfold pairActive pairElement at hrun
  dsimp only at hrun ⊢
  rw [hlast, hrun]

theorem vrot_writes (hcut : s.hart.cut = none) (hw : vtBytes s.hart.regs.vt = 4) (hv : vtVariant s.hart.regs.vt = 0) (hvl : s.hart.regs.vl % 2 = 0)
    (helix : s.hart.elix % 2 = 0) (hc : Clean s.hart m fun j => [(v.toNat, 4, j / 2 * 2), (x.toNat, 4, j / 2 * 2)]) :
    WritesElements (.vrot e d v x m) s
      ⟨e, d, 4, fun j => [(v.toNat, 4, j / 2 * 2), (x.toNat, 4, j / 2 * 2)], atActive s.hart m (rotated s.hart v x)⟩ := by
  have heven : ∀ i ∈ ((List.range (s.hart.regs.vl / 2)).drop (s.hart.elix / 2)).map (2 * ·), i % 2 = 0 := by
    intro i hi
    obtain ⟨k, -, rfl⟩ := List.mem_map.1 hi
    exact Nat.mul_mod_right ..
  have hrun := runElements_through (fun i hi hact => pairElement_of_clean (d := d) (heven i hi) hc hact) s.hart
  rw [foldl_rotatePair, pairs_eq_upTo hvl helix, foldl_rotateElem] at hrun
  have hexec := exec_vrot_of_run (e := e) hw hv hvl hcut hrun
  rw [through_of_uncut (by rw [putAll_hart]; exact hcut)] at hexec
  exact writesElements_of_putAll (l := s.hart.issued) rfl hexec

end Sys2Proof.Machine

open Sys2Proof Sys2Proof.Machine Sys2Proof.Claims in
/-- Settles O35: VSEQ is a pass of a load over the rows that its table gives, and no look-up or check moves the element at which a pre-emption
stops the member; VRANG goes element by element at its position; VROT goes pair by pair, each of whose elements is written where it is active. -/
theorem sequenceResults : Obligations.SequenceResults := by
  unfold Obligations.SequenceResults
  intro e m d v x a b s hs hcut
  refine ⟨vseq_of_inactive hs hcut, ?_, fun sel t packed vt i u y => seqElement_ok, ?_, ?_⟩
  · exact fun i rest s1 base s2 elems u gs => vseq_of_passes hs hcut
  · exact fun hw hv hc => ⟨vrang_writes hw hv hcut hc, vrang_inexact hw hv hcut hc, vrang_traps hw hv hs⟩
  · exact fun hw hv hvl helix hc => vrot_writes hcut hw hv hvl helix hc
end

section
/-!
What stores performed leave of the hart's own and of the contexts (R306, R385), and which of them a fence performs (R178, R383, R424). With O23.
-/
namespace Sys2Proof.Machine
open Sys2Proof.Claims

/-- Of the hart's stores some of the earlier ones are left, in order, and the contexts are as they were. -/
structure LeavesStores (s t : State) : Prop where
  stores : t.hart.stores.Sublist s.hart.stores
  ctxs : t.ctxs = s.ctxs

namespace LeavesStores

variable {s t u : State}

theorem refl (s : State) : LeavesStores s s := ⟨.refl _, rfl⟩

theorem trans (h : LeavesStores s t) (k : LeavesStores t u) : LeavesStores s u := ⟨k.stores.trans h.stores, k.ctxs.trans h.ctxs⟩

theorem of_eq (hh : t.hart = s.hart) (hc : t.ctxs = s.ctxs) : LeavesStores s t := ⟨by rw [hh], hc⟩

theorem foldl {β : Type} {f : State → β → State} (hf : ∀ s x, LeavesStores s (f s x)) (l : List β) (s : State) : LeavesStores s (l.foldl f s) := by
  induction l generalizing s with
  | nil => exact refl s
  | cons x l ih => exact (hf s x).trans (ih _)

end LeavesStores

variable (s : State)

theorem deviceWrite_ctxs (off : Nat) (v : Word) : (s.deviceWrite off v).ctxs = s.ctxs := by
  unfold State.deviceWrite
  split
  · split <;> rfl
  · repeat' split
    all_goals rfl

theorem leavesStores_wakeLines (p : Place) (n : Nat) : LeavesStores s (s.wakeLines p n) := by
  refine ⟨?_, State.wakeLines_ctxs ..⟩
  unfold State.wakeLines
  rw [State.mapHarts_hart]
  split
  · split <;> exact .refl _
  · exact .refl _

theorem leavesStores_poke (p : Place) (data : List Byte) (tag : Bool) (owner : Nat) : LeavesStores s (s.poke p data tag owner) := by
  unfold State.poke
  extract_lets n t
  split
  · exact .refl s
  · refine .trans ?_ (leavesStores_wakeLines t p n)
    cases p with
    | pad t o => exact .of_eq rfl rfl
    | phys a =>
      change LeavesStores s (if inScan a then _ else _)
      split
      · exact .of_eq (deviceWrite_hart ..) (deviceWrite_ctxs ..)
      · exact .of_eq rfl rfl

theorem leavesStores_setMemBit (owner a bit : Nat) : LeavesStores s (s.setMemBit owner a bit) := by
  unfold State.setMemBit
  refine .trans ?_ (leavesStores_wakeLines ..)
  exact .of_eq rfl rfl

theorem leavesStores_setDirty (owner : Nat) (dirty : List (Nat × Nat)) : LeavesStores s (s.setDirty owner dirty) :=
  .foldl (fun s (d : Nat × Nat) => leavesStores_setMemBit s owner d.1 d.2) dirty s

theorem keepOld_ctxs (w : Nat) (p : Place) (data : List Byte) : (s.keepOld w p data).ctxs = s.ctxs := by
  unfold State.keepOld
  split <;> rfl

theorem stampStore_ctxs (w : Nat) (p : Place) : (s.stampStore w p).ctxs = s.ctxs := by
  unfold State.stampStore
  split
  · split <;> rfl
  · rfl

theorem leavesStores_performOne (w : Nat) (q : Pending) : LeavesStores s (s.performOne w q) := by
  unfold State.performOne
  split
  · exact .refl s
  · refine .trans (leavesStores_setDirty s q.owner q.dirty) (.trans (.of_eq ?_ ?_) (leavesStores_poke ..))
    · rw [stampStore_hart, keepOld_hart, forgetBy_hart]
    · rw [stampStore_ctxs, keepOld_ctxs]
      rfl

theorem leavesStores_performAfter (fuel : Nat) (x : Nat × Pending) : LeavesStores s (State.performAfter fuel s x) := by
  induction fuel generalizing s x with
  | zero => exact leavesStores_performOne ..
  | succ n ih =>
    unfold State.performAfter
    split
    · exact leavesStores_performOne ..
    · refine .trans (.trans ?_ (.foldl ih _ _)) (leavesStores_performOne ..)
      exact ⟨List.filter_sublist, rfl⟩

theorem leavesStores_perform (q : Pending) : LeavesStores s (s.perform q) := leavesStores_performAfter ..

/-! ## Stores that a fence performs -/

/-- Whether a drain of the kind `sel` performs a store of the hart: one of the kind, or with a released one all released ones (R196), unless it waits
for a host link or an entry in use (R383, R424). -/
def State.drains (sel : Pending → Bool) (q : Pending) : Bool :=
  (sel q || (s.hart.stores.any (fun q => sel q && q.released) && q.released)) && !s.stuck q

theorem drain_sublist (sel : Pending → Bool) : (s.drain sel).hart.stores.Sublist (s.hart.stores.filter fun q => !s.drains sel q) :=
  (LeavesStores.foldl leavesStores_perform _ (s.modHart fun h => { h with stores := h.stores.filter fun q => !s.drains sel q })).stores

variable {s}

theorem drains_of_sel {sel : Pending → Bool} {q : Pending} (hsel : sel q = true) (hstuck : s.stuck q = false) : s.drains sel q = true := by
  simp [State.drains, hsel, hstuck]

/-- What a drain leaves of its kind cannot be performed yet. -/
theorem mem_drain {sel : Pending → Bool} {q : Pending} (hq : q ∈ (s.drain sel).hart.stores) : sel q = false ∨ s.stuck q = true := by
  have hkept := (List.mem_filter.1 ((drain_sublist s sel).subset hq)).2
  by_contra hfree
  rw [not_or, Bool.not_eq_false, Bool.not_eq_true] at hfree
  obtain ⟨hsel, hstuck⟩ := hfree
  rw [drains_of_sel hsel hstuck] at hkept
  cases hkept

theorem drainAll_stores_of_free (hfree : ∀ q ∈ s.hart.stores, s.stuck q = false) : s.drainAll.hart.stores = [] := by
  have hnone : (s.hart.stores.filter fun q => !s.drains (fun _ => true) q) = [] :=
    List.filter_eq_nil_iff.2 fun q hq => by simp [drains_of_sel (sel := fun _ => true) rfl (hfree q hq)]
  exact List.sublist_nil.1 (hnone ▸ drain_sublist s fun _ => true)

/-! ## FENCE.SC (R318) -/

section
variable {e : Bool} {sc : BitVec 3} {t : Nat} (hs : Settled s)
include hs

theorem exec_fenceSc : exec (.fenceSc e sc) s = member e (match s.hart.waiting with
    | .boundary t => if t < s.tick then .ok s.synced else .hold s
    | _ => .hold (s.drainAll.modHart fun h => { h with waiting := .boundary s.tick })) :=
  (congrArg (member e) (settled_eq hs _)).trans (by rfl)

theorem fenceSc_past (hw : s.hart.waiting = .boundary t) (ht : t < s.pkg.cycle / 256) : exec (.fenceSc e sc) s = .next (s.synced.retire e) := by
  rw [exec_fenceSc hs, hw]
  exact congrArg (member e) (if_pos ht)

theorem fenceSc_waits (hw : s.hart.waiting = .boundary t) (ht : ¬ t < s.pkg.cycle / 256) : exec (.fenceSc e sc) s = .next s := by
  rw [exec_fenceSc hs, hw]
  exact congrArg (member e) (if_neg ht)

theorem fenceSc_drains (hw : ∀ t, s.hart.waiting ≠ .boundary t) :
    exec (.fenceSc e sc) s = .next (s.drainAll.modHart fun h => { h with waiting := .boundary (s.pkg.cycle / 256) }) := by
  rw [exec_fenceSc hs]
  split
  · rename_i t h
    exact absurd h (hw t)
  · rfl

end

end Sys2Proof.Machine

open Sys2Proof Sys2Proof.Machine Sys2Proof.Claims in
/-- Settles O23: a drain takes the stores of its kind that nothing holds up out of the hart's list before it performs them, and performing a store
puts none into it. -/
theorem fenceResults : Obligations.FenceResults := by
  unfold Obligations.FenceResults
  intro e sc s hs
  have hnow (f : State → State) : member e (settled s fun s => .ok (f s)) = .next ((f s).retire e) := congrArg (member e) (settled_eq hs _)
  refine ⟨fun sel => ⟨fun q => mem_drain, (drain_sublist s sel).trans List.filter_sublist⟩, drainAll_stores_of_free, ?_, ?_, ?_, ?_, ?_, ?_, ?_⟩
  · exact hnow (·.drain fun q => !q.vector)
  · exact hnow (·.drain fun q => q.vector)
  · exact hnow (·.drain fun q => q.vector)
  · exact hnow (·.drainAll.synced)
  · exact fun t => fenceSc_past hs
  · exact fun t => fenceSc_waits hs
  · exact fenceSc_drains hs
end

section
/-!
Answers to page requests, requests that wait, and function-level reset (R172, R173, R380, R381, R392, R396). With O52.
-/
namespace Sys2Proof.Machine
open Sys2Proof.Claims

variable {s u : State} {p : PageReq} {num n : Nat}

/-! ## Answers (R172) -/

/-- What the answer of a request makes of a hart. -/
def State.answered (s : State) (p : PageReq) (good : Bool) (h : Hart) : Hart :=
  if p.waiters.contains h.id && h.run == .paging then
    { h with
      pageFailed := if good then h.pageFailed else some ((((s.chain h.ctx).map (·.num)).idxOf? p.owner).getD p.stage)
      run := if (s.pages.filter fun x => x.id != p.id).any (fun x => x.waiters.contains h.id) then h.run else .resuming }
  else h

theorem answerPage_eq (good : Bool) : s.answerPage p good =
    { s with pages := s.pages.filter fun x => x.id != p.id, hart := s.answered p good s.hart, others := s.others.map (s.answered p good) } := rfl

theorem mem_answerPage {good : Bool} {h : Hart} (hh : h ∈ s.harts) : s.answered p good h ∈ (s.answerPage p good).harts :=
  List.mem_map_of_mem (f := s.answered p good) hh

theorem answered_of_unlisted (good : Bool) {h : Hart} (hw : h.id ∉ p.waiters) : s.answered p good h = h := by
  simp [State.answered, hw]

/-- A hart whose last open request is answered is to resume. -/
theorem answered_of_last (good : Bool) {h : Hart} (hw : h.id ∈ p.waiters) (hrun : h.run = .paging) (hlast : ∀ x ∈ s.pages, x.id ≠ p.id → h.id ∉ x.waiters) :
    s.answered p good h = { h with
      pageFailed := if good then h.pageFailed else some ((((s.chain h.ctx).map (·.num)).idxOf? p.owner).getD p.stage), run := .resuming } := by
  have hopen : ((s.pages.filter fun x => x.id != p.id).any fun x => x.waiters.contains h.id) = false := by
    refine List.any_eq_false.2 fun x hx => ?_
    obtain ⟨hx, hid⟩ := List.mem_filter.1 hx
    simpa using hlast x hx (by simpa using hid)
  rw [State.answered, if_pos (by simp [hw, hrun]), hopen]
  rfl

theorem id_of_page? (hp : s.page? num = some p) : p.id = num := by
  simpa using List.find?_some hp

theorem exec_pageRequestAnswer (hp : s.page? num = some p) {good : Bool} (ha : s.pageAnswer p = some (u, good)) :
    exec (.pageRequestAnswer num) s = .next (u.answerPage p good) := by
  change event _ = _
  rw [hp]
  dsimp only
  rw [ha]
  rfl

theorem exec_pageRequestGroupResponse (hp : s.page? num = some p) (hhost : p.viaHost = true) (code : BitVec 4) :
    exec (.pageRequestGroupResponse num code) s = .next (s.answerPage p (decide (code = 0))) := by
  change event _ = _
  rw [hp]
  dsimp only
  rw [if_pos hhost]
  rfl

/-! ## Requests that wait (R173) -/

theorem exec_pendingPageEntryFree (hp : s.page? num = some p) (hslot : p.slot = none) {h : Hart}
    (hh : s.harts.find? (fun h => p.waiters.contains h.id) = some h) {q : PageReq} (hq : s.placeRequest p (s.ctxid h.ctx) = (u, q)) :
    exec (.pendingPageEntryFree num) s = .next { u with pages := u.pages.map fun x => if x.id = p.id then q else x } := by
  change event _ = _
  rw [hp]
  dsimp only
  rw [State.placeWaiting, hslot, hh]
  dsimp only
  rw [hq]
  rfl

/-! ## Events filed leave a context unrevoked (R391, R434) -/

/-- Context `n` is there, and not revoked. -/
def Unrevoked (n : Nat) (s : State) : Prop := ∃ c ∈ s.ctxs, c.num = n ∧ c.state ≠ .revoked

theorem Unrevoked.of_ctxs (h : Unrevoked n s) (hc : u.ctxs = s.ctxs) : Unrevoked n u := by
  rw [Unrevoked, hc]
  exact h

theorem unrevoked_setAccessed (owner : Nat) (ls : List Leaf) (h : Unrevoked n s) : Unrevoked n (s.setAccessed owner ls).1 := by
  induction ls generalizing s with
  | nil => exact h
  | cons l rest ih =>
    unfold State.setAccessed
    split
    · exact ih h
    · extract_lets byte
      split
      · exact ih h
      · split
        · exact h
        · exact ih (h.of_ctxs (State.setMemBit_ctxs ..))

/-- An attempt leaves the context unrevoked, whether it fails or not; `at'` is the state in its result. -/
def AttemptsUnrevoked {α : Type} (n : Nat) (at' : α → State) (r : Except State α) : Prop :=
  (∀ a, r = .ok a → Unrevoked n (at' a)) ∧ ∀ t, r = .error t → Unrevoked n t

namespace AttemptsUnrevoked

variable {α β : Type} {f : α → State} {g : β → State}

theorem ok {a : α} (h : Unrevoked n (f a)) : AttemptsUnrevoked n f (.ok a) := ⟨by rintro _ ⟨⟩; exact h, by rintro _ ⟨⟩⟩

theorem error {t : State} (h : Unrevoked n t) : AttemptsUnrevoked n f (.error t) := ⟨by rintro _ ⟨⟩, by rintro _ ⟨⟩; exact h⟩

theorem bind {r : Except State α} {k : α → Except State β} (hr : AttemptsUnrevoked n f r) (hk : ∀ a, Unrevoked n (f a) → AttemptsUnrevoked n g (k a)) :
    AttemptsUnrevoked n g (r >>= k) := by
  cases r with
  | error t => exact error (hr.2 t rfl)
  | ok a => exact hk a (hr.1 a rfl)

theorem map {r : Except State α} {k : α → β} (hr : AttemptsUnrevoked n f r) (hk : ∀ a, Unrevoked n (f a) → Unrevoked n (g (k a))) :
    AttemptsUnrevoked n g (r.map k) := by
  cases r with
  | error t => exact error (hr.2 t rfl)
  | ok a => exact ok (hk a (hr.1 a rfl))

end AttemptsUnrevoked

theorem deviceReach_unrevoked (h : Unrevoked n s) (c : Nat) (write plain : Bool) (x : Except XFail Xl) :
    AttemptsUnrevoked n (·.1) (s.deviceReach c write plain x) := by
  unfold State.deviceReach
  split
  · exact .error h
  · rename_i x
    have key := unrevoked_setAccessed c x.leaves h
    split
    · rename_i t _ ht; rw [ht] at key; exact .error key
    · rename_i t ht
      rw [ht] at key
      split
      · exact .error key
      · split
        · exact .error key
        · exact .ok key

theorem ctxWord_unrevoked (h : Unrevoked n s) (c va : Nat) (plain : Bool) : AttemptsUnrevoked n (·.1) (s.ctxWord c va plain) :=
  .map (f := (·.1)) (.map (f := (·.1)) (deviceReach_unrevoked h ..) fun _ h => h) fun _ h => h

theorem ctxPut_unrevoked (h : Unrevoked n s) (c va v : Nat) (plain : Bool) : AttemptsUnrevoked n id (s.ctxPut c va v plain) :=
  .map (f := (·.1)) (deviceReach_unrevoked h ..) fun r h => h.of_ctxs (u := r.1.perform _) (leavesStores_perform ..).ctxs

theorem ringPut_unrevoked (h : Unrevoked n s) (c : Ctx) (code addr src : Nat) : AttemptsUnrevoked n id (s.ringPut c code addr src) := by
  unfold State.ringPut
  extract_lets base size rest
  have hrest (u : State) (h : Unrevoked n u) : AttemptsUnrevoked n id (rest u) := by
    refine .bind (ctxWord_unrevoked h ..) fun _ h => ?_
    dsimp only
    split
    · exact .ok h
    · refine .bind (ctxWord_unrevoked h ..) fun _ h => .bind (ctxWord_unrevoked h ..) fun _ h => ?_
      split
      · exact .bind (ctxPut_unrevoked h ..) fun _ h => .bind (ctxPut_unrevoked h ..) fun _ h => .bind (ctxPut_unrevoked h ..) fun _ h =>
          .bind (ctxPut_unrevoked h ..) fun _ h => ctxPut_unrevoked h ..
      · exact .bind (ctxWord_unrevoked h ..) fun _ h => ctxPut_unrevoked h ..
  refine .bind (ctxWord_unrevoked h ..) fun _ h => .bind (ctxPut_unrevoked h ..) fun _ h => .bind (ctxWord_unrevoked h ..) fun _ h => ?_
  dsimp only
  split
  · exact .bind (f := id) (.ok h) hrest
  · exact .bind (ctxPut_unrevoked h ..) hrest

theorem unrevoked_holdCtx (h : Unrevoked n s) (m : Nat) : Unrevoked n (s.holdCtx m) := by
  obtain ⟨c, hc, hn, hstate⟩ := h
  refine ⟨_, List.mem_map_of_mem hc, ?_⟩
  split
  · dsimp only
    rw [if_neg hstate]
    exact ⟨hn, nofun⟩
  · exact ⟨hn, hstate⟩

theorem unrevoked_fileIn (h : Unrevoked n s) (fuel m code addr src : Nat) : Unrevoked n (s.fileIn fuel m code addr src) := by
  induction fuel generalizing s m code addr with
  | zero => exact h
  | succ k ih =>
    unfold State.fileIn
    split
    · exact h
    · rename_i c _
      split
      · exact h.of_ctxs rfl
      · extract_lets fatal t
        have put := ringPut_unrevoked h c code addr src
        have ht : Unrevoked n t := by
          unfold t
          split
          · exact put.1 _ ‹_›
          · split
            · exact ih (put.2 _ ‹_›) ..
            · exact put.2 _ ‹_›
        split
        · split
          · exact ih (unrevoked_holdCtx ht m) ..
          · exact ht
        · exact ht

/-! ## Function-level reset (R392, R396) -/

theorem focus_ctxs (s : State) (id : Nat) : (s.focus id).ctxs = s.ctxs := by
  unfold State.focus
  split
  · rfl
  · split <;> rfl

theorem Unrevoked.mem_subtree (h : Unrevoked n s) : n ∈ (s.subtree n).map (·.num) := by
  obtain ⟨c, hc, hn, hstate⟩ := h
  have hfound : (s.ctx? n).isSome = true := List.find?_isSome.2 ⟨c, hc, beq_iff_eq.2 hn⟩
  obtain ⟨k, hk⟩ := Option.isSome_iff_exists.1 hfound
  have hchain : s.inSubtree n n = true := by
    have hroot : (k.num == n) = true := List.find?_some (p := fun c : Ctx => c.num == n) hk
    rw [State.inSubtree, State.chain, State.chainFrom, hk]
    exact List.any_cons.trans (by rw [hroot, Bool.true_or])
  refine List.mem_map.2 ⟨c, List.mem_filter.2 ⟨hc, ?_⟩, hn⟩
  rw [hn, hchain, Bool.and_true]
  exact bne_iff_ne.2 hstate

theorem state_revoke {target : Ctx} (h : Unrevoked target.num s) (issuer : Nat) :
    ∀ k ∈ (s.revoke issuer target).ctxs, k.num = target.num → k.state = .revoked := by
  unfold State.revoke
  extract_lets gone path child to' dropped heir cleared given
  intro k hk hnum
  obtain ⟨c, -, rfl⟩ := List.mem_map.1 hk
  by_cases hgone : gone.contains c.num = true
  · rw [if_pos hgone]
  · rw [if_neg hgone] at hnum
    have hmem : c.num ∈ gone := hnum ▸ h.mem_subtree
    exact absurd (List.contains_iff_mem.2 hmem) hgone

/-- The hart that steps, taken out of the subtree of a context that is reset. -/
def State.stepAside (s : State) (n : Nat) : State :=
  if s.inSubtree n s.hart.ctx then
    match s.others.find? fun h => !s.inSubtree n h.ctx with
    | some h => s.focus h.id
    | none => s.modHart fun h => { h with run := .retired }
  else s

theorem stepAside_ctxs (s : State) (n : Nat) : (s.stepAside n).ctxs = s.ctxs := by
  unfold State.stepAside
  split
  · split
    · exact focus_ctxs ..
    · rfl
  · rfl

theorem exec_functionLevelReset {port : Bool} {function : BitVec 6} {c : Ctx}
    (hc : s.ctxs.find? (fun c => c.state != .revoked && c.vf.getLsbD 16 && c.vf.getLsbD 15 == port && c.vf.toNat % 64 == function.toNat) = some c) :
    exec (.functionLevelReset port function) s =
      .next ((((s.fileIn 8 1 0x11 0 ioSrc).stepAside c.num).revoke 1 c).modCtx c.num fun c => { c with vf := 0 }) := by
  have hbound (x : Nat) : bitsOf x 5 0 = x % 64 := by simp [bitsOf]
  change execFunctionLevelReset port function s = _
  simp only [execFunctionLevelReset, hbound, hc]
  rfl

theorem functionLevelReset_revokes {port : Bool} {function : BitVec 6} {c : Ctx}
    (hc : s.ctxs.find? (fun c => c.state != .revoked && c.vf.getLsbD 16 && c.vf.getLsbD 15 == port && c.vf.toNat % 64 == function.toNat) = some c) :
    ∃ t : State, exec (.functionLevelReset port function) s = .next t ∧ ∀ k ∈ t.ctxs, k.num = c.num → k.state = .revoked ∧ k.vf = 0 := by
  refine ⟨_, exec_functionLevelReset hc, fun k hk hnum => ?_⟩
  have hlive : c.state ≠ .revoked := by
    have hbound := List.find?_some hc
    simp only [Bool.and_eq_true, bne_iff_ne] at hbound
    exact hbound.1.1.1
  have hfiled : Unrevoked c.num (s.fileIn 8 1 0x11 0 ioSrc) := unrevoked_fileIn ⟨c, List.mem_of_find?_eq_some hc, rfl, hlive⟩ ..
  have hrevoked := state_revoke (hfiled.of_ctxs (stepAside_ctxs _ c.num)) 1
  rw [State.modCtx_ctxs] at hk
  obtain ⟨x, hx, rfl⟩ := List.mem_map.1 hk
  by_cases hx' : x.num = c.num
  · rw [if_pos hx']
    exact ⟨hrevoked x hx hx', rfl⟩
  · rw [if_neg hx'] at hnum
    exact absurd hnum hx'

end Sys2Proof.Machine

open Sys2Proof Sys2Proof.Machine Sys2Proof.Claims in
/-- Settles O52: an answer changes the harts that wait for the request and no other; of a reset the event leaves the bound context unrevoked, so that
the revocation finds it in its own subtree. -/
theorem pageEvents : Obligations.PageEvents := by
  unfold Obligations.PageEvents
  intro s id p code hp
  have hid := id_of_page? hp
  refine ⟨fun i u good hi => ⟨u.answerPage p good, ?_, hid ▸ rfl, rfl, ?_, ?_⟩, ?_, ?_⟩
  · obtain ⟨rfl, ha⟩ | ⟨rfl, hhost, rfl, rfl⟩ := hi
    · exact exec_pageRequestAnswer hp ha
    · exact exec_pageRequestGroupResponse hp hhost code
  · intro h hh hw hrun hlast
    have hresumes := answered_of_last (s := u) good hw hrun (hid ▸ hlast)
    refine ⟨_, mem_answerPage hh, ?_⟩
    rw [hresumes]
    cases good with
    | true => exact ⟨rfl, rfl, fun _ => rfl, nofun⟩
    | false => exact ⟨rfl, rfl, nofun, fun _ => rfl⟩
  · intro h hh hw
    have hsame := mem_answerPage (p := p) (good := good) hh
    rwa [answered_of_unlisted good hw] at hsame
  · exact fun h v q hslot hh hq => exec_pendingPageEntryFree hp hslot hh hq
  · exact fun port function c hc _ => functionLevelReset_revokes hc
end

section
/-!
Vector loads and stores whose elements all pass their checks (R157 to R163, R176, R177). With O32 and O33.
-/
namespace Sys2Proof.Machine
open Sys2Proof.Claims

variable {s t u : State} {w : Sweep} {gs : List Got} {i : Instr} {v : VMove}

/-! ## What the effects of a pass leave of where a pre-emption stops its member -/

theorem keepsCut_perform (s : State) (q : Pending) : KeepsCut s (s.perform q) := .of_keepsHarts (keepsHarts_perform ..)

theorem keepsCut_drain (s : State) (sel : Pending → Bool) : KeepsCut s (s.drain sel) := by
  unfold State.drain
  refine .trans ?_ (.foldl keepsCut_perform _ _)
  exact rfl

theorem keepsCut_issueStore (s : State) (q : Pending) : KeepsCut s (s.issueStore q) := by
  unfold State.issueStore
  split
  · exact rfl
  · refine .trans (.trans ?_ (keepsCut_drain ..)) (keepsCut_perform ..)
    exact rfl

theorem keepsCut_mxStoreBlock (s : State) (x : MxElem) (stored : List MxElem) : KeepsCut s (s.mxStoreBlock x stored) := by
  unfold State.mxStoreBlock
  extract_lets base offs t
  have ht : KeepsCut s t := keepsCut_drain ..
  have hscale : KeepsCut t (t.readPlaces [x.scale]).1 := .of_hart (readPlaces_hart ..)
  have hbytes (u : State) : KeepsCut u (u.readPlaces (offs.map x.group.add)).1 := .of_hart (readPlaces_hart ..)
  have hread := ht.trans (hscale.trans (hbytes _))
  refine .trans (.trans (hread.trans ?_) (.foldl (fun s _ => keepsCut_perform s _) _ _)) (keepsCut_perform ..)
  exact .foldl (fun s (y : MxElem) => .of_keepsHarts (keepsHarts_setDirty s y.owner y.dirty)) _ _

theorem keepsCut_mxStore (s : State) (fuel : Nat) (xs : List MxElem) : KeepsCut s (s.mxStore fuel xs) := by
  induction fuel generalizing s xs with
  | zero => exact .refl s
  | succ n ih =>
    cases xs with
    | nil => exact .refl s
    | cons x rest => exact (keepsCut_mxStoreBlock s x _).trans (ih _ _)

theorem keepsCut_commitHeld (s : State) (h : Held) : KeepsCut s (s.commitHeld h) := by
  unfold State.commitHeld
  exact .trans (.foldl (fun s _ => keepsCut_issueStore s _) _ _) (keepsCut_mxStore ..)

theorem keepsCut_issues (v : VMove) (w : Sweep) (u : State) (gs : List Got) : KeepsCut u (v.issues w u gs) := by
  unfold VMove.issues
  extract_lets c
  refine .trans (.of_hart ?_) (keepsCut_commitHeld ..)
  unfold c
  split
  · exact chooseUnordered_hart ..
  · rfl

theorem performLoad_of_held (hhold : s.hold.headD false = true) : s.performLoad w gs = ({ s with hold := s.hold.drop 1 } : State).modHart fun h =>
    { h with late := h.late ++ [⟨w.reg, w.minor, w.vt, w.base.fmt, w.seed,
      gs.map fun g => ⟨g.index, g.va.toNat, g.high, g.place, g.mx.map (·.2), g.via⟩⟩] } := by
  obtain ⟨rest, hrest⟩ : ∃ rest, s.hold = true :: rest := by
    cases h : s.hold with
    | nil => simp [h] at hhold
    | cons b rest => exact ⟨rest, by simpa [h] using hhold⟩
  simp only [State.performLoad, hrest]
  rfl

theorem keepsCut_performLoad (s : State) (w : Sweep) (gs : List Got) : KeepsCut s (s.performLoad w gs) := by
  cases hhold : s.hold.headD false with
  | true =>
    rw [performLoad_of_held hhold]
    exact rfl
  | false =>
    rw [performLoad_of_headD hhold]
    exact keepsCut_loaded ..

/-! ## The pass -/

theorem finishSweep_of_load (hw : w.store = false) (hheld : s.hart.heldAll = []) (gs : List Got) (k : State → Res) :
    s.finishSweep w gs k = k (s.performLoad w gs) := by
  have hbehind : (gs.any fun g => s.behindHeld w g.place (g.mx.map (·.2))) = false :=
    List.any_eq_false.2 fun g _ => by simp [behindHeld_of_nil hheld]
  simp only [State.finishSweep, hw, hbehind, Bool.false_eq_true, if_false]

/-- A pass whose elements all pass their checks goes on to their effects. -/
theorem sweep_eq_finishSweep (hp : Passes (caughtUp s w) w u gs) (lost : Nat → List (Nat × Option Nat)) (trims : Bool) :
    sweep w lost trims s = u.finishSweep w gs fun t => t.throughTo w.vl := by
  obtain ⟨rs, hrs, hok, rfl⟩ := hp
  have hfails : rs.filterMap stopOf = [] := by
    rw [List.filterMap_eq_nil_iff]
    intro r hr
    obtain ⟨g, hg⟩ := hok r hr
    rw [stopOf, hg]
  have hcaught : (if s.behindLate w then s.performLate else s) = caughtUp s w := rfl
  simp only [sweep, hcaught, hrs, hfails, List.find?_nil]

theorem keepsCut_of_passes (hp : Passes (caughtUp s w) w u gs) : KeepsCut s u := by
  obtain ⟨rs, hrs, -⟩ := hp
  have hchecks := keepsCut_checkAll (caughtUp s w) w w.elems
  rw [hrs] at hchecks
  exact (keepsCut_caughtUp s w).trans hchecks

theorem throughTo_of_uncut (hcut : s.hart.cut = none) (n : Nat) : s.throughTo n = .ok s := by
  rw [State.throughTo, hcut]

theorem sweep_of_load (hw : w.store = false) (hcut : s.hart.cut = none) (hp : Passes (caughtUp s w) w u gs) (hheld : u.hart.heldAll = [])
    (lost : Nat → List (Nat × Option Nat)) : sweep w lost true s = .ok (u.performLoad w gs) := by
  rw [sweep_eq_finishSweep hp, finishSweep_of_load hw hheld]
  exact throughTo_of_uncut (((keepsCut_of_passes hp).trans (keepsCut_performLoad ..)).uncut hcut) _

theorem sweep_of_store (hw : w.store = true) (hm : w.minor = v.minor) (hcut : s.hart.cut = none) (hp : Passes (caughtUp s w) w u gs) (hu : Settled u)
    (lost : Nat → List (Nat × Option Nat)) : sweep w lost true s = .ok (v.issues w u gs) := by
  rw [sweep_eq_finishSweep hp, finishSweep_of_settled v hw hm hu]
  exact throughTo_of_uncut (((keepsCut_of_passes hp).trans (keepsCut_issues ..)).uncut hcut) _

/-! ## The member -/

section
variable {off : Hart → Nat → Except Trap Int} {x y : Word}

/-- With no active element a vector access has no effect (R157). -/
theorem vectorAccess_of_inactive (v : VMove) (hact : s.hart.elements.filter (s.hart.active v.m) = []) (hcut : s.hart.cut = none)
    (hs : v.store = true → Settled s) : vectorAccess v.store v.indexed v.minor off v.d x v.m s = .ok s := by
  rw [vectorAccess]
  simp only [hact, List.isEmpty_nil, if_true]
  cases hv : v.store with
  | false => exact through_of_uncut hcut
  | true =>
    change s.storeIssue ⟨[], [], s.hart.rb⟩ State.through = _
    rw [State.storeIssue, if_pos (sure_of_settled (hs hv))]
    exact through_of_uncut hcut

/-- With active elements it ends as the pass over them does. -/
theorem vectorAccess_of_active (v : VMove) (hoff : off s.hart = v.off s.hart y) (hact : s.hart.elements.filter (s.hart.active v.m) ≠ []) {b : Base}
    (hb : s.baseOf x = (t, b)) {r : Res} (hr : ∀ lost, sweep (v.sweep s x y b) lost true t = r) :
    vectorAccess v.store v.indexed v.minor off v.d x v.m s = r := by
  have hempty : (s.hart.elements.filter (s.hart.active v.m)).isEmpty = false := by simpa using hact
  simp only [vectorAccess, hempty, hb, hoff, Bool.false_eq_true, if_false]
  exact hr _

end

/-- A vector load reads both its scalar operands, the absent one as 0. -/
theorem load_operand (s : State) (hv : move i = some v) (hstore : v.store = false) : (if v.minor = 1 then s.g v.b else 0) = s.g v.b := by
  unfold move at hv
  split at hv
  case h_4 => cases hv; cases hstore
  all_goals cases hv <;> rfl

/-- The check of a gather's registers passes where R161 is met. -/
theorem legal_gather {e m : Bool} {d b : VReg} {a : GReg} (hl : v.legal s (.vgth e d a b m)) (hi : v.indexed = true) (x y : Word) :
    let h := (s.atIssue x y).1.hart
    (decide (h.regs.vl ≤ h.rb / indexBytes h.regs.vt) && (false || d != b || vtBytes h.regs.vt == indexBytes h.regs.vt)) = true := by
  obtain ⟨hfits, hregs⟩ := hl hi
  obtain ⟨l, hissued⟩ := atIssue_state s x y
  have hdiffer : (d != b || vtBytes s.hart.regs.vt == indexBytes s.hart.regs.vt) = true := by
    rw [Bool.or_eq_true, bne_iff_ne, beq_iff_eq]
    exact hregs e d a b m rfl
  rw [hissued, Bool.false_or]
  exact Bool.and_eq_true_iff.2 ⟨decide_eq_true hfits, hdiffer⟩

/-- Every vector load and store is an access at the operands that it read at issue. -/
theorem exec_move (hv : move i = some v) (hl : v.legal s i) :
    let o := s.atIssue (s.g v.a) (s.g v.b)
    ∃ off, off o.1.hart = v.off o.1.hart o.2.2 ∧ exec i s = member v.e (vectorAccess v.store v.indexed v.minor off v.d o.2.1 v.m o.1) := by
  unfold move at hv
  split at hv <;> cases hv
  · exact ⟨_, rfl, rfl⟩
  · exact ⟨_, rfl, rfl⟩
  · exact ⟨_, rfl, rfl⟩
  · exact ⟨_, rfl, rfl⟩
  · exact ⟨_, rfl, congrArg (member _) (if_pos (legal_gather hl rfl ..))⟩
  · exact ⟨_, rfl, congrArg (member _) (if_pos (legal_indexed hl rfl ..))⟩
  · exact ⟨_, rfl, congrArg (member _) (if_pos (legal_indexed hl rfl ..))⟩

section
variable (hv : move i = some v) (hl : v.legal s i) (hcut : s.hart.cut = none)
include hv hl hcut

theorem move_of_inactive (hact : s.hart.elements.filter (s.hart.active v.m) = []) (hs : v.store = true → Settled s) :
    exec i s = .next ((s.atIssue (s.g v.a) (s.g v.b)).1.retire v.e) := by
  obtain ⟨off, -, hexec⟩ := exec_move hv hl
  have hnone : vectorAccess v.store v.indexed v.minor off v.d (s.atIssue (s.g v.a) (s.g v.b)).2.1 v.m (s.atIssue (s.g v.a) (s.g v.b)).1 = .ok _ :=
    vectorAccess_of_inactive v (by rwa [elements_atIssue, active_atIssue]) ((keepsCut_atIssue ..).uncut hcut) fun hstore => by
      rw [Settled, (keepsExit_atIssue ..).region]
      exact hs hstore
  rw [hexec, hnone]
  rfl

variable (hact : s.hart.elements.filter (s.hart.active v.m) ≠ []) {b : Base}
include hact

/-- A vector load or store whose pass over its active elements ends in `r` ends in it. -/
theorem move_of_active :
    let o := s.atIssue (s.g v.a) (s.g v.b)
    o.1.baseOf o.2.1 = (t, b) → ∀ r, (t.hart.cut = none → ∀ lost, sweep (v.sweep o.1 o.2.1 o.2.2 b) lost true t = .ok r) →
      exec i s = .next (r.retire v.e) := by
  intro o hb r hr
  obtain ⟨off, hoff, hexec⟩ := exec_move hv hl
  have hbase := (keepsCut_atIssue s (s.g v.a) (s.g v.b)).trans (keepsCut_baseOf o.1 o.2.1)
  rw [hb] at hbase
  have hsweep := vectorAccess_of_active v hoff (by rwa [elements_atIssue, active_atIssue]) hb (hr (hbase.uncut hcut))
  rw [hexec, hsweep]
  rfl

end

end Sys2Proof.Machine

open Sys2Proof Sys2Proof.Machine Sys2Proof.Claims in
/-- Settles O32: a load whose elements all pass, and none of which a held store stands before, is performed now or held back as the list says, and no
check moves the element at which a pre-emption would stop the member. -/
theorem vectorLoadResults : Obligations.VectorLoadResults := by
  unfold Obligations.VectorLoadResults
  intro i s v hv hstore hl hcut
  rw [load_operand s hv hstore]
  intro o s1
  refine ⟨fun hact => move_of_inactive hv hl hcut hact (by simp [hstore]), ?_⟩
  intro s2 b u gs hact hb hp hheld
  have hexec := move_of_active hv hl hcut hact hb _ fun hcut lost => sweep_of_load (w := v.sweep s1 o.2.1 o.2.2 b) hstore hcut hp hheld lost
  obtain ⟨l, hissued⟩ := atIssue_state s (s.g v.a) (s.g v.b)
  have hregs : s1.hart.regs = s.hart.regs := congrArg (·.hart.regs) hissued
  refine ⟨fun hhold => ?_, fun hhold => ?_⟩
  · rw [hexec, performLoad_of_headD hhold, ← hregs]
    rfl
  · rw [hexec, performLoad_of_held hhold, ← hregs, ← seed_atIssue s (s.g v.a) (s.g v.b)]
    rfl

open Sys2Proof Sys2Proof.Machine Sys2Proof.Claims in
/-- Settles O33: with nothing older undecided the stores of a pass that succeeds are released at once, and neither its checks nor its stores move the
element at which a pre-emption would stop the member. -/
theorem vectorStoreResults : Obligations.VectorStoreResults := by
  unfold Obligations.VectorStoreResults
  intro i s v hv hstore hl hs hcut
  rw [store_operand s hv hstore]
  intro o s1
  refine ⟨fun hact => move_of_inactive hv hl hcut hact fun _ => hs, ?_⟩
  intro s2 b u gs hact hb w hp hu
  exact move_of_active hv hl hcut hact hb _ fun hcut lost => sweep_of_store (v := v) hstore rfl hcut hp hu lost
end

section
/-!
The exit region (R181 to R203): its tests, and the members at which a strip ends. With O34.
-/
namespace Sys2Proof.Machine
open Sys2Proof.Claims

variable {s : State}

/-! ## Exit tests (R183, R187, R200) -/

theorem illegalRegister_of_legal {ok : Bool} (h : ok = true) (w : Code) (k : State → Res) : illegalRegister ok w s k = k s := if_pos h

theorem illegalRegister_of_illegal {ok : Bool} (h : ok = false) (w : Code) (k : State → Res) :
    illegalRegister ok w s k = .trap (.own 0x03 (wordTval w s.hart.member)) s := if_neg (by rw [h]; decide)

section
variable {h : Hart} {a : MReg} {m : Bool}

/-- A test that no active element passes has no candidate. -/
theorem candidate_eq_none (hnone : ∀ j, h.active m j = true → h.regs.mask a.toNat j = false) : h.candidate a m = none :=
  List.find?_eq_none.2 fun j _ hj => by
    obtain ⟨hact, hmask⟩ := Bool.and_eq_true_iff.1 hj
    exact Bool.false_ne_true ((hnone j hact).symm.trans hmask)

/-- The candidate is the first active element that passes the test. -/
theorem candidate_eq_some {c : Nat} (hact : h.active m c = true) (hmask : h.regs.mask a.toNat c = true)
    (hfirst : ∀ j, j < c → h.active m j = true → h.regs.mask a.toNat j = false) : h.candidate a m = some c := by
  refine List.find?_range_eq_some.2 ⟨Bool.and_eq_true_iff.2 ⟨hact, hmask⟩, List.mem_range.2 (active_lt hact), fun j hj => ?_⟩
  cases hja : h.active m j with
  | false => rfl
  | true => rw [hfirst j hj hja]; rfl

end

/-- BX lowered to a candidate is the lesser of the two. -/
theorem lowered_eq_min (x : Word) (c : Nat) : (if c < x.toNat then Word.ofNat c else x) = BitVec.ofNat 64 (min c x.toNat) := by
  split
  case isTrue hlt => rw [min_eq_left hlt.le, Word.ofNat]
  case isFalse hle => rw [min_eq_right (not_lt.1 hle), BitVec.ofNat_toNat, BitVec.setWidth_eq]

theorem execVxit_of_none {a : MReg} {m : Bool} (ho : s.hart.region.isOpen = true) (hc : s.hart.candidate a m = none) (e : Bool) :
    execVxit e a m s = .next (s.testIssued.retire e) := by
  rw [execVxit, illegalRegister_of_legal ho, hc]
  rfl

theorem execVxit_of_some {a : MReg} {m : Bool} {c : Nat} (ho : s.hart.region.isOpen = true) (hc : s.hart.candidate a m = some c) (e : Bool) :
    execVxit e a m s = .next ((s.exitFound c).testIssued.retire e) := by
  rw [execVxit, illegalRegister_of_legal ho, hc]
  rfl

theorem execVxit_of_closed (hq : Quiet s) (hc : s.hart.region.isOpen = false) (e : Bool) (a : MReg) (m : Bool) :
    execVxit e a m s = .next (s.deliver (.own 0x03 (wordTval (encV e 0x35 0 (ofMask a) 0 m 1) s.hart.member))) := by
  rw [execVxit, illegalRegister_of_illegal hc, member_trap hq]

/-! ## The end of a strip (R181, R182, R201, R203) -/

/-- With no older strip and no test open, a branch on the exit predicts nothing (R190). -/
theorem predicts_of_settled (hs : Settled s) : s.hart.predicts = false := by
  obtain ⟨-, hstrips, hpending⟩ := hs
  simp [Hart.predicts, hstrips, hpending]

theorem stripEnd_of_settled (hs : Settled s) (k : State → Res) : stripEnd s k = k (s.modRegion Region.settle) := if_pos (sure_of_settled hs)

/-- What BXANY and BXNONE make of the strip, whichever way they go: an exit makes it the exited one, and no exit ends it. -/
def State.stripDecided (s : State) : State :=
  if s.hart.region.isOpen = false then s
  else if s.hart.regs.bx ≠ Word.ones then s.modHart fun h => { h with region := { h.region with exited := true, resolved := true } }
  else s.nextStrip

theorem stripDecided_pc : s.stripDecided.hart.pc = s.hart.pc := by
  unfold State.stripDecided
  split
  · rfl
  · split <;> rfl

theorem settle_of_closed {r : Region} (hc : r.isOpen = false) : r.settle = r := by
  have hresolved : (r.resolved || r.isOpen) = r.resolved := by rw [hc, Bool.or_false]
  rw [Region.settle, hresolved]

theorem modRegion_settle_of_closed (hc : s.hart.region.isOpen = false) : s.modRegion Region.settle = s := by
  rw [State.modRegion, State.modHart, settle_of_closed hc]

/-- The model resolves an open strip first, which what it then does with the strip overwrites. -/
theorem stripDecided_eq {t : State} (ht : t = s.modRegion Region.settle) : s.stripDecided =
    if !t.hart.region.isOpen then t
    else if t.hart.regs.bx != Word.ones then t.modRegion fun r => { r with exited := true, resolved := true }
    else t.nextStrip := by
  subst ht
  by_cases hc : s.hart.region.isOpen = false
  · rw [State.stripDecided, if_pos hc, modRegion_settle_of_closed hc, if_pos ((Bool.not_eq_true' _).mpr hc)]
  · rw [State.stripDecided, if_neg hc]
    exact (if_congr bne_iff_ne.symm rfl rfl).trans (if_neg (mt (Bool.not_eq_true' _).mp hc)).symm

/-- BXANY and BXNONE of a settled hart branch as the others do (R90), on the exit, with the strip decided. -/
theorem exitBranch_of_settled (hs : Settled s) (onExit e : Bool) (o : BitVec 11) :
    exitBranch onExit e o s = if ((s.hart.regs.bx != Word.ones) == onExit) = true then Transfers s.stripDecided (away s o.toInt)
      else .next (s.stripDecided.retire e) := by
  have hbranch : exitBranch onExit e o s = branch (fun _ _ => (s.hart.regs.bx != Word.ones) == onExit) e 0 0 o s.stripDecided := by
    rw [exitBranch, predicts_of_settled hs, if_neg Bool.false_ne_true, stripEnd_of_settled hs, stripDecided_eq rfl]
    rfl
  have haway : away s.stripDecided o.toInt = away s o.toInt := by rw [away, stripDecided_pc, away]
  rw [hbranch, branch_eq rfl, haway]

theorem execBxany_of_settled (hs : Settled s) (e : Bool) (o : BitVec 11) :
    execBxany e o s = if s.hart.regs.bx ≠ Word.ones then Transfers s.stripDecided (away s o.toInt) else .next (s.stripDecided.retire e) := by
  simp [execBxany, exitBranch_of_settled hs]

theorem execBxnone_of_settled (hs : Settled s) (e : Bool) (o : BitVec 11) :
    execBxnone e o s = if s.hart.regs.bx ≠ Word.ones then .next (s.stripDecided.retire e) else Transfers s.stripDecided (away s o.toInt) := by
  simp [execBxnone, exitBranch_of_settled hs]

end Sys2Proof.Machine

open Sys2Proof Sys2Proof.Machine Sys2Proof.Claims in
/-- Settles O34: a test takes the first active element that passes as its candidate, and with nothing older undecided the other members neither wait
nor predict, so each has its effect at once. -/
theorem exitRegionResults : Obligations.ExitRegionResults := by
  unfold Obligations.ExitRegionResults
  intro e m d a o s exits next closed tested found
  refine ⟨rfl, rfl, fun ho hnone => execVxit_of_none ho (candidate_eq_none hnone) e, fun c ho hact hmask hfirst => ?_, fun hq hc => ?_,
    fun hs => ⟨?_, ?_, ?_, execBxany_of_settled hs e o, execBxnone_of_settled hs e o⟩⟩
  · refine (execVxit_of_some ho (candidate_eq_some hact hmask hfirst) e).trans ?_
    simp only [State.exitFound, lowered_eq_min]
    rfl
  · refine (execVxit_of_closed hq hc e a m).trans ?_
    rw [wordTval_eq]
    rfl
  · change member e (settled s _) = _
    rw [settled_eq hs]
    rfl
  · change member e (settled s _) = _
    rw [settled_eq hs]
    rfl
  · change member e (stripEnd s _) = _
    rw [stripEnd_of_settled hs]
    rfl
end

section
/-!
Failures, alarms, power, reset and recovery (R227, R285, R426 to R430, R437). With O53.
-/
namespace Sys2Proof.Machine
open Sys2Proof.Claims

variable {s : State}

/-! ## Units that fail (R227, R285) -/

theorem focus_frame (s : State) (id : Nat) : s.focus id = { s with hart := (s.focus id).hart, others := (s.focus id).others } := by
  unfold State.focus
  split
  · rfl
  · split <;> rfl

/-- The hart that steps, taken out of crews that are withdrawn. -/
def State.offCrews (s : State) (ids : List Nat) : State :=
  if ids.contains s.hart.crew then
    match s.others.find? fun h => !ids.contains h.crew with
    | some h => s.focus h.id
    | none => s.modHart fun h =>
      { h with
        run := .retired, convoy := [], stores := [], late := [], caddy := [], region := Region.closed, matrix := [], gathers := []
        copies := [], colls := [], sample := none, walk := none }
  else s

theorem offCrews_frame (s : State) (ids : List Nat) : s.offCrews ids = { s with hart := (s.offCrews ids).hart, others := (s.offCrews ids).others } := by
  unfold State.offCrews
  split
  · split
    · exact focus_frame ..
    · rfl
  · rfl

theorem offCrews_crews (s : State) (ids : List Nat) : (s.offCrews ids).crews = s.crews := by rw [offCrews_frame]

theorem offCrews_launches (s : State) (ids : List Nat) : (s.offCrews ids).launches = s.launches := by rw [offCrews_frame]

theorem dropCrews_crews (s : State) (ids : List Nat) : (s.dropCrews ids).crews = s.crews.filter fun c => !ids.contains c.id :=
  congrArg (List.filter _) (offCrews_crews s ids)

theorem dropCrews_launches (s : State) (ids : List Nat) : (s.dropCrews ids).launches = s.launches :=
  offCrews_launches s ids

theorem crew_of_mem_dropCrews_others {ids : List Nat} {h : Hart} (hh : h ∈ (s.dropCrews ids).others) : h.crew ∉ ids := by
  simpa using (List.mem_filter.1 hh).2

/-- The crews that have a resident team on a unit that fails. -/
def State.crewsOn (s : State) (bad : CoreUnit → Bool) : List Nat :=
  (s.crews.filter fun c => (s.teams.filter fun t => t.resident && bad t.core).any fun t => t.crew == c.id).map (·.id)

theorem mem_crewsOn {bad : CoreUnit → Bool} {t : Team} {c : Crew} (ht : t ∈ s.teams) (hres : t.resident = true) (hbad : bad t.core = true)
    (hc : c ∈ s.crews) (hid : c.id = t.crew) : c.id ∈ s.crewsOn bad := by
  refine List.mem_map_of_mem (List.mem_filter.2 ⟨hc, List.any_eq_true.2 ⟨t, List.mem_filter.2 ⟨ht, ?_⟩, ?_⟩⟩)
  · rw [hres, hbad, Bool.and_true]
  · rw [hid, beq_self_eq_true]

/-- The launches of some crews, marked as aborted. -/
def State.markAborted (s : State) (ids : List Nat) : State :=
  { s with launches := s.launches.map fun l => if ((s.crews.filter fun c => ids.contains c.id).map (·.launch)).contains l.id then { l with aborted := true } else l }

theorem aborted_of_mem_markAborted {ids : List Nat} {c : Crew} {l : Launch} (hc : c ∈ s.crews) (hid : c.id ∈ ids) (hl : l ∈ (s.markAborted ids).launches)
    (hlc : l.id = c.launch) : l.aborted = true := by
  have hin : c.launch ∈ (s.crews.filter fun c => ids.contains c.id).map (·.launch) :=
    List.mem_map.2 ⟨c, List.mem_filter.2 ⟨hc, List.contains_iff_mem.2 hid⟩, rfl⟩
  obtain ⟨l, -, rfl⟩ := List.mem_map.1 hl
  split
  · rfl
  · rename_i hout
    rw [if_neg hout] at hlc
    exact absurd (List.contains_iff_mem.2 (hlc ▸ hin)) hout

/-- What failed units leave before their events are filed. -/
def State.withdrawn (s : State) (bad : CoreUnit → Bool) : State :=
  let t := (s.markAborted (s.crewsOn bad)).dropCrews (s.crewsOn bad)
  { t with ctxs := t.ctxs.map fun c => { c with units := c.units.filter fun u => !bad u } }

theorem withdrawn_crews (s : State) (bad : CoreUnit → Bool) : (s.withdrawn bad).crews = s.crews.filter fun c => !(s.crewsOn bad).contains c.id :=
  dropCrews_crews ..

theorem withdrawn_launches (s : State) (bad : CoreUnit → Bool) : (s.withdrawn bad).launches = (s.markAborted (s.crewsOn bad)).launches :=
  dropCrews_launches ..

theorem failUnits_eq (s : State) (bad : CoreUnit → Bool) (code src : Nat) : s.failUnits bad code src =
    ((s.ctxs.filter fun c => c.state != .revoked && c.units.any bad).map (·.num)).foldl (fun s n => s.fileEvent n code 0 src) (s.withdrawn bad) := rfl

theorem fails_of_failUnits {i : Instr} {u : State} {bad : CoreUnit → Bool} {code src : Nat} (hexec : exec i s = .next (u.failUnits bad code src)) :
    Fails i s u bad code src := by
  refine ⟨u.withdrawn bad, hexec.trans (congrArg _ (failUnits_eq ..)), fun c hc x hx => ?_, fun t ht hres hbad c hc hid => ?_⟩
  · obtain ⟨c, -, rfl⟩ := List.mem_map.1 hc
    simpa using (List.mem_filter.1 hx).2
  · have hon := mem_crewsOn ht hres hbad hc hid
    refine ⟨fun k hk heq => ?_, fun h hh heq => crew_of_mem_dropCrews_others hh (heq ▸ hon), fun l hl hlc => ?_⟩
    · rw [withdrawn_crews] at hk
      simpa [heq, hon] using (List.mem_filter.1 hk).2
    · rw [withdrawn_launches] at hl
      exact aborted_of_mem_markAborted hc hon hl hlc

/-! ## A channel that fails (R437) -/

theorem get_setMarks (m : Sparse Bool) (w : Nat) (b : Bool) (n k : Nat) :
    Sparse.get clearBit (setMarks m w b n) k = if w ≤ k ∧ k < w + n then b else Sparse.get clearBit m k := by
  induction n generalizing m w with
  | zero => rw [if_neg (by omega)]; rfl
  | succ n ih =>
    rw [setMarks, ih, Sparse.get_put]
    by_cases hk : k = w
    · rw [if_neg (by omega), if_pos hk, if_pos (by omega)]
    · rw [if_neg hk]
      exact if_congr (by omega) rfl rfl

theorem poisoned_poisonAt {base size a : Nat} (hlo : base ≤ a) (hhi : a < base + size) : (s.poisonAt (.phys base) size).poisoned (.phys a) = true := by
  change Sparse.get clearBit (setMarks s.pois _ _ _) _ = true
  rw [get_setMarks, if_pos (by omega)]

/-- The contexts other than the crown that own a line of a channel (R325). -/
def State.lineOwners (s : State) (base size : Nat) : List Nat :=
  ((s.owner.filter fun e => base ≤ e.1 * 256 && e.1 * 256 < base + size && e.2 != 0 && e.2 != 1).map (·.2)).eraseDups

theorem mem_lineOwners {base size a n : Nat} (hlo : base ≤ a * 256) (hhi : a * 256 < base + size) (hown : (a, n) ∈ s.owner) (h0 : n ≠ 0) (h1 : n ≠ 1) :
    n ∈ s.lineOwners base size := by
  refine List.mem_eraseDups.2 (List.mem_map.2 ⟨(a, n), List.mem_filter.2 ⟨hown, ?_⟩, rfl⟩)
  simp [hlo, hhi, h0, h1]

/-- A failed channel before its events are filed. -/
def State.channelLost (s : State) (base size : Nat) : State :=
  (s.poisonAt (.phys base) size).modPkg fun p => { p with failedChannels := (base, size) :: p.failedChannels }

theorem exec_channelFailure (base : Nat) {size : Nat} (hsize : 0 < size) : exec (.channelFailure base size) s =
    .next ((s.lineOwners base size).foldl (fun s n => s.fileEvent n 0x0E base ioSrc) (crownFiled (s.channelLost base size) 0x0E base)) := by
  change execChannelFailure base size s = _
  unfold execChannelFailure
  rw [if_neg (by omega)]
  rfl

/-! ## Alarms (R429) -/

/-- What an alarm of a level makes of the package, the frozen subtrees apart. -/
def Package.alarmed (p : Package) (level : Nat) : Package :=
  { p with
    alarm := max p.alarm level
    sessionKeys := p.sessionKeys && decide (level < 2)
    deviceKeys := p.deviceKeys && decide (level < 3)
    refuseAttest := p.refuseAttest || decide (3 ≤ level) }

theorem exec_securityAlarm (sensor : BitVec 2) : exec (.securityAlarm sensor) s =
    let level := s.pkg.manifest.alarmLevel sensor
    let u := (crownFiled s 0x0C 0).modPkg (·.alarmed level)
    .next (if level < 2 then u else u.setFrozen ((u.pkg.frozen ++ u.tenants).eraseDups)) := rfl

/-! ## Power (R430) -/

/-- Whether every enabled core stands at its least grant. -/
def State.grantsLeast (s : State) : Bool := (enabledUnits s.pkg.manifest).all fun u => Sparse.get zeroNat s.pkg.grant (coreIndex u) == 3

theorem grantsLeast_iff : s.grantsLeast = true ↔ ∀ x ∈ enabledUnits s.pkg.manifest, Sparse.get zeroNat s.pkg.grant (coreIndex x) = 3 := by
  simp [State.grantsLeast]

/-- The clock that the controller decides on. -/
def State.nextClock (s : State) (m : PowerStep) : Nat :=
  if decide (s.pkg.manifest.budget < m.draw) && s.grantsLeast then max 1200 (s.pkg.clock - 100)
  else if decide (m.draw * 100 < s.pkg.manifest.budget * 95) then min 1900 (s.pkg.clock + 100) else s.pkg.clock

/-- The grant steps that the controller decides on, before the cores that are too hot are set to the least grant. -/
def State.drawGrant (s : State) (m : PowerStep) : Sparse Nat :=
  let die (d : Nat) : List CoreUnit := (enabledUnits s.pkg.manifest).filter fun u => u.die == d
  if decide (s.pkg.manifest.budget < m.draw) && !s.grantsLeast then stepCores s.pkg.grant (die m.hottest) true
  else if decide (m.draw * 100 < s.pkg.manifest.budget * 95) then stepCores s.pkg.grant (die m.coolest) false
  else s.pkg.grant

/-- What the controller decides, before its event is filed. -/
def State.powered (s : State) (m : PowerStep) : State :=
  s.modPkg fun p => { p with
    grant := m.hot.foldl (fun g n => Sparse.put zeroNat g n 3) (s.drawGrant m), clock := s.nextClock m, power := none, boundary := false }

/-- Event 0x0D goes to the crown when a grant step or the clock changes. -/
def State.toldIf (s : State) (changed : Bool) : State := if changed then crownFiled s 0x0D 0 else s

theorem powerStep_eq (s : State) (m : PowerStep) : s.powerStep m =
    ((s.powered m).toldIf ((s.powered m).pkg.grant != s.pkg.grant)).toldIf ((s.powered m).pkg.clock != s.pkg.clock) := rfl

theorem get_leastGrants (cores : List Nat) (g : Sparse Nat) (c : Nat) :
    Sparse.get zeroNat (cores.foldl (fun g n => Sparse.put zeroNat g n 3) g) c = if c ∈ cores then 3 else Sparse.get zeroNat g c := by
  induction cores generalizing g with
  | nil => rfl
  | cons n cores ih =>
    rw [List.foldl_cons, ih, Sparse.get_put]
    by_cases hc : c ∈ cores
    · simp [hc]
    · simp [hc]

theorem get_stepCores_other (cores : List CoreUnit) (g : Sparse Nat) (down : Bool) {c : Nat} (hc : ∀ x ∈ cores, coreIndex x ≠ c) :
    Sparse.get zeroNat (stepCores g cores down) c = Sparse.get zeroNat g c := by
  induction cores generalizing g with
  | nil => rfl
  | cons x cores ih =>
    obtain ⟨hx, hrest⟩ := List.forall_mem_cons.1 hc
    exact (ih _ hrest).trans (Sparse.get_put_other _ _ hx.symm)

theorem get_powered_hot (m : PowerStep) {c : Nat} (hc : c ∈ m.hot) : Sparse.get zeroNat (s.powered m).pkg.grant c = 3 :=
  (get_leastGrants ..).trans (if_pos hc)

theorem get_powered_other (m : PowerStep) {c : Nat} (hc : c ∉ m.hot) : Sparse.get zeroNat (s.powered m).pkg.grant c = Sparse.get zeroNat (s.drawGrant m) c :=
  (get_leastGrants ..).trans (if_neg hc)

theorem clock_powered_of_above (m : PowerStep) (ha : s.pkg.manifest.budget < m.draw) :
    (s.powered m).pkg.clock = if s.grantsLeast then max 1200 (s.pkg.clock - 100) else s.pkg.clock := by
  have hb : ¬ m.draw * 100 < s.pkg.manifest.budget * 95 := by omega
  change s.nextClock m = _
  simp [State.nextClock, ha, hb]

theorem clock_powered_of_within (m : PowerStep) (ha : m.draw ≤ s.pkg.manifest.budget) (hb : s.pkg.manifest.budget * 95 ≤ m.draw * 100) :
    (s.powered m).pkg.clock = s.pkg.clock := by
  change s.nextClock m = _
  simp [State.nextClock, ha.not_gt, hb.not_gt]

theorem clock_powered_of_below (m : PowerStep) (hb : m.draw * 100 < s.pkg.manifest.budget * 95) : (s.powered m).pkg.clock = min 1900 (s.pkg.clock + 100) := by
  have ha : ¬ s.pkg.manifest.budget < m.draw := by omega
  change s.nextClock m = _
  simp [State.nextClock, ha, hb]

theorem drawGrant_of_within (m : PowerStep) (ha : m.draw ≤ s.pkg.manifest.budget) (hb : s.pkg.manifest.budget * 95 ≤ m.draw * 100) : s.drawGrant m = s.pkg.grant := by
  simp [State.drawGrant, ha.not_gt, hb.not_gt]

/-- A draw above the budget lowers the grants of the hottest die alone. -/
theorem get_drawGrant_of_above (m : PowerStep) (ha : s.pkg.manifest.budget < m.draw) (hl : s.grantsLeast = false) {c : Nat}
    (hc : ∀ x ∈ enabledUnits s.pkg.manifest, x.die = m.hottest → coreIndex x ≠ c) : Sparse.get zeroNat (s.drawGrant m) c = Sparse.get zeroNat s.pkg.grant c := by
  simp only [State.drawGrant, ha, hl, decide_true, Bool.not_false, Bool.and_true, if_true]
  refine get_stepCores_other _ _ _ fun x hx => ?_
  obtain ⟨hx, hdie⟩ := List.mem_filter.1 hx
  exact hc x hx (by simpa using hdie)

theorem exec_powerGrantStep_of_boundary (hb : s.pkg.boundary = true) (draw hot cool : Nat) (cores : List Nat) :
    exec (.powerGrantStep draw hot cool cores) s = .next (s.powerStep ⟨draw, hot, cool, cores⟩) :=
  congrArg event (if_pos hb)

/-- A measurement within a tick waits for the boundary. -/
theorem exec_powerGrantStep_of_within (hb : s.pkg.boundary = false) (draw hot cool : Nat) (cores : List Nat) :
    exec (.powerGrantStep draw hot cool cores) s = .next (s.modPkg fun p => { p with power := some ⟨draw, hot, cool, cores⟩ }) :=
  congrArg event (if_neg (by simp [hb]))

/-! ## Boot and recovery (R426, R427) -/

theorem Sparse.get_filter {α : Type} {dflt : Nat → α} (m : Sparse α) (p : Nat → Bool) (k : Nat) :
    Sparse.get dflt (m.filter fun e => p e.1) k = if p k then Sparse.get dflt m k else dflt k := by
  induction m with
  | nil => exact (ite_self _).symm
  | cons e rest ih =>
    obtain ⟨j, v⟩ := e
    rw [List.filter_cons]
    by_cases hkj : k = j
    · subst hkj
      cases hp : p k <;> simp [Sparse.get, hp, ih]
    · cases hp : p j <;> simp [Sparse.get, hkj, ih]

/-- A boot puts attr 3 throughout the frame table and leaves the other bytes. -/
theorem read_boot (s : State) (a : Nat) : Memory.read s.boot.mem a =
    if Config.frameTableBase ≤ a ∧ a < Config.frameTableBase + Config.frameTableSize then 3 else Memory.read s.mem a := by
  refine (Sparse.get_filter s.mem (fun k => k < Config.frameTableBase || Config.frameTableBase + Config.frameTableSize ≤ k) a).trans ?_
  by_cases ha : Config.frameTableBase ≤ a ∧ a < Config.frameTableBase + Config.frameTableSize
  · rw [if_pos ha, if_neg (by simp; omega)]
    exact if_pos ha
  · rw [if_neg ha, if_pos (by simp; omega)]
    rfl

/-- Flash after what crown firmware has written to it (R426). -/
def State.flashed (s : State) (flash : FlashManifest) : State :=
  s.modPkg fun p => { p with
    stored := flash.written.getD p.stored, mfAccepted := flash.written.elim p.mfAccepted fun _ => flash.version.toNat
    fwAccepted := flash.firmware.elim p.fwAccepted (·.toNat) }

theorem exec_deviceReset (fw : Bool) (flash : FlashManifest) : exec (.deviceReset fw flash) s =
    let u := s.flashed flash
    let good := fw && decide (s.pkg.fwVersion ≤ u.pkg.fwAccepted)
    let mf := flash.ok && decide (s.pkg.mfVersion ≤ u.pkg.mfAccepted)
    .next (if good && mf then u.boot else u.recover good mf) := by
  obtain ⟨ok, written, version, firmware⟩ := flash
  cases written <;> cases firmware <;> rfl

/-- Flash after an image that recovery has accepted. -/
def State.reflashed (s : State) (image : Option Manifest) (v : BitVec 32) : State :=
  s.modPkg fun p => { p with
    stored := image.getD p.stored, mfAccepted := if image.isSome then v.toNat else p.mfAccepted
    fwAccepted := if image.isSome then p.fwAccepted else v.toNat }

/-- Whether a recovery image is taken: its signatures verify and its version is no lower than its counter (R426). -/
def State.TakesImage (s : State) (image : Option Manifest) (ok : Bool) (v : BitVec 32) : Prop :=
  s.pkg.recovery = true ∧ ok = true ∧ (if image.isSome then s.pkg.mfVersion else s.pkg.fwVersion) ≤ v.toNat

theorem exec_recoveryImageWrite_of_takesImage {image : Option Manifest} {ok : Bool} {v : BitVec 32} (h : s.TakesImage image ok v) :
    exec (.recoveryImageWrite image ok v) s =
      let u := s.reflashed image v
      let fw := s.pkg.fwGood || !image.isSome
      let mf := s.pkg.mfGood || image.isSome
      .next (if fw && mf then u.boot else u.modPkg fun p => { p with fwGood := fw, mfGood := mf }) := by
  obtain ⟨hrec, rfl, hv⟩ := h
  change event (ite _ _ _) = _
  rw [if_neg (by simpa [hrec] using hv)]
  cases image <;> rfl

theorem exec_recoveryImageWrite_of_refused {image : Option Manifest} {ok : Bool} {v : BitVec 32} (h : ¬ s.TakesImage image ok v) :
    exec (.recoveryImageWrite image ok v) s = .next s := by
  refine congrArg event (if_pos ?_)
  by_contra hno
  exact h (by simpa [State.TakesImage, and_assoc] using hno)

end Sys2Proof.Machine

open Sys2Proof Sys2Proof.Machine Sys2Proof.Claims in
/-- Settles O53: what a failure withdraws, an alarm takes, the controller decides and a boot starts is one state each, which the events that are filed
follow; the clauses read it field by field. -/
theorem deviceEvents : Obligations.DeviceEvents := by
  unfold Obligations.DeviceEvents
  intro s
  refine ⟨fun d c k => fails_of_failUnits rfl, fun d c => fails_of_failUnits rfl, fun base size hsize => ?_, fun sensor => ?_, rfl, fun ok v => ⟨?_, ?_⟩,
    fun port => rfl, fun draw hot cool cores hb => ?_, fun draw hot cool cores hb => ?_, fun fw flash => ?_, fun fw flash => ?_, fun image ok v => ?_⟩
  · refine ⟨s.channelLost base size, s.lineOwners base size, exec_channelFailure base hsize, fun a hlo hhi => poisoned_poisonAt hlo hhi,
      List.mem_cons_self, rfl, fun a n hlo hhi hown h0 h1 => mem_lineOwners hlo hhi hown h0 h1⟩
  · refine ⟨_, exec_securityAlarm sensor, ?_⟩
    split
    · rename_i hlevel
      exact ⟨rfl, rfl, rfl, rfl, rfl, fun hl => absurd hlevel (by omega)⟩
    · exact ⟨rfl, rfl, rfl, rfl, rfl, fun _ n hn => List.mem_eraseDups.2 hn⟩
  · rintro ⟨rfl, hv⟩
    exact congrArg event (if_pos (by simpa using hv))
  · exact fun h => congrArg event (if_neg (by simpa using h))
  · exact exec_powerGrantStep_of_within hb draw hot cool cores
  · intro step units budget least told
    let m : PowerStep := ⟨draw, hot, cool, cores⟩
    refine ⟨s.powered m, (exec_powerGrantStep_of_boundary hb draw hot cool cores).trans (congrArg _ (powerStep_eq s m)), rfl, fun c => get_powered_hot m,
      fun ha hbelow => ?_, fun ha hl => ?_, fun ha hl => ?_, clock_powered_of_below m⟩
    · refine ⟨clock_powered_of_within m ha hbelow, fun c hc => ?_⟩
      rw [get_powered_other m hc, drawGrant_of_within m ha hbelow]
    · rw [clock_powered_of_above m ha, if_pos (grantsLeast_iff.2 hl)]
    · have hl : s.grantsLeast = false := Bool.eq_false_iff.2 fun h => hl (grantsLeast_iff.1 h)
      refine ⟨?_, fun c hc hdie => (get_powered_other m hc).trans (get_drawGrant_of_above m ha hl hdie)⟩
      rw [clock_powered_of_above m ha, hl]
      rfl
  · intro stored hfw hok hfirmware hmanifest
    refine ⟨(s.flashed flash).boot, ?_, rfl, rfl, rfl, rfl, rfl, rfl, rfl, rfl, read_boot (s.flashed flash)⟩
    rw [exec_deviceReset]
    exact congrArg _ (if_pos (by simpa [hfw, hok] using ⟨hfirmware, hmanifest⟩))
  · intro good mf hbad
    refine ⟨(s.flashed flash).recover good mf, ?_, rfl, rfl, rfl, rfl, rfl, rfl, rfl⟩
    rw [exec_deviceReset]
    exact congrArg _ (if_neg (Bool.eq_false_iff.1 hbad))
  · intro kind least fw mf
    refine ⟨fun hrec hok hv hmore => ?_, fun hrec hok hv hdone => ?_, exec_recoveryImageWrite_of_refused⟩
    · rw [exec_recoveryImageWrite_of_takesImage ⟨hrec, hok, hv⟩]
      exact congrArg _ (if_neg (Bool.eq_false_iff.1 hmore))
    · refine ⟨(s.reflashed image v).boot, ?_, rfl, rfl, rfl⟩
      rw [exec_recoveryImageWrite_of_takesImage ⟨hrec, hok, hv⟩]
      exact congrArg _ (if_pos hdone)
end

section
/-!
Matrix members before their fork (R232, R235 to R248): shape words, room in the queue, and the checks of tiles. With O39 and O41.
-/
namespace Sys2Proof.Machine
open Sys2Proof.Claims

variable {s : State} {e : Bool} {k c st : TReg} {w : Word}

/-! ## Shape words (R229) -/

@[simp] theorem shapeFmt_eq (w : Word) : shapeFmt w = fmtOf w := rfl
@[simp] theorem shapeRowBytes_eq (w : Word) : shapeRowBytes w = rowBytesOf w := rfl
@[simp] theorem shapeRows_eq (w : Word) : shapeRows w = rowsOf w := congrArg (· % 1024) (Nat.div_one _)

theorem isMx_iff (fmt : Nat) : isMx fmt = true ↔ fmt = 6 ∨ fmt = 7 := by simp [isMx]

/-! ## Members that may fork (R235, R239) -/

/-- A member that may fork goes on to its own checks. -/
theorem matrixMember_of_room (h : Room s) (go : State → Res) : matrixMember e go s = member e (go s) := by
  obtain ⟨hs, hroom⟩ := h
  rw [matrixMember, settled_eq hs, if_neg (show ¬ s.hart.matrix.length ≥ matrixDepth from Nat.not_le.2 hroom)]

/-! ## Tiles named (R232) -/

theorem ofNat_toNat (k : TReg) : Word.ofNat k.toNat = k.setWidth 64 := by
  rw [Word.ofNat, ← BitVec.toNat_inj, BitVec.toNat_ofNat, BitVec.toNat_setWidth]

theorem claims_iff : s.claims k.toNat = true ↔ Holds s k := beq_iff_eq

theorem claimedTile_of_holds (h : Holds s k) (go : State → Res) : claimedTile k.toNat s go = go s := if_pos (claims_iff.2 h)

theorem claimedTile_of_not_holds (h : ¬ Holds s k) (go : State → Res) : claimedTile k.toNat s go = .trap (.own 0x04 (k.setWidth 64)) s := by
  rw [claimedTile, if_neg (mt claims_iff.1 h), ofNat_toNat]

theorem shapedTile_of_shaped (h : Shaped s k w) (go : Word → State → Res) : shapedTile k.toNat s go = go w s := by
  obtain ⟨hclaim, hshape⟩ := h
  simp only [shapedTile, claims_iff.2 hclaim, hshape, Bool.not_true, Bool.false_eq_true, if_false]

theorem shapedTile_of_unshaped (h : Holds s k) (hshape : s.shapeAhead k.toNat = some none) (go : Word → State → Res) :
    shapedTile k.toNat s go = .trap (.own 0x04 (k.setWidth 64)) s := by
  simp only [shapedTile, claims_iff.2 h, hshape, Bool.not_true, Bool.false_eq_true, if_false, ofNat_toNat]

/-! ## Rows and columns (R241) -/

theorem moveLimit_row {j : Word} (h : j.toNat < rowsOf w) (go : State → Res) : moveLimit false w j s go = go s := by
  simp [moveLimit, Nat.not_le.2 h]

theorem moveLimit_row_trap {j : Word} (h : rowsOf w ≤ j.toNat) (go : State → Res) : moveLimit false w j s go = .trap (.own 0x03 j) s := by
  simp [moveLimit, h, badRegister]

theorem moveLimit_column {j : Word} (hj : j.toNat < shapeCols w) (hfmt : fmtOf w ≠ 7) (hfit : rowsOf w * shapeElem w ≤ s.hart.rb) (go : State → Res) :
    moveLimit true w j s go = go s := by
  simp [moveLimit, Nat.not_le.2 hj, hfmt, Nat.not_lt.2 hfit]

/-! ## Bits of a set of tiles -/

/-- The number whose bits are those for which `p` holds, below bit `m`. -/
theorem testBit_foldl_bits (p : Nat → Bool) (m : Nat) :
    let x := (List.range m).foldl (fun acc k => if p k then acc + 2 ^ k else acc) 0
    x < 2 ^ m ∧ ∀ k, x.testBit k = (decide (k < m) && p k) := by
  induction m with
  | zero => simp
  | succ m ih =>
    obtain ⟨hlt, hbit⟩ := ih
    rw [List.range_succ, List.foldl_append, List.foldl_cons, List.foldl_nil]
    generalize (List.range m).foldl (fun acc k => if p k then acc + 2 ^ k else acc) 0 = x at hlt hbit
    have hpow : 2 ^ (m + 1) = 2 ^ m + 2 ^ m := by ring
    cases hm : p m with
    | false =>
      refine ⟨by simp only [Bool.false_eq_true, if_false]; omega, fun k => ?_⟩
      rcases Nat.lt_trichotomy k m with hk | rfl | hk
      · simp [hbit, hk, Nat.lt_succ_of_lt hk]
      · simp [hbit, hm]
      · simp [hbit, Nat.not_lt.2 hk.le, show ¬ k < m + 1 by omega]
    | true =>
      refine ⟨by simp only [if_true]; omega, fun k => ?_⟩
      rw [if_pos rfl, Nat.add_comm]
      rcases Nat.lt_trichotomy k m with hk | rfl | hk
      · rw [Nat.testBit_two_pow_add_gt hk, hbit]
        simp [hk, Nat.lt_succ_of_lt hk]
      · rw [Nat.testBit_two_pow_add_eq, hbit]
        simp [hm]
      · rw [Nat.testBit_lt_two_pow]
        · simp [show ¬ k < m + 1 by omega]
        · exact Nat.lt_of_lt_of_le (show 2 ^ m + x < 2 ^ (m + 1) by omega) (Nat.pow_le_pow_right (by decide) hk)

theorem bitsOf_beq_one (x n : Nat) : (bitsOf x n n == 1) = x.testBit n := by
  rw [bitsOf, Nat.add_sub_cancel_left, Nat.pow_one, Nat.testBit_eq_decide_div_mod_eq]
  rfl

/-! ## The team's tiles -/

/-- The hart's team after a change of every team of its name that keeps where it stands. -/
theorem myTeam?_modTeam {t : Team} (h : s.myTeam? = some t) {f : Team → Team} (hf : ∀ x, (f x).crew = x.crew ∧ (f x).slot = x.slot) :
    (s.modTeam t.id f).myTeam? = some (f t) := by
  have hsame : ((fun x : Team => x.crew == s.hart.crew && x.slot == s.hart.slot) ∘ fun x => if x.id = t.id then f x else x) =
      fun x => x.crew == s.hart.crew && x.slot == s.hart.slot := by
    funext x
    rw [Function.comp]
    split
    · rw [(hf x).1, (hf x).2]
    · rfl
  change (s.teams.map fun x => if x.id = t.id then f x else x).find? _ = _
  rw [List.find?_map]
  refine (congrArg (fun q => Option.map _ (s.teams.find? q)) hsame).trans ?_
  rw [show s.teams.find? _ = some t from h, Option.map_some, if_pos rfl]

theorem tile_of_team {t : Team} (h : s.myTeam? = some t) (n : Nat) : s.tile n = (t.tiles[n]?).getD Tile.empty := by
  rw [State.tile, h]
  rfl

/-- A tile once TCONF has set the group (R233). -/
def Tile.regrouped (x : Tile) (me : Nat) (want : Bool) : Tile :=
  if x.claim == some me && !want then { Tile.empty with zeroMark := true }
  else if want && !(x.claim == some me) then { Tile.empty with claim := some me, zeroMark := true }
  else x

theorem tile_setClaims {t : Team} (h : s.myTeam? = some t) (req n : Nat) (hn : n < t.tiles.length) :
    (s.setClaims req).tile n = (s.tile n).regrouped s.hart.id (req.testBit n) := by
  have hteam : (s.setClaims req).myTeam? = some
      { t with tiles := ((List.range t.tiles.length).zip t.tiles).map fun p => p.2.regrouped s.hart.id (bitsOf req p.1 p.1 == 1) } := by
    rw [State.setClaims, h]
    exact myTeam?_modTeam h fun _ => ⟨rfl, rfl⟩
  have hzip : ((List.range t.tiles.length).zip t.tiles)[n]? = some (n, t.tiles[n]) :=
    List.getElem?_zip_eq_some.2 ⟨List.getElem?_range hn, List.getElem?_eq_getElem hn⟩
  rw [tile_of_team hteam, tile_of_team h, List.getElem?_map, hzip, List.getElem?_eq_getElem hn, Option.map_some, Option.getD_some, Option.getD_some,
    bitsOf_beq_one]

theorem setClaims_hart (req : Nat) : (s.setClaims req).hart = s.hart := by
  unfold State.setClaims
  split <;> rfl

theorem setClaims_mem (req : Nat) : (s.setClaims req).mem = s.mem := by
  unfold State.setClaims
  split <;> rfl

theorem regrouped_claim (x : Tile) (me : Nat) (want : Bool) :
    (x.regrouped me want).claim = if want = true then some me else if x.claim = some me then none else x.claim := by
  unfold Tile.regrouped
  by_cases hmine : x.claim = some me <;> cases want <;> simp [hmine, Tile.empty]

theorem regrouped_of_kept {x : Tile} {me : Nat} (h : x.claim = some me) : x.regrouped me true = x := by simp [Tile.regrouped, h]

/-! ## TCONF and TDIRTY (R233, R245) -/

variable {d a : GReg}

theorem exec_tconf (hs : Settled s) (hm : s.hart.matrix = []) (hreq : (s.g a).toNat < 256) : exec (.tconf e d a) s =
    member e (if s.refusedTiles (s.g a).toNat ≠ 0 then .ok (s.setG d (BitVec.ofNat 64 (s.refusedTiles (s.g a).toNat)))
      else .ok ((s.setClaims (s.g a).toNat).setG d 0)) := by
  refine (congrArg (member e) (settled_eq hs _)).trans ?_
  simp only [Nat.not_le.2 hreq, hm, List.isEmpty_nil, if_false, Bool.not_true, Bool.false_eq_true]
  rfl

theorem tconf_refuses (hs : Settled s) (hm : s.hart.matrix = []) (hreq : (s.g a).toNat < 256) (h : s.refusedTiles (s.g a).toNat ≠ 0) :
    exec (.tconf e d a) s = Wrote s e (s.hart.regs.setG d (BitVec.ofNat 64 (s.refusedTiles (s.g a).toNat))) := by
  rw [exec_tconf hs hm hreq, if_pos h]
  rfl

theorem tconf_claims (hs : Settled s) (hm : s.hart.matrix = []) (hreq : (s.g a).toNat < 256) (h : s.refusedTiles (s.g a).toNat = 0) :
    Completes (.tconf e d a) s e ((s.setClaims (s.g a).toNat).setG d 0) := by
  rw [Completes, exec_tconf hs hm hreq, if_neg (not_not.2 h)]
  rfl

theorem tconf_traps (hs : Settled s) (hreq : 256 ≤ (s.g a).toNat) : Raises (.tconf e d a) s (.own 0x03 (s.g a)) :=
  ((congrArg (member e) (settled_eq hs _)).trans (congrArg (member e) (if_pos hreq))).trans (member_trap_of_settled hs e _)

/-- The claimed tiles that are dirty, as TDIRTY names them. -/
def State.dirtyTiles (s : State) : Nat := (List.range 8).foldl (fun acc k => if s.claims k && (s.tile k).dirty then acc + 2 ^ k else acc) 0

theorem testBit_dirtyTiles (t : TReg) :
    s.dirtyTiles.testBit t.toNat = decide ((s.tile t.toNat).claim = some s.hart.id ∧ (s.tile t.toNat).dirty = true) := by
  have hclaim : s.claims t.toNat = decide ((s.tile t.toNat).claim = some s.hart.id) := by
    rw [Bool.eq_iff_iff, claims_iff, decide_eq_true_iff]
    rfl
  rw [State.dirtyTiles, (testBit_foldl_bits (fun k => s.claims k && (s.tile k).dirty) 8).2, decide_eq_true t.isLt, Bool.true_and, hclaim,
    Bool.decide_and, Bool.decide_eq_true]

theorem tdirty_reads (hs : Settled s) (hm : s.hart.matrix = []) :
    exec (.tdirty e d) s = Wrote s e (s.hart.regs.setG d (BitVec.ofNat 64 s.dirtyTiles)) := by
  refine (congrArg (member e) (settled_eq hs _)).trans ?_
  simp only [hm, List.isEmpty_nil, Bool.not_true, Bool.false_eq_true, if_false]
  rfl

/-! ## Members that fork with the operands they read (R240, R241, R246) -/

theorem completes_of_forks {i : Instr} {go : State → Res} {op : MatOp} (h : Room s) (hexec : exec i s = matrixMember e go s)
    (hgo : go s = .ok (s.forkMatrix op)) : Completes i s e (s.forkMatrix op) := by
  rw [Completes, hexec, matrixMember_of_room h, hgo]
  rfl

theorem raises_of_traps {i : Instr} {go : State → Res} {t : Trap} (h : Room s) (hexec : exec i s = matrixMember e go s)
    (hgo : go s = .trap t s) : Raises i s t := by
  rw [Raises, hexec, matrixMember_of_room h, hgo, member_trap_of_settled h.1]

theorem tcvt_forks {w' : Word} {b : BitVec 7} (h : Room s) (hk : Shaped s k w') (hst : Shaped s st w) (h6 : fmtOf w ≠ 6) (h7 : fmtOf w ≠ 7)
    (hnb : shapeCols w * tileBits (b.toNat % 16) / 8 ≤ 512) (h8 : shapeCols w * tileBits (b.toNat % 16) / 8 % 8 = 0)
    (hsize : rowsOf w * (shapeCols w * tileBits (b.toNat % 16) / 8) ≤ 32768) :
    Completes (.tcvt e k st b) s e (s.forkMatrix (plain s (.convert st.toNat b.toNat) k)) := by
  refine completes_of_forks h rfl ?_
  have hmx : isMx (fmtOf w) = false := by simp [isMx, h6, h7]
  rw [shapedTile_of_shaped hk, shapedTile_of_shaped hst]
  exact if_neg (by simp [hmx, Nat.not_lt.2 hnb, h8, Nat.not_lt.2 hsize])

end Sys2Proof.Machine

open Sys2Proof Sys2Proof.Machine Sys2Proof.Claims in
/-- Settles O39: each tile member passes or fails the checks of its tiles and its index, and forks with what it has read. -/
theorem tileResults : Obligations.TileResults := by
  intro e d a k st v b s req j
  refine ⟨fun hs hm hreq => ⟨tconf_refuses hs hm hreq, fun h => ?_⟩, tconf_traps, fun hs hm => ?_, fun h hk => ⟨?_, ?_⟩, fun h hk hshape => ?_,
    fun h hk hlegal => ?_, fun h hk hlegal => ?_, fun h hk => ?_, fun w h hw => ⟨fun hj => ?_, fun hj => ?_, fun hj => ?_, fun hj hfmt hfit => ⟨?_, ?_⟩⟩,
    fun w' w h hk hst h6 h7 hnb h8 hsize => tcvt_forks h hk hst h6 h7 hnb h8 hsize⟩
  · refine ⟨_, tconf_claims hs hm hreq h, setClaims_hart _, setClaims_mem _, fun team ht n hn => ?_⟩
    rw [tile_setClaims ht _ _ hn]
    refine ⟨regrouped_claim .., fun hwant hmine => ?_⟩
    rw [hwant, regrouped_of_kept hmine]
  · exact ⟨_, (testBit_foldl_bits _ 8).1, testBit_dirtyTiles, tdirty_reads hs hm⟩
  · exact raises_of_traps h rfl (claimedTile_of_not_holds hk _)
  · exact raises_of_traps h rfl (claimedTile_of_not_holds hk _)
  · exact raises_of_traps h rfl (shapedTile_of_unshaped hk hshape _)
  · exact completes_of_forks h rfl ((claimedTile_of_holds hk _).trans (if_pos hlegal))
  · exact raises_of_traps h rfl ((claimedTile_of_holds hk _).trans (if_neg (by simp [hlegal])))
  · exact completes_of_forks h rfl (claimedTile_of_holds hk _)
  · exact raises_of_traps h rfl ((shapedTile_of_shaped hw _).trans (moveLimit_row_trap hj _))
  · exact completes_of_forks h rfl ((shapedTile_of_shaped hw _).trans (moveLimit_row hj _))
  · exact completes_of_forks h rfl ((shapedTile_of_shaped hw _).trans (moveLimit_row hj _))
  · exact completes_of_forks h rfl (((shapedTile_of_shaped hw _).trans (moveLimit_column hj hfmt hfit _)).trans (by rw [shapeRows_eq]; rfl))
  · exact completes_of_forks h rfl ((shapedTile_of_shaped hw _).trans (moveLimit_column hj hfmt hfit _))
end

section
/-!
Tiles (R228, R231): what writing bytes leaves of a tile, and how the state's tile follows. With O40.
-/
namespace Sys2Proof.Machine
open Sys2Proof.Claims

/-! ## Poison marks -/

section
variable {m : Sparse Bool} {k n : Nat}

theorem mem_keys_drop (m : Sparse Bool) (k n : Nat) : n ∈ (Sparse.drop m k).map Prod.fst ↔ n ≠ k ∧ n ∈ m.map Prod.fst := by
  induction m with
  | nil => simp [Sparse.drop]
  | cons x m ih =>
    obtain ⟨j, v⟩ := x
    by_cases hj : k = j
    · rw [Sparse.drop, if_pos hj, ih, List.map_cons, List.mem_cons]
      grind
    · rw [Sparse.drop, if_neg hj, List.map_cons, List.mem_cons, ih, List.map_cons, List.mem_cons]
      grind

theorem mem_keys_insert (m : Sparse Bool) (k n : Nat) (b : Bool) : n ∈ (Sparse.insert m k b).map Prod.fst ↔ n = k ∨ n ∈ m.map Prod.fst := by
  induction m with
  | nil => simp [Sparse.insert]
  | cons x m ih =>
    obtain ⟨j, v⟩ := x
    rw [Sparse.insert]
    split
    · rename_i hj
      simp [hj]
    · split
      · simp
      · rw [List.map_cons, List.mem_cons, ih, List.map_cons, List.mem_cons]
        tauto

/-- A mark is listed where it is set. -/
theorem mem_keys_put (m : Sparse Bool) (k n : Nat) (b : Bool) :
    n ∈ (Sparse.put clearBit m k b).map Prod.fst ↔ if n = k then b = true else n ∈ m.map Prod.fst := by
  cases b with
  | false =>
    rw [Sparse.put, if_pos (show false = clearBit k from rfl), mem_keys_drop]
    split <;> simp [*]
  | true =>
    rw [Sparse.put, if_neg (by simp [clearBit]), mem_keys_insert]
    split <;> simp [*]

theorem anyIn_iff {lo hi : Nat} : Sparse.anyIn m lo hi = true ↔ ∃ n ∈ m.map Prod.fst, lo ≤ n ∧ n < hi := by
  simp [Sparse.anyIn, List.any_eq_true]

end

/-! ## Bytes of a tile -/

/-- Byte `n` of a tile is marked as poisoned. -/
def Tile.Marked (t : Tile) (n : Nat) : Prop := n ∈ t.pois.map Prod.fst

variable {t : Tile} {k n : Nat}

theorem poisoned_iff : t.poisoned k = true ↔ ∃ n, n / 8 = k / 8 ∧ t.Marked n := by
  rw [Tile.poisoned, anyIn_iff]
  constructor
  · rintro ⟨n, hn, hlo, hhi⟩
    exact ⟨n, by omega, hn⟩
  · rintro ⟨n, hk, hn⟩
    exact ⟨n, hn, by omega, by omega⟩

theorem poisoned_of_marked (h : t.Marked k) : t.poisoned k = true := poisoned_iff.2 ⟨k, rfl, h⟩

theorem byte_put (t : Tile) (k : Nat) (b : Byte) (bad : Bool) (n : Nat) : (t.put k b bad).byte n = if n = k then b else t.byte n := by
  unfold Tile.put
  by_cases hk : k < 0x8000
  · rw [if_pos hk, Tile.byte, Tile.byte]
    split
    · exact Sparse.get_put ..
    · rw [if_neg (by omega)]
  · rw [if_neg hk, Tile.byte, Tile.byte]
    split
    · rw [if_neg (by omega)]
    · rw [Sparse.get_put]
      exact if_congr (by omega) rfl rfl

theorem marked_put (t : Tile) (k : Nat) (b : Byte) (bad : Bool) (n : Nat) : (t.put k b bad).Marked n ↔ if n = k then bad = true else t.Marked n := by
  refine Iff.trans ?_ (mem_keys_put t.pois k n bad)
  unfold Tile.put
  dsimp only
  split <;> exact Iff.rfl

@[simp] theorem put_shape (t : Tile) (k : Nat) (b : Byte) (bad : Bool) : (t.put k b bad).shape = t.shape := by unfold Tile.put; dsimp only; split <;> rfl

/-! ## Consecutive bytes -/

section
variable {xs : List (Byte × Bool)}

theorem byte_putList_other (t : Tile) (h : n < k ∨ k + xs.length ≤ n) : (t.putList k xs).byte n = t.byte n := by
  induction xs generalizing t k with
  | nil => rfl
  | cons x xs ih =>
    rw [List.length_cons] at h
    rw [Tile.putList, ih _ (by omega), byte_put, if_neg (by omega)]

theorem marked_putList_other (t : Tile) (h : n < k ∨ k + xs.length ≤ n) : (t.putList k xs).Marked n ↔ t.Marked n := by
  induction xs generalizing t k with
  | nil => rfl
  | cons x xs ih =>
    rw [List.length_cons] at h
    rw [Tile.putList, ih _ (by omega), marked_put, if_neg (by omega)]

theorem byte_putList (t : Tile) (k : Nat) {i : Nat} (hi : i < xs.length) : (t.putList k xs).byte (k + i) = xs[i].1 := by
  induction xs generalizing t k i with
  | nil => cases hi
  | cons x xs ih =>
    cases i with
    | zero => exact (byte_putList_other _ (.inl (show k < k + 1 by omega))).trans ((byte_put ..).trans (if_pos rfl))
    | succ i => rw [Tile.putList, show k + (i + 1) = k + 1 + i by omega]; exact ih _ _ (Nat.lt_of_succ_lt_succ hi)

theorem marked_putList (t : Tile) (k : Nat) {i : Nat} (hi : i < xs.length) : (t.putList k xs).Marked (k + i) ↔ xs[i].2 = true := by
  induction xs generalizing t k i with
  | nil => cases hi
  | cons x xs ih =>
    cases i with
    | zero => exact (marked_putList_other _ (.inl (show k < k + 1 by omega))).trans ((marked_put ..).trans (by rw [if_pos rfl]; rfl))
    | succ i => rw [Tile.putList, show k + (i + 1) = k + 1 + i by omega]; exact ih _ _ (Nat.lt_of_succ_lt_succ hi)

@[simp] theorem putList_shape (t : Tile) (k : Nat) (xs : List (Byte × Bool)) : (t.putList k xs).shape = t.shape := by
  induction xs generalizing t k with
  | nil => rfl
  | cons x xs ih => rw [Tile.putList, ih, put_shape]

/-- Lists written one behind another, with room for each: each of their bytes is as written, and no other byte changes. -/
theorem byte_foldl_putList {f : Nat → Nat} {g : Nat → List (Byte × Bool)} (t : Tile) (m : Nat)
    (happart : ∀ r r', r < r' → r' < m → f r + (g r).length ≤ f r') :
    let u := (List.range m).foldl (fun t r => t.putList (f r) (g r)) t
    (∀ r i (hi : i < (g r).length), r < m → u.byte (f r + i) = (g r)[i].1) ∧
    (∀ n, (∀ r, r < m → n < f r ∨ f r + (g r).length ≤ n) → u.byte n = t.byte n) ∧ u.shape = t.shape := by
  induction m with
  | zero => exact ⟨fun r i hi hr => absurd hr (Nat.not_lt_zero r), fun n _ => rfl, rfl⟩
  | succ m ih =>
    obtain ⟨hin, hout, hshape⟩ := ih fun r r' h h' => happart r r' h (Nat.lt_succ_of_lt h')
    rw [List.range_succ, List.foldl_append, List.foldl_cons, List.foldl_nil]
    refine ⟨fun r i hi hr => ?_, fun n hn => ?_, ?_⟩
    · obtain hr | rfl := Nat.lt_succ_iff_lt_or_eq.1 hr
      · rw [byte_putList_other _ (.inl ?_), hin r i hi hr]
        have := happart r m hr (Nat.lt_succ_self m)
        omega
      · exact byte_putList _ _ hi
    · rw [byte_putList_other _ (hn m (Nat.lt_succ_self m)), hout n fun r hr => hn r (Nat.lt_succ_of_lt hr)]
    · rw [putList_shape, hshape]

end

/-! ## Bytes anywhere -/

/-- Bytes written one by one: where, what, and whether as poisoned. -/
def Tile.putAll (t : Tile) (xs : List (Nat × Byte × Bool)) : Tile := xs.foldl (fun t x => t.put x.1 x.2.1 x.2.2) t

section
variable {xs : List (Nat × Byte × Bool)}

theorem putAll_append (t : Tile) (xs ys : List (Nat × Byte × Bool)) : t.putAll (xs ++ ys) = (t.putAll xs).putAll ys := List.foldl_append

theorem byte_putAll_other (t : Tile) (h : ∀ x ∈ xs, x.1 ≠ n) : (t.putAll xs).byte n = t.byte n := by
  induction xs generalizing t with
  | nil => rfl
  | cons x xs ih =>
    rw [List.forall_mem_cons] at h
    refine (ih (t := t.put x.1 x.2.1 x.2.2) h.2).trans ?_
    rw [byte_put, if_neg h.1.symm]

theorem marked_putAll_other (t : Tile) (h : ∀ x ∈ xs, x.1 ≠ n) : (t.putAll xs).Marked n ↔ t.Marked n := by
  induction xs generalizing t with
  | nil => rfl
  | cons x xs ih =>
    rw [List.forall_mem_cons] at h
    refine (ih (t := t.put x.1 x.2.1 x.2.2) h.2).trans ?_
    rw [marked_put, if_neg h.1.symm]

/-- A byte that is written, and always as `v`, is `v` after. -/
theorem putAll_of_mem (t : Tile) {v : Byte × Bool} (hin : ∃ x ∈ xs, x.1 = n) (hall : ∀ x ∈ xs, x.1 = n → x.2 = v) :
    (t.putAll xs).byte n = v.1 ∧ ((t.putAll xs).Marked n ↔ v.2 = true) := by
  induction xs generalizing t with
  | nil => obtain ⟨x, hx, -⟩ := hin; cases hx
  | cons x xs ih =>
    rw [List.forall_mem_cons] at hall
    obtain ⟨hhead, hrest⟩ := hall
    by_cases hlater : ∃ y ∈ xs, y.1 = n
    · exact ih (t := t.put x.1 x.2.1 x.2.2) hlater hrest
    · have hnone : ∀ y ∈ xs, y.1 ≠ n := fun y hy h => hlater ⟨y, hy, h⟩
      obtain ⟨y, hy, hyn⟩ := hin
      obtain rfl : y = x := (List.mem_cons.1 hy).resolve_right fun h => hnone y h hyn
      obtain rfl := hhead hyn
      subst hyn
      refine ⟨(byte_putAll_other (t := t.put y.1 y.2.1 y.2.2) hnone).trans ?_, (marked_putAll_other (t := t.put y.1 y.2.1 y.2.2) hnone).trans ?_⟩
      · rw [byte_put, if_pos rfl]
      · rw [marked_put, if_pos rfl]

theorem putAll_shape (t : Tile) (xs : List (Nat × Byte × Bool)) : (t.putAll xs).shape = t.shape := by
  induction xs generalizing t with
  | nil => rfl
  | cons x xs ih => exact (ih (t := t.put x.1 x.2.1 x.2.2)).trans (put_shape ..)

end

/-! ## Lists of lists of one length -/

section
variable {α β : Type} {l : List α} {f : α → List β} {m : Nat}

theorem length_flatMap_uniform (hf : ∀ x ∈ l, (f x).length = m) : (l.flatMap f).length = l.length * m := by
  induction l with
  | nil => simp
  | cons x l ih =>
    rw [List.forall_mem_cons] at hf
    rw [List.flatMap_cons, List.length_append, hf.1, ih hf.2, List.length_cons, Nat.succ_mul, Nat.add_comm]

theorem getElem?_flatMap_uniform (hf : ∀ x ∈ l, (f x).length = m) (r : Nat) {i : Nat} (hi : i < m) :
    (l.flatMap f)[r * m + i]? = l[r]?.bind fun x => (f x)[i]? := by
  induction l generalizing r with
  | nil => simp
  | cons x l ih =>
    rw [List.forall_mem_cons] at hf
    rw [List.flatMap_cons]
    cases r with
    | zero => rw [Nat.zero_mul, Nat.zero_add, List.getElem?_append_left (hf.1 ▸ hi)]; rfl
    | succ r =>
      rw [Nat.succ_mul, List.getElem?_append_right (by rw [hf.1]; omega), hf.1, show r * m + m + i - m = r * m + i by omega, ih hf.2]
      rfl

end

/-! ## The state's tile (R225) -/

/-- The team of the hart that steps has a tile `k`. -/
def State.HasTile (s : State) (k : Nat) : Prop := ∃ t, s.myTeam? = some t ∧ k < t.tiles.length

variable {s : State} {f g : Tile → Tile}

theorem modTile_eq {t : Team} (h : s.myTeam? = some t) (k : Nat) (f : Tile → Tile) :
    s.modTile k f = s.modTeam t.id fun t => { t with tiles := t.tiles.modify k f } := by
  rw [State.modTile, h]

theorem modTile_of_none (h : s.myTeam? = none) (k : Nat) (f : Tile → Tile) : s.modTile k f = s := by
  rw [State.modTile, h]

theorem myTeam?_modTile {t : Team} (h : s.myTeam? = some t) (k : Nat) (f : Tile → Tile) :
    (s.modTile k f).myTeam? = some { t with tiles := t.tiles.modify k f } := by
  rw [modTile_eq h]
  exact myTeam?_modTeam h fun _ => ⟨rfl, rfl⟩

theorem tile_modTile_same (h : s.HasTile k) (f : Tile → Tile) : (s.modTile k f).tile k = f (s.tile k) := by
  obtain ⟨t, ht, hk⟩ := h
  rw [tile_of_team (myTeam?_modTile ht k f), tile_of_team ht, List.getElem?_modify_eq, List.getElem?_eq_getElem hk]
  rfl

theorem tile_modTile_other (h : n ≠ k) (f : Tile → Tile) : (s.modTile k f).tile n = s.tile n := by
  cases ht : s.myTeam? with
  | none => rw [modTile_of_none ht]
  | some t =>
    rw [tile_of_team (myTeam?_modTile ht k f), tile_of_team ht, List.getElem?_modify]
    simp [h.symm]

/-- A change of a tile leaves everything but the teams. -/
theorem modTile_state (s : State) (k : Nat) (f : Tile → Tile) : s.modTile k f = { s with teams := (s.modTile k f).teams } := by
  unfold State.modTile
  split <;> rfl

@[simp] theorem modTile_hart (s : State) (k : Nat) (f : Tile → Tile) : (s.modTile k f).hart = s.hart := by rw [modTile_state]
@[simp] theorem modTile_mem (s : State) (k : Nat) (f : Tile → Tile) : (s.modTile k f).mem = s.mem := by rw [modTile_state]
@[simp] theorem modTile_ecc (s : State) (k : Nat) (f : Tile → Tile) : (s.modTile k f).ecc = s.ecc := by rw [modTile_state]

theorem team?_modTeam_map (m n : Nat) {f : Team → Team} (hf : ∀ x, (f x).id = x.id) :
    (s.modTeam m f).team? n = (s.team? n).map fun x => if x.id = m then f x else x := by
  have hsame : ((fun x : Team => x.id == n) ∘ fun x => if x.id = m then f x else x) = fun x => x.id == n := by
    funext x
    rw [Function.comp]
    split
    · rw [hf x]
    · rfl
  rw [State.team?, State.team?, State.modTeam_teams, List.find?_map, hsame]

/-- What a team holds besides its tiles stays as it is when a tile changes. -/
theorem team?_modTile {β : Type} {p : Team → β} (hp : ∀ x ts, p { x with tiles := ts } = p x) (s : State) (k : Nat) (f : Tile → Tile) (n : Nat) :
    ((s.modTile k f).team? n).map p = (s.team? n).map p := by
  cases ht : s.myTeam? with
  | none => rw [modTile_of_none ht]
  | some t =>
    rw [modTile_eq ht, team?_modTeam_map (f := fun t => { t with tiles := t.tiles.modify k f }) (hf := fun _ => rfl), Option.map_map]
    congr 1
    funext x
    rw [Function.comp]
    split
    · exact hp ..
    · rfl

theorem peek_pad (s : State) (n o : Nat) : s.peek (.pad n o) = (((s.team? n).map Team.bytes).map (Sparse.get zeroByte · o)).getD 0 := by
  rw [State.peek]
  split <;> simp [*]

theorem poisoned_pad (s : State) (n o : Nat) : s.poisoned (.pad n o) = (((s.team? n).map Team.pois).map (Sparse.get clearBit · (o / 8))).getD true := by
  rw [State.poisoned]
  split <;> simp [*]

/-- Tiles are no memory. -/
@[simp] theorem peek_modTile (s : State) (k : Nat) (f : Tile → Tile) (p : Place) : (s.modTile k f).peek p = s.peek p := by
  cases p with
  | phys a => rw [modTile_state]; rfl
  | pad n o => rw [peek_pad, peek_pad, team?_modTile fun _ _ => rfl]

@[simp] theorem poisoned_modTile (s : State) (k : Nat) (f : Tile → Tile) (p : Place) : (s.modTile k f).poisoned p = s.poisoned p := by
  cases p with
  | phys a => rw [modTile_state]; rfl
  | pad n o => rw [poisoned_pad, poisoned_pad, team?_modTile fun _ _ => rfl]

@[simp] theorem peekList_modTile (s : State) (k : Nat) (f : Tile → Tile) (p : Place) (n : Nat) : (s.modTile k f).peekList p n = s.peekList p n := by
  induction n generalizing p with
  | zero => rfl
  | succ n ih => rw [State.peekList, State.peekList, peek_modTile, ih]

/-! ## Operations on a tile alone (R240, R241) -/

theorem eccRegisters_of_none (h : s.regEcc = []) : s.eccRegisters = s := by
  unfold State.eccRegisters
  rw [h]

theorem eccAccess_of_none (h : s.ecc = []) (p : Place) (n : Nat) : s.eccAccess p n = s := by
  unfold State.eccAccess
  rw [h]

section
variable {op : MatOp} {w : Word} {j v : Nat} (hr : s.regEcc = [])
include hr

theorem performMatrix_shape {x : Word} (h : op.kind = .shape x) : s.performMatrix op = s.modTile op.tile fun t => { t with shape := some x } := by
  simp only [State.performMatrix, eccRegisters_of_none hr, h]

theorem performMatrix_zero (h : op.kind = .zero) :
    s.performMatrix op = s.modTile op.tile fun t => { t with data := [], scale := [], pois := [], dirty := true } := by
  simp only [State.performMatrix, eccRegisters_of_none hr, h]

theorem performMatrix_rowIn (h : op.kind = .rowIn j) (hw : (s.tile op.tile).shape = some w) : s.performMatrix op =
    s.modTile op.tile fun t => { t.putList (j * rowBytesOf w) ((op.vec.zip op.vpois).take (rowBytesOf w)) with dirty := true } := by
  simp only [State.performMatrix, eccRegisters_of_none hr, h, hw, Option.getD_some, shapeRowBytes_eq]

theorem performMatrix_rowOut (h : op.kind = .rowOut v j) (hw : (s.tile op.tile).shape = some w) : s.performMatrix op =
    s.modHart fun h => h.putVector v ((s.tile op.tile).getList (j * rowBytesOf w) (rowBytesOf w)) := by
  simp only [State.performMatrix, eccRegisters_of_none hr, h, hw, Option.getD_some, shapeRowBytes_eq]

theorem performMatrix_colIn (h : op.kind = .colIn j) (hw : (s.tile op.tile).shape = some w) : s.performMatrix op =
    s.modTile op.tile fun t => { (List.range (rowsOf w)).foldl (fun t r => t.putList (colByte w r j)
      (((op.vec.zip op.vpois).drop (r * shapeElem w)).take (shapeElem w))) t with dirty := true } := by
  simp only [State.performMatrix, eccRegisters_of_none hr, h, hw, Option.getD_some, shapeRows_eq]

theorem performMatrix_colOut (h : op.kind = .colOut v j) (hw : (s.tile op.tile).shape = some w) : s.performMatrix op =
    s.modHart fun h => h.putVector v ((List.range (rowsOf w)).flatMap fun r => (s.tile op.tile).getList (colByte w r j) (shapeElem w)) := by
  simp only [State.performMatrix, eccRegisters_of_none hr, h, hw, Option.getD_some, shapeRows_eq]

end

/-! ## Rows and columns (R231, R241) -/

section
variable {w : Word} {i j r : Nat}

@[simp] theorem getList_length (t : Tile) (k n : Nat) : (t.getList k n).length = n := by simp [Tile.getList]

theorem getList_getElem (t : Tile) (k n : Nat) (h : i < (t.getList k n).length) : (t.getList k n)[i] = (t.byte (k + i), t.poisoned (k + i)) := by
  simp [Tile.getList]

/-- A whole number of bytes to an element, except in MXFP4 (R230). -/
theorem tileBits_eq {fmt : Nat} (h : fmt ≠ 7) : tileBits fmt = 8 * ((tileBits fmt + 7) / 8) := by
  unfold tileBits
  split <;> first | rfl | contradiction

theorem tileBits_pos (fmt : Nat) : 0 < tileBits fmt := by
  unfold tileBits
  split <;> decide

theorem shapeElem_pos (w : Word) : 0 < shapeElem w := by
  have := tileBits_pos (shapeFmt w)
  rw [shapeElem]
  omega

theorem tileBits_shapeElem (h : fmtOf w ≠ 7) : tileBits (fmtOf w) = 8 * shapeElem w := tileBits_eq h

/-- A column lies inside each row. -/
theorem column_fits (hj : j < shapeCols w) (h7 : fmtOf w ≠ 7) : (j + 1) * shapeElem w ≤ rowBytesOf w := by
  have hpos := shapeElem_pos w
  rw [shapeCols, shapeFmt_eq, tileBits_shapeElem h7, Nat.mul_comm, shapeRowBytes_eq, Nat.mul_div_mul_left _ _ (by decide)] at hj
  exact (Nat.le_div_iff_mul_le hpos).1 hj

theorem colByte_eq (w : Word) (r j : Nat) : colByte w r j = r * rowBytesOf w + j * shapeElem w := rfl

theorem colByte_apart (hj : j < shapeCols w) (h7 : fmtOf w ≠ 7) {r r' : Nat} (hr : r < r') : colByte w r j + shapeElem w ≤ colByte w r' j := by
  have hfits := column_fits hj h7
  have hrow := Nat.mul_le_mul_right (rowBytesOf w) (Nat.succ_le_of_lt hr)
  rw [Nat.succ_mul] at hfits
  rw [Nat.succ_mul] at hrow
  rw [colByte_eq, colByte_eq]
  omega

variable {xs : List (Byte × Bool)}

/-- The bytes of a vector operand put into a column, one element to a row. -/
theorem byte_putColumn (t : Tile) (hj : j < shapeCols w) (h7 : fmtOf w ≠ 7) (hlen : xs.length = rowsOf w * shapeElem w) :
    let u := (List.range (rowsOf w)).foldl (fun t r => t.putList (colByte w r j) ((xs.drop (r * shapeElem w)).take (shapeElem w))) t
    (∀ r i (h : r * shapeElem w + i < xs.length), i < shapeElem w → u.byte (colByte w r j + i) = xs[r * shapeElem w + i].1) ∧
    (∀ n, (∀ r, r < rowsOf w → n < colByte w r j ∨ colByte w r j + shapeElem w ≤ n) → u.byte n = t.byte n) ∧ u.shape = t.shape := by
  have hle (r : Nat) : ((xs.drop (r * shapeElem w)).take (shapeElem w)).length ≤ shapeElem w := List.length_take_le ..
  obtain ⟨hin, hout, hshape⟩ := byte_foldl_putList (f := fun r => colByte w r j) (g := fun r => (xs.drop (r * shapeElem w)).take (shapeElem w)) t (rowsOf w)
    fun r r' h _ => Nat.le_trans (Nat.add_le_add_left (hle r) _) (colByte_apart hj h7 h)
  refine ⟨fun r i h hi => ?_, fun n hn => hout n fun r hr => (hn r hr).imp_right fun h => Nat.le_trans (Nat.add_le_add_left (hle r) _) h, hshape⟩
  have hr : r < rowsOf w := by
    by_contra hr
    have := Nat.mul_le_mul_right (shapeElem w) (Nat.not_lt.1 hr)
    omega
  rw [hin r i (by rw [List.length_take, List.length_drop]; omega) hr, List.getElem_take, List.getElem_drop]

/-- A column's bytes, one element to a row. -/
theorem column_getElem? (t : Tile) (w : Word) (j : Nat) (hr : r < rowsOf w) (hi : i < shapeElem w) :
    ((List.range (rowsOf w)).flatMap fun r => t.getList (colByte w r j) (shapeElem w))[r * shapeElem w + i]? =
      some (t.byte (colByte w r j + i), t.poisoned (colByte w r j + i)) := by
  rw [getElem?_flatMap_uniform (fun _ _ => getList_length ..) _ hi, List.getElem?_range hr, Option.bind_some,
    List.getElem?_eq_getElem (by rwa [getList_length]), getList_getElem]

theorem column_length (t : Tile) (w : Word) (j : Nat) :
    ((List.range (rowsOf w)).flatMap fun r => t.getList (colByte w r j) (shapeElem w)).length = rowsOf w * shapeElem w := by
  rw [length_flatMap_uniform fun _ _ => getList_length .., List.length_range]

end

/-! ## Vector registers written by an engine (R237, R241) -/

theorem putVrf_vrf (r : Regs) (a : Nat) (xs : List (Byte × Bool)) : (r.putVrf a xs).vrf = Sparse.putList zeroByte r.vrf a (xs.map Prod.fst) := by
  induction xs generalizing r a with
  | nil => rfl
  | cons x xs ih => exact ih ..

theorem vrf_putVector (h : Hart) (v : Nat) (xs : List (Byte × Bool)) :
    (h.putVector v xs).regs.vrf = Sparse.putList zeroByte h.regs.vrf (v * h.rb) (xs.map Prod.fst) := putVrf_vrf ..

theorem get_vrf_putVector (h : Hart) (v : Nat) {xs : List (Byte × Bool)} {i : Nat} {x : Byte × Bool} (hi : xs[i]? = some x) :
    Sparse.get zeroByte (h.putVector v xs).regs.vrf (v * h.rb + i) = x.1 := by
  obtain ⟨hlt, rfl⟩ := List.getElem?_eq_some_iff.1 hi
  rw [vrf_putVector, Sparse.get_putList, dif_pos (by rw [List.length_map]; omega)]
  simp

theorem get_vrf_putVector_other (h : Hart) (v : Nat) {xs : List (Byte × Bool)} {n : Nat} (hn : n < v * h.rb ∨ v * h.rb + xs.length ≤ n) :
    Sparse.get zeroByte (h.putVector v xs).regs.vrf n = Sparse.get zeroByte h.regs.vrf n := by
  rw [vrf_putVector, Sparse.get_putList, dif_neg (by rw [List.length_map]; omega)]

end Sys2Proof.Machine
end

section
/-!
Tiles loaded from memory (R242 to R244): the bytes that the pieces of a transfer name, and the shape that an image's header gives. With O40.
-/
namespace Sys2Proof.Machine
open Sys2Proof.Claims

variable {s : State} {op : MatOp} {k n : Nat} {f g : Tile → Tile} {image : Bool}

/-! ## One change of a tile after another -/

theorem modTile_modTile (s : State) (k : Nat) (f g : Tile → Tile) : (s.modTile k f).modTile k g = s.modTile k fun t => g (f t) := by
  cases ht : s.myTeam? with
  | none => rw [modTile_of_none ht, modTile_of_none ht, modTile_of_none ht]
  | some t =>
    rw [modTile_eq (myTeam?_modTile ht k f), modTile_eq ht, modTile_eq ht, State.modTeam, State.modTeam, State.modTeam, List.map_map]
    congr 1
    refine List.map_congr_left fun x _ => ?_
    rw [Function.comp]
    split
    · dsimp only
      rw [List.modify_modify_eq]
      rfl
    · rfl

theorem modTile_id (s : State) (k : Nat) : s.modTile k (fun t => t) = s := by
  cases ht : s.myTeam? with
  | none => rw [modTile_of_none ht]
  | some t =>
    have hsame (x : Team) : (if x.id = t.id then { x with tiles := x.tiles.modify k fun t => t } else x) = x := by
      rw [show (fun t : Tile => t) = id from rfl, List.modify_id, ite_self]
    rw [modTile_eq ht, State.modTeam, funext hsame, List.map_id']

/-! ## Pieces loaded (R243, R244) -/

/-- Where byte `k` of a transfer stands in the tile: of an image as R244 lays it out, of rows where it says. -/
def tileByte (image : Bool) (k : Nat) : Option Nat := if image then imageByte k else some k

theorem tileByte_injective {a b : Nat} (ha : tileByte image a = some n) (hb : tileByte image b = some n) : a = b := by
  unfold tileByte imageByte at ha hb
  grind

theorem tileByte_image (hk : 0x100 ≤ k ∧ k < 0x8100 ∧ n = k - 0x100 ∨ 0x8100 ≤ k ∧ n = k - 0x8100 + 0x8000) : tileByte true k = some n := by
  unfold tileByte imageByte
  grind

/-- The bytes of a tile that a piece of memory gives, with the marks of their words. -/
def State.loadedBytes (s : State) (image : Bool) (p : Nat × Place × Nat) : List (Nat × Byte × Bool) :=
  (List.range p.2.2).filterMap fun i => (tileByte image (p.1 + i)).map fun k => (k, s.peek (p.2.1.add i), s.poisoned (p.2.1.add i))

theorem loadedBytes_modTile (s : State) (k : Nat) (f : Tile → Tile) : (s.modTile k f).loadedBytes = s.loadedBytes := by
  funext image p
  simp [State.loadedBytes]

theorem loadPiece_eq (he : s.ecc = []) (op : MatOp) (image : Bool) (p : Nat × Place × Nat) :
    s.loadPiece op image p = s.modTile op.tile fun t => t.putAll (s.loadedBytes image p) := by
  have key (is : List Nat) (f : Tile → Tile) :
      is.foldl (fun s i => match tileByte image (p.1 + i) with
          | none => s
          | some k => s.modTile op.tile fun t => t.put k (s.peek (p.2.1.add i)) (s.poisoned (p.2.1.add i))) (s.modTile op.tile f) =
        s.modTile op.tile fun t => (f t).putAll (is.filterMap fun i => (tileByte image (p.1 + i)).map fun k => (k, s.peek (p.2.1.add i), s.poisoned (p.2.1.add i))) := by
    induction is generalizing f with
    | nil => rfl
    | cons i is ih =>
      rw [List.foldl_cons, List.filterMap_cons]
      cases tileByte image (p.1 + i) with
      | none => exact ih f
      | some k =>
        dsimp only [Option.map_some]
        rw [modTile_modTile, peek_modTile, poisoned_modTile]
        exact ih _
  have := key (List.range p.2.2) fun t => t
  rw [modTile_id] at this
  rw [State.loadPiece, eccAccess_of_none he]
  exact this

theorem loadPieces_eq (he : s.ecc = []) (op : MatOp) (image : Bool) (ps : List (Nat × Place × Nat)) :
    ps.foldl (fun s p => s.loadPiece op image p) s = s.modTile op.tile fun t => t.putAll (ps.flatMap (s.loadedBytes image)) := by
  have key (f : Tile → Tile) : ps.foldl (fun s p => s.loadPiece op image p) (s.modTile op.tile f) =
      s.modTile op.tile fun t => (f t).putAll (ps.flatMap (s.loadedBytes image)) := by
    induction ps generalizing f with
    | nil => rfl
    | cons p ps ih =>
      rw [List.foldl_cons, loadPiece_eq (by rwa [modTile_ecc]), loadedBytes_modTile, modTile_modTile, ih, List.flatMap_cons]
      simp only [putAll_append]
  have := key fun t => t
  rwa [modTile_id] at this

/-- What the pieces of a transfer load. -/
def State.tileLoads (s : State) (op : MatOp) (image : Bool) : List (Nat × Byte × Bool) := op.pieces.flatMap (s.loadedBytes image)

theorem mem_tileLoads {x : Nat × Byte × Bool} : x ∈ s.tileLoads op image ↔ ∃ p ∈ op.pieces, ∃ i, i < p.2.2 ∧ tileByte image (p.1 + i) = some x.1 ∧
    x.2 = (s.peek (p.2.1.add i), s.poisoned (p.2.1.add i)) := by
  obtain ⟨k, v⟩ := x
  simp only [State.tileLoads, State.loadedBytes, List.mem_flatMap, List.mem_filterMap, List.mem_range, Option.map_eq_some_iff, Prod.mk.injEq]
  refine exists_congr fun p => and_congr_right fun _ => exists_congr fun i => and_congr_right fun _ => ?_
  constructor
  · rintro ⟨_, hk, rfl, hv⟩
    exact ⟨hk, hv.symm⟩
  · rintro ⟨hk, hv⟩
    exact ⟨k, hk, rfl, hv.symm⟩

theorem piece_of_overlap (h : PiecesApart op) {p q : Nat × Place × Nat} (hp : p ∈ op.pieces) (hq : q ∈ op.pieces) {i j : Nat}
    (hi : i < p.2.2) (hj : j < q.2.2) (hij : p.1 + i = q.1 + j) : p = q := by
  by_contra hne
  have : Std.Symm fun p q : Nat × Place × Nat => p.1 + p.2.2 ≤ q.1 ∨ q.1 + q.2.2 ≤ p.1 := ⟨fun _ _ h => h.symm⟩
  have := List.Pairwise.forall h hp hq hne
  omega

/-- A byte that a piece names holds the memory's byte, and its mark, once the pieces are loaded. -/
theorem loaded_of_piece (h : PiecesApart op) (t : Tile) {p : Nat × Place × Nat} (hp : p ∈ op.pieces) {i : Nat} (hi : i < p.2.2)
    (hk : tileByte image (p.1 + i) = some k) :
    (t.putAll (s.tileLoads op image)).byte k = s.peek (p.2.1.add i) ∧
      (s.poisoned (p.2.1.add i) = true → (t.putAll (s.tileLoads op image)).poisoned k = true) := by
  obtain ⟨hbyte, hmark⟩ := putAll_of_mem (xs := s.tileLoads op image) t ⟨(k, _), mem_tileLoads.2 ⟨p, hp, i, hi, hk, rfl⟩, rfl⟩ fun x hx hxk => by
    obtain ⟨q, hq, j, hj, hxj, hv⟩ := mem_tileLoads.1 hx
    have hij : p.1 + i = q.1 + j := tileByte_injective hk (hxj.trans (congrArg some hxk))
    obtain rfl := piece_of_overlap h hp hq hi hj hij
    obtain rfl : i = j := by omega
    exact hv
  exact ⟨hbyte, fun hp => poisoned_of_marked (hmark.2 hp)⟩

theorem loaded_other (t : Tile) (hk : ∀ p ∈ op.pieces, k < p.1 ∨ p.1 + p.2.2 ≤ k) : (t.putAll (s.tileLoads op false)).byte k = t.byte k := by
  refine byte_putAll_other t fun x hx hxk => ?_
  obtain ⟨p, hp, i, hi, hat, -⟩ := mem_tileLoads.1 hx
  obtain rfl : p.1 + i = k := (Option.some.inj hat).trans hxk
  have := hk p hp
  omega

/-! ## The header of an image (R244) -/

theorem natToBytes_eq (x n : Nat) : natToBytes x n = (List.range n).map fun k => BitVec.ofNat 8 (x / 256 ^ k) := by
  induction n generalizing x with
  | zero => rfl
  | succ n ih =>
    rw [natToBytes, ih, List.range_succ_eq_map, List.map_cons, List.map_map, Nat.pow_zero, Nat.div_one]
    congr 1
    refine List.map_congr_left fun k _ => ?_
    rw [Function.comp, Nat.div_div_eq_div_mul, Nat.pow_succ']

theorem peekList_eq (s : State) (p : Place) (n : Nat) : s.peekList p n = (List.range n).map fun k => s.peek (p.add k) := by
  induction n generalizing p with
  | zero => rfl
  | succ n ih =>
    rw [State.peekList, ih, List.range_succ_eq_map, List.map_cons, List.map_map, Place.add_zero]
    congr 1
    refine List.map_congr_left fun k _ => ?_
    rw [Function.comp, Place.add_add, Nat.add_comm]

theorem headerShape_modTile (s : State) (k : Nat) (f : Tile → Tile) (p : Place) : (s.modTile k f).headerShape p = s.headerShape p := by
  simp [State.headerShape]

/-- The header's word is the shape where it is legal and the rest of the header is 0. -/
theorem headerShape_of_word {p : Place} {x : Word} (hx : ∀ n, n < 8 → s.peek (p.add n) = BitVec.ofNat 8 (x.toNat / 256 ^ n)) :
    let ok := shapeLegal x = true ∧ ∀ n, 8 ≤ n → n < 256 → s.peek (p.add n) = 0
    (ok → s.headerShape p = some x) ∧ (¬ ok → s.headerShape p = none) := by
  have hword : BitVec.ofNat 64 (bytesToNat (s.peekList p 8)) = x := by
    rw [peekList_eq, List.map_congr_left fun n hn => hx n (List.mem_range.1 hn), ← natToBytes_eq, bytesToNat_natToBytes, Nat.mod_eq_of_lt x.isLt]
    rw [BitVec.ofNat_toNat, BitVec.setWidth_eq]
  have hrest : (s.peekList (p.add 8) 248).all (· == 0) = true ↔ ∀ n, 8 ≤ n → n < 256 → s.peek (p.add n) = 0 := by
    simp only [peekList_eq, List.all_map, List.all_eq_true, List.mem_range, Function.comp, Place.add_add, beq_iff_eq]
    refine ⟨fun h n h1 h2 => ?_, fun h n hn => h _ (by omega) (by omega)⟩
    rw [← h (n - 8) (by omega), Nat.add_sub_cancel' h1]
  have hshape : s.headerShape p = if shapeLegal x && (s.peekList (p.add 8) 248).all (· == 0) then some x else none := by
    rw [State.headerShape, hword]
  have hok : (shapeLegal x && (s.peekList (p.add 8) 248).all (· == 0)) = true ↔ shapeLegal x = true ∧ ∀ n, 8 ≤ n → n < 256 → s.peek (p.add n) = 0 := by
    rw [Bool.and_eq_true, hrest]
  exact ⟨fun h => hshape.trans (if_pos (hok.2 h)), fun h => hshape.trans (if_neg (mt hok.1 h))⟩

/-- The shape of a tile once the pieces of its image are loaded: the header's, where the first piece begins with it. -/
def State.loadedShape (s : State) (op : MatOp) (old : Option Word) : Option Word :=
  match op.pieces.head? with
  | some (0, p, _) => s.headerShape p
  | _ => old

section
variable (hr : s.regEcc = []) (he : s.ecc = [])
include hr he

theorem performMatrix_load (h : op.kind = .load false) : s.performMatrix op =
    s.modTile op.tile fun t => { t.putAll (s.tileLoads op false) with dirty := true } := by
  simp only [State.performMatrix, eccRegisters_of_none hr, h, loadPieces_eq he, modTile_modTile]
  rfl

theorem performMatrix_image (h : op.kind = .load true) : s.performMatrix op =
    s.modTile op.tile fun t => { t.putAll (s.tileLoads op true) with shape := s.loadedShape op t.shape, dirty := true } := by
  simp only [State.performMatrix, eccRegisters_of_none hr, h, loadPieces_eq he]
  unfold State.loadedShape
  split
  · rename_i p _ heq
    simp only [heq, modTile_modTile, headerShape_modTile]
    rfl
  · rename_i hne
    split
    · rename_i p _ heq
      exact absurd heq (hne p _ rfl)
    · rw [modTile_modTile]
      congr 1
      funext t
      rw [← putAll_shape t]
      rfl

end

end Sys2Proof.Machine
end

section
/-!
What stores performed and events filed leave of every tile (R306, R434). With O40 and O41.
-/
namespace Sys2Proof.Machine
open Sys2Proof.Claims

variable {s t u : State} {k n : Nat}

/-! ## Teams and their tiles -/

/-- Which team this is, where it stands, and its tiles. -/
def Team.tiled (x : Team) : Nat × Nat × Nat × List Tile := (x.id, x.crew, x.slot, x.tiles)

/-- The teams are as they were, but for their scratchpads and their program times. -/
def KeepsTeams (s t : State) : Prop := t.teams.map Team.tiled = s.teams.map Team.tiled

theorem KeepsTeams.of_teams (h : t.teams = s.teams) : KeepsTeams s t := congrArg (List.map Team.tiled) h

theorem KeepsTeams.trans (h : KeepsTeams s t) (k : KeepsTeams t u) : KeepsTeams s u := Eq.trans k h

theorem keepsTeams_modTeam (s : State) (n : Nat) {f : Team → Team} (hf : ∀ x, (f x).tiled = x.tiled) : KeepsTeams s (s.modTeam n f) := by
  rw [KeepsTeams, State.modTeam_teams, List.map_map]
  refine List.map_congr_left fun x _ => ?_
  rw [Function.comp]
  split
  · exact hf x
  · rfl

theorem myTeam?_tiled (s : State) : s.myTeam?.map Team.tiled =
    (s.teams.map Team.tiled).find? fun x => x.2.1 == s.hart.crew && x.2.2.1 == s.hart.slot := by
  rw [List.find?_map]
  rfl

/-- Tiles stay where the teams keep theirs and the harts stay where they are. -/
theorem KeepsTeams.tile (h : KeepsTeams s t) (hh : KeepsHarts s t) (k : Nat) : t.tile k = s.tile k := by
  have hcrew : t.hart.crew = s.hart.crew := (congrArg Hart.crew hh.hart :)
  have hslot : t.hart.slot = s.hart.slot := (congrArg Hart.slot hh.hart :)
  have hteam : t.myTeam?.map Team.tiled = s.myTeam?.map Team.tiled := by
    rw [myTeam?_tiled, myTeam?_tiled, hcrew, hslot, h]
  have htile (v : State) : v.tile k = (((v.myTeam?.map Team.tiled).bind fun x => x.2.2.2[k]?)).getD Tile.empty := by
    rw [State.tile, Option.bind_map]
    rfl
  rw [htile, htile, hteam]

/-! ## Stores performed -/

theorem keepsTeams_wakeLines (s : State) (p : Place) (n : Nat) : KeepsTeams s (s.wakeLines p n) := .of_teams rfl

theorem deviceWrite_teams (s : State) (off : Nat) (v : Word) : (s.deviceWrite off v).teams = s.teams := by
  unfold State.deviceWrite
  split
  · split <;> rfl
  · repeat' split
    all_goals rfl

theorem keepsTeams_poke (s : State) (p : Place) (data : List Byte) (tag : Bool) (owner : Nat) : KeepsTeams s (s.poke p data tag owner) := by
  unfold State.poke
  extract_lets n t
  split
  · rfl
  · refine .trans ?_ (keepsTeams_wakeLines t p n)
    cases p with
    | pad m o => exact keepsTeams_modTeam s m fun _ => rfl
    | phys a =>
      change KeepsTeams s (if inScan a then _ else _)
      split
      · exact .of_teams (deviceWrite_teams ..)
      · rfl

theorem keepsTeams_setMemBit (s : State) (owner a bit : Nat) : KeepsTeams s (s.setMemBit owner a bit) := .of_teams rfl

theorem keepsTeams_setDirty (s : State) (owner : Nat) (dirty : List (Nat × Nat)) : KeepsTeams s (s.setDirty owner dirty) := by
  induction dirty generalizing s with
  | nil => rfl
  | cons d ds ih => exact (keepsTeams_setMemBit s owner d.1 d.2).trans (ih _)

theorem keepsTeams_keepOld (s : State) (w : Nat) (p : Place) (data : List Byte) : KeepsTeams s (s.keepOld w p data) := by
  unfold State.keepOld
  split <;> rfl

theorem keepsTeams_stampStore (s : State) (w : Nat) (p : Place) : KeepsTeams s (s.stampStore w p) := by
  unfold State.stampStore
  split
  · split
    · rfl
    · exact keepsTeams_modTeam _ _ fun _ => rfl
  · rfl

theorem keepsTeams_readyFor (s : State) (w : Nat) (q : Pending) : KeepsTeams s (s.readyFor w q) :=
  have hforget (u : State) (sel : Old → Bool) : KeepsTeams u (u.forgetBy w sel) := .of_teams rfl
  (keepsTeams_setDirty ..).trans <| (hforget _ _).trans <| (keepsTeams_keepOld ..).trans (keepsTeams_stampStore ..)

theorem keepsTeams_performOne (s : State) (w : Nat) (q : Pending) : KeepsTeams s (s.performOne w q) := by
  cases h : s.linkLost q.place with
  | true => rw [performOne_of_linkLost h]; rfl
  | false => rw [performOne_of_linked h]; exact (keepsTeams_readyFor ..).trans (keepsTeams_poke ..)

theorem keepsTeams_performAfter (fuel : Nat) (s : State) (x : Nat × Pending) : KeepsTeams s (State.performAfter fuel s x) := by
  induction fuel generalizing s x with
  | zero => exact keepsTeams_performOne ..
  | succ m ih =>
    have hfold (l : List (Nat × Pending)) (v : State) : KeepsTeams v (l.foldl (State.performAfter m) v) := by
      induction l generalizing v with
      | nil => rfl
      | cons y l hl => exact (ih v y).trans (hl _)
    unfold State.performAfter
    split
    · exact keepsTeams_performOne ..
    · refine .trans (.trans ?_ (hfold _ _)) (keepsTeams_performOne ..)
      exact .of_teams rfl

theorem keepsTeams_perform (s : State) (q : Pending) : KeepsTeams s (s.perform q) := keepsTeams_performAfter ..

/-! ## Events filed -/

/-- What holds of a state still holds after each step of filing an event in a ring (R434). -/
structure KeptByFiling (P : State → Prop) : Prop where
  setMemBit : ∀ s owner a bit, P s → P (s.setMemBit owner a bit)
  perform : ∀ s q, P s → P (s.perform q)
  unfiled : ∀ s l, P s → P { s with unfiled := l }
  holdCtx : ∀ s n, P s → P (s.holdCtx n)

/-- An attempt leads to states of which `P` holds, whether it fails or not; `at'` is the state in its result. -/
def AttemptsTo {α : Type} (P : State → Prop) (at' : α → State) (r : Except State α) : Prop := (∀ a, r = .ok a → P (at' a)) ∧ ∀ t, r = .error t → P t

namespace AttemptsTo

variable {α β : Type} {P : State → Prop} {f : α → State} {g : β → State}

theorem ok {a : α} (h : P (f a)) : AttemptsTo P f (.ok a) := ⟨by rintro _ ⟨⟩; exact h, by rintro _ ⟨⟩⟩

theorem error {t : State} (h : P t) : AttemptsTo P f (.error t) := ⟨by rintro _ ⟨⟩, by rintro _ ⟨⟩; exact h⟩

theorem bind {r : Except State α} {k : α → Except State β} (hr : AttemptsTo P f r) (hk : ∀ a, P (f a) → AttemptsTo P g (k a)) : AttemptsTo P g (r >>= k) := by
  cases r with
  | error t => exact error (hr.2 t rfl)
  | ok a => exact hk a (hr.1 a rfl)

theorem map {r : Except State α} {k : α → β} (hr : AttemptsTo P f r) (hk : ∀ a, P (f a) → P (g (k a))) : AttemptsTo P g (r.map k) := by
  cases r with
  | error t => exact error (hr.2 t rfl)
  | ok a => exact ok (hk a (hr.1 a rfl))

end AttemptsTo

namespace KeptByFiling

variable {P : State → Prop} (hP : KeptByFiling P)
include hP

theorem setAccessed (owner : Nat) (ls : List Leaf) (h : P s) : P (s.setAccessed owner ls).1 := by
  induction ls generalizing s with
  | nil => exact h
  | cons l rest ih =>
    unfold State.setAccessed
    split
    · exact ih h
    · extract_lets byte
      split
      · exact ih h
      · split
        · exact h
        · exact ih (hP.setMemBit _ _ _ _ h)

theorem deviceReach (c : Nat) (write plain : Bool) (x : Except XFail Xl) (h : P s) : AttemptsTo P (·.1) (s.deviceReach c write plain x) := by
  unfold State.deviceReach
  split
  · exact .error h
  · rename_i x
    have key := hP.setAccessed c x.leaves h
    split
    · rename_i t _ ht; rw [ht] at key; exact .error key
    · rename_i t ht
      rw [ht] at key
      split
      · exact .error key
      · split
        · exact .error key
        · exact .ok key

theorem ctxWord (c va : Nat) (plain : Bool) (h : P s) : AttemptsTo P (·.1) (s.ctxWord c va plain) :=
  .map (f := (·.1)) (.map (f := (·.1)) (hP.deviceReach _ _ _ _ h) fun _ h => h) fun _ h => h

theorem ctxPut (c va v : Nat) (plain : Bool) (h : P s) : AttemptsTo P id (s.ctxPut c va v plain) :=
  .map (f := (·.1)) (hP.deviceReach _ _ _ _ h) fun _ h => hP.perform _ _ h

theorem ringPut (c : Ctx) (code addr src : Nat) (h : P s) : AttemptsTo P id (s.ringPut c code addr src) := by
  have word (v : State) (va : Nat) (h : P v) : AttemptsTo P (·.1) (v.ctxWord c.num va) := hP.ctxWord _ _ _ h
  have put (v : State) (va x : Nat) (h : P v) : AttemptsTo P id (v.ctxPut c.num va x) := hP.ctxPut _ _ _ _ h
  unfold State.ringPut
  extract_lets base size rest
  have hrest (u : State) (h : P u) : AttemptsTo P id (rest u) := by
    refine (word _ _ h).bind fun _ h => ?_
    dsimp only
    split
    · exact .ok h
    · refine (word _ _ h).bind fun _ h => (word _ _ h).bind fun _ h => ?_
      split
      · exact (put _ _ _ h).bind fun _ h => (put _ _ _ h).bind fun _ h => (put _ _ _ h).bind fun _ h => (put _ _ _ h).bind fun _ h => put _ _ _ h
      · exact (word _ _ h).bind fun _ h => put _ _ _ h
  refine (word _ _ h).bind fun _ h => (put _ _ _ h).bind fun _ h => (word _ _ h).bind fun _ h => ?_
  dsimp only
  split
  · exact .bind (f := id) (.ok h) hrest
  · exact (put _ _ _ h).bind hrest

theorem fileIn (fuel m code addr src : Nat) (h : P s) : P (s.fileIn fuel m code addr src) := by
  induction fuel generalizing s m code addr with
  | zero => exact h
  | succ k ih =>
    unfold State.fileIn
    split
    · exact h
    · rename_i c _
      split
      · exact hP.unfiled _ _ h
      · extract_lets fatal t
        have put := hP.ringPut c code addr src h
        have ht : P t := by
          unfold t
          split
          · exact put.1 _ ‹_›
          · split
            · exact ih _ _ _ (put.2 _ ‹_›)
            · exact put.2 _ ‹_›
        split
        · split
          · exact ih _ _ _ (hP.holdCtx _ _ ht)
          · exact ht
        · exact ht

theorem fileEvent (m code addr src : Nat) (h : P s) : P (s.fileEvent m code addr src) := by
  unfold State.fileEvent
  split <;> exact hP.fileIn _ _ _ _ _ h

end KeptByFiling

theorem keepsTeams_fileEvent (s : State) (m code addr src : Nat) : KeepsTeams s (s.fileEvent m code addr src) :=
  KeptByFiling.fileEvent (P := KeepsTeams s)
    { setMemBit := fun t owner a bit h => h.trans (keepsTeams_setMemBit t owner a bit)
      perform := fun t q h => h.trans (keepsTeams_perform t q)
      unfiled := fun _ _ h => h.trans (.of_teams rfl)
      holdCtx := fun _ _ h => h.trans (.of_teams rfl) } m code addr src rfl

end Sys2Proof.Machine
end

section
/-!
Tiles stored to memory (R242 to R244, R306): what the stores of a transfer leave of memory, of its marks and of the tile. With O40.
-/
namespace Sys2Proof.Machine
open Sys2Proof.Claims

variable {s t u : State} {op : MatOp} {k n : Nat} {image : Bool} {p x : Place}

/-! ## Memory that stays as it is -/

/-- Memory, the scratchpads and their marks are as they were. -/
structure SameMemory (s t : State) : Prop where
  mem : t.mem = s.mem
  tags : t.tags = s.tags
  pois : t.pois = s.pois
  pkg : t.pkg = s.pkg
  bytes : ∀ n, (t.team? n).map Team.bytes = (s.team? n).map Team.bytes
  marks : ∀ n, (t.team? n).map Team.pois = (s.team? n).map Team.pois

theorem map_team?_modTeam {β : Type} {f : Team → Team} {q : Team → β} (hf : ∀ x, (f x).id = x.id) (hq : ∀ x, q (f x) = q x) (m n : Nat) :
    ((s.modTeam m f).team? n).map q = (s.team? n).map q := by
  rw [team?_modTeam_map _ _ hf, Option.map_map]
  congr 1
  funext x
  rw [Function.comp]
  split
  · exact hq x
  · rfl

namespace SameMemory

theorem refl (s : State) : SameMemory s s := ⟨rfl, rfl, rfl, rfl, fun _ => rfl, fun _ => rfl⟩

theorem trans (h : SameMemory s t) (k : SameMemory t u) : SameMemory s u :=
  ⟨k.mem.trans h.mem, k.tags.trans h.tags, k.pois.trans h.pois, k.pkg.trans h.pkg, fun n => (k.bytes n).trans (h.bytes n),
    fun n => (k.marks n).trans (h.marks n)⟩

theorem peek (h : SameMemory s t) (x : Place) : t.peek x = s.peek x := by
  cases x with
  | phys a => rw [State.peek, State.peek, h.pkg, h.mem]
  | pad m o => rw [peek_pad, peek_pad, h.bytes]

theorem poisoned (h : SameMemory s t) (x : Place) : t.poisoned x = s.poisoned x := by
  cases x with
  | phys a => rw [State.poisoned, State.poisoned, h.pois]
  | pad m o => rw [poisoned_pad, poisoned_pad, h.marks]

theorem tagAt (h : SameMemory s t) (x : Place) : t.tagAt x = s.tagAt x := by
  cases x with
  | phys a => rw [State.tagAt, State.tagAt, h.tags]
  | pad m o => rfl

end SameMemory

theorem sameMemory_wakeLines (s : State) (p : Place) (n : Nat) : SameMemory s (s.wakeLines p n) := ⟨rfl, rfl, rfl, rfl, fun _ => rfl, fun _ => rfl⟩

theorem sameMemory_readyFor (w : Nat) {q : Pending} (hq : q.dirty = []) : SameMemory s (s.readyFor w q) := by
  have hkeep (v : State) (p : Place) (data : List Byte) : SameMemory v (v.keepOld w p data) := by
    unfold State.keepOld
    split <;> exact ⟨rfl, rfl, rfl, rfl, fun _ => rfl, fun _ => rfl⟩
  have hadvance (v : State) (t : Team) (at' : Nat) : SameMemory v (v.advance t at') :=
    have same {β : Type} (q : Team → β) (hq : ∀ x l, q { x with lead := l } = q x) (n : Nat) : ((v.advance t at').team? n).map q = (v.team? n).map q :=
      map_team?_modTeam (f := fun t => { t with lead := max t.lead (at' - v.pkg.cycle / 256) }) (fun _ => rfl) (fun x => hq x _) _ _
    ⟨rfl, rfl, rfl, rfl, same _ fun _ _ => rfl, same _ fun _ _ => rfl⟩
  have hstamp (v : State) (p : Place) : SameMemory v (v.stampStore w p) := by
    unfold State.stampStore
    split
    · split
      · exact .refl v
      · refine .trans ?_ (hadvance ..)
        exact ⟨rfl, rfl, rfl, rfl, fun _ => rfl, fun _ => rfl⟩
    · exact .refl v
  have hforget (v : State) (sel : Old → Bool) : SameMemory v (v.forgetBy w sel) := ⟨rfl, rfl, rfl, rfl, fun _ => rfl, fun _ => rfl⟩
  rw [State.readyFor, hq]
  exact (hforget s _).trans ((hkeep _ _ _).trans (hstamp _ _))

/-! ## Bytes stored -/

/-- A place is none of `n` bytes from `p` on. -/
def Place.Outside (x p : Place) (n : Nat) : Prop := ∀ i, i < n → p.add i ≠ x

theorem Place.outside_phys {a b : Nat} (h : (Place.phys b).Outside (.phys a) n) : b < a ∨ a + n ≤ b := by
  by_contra hb
  exact h (b - a) (by omega) (by rw [Place.add, Nat.add_sub_cancel' (by omega)])

theorem Place.outside_pad {m a b : Nat} (h : (Place.pad m b).Outside (.pad m a) n) : b < a ∨ a + n ≤ b := by
  by_contra hb
  exact h (b - a) (by omega) (by rw [Place.add, Nat.add_sub_cancel' (by omega)])

/-- A store cleans no word but those that it covers (R314). -/
theorem get_clearCovered_of_outside (m : Sparse Bool) {a b : Nat} (h : b < a ∨ a + n ≤ b) :
    Sparse.get clearBit (clearCovered m a n) (b / 8) = Sparse.get clearBit m (b / 8) := by
  unfold clearCovered
  dsimp only
  rw [get_setMarks, if_neg (by omega)]

theorem team?_modTeam_ne {m : Nat} (h : n ≠ m) {f : Team → Team} (hf : ∀ x, (f x).id = x.id) : (s.modTeam m f).team? n = s.team? n := by
  rw [team?_modTeam_map _ _ hf]
  cases hx : s.team? n with
  | none => rfl
  | some x =>
    have hid : x.id = n := by simpa using List.find?_some hx
    rw [Option.map_some, if_neg (hid ▸ h)]

/-- `n` bytes from `p` on are memory or lie in the scratchpad of a team, and no host link under them is lost. -/
structure State.Storable (s : State) (p : Place) (n : Nat) : Prop where
  link : s.linkLost p = false
  offScan : ∀ i, i < n → (p.add i).OffScan
  team : ∀ m o, p = .pad m o → (s.team? m).isSome = true

/-- What storing bytes at a place, some of them as poisoned, leaves. -/
structure StoresBytes (s u : State) (p : Place) (xs : List (Byte × Bool)) : Prop where
  peek : ∀ i (h : i < xs.length), u.peek (p.add i) = xs[i].1
  peek_other : ∀ x : Place, x.Outside p xs.length → u.peek x = s.peek x
  tag : ∀ i, i < xs.length → u.tagAt (p.add i) = false
  tag_false : ∀ x, s.tagAt x = false → u.tagAt x = false
  poisoned : ∀ i (h : i < xs.length), xs[i].2 = true → u.poisoned (p.add i) = true
  poisoned_other : ∀ x : Place, x.Outside p xs.length → s.poisoned x = true → u.poisoned x = true
  mem_other : ∀ a, (Place.phys a).Outside p xs.length → Memory.read u.mem a = Memory.read s.mem a
  stores : PerformsStores s u
  teams : KeepsTeams s u
  harts : KeepsHarts s u

section
variable {data : List Byte} {owner : Nat}

theorem poke_of_nil (tag : Bool) (h : data.length = 0) : s.poke p data tag owner = s := if_pos h

theorem poke_phys {a : Nat} (tag : Bool) (hn : data.length ≠ 0) (ha : inScan a = false) : s.poke (.phys a) data tag owner =
    ({ s with
      mem := Memory.writeList s.mem a data
      tags := setMarks s.tags (a / 8) tag ((a + data.length - 1) / 8 + 1 - a / 8)
      pois := clearCovered s.pois a data.length
      owner := setOwners s.owner (a / 256) owner ((a + data.length - 1) / 256 + 1 - a / 256) } : State).wakeLines (.phys a) data.length := by
  unfold State.poke
  simp only [hn, if_false, ha, Bool.false_eq_true]

theorem poke_pad {m o : Nat} (tag : Bool) (hn : data.length ≠ 0) : s.poke (.pad m o) data tag owner =
    (s.modTeam m fun x => x.written o data).wakeLines (.pad m o) data.length := by
  unfold State.poke
  simp only [hn, if_false]
  rfl

/-- A store changes no byte and cleans no word besides its own (R306, R314). -/
theorem poke_other (hn : data.length ≠ 0) (hp : p.OffScan) (hx : x.Outside p data.length) :
    (s.poke p data false owner).peek x = s.peek x ∧ (s.poke p data false owner).poisoned x = s.poisoned x := by
  cases p with
  | phys a =>
    rw [poke_phys _ hn (hp a rfl)]
    cases x with
    | pad m o => exact ⟨rfl, rfl⟩
    | phys b =>
      refine ⟨ite_congr rfl (fun _ => rfl) fun _ => ?_, get_clearCovered_of_outside _ (Place.outside_phys hx)⟩
      exact Memory.read_writeList_other _ _ (Place.outside_phys hx)
  | pad m o =>
    rw [poke_pad _ hn]
    cases x with
    | phys b => exact ⟨rfl, rfl⟩
    | pad m' b =>
      rw [(sameMemory_wakeLines ..).peek, (sameMemory_wakeLines ..).poisoned, peek_pad, peek_pad, poisoned_pad, poisoned_pad]
      by_cases hm : m' = m
      · subst hm
        rw [team?_modTeam _ (f := fun x => x.written o data) fun _ => rfl]
        cases s.team? m' with
        | none => exact ⟨rfl, rfl⟩
        | some y =>
          refine ⟨?_, get_clearCovered_of_outside _ (Place.outside_pad hx)⟩
          have := Place.outside_pad hx
          refine (Sparse.get_putList ..).trans ?_
          rw [dif_neg (by omega)]
          rfl
      · rw [team?_modTeam_ne hm (f := fun x => x.written o data) fun _ => rfl]
        exact ⟨rfl, rfl⟩

theorem tagAt_poke (hn : data.length ≠ 0) (hp : p.OffScan) :
    (∀ i, i < data.length → (s.poke p data false owner).tagAt (p.add i) = false) ∧
    ∀ x, s.tagAt x = false → (s.poke p data false owner).tagAt x = false := by
  cases p with
  | phys a =>
    rw [poke_phys _ hn (hp a rfl)]
    refine ⟨fun i hi => ?_, fun x hx => ?_⟩
    · refine (get_setMarks ..).trans (if_pos ?_)
      omega
    · cases x with
      | pad m o => rfl
      | phys b =>
        refine (get_setMarks ..).trans ?_
        split
        · rfl
        · exact hx
  | pad m o =>
    rw [poke_pad _ hn]
    exact ⟨fun _ _ => rfl, fun x hx => by cases x <;> exact hx⟩

theorem mem_poke_other (tag : Bool) {b : Nat} (hb : (Place.phys b).Outside p data.length) :
    Memory.read (s.poke p data tag owner).mem b = Memory.read s.mem b := by
  rw [poke_mem]
  cases p with
  | pad m o => rfl
  | phys a =>
    dsimp only
    split
    · rfl
    · exact Memory.read_writeList_other _ _ (Place.outside_phys hb)

end

/-! ## A store performed with none under way -/

theorem perform_of_no_stores (h : s.issuedStores = []) (q : Pending) : s.perform q = s.performOne s.hart.id q := by
  have hnone (x : Hart) (hx : x ∈ s.harts) : x.stores = [] := List.flatMap_eq_nil_iff.1 h x hx
  have hdue : (s.harts.flatMap fun x => (x.stores.filter fun y => usesEntry y.via q.place q.data.length).map fun y => (x.id, y)) = [] :=
    List.flatMap_eq_nil_iff.2 fun x hx => by rw [hnone x hx]; rfl
  unfold State.perform
  generalize (s.harts.map fun h => h.stores.length).sum = fuel
  cases fuel with
  | zero => rfl
  | succ m =>
    unfold State.performAfter
    dsimp only
    rw [hdue]

/-- Poison marks set on the words of some of the bytes from a place on. -/
def State.poisonEach (s : State) (p : Place) (xs : List (Nat × Byte × Bool)) : State :=
  xs.foldl (fun s x => if x.2.2 then s.poisonAt (p.add x.1) 1 else s) s

/-- What marking words as poisoned leaves: every byte, and every mark that was there. -/
structure OnlyPoisons (s t : State) : Prop where
  mem : t.mem = s.mem
  tags : t.tags = s.tags
  pkg : t.pkg = s.pkg
  bytes : ∀ n, (t.team? n).map Team.bytes = (s.team? n).map Team.bytes
  poisoned : ∀ x, s.poisoned x = true → t.poisoned x = true
  teams : t.teams.map Team.tiled = s.teams.map Team.tiled
  hart : t.hart = s.hart
  others : t.others = s.others

namespace OnlyPoisons

theorem refl (s : State) : OnlyPoisons s s := ⟨rfl, rfl, rfl, fun _ => rfl, fun _ => id, rfl, rfl, rfl⟩

theorem trans (h : OnlyPoisons s t) (k : OnlyPoisons t u) : OnlyPoisons s u :=
  ⟨k.mem.trans h.mem, k.tags.trans h.tags, k.pkg.trans h.pkg, fun n => (k.bytes n).trans (h.bytes n), fun x hx => k.poisoned x (h.poisoned x hx),
    k.teams.trans h.teams, k.hart.trans h.hart, k.others.trans h.others⟩

theorem peek (h : OnlyPoisons s t) (x : Place) : t.peek x = s.peek x := by
  cases x with
  | phys a => rw [State.peek, State.peek, h.pkg, h.mem]
  | pad m o => rw [peek_pad, peek_pad, h.bytes]

theorem tagAt (h : OnlyPoisons s t) (x : Place) : t.tagAt x = s.tagAt x := by
  cases x with
  | phys a => rw [State.tagAt, State.tagAt, h.tags]
  | pad m o => rfl

end OnlyPoisons

/-- A team after marks are set on the words of its scratchpad that `n` bytes touch. -/
def Team.poisonedAt (x : Team) (o n : Nat) : Team := { x with pois := setMarks x.pois (o / 8) true ((o + n - 1) / 8 + 1 - o / 8) }

theorem poisonAt_pad (s : State) (m o n : Nat) : s.poisonAt (.pad m o) n = s.modTeam m fun x => x.poisonedAt o n := rfl

theorem poisoned_poisonAt_self (s : State) (p : Place) : (s.poisonAt p 1).poisoned p = true := by
  cases p with
  | phys a => exact poisoned_poisonAt (Nat.le_refl a) (Nat.lt_succ_self a)
  | pad m o =>
    rw [poisoned_pad, poisonAt_pad, team?_modTeam _ (f := fun x => x.poisonedAt o 1) fun _ => rfl]
    cases s.team? m with
    | none => rfl
    | some x =>
      refine (get_setMarks ..).trans (if_pos ?_)
      omega

theorem onlyPoisons_poisonAt (s : State) (p : Place) (n : Nat) : OnlyPoisons s (s.poisonAt p n) := by
  have hmarks (m : Sparse Bool) (w cnt j : Nat) (h : Sparse.get clearBit m j = true) : Sparse.get clearBit (setMarks m w true cnt) j = true := by
    rw [get_setMarks]
    split
    · rfl
    · exact h
  cases p with
  | phys a =>
    refine ⟨rfl, rfl, rfl, fun _ => rfl, fun x hx => ?_, rfl, rfl, rfl⟩
    cases x with
    | phys b => exact hmarks _ _ _ _ hx
    | pad m o => exact hx
  | pad m o =>
    refine ⟨rfl, rfl, rfl, fun _ => map_team?_modTeam (f := fun x => x.poisonedAt o n) (fun _ => rfl) (fun _ => rfl) _ _, fun x hx => ?_,
      keepsTeams_modTeam s m fun _ => rfl, rfl, rfl⟩
    cases x with
    | phys b => exact hx
    | pad m' b =>
      rw [poisoned_pad] at hx ⊢
      rw [poisonAt_pad, team?_modTeam_map _ _ (f := fun x => x.poisonedAt o n) fun _ => rfl]
      cases ht : s.team? m' with
      | none => rfl
      | some y =>
        rw [ht] at hx
        rw [Option.map_some]
        split
        · exact hmarks _ _ _ _ hx
        · exact hx

theorem poisonEach_spec (p : Place) (xs : List (Nat × Byte × Bool)) (s : State) :
    OnlyPoisons s (s.poisonEach p xs) ∧ ∀ i b, (i, b, true) ∈ xs → (s.poisonEach p xs).poisoned (p.add i) = true := by
  induction xs generalizing s with
  | nil => exact ⟨.refl s, fun i b h => absurd h List.not_mem_nil⟩
  | cons x xs ih =>
    obtain ⟨i, b, bad⟩ := x
    cases bad with
    | false =>
      obtain ⟨honly, hbad⟩ := ih s
      exact ⟨honly, fun j c h => hbad j c ((List.mem_cons.1 h).resolve_left (by simp))⟩
    | true =>
      obtain ⟨honly, hbad⟩ := ih (s.poisonAt (p.add i) 1)
      refine ⟨(onlyPoisons_poisonAt ..).trans honly, fun j c h => ?_⟩
      obtain h | h := List.mem_cons.1 h
      · cases h
        exact honly.poisoned _ (poisoned_poisonAt_self ..)
      · exact hbad j c h

theorem OnlyPoisons.performsStores (h : OnlyPoisons s t) : PerformsStores s t := by
  refine .of_eq h.pkg ?_ h.hart h.others
  have hids (v : State) : v.teams.map Team.id = (v.teams.map Team.tiled).map Prod.fst := by rw [List.map_map]; rfl
  rw [hids, hids, h.teams]

/-- Bytes stored with none of any hart under way. -/
theorem storesBytes_perform {q : Pending} (hs : s.issuedStores = []) (hp : s.Storable q.place q.data.length) (hdirty : q.dirty = []) (htag : q.tag = false) :
    StoresBytes s (s.perform q) q.place (q.data.map fun b => (b, false)) := by
  have hready := performsStores_readyFor (s := s) s.hart.id q
  have hsame := sameMemory_readyFor (s := s) s.hart.id hdirty
  have hoff : s.StoresOffScan := by
    rw [State.StoresOffScan, hs]
    exact fun _ h => absurd h List.not_mem_nil
  have hperform : s.perform q = (s.readyFor s.hart.id q).poke q.place q.data false q.owner := by
    rw [perform_of_no_stores hs, performOne_of_linked hp.link, htag]
  have hkeeps := keepsTeams_perform s q
  have hharts := keepsHarts_perform s q
  by_cases hn : q.data.length = 0
  · rw [hperform, poke_of_nil _ hn] at hkeeps hharts ⊢
    rw [List.eq_nil_of_length_eq_zero hn]
    exact ⟨fun i h => absurd h (Nat.not_lt_zero i), fun x _ => hsame.peek x, fun i h => absurd h (Nat.not_lt_zero i), fun x h => (hsame.tagAt x).trans h,
      fun i h => absurd h (Nat.not_lt_zero i), fun x _ h => (hsame.poisoned x).trans h, fun a _ => by rw [hsame.mem], hready, hkeeps, hharts⟩
  · have hoffp : q.place.OffScan := by simpa [Place.add_zero] using hp.offScan 0 (by omega)
    have hstores := performsStores_perform hoffp hoff
    have hteam (m o : Nat) (h : q.place = .pad m o) : ((s.readyFor s.hart.id q).team? m).isSome = true := by
      rw [hready.isSome_team?]
      exact hp.team m o h
    rw [hperform] at hkeeps hharts hstores ⊢
    obtain ⟨htagin, htagout⟩ := tagAt_poke (s := s.readyFor s.hart.id q) (owner := q.owner) hn hoffp
    have hlen : (q.data.map fun b => (b, false)).length = q.data.length := List.length_map _
    refine ⟨fun i h => ?_, fun x hx => ?_, fun i h => htagin i (hlen ▸ h), fun x h => htagout x ((hsame.tagAt x).trans h), fun i h hbad => ?_, fun x hx h => ?_,
      fun a ha => ?_, hstores, hkeeps, hharts⟩
    · rw [List.getElem_map]
      exact peek_poke (hlen ▸ h) hoffp (hp.offScan i (hlen ▸ h)) hteam false q.owner
    · exact (poke_other hn hoffp (hlen ▸ hx)).1.trans (hsame.peek x)
    · rw [List.getElem_map] at hbad
      cases hbad
    · exact (poke_other hn hoffp (hlen ▸ hx)).2.trans ((hsame.poisoned x).trans h)
    · rw [mem_poke_other _ (hlen ▸ ha), hsame.mem]

/-- Marks set after a store, on the words of the bytes that are poisoned. -/
theorem StoresBytes.poisonEach {xs : List (Byte × Bool)} (h : StoresBytes s u p (xs.map fun x => (x.1, false))) :
    StoresBytes s (u.poisonEach p ((List.range xs.length).zip xs)) p xs := by
  obtain ⟨honly, hbad⟩ := poisonEach_spec p ((List.range xs.length).zip xs) u
  have hlen : (xs.map fun x => (x.1, false)).length = xs.length := List.length_map _
  refine ⟨fun i hi => ?_, fun x hx => (honly.peek x).trans (h.peek_other x (hlen.symm ▸ hx)), fun i hi => (honly.tagAt _).trans (h.tag i (hlen.symm ▸ hi)),
    fun x hx => (honly.tagAt x).trans (h.tag_false x hx), fun i hi hx => hbad i xs[i].1 ?_, fun x hx hp => honly.poisoned x (h.poisoned_other x (hlen.symm ▸ hx) hp),
    fun a ha => (congrArg (Memory.read · a) honly.mem).trans (h.mem_other a (hlen.symm ▸ ha)), h.stores.trans honly.performsStores, h.teams.trans honly.teams,
    h.harts.trans (.of_eq honly.hart honly.others)⟩
  · rw [honly.peek, h.peek i (hlen.symm ▸ hi), List.getElem_map]
  · refine List.mem_iff_getElem?.2 ⟨i, List.getElem?_zip_eq_some.2 ⟨List.getElem?_range hi, ?_⟩⟩
    rw [← hx]
    exact List.getElem?_eq_getElem hi

/-! ## Pieces of a tile stored (R243, R244) -/

/-- Byte `k` of what a transfer stores of a tile, with the mark of its word: of the tile itself, or of its image, whose header has none. -/
def Tile.outByte (t : Tile) (image : Bool) (k : Nat) : Byte × Bool :=
  match tileByte image k with
  | none => ((wordBytes (t.shape.getD 0)).getD k 0, false)
  | some k => (t.byte k, t.poisoned k)

theorem storePiece_eq (s : State) (op : MatOp) (image : Bool) (p : Nat × Place × Nat) :
    let xs := (List.range p.2.2).map fun i => (s.tile op.tile).outByte image (p.1 + i)
    s.storePiece op image p =
      (s.perform ⟨p.2.1, xs.map Prod.fst, false, true, false, op.owner, [], op.via, false⟩).poisonEach p.2.1 ((List.range xs.length).zip xs) := by
  cases image <;> rfl

theorem storesBytes_storePiece {p : Nat × Place × Nat} (hs : s.issuedStores = []) (hp : s.Storable p.2.1 p.2.2) :
    StoresBytes s (s.storePiece op image p) p.2.1 ((List.range p.2.2).map fun i => (s.tile op.tile).outByte image (p.1 + i)) := by
  rw [storePiece_eq]
  refine StoresBytes.poisonEach ?_
  have key := storesBytes_perform (q := ⟨p.2.1, ((List.range p.2.2).map fun i => (s.tile op.tile).outByte image (p.1 + i)).map Prod.fst, false, true, false,
    op.owner, [], op.via, false⟩) hs (by simpa using hp) rfl rfl
  simp only [List.map_map] at key ⊢
  exact key

end Sys2Proof.Machine
end

section
/-!
A transfer that stores (R243, R244): all its pieces performed, and what its image holds. With O40.
-/
namespace Sys2Proof.Machine
open Sys2Proof.Claims

variable {s u v : State} {op : MatOp} {k n : Nat} {image : Bool}

/-- What storing the pieces `ps` of tile `t` leaves. -/
structure StoresPieces (s u : State) (t : Tile) (image : Bool) (ps : List (Nat × Place × Nat)) : Prop where
  peek : ∀ p ∈ ps, ∀ i, i < p.2.2 → u.peek (p.2.1.add i) = (t.outByte image (p.1 + i)).1
  tag : ∀ p ∈ ps, ∀ i, i < p.2.2 → u.tagAt (p.2.1.add i) = false
  poisoned : ∀ p ∈ ps, ∀ i, i < p.2.2 → (t.outByte image (p.1 + i)).2 = true → u.poisoned (p.2.1.add i) = true
  peek_other : ∀ x : Place, (∀ p ∈ ps, x.Outside p.2.1 p.2.2) → u.peek x = s.peek x
  poisoned_other : ∀ x : Place, (∀ p ∈ ps, x.Outside p.2.1 p.2.2) → s.poisoned x = true → u.poisoned x = true
  tag_false : ∀ x, s.tagAt x = false → u.tagAt x = false
  mem_other : ∀ a, (∀ p ∈ ps, (Place.phys a).Outside p.2.1 p.2.2) → Memory.read u.mem a = Memory.read s.mem a
  tile : ∀ k, u.tile k = s.tile k

namespace StoresPieces

variable {t : Tile} {p : Nat × Place × Nat} {ps : List (Nat × Place × Nat)}

theorem nil (s : State) (t : Tile) (image : Bool) : StoresPieces s s t image [] :=
  ⟨fun _ h => absurd h List.not_mem_nil, fun _ h => absurd h List.not_mem_nil, fun _ h => absurd h List.not_mem_nil, fun _ _ => rfl, fun _ _ => id,
    fun _ => id, fun _ _ => rfl, fun _ => rfl⟩

/-- A piece stored, then pieces that lie apart from it. -/
theorem cons (h : StoresBytes s u p.2.1 ((List.range p.2.2).map fun i => t.outByte image (p.1 + i))) (k : StoresPieces u v t image ps)
    (happart : ∀ q ∈ ps, ∀ i, i < p.2.2 → (p.2.1.add i).Outside q.2.1 q.2.2) : StoresPieces s v t image (p :: ps) := by
  have hlen : ((List.range p.2.2).map fun i => t.outByte image (p.1 + i)).length = p.2.2 := by rw [List.length_map, List.length_range]
  have hget {i : Nat} (hi : i < p.2.2) : ((List.range p.2.2).map fun i => t.outByte image (p.1 + i))[i]'(hlen.symm ▸ hi) = t.outByte image (p.1 + i) := by
    rw [List.getElem_map, List.getElem_range]
  have hin {i : Nat} (hi : i < p.2.2) (q : Nat × Place × Nat) (hq : q ∈ ps) : (p.2.1.add i).Outside q.2.1 q.2.2 := happart q hq i hi
  have hout {x : Place} (hx : ∀ q ∈ p :: ps, x.Outside q.2.1 q.2.2) :
      x.Outside p.2.1 ((List.range p.2.2).map fun i => t.outByte image (p.1 + i)).length ∧ ∀ q ∈ ps, x.Outside q.2.1 q.2.2 := by
    rw [hlen]
    exact List.forall_mem_cons.1 hx
  refine ⟨List.forall_mem_cons.2 ⟨fun i hi => ?_, k.peek⟩, List.forall_mem_cons.2 ⟨fun i hi => k.tag_false _ (h.tag i (hlen.symm ▸ hi)), k.tag⟩,
    List.forall_mem_cons.2 ⟨fun i hi hbad => ?_, k.poisoned⟩, fun x hx => (k.peek_other x (hout hx).2).trans (h.peek_other x (hout hx).1),
    fun x hx hbad => k.poisoned_other x (hout hx).2 (h.poisoned_other x (hout hx).1 hbad), fun x hx => k.tag_false x (h.tag_false x hx),
    fun a ha => (k.mem_other a (hout ha).2).trans (h.mem_other a (hout ha).1), fun n => (k.tile n).trans (h.teams.tile h.harts n)⟩
  · rw [k.peek_other _ (hin hi), h.peek i (hlen.symm ▸ hi), hget hi]
  · exact k.poisoned_other _ (hin hi) (h.poisoned i (hlen.symm ▸ hi) (by rw [hget hi]; exact hbad))

end StoresPieces

theorem State.Storable.of_performsStores {p : Place} (hp : s.Storable p n) (h : PerformsStores s u) : u.Storable p n :=
  ⟨(h.linkLost p).trans hp.link, hp.offScan, fun m o he => (h.isSome_team? m).trans (hp.team m o he)⟩

/-- Pieces that lie apart, with no store of any hart under way. -/
theorem storesPieces_foldl {ps : List (Nat × Place × Nat)} (happart : ps.Pairwise fun p q => ∀ i j, i < p.2.2 → j < q.2.2 → p.2.1.add i ≠ q.2.1.add j)
    (hp : ∀ p ∈ ps, s.Storable p.2.1 p.2.2) (hs : s.issuedStores = []) :
    StoresPieces s (ps.foldl (fun s p => s.storePiece op image p) s) (s.tile op.tile) image ps := by
  induction ps generalizing s with
  | nil => exact .nil ..
  | cons p ps ih =>
    obtain ⟨hfirst, hrest⟩ := List.pairwise_cons.1 happart
    obtain ⟨hp1, hps⟩ := List.forall_mem_cons.1 hp
    have hone := storesBytes_storePiece (op := op) (image := image) hs hp1
    have hnone : (s.storePiece op image p).issuedStores = [] := List.subset_nil.1 (hs ▸ hone.stores.issued)
    have hafter := ih hrest (fun q hq => (hps q hq).of_performsStores hone.stores) hnone
    rw [hone.teams.tile hone.harts] at hafter
    exact .cons hone hafter fun q hq i hi j hj => (hfirst q hq i j hi hj).symm

/-- The pieces of a transfer that stores can be stored. -/
theorem storable_of_storesApart (h : StoresApart s op) : ∀ p ∈ op.pieces, s.Storable p.2.1 p.2.2 := by
  obtain ⟨-, hpieces, -, -⟩ := h
  rintro ⟨o, p, n⟩ hp
  obtain ⟨hlink, hplace⟩ := hpieces _ hp
  refine ⟨hlink, fun i hi a ha => ?_, fun m o hm => ?_⟩
  · cases p with
    | phys b => cases ha; exact hplace i hi
    | pad m o => cases ha
  · cases p with
    | phys b => cases hm
    | pad m o => cases hm; exact hplace

theorem performMatrix_store (hr : s.regEcc = []) (h : op.kind = .store image) (ha : StoresApart s op) :
    StoresPieces s (s.performMatrix op) (s.tile op.tile) image op.pieces := by
  have hpieces := storable_of_storesApart ha
  obtain ⟨happart, -, hdirty, hidle⟩ := ha
  have heq : s.performMatrix op = op.pieces.foldl (fun s p => s.storePiece op image p) s := by
    simp only [State.performMatrix, eccRegisters_of_none hr, h, hdirty]
    rfl
  rw [heq]
  exact storesPieces_foldl happart hpieces (List.flatMap_eq_nil_iff.2 hidle)

theorem outByte_of_tileByte (t : Tile) (h : tileByte image k = some n) : t.outByte image k = (t.byte n, t.poisoned n) := by
  rw [Tile.outByte, h]

theorem outByte_header (t : Tile) (hk : k < 0x100) : t.outByte true k = ((wordBytes (t.shape.getD 0)).getD k 0, false) := by
  have hnone : tileByte true k = none := if_pos hk
  rw [Tile.outByte, hnone]

/-- Byte `k` of an image (R244). -/
theorem outByte_image (t : Tile) (k : Nat) : (t.outByte true k).1 = imageOf t k := by
  unfold imageOf
  split
  · rw [outByte_header t (by omega), wordBytes, natToBytes_eq, List.getD_eq_getElem?_getD, List.getElem?_map, List.getElem?_range (by assumption)]
    rfl
  · split
    · rw [outByte_header t (by assumption), wordBytes, natToBytes_eq, List.getD_eq_getElem?_getD, List.getElem?_eq_none]
      · rfl
      · rw [List.length_map, List.length_range]
        omega
    · split
      · rw [outByte_of_tileByte t (tileByte_image (.inl ⟨by omega, by assumption, rfl⟩))]
      · rw [outByte_of_tileByte t (tileByte_image (.inr ⟨by omega, rfl⟩))]

end Sys2Proof.Machine
end

section
/-!
Elements of a tile (R230, R231), and TCVT (R116, R123, R246). With O40 and O41.
-/
namespace Sys2Proof.Machine
open Sys2Proof.Claims

variable {s : State} {op : MatOp} {k n : Nat} {w : Word}

/-! ## Elements (R231) -/

theorem elem_eq (t : Tile) (w : Word) (r c : Nat) : (t.elem w r c).1 = tileElem t w r c := by
  unfold Tile.elem tileElem
  simp only [shapeFmt_eq, shapeRowBytes_eq]
  by_cases h7 : fmtOf w = 7
  · have hbits : tileBits 7 = 4 := rfl
    have helem : shapeElem w = 1 := by rw [shapeElem, shapeFmt_eq, h7]; rfl
    simp only [h7, hbits, helem, if_true]
    rw [show c * 4 / 8 = c / 2 by omega]
    have hbyte := (t.byte (r * rowBytesOf w + c / 2)).isLt
    simp only [List.range_one, List.map_cons, List.map_nil, bytesToNat, Nat.add_zero, Nat.mul_zero]
    split
    · rw [Nat.div_one]
    · omega
  · simp only [h7, if_false]
    rw [tileBits_shapeElem h7, Nat.mul_left_comm, Nat.mul_div_cancel_left _ (by decide)]

theorem elem_marked (t : Tile) {w : Word} (h7 : fmtOf w ≠ 7) (r c : Nat) : (t.elem w r c).2 = t.poisoned (r * rowBytesOf w + c * shapeElem w) := by
  rw [Tile.elem]
  dsimp only
  rw [shapeFmt_eq, shapeRowBytes_eq, tileBits_shapeElem h7, Nat.mul_left_comm, Nat.mul_div_cancel_left _ (by decide)]

/-- Elements of `size` bytes with their marks, one behind another. -/
def elemBytes (size : Nat) (out : List (Nat × Bool)) : List (Byte × Bool) := out.flatMap fun x => (natToBytes x.1 size).map fun b => (b, x.2)

section
variable {size : Nat} {out : List (Nat × Bool)}

theorem elemBytes_uniform (size : Nat) (out : List (Nat × Bool)) : ∀ x ∈ out, ((natToBytes x.1 size).map fun b => (b, x.2)).length = size :=
  fun x _ => by rw [List.length_map, natToBytes_length]

theorem elemBytes_length (size : Nat) (out : List (Nat × Bool)) : (elemBytes size out).length = out.length * size :=
  length_flatMap_uniform (elemBytes_uniform size out)

theorem elemBytes_getElem? {j i : Nat} {x : Nat × Bool} (hx : out[j]? = some x) (hi : i < size) :
    (elemBytes size out)[j * size + i]? = some ((natToBytes x.1 size)[i]'(by rwa [natToBytes_length]), x.2) := by
  rw [elemBytes, getElem?_flatMap_uniform (elemBytes_uniform size out) _ hi, hx, Option.bind_some, List.getElem?_map, List.getElem?_eq_getElem]
  rfl

/-- Each element put into a tile reads back as its low bytes, and is marked where it was. -/
theorem putList_elemBytes (t : Tile) (k : Nat) {j : Nat} {x : Nat × Bool} (hx : out[j]? = some x) :
    bytesToNat ((List.range size).map fun i => (t.putList k (elemBytes size out)).byte (k + (j * size + i))) = x.1 % 2 ^ (8 * size) ∧
    ∀ i, i < size → ((t.putList k (elemBytes size out)).Marked (k + (j * size + i)) ↔ x.2 = true) := by
  have hat {i : Nat} (hi : i < size) : ∃ h : j * size + i < (elemBytes size out).length,
      (elemBytes size out)[j * size + i] = ((natToBytes x.1 size)[i]'(by rwa [natToBytes_length]), x.2) :=
    List.getElem?_eq_some_iff.1 (elemBytes_getElem? hx hi)
  refine ⟨?_, fun i hi => ?_⟩
  · rw [← bytesToNat_natToBytes]
    refine congrArg bytesToNat (List.ext_getElem (by simp) fun i hi _ => ?_)
    obtain ⟨hlt, heq⟩ := hat (i := i) (by simpa using hi)
    rw [List.getElem_map, List.getElem_range, byte_putList _ _ hlt, heq]
  · obtain ⟨hlt, heq⟩ := hat hi
    rw [marked_putList _ _ hlt, heq]

end

/-! ## A hart's registers are no tiles -/

theorem hasTile_lateWrite (h : s.HasTile k) (f : Regs → Regs) : (s.modHart fun h => h.lateWrite f).HasTile k := h

/-! ## One element converted (R116, R123) -/

theorem tileConvert_eq (src dst rm rnd x : Nat) : (tileConvert src dst rm rnd x).1 = converted src dst rm rnd x := by
  unfold converted
  extract_lets kind v
  have hkind : kind = tileKind := by
    funext fmt
    unfold kind tileKind
    cases tileFloat fmt with
    | some f => rfl
    | none =>
      dsimp only
      split
      · subst fmt; rfl
      · rfl
  have hsource : (if src = 10 then Kind.int 32 else tileKind src) = tileKind src := by
    split
    · subst src; rfl
    · rfl
  rw [hkind]
  unfold tileConvert
  simp only [toSigned_eq_signed, ofSigned_eq_cut, hsource]
  by_cases hinv : src = 10 ∧ resValid x = false
  · rw [if_pos hinv, if_pos (by simp [hinv])]
  · rw [if_neg hinv, if_neg (by simpa using hinv)]
    split
    · cases resOfSigned (signed 32 (convert (tileKind src) (.int 32) rm rnd v)) <;> rfl
    · rfl

/-! ## TCVT (R246) -/

/-- The shape of a tile that TCVT writes: the source's rows and columns in another format. -/
def convertedShape (w : Word) (dst : Nat) : Word := Word.ofNat (dst * 2 ^ 20 + shapeCols w * tileBits dst / 8 * 2 ^ 10 + rowsOf w)

/-- One element of what TCVT writes, whether it sets RIV, and its mark. -/
def convertedElem (t : Tile) (w : Word) (imm : Nat) (seed : Word) (r c : Nat) : (Nat × Bool) × Bool :=
  let x := t.elem w r c
  (tileConvert (fmtOf w) (imm % 16) (imm / 16) (if imm / 16 = 4 then rsrValue seed (Word.ofNat (r * 65536 + c)) else 0) x.1, x.2)

/-- The elements that TCVT writes, row by row. -/
def convertedElems (t : Tile) (w : Word) (imm : Nat) (seed : Word) : List ((Nat × Bool) × Bool) :=
  (List.range (rowsOf w)).flatMap fun r => (List.range (shapeCols w)).map (convertedElem t w imm seed r)

theorem convertedElems_getElem? (t : Tile) (w : Word) (imm : Nat) (seed : Word) {r c : Nat} (hr : r < rowsOf w) (hc : c < shapeCols w) :
    (convertedElems t w imm seed)[r * shapeCols w + c]? = some (convertedElem t w imm seed r c) := by
  rw [convertedElems, getElem?_flatMap_uniform (m := shapeCols w) (fun _ _ => by simp) _ hc, List.getElem?_range hr, Option.bind_some, List.getElem?_map,
    List.getElem?_range hc]
  rfl

/-- The state with RIV set where TCVT meets an invalid residue word or leaves the range of one. -/
def State.convertRiv (s : State) (out : List ((Nat × Bool) × Bool)) : State :=
  if out.any fun x => x.1.2 then s.modHart fun h => h.lateWrite Regs.setRiv else s

theorem convertRiv_of (P : State → Prop) (hs : P s) (hw : P (s.modHart fun h => h.lateWrite Regs.setRiv)) (out : List ((Nat × Bool) × Bool)) : P (s.convertRiv out) := by
  unfold State.convertRiv
  split
  · exact hw
  · exact hs

theorem performMatrix_convert {source imm : Nat} (hr : s.regEcc = []) (h : op.kind = .convert source imm) (hw : (s.tile source).shape = some w) :
    let out := convertedElems (s.tile source) w imm op.seed
    s.performMatrix op = (s.convertRiv out).modTile op.tile fun t =>
      { t.putList 0 (elemBytes (tileBits (imm % 16) / 8) (out.map fun x => (x.1.1, x.2))) with shape := some (convertedShape w (imm % 16)), dirty := true } := by
  simp only [State.performMatrix, eccRegisters_of_none hr, h, State.performConvert, hw, elemBytes, List.flatMap_map, shapeRows_eq, shapeFmt_eq]
  rfl

theorem convertedShape_fields {dst : Nat} (hd : dst < 16) (hnb : shapeCols w * tileBits dst / 8 < 1024) :
    fmtOf (convertedShape w dst) = dst ∧ rowBytesOf (convertedShape w dst) = shapeCols w * tileBits dst / 8 ∧ rowsOf (convertedShape w dst) = rowsOf w := by
  generalize hn : shapeCols w * tileBits dst / 8 = nb at hnb
  have hrows : rowsOf w < 1024 := Nat.mod_lt _ (by decide)
  have hword : (convertedShape w dst).toNat = dst * 2 ^ 20 + nb * 2 ^ 10 + rowsOf w := by
    rw [convertedShape, hn, Word.ofNat, BitVec.toNat_ofNat, Nat.mod_eq_of_lt (by omega)]
  unfold fmtOf rowBytesOf
  rw [rowsOf, hword]
  omega

end Sys2Proof.Machine
end

section
/-!
What performing a tile member leaves (R229, R240 to R246), kind by kind. With O40.
-/
namespace Sys2Proof.Machine
open Sys2Proof.Claims

variable {s : State} {op : MatOp} {w : Word}

theorem loadedShape_of_head (old : Option Word) {p : Place} {n : Nat} (h : op.pieces.head? = some (0, p, n)) : s.loadedShape op old = s.headerShape p := by
  simp only [State.loadedShape, h]

theorem loadedShape_of_no_head (old : Option Word) (h : ∀ p ∈ op.pieces, 0 < p.1) : s.loadedShape op old = old := by
  unfold State.loadedShape
  split
  · rename_i hhead
    exact absurd (h _ (List.mem_of_mem_head? hhead)) (Nat.lt_irrefl 0)
  · rfl

theorem getList_getElem? (t : Tile) (k : Nat) {n i : Nat} (h : i < n) : (t.getList k n)[i]? = some (t.byte (k + i), t.poisoned (k + i)) := by
  rw [Tile.getList, List.getElem?_map, List.getElem?_range h]
  rfl

variable (hr : s.regEcc = []) (ht : s.HasTile op.tile)
include hr

section
include ht

theorem shape_performed {x : Word} (h : op.kind = .shape x) : (s.performMatrix op).tile op.tile = { s.tile op.tile with shape := some x } := by
  rw [performMatrix_shape hr h, tile_modTile_same ht]

theorem zero_performed (h : op.kind = .zero) :
    let t := (s.performMatrix op).tile op.tile
    (∀ n, t.byte n = 0) ∧ t.shape = (s.tile op.tile).shape ∧ t.dirty = true := by
  rw [performMatrix_zero hr h, tile_modTile_same ht]
  refine ⟨fun n => ?_, rfl, rfl⟩
  unfold Tile.byte
  split <;> rfl

theorem colIn_performed {j : Nat} (hw : (s.tile op.tile).shape = some w) (h : op.kind = .colIn j) (hj : j < shapeCols w) (h7 : fmtOf w ≠ 7)
    (hvec : op.vec.length = rowsOf w * shapeElem w) (hpois : op.vpois.length = rowsOf w * shapeElem w) :
    let t := (s.performMatrix op).tile op.tile
    (∀ r i (h : r * shapeElem w + i < op.vec.length), i < shapeElem w →
      t.byte (r * rowBytesOf w + j * shapeElem w + i) = op.vec[r * shapeElem w + i]) ∧
    (∀ k, (∀ r, r < rowsOf w → k < r * rowBytesOf w + j * shapeElem w ∨ r * rowBytesOf w + (j + 1) * shapeElem w ≤ k) →
      t.byte k = (s.tile op.tile).byte k) ∧
    t.shape = some w ∧ t.dirty = true := by
  have hlen : (op.vec.zip op.vpois).length = rowsOf w * shapeElem w := by rw [List.length_zip, hvec, hpois, Nat.min_self]
  obtain ⟨hin, hout, hshape⟩ := byte_putColumn (s.tile op.tile) hj h7 hlen
  rw [performMatrix_colIn hr h hw, tile_modTile_same ht]
  refine ⟨fun r i hri hi => ?_, fun k hk => hout k fun r hrow => ?_, hshape.trans hw, rfl⟩
  · refine (hin r i (by rw [hlen, ← hvec]; exact hri) hi).trans ?_
    rw [List.getElem_zip]
  · have := hk r hrow
    rw [Nat.succ_mul] at this
    rw [colByte_eq]
    omega

theorem rowIn_performed {j : Nat} (hw : (s.tile op.tile).shape = some w) (h : op.kind = .rowIn j)
    (hvec : op.vec.length = rowBytesOf w) (hpois : op.vpois.length = rowBytesOf w) :
    let t := (s.performMatrix op).tile op.tile
    (∀ n (h : n < op.vec.length), t.byte (j * rowBytesOf w + n) = op.vec[n]) ∧
    (∀ n, (n < j * rowBytesOf w ∨ (j + 1) * rowBytesOf w ≤ n) → t.byte n = (s.tile op.tile).byte n) ∧ t.shape = some w ∧ t.dirty = true := by
  have hlen : (op.vec.zip op.vpois).length = rowBytesOf w := by rw [List.length_zip, hvec, hpois, Nat.min_self]
  rw [performMatrix_rowIn hr h hw, tile_modTile_same ht, List.take_of_length_le hlen.le]
  refine ⟨fun n hn => ?_, fun n hn => ?_, ?_, rfl⟩
  · refine (byte_putList _ _ (by rw [hlen, ← hvec]; exact hn)).trans ?_
    rw [List.getElem_zip]
  · refine byte_putList_other _ ?_
    rw [Nat.succ_mul] at hn
    rwa [hlen]
  · exact (putList_shape ..).trans hw

theorem load_performed (he : s.ecc = []) (h : op.kind = .load false) (ha : PiecesApart op) :
    let u := s.performMatrix op
    let t := u.tile op.tile
    (∀ p ∈ op.pieces, ∀ i, i < p.2.2 → t.byte (p.1 + i) = s.peek (p.2.1.add i) ∧
      (s.poisoned (p.2.1.add i) = true → t.poisoned (p.1 + i) = true)) ∧
    (∀ k, (∀ p ∈ op.pieces, k < p.1 ∨ p.1 + p.2.2 ≤ k) → t.byte k = (s.tile op.tile).byte k) ∧ t.shape = (s.tile op.tile).shape ∧ t.dirty = true ∧
    u.mem = s.mem := by
  rw [performMatrix_load hr he h]
  dsimp only
  rw [tile_modTile_same ht]
  exact ⟨fun p hp i hi => loaded_of_piece ha _ hp hi rfl, fun k hk => loaded_other _ hk, putAll_shape .., rfl, modTile_mem ..⟩

theorem image_performed (he : s.ecc = []) (h : op.kind = .load true) (ha : PiecesApart op) :
    let u := s.performMatrix op
    let t := u.tile op.tile
    (∀ p ∈ op.pieces, ∀ i, i < p.2.2 → ∀ k, (0x100 ≤ p.1 + i ∧ p.1 + i < 0x8100 ∧ k = p.1 + i - 0x100 ∨ 0x8100 ≤ p.1 + i ∧ k = p.1 + i - 0x8100 + 0x8000) →
      t.byte k = s.peek (p.2.1.add i) ∧ (s.poisoned (p.2.1.add i) = true → t.poisoned k = true)) ∧
    (∀ p x, op.pieces.head? = some (0, p, 256) → (∀ n, n < 8 → s.peek (p.add n) = BitVec.ofNat 8 (x.toNat / 256 ^ n)) →
      let ok := shapeLegal x = true ∧ ∀ n, 8 ≤ n → n < 256 → s.peek (p.add n) = 0
      (ok → t.shape = some x) ∧ (¬ ok → t.shape = none)) ∧
    ((∀ p ∈ op.pieces, 0x100 ≤ p.1) → t.shape = (s.tile op.tile).shape) ∧ t.dirty = true ∧ u.mem = s.mem := by
  rw [performMatrix_image hr he h]
  dsimp only
  rw [tile_modTile_same ht]
  refine ⟨fun p hp i hi k hk => loaded_of_piece ha _ hp hi (tileByte_image hk), fun p x hp hx => ?_, fun hp => ?_, rfl, modTile_mem ..⟩
  · change (_ → s.loadedShape op _ = _) ∧ (_ → s.loadedShape op _ = _)
    rw [loadedShape_of_head _ hp]
    exact headerShape_of_word hx
  · exact loadedShape_of_no_head _ fun p hq => Nat.lt_of_lt_of_le (by decide) (hp p hq)

theorem convert_performed {source imm : Nat} {sw : Word} (h : op.kind = .convert source imm) (hsw : (s.tile source).shape = some sw) (h7 : fmtOf sw ≠ 7) :
    let dst := imm % 16
    let size := tileBits dst / 8
    let nb := shapeCols sw * size
    dst ≠ 7 → nb ≤ 512 →
    let t := (s.performMatrix op).tile op.tile
    ∃ x, t.shape = some x ∧ fmtOf x = dst ∧ rowBytesOf x = nb ∧ rowsOf x = rowsOf sw ∧ t.dirty = true ∧
      ∀ r c, r < rowsOf sw → c < shapeCols sw →
        tileElem t x r c = converted (fmtOf sw) dst (imm / 16) (if imm / 16 = 4 then rsrValue op.seed (BitVec.ofNat 64 (r * 65536 + c)) else 0)
          (tileElem (s.tile source) sw r c) % 2 ^ tileBits dst ∧
        ((s.tile source).poisoned (r * rowBytesOf sw + c * shapeElem sw) = true → t.poisoned (r * nb + c * size) = true) := by
  intro dst size nb hd7 hnb t
  have hbits : tileBits dst = 8 * size := by
    have := tileBits_eq hd7
    omega
  have hsize : 0 < size := by
    have := tileBits_pos dst
    omega
  have hnbytes : shapeCols sw * tileBits dst / 8 = nb := by rw [hbits, Nat.mul_left_comm, Nat.mul_div_cancel_left _ (by decide)]
  obtain ⟨hfmt, hrow, hrows⟩ := convertedShape_fields (w := sw) (dst := dst) (Nat.mod_lt _ (by decide)) (by rw [hnbytes]; omega)
  have helem : shapeElem (convertedShape sw dst) = size := by
    have := tileBits_shapeElem (w := convertedShape sw dst) (by rwa [hfmt])
    rw [hfmt] at this
    omega
  obtain ⟨t0, ht'⟩ : ∃ t0 : Tile, t = { t0.putList 0 (elemBytes size ((convertedElems (s.tile source) sw imm op.seed).map fun x => (x.1.1, x.2))) with
      shape := some (convertedShape sw dst), dirty := true } := by
    refine ⟨(s.convertRiv (convertedElems (s.tile source) sw imm op.seed)).tile op.tile, ?_⟩
    rw [show t = (s.performMatrix op).tile op.tile from rfl, performMatrix_convert hr h hsw]
    exact tile_modTile_same (convertRiv_of (·.HasTile op.tile) ht (hasTile_lateWrite ht _) _) _
  refine ⟨convertedShape sw dst, by rw [ht'], hfmt, hrow.trans hnbytes, hrows, by rw [ht'], fun r c hrr hcc => ?_⟩
  obtain ⟨hval, hmark⟩ := putList_elemBytes (size := size) t0 0 (j := r * shapeCols sw + c)
    (out := (convertedElems (s.tile source) sw imm op.seed).map fun x => (x.1.1, x.2))
    (by rw [List.getElem?_map, convertedElems_getElem? _ _ _ _ hrr hcc]; rfl)
  have hflat (i : Nat) : 0 + ((r * shapeCols sw + c) * size + i) = r * nb + c * size + i := by
    rw [Nat.zero_add, Nat.add_mul, Nat.mul_assoc, Nat.add_assoc]
  simp only [hflat] at hval hmark
  refine ⟨?_, fun hbad => ?_⟩
  · rw [tileElem, hfmt, if_neg hd7, helem, hrow, hnbytes, ht', hbits]
    refine hval.trans ?_
    rw [convertedElem, tileConvert_eq, elem_eq]
    rfl
  · rw [ht']
    refine poisoned_of_marked ((hmark 0 hsize).2 ?_)
    exact (elem_marked _ h7 r c).trans hbad

end

theorem colOut_performed {v j : Nat} (hw : (s.tile op.tile).shape = some w) (h : op.kind = .colOut v j) :
    let u := s.performMatrix op
    (∀ r i, r < rowsOf w → i < shapeElem w → Sparse.get zeroByte u.hart.regs.vrf (v * s.hart.rb + r * shapeElem w + i) =
      (s.tile op.tile).byte (r * rowBytesOf w + j * shapeElem w + i)) ∧
    (∀ n, (n < v * s.hart.rb ∨ v * s.hart.rb + rowsOf w * shapeElem w ≤ n) →
      Sparse.get zeroByte u.hart.regs.vrf n = Sparse.get zeroByte s.hart.regs.vrf n) ∧ u.teams = s.teams := by
  rw [performMatrix_colOut hr h hw]
  refine ⟨fun r i hrow hi => ?_, fun n hn => get_vrf_putVector_other _ _ (by rwa [column_length]), rfl⟩
  rw [Nat.add_assoc]
  exact get_vrf_putVector _ _ (column_getElem? _ _ _ hrow hi)

theorem rowOut_performed {v j : Nat} (hw : (s.tile op.tile).shape = some w) (h : op.kind = .rowOut v j) :
    let u := s.performMatrix op
    (∀ n, n < rowBytesOf w → Sparse.get zeroByte u.hart.regs.vrf (v * s.hart.rb + n) = (s.tile op.tile).byte (j * rowBytesOf w + n)) ∧
    (∀ n, (n < v * s.hart.rb ∨ v * s.hart.rb + rowBytesOf w ≤ n) →
      Sparse.get zeroByte u.hart.regs.vrf n = Sparse.get zeroByte s.hart.regs.vrf n) ∧ u.teams = s.teams := by
  rw [performMatrix_rowOut hr h hw]
  refine ⟨fun n hn => ?_, fun n hn => get_vrf_putVector_other _ _ (by rwa [getList_length]), rfl⟩
  exact get_vrf_putVector _ _ (getList_getElem? _ _ hn)

theorem store_performed {image : Bool} (h : op.kind = .store image) (ha : StoresApart s op) :
    let u := s.performMatrix op
    let old := s.tile op.tile
    let out (k : Nat) := if image then imageOf old k else old.byte k
    (∀ p ∈ op.pieces, ∀ i, i < p.2.2 → u.peek (p.2.1.add i) = out (p.1 + i) ∧ u.tagAt (p.2.1.add i) = false ∧
      (image = false → old.poisoned (p.1 + i) = true → u.poisoned (p.2.1.add i) = true)) ∧
    (∀ x, (∀ p ∈ op.pieces, ∀ i, i < p.2.2 → p.2.1.add i ≠ .phys x) → Memory.read u.mem x = Memory.read s.mem x) ∧
    (∀ x o, (∀ p ∈ op.pieces, ∀ i, i < p.2.2 → p.2.1.add i ≠ .pad x o) → u.peek (.pad x o) = s.peek (.pad x o)) ∧ u.tile op.tile = old := by
  intro u old out
  have key := performMatrix_store hr h ha
  refine ⟨fun p hp i hi => ⟨(key.peek p hp i hi).trans ?_, key.tag p hp i hi, fun himage hbad => key.poisoned p hp i hi ?_⟩, key.mem_other,
    fun x o => key.peek_other _, key.tile _⟩
  · cases image with
    | false => rfl
    | true => exact outByte_image ..
  · subst himage
    exact hbad

end Sys2Proof.Machine

open Sys2Proof Sys2Proof.Machine Sys2Proof.Claims in
/-- Settles O40: each kind of operation is performed as its own lemma says. -/
theorem tileMoveEffects : Obligations.TileMoveEffects := by
  intro s op team w hr hteam htile
  have ht : s.HasTile op.tile := ⟨team, hteam, htile⟩
  exact ⟨fun _ => shape_performed hr ht, zero_performed hr ht,
    fun j hw _ h hj h7 hvec hpois => colIn_performed hr ht hw h hj h7 hvec hpois,
    fun v j hw _ h _ _ => colOut_performed hr hw h,
    fun h he ha _ => load_performed hr ht he h ha,
    fun h he ha _ => image_performed hr ht he h ha,
    fun image h ha => store_performed hr h ha,
    fun source imm sw h hsw _ _ h7 _ _ _ hd7 hnb _ _ => convert_performed hr ht h hsw h7 hd7 hnb,
    fun j hw h hvec hpois => rowIn_performed hr ht hw h hvec hpois,
    fun v j hw h => rowOut_performed hr hw h⟩
end

section
/-!
Tile memory forms and row operations before their fork (R242, R244, R247, R248). With O41.
-/
namespace Sys2Proof.Machine
open Sys2Proof.Claims

variable {s : State} {e : Bool} {k c st : TReg} {a b : GReg} {v : VReg} {w cw : Word}

/-! ## Transfers (R242, R244) -/

theorem rowWant_eq (base : Base) (fmt : Nat) : base.rowWant fmt = tileWant base fmt := by cases base <;> rfl

/-- A member that comes to a transfer forks with the units that pass, once they all do. -/
theorem transferForks_of_exec {i : Instr} {go : State → Res} {kind : MatKind} {addr pitch : Word} {write rows : Bool} {align fmt : Nat}
    {units : List (Nat × Word × Unit')} (h : Room s) (hexec : exec i s = matrixMember e go s)
    (hgo : go s = tileTransfer kind write rows align fmt k.toNat addr pitch units s) :
    TransferForks i s e kind k addr pitch write rows align fmt units := by
  intro n va s1 base s2 ps hhead hbase hunits
  cases units with
  | nil => cases hhead
  | cons x rest =>
    obtain ⟨n', va', parts⟩ := x
    cases hhead
    rw [Completes, hexec, matrixMember_of_room h, hgo, tileTransfer]
    simp only [hbase, rowWant_eq, hunits]
    rfl

theorem rowTransfer_forks (h : Room s) (hk : Shaped s k w) :
    TransferForks (.tld e k a b) s e (.load false) k (s.g a) (s.g b) false true (rowAlign (fmtOf w)) (fmtOf w) (s.tileRows w (s.g a) (s.g b) s.hart.elix) ∧
    TransferForks (.tst e k a b) s e (.store false) k (s.g a) (s.g b) true true (rowAlign (fmtOf w)) (fmtOf w) (s.tileRows w (s.g a) (s.g b) s.hart.elix) :=
  ⟨transferForks_of_exec h rfl (shapedTile_of_shaped hk _), transferForks_of_exec h rfl (shapedTile_of_shaped hk _)⟩

theorem imageTransfer_forks (h : Room s) (hk : Holds s k) :
    TransferForks (.tsave e k a) s e (.store true) k (s.g a) 0 true false 256 0 (imageChunks (s.g a) s.hart.elix) ∧
    TransferForks (.trst e k a) s e (.load true) k (s.g a) 0 false false 256 0 (imageChunks (s.g a) s.hart.elix) :=
  ⟨transferForks_of_exec h rfl (claimedTile_of_holds hk _), transferForks_of_exec h rfl (claimedTile_of_holds hk _)⟩

/-! ## The checks of row operations (R247) -/

/-- The accumulator format that a form asks for. -/
theorem accumulatorOf_vector (fmt : Nat) : accumulatorOf false false fmt = accOfVector fmt := rfl
theorem accumulatorOf_residue (stream : Bool) (fmt : Nat) : accumulatorOf true stream fmt = accOfResidue fmt := rfl
theorem accumulatorOf_pad (fmt : Nat) : accumulatorOf false true fmt = accOfPad fmt := by
  unfold accumulatorOf accOfPad isMx
  grind

variable {integer stream : Bool} {y : Word}

/-- One tile in both roles: the pair is named (R247). -/
theorem rowChecks_both (hc : Shaped s c cw) (go : Word → State → Res) :
    rowChecks integer stream none c c y s go = .trap (.own 0x03 ((c ++ (0 : BitVec 1) ++ c).setWidth 64)) s := by
  rw [rowChecks, shapedTile_of_shaped hc, shapedTile_of_shaped hc]
  exact if_pos rfl

/-- Tiles that agree pass. -/
theorem rowChecks_of_agrees {acc : Nat → Option Nat} (hacc : ∀ fmt, accumulatorOf integer stream fmt = acc fmt)
    (h : RowAgrees s acc c st cw w y.toNat) (go : Word → State → Res) : rowChecks integer stream none c st y s go = go w s := by
  obtain ⟨hc, hst, hfmt, hrow, hy, hne⟩ := h
  rw [rowChecks, shapedTile_of_shaped hc, shapedTile_of_shaped hst]
  dsimp only
  rw [if_neg hne, shapeFmt_eq, hacc, hfmt]
  dsimp only
  rw [if_neg (by simp [hrow]), if_neg (by simpa using hy)]

/-! ## Forms with a vector operand (R247) -/

theorem rowFromVector_forks {i : Instr} {ordered : Bool} {acc : Nat → Option Nat} (hexec : exec i s = rowFromVector integer ordered e c st a v s)
    (hacc : ∀ fmt, accumulatorOf integer false fmt = acc fmt) (h : Room s) (hagree : RowAgrees s acc c st cw w (s.g a).toNat) :
    Completes i s e (s.forkMatrix (withVector s (.rowOp ordered false st.toNat (s.g a).toNat) c v (rowBytesOf w))) :=
  completes_of_forks h hexec (rowChecks_of_agrees hacc hagree _)

theorem rowFromVector_traps {i : Instr} {ordered : Bool} (hexec : exec i s = rowFromVector integer ordered e c c a v s) (h : Room s) (hc : Shaped s c cw) :
    Raises i s (.own 0x03 ((c ++ (0 : BitVec 1) ++ c).setWidth 64)) :=
  raises_of_traps h hexec (rowChecks_both hc _)

/-! ## Forms with a scratchpad operand (R248) -/

/-- The start of the A row, its words rotated, and the scales of an MX format: addresses by byte of the tile. -/
def padStart (s : State) (a b : GReg) : Word := s.g a + BitVec.ofNat 64 ((s.g b).toNat % 65536 * ((s.g b).toNat / 65536 % 2 ^ 20))
def padRow (s : State) (a b : GReg) (w : Word) : List (Nat × Word × Nat) :=
  (List.range (rowBytesOf w / 8)).map fun i => (8 * i, padStart s a b + BitVec.ofNat 64 ((i + (s.g b).toNat / 2 ^ 59) % (rowBytesOf w / 8) * 8), 8)
def padScales (s : State) (a b : GReg) (w : Word) : List (Nat × Word × Nat) :=
  if fmtOf w = 6 ∨ fmtOf w = 7 then (List.range (shapeCols w / 32)).map fun i =>
    (0x8000 + i, s.g a + BitVec.ofNat 64 ((s.g b).toNat / 2 ^ 36 % 2 ^ 21 + (s.g b).toNat % 65536 * (shapeCols w / 32) + i), 1) else []

/-- The fields of an MRS form's operand (R248). -/
theorem padFields (x : Word) : bitsOf x.toNat 15 0 = x.toNat % 65536 ∧ bitsOf x.toNat 35 16 = x.toNat / 65536 % 2 ^ 20 ∧
    bitsOf x.toNat 58 57 = x.toNat / 2 ^ 57 % 4 ∧ bitsOf x.toNat 56 36 = x.toNat / 2 ^ 36 % 2 ^ 21 ∧ bitsOf x.toNat 63 59 = x.toNat / 2 ^ 59 :=
  ⟨congrArg (· % 65536) (Nat.div_one _), rfl, rfl, rfl, Nat.mod_eq_of_lt (by have := x.isLt; omega)⟩

section
variable {i : Instr} {ordered : Bool} (hpitch : (s.g b).toNat / 65536 % 2 ^ 20 % 8 = 0)
include hpitch

theorem rowFromPad_traps (hexec : exec i s = rowFromPad ordered e c c a b s) (h : Room s) (hc : Shaped s c cw) :
    Raises i s (.own 0x03 ((c ++ (0 : BitVec 1) ++ c).setWidth 64)) := by
  obtain ⟨-, hrpitch, -⟩ := padFields (s.g b)
  refine raises_of_traps h hexec ?_
  simp only [hrpitch, hpitch, if_true]
  exact rowChecks_both hc _

theorem rowFromPad_forks {ps : List (Nat × Place × Nat)} (hexec : exec i s = rowFromPad ordered e c st a b s) (h : Room s)
    (hagree : RowAgrees s accOfPad c st cw w ((s.g b).toNat % 65536)) (hzero : (s.g b).toNat / 2 ^ 57 % 4 = 0) (hstart : (padStart s a b).toNat % 8 = 0)
    (hparts : s.padParts (padRow s a b w ++ padScales s a b w) = .ok ps) :
    Completes i s e (s.forkMatrix { plain s (.rowOp ordered true st.toNat ((s.g b).toNat % 65536)) c with pieces := ps }) := by
  obtain ⟨hy, hrpitch, hbits, hbase, hrot⟩ := padFields (s.g b)
  have hrow : (Word.ofNat ((s.g b).toNat % 65536)).toNat = (s.g b).toNat % 65536 := by
    rw [Word.ofNat, BitVec.toNat_ofNat, Nat.mod_eq_of_lt (by omega)]
  refine completes_of_forks h hexec ?_
  simp only [hy, hrpitch, hpitch, if_true]
  refine (rowChecks_of_agrees accumulatorOf_pad (hrow.symm ▸ hagree) _).trans ?_
  rw [if_neg (not_not.2 (hbits.trans hzero))]
  refine (if_neg (not_not.2 hstart)).trans ?_
  have hlist : (List.map (fun j => (8 * j, s.g a + Word.ofNat ((s.g b).toNat % 65536 * ((s.g b).toNat / 65536 % 2 ^ 20)) +
        Word.ofNat ((j + bitsOf (s.g b).toNat 63 59) % (shapeRowBytes w / 8) * 8), 8)) (List.range (shapeRowBytes w / 8)) ++
      if isMx (shapeFmt w) then List.map (fun k => (0x8000 + k, s.g a + Word.ofNat (bitsOf (s.g b).toNat 56 36 +
        (s.g b).toNat % 65536 * (shapeCols w / 32) + k), 1)) (List.range (shapeCols w / 32)) else []) = padRow s a b w ++ padScales s a b w := by
    rw [hrot, hbase, padRow, padScales]
    simp only [isMx_iff, shapeFmt_eq, shapeRowBytes_eq]
    rfl
  rw [hlist, hparts]
  rfl

end

end Sys2Proof.Machine
end

section
/-!
Block sums (R128): the grain of a block, the integers kept of its values, and their sum. With O41.
-/
namespace Sys2Proof.Machine
open Sys2Proof.Claims

variable {f : Fmt} {fmt : Nat}

/-! ## Exponents of encodings -/

/-- The exponent of the lowest bit of a finite encoding is that of the subnormals at least (R111). -/
theorem exponent_ge (f : Fmt) {x m : Nat} {neg : Bool} {e : Int} (h : f.decode x = .num neg m e) : 1 - (f.bias : Int) - f.fbits ≤ e := by
  unfold Fmt.decode at h
  extract_lets neg' ex fr at h
  split at h
  · split at h <;> cases h
  · split at h
    · cases h
    · split at h
      · exact (FVal.num.inj h).2.2.le
      · have hpos : 0 < ex := Nat.pos_of_ne_zero (by assumption)
        have he := (FVal.num.inj h).2.2
        simp only [Int.ofNat_eq_natCast] at he
        omega

/-- A value that is a whole number of units of 2^-149, if it is finite. -/
def FVal.Fine (v : FVal) : Prop := ∀ neg m e, v = .num neg m e → -149 ≤ e

/-- The formats of tiles that row operations take have no finer values (R230). -/
theorem fine_decode (hf : f.bias + f.fbits ≤ 150) (x : Nat) : (f.decode x).Fine := by
  intro neg m e h
  have := exponent_ge f h
  omega

theorem units_isNone (v : FVal) : (units v).isNone = !v.finite := by cases v <;> rfl

/-- The magnitude of a value in units. -/
def magnitude (v : FVal) : Nat := ((units v).getD 0).natAbs

theorem magnitude_num (neg : Bool) (m : Nat) (e : Int) : magnitude (.num neg m e) = m * 2 ^ (e + 149).toNat := by
  cases neg <;> simp [magnitude, units, Int.natAbs_mul, Int.natAbs_pow]

theorem log2_mul_two_pow {m : Nat} (hm : m ≠ 0) (k : Nat) : Nat.log2 (m * 2 ^ k) = Nat.log2 m + k := by
  have hpos : m * 2 ^ k ≠ 0 := Nat.mul_ne_zero hm (Nat.two_pow_pos k).ne'
  refine Nat.le_antisymm (Nat.lt_succ_iff.1 ((Nat.log2_lt hpos).2 ?_)) ((Nat.le_log2 hpos).2 ?_)
  · rw [show (Nat.log2 m + k).succ = Nat.log2 m + 1 + k by omega, Nat.pow_add]
    exact Nat.mul_lt_mul_of_pos_right Nat.lt_log2_self (Nat.two_pow_pos k)
  · rw [Nat.pow_add]
    exact Nat.mul_le_mul_right _ (Nat.log2_self_le hm)

/-- The exponent of a value is that of its magnitude. -/
theorem exponent_eq {v : FVal} (hv : v.Fine) : v.exponent = if magnitude v = 0 then none else some ((Nat.log2 (magnitude v) : Int) - 149) := by
  cases v with
  | nan => rfl
  | inf neg => rfl
  | num neg m e =>
    have he := hv _ _ _ rfl
    rw [magnitude_num, FVal.exponent]
    by_cases hm : m = 0
    · simp [hm]
    · have hpos : m * 2 ^ (e + 149).toNat ≠ 0 := Nat.mul_ne_zero hm (Nat.two_pow_pos _).ne'
      rw [if_neg hm, if_neg hpos, log2_mul_two_pow hm]
      congr 1
      simp only [Int.ofNat_eq_natCast]
      omega

/-! ## The largest of a list -/

theorem foldl_max_spec (xs : List Nat) (a : Nat) :
    (xs.foldl max a = a ∨ xs.foldl max a ∈ xs) ∧ a ≤ xs.foldl max a ∧ ∀ x ∈ xs, x ≤ xs.foldl max a := by
  induction xs generalizing a with
  | nil => simp
  | cons x xs ih =>
    obtain ⟨hmem, hle, hall⟩ := ih (max a x)
    rw [List.foldl_cons]
    refine ⟨?_, by omega, List.forall_mem_cons.2 ⟨by omega, hall⟩⟩
    rw [List.mem_cons]
    obtain h | h := hmem
    · rw [h]; omega
    · exact .inr (.inr h)

/-- The largest magnitude of a block. -/
def blockTop (vs : List FVal) : Nat := (vs.map magnitude).foldl max 0

theorem max_exponent {vs : List FVal} (hvs : ∀ v ∈ vs, v.Fine) :
    (vs.filterMap FVal.exponent).max? = if blockTop vs = 0 then none else some ((Nat.log2 (blockTop vs) : Int) - 149) := by
  obtain ⟨hmem, -, hall⟩ := foldl_max_spec (vs.map magnitude) 0
  rw [← blockTop] at hmem hall
  rw [List.forall_mem_map] at hall
  split
  · rename_i htop
    rw [List.max?_eq_none_iff, List.filterMap_eq_nil_iff]
    intro v hv
    rw [exponent_eq (hvs v hv), if_pos (Nat.le_zero.1 (htop ▸ hall v hv))]
  · rename_i htop
    obtain ⟨v, hv, hmag⟩ := List.mem_map.1 (hmem.resolve_left htop)
    rw [List.max?_eq_some_iff]
    refine ⟨List.mem_filterMap.2 ⟨v, hv, by rw [exponent_eq (hvs v hv), hmag, if_neg htop]⟩, fun x hx => ?_⟩
    obtain ⟨u, hu, hux⟩ := List.mem_filterMap.1 hx
    rw [exponent_eq (hvs u hu)] at hux
    split at hux
    · cases hux
    · rename_i hne
      cases hux
      have := (Nat.le_log2 htop).2 (Nat.le_trans (Nat.log2_self_le hne) (hall u hu))
      omega

/-! ## Integers kept -/

theorem truncScaled_eq {neg : Bool} {m : Nat} {e g : Int} (he : -149 ≤ e) (hg : -149 ≤ g) :
    truncScaled neg m e (-g) = keptInt g (.num neg m e) := by
  have hnat : (if e + -g ≥ 0 then m * 2 ^ (e + -g).toNat else m / 2 ^ (-(e + -g)).toNat) = m * 2 ^ (e + 149).toNat / 2 ^ (g + 149).toNat := by
    split
    · rw [show (e + 149).toNat = (e + -g).toNat + (g + 149).toNat by omega, Nat.pow_add, ← Nat.mul_assoc, Nat.mul_div_cancel _ (Nat.two_pow_pos _)]
    · rw [show (g + 149).toNat = (-(e + -g)).toNat + (e + 149).toNat by omega, Nat.pow_add, Nat.mul_div_mul_right _ _ (Nat.two_pow_pos _)]
  rw [truncScaled, hnat, keptInt, units, Option.getD_some]
  cases neg with
  | false =>
    simp only [Bool.false_eq_true, if_false, Int.one_mul]
    norm_cast
  | true =>
    simp only [if_true, Int.neg_mul, Int.one_mul, Int.neg_tdiv]
    norm_cast

theorem keptBlock_eq {vs : List FVal} (hvs : ∀ v ∈ vs, v.Fine) (hfinite : ∀ v ∈ vs, v.finite = true) (hbias : f.bias ≤ 141) :
    keptBlock fmt f vs = (grain fmt f vs).map fun g => (vs.map (keptInt g), g) := by
  have hgrain : grain fmt f vs = if blockTop vs = 0 then none else
      some (if fmt = 7 then -1 else max (Int.ofNat (Nat.log2 (blockTop vs)) - 149) (1 - f.bias) - ((if fmt = 2 then 10 else 7) - 1)) := rfl
  rw [keptBlock, max_exponent hvs, hgrain]
  by_cases htop : blockTop vs = 0
  · rw [if_pos htop, if_pos htop]
    rfl
  · rw [if_neg htop, if_neg htop]
    dsimp only
    have hunit : (if fmt = 7 then (-1 : Int) else max ((Nat.log2 (blockTop vs) : Int) - 149) (1 - f.bias) - (Int.ofNat (keptBits fmt) - 1)) =
        if fmt = 7 then -1 else max (Int.ofNat (Nat.log2 (blockTop vs)) - 149) (1 - f.bias) - ((if fmt = 2 then 10 else 7) - 1) := by
      unfold keptBits
      grind
    have hlow : -149 ≤ (if fmt = 7 then (-1 : Int) else max (Int.ofNat (Nat.log2 (blockTop vs)) - 149) (1 - f.bias) - ((if fmt = 2 then 10 else 7) - 1)) := by
      split
      · decide
      · split <;> omega
    rw [hunit, Option.map_some]
    congr 2
    refine List.map_congr_left fun v hv => ?_
    cases v with
    | num neg m e => exact truncScaled_eq (hvs _ hv _ _ _ rfl) hlow
    | nan => cases hfinite _ hv
    | inf neg => cases hfinite _ hv

/-! ## Block sums -/

theorem blockSum_eq {a b : List FVal} (k : Option Int) (ha : ∀ v ∈ a, v.Fine) (hb : ∀ v ∈ b, v.Fine) (hbias : f.bias ≤ 141) :
    blockSum fmt f k a b = blockValue fmt f k a b := by
  unfold blockSum blockValue
  cases k with
  | none => rfl
  | some k =>
    dsimp only
    have hall : (!(a.all FVal.finite && b.all FVal.finite)) = (a ++ b).any fun v => (units v).isNone := by
      rw [List.any_append, Bool.not_and, List.not_all_eq_any_not, List.not_all_eq_any_not, funext units_isNone]
    rw [hall]
    split
    · rfl
    · rename_i hfin
      have hfinite (v : FVal) (hv : v ∈ a ++ b) : v.finite = true := by
        by_contra hne
        exact hfin (List.any_eq_true.2 ⟨v, hv, by rw [units_isNone]; simpa using hne⟩)
      rw [keptBlock_eq ha (fun v hv => hfinite v (List.mem_append_left _ hv)) hbias, keptBlock_eq hb (fun v hv => hfinite v (List.mem_append_right _ hv)) hbias]
      cases grain fmt f a with
      | none => rfl
      | some p =>
        cases grain fmt f b with
        | none => rfl
        | some q =>
          simp only [Option.map_some, List.zip_map, List.map_map, ← List.sum_eq_foldl]
          rfl

end Sys2Proof.Machine
end

section
/-!
Rows cut into blocks (R128, R231), and the sum of a row operation's blocks in order or in a tree (R129, R249). With O41.
-/
namespace Sys2Proof.Machine
open Sys2Proof.Claims

variable {f : Fmt} {fmt : Nat} {w : Word}

/-! ## Elements of a row's bytes -/

theorem shapeCols_eq (w : Word) : shapeCols w = rowBytesOf w * 8 / tileBits (fmtOf w) := rfl

/-- An MXFP4 row holds two elements to a byte (R231). -/
theorem splitElems_fp4 (bytes : List Byte) : splitElems 7 bytes = (List.range (bytes.length * 2)).map (rowElem 7 bytes) := by
  have hsplit : splitElems 7 bytes = bytes.flatMap fun b => [b.toNat % 16, b.toNat / 16] := rfl
  have hlen : (bytes.flatMap fun b : Byte => [b.toNat % 16, b.toNat / 16]).length = bytes.length * 2 := length_flatMap_uniform fun _ _ => rfl
  rw [hsplit]
  refine List.ext_getElem? fun c => ?_
  by_cases hc : c < bytes.length * 2
  · have hhalf : c / 2 < bytes.length := by omega
    have hbyte := (bytes[c / 2]).isLt
    conv_lhs => rw [show c = c / 2 * 2 + c % 2 by omega]
    rw [getElem?_flatMap_uniform (m := 2) (fun _ _ => rfl) _ (Nat.mod_lt c (by decide)), List.getElem?_eq_getElem hhalf, List.getElem?_map,
      List.getElem?_range hc, Option.map_some, rowElem, if_pos rfl, List.getD_eq_getElem?_getD, List.getElem?_eq_getElem hhalf, Option.getD_some]
    obtain h | h := Nat.mod_two_eq_zero_or_one c
    · simp [h]
    · simp only [h, Option.bind_some, Nat.one_ne_zero, if_false]
      exact congrArg some (Nat.mod_eq_of_lt (by omega)).symm
  · rw [List.getElem?_eq_none (by omega), List.getElem?_eq_none (by rw [List.length_map, List.length_range]; omega)]

theorem splitElems_eq {bytes : List Byte} (h : bytes.length = rowBytesOf w) :
    splitElems (fmtOf w) bytes = (List.range (shapeCols w)).map (rowElem (fmtOf w) bytes) := by
  rw [shapeCols_eq, ← h]
  by_cases h7 : fmtOf w = 7
  · rw [h7, splitElems_fp4, show tileBits 7 = 4 from rfl, show bytes.length * 8 / 4 = bytes.length * 2 by omega]
  · have hcols : bytes.length * 8 / tileBits (fmtOf w) = bytes.length / (tileBits (fmtOf w) / 8) := by
      have hbits := tileBits_shapeElem h7
      rw [hbits, Nat.mul_comm, Nat.mul_div_mul_left _ _ (by decide), Nat.mul_div_cancel_left _ (by decide)]
    rw [splitElems, if_neg h7, hcols]
    refine List.map_congr_left fun c _ => ?_
    rw [rowElem, if_neg h7]

/-! ## Blocks of 32 -/

theorem blocksOf_eq {α : Type} (fuel : Nat) {xs : List α} (h : xs.length ≤ 32 * fuel) :
    blocksOf fuel xs = (List.range ((xs.length + 31) / 32)).map fun b => (xs.drop (32 * b)).take 32 := by
  induction fuel generalizing xs with
  | zero =>
    rw [List.eq_nil_of_length_eq_zero (by omega : xs.length = 0)]
    simp [blocksOf]
  | succ fuel ih =>
    cases xs with
    | nil => simp [blocksOf]
    | cons x xs =>
      have hlen : ((x :: xs).drop 32).length = (x :: xs).length - 32 := List.length_drop
      rw [blocksOf.eq_3, ih (by omega), hlen]
      · generalize hn : (x :: xs).length = n at h
        have hpos : 0 < n := by rw [← hn]; exact Nat.succ_pos _
        rw [show (n + 31) / 32 = (n - 32 + 31) / 32 + 1 by omega, List.range_succ_eq_map, List.map_cons, List.map_map]
        congr 1
        refine List.map_congr_left fun b _ => ?_
        rw [List.drop_drop, Function.comp, Nat.mul_succ, Nat.add_comm]
      · exact fun h => by cases h

/-- The sums of the blocks of row `n` of a stationary tile with an A row, as the model cuts them, are those of the claims (R249). -/
theorem rowSums_eq {bytes : List Byte} {ascales : List Nat} {t : Tile} {n : Nat} (hlen : bytes.length = rowBytesOf w) (hcols : shapeCols w ≤ 1024)
    (hfine : f.bias + f.fbits ≤ 150) (hbias : f.bias ≤ 141) :
    (((blocksOf 32 ((splitElems (fmtOf w) bytes).map f.decode)).zip
      (blocksOf 32 ((List.range (shapeCols w)).map fun col => f.decode (t.elem w n col).1))).zip
      ((List.range ((shapeCols w + 31) / 32)).map fun b =>
        if isMx (fmtOf w) then scaleExp (ascales.getD b 0) (t.scaleOf w n (32 * b)).1 else some 0)).map (fun p => blockSum (fmtOf w) f p.2 p.1.1 p.1.2) =
    blockSums (fmtOf w) f w bytes ascales t n := by
  have hrow : (splitElems (fmtOf w) bytes).map f.decode = (List.range (shapeCols w)).map fun c => f.decode (rowElem (fmtOf w) bytes c) := by
    rw [splitElems_eq hlen, List.map_map]
    rfl
  simp only [hrow, elem_eq]
  have hblocks (g : Nat → FVal) : blocksOf 32 ((List.range (shapeCols w)).map g) =
      (List.range ((shapeCols w + 31) / 32)).map fun b => (((List.range (shapeCols w)).map g).drop (32 * b)).take 32 := by
    rw [blocksOf_eq 32 (by rw [List.length_map, List.length_range]; exact hcols), List.length_map, List.length_range]
  have hdecoded (g : Nat → Nat) (b : Nat) : ∀ v ∈ (((List.range (shapeCols w)).map fun c => f.decode (g c)).drop (32 * b)).take 32, v.Fine := by
    intro v hv
    obtain ⟨c, -, rfl⟩ := List.mem_map.1 (List.mem_of_mem_drop (List.mem_of_mem_take hv))
    exact fine_decode hfine _
  rw [hblocks, hblocks, List.zip_map', List.zip_map', List.map_map, blockSums]
  refine List.map_congr_left fun b _ => ?_
  rw [Function.comp]
  dsimp only
  rw [blockSum_eq _ (hdecoded _ b) (hdecoded _ b) hbias]
  congr 1
  have hscale : (t.scaleOf w n (32 * b)).1 = (t.byte (0x8000 + n * (shapeCols w / 32) + b)).toNat := by
    rw [Tile.scaleOf, Nat.mul_div_cancel_left _ (by decide)]
  by_cases hmx : fmtOf w = 6 ∨ fmtOf w = 7
  · rw [if_pos ((isMx_iff _).2 hmx), if_neg (by omega), scaleExp, hscale]
  · rw [if_neg (mt (isMx_iff _).1 hmx), if_pos (by omega)]

/-! ## Sums in a tree (R129) -/

theorem addF32_eq : addF32 = plus := rfl

/-- Two terms of a tree combined before the others. -/
theorem combined_of_first {xs ws zs : List Nat} {a b z : Nat} (h : Combined ws z) (hws : ws.Perm (plus a b :: zs)) (hxs : xs.Perm (a :: b :: zs)) :
    Combined xs z := by
  induction h generalizing xs zs with
  | one x =>
    obtain ⟨rfl, rfl⟩ : x = plus a b ∧ zs = [] := by simpa using List.singleton_perm.1 hws
    exact .two (.one a) (.one b) hxs
  | two hu hv hsplit ihu ihv =>
    rename_i us vs ts p q
    have hall : (us ++ vs).Perm (plus a b :: zs) := hsplit.symm.trans hws
    have hmem : plus a b ∈ us ++ vs := hall.mem_iff.2 List.mem_cons_self
    obtain hin | hin := List.mem_append.1 hmem
    · have hus := List.perm_cons_erase hin
      have hrest : (us.erase (plus a b) ++ vs).Perm zs := List.Perm.cons_inv ((hus.append_right vs).symm.trans hall)
      exact .two (ihu hus (.refl _)) hv (hxs.trans (.cons a (.cons b hrest.symm)))
    · have hvs := List.perm_cons_erase hin
      have hrest : (us ++ vs.erase (plus a b)).Perm zs :=
        List.Perm.cons_inv (List.perm_middle.symm.trans ((hvs.append_left us).symm.trans hall))
      refine .two hu (ihv hvs (.refl _)) (hxs.trans ?_)
      exact (List.Perm.cons a (.cons b hrest.symm)).trans ((List.Perm.cons a List.perm_middle.symm).trans List.perm_middle.symm)

theorem perm_getD_eraseIdx {xs : List Nat} {i : Nat} (hi : i < xs.length) : xs.Perm (xs.getD i 0 :: xs.eraseIdx i) := by
  rw [List.getD_eq_getElem _ _ hi]
  exact (List.getElem_cons_eraseIdx_perm hi).symm

/-- A sum over any tree is one of those of R129. -/
theorem combined_freeSum (fuel n : Nat) {xs : List Nat} (hpos : xs ≠ []) (hlen : xs.length ≤ fuel) : Combined xs (freeSum fuel n xs) := by
  induction fuel generalizing n xs with
  | zero => exact absurd (List.eq_nil_of_length_eq_zero (Nat.le_zero.1 hlen)) hpos
  | succ fuel ih =>
    match xs with
    | [] => exact absurd rfl hpos
    | [x] => exact .one x
    | x :: y :: rest =>
      unfold freeSum
      extract_lets i others j
      have hi : i < (x :: y :: rest).length := Nat.mod_lt _ (Nat.succ_pos _)
      have hothers : others.length = rest.length + 1 := by
        rw [List.length_eraseIdx_of_lt hi]
        rfl
      have hj : j < others.length := Nat.mod_lt _ (by omega)
      rw [addF32_eq]
      refine combined_of_first (ih (n + 2) (List.cons_ne_nil _ _) ?_) (.refl _) ((perm_getD_eraseIdx hi).trans (.cons _ (perm_getD_eraseIdx hj)))
      rw [List.length_cons, List.length_eraseIdx_of_lt hj]
      simp only [List.length_cons] at hlen
      omega

/-! ## Results are FP32 encodings -/

theorem encode_fp32_lt (v : FVal) : fp32.encode 0 0 v < 2 ^ 32 := encode_lt (f := fp32) (by decide) 0 0 v

theorem plus_lt (x y : Nat) : plus x y < 2 ^ 32 := encode_fp32_lt _

theorem blockValue_lt (fmt : Nat) (f : Fmt) (k : Option Int) (a b : List FVal) : blockValue fmt f k a b < 2 ^ 32 := by
  unfold blockValue
  split
  · decide
  · split
    · decide
    · split
      · extract_lets sum
        split
        · decide
        · exact encode_fp32_lt _
      · decide

theorem foldl_plus_lt {xs : List Nat} {x : Nat} (hx : x < 2 ^ 32) : xs.foldl plus x < 2 ^ 32 := by
  induction xs generalizing x with
  | nil => exact hx
  | cons y ys ih => exact ih (plus_lt x y)

theorem combined_lt {xs : List Nat} {z : Nat} (h : Combined xs z) (hxs : ∀ x ∈ xs, x < 2 ^ 32) : z < 2 ^ 32 := by
  cases h with
  | one => exact hxs z List.mem_cons_self
  | two => exact plus_lt _ _

theorem canonical_lt {x : Nat} (hx : x < 2 ^ 32) : canonical x < 2 ^ 32 := by
  unfold canonical
  split
  · decide
  · exact hx

/-! ## One result element (R249) -/

/-- An element of a float row operation: the sums added in order, or in some tree. -/
theorem rowElement_eq {ordered : Bool} {n x : Nat} {a b : List FVal} {scales : List (Option Int)} {sums : List Nat}
    (hsums : (((blocksOf 32 a).zip (blocksOf 32 b)).zip scales).map (fun p => blockSum fmt f p.2 p.1.1 p.1.2) = sums) (hlen : sums.length ≤ 32) :
    (ordered = true → rowElement ordered n fmt f x a b scales = canonical (sums.foldl plus x)) ∧
    (ordered = false → ∃ z, Combined (x :: sums) z ∧ rowElement ordered n fmt f x a b scales = canonical z) := by
  subst hsums
  refine ⟨?_, ?_⟩
  · rintro rfl
    rfl
  · rintro rfl
    exact ⟨_, combined_freeSum 33 n (List.cons_ne_nil _ _) (Nat.succ_le_succ hlen), rfl⟩

end Sys2Proof.Machine
end

section
/-!
A row operation performed (R249, R250): the row that it writes, where a word that it fetches is poisoned and where none is. With O41.
-/
namespace Sys2Proof.Machine
open Sys2Proof.Claims

variable {s u : State} {op : MatOp} {w cw : Word} {ordered stream : Bool} {st y k : Nat} {f : Fmt}

/-! ## Bytes of a row -/

/-- Row bytes written into the operation's tile, and nothing else of any tile. -/
structure RowWritten (s u : State) (op : MatOp) (base : Nat) (bytes : List (Byte × Bool)) : Prop where
  tile : u.tile op.tile = { (s.tile op.tile).putList base bytes with dirty := true }
  other : ∀ k, k ≠ op.tile → u.tile k = s.tile k

theorem shapeElem_of_accumulator (hcw : fmtOf cw = 1 ∨ fmtOf cw = 10) : shapeElem cw = 4 := by
  rw [shapeElem, shapeFmt_eq]
  obtain h | h := hcw <;> rw [h] <;> rfl

namespace RowWritten

variable {base : Nat} {bytes : List (Byte × Bool)}

theorem of_modTile (ht : u.HasTile op.tile) (hsame : ∀ k, u.tile k = s.tile k) :
    RowWritten s (u.modTile op.tile fun t => { t.putList base bytes with dirty := true }) op base bytes :=
  ⟨by rw [tile_modTile_same ht, hsame], fun k hk => (tile_modTile_other hk _).trans (hsame k)⟩

theorem then_keeps {v : State} (h : RowWritten s u op base bytes) (hv : ∀ k, v.tile k = u.tile k) : RowWritten s v op base bytes :=
  ⟨(hv _).trans h.tile, fun k hk => (hv k).trans (h.other k hk)⟩

/-- The written row and the rest of the tile, for `len` bytes in whole words. -/
theorem frame (h : RowWritten s u op base bytes) (hcw : (s.tile op.tile).shape = some cw) :
    (∀ k, ¬ (base ≤ k ∧ k < base + bytes.length) → (u.tile op.tile).byte k = (s.tile op.tile).byte k) ∧ (u.tile op.tile).shape = some cw ∧
    (u.tile op.tile).dirty = true := by
  rw [h.tile]
  exact ⟨fun k hk => byte_putList_other _ (by omega), (putList_shape ..).trans hcw, rfl⟩

theorem marked (h : RowWritten s u op base bytes) {i : Nat} (hi : i < bytes.length) : (u.tile op.tile).Marked (base + i) ↔ bytes[i].2 = true := by
  rw [h.tile]
  exact marked_putList _ _ hi

theorem poisoned_of_all (h : RowWritten s u op base bytes) (hbad : ∀ x ∈ bytes, x.2 = true) (hk : base ≤ k ∧ k < base + bytes.length) :
    (u.tile op.tile).poisoned k = true := by
  have hi : k - base < bytes.length := by omega
  have := (h.marked hi).2 (hbad _ (List.getElem_mem hi))
  rw [Nat.add_sub_cancel' hk.1] at this
  exact poisoned_of_marked this

theorem clean_of_all (h : RowWritten s u op base bytes) (hclean : ∀ x ∈ bytes, x.2 = false) (h8 : base % 8 = 0) (hlen : bytes.length % 8 = 0)
    (hk : base ≤ k ∧ k < base + bytes.length) : (u.tile op.tile).poisoned k = false := by
  by_contra hp
  obtain ⟨n, hn, hmark⟩ := poisoned_iff.1 (by simpa using hp)
  have hi : n - base < bytes.length := by omega
  have := (h.marked hi).1 (by rwa [Nat.add_sub_cancel' (by omega)])
  rw [hclean _ (List.getElem_mem hi)] at this
  cases this

/-- A written element of four bytes. -/
theorem tileElem {out : List (Nat × Bool)} (h : RowWritten s u op (y * rowBytesOf cw) (elemBytes 4 out)) (hcw : fmtOf cw = 1 ∨ fmtOf cw = 10) {n : Nat}
    {x : Nat × Bool} (hx : out[n]? = some x) (hlt : x.1 < 2 ^ 32) : Claims.tileElem (u.tile op.tile) cw y n = x.1 := by
  rw [Claims.tileElem, if_neg (by omega), shapeElem_of_accumulator hcw, h.tile]
  simp only [Nat.add_assoc]
  exact (putList_elemBytes _ _ hx).1.trans (Nat.mod_eq_of_lt hlt)

end RowWritten

/-! ## Poison met (R250) -/

/-- Whether a word that a row operation fetches is poisoned. -/
def State.rowBad (s : State) (op : MatOp) (stream : Bool) (w cw : Word) (st y : Nat) : Bool :=
  (s.aRow op stream w).bad ||
    ((List.range (rowsOf w * rowBytesOf w)).any (fun b => b % 8 == 0 && (s.tile st).poisoned b) ||
      (isMx (fmtOf w) && (List.range (rowsOf w * (shapeCols w / 32))).any fun b => (s.tile st).poisoned (0x8000 + b))) ||
    (List.range (rowsOf w)).any fun i => ((s.tile op.tile).elem cw y i).2

/-- Poison is of whole words, so the first byte of each tells. -/
theorem any_word_poisoned (t : Tile) {n : Nat} :
    ((List.range n).any fun b => b % 8 == 0 && t.poisoned b) = true ↔ ∃ k, k < n ∧ t.poisoned k = true := by
  simp only [List.any_eq_true, List.mem_range, Bool.and_eq_true, beq_iff_eq]
  constructor
  · rintro ⟨k, hk, -, hp⟩
    exact ⟨k, hk, hp⟩
  · rintro ⟨k, hk, hp⟩
    refine ⟨k / 8 * 8, by omega, Nat.mul_mod_left .., ?_⟩
    obtain ⟨m, hm, hmark⟩ := poisoned_iff.1 hp
    exact poisoned_iff.2 ⟨m, by omega, hmark⟩

/-- An accumulator element of four bytes is poisoned where one of its bytes is. -/
theorem any_elem_poisoned (t : Tile) (hcw : fmtOf cw = 1 ∨ fmtOf cw = 10) (h8 : rowBytesOf cw % 8 = 0) {n : Nat} (hrow : rowBytesOf cw = 4 * n) :
    ((List.range n).any fun i => (t.elem cw y i).2) = true ↔ ∃ k, k < rowBytesOf cw ∧ t.poisoned (y * rowBytesOf cw + k) = true := by
  have hbase : y * rowBytesOf cw % 8 = 0 := by rw [Nat.mul_mod, h8, Nat.mul_zero, Nat.zero_mod]
  simp only [List.any_eq_true, List.mem_range, elem_marked t (show fmtOf cw ≠ 7 by omega), shapeElem_of_accumulator hcw]
  constructor
  · rintro ⟨i, hi, hp⟩
    exact ⟨i * 4, by omega, hp⟩
  · rintro ⟨k, hk, hp⟩
    obtain ⟨m, hm, hmark⟩ := poisoned_iff.1 hp
    exact ⟨k / 4, by omega, poisoned_iff.2 ⟨m, by omega, hmark⟩⟩

theorem aRow_bad (hlen : stream = false → op.vpois.length ≤ rowBytesOf w) : (s.aRow op stream w).bad = true ↔
    (stream = true ∧ ∃ p ∈ op.pieces, s.anyPoison p.2.1 p.2.2 = true) ∨ (stream = false ∧ ∃ b ∈ op.vpois, b = true) := by
  cases stream with
  | true => simp [State.aRow, List.any_eq_true]
  | false => simp [State.aRow, List.take_of_length_le (hlen rfl)]

theorem accumulator_format (h : RowReady s op stream w cw st y) : fmtOf cw = 1 ∨ fmtOf cw = 10 := by
  obtain ⟨-, -, -, -, -, hacc, -⟩ := h
  unfold accOfPad at hacc
  split at hacc
  · exact .inl (Option.some.inj hacc).symm
  · split at hacc
    · exact .inr (Option.some.inj hacc).symm
    · cases hacc

/-- A legal shape's row is of whole words, and has at most 512 bytes (R229). -/
theorem rowBytes_of_legal (h : shapeLegal w = true) : rowBytesOf w % 8 = 0 ∧ rowBytesOf w ≤ 512 := by
  change shapeRowBytes w % 8 = 0 ∧ shapeRowBytes w ≤ 512
  unfold shapeLegal at h
  simp only [Bool.and_eq_true, beq_iff_eq, decide_eq_true_eq] at h
  omega

theorem cols_of_legal (h : shapeLegal w = true) : shapeCols w ≤ 1024 := by
  have hrow := (rowBytes_of_legal h).2
  have hbits : 4 ≤ tileBits (fmtOf w) := by
    unfold tileBits
    split <;> decide
  rw [shapeCols_eq]
  exact (Nat.div_le_div_left hbits (by decide)).trans (by omega)

theorem rowBad_iff (h : RowReady s op stream w cw st y) : s.rowBad op stream w cw st y = true ↔ ¬ RowClean s op stream w cw st y := by
  have hacc := accumulator_format h
  obtain ⟨-, -, -, hlegal, hclegal, -, hrow, -, hbytes, hpois⟩ := h
  have hlen : stream = false → op.vpois.length ≤ rowBytesOf w := by
    rintro rfl
    rw [hpois rfl, ← hbytes]
    exact Nat.le_refl _
  rw [State.rowBad, Bool.or_eq_true, Bool.or_eq_true, Bool.or_eq_true, Bool.and_eq_true, aRow_bad hlen, any_word_poisoned, isMx_iff,
    any_elem_poisoned _ hacc (rowBytes_of_legal hclegal).1 hrow, RowClean]
  simp only [List.any_eq_true, List.mem_range]
  cases stream <;> grind

/-! ## The row written (R249, R250) -/

/-- With no ECC error in memory the fetch of a row changes nothing (R226). -/
theorem rowFetch_eq (he : s.ecc = []) (stream : Bool) (op : MatOp) :
    (if stream then op.pieces.foldl (fun s p => s.eccAccess p.2.1 p.2.2) s else s) = s := by
  have hnone (l : List (Nat × Place × Nat)) : l.foldl (fun s p => s.eccAccess p.2.1 p.2.2) s = s := by
    induction l with
    | nil => rfl
    | cons p l ih => rw [List.foldl_cons, eccAccess_of_none he, ih]
  split
  · exact hnone _
  · rfl

/-- An element of a float row operation as the model computes it: `d` numbers its free choices. -/
def State.floatElem (s : State) (op : MatOp) (ordered stream : Bool) (w cw : Word) (st y : Nat) (f : Fmt) (d i : Nat) : Nat :=
  rowElement ordered d (fmtOf w) f ((s.tile op.tile).elem cw y i).1 ((s.aRow op stream w).elems.map f.decode)
    ((List.range (shapeCols w)).map fun col => f.decode ((s.tile st).elem w i col).1)
    ((List.range ((shapeCols w + 31) / 32)).map fun b =>
      if isMx (fmtOf w) then scaleExp ((s.aRow op stream w).scales.getD b 0) ((s.tile st).scaleOf w i (32 * b)).1 else some 0)

/-- An element of an integer row operation, and whether it sets RIV. -/
def State.residueElem (s : State) (op : MatOp) (stream : Bool) (w cw : Word) (st y i : Nat) : Nat × Bool :=
  let sum := ((List.range (shapeCols w)).map fun col =>
    toSigned 8 ((s.aRow op stream w).elems.getD col 0) * toSigned 8 ((s.tile st).elem w i col).1).foldl (· + ·) 0
  let x := ((s.tile op.tile).elem cw y i).1
  if resValid x then (resAdd x (resWord sum), false) else (0xFFFFFFFF, true)

section
variable (hr : s.regEcc = []) (he : s.ecc = []) (ht : s.HasTile op.tile) (h : op.kind = .rowOp ordered stream st y)
  (hw : (s.tile st).shape = some w) (hcw : (s.tile op.tile).shape = some cw)
include hr he ht h hw hcw

/-- A poisoned word fetched: every word of the row is poisoned. -/
theorem performMatrix_rowPoisoned (hbad : s.rowBad op stream w cw st y = true) :
    ∃ bytes : List (Byte × Bool), bytes.length = 4 * rowsOf w ∧ (∀ x ∈ bytes, x.2 = true) ∧
      RowWritten s (s.performMatrix op) op (y * rowBytesOf cw) bytes := by
  refine ⟨(List.range (4 * rowsOf w)).map fun i => ((Config.freeWord (s.free + i)).setWidth 8, true), by simp, by simp, ?_⟩
  unfold State.rowBad at hbad
  simp only [State.performMatrix, eccRegisters_of_none hr, h, State.performRow, hw, hcw, rowFetch_eq he, shapeRows_eq, shapeRowBytes_eq, shapeFmt_eq, hbad,
    if_true, State.drawMany]
  refine .then_keeps (.of_modTile (u := { s with free := s.free + 4 * rowsOf w }) ht fun _ => rfl) fun k => ?_
  exact (keepsTeams_fileEvent ..).tile (keepsHarts_fileEvent ..) k

theorem performMatrix_rowFloat (hbad : s.rowBad op stream w cw st y = false) (hf : tileFloat (fmtOf w) = some f) :
    RowWritten s (s.performMatrix op) op (y * rowBytesOf cw)
      (elemBytes 4 ((List.range (rowsOf w)).map fun i => (s.floatElem op ordered stream w cw st y f (s.free + 66 * i) i, false))) ∧
    (s.performMatrix op).hart = s.hart := by
  unfold State.rowBad at hbad
  simp only [State.performMatrix, eccRegisters_of_none hr, h, State.performRow, hw, hcw, rowFetch_eq he, shapeRows_eq, shapeRowBytes_eq, shapeFmt_eq, hbad,
    hf, Bool.false_eq_true, if_false, State.drawMany, elemBytes, List.flatMap_map]
  exact ⟨.of_modTile (u := { s with free := s.free + 66 * rowsOf w }) ht fun _ => rfl, modTile_hart ..⟩

theorem performMatrix_rowResidue (hbad : s.rowBad op stream w cw st y = false) (hf : tileFloat (fmtOf w) = none) :
    let out := (List.range (rowsOf w)).map (s.residueElem op stream w cw st y)
    RowWritten s (s.performMatrix op) op (y * rowBytesOf cw) (elemBytes 4 (out.map fun x => (x.1, false))) ∧
    (s.performMatrix op).hart = if out.any (·.2) then s.hart.lateWrite Regs.setRiv else s.hart := by
  unfold State.rowBad at hbad
  simp only [State.performMatrix, eccRegisters_of_none hr, h, State.performRow, hw, hcw, rowFetch_eq he, shapeRows_eq, shapeRowBytes_eq, shapeFmt_eq, hbad,
    hf, Bool.false_eq_true, if_false, elemBytes, List.flatMap_map]
  change RowWritten s (State.modTile (if (List.map (s.residueElem op stream w cw st y) _).any (·.2) then _ else s) _ _) _ _ _ ∧
    State.hart (State.modTile (if (List.map (s.residueElem op stream w cw st y) _).any (·.2) then _ else s) _ _) = _
  rw [modTile_hart]
  split
  · exact ⟨.of_modTile (u := s.modHart fun h => h.lateWrite Regs.setRiv) (hasTile_lateWrite ht _) fun _ => rfl, rfl⟩
  · exact ⟨.of_modTile ht fun _ => rfl, rfl⟩

end

end Sys2Proof.Machine
end

section
/-!
What performing a row operation leaves (R249, R250), and O41.
-/
namespace Sys2Proof.Machine
open Sys2Proof.Claims

variable {s : State} {op : MatOp} {w cw : Word} {ordered stream : Bool} {st y n : Nat} {f : Fmt}

theorem elemBytes_clean {size : Nat} {out : List (Nat × Bool)} (h : ∀ x ∈ out, x.2 = false) : ∀ b ∈ elemBytes size out, b.2 = false := by
  intro b hb
  obtain ⟨x, hx, hbx⟩ := List.mem_flatMap.1 hb
  obtain ⟨c, -, rfl⟩ := List.mem_map.1 hbx
  exact h x hx

/-! ## The A row -/

theorem aRow_elems (hbytes : (aBytes s op stream).length = rowBytesOf w) :
    (s.aRow op stream w).elems = (List.range (shapeCols w)).map (rowElem (fmtOf w) (aBytes s op stream)) := by
  rw [← splitElems_eq hbytes]
  cases stream with
  | true => rfl
  | false => exact congrArg (splitElems (fmtOf w)) (List.take_of_length_le hbytes.le)

theorem aRow_scales (s : State) (op : MatOp) (stream : Bool) (w : Word) : (s.aRow op stream w).scales = aScales s op stream := by
  cases stream with
  | true => exact List.map_map
  | false => rfl

/-! ## Elements of a float form (R128, R129, R249) -/

theorem tileFloat_fine {fmt : Nat} (hf : tileFloat fmt = some f) : f.bias + f.fbits ≤ 150 ∧ f.bias ≤ 141 := by
  unfold tileFloat at hf
  split at hf <;> cases hf <;> decide

/-- An element of a float form: the accumulator and the block sums added in order, or in some tree. -/
theorem floatElem_eq (hbytes : (aBytes s op stream).length = rowBytesOf w) (hlegal : shapeLegal w = true) (hf : tileFloat (fmtOf w) = some f) (d n : Nat) :
    let x := tileElem (s.tile op.tile) cw y n
    let sums := blockSums (fmtOf w) f w (aBytes s op stream) (aScales s op stream) (s.tile st) n
    (ordered = true → s.floatElem op ordered stream w cw st y f d n = canonical (sums.foldl plus x)) ∧
    (ordered = false → ∃ z, Combined (x :: sums) z ∧ s.floatElem op ordered stream w cw st y f d n = canonical z) := by
  intro x sums
  obtain ⟨hfine, hbias⟩ := tileFloat_fine hf
  have hcols := cols_of_legal hlegal
  have hlen : sums.length = (shapeCols w + 31) / 32 := by
    unfold sums blockSums
    rw [List.length_map, List.length_range]
  have hsums := rowSums_eq (ascales := aScales s op stream) (t := s.tile st) (n := n) hbytes hcols hfine hbias
  rw [splitElems_eq hbytes, ← aRow_elems hbytes, ← aRow_scales s op stream w] at hsums
  unfold State.floatElem
  rw [elem_eq]
  exact rowElement_eq (hsums.trans (by rw [aRow_scales])) (by omega)

theorem blockSums_lt {fmt : Nat} {a : List Byte} {scales : List Nat} {t : Tile} : ∀ z ∈ blockSums fmt f w a scales t n, z < 2 ^ 32 := by
  intro z hz
  obtain ⟨b, -, rfl⟩ := List.mem_map.1 hz
  exact blockValue_lt ..

theorem tileElem_lt (t : Tile) (hcw : fmtOf cw = 1 ∨ fmtOf cw = 10) : tileElem t cw y n < 2 ^ 32 := by
  rw [tileElem, if_neg (by omega), shapeElem_of_accumulator hcw]
  exact Nat.lt_of_lt_of_eq (bytesToNat_lt _) (by rw [List.length_map, List.length_range])

/-! ## Elements of an integer form (R124, R249) -/

/-- The exact sum of row `n` of the stationary tile with the A row. -/
def rowSum (w : Word) (a : List Byte) (t : Tile) (n : Nat) : Int :=
  ((List.range (shapeCols w)).map fun c => signed 8 (rowElem 8 a c) * signed 8 (tileElem t w n c)).sum

theorem signed_abs (x : Nat) : |signed 8 x| ≤ 128 := by
  rw [← toSigned_eq_signed, toSigned, abs_le]
  have := Nat.mod_lt x (show 0 < 2 ^ 8 by decide)
  split <;> simp only [Int.ofNat_eq_natCast] <;> omega

theorem abs_sum_le {xs : List Int} {b : Int} (h : ∀ x ∈ xs, |x| ≤ b) : |xs.sum| ≤ xs.length * b := by
  induction xs with
  | nil => simp
  | cons x xs ih =>
    obtain ⟨hx, hxs⟩ := List.forall_mem_cons.1 h
    rw [List.sum_cons, List.length_cons, Nat.cast_succ, add_mul, one_mul, add_comm]
    exact (abs_add_le ..).trans (add_le_add (ih hxs) hx)

/-- No sum of a row leaves the residue range (R122). -/
theorem resOfSigned_rowSum (a : List Byte) (t : Tile) (n : Nat) (hcols : shapeCols w ≤ 1024) :
    resOfSigned (rowSum w a t n) = some (resWord (rowSum w a t n)) := by
  have hbound : |rowSum w a t n| ≤ 1024 * (128 * 128) := by
    refine (abs_sum_le (b := 128 * 128) fun x hx => ?_).trans ?_
    · obtain ⟨c, -, rfl⟩ := List.mem_map.1 hx
      rw [abs_mul]
      exact mul_le_mul (signed_abs _) (signed_abs _) (abs_nonneg _) (by decide)
    · rw [List.length_map, List.length_range]
      exact mul_le_mul_of_nonneg_right (by exact_mod_cast hcols) (by decide)
  obtain ⟨hlo, hhi⟩ := abs_le.1 hbound
  exact if_pos (by omega)

theorem residueElem_eq (hbytes : (aBytes s op stream).length = rowBytesOf w) (h8 : fmtOf w = 8) (n : Nat) :
    s.residueElem op stream w cw st y n = if resValid (tileElem (s.tile op.tile) cw y n)
      then (resAdd (tileElem (s.tile op.tile) cw y n) (resWord (rowSum w (aBytes s op stream) (s.tile st) n)), false) else (0xFFFFFFFF, true) := by
  have hsum : ((List.range (shapeCols w)).map fun col => toSigned 8 ((s.aRow op stream w).elems.getD col 0) * toSigned 8 ((s.tile st).elem w n col).1).foldl
      (· + ·) 0 = rowSum w (aBytes s op stream) (s.tile st) n := by
    rw [← List.sum_eq_foldl, rowSum]
    congr 1
    refine List.map_congr_left fun c hc => ?_
    rw [aRow_elems hbytes, h8, elem_eq, toSigned_eq_signed, List.getD_eq_getElem?_getD, List.getElem?_map, List.getElem?_range (List.mem_range.1 hc)]
    rfl
  unfold State.residueElem
  rw [hsum, elem_eq]

theorem resAdd_lt (a b : Nat) : resAdd a b < 2 ^ 32 := by
  have h1 := Nat.mod_lt (bitsOf a 30 20 + bitsOf b 30 20) (show 0 < 1025 by decide)
  have h2 := Nat.mod_lt (bitsOf a 19 10 + bitsOf b 19 10) (show 0 < 1024 by decide)
  have h3 := Nat.mod_lt (bitsOf a 9 0 + bitsOf b 9 0) (show 0 < 1023 by decide)
  rw [resAdd]
  omega

/-! ## The row performed -/

theorem rowBad_of_clean (hclean : RowClean s op stream w cw st y) (hready : RowReady s op stream w cw st y) : s.rowBad op stream w cw st y = false := by
  rw [← Bool.not_eq_true, rowBad_iff hready, not_not]
  exact hclean

section
variable (hr : s.regEcc = []) (he : s.ecc = []) (ht : s.HasTile op.tile) (h : op.kind = .rowOp ordered stream st y)
  (hready : RowReady s op stream w cw st y)
include hr he ht h hready

/-- A row operation writes its row of the accumulator: all of it poisoned where it meets poison, none of it otherwise. -/
theorem rowOp_written : ∃ bytes, bytes.length = rowBytesOf cw ∧ RowWritten s (s.performMatrix op) op (y * rowBytesOf cw) bytes ∧
    (RowClean s op stream w cw st y → ∀ x ∈ bytes, x.2 = false) ∧ (¬ RowClean s op stream w cw st y → ∀ x ∈ bytes, x.2 = true) := by
  have hiff := rowBad_iff hready
  obtain ⟨hw, hcw, -, -, -, -, hrow, -⟩ := hready
  cases hbad : s.rowBad op stream w cw st y with
  | true =>
    obtain ⟨bytes, hlen, hall, hwritten⟩ := performMatrix_rowPoisoned hr he ht h hw hcw hbad
    exact ⟨bytes, hlen.trans hrow.symm, hwritten, fun hclean => absurd hclean (hiff.1 hbad), fun _ => hall⟩
  | false =>
    have hclean : ¬ ¬ RowClean s op stream w cw st y := mt hiff.2 (by simp [hbad])
    cases hf : tileFloat (fmtOf w) with
    | some f =>
      refine ⟨_, ?_, (performMatrix_rowFloat hr he ht h hw hcw hbad hf).1, fun _ => elemBytes_clean (by simp), fun hnot => absurd hnot hclean⟩
      rw [elemBytes_length, List.length_map, List.length_range, hrow, Nat.mul_comm]
    | none =>
      refine ⟨_, ?_, (performMatrix_rowResidue hr he ht h hw hcw hbad hf).1, fun _ => elemBytes_clean (by simp), fun hnot => absurd hnot hclean⟩
      rw [elemBytes_length, List.length_map, List.length_map, List.length_range, hrow, Nat.mul_comm]

theorem rowOp_frame :
    let u := s.performMatrix op
    let t := u.tile op.tile
    let row (k : Nat) := y * rowBytesOf cw ≤ k ∧ k < (y + 1) * rowBytesOf cw
    (∀ k, ¬ row k → t.byte k = (s.tile op.tile).byte k) ∧ t.shape = some cw ∧ t.dirty = true ∧ (∀ k, k ≠ op.tile → u.tile k = s.tile k) ∧
    (RowClean s op stream w cw st y → ∀ k, row k → t.poisoned k = false) ∧
    (¬ RowClean s op stream w cw st y → ∀ k, row k → t.poisoned k = true) := by
  obtain ⟨bytes, hlen, hwritten, hclean, hbad⟩ := rowOp_written hr he ht h hready
  obtain ⟨-, hcw, -, -, hlegal, -⟩ := hready
  have h8 := (rowBytes_of_legal hlegal).1
  obtain ⟨hbyte, hshape, hdirty⟩ := hwritten.frame hcw
  simp only [Nat.succ_mul, ← hlen] at hbyte hwritten ⊢
  exact ⟨hbyte, hshape, hdirty, hwritten.other,
    fun hc k hk => hwritten.clean_of_all (hclean hc) (by rw [Nat.mul_mod, hlen, h8, Nat.mul_zero, Nat.zero_mod]) (hlen ▸ h8) (hlen ▸ hk),
    fun hb k hk => hwritten.poisoned_of_all (hbad hb) (hlen ▸ hk)⟩

theorem rowOp_float (hclean : RowClean s op stream w cw st y) (hf : tileFloat (fmtOf w) = some f) (hn : n < rowsOf w) :
    let u := s.performMatrix op
    let x := tileElem (s.tile op.tile) cw y n
    let sums := blockSums (fmtOf w) f w (aBytes s op stream) (aScales s op stream) (s.tile st) n
    u.hart = s.hart ∧ (ordered = true → tileElem (u.tile op.tile) cw y n = canonical (sums.foldl plus x)) ∧
    (ordered = false → ∃ z, Combined (x :: sums) z ∧ tileElem (u.tile op.tile) cw y n = canonical z) := by
  intro u x sums
  have hbad := rowBad_of_clean hclean hready
  have hacc := accumulator_format hready
  obtain ⟨hw, hcw, -, hlegal, -, -, -, -, hbytes, -⟩ := hready
  obtain ⟨hwritten, hhart⟩ := performMatrix_rowFloat hr he ht h hw hcw hbad hf
  obtain ⟨hin, htree⟩ := floatElem_eq (op := op) (cw := cw) (st := st) (y := y) (ordered := ordered) hbytes hlegal hf (s.free + 66 * n) n
  have hread (hlt : s.floatElem op ordered stream w cw st y f (s.free + 66 * n) n < 2 ^ 32) :
      tileElem (u.tile op.tile) cw y n = s.floatElem op ordered stream w cw st y f (s.free + 66 * n) n := by
    refine hwritten.tileElem hacc (x := (_, false)) ?_ hlt
    rw [List.getElem?_map, List.getElem?_range hn]
    rfl
  have hx : x < 2 ^ 32 := tileElem_lt _ hacc
  refine ⟨hhart, fun ho => ?_, fun ho => ?_⟩
  · rw [← hin ho]
    exact hread (hin ho ▸ canonical_lt (foldl_plus_lt hx))
  · obtain ⟨z, hz, heq⟩ := htree ho
    refine ⟨z, hz, ?_⟩
    rw [← heq]
    exact hread (heq ▸ canonical_lt (combined_lt hz (List.forall_mem_cons.2 ⟨hx, blockSums_lt⟩)))

theorem rowOp_residue (hclean : RowClean s op stream w cw st y) (h8 : fmtOf w = 8) :
    let u := s.performMatrix op
    let t := u.tile op.tile
    let sum (n : Nat) : Int := rowSum w (aBytes s op stream) (s.tile st) n
    let old (n : Nat) := tileElem (s.tile op.tile) cw y n
    (∀ n, n < rowsOf w → resValid (old n) = true → ∃ r, resOfSigned (sum n) = some r ∧ tileElem t cw y n = resAdd (old n) r) ∧
    (∀ n, n < rowsOf w → resValid (old n) = false → tileElem t cw y n = 0xFFFFFFFF) ∧
    ((∀ n, n < rowsOf w → resValid (old n) = true) → u.hart = s.hart) ∧
    ((∃ n, n < rowsOf w ∧ resValid (old n) = false) → u.hart.regs = { s.hart.regs with astat := s.hart.regs.astat ||| 2 }) := by
  intro u t sum old
  have hbad := rowBad_of_clean hclean hready
  have hacc := accumulator_format hready
  obtain ⟨hw, hcw, -, hlegal, -, -, -, -, hbytes, -⟩ := hready
  obtain ⟨hwritten, hhart⟩ := performMatrix_rowResidue hr he ht h hw hcw hbad (by rw [h8]; rfl)
  have helem (n : Nat) := residueElem_eq (op := op) (cw := cw) (st := st) (y := y) hbytes h8 n
  have hread {n : Nat} (hn : n < rowsOf w) {v : Nat × Bool} (hv : s.residueElem op stream w cw st y n = v) (hlt : v.1 < 2 ^ 32) : tileElem t cw y n = v.1 := by
    refine hwritten.tileElem hacc (x := (v.1, false)) ?_ hlt
    rw [List.getElem?_map, List.getElem?_map, List.getElem?_range hn, ← hv]
    rfl
  have hriv : ((List.range (rowsOf w)).map (s.residueElem op stream w cw st y)).any (·.2) = true ↔ ∃ n, n < rowsOf w ∧ resValid (old n) = false := by
    rw [List.any_map, List.any_eq_true]
    refine exists_congr fun n => and_congr List.mem_range ?_
    rw [Function.comp, helem]
    cases resValid (tileElem (s.tile op.tile) cw y n) <;> simp
  refine ⟨fun n hn hold => ?_, fun n hn hold => ?_, fun hall => ?_, fun hany => ?_⟩
  · exact ⟨_, resOfSigned_rowSum _ _ _ (cols_of_legal hlegal), hread hn ((helem n).trans (if_pos hold)) (resAdd_lt _ _)⟩
  · exact hread hn ((helem n).trans (if_neg (Bool.eq_false_iff.1 hold))) (by decide)
  · refine hhart.trans (if_neg fun hr => ?_)
    obtain ⟨n, hn, hold⟩ := hriv.1 hr
    rw [hall n hn] at hold
    cases hold
  · rw [hhart, if_pos (hriv.2 hany)]
    rfl

end

end Sys2Proof.Machine

open Sys2Proof Sys2Proof.Machine Sys2Proof.Claims in
/-- Settles O41: what a row operation writes, and how the members that fork pass their checks or trap before effect. -/
theorem matrixForkResults : Obligations.MatrixForkResults := by
  refine ⟨fun s op ordered stream st y w cw team h hr he hteam htile hready => ?_, fun e k c st a b v s h => ?_⟩
  · have ht : s.HasTile op.tile := ⟨team, hteam, htile⟩
    obtain ⟨hbyte, hshape, hdirty, hother, hclean, hbad⟩ := rowOp_frame hr he ht h hready
    refine ⟨hbyte, hshape, hdirty, hother, hclean, hbad, fun f n hc _ hf _ hn => rowOp_float hr he ht h hready hc hf hn,
      fun hc _ h8 => rowOp_residue hr he ht h hready hc h8⟩
  · exact ⟨fun w hk => rowTransfer_forks h hk, fun hk => imageTransfer_forks h hk,
      fun cw hc => ⟨rowFromVector_traps rfl h hc, rowFromVector_traps rfl h hc, rowFromVector_traps rfl h hc,
        fun hpitch => ⟨rowFromPad_traps hpitch rfl h hc, rowFromPad_traps hpitch rfl h hc⟩⟩,
      fun cw w hagree => ⟨rowFromVector_forks rfl accumulatorOf_vector h hagree, rowFromVector_forks rfl accumulatorOf_vector h hagree⟩,
      fun cw w hagree => rowFromVector_forks rfl (accumulatorOf_residue false) h hagree,
      fun cw w ps hagree hzero hpitch hstart hparts =>
        ⟨rowFromPad_forks hpitch rfl h hagree hzero hstart hparts, rowFromPad_forks hpitch rfl h hagree hzero hstart hparts⟩⟩
end

section
/-!
The streamer's members (R255, R257, R258, R265): the checks of a fork in their order, the copy that is forked, and the copy that a token register
names. With O38.
-/
namespace Sys2Proof.Machine
open Sys2Proof.Claims

variable {s : State} {e multi : Bool} {d a : GReg}

/-! ## Control registers (R257) -/

theorem sxw_writes (hs : Settled s) (e : Bool) (a : GReg) (b : BitVec 7) :
    Completes (.sxw e a b) s e (s.modHart fun h => { h with sx := Sparse.put zeroWord h.sx b.toNat (s.g a) }) :=
  congrArg (member e) (settled_eq hs _)

theorem sxr_reads (hs : Settled s) (e : Bool) (d : GReg) (b : BitVec 7) :
    exec (.sxr e d b) s = Wrote s e (s.hart.regs.setG d (Sparse.get zeroWord s.hart.sx b.toNat)) :=
  congrArg (member e) (settled_eq hs _)

/-! ## Receivers (R255) -/

/-- The receivers are the bits set among the low 16 of the receiver word. -/
theorem find?_receivers (w : Word) (p : Nat → Bool) :
    (receivers (bitsOf w.toNat 15 0)).find? p = (List.range 16).find? fun k => w.getLsbD k && p k := by
  rw [receivers, List.find?_filter]
  refine List.find?_congr fun k hk => ?_
  have hlow : bitsOf w.toNat 15 0 = w.toNat % 2 ^ 16 := by rw [bitsOf, Nat.pow_zero, Nat.div_one]
  have hbit : (w.toNat % 2 ^ 16).testBit k = w.toNat.testBit k := by
    rw [Nat.testBit_mod_two_pow, decide_eq_true (List.mem_range.1 hk), Bool.true_and]
  rw [bitsOf_beq_one, hlow, hbit, BitVec.getLsbD]
  cases w.toNat.testBit k <;> simp

/-! ## Forks (R258) -/

/-- The copies that the hart has open. -/
def openCopies (s : State) : Nat := (s.hart.copies.filter fun c => !c.delivered).length

/-- The first receiver of a SXGOM whose slot no team holds. -/
def absentReceiver (s : State) : Option Nat :=
  (List.range 16).find? fun k => (Sparse.get zeroWord s.hart.sx 13).getLsbD k && (s.slotTeam? s.hart.crew k).isNone

theorem exec_fork (hs : Settled s) (e multi : Bool) (d a : GReg) :
    exec (if multi then .sxgom e d a else .sxgo e d a) s = member e (startCopy multi d a s) := by
  cases multi <;> exact congrArg (member e) (settled_eq hs _)

theorem startCopy_of_full (h : 8 ≤ openCopies s) : startCopy multi d a s = .hold s.copyStep := if_pos h

theorem startCopy_of_badControl {n : Nat} (h : openCopies s < 8) (hbad : badControl s.hart.sx multi = some n) :
    startCopy multi d a s = .trap (.own 0x03 (BitVec.ofNat 64 n)) s := by
  refine (if_neg (Nat.not_le.2 h)).trans ?_
  rw [hbad]
  rfl

theorem startCopy_of_absent {k : Nat} (h : openCopies s < 8) (hgood : badControl s.hart.sx true = none) (habsent : absentReceiver s = some k) :
    startCopy true d a s = .trap (.own 0x1C (BitVec.ofNat 64 (k * 0x200000))) s := by
  refine (if_neg (Nat.not_le.2 h)).trans ?_
  rw [hgood]
  dsimp only
  rw [if_pos rfl, find?_receivers, show List.find? _ _ = some k from habsent]
  rfl

theorem forked_id (s : State) (multi : Bool) (d a : GReg) : (forked s multi d a).id = s.nextId := by
  unfold forked
  dsimp only
  split <;> rfl

/-- A copy's token, made pending where it has one. -/
theorem pendToken_eq (s : State) (token : Nat) :
    s.pendToken token = { s with hart := { s.hart with pend := if token = 0 then s.hart.pend else s.hart.pend ++ [token] } } := by
  unfold State.pendToken
  split <;> rfl

/-- A fork that passes its checks leaves the copy open, or runs it. -/
theorem startCopy_of_checked (h : openCopies s < 8) (hgood : badControl s.hart.sx multi = none) (hpresent : multi = true → absentReceiver s = none) :
    startCopy multi d a s = .ok (if s.hold.headD false then afterFork s multi d a
      else (afterFork s multi d a).copyRun s.nextId ((forked s multi d a).total + 1)) := by
  rw [← forked_id s multi d a]
  refine (if_neg (Nat.not_le.2 h)).trans ?_
  have hall : (if multi then (receivers (bitsOf (Sparse.get zeroWord s.hart.sx 13).toNat 15 0)).find?
      fun k => (s.slotTeam? s.hart.crew k).isNone else none) = none := by
    split
    · exact (find?_receivers ..).trans (hpresent ‹_›)
    · rfl
  rw [hgood]
  dsimp only
  rw [hall]
  dsimp only
  rw [pendToken_eq]
  rfl

/-! ## Copies named by their token (R265) -/

variable {c : Copy}

/-- A copy with mirrored elements unacknowledged reads as running, though its strips have ended (R448). -/
theorem status_getD (c : Copy) : c.status.getD 0xFFFF = if c.unacked = 0 then c.ended.getD 0xFFFF else 0xFFFF := by
  unfold Copy.status
  split <;> rfl

theorem sxabt_of_named (hs : Settled s) (hc : s.hart.copyOf a = some c) :
    Completes (.sxabt e a) s e (if c.ended.isNone then s.modCopy c.id fun c => { c with aborting := true } else s) := by
  refine (congrArg (member e) (settled_eq hs _)).trans ?_
  rw [hc]
  dsimp only
  split <;> rfl

theorem sxabt_of_unnamed (hs : Settled s) (hc : s.hart.copyOf a = none) : Completes (.sxabt e a) s e s := by
  refine (congrArg (member e) (settled_eq hs _)).trans ?_
  rw [hc]
  rfl

theorem sxstat_of_named (hs : Settled s) (hc : s.hart.copyOf a = some c) :
    exec (.sxstat e d a) s = Wrote s e (s.hart.regs.setG d (status (if c.unacked = 0 then c.ended.getD 0xFFFF else 0xFFFF) c.op c.count)) := by
  refine (congrArg (member e) (settled_eq hs _)).trans ?_
  rw [hc, ← status_getD]
  rfl

theorem sxstat_of_unnamed (hs : Settled s) (hc : s.hart.copyOf a = none) : exec (.sxstat e d a) s = Wrote s e (s.hart.regs.setG d 0) := by
  refine (congrArg (member e) (settled_eq hs _)).trans ?_
  rw [hc]
  rfl

end Sys2Proof.Machine

open Sys2Proof Sys2Proof.Machine Sys2Proof.Claims in
/-- Settles O38: a fork is held, trapped or made as its checks in their order say, and SXABT and SXSTAT go by the copy that the token names. -/
theorem copyUnitResults : Obligations.CopyUnitResults := by
  rintro e multi d a b s _ hs rfl opened absent
  refine ⟨?_, sxr_reads hs e d b, fun hfull => ?_, fun n hroom hbad => ?_, fun k hroom hgood hmulti habsent => ?_, fun hroom hgood hpresent => ?_,
    fun c hc => ⟨fun hopen => ?_, fun hended => ?_, sxstat_of_named hs hc⟩, fun hc => ⟨sxabt_of_unnamed hs hc, sxstat_of_unnamed hs hc⟩⟩
  · exact ⟨_, sxw_writes hs e a b, Sparse.get_put_same .., fun k hk => Sparse.get_put_other _ _ hk, rfl⟩
  · rw [exec_fork hs, startCopy_of_full hfull]
    rfl
  · rw [Raises, exec_fork hs, startCopy_of_badControl hroom hbad, member_trap_of_settled hs]
  · subst hmulti
    rw [Raises, exec_fork hs, startCopy_of_absent hroom hgood habsent, member_trap_of_settled hs]
  · have hfork := (exec_fork hs e multi d a).trans (congrArg (member e) (startCopy_of_checked hroom hgood hpresent))
    refine ⟨fun hlate => hfork.trans ?_, fun hnow => hfork.trans ?_⟩
    · rw [if_pos hlate]
      rfl
    · rw [if_neg (Bool.eq_false_iff.1 hnow)]
      rfl
  · have habort := sxabt_of_named (e := e) hs hc
    rwa [hopen] at habort
  · have habort := sxabt_of_named (e := e) hs hc
    rwa [if_neg (by simpa [Option.isNone_iff_eq_none, Option.isSome_iff_ne_none] using hended)] at habort
end

section
/-!
Barriers and their phases (R271, R273 to R275). With O42.
-/
namespace Sys2Proof.Machine
open Sys2Proof.Claims

variable {s : State} {c q : Crew} {n crew : Nat} {e arrives waits : Bool} {x t : BitVec 3}

/-! ## A crew's phases (R273) -/

/-- A crew changed in what its name does not depend on is found as it is after the change. -/
theorem crew?_modCrew (h : s.crew? n = some c) {f : Crew → Crew} (hf : ∀ k, (f k).id = k.id) : (s.modCrew n f).crew? n = some (f c) := by
  have hsame : ((fun k : Crew => k.id == n) ∘ fun k => if k.id = n then f k else k) = fun k => k.id == n := by
    funext k
    rw [Function.comp]
    split
    · rw [hf]
    · rfl
  change (s.crews.map fun k => if k.id = n then f k else k).find? _ = _
  rw [List.find?_map, hsame, show s.crews.find? _ = some c from h, Option.map_some, if_pos (by simpa using List.find?_some h)]

/-- A crew with a complete phase that has yet to reach its participants (R273). -/
def Crew.completing (c : Crew) (n now : Nat) : Crew :=
  { c with
    gen := Sparse.put zeroNat c.gen n ((Sparse.get zeroNat c.gen n + 1) % 65536), count := Sparse.put zeroNat c.count n 0
    due := Sparse.put zeroNat c.due n (now + 24) }

/-- A crew with a phase that has reached its participants (R273). -/
def Crew.delivered (c : Crew) (n : Nat) : Crew := { c with due := Sparse.put zeroNat c.due n 0 }

theorem settlePhase_of_due (h : s.crew? crew = some c) (hdue : Sparse.get zeroNat c.due n ≠ 0) : s.settlePhase crew n = s := by
  rw [State.settlePhase, h]
  exact if_neg (by simp [hdue])

theorem settlePhase_of_last (h : s.crew? crew = some c) (htag : c.tags.getLsbD n = true) (hdue : Sparse.get zeroNat c.due n = 0)
    (hsome : ∃ h ∈ s.participants crew, h.counted c n = true) (hall : ∀ h ∈ s.participants crew, h.gone = true ∨ h.counted c n = true) :
    s.settlePhase crew n = s.modCrew crew fun c => c.completing n s.pkg.cycle := by
  rw [State.settlePhase, h]
  exact if_pos (by simpa [Crew.holds, htag, hdue] using ⟨hsome, hall⟩)

theorem deliverPhase_of_late (h : s.crew? crew = some c) (hlate : s.pkg.cycle < Sparse.get zeroNat c.due n) : s.deliverPhase crew n = s := by
  rw [State.deliverPhase, h]
  exact if_neg (by simp [Nat.not_le.2 hlate])

theorem deliverPhase_of_due (h : s.crew? crew = some c) (hres : c.resident = true) (hdue : Sparse.get zeroNat c.due n ≠ 0)
    (hnow : Sparse.get zeroNat c.due n ≤ s.pkg.cycle) : s.deliverPhase crew n = s.modCrew crew fun c => c.delivered n := by
  rw [State.deliverPhase, h]
  exact if_pos (by simp [hres, hdue, hnow])

theorem deliverPhase_hart (s : State) (crew n : Nat) : (s.deliverPhase crew n).hart = s.hart := by
  unfold State.deliverPhase
  split
  · rfl
  · dsimp only
    split <;> rfl

theorem settlePhase_hart (s : State) (crew n : Nat) : (s.settlePhase crew n).hart = s.hart := by
  unfold State.settlePhase
  split
  · rfl
  · dsimp only
    split <;> rfl

/-! ## What a barrier member finds (R273, R274) -/

/-- The state once the phase of a tag has been looked at, as a barrier member first does. -/
def State.atPhase (s : State) (n : Nat) : State := (s.settlePhase s.hart.crew n).deliverPhase s.hart.crew n

theorem atPhase_hart (s : State) (n : Nat) : (s.atPhase n).hart = s.hart := (deliverPhase_hart ..).trans (settlePhase_hart ..)

/-- What an arrival orders before itself: with a scope, the hart's vector stores (R275). -/
def State.beforeArrival (s : State) (x : BitVec 3) : State := if x = 0 then s else s.drain fun q => q.vector

/-- What a completed wait leaves: with a scope, the hart has synchronised (R275, R309); its arrival is no longer pending. -/
def State.afterWait (s : State) (x : BitVec 3) (n : Nat) : State :=
  (if x = 0 then s else s.synced).modHart fun h => { h with arrived := Sparse.put clearBit h.arrived n false }

/-- What a barrier member comes to, by the tag, by whether it has yet to arrive, and by the phase as it finds it (R271, R274). -/
theorem barrier_eq (hs : Settled s) (hc : s.crew? s.hart.crew = some c) : barrier arrives waits e x t s = member e
    (if c.tags.getLsbD t.toNat = true then
      if arrives && s.hart.elix == 0 then
        if (s.atPhase t.toNat).phaseOpen t.toNat then waitAtBarrier (s.atPhase t.toNat)
        else
          let w := ((s.atPhase t.toNat).beforeArrival x).arrive t.toNat
          if waits then awaitPhase x.toNat t.toNat (w.modHart fun h => { h with elix := 1 }) else .ok w
      else if waits then awaitPhase x.toNat t.toNat (s.atPhase t.toNat)
      else .ok (s.atPhase t.toNat)
    else .trap (.own 0x1D (t.setWidth 64)) s) := by
  refine (congrArg (member e) (settled_eq hs _)).trans (congrArg (member e) ?_)
  have helix : ((s.settlePhase s.hart.crew t.toNat).deliverPhase s.hart.crew t.toNat).hart.elix = s.hart.elix := congrArg Hart.elix (atPhase_hart ..)
  simp only [hc, Crew.holds, helix]
  cases htag : c.tags.getLsbD t.toNat with
  | false =>
    rw [ofNat_toNat]
    rfl
  | true => rfl

theorem waitAtBarrier_of_running (h : s.hart.breakDue = false) : waitAtBarrier s = .hold s := if_neg (by simp [h])

theorem awaitPhase_of_closed (h : s.phaseOpen n = false) : awaitPhase x.toNat n s = .ok (s.afterWait x n) := by
  have hscope : (x.toNat = 0) = (x = 0) := propext ⟨fun hx => BitVec.eq_of_toNat_eq hx, fun hx => congrArg BitVec.toNat hx⟩
  rw [awaitPhase, h, State.afterWait]
  simp only [Bool.false_eq_true, if_false, hscope]

theorem awaitPhase_of_open (h : s.phaseOpen n = true) (hb : s.hart.breakDue = false) : awaitPhase x.toNat n s = .hold s :=
  (if_pos h).trans (waitAtBarrier_of_running hb)

/-- A barrier member traps at a tag that its crew does not hold (R271). -/
theorem barrier_traps (hs : Settled s) (hc : s.crew? s.hart.crew = some c) (htag : c.tags.getLsbD t.toNat = false) :
    barrier arrives waits e x t s = .next (s.takeTrap (.own 0x1D (t.setWidth 64)) e) := by
  rw [barrier_eq hs hc, htag]
  rfl

section
variable (hs : Settled s) (hc : s.crew? s.hart.crew = some c) (htag : c.tags.getLsbD t.toNat = true)
include hs hc htag

/-- A member that arrives waits where an arrival of its hart is open. -/
theorem barrier_of_open (helix : s.hart.elix = 0) (hb : s.hart.breakDue = false) (h : (s.atPhase t.toNat).phaseOpen t.toNat = true) :
    barrier true waits e x t s = .next (s.atPhase t.toNat) := by
  rw [barrier_eq hs hc, if_pos htag, if_pos (by simp [helix]), if_pos h, waitAtBarrier_of_running (by rw [atPhase_hart, hb])]
  rfl

/-- A member that arrives counts its arrival where none of its hart is open. -/
theorem barrier_of_closed (helix : s.hart.elix = 0) (h : (s.atPhase t.toNat).phaseOpen t.toNat = false) :
    barrier true waits e x t s =
      let w := ((s.atPhase t.toNat).beforeArrival x).arrive t.toNat
      member e (if waits then awaitPhase x.toNat t.toNat (w.modHart fun h => { h with elix := 1 }) else .ok w) := by
  rw [barrier_eq hs hc, if_pos htag, if_pos (by simp [helix]), if_neg (by simp [h])]

/-- A member that does not arrive, or has arrived, waits or is done. -/
theorem barrier_of_arrived (h : (arrives && s.hart.elix == 0) = false) : barrier arrives waits e x t s =
    member e (if waits then awaitPhase x.toNat t.toNat (s.atPhase t.toNat) else .ok (s.atPhase t.toNat)) := by
  rw [barrier_eq hs hc, if_pos htag, h]
  rfl

/-- A wait completes once the phase is no longer open. -/
theorem barrier_completes (h : (arrives && s.hart.elix == 0) = false) (hopen : (s.atPhase t.toNat).phaseOpen t.toNat = false) :
    barrier arrives true e x t s = .next (((s.atPhase t.toNat).afterWait x t.toNat).retire e) := by
  rw [barrier_of_arrived hs hc htag h, if_pos rfl, awaitPhase_of_closed hopen]
  rfl

/-- A wait goes on while the phase is open. -/
theorem barrier_waits (h : (arrives && s.hart.elix == 0) = false) (hb : s.hart.breakDue = false) (hopen : (s.atPhase t.toNat).phaseOpen t.toNat = true) :
    barrier arrives true e x t s = .next (s.atPhase t.toNat) := by
  rw [barrier_of_arrived hs hc htag h, if_pos rfl, awaitPhase_of_open hopen (by rw [atPhase_hart, hb])]
  rfl

end

/-! ## An arrival leaves the hart's breakpoint alone (R283) -/

theorem keepsHarts_drain (s : State) (sel : Pending → Bool) : KeepsHarts s (s.drain sel) := by
  unfold State.drain
  refine .trans ?_ (.foldl keepsHarts_perform _ _)
  exact ⟨rfl, rfl⟩

theorem beforeArrival_breakDue (s : State) (x : BitVec 3) : (s.beforeArrival x).hart.breakDue = s.hart.breakDue := by
  unfold State.beforeArrival
  split
  · rfl
  · exact (congrArg Hart.breakDue (keepsHarts_drain s _).hart :)

theorem arrive_breakDue (s : State) (n : Nat) : (s.arrive n).hart.breakDue = s.hart.breakDue := by
  unfold State.arrive
  split
  · rfl
  · rw [settlePhase_hart]
    rfl

/-- BARR stays at ELIX 1 where its phase is open after its arrival. -/
theorem barrier_stays (hs : Settled s) (hc : s.crew? s.hart.crew = some c) (htag : c.tags.getLsbD t.toNat = true) (helix : s.hart.elix = 0)
    (hb : s.hart.breakDue = false) (h : (s.atPhase t.toNat).phaseOpen t.toNat = false)
    (hopen : (((s.atPhase t.toNat).beforeArrival x).arrive t.toNat).phaseOpen t.toNat = true) :
    barrier true true e x t s = .next ((((s.atPhase t.toNat).beforeArrival x).arrive t.toNat).modHart fun h => { h with elix := 1 }) := by
  have hbreak : (((s.atPhase t.toNat).beforeArrival x).arrive t.toNat).hart.breakDue = false := by
    rw [arrive_breakDue, beforeArrival_breakDue, atPhase_hart, hb]
  rw [barrier_of_closed hs hc htag helix h]
  dsimp only
  rw [if_pos rfl, awaitPhase_of_open (by exact hopen) (by exact hbreak)]
  rfl

/-! ## The event of a phase (R273) -/

theorem phaseComplete_of_last (h : s.crew? crew = some q) (htag : q.tags.getLsbD t.toNat = true) (hdue : Sparse.get zeroNat q.due t.toNat = 0)
    (hsome : ∃ h ∈ s.participants crew, h.counted q t.toNat = true)
    (hall : ∀ h ∈ s.participants crew, h.gone = true ∨ h.counted q t.toNat = true) :
    exec (.barrierPhaseComplete crew t) s = .next (s.modCrew crew fun c => c.completing t.toNat s.pkg.cycle) := by
  have hcrew := crew?_modCrew h (f := fun c => c.completing t.toNat s.pkg.cycle) fun _ => rfl
  have hlate : s.pkg.cycle < Sparse.get zeroNat (q.completing t.toNat s.pkg.cycle).due t.toNat := by
    rw [Crew.completing, Sparse.get_put_same]
    omega
  change event ((s.settlePhase crew t.toNat).deliverPhase crew t.toNat) = _
  rw [settlePhase_of_last h htag hdue hsome hall, deliverPhase_of_late hcrew hlate]
  rfl

theorem phaseComplete_of_due (h : s.crew? crew = some q) (hres : q.resident = true) (hdue : Sparse.get zeroNat q.due t.toNat ≠ 0)
    (hnow : Sparse.get zeroNat q.due t.toNat ≤ s.pkg.cycle) :
    exec (.barrierPhaseComplete crew t) s = .next (s.modCrew crew fun c => c.delivered t.toNat) := by
  change event ((s.settlePhase crew t.toNat).deliverPhase crew t.toNat) = _
  rw [settlePhase_of_due h hdue, deliverPhase_of_due h hres hdue hnow]
  rfl

end Sys2Proof.Machine

open Sys2Proof Sys2Proof.Machine Sys2Proof.Claims in
/-- Settles O42: each member goes by the tag, by whether it has yet to arrive and by whether the phase is open; with the last arrival the phase is
complete, and due too late for the same event to deliver it. -/
theorem barrierResults : Obligations.BarrierResults := by
  intro e x t s c hc n v w done
  refine ⟨fun hs htag => ⟨barrier_traps hs hc htag, barrier_traps hs hc htag, barrier_traps hs hc htag⟩, fun hs htag hb => ?_, fun q hq htag => ⟨?_, ?_⟩⟩
  · have hresumed (h : s.hart.elix ≠ 0) : (true && s.hart.elix == 0) = false := by simp [h]
    exact ⟨barrier_completes hs hc htag rfl, barrier_waits hs hc htag rfl hb, barrier_of_closed hs hc htag,
      fun helix => barrier_of_open hs hc htag helix hb, fun helix => barrier_of_arrived hs hc htag (hresumed helix),
      fun helix => barrier_completes hs hc htag (hresumed helix), fun helix => barrier_waits hs hc htag (hresumed helix) hb,
      fun helix => barrier_stays hs hc htag helix hb⟩
  · intro hdue hsome hall
    exact ⟨_, phaseComplete_of_last hq htag hdue hsome hall, rfl, crew?_modCrew hq fun _ => rfl⟩
  · intro hdue hnow hres
    exact ⟨_, phaseComplete_of_due hq hres hdue hnow, rfl, crew?_modCrew hq fun _ => rfl⟩
end

section
/-!
What stores performed, events filed and frame writes leave of every crew (R306, R415, R434). With O51.
-/
namespace Sys2Proof.Machine

variable {s t u : State}

/-- A crew but for its phases, and whether it is to be pre-empted. -/
def Crew.standing (c : Crew) : Crew := { c with gen := [], count := [], due := [], preempting := false }

/-- Every crew is as it was, but for its phases and whether it is to be pre-empted. -/
def KeepsCrews (s t : State) : Prop := t.crews.map Crew.standing = s.crews.map Crew.standing

namespace KeepsCrews

theorem refl (s : State) : KeepsCrews s s := rfl

theorem trans (h : KeepsCrews s t) (k : KeepsCrews t u) : KeepsCrews s u := Eq.trans k h

theorem of_crews (h : t.crews = s.crews) : KeepsCrews s t := congrArg (List.map Crew.standing) h

theorem map {f : Crew → Crew} (hf : ∀ c, (f c).standing = c.standing) : KeepsCrews s { s with crews := s.crews.map f } :=
  (List.map_map ..).trans (List.map_congr_left fun c _ => hf c)

theorem modCrew (n : Nat) {f : Crew → Crew} (hf : ∀ c, (f c).standing = c.standing) : KeepsCrews s (s.modCrew n f) := by
  refine map fun c => ?_
  split
  · exact hf c
  · rfl

theorem foldl {β : Type} {f : State → β → State} (hf : ∀ s x, KeepsCrews s (f s x)) (l : List β) (s : State) : KeepsCrews s (l.foldl f s) := by
  induction l generalizing s with
  | nil => exact refl s
  | cons x l ih => exact (hf s x).trans (ih _)

end KeepsCrews

/-! ## Stores performed -/

theorem deviceWrite_crews (s : State) (off : Nat) (v : Word) : (s.deviceWrite off v).crews = s.crews := by
  unfold State.deviceWrite
  split
  · split <;> rfl
  · repeat' split
    all_goals rfl

theorem poke_crews (s : State) (p : Place) (data : List Byte) (tag : Bool) (owner : Nat) : (s.poke p data tag owner).crews = s.crews := by
  unfold State.poke
  extract_lets n t
  split
  · rfl
  · rw [State.wakeLines_crews]
    cases p with
    | pad m o => rfl
    | phys a =>
      change (if inScan a then _ else _ : State).crews = _
      split
      · exact deviceWrite_crews ..
      · rfl

theorem keepOld_crews (s : State) (w : Nat) (p : Place) (data : List Byte) : (s.keepOld w p data).crews = s.crews := by
  unfold State.keepOld
  split <;> rfl

theorem stampStore_crews (s : State) (w : Nat) (p : Place) : (s.stampStore w p).crews = s.crews := by
  unfold State.stampStore
  split
  · split <;> rfl
  · rfl

theorem keepsCrews_setDirty (s : State) (owner : Nat) (dirty : List (Nat × Nat)) : KeepsCrews s (s.setDirty owner dirty) :=
  .foldl (fun s (d : Nat × Nat) => .of_crews (State.setMemBit_crews s owner d.1 d.2)) dirty s

theorem keepsCrews_performOne (s : State) (w : Nat) (q : Pending) : KeepsCrews s (s.performOne w q) := by
  unfold State.performOne
  split
  · exact .refl s
  · refine (keepsCrews_setDirty s q.owner q.dirty).trans (.of_crews ?_)
    rw [poke_crews, stampStore_crews, keepOld_crews]
    rfl

theorem keepsCrews_performAfter (fuel : Nat) (s : State) (x : Nat × Pending) : KeepsCrews s (State.performAfter fuel s x) := by
  induction fuel generalizing s x with
  | zero => exact keepsCrews_performOne ..
  | succ n ih =>
    unfold State.performAfter
    split
    · exact keepsCrews_performOne ..
    · refine .trans (.trans ?_ (.foldl ih _ _)) (keepsCrews_performOne ..)
      exact .of_crews rfl

/-! ## Events filed -/

/-- Each step of filing an event keeps the crews: a context that becomes held has its crews pre-empted and no more (R434). -/
theorem keepsCrews_kept (s : State) : KeptByFiling (KeepsCrews s) where
  setMemBit _ _ _ _ h := h.trans (.of_crews rfl)
  perform _ _ h := h.trans (keepsCrews_performAfter ..)
  unfiled _ _ h := h.trans (.of_crews rfl)
  holdCtx t n h := by
    refine h.trans (.trans (t := t.modCtx n _) (.of_crews rfl) (.map fun c => ?_))
    split <;> rfl

theorem keepsCrews_fileEvent (s : State) (m code addr src : Nat) : KeepsCrews s (s.fileEvent m code addr src) :=
  (keepsCrews_kept s).fileEvent _ _ _ _ (.refl s)

/-! ## Frames and phases -/

theorem frameReach_keepsCrews (s : State) (h : Hart) (off : Nat) (write : Bool) : AttemptsTo (KeepsCrews s) (·.1) (s.frameReach h off write) := by
  unfold State.frameReach
  split
  · split
    · exact .ok (.refl s)
    · exact .map (f := (·.1)) ((keepsCrews_kept s).deviceReach _ _ _ _ (.refl s)) fun _ k => k.trans (keepsCrews_setDirty ..)
  · exact .error (.refl s)

theorem frameWrite_keepsCrews (h : Hart) (fuel off size : Nat) (img : Sparse Byte) (hs : KeepsCrews s t) :
    AttemptsTo (KeepsCrews s) id (t.frameWrite h fuel off size img) := by
  induction fuel generalizing t off size img with
  | zero => exact .ok hs
  | succ n ih =>
    obtain ⟨hok, herror⟩ := frameReach_keepsCrews t h off true
    unfold State.frameWrite
    split
    · exact .ok hs
    · dsimp only
      split
      · exact .error (hs.trans (herror _ ‹_›))
      · exact ih _ _ _ ((hs.trans (hok _ ‹_›)).trans (.of_crews rfl))

theorem setFrameState_keepsCrews (s : State) (h : Hart) (n : Nat) : AttemptsTo (KeepsCrews s) id (s.setFrameState h n) := frameWrite_keepsCrews _ _ _ _ _ (.refl s)

theorem keepsCrews_outcome {r : Except State State} (h : AttemptsTo (KeepsCrews s) id r) : KeepsCrews s (outcome r) := by
  cases r with
  | ok t => exact h.1 t rfl
  | error t => exact h.2 t rfl

theorem keepsCrews_settlePhase (s : State) (crew k : Nat) : KeepsCrews s (s.settlePhase crew k) := by
  unfold State.settlePhase
  split
  · exact .refl s
  · dsimp only
    split
    · exact .modCrew crew fun _ => rfl
    · exact .refl s

theorem countStop_crews (s : State) (aborted faulted : Bool) : (s.countStop aborted faulted).crews = s.crews := by
  unfold State.countStop
  split <;> rfl

theorem keepsCrews_crownHalt (s : State) (x : Trap) : KeepsCrews s (s.crownHalt x) := by
  unfold State.crownHalt
  extract_lets halted settled
  have hhalted : KeepsCrews s halted := .of_crews (countStop_crews ..)
  have hsettled : KeepsCrews halted settled :=
    (keepsCrews_outcome (setFrameState_keepsCrews ..)).trans (.foldl (fun s k => keepsCrews_settlePhase s _ k) _ _)
  exact (hhalted.trans hsettled).trans (keepsCrews_fileEvent ..)

theorem keepsCrews_frameFault (s : State) (access : FrameAccess) : KeepsCrews s (s.frameFault access) := by
  unfold State.frameFault
  split
  · exact .of_crews rfl
  · split
    · exact .of_crews rfl
    · exact keepsCrews_crownHalt ..

theorem keepsCrews_startFrame (s : State) : KeepsCrews s s.startFrame := by
  obtain ⟨hok, herror⟩ := setFrameState_keepsCrews s.synced s.hart 1
  have hsynced : KeepsCrews s s.synced := .of_crews rfl
  unfold State.startFrame
  split
  · rename_i v hv
    exact (hsynced.trans (hok v hv)).trans (.of_crews rfl)
  · exact (hsynced.trans (herror _ ‹_›)).trans (keepsCrews_frameFault ..)

theorem focus_crews (s : State) (id : Nat) : (s.focus id).crews = s.crews := by rw [focus_frame]

theorem keepsCrews_onHart (s : State) (id : Nat) {f : State → State} (hf : ∀ s, KeepsCrews s (f s)) : KeepsCrews s (s.onHart id f) :=
  (KeepsCrews.of_crews (focus_crews s id)).trans ((hf _).trans (.of_crews (focus_crews ..)))

end Sys2Proof.Machine
end


section
/-!
A hart that starts in its frame (R64, R415, R416), and what an action on one hart leaves of the others. With O51.
-/
namespace Sys2Proof.Machine

variable {s t u : State} {h k : Hart} {n : Nat}

/-- `k` is the hart `h` where it was, once its start in its frame is done, has failed, or has stopped it for good (R415, R416). -/
structure Hart.StartsAs (h k : Hart) : Prop where
  id : k.id = h.id
  pc : k.pc = h.pc
  regs : k.regs = h.regs
  ctx : k.ctx = h.ctx
  crew : k.crew = h.crew
  run : k.run = .ready ∨ (∃ y, k.run = .frameFault .start y) ∨ k.run = .crownHalted

/-- A hart's start is not affected by what stores change of a hart. -/
theorem Hart.StartsAs.of_core {h' k' : Hart} (hs : h.StartsAs k) (hh : h'.core = h.core) (hk : k'.core = k.core) : h'.StartsAs k' := by
  obtain ⟨hid, hpc, hregs, hctx, hcrew, hrun⟩ := hs
  have moved {α : Type} (f : Hart → α) (hf : ∀ x : Hart, f x.core = f x) (hkh : f k = f h) : f k' = f h' := by
    rw [← hf k', ← hf h', hk, hh, hf, hf, hkh]
  have hsame : k'.run = k.run := (congrArg Hart.run hk :)
  exact ⟨moved Hart.id (fun _ => rfl) hid, moved Hart.pc (fun _ => rfl) hpc, moved Hart.regs (fun _ => rfl) hregs, moved Hart.ctx (fun _ => rfl) hctx,
    moved Hart.crew (fun _ => rfl) hcrew, by rwa [hsame]⟩

/-- A hart that halts in the crown context changes in how it stands alone (R71). -/
theorem keepsHarts_crownHalt (s : State) (x : Trap) :
    KeepsHarts (s.modHart fun h => { h with trap := x.field h, run := .crownHalted, convoy := [], waiting := .none }) (s.crownHalt x) := by
  unfold State.crownHalt
  extract_lets halted settled
  have hsettled : KeepsHarts halted settled := (keepsHarts_outcome halted (setFrameState_keeping ..)).trans (keepsHarts_settlePhases ..)
  exact ((keepsHarts_countStop ..).trans hsettled).trans (keepsHarts_fileEvent ..)

/-- The hart that steps starts as it should, and the other harts stay. -/
def Starts (s t : State) : Prop := s.hart.StartsAs t.hart ∧ t.others.map Hart.core = s.others.map Hart.core

theorem Starts.after (h : Starts s t) (hk : KeepsHarts u s) : Starts u t := ⟨h.1.of_core hk.hart.symm rfl, h.2.trans hk.others⟩

theorem Starts.before (h : Starts s t) (hk : KeepsHarts t u) : Starts s u := ⟨h.1.of_core rfl hk.hart, hk.others.trans h.2⟩

theorem starts_frameFault (s : State) : Starts s (s.frameFault .start) := by
  unfold State.frameFault
  split
  · exact ⟨⟨rfl, rfl, rfl, rfl, rfl, .inr (.inl ⟨_, rfl⟩)⟩, rfl⟩
  · split
    · exact ⟨⟨rfl, rfl, rfl, rfl, rfl, .inr (.inl ⟨_, rfl⟩)⟩, rfl⟩
    · refine Starts.before ?_ (keepsHarts_crownHalt ..)
      exact ⟨⟨rfl, rfl, rfl, rfl, rfl, .inr (.inr rfl)⟩, rfl⟩

theorem starts_startFrame (s : State) : Starts s s.startFrame := by
  obtain ⟨hok, herror⟩ := setFrameState_keeping s.synced s.hart 1
  have hsynced : KeepsHarts s s.synced := .of_eq rfl rfl
  unfold State.startFrame
  split
  · refine Starts.after ?_ (hsynced.trans (hok _ ‹_›))
    exact ⟨⟨rfl, rfl, rfl, rfl, rfl, .inl rfl⟩, rfl⟩
  · exact (starts_frameFault _).after (hsynced.trans (herror _ ‹_›))

/-! ## An action on one hart -/

theorem focus_self (h : s.hart.id = n) : s.focus n = s := if_pos h

theorem focus_of_other (hn : s.hart.id ≠ n) (h : s.others.find? (fun x => x.id == n) = some k) :
    s.focus n = { s with hart := k, others := s.hart :: s.others.filter fun x => x.id != n } := by
  rw [State.focus, if_neg hn, h]

theorem focus_of_none (h : s.others.find? (fun x => x.id == n) = none) : s.focus n = s := by
  unfold State.focus
  split
  · rfl
  · rw [h]

/-- What the stores of any hart do not affect of a hart holds of each hart that does not step, after an action on one hart, where it does so
before and of the hart acted on; the hart that steps is the same. -/
theorem onHart_others {P : Hart → Prop} {f : State → State} (hcore : ∀ x : Hart, P x.core ↔ P x) (hid : ∀ u : State, (f u).hart.id = u.hart.id)
    (hothers : ∀ u : State, (f u).others.map Hart.core = u.others.map Hart.core) (hhart : ∀ u : State, P u.hart → P (f u).hart)
    (h : ∀ x ∈ s.others, P x) : (s.onHart n f).hart.id = s.hart.id ∧ ∀ x ∈ (s.onHart n f).others, P x := by
  have stays (u : State) (hu : ∀ x ∈ u.others, P x) : ∀ x ∈ (f u).others, P x := by
    intro x hx
    obtain ⟨y, hy, hyx⟩ := List.mem_map.1 (hothers u ▸ List.mem_map_of_mem hx)
    exact (hcore x).1 (hyx ▸ (hcore y).2 (hu y hy))
  have unmoved (hf : s.focus n = s) : (s.onHart n f).hart.id = s.hart.id ∧ ∀ x ∈ (s.onHart n f).others, P x := by
    rw [State.onHart, hf, focus_self (hid s)]
    exact ⟨hid s, stays s h⟩
  by_cases hn : s.hart.id = n
  · exact unmoved (focus_self hn)
  · cases hfind : s.others.find? (fun x => x.id == n) with
    | none => exact unmoved (focus_of_none hfind)
    | some k =>
      have hk : k.id = n := by simpa using List.find?_some hfind
      rw [State.onHart, focus_of_other hn hfind]
      generalize hu : ({ s with hart := k, others := s.hart :: s.others.filter fun x => x.id != n } : State) = u
      have huh : u.hart = k := by rw [← hu]
      have huo : u.others = s.hart :: s.others.filter fun x => x.id != n := by rw [← hu]
      obtain ⟨y, rest, ho⟩ : ∃ y rest, (f u).others = y :: rest := by
        cases ho : (f u).others with
        | nil => simpa [ho, huo] using hothers u
        | cons y rest => exact ⟨y, rest, rfl⟩
      have hcores := hothers u
      rw [ho, huo, List.map_cons, List.map_cons, List.cons.injEq] at hcores
      have hy : y.id = s.hart.id := (congrArg Hart.id hcores.1 :)
      have hback : (f u).others.find? (fun x => x.id == s.hart.id) = some y := by simp [ho, hy]
      rw [focus_of_other (by rw [hid, huh, hk]; exact Ne.symm hn) hback]
      refine ⟨hy, fun x hx => ?_⟩
      obtain rfl | hx := List.mem_cons.1 hx
      · exact hhart u (huh ▸ h k (List.mem_of_find?_eq_some hfind))
      · obtain ⟨hx, hxid⟩ := List.mem_filter.1 hx
        rw [ho] at hx
        obtain rfl | hx := List.mem_cons.1 hx
        · simp [hy] at hxid
        · obtain ⟨z, hz, hzx⟩ := List.mem_map.1 (hcores.2 ▸ List.mem_map_of_mem hx)
          exact (hcore x).1 (hzx ▸ (hcore z).2 (h z (List.mem_filter.1 hz).1))

end Sys2Proof.Machine
end


section
/-!
A crew bound for the first time (R269, R410). With O51.
-/
namespace Sys2Proof.Machine

variable {s t v : State} {l : Launch} {k : Candidate} {f : Fit} {n choice crew slot hidx : Nat} {unit : CoreUnit}

/-- A hart of the crew of a launch where it starts (R64), marked in its frame, waiting to be, or stopped for good (R415, R416). -/
def Hart.BeginsFor (l : Launch) (crew : Nat) (h : Hart) : Prop :=
  h.pc = l.entry ∧ h.regs.g 1 = l.args ∧ h.ctx = l.ctx ∧ h.crew = crew ∧ (h.run = .ready ∨ (∃ y, h.run = .frameFault .start y) ∨ h.run = .crownHalted)

/-- Beside the hart that steps there are the harts that there were, by their names, and those that the binding of a crew has started. -/
structure Binds (v : State) (l : Launch) (crew : Nat) (s t : State) : Prop where
  others : (∀ h ∈ s.others, (∃ h' ∈ v.others, h'.id = h.id) ∨ h.BeginsFor l crew) → ∀ h ∈ t.others, (∃ h' ∈ v.others, h'.id = h.id) ∨ h.BeginsFor l crew
  crews : KeepsCrews s t

theorem Binds.trans {u : State} (h : Binds v l crew s t) (h' : Binds v l crew t u) : Binds v l crew s u :=
  ⟨fun hs => h'.others (h.others hs), h.crews.trans h'.crews⟩

theorem Binds.of_same (ho : t.others = s.others) (hc : t.crews = s.crews) : Binds v l crew s t := ⟨by rw [ho]; exact id, .of_crews hc⟩

theorem Binds.foldl {β : Type} {g : State → β → State} (hg : ∀ s x, Binds v l crew s (g s x)) (xs : List β) (s : State) : Binds v l crew s (xs.foldl g s) := by
  induction xs generalizing s with
  | nil => exact .of_same rfl rfl
  | cons x xs ih => exact (hg s x).trans (ih _)

/-- A hart that stands or starts as it should does so still, once its start in its frame has been tried. -/
theorem begins_of_startsAs {h x : Hart} (hx : h.StartsAs x) (hb : (∃ h' ∈ v.others, h'.id = h.id) ∨ h.BeginsFor l crew) :
    (∃ h' ∈ v.others, h'.id = x.id) ∨ x.BeginsFor l crew := by
  obtain ⟨hid, hpc, hregs, hctx, hcrew, hrun⟩ := hx
  refine hb.imp (fun ⟨h', hmem, hsame⟩ => ⟨h', hmem, hsame.trans hid.symm⟩) fun ⟨bpc, bargs, bctx, bcrew, _⟩ => ?_
  exact ⟨hpc.trans bpc, hregs ▸ bargs, hctx.trans bctx, hcrew.trans bcrew, hrun⟩

theorem startFrame_binds (s : State) (id : Nat) : Binds v l crew s (s.onHart id State.startFrame) where
  others h := (onHart_others (P := fun x => (∃ h' ∈ v.others, h'.id = x.id) ∨ x.BeginsFor l crew) (fun _ => Iff.rfl) (fun u => (starts_startFrame u).1.id)
    (fun u => (starts_startFrame u).2) (fun u => begins_of_startsAs (starts_startFrame u).1) h).2
  crews := keepsCrews_onHart s id keepsCrews_startFrame

theorem g1_atStart (x y : Word) : (Regs.atStart x y).g 1 = x :=
  (if_neg (by decide)).trans ((Sparse.get_put_other _ _ (show (1 : Nat) ≠ 2 by decide)).trans (Sparse.get_put_same ..))

theorem startHart_binds (s : State) (l : Launch) (k : Candidate) (crew slot : Nat) (unit : CoreUnit) (hidx : Nat) :
    Binds v l crew s (s.startHart l k crew slot unit hidx) := by
  unfold State.startHart
  extract_lets crd tvec h
  refine .trans (t := { s with others := s.others ++ [h], nextId := s.nextId + 1 }) ⟨fun hs x hx => ?_, .of_crews rfl⟩ (startFrame_binds _ _)
  obtain hx | hx := List.mem_append.1 hx
  · exact hs x hx
  · obtain rfl := List.mem_singleton.1 hx
    exact .inr ⟨rfl, g1_atStart .., rfl, rfl, .inl rfl⟩

theorem startTeam_binds (s : State) (l : Launch) (k : Candidate) (crew : Nat) (x : Nat × CoreUnit) : Binds v l crew s (s.startTeam l k crew x) :=
  .trans (t := { s with teams := s.teams ++ [Team.atStart s.nextId crew x.1 x.2 (x.2.pad l.big)], nextId := s.nextId + 1 }) (.of_same rfl rfl)
    (.foldl (fun s h => startHart_binds s l k crew x.1 x.2 h) _ _)

/-- The crew that a candidate becomes where it fits (R269, R410). -/
def State.newCrew (s : State) (l : Launch) (k : Candidate) (f : Fit) : Crew :=
  { id := s.nextId, launch := l.id, ctx := l.ctx, stage := k.stage, index := k.index, rows := l.rows, cols := l.cols, hartsPerTeam := l.hartsPerTeam
    die := f.die, cluster := f.cluster, tags := l.tags, gen := [], count := [], due := [], resident := true, preempting := false, boundAt := s.pkg.cycle }

theorem bindNew_binds (s : State) (l : Launch) (k : Candidate) (f : Fit) :
    Binds v l s.nextId { s with crews := s.crews ++ [s.newCrew l k f] } (s.bindNew l k f) :=
  .trans (t := ({ s with nextId := s.nextId + 1, crews := s.crews ++ [s.newCrew l k f] } : State).modLaunch l.id
      fun l => { l with unbound := l.unbound.filter (· != (k.stage, k.index)) }) (.of_same rfl rfl)
    (.foldl (fun s x => startTeam_binds s l k _ x) _ _)

/-- A crew that has been bound stands as it was bound, but for its phases and whether it is to be pre-empted. -/
theorem exists_newCrew {t : State} (h : KeepsCrews { s with crews := s.crews ++ [s.newCrew l k f] } t) :
    ∃ c ∈ t.crews, c.standing = (s.newCrew l k f).standing :=
  List.mem_map.1 (h ▸ List.mem_map_of_mem (List.mem_append_right _ List.mem_cons_self))

/-- What the scheduler decides from: the dependences read, every launch tallied and aged (R409). -/
def State.considered (s : State) (ctx : Nat) : State :=
  { (s.readDeps ctx).tallyAll with launches := (s.readDeps ctx).tallyAll.launches.map Launch.grow }

/-- A sole candidate that was never bound, and fits, is bound. -/
theorem schedule_of_one (hk : (s.considered n).bindOrder n = [k]) (hcrew : k.crew = none) (hl : k.launch = some l)
    (hfit : (s.considered n).fit k (s.considered n).nextId choice = some f) :
    s.schedule n choice = { (s.considered n).bindNew l k f with
      served := Sparse.put zeroNat ((s.considered n).bindNew l k f).served l.ctx ((l.queue + 1) % 64) } := by
  change (((s.considered n).bindOrder n).foldl (State.tryBind choice) (s.considered n, [])).1 = _
  rw [hk, List.foldl_cons, List.foldl_nil, State.tryBind]
  dsimp only
  rw [hfit, hcrew, hl]

end Sys2Proof.Machine
end

section
/-!
Events of the scheduler (R322, R401 to R404, R409, R412, R413). With O51.
-/
namespace Sys2Proof.Machine
open Sys2Proof.Claims

variable {s t v : State} {l : Launch} {c : Crew} {n m : Nat}

/-! ## Acceptance (R401 to R403) -/

section
variable {q : Queue} {x : Ctx} {head : Nat} {ws : List Nat}

/-- A record accepted: the queue's head counts on behind what has become of it. -/
theorem exec_launchAccept (h : Accepts s n m q x v head ws) {w : State}
    (hw : (v.acceptRecord x q head ws).ctxPut q.ctx (q.desc + 0x20) ((head + 1) % 2 ^ 32) false = .ok w) : exec (.launchAccept n m) s = .next w := by
  obtain ⟨hq, hx, u, ring, size, tail, hwords, hne, hroom, hrecord⟩ := h
  refine congrArg Host.Outcome.next ?_
  rw [hq]
  dsimp only
  rw [State.accept, hx, hwords]
  dsimp only
  rw [if_neg (by simp [hne, hroom]), hrecord]
  dsimp only
  rw [hw]

/-- The launch that a record asks for, in the state in which it is read. -/
def State.asked (v : State) (x : Ctx) (q : Queue) (head : Nat) (ws : List Nat) : Launch := launchOf v.nextId x.num q.num head x.ceiling v.tick ws

/-- Whether a record is legal, has a done word of no other launch, and fits in the context's placement (R402, R403). -/
def State.acceptable (v : State) (x : Ctx) (l : Launch) (ws : List Nat) : Prop :=
  recordLegal ws = true ∧ v.launchAt x.num l.done = none ∧ v.placeable x l = true

theorem acceptRecord_of_acceptable (h : v.acceptable x (v.asked x q head ws) ws) :
    v.acceptRecord x q head ws = { v with nextId := v.nextId + 1, launches := v.launches ++ [v.asked x q head ws] } := by
  obtain ⟨hlegal, hdone, hplace⟩ := h
  refine if_neg ?_
  change ¬ ((!recordLegal ws || (v.launchAt x.num (v.asked x q head ws).done).isSome || !v.placeable x (v.asked x q head ws)) = true)
  rw [hlegal, hdone, hplace]
  decide

theorem acceptRecord_of_unacceptable (h : ¬ v.acceptable x (v.asked x q head ws) ws) :
    v.acceptRecord x q head ws = (({ v with nextId := v.nextId + 1 } : State).writeDone x.num (v.asked x q head ws).done (v.asked x q head ws).op 2 0).fileEvent
      x.num 0x08 0 ((v.asked x q head ws).op * 65536) := by
  refine if_pos ?_
  change (!recordLegal ws || (v.launchAt x.num (v.asked x q head ws).done).isSome || !v.placeable x (v.asked x q head ws)) = true
  by_contra hnone
  exact h (by simpa [State.acceptable, and_assoc] using hnone)

end

/-- The fields of a record's word of geometry (R402). -/
theorem geometryFields (g : Nat) : bitsOf g 1 0 = g % 4 ∧ bitsOf g 31 24 = g / 2 ^ 24 % 2 ^ 8 := ⟨congrArg (· % 4) (Nat.div_one g), rfl⟩

/-! ## Pre-emption (R412) -/

theorem id_of_crew? (h : s.crew? n = some c) : c.id = n := by simpa using List.find?_some h

theorem exec_preemptionComplete (h : s.crew? n = some c) : exec (.preemptionComplete n) s = .next (s.completePreemption c) := by
  refine congrArg Host.Outcome.next ?_
  rw [h]

/-- The harts of a crew that a pre-emption has yet to take to their stopping points (R205). -/
def State.unsettledHart (s : State) (c : Crew) : Option Hart := s.harts.find? fun h => s.takes c h && h.run == .ready && !h.sure

/-- The names of the harts of a crew that a pre-emption saves. -/
def State.leaving (s : State) (c : Crew) : List Nat := (s.harts.filter fun h => s.takes c h && !h.inFrame).map (·.id)

/-- The state once the harts of a crew that leave have performed their accesses and are saved. -/
def State.hartsSaved (s : State) (c : Crew) : State :=
  (s.leaving c).foldl (fun s h => s.onHart h State.saveHart) ((s.leaving c).foldl (fun s h => s.onHart h State.settleOut) s)

/-- The state once the crew's scratchpads and barrier counters are saved as well. -/
def State.crewSaved (s : State) (c : Crew) : State :=
  (((s.hartsSaved c).teams.filter fun t => t.crew == c.id).foldl (State.savePad (s.leaving c)) (s.hartsSaved c)).alignBarriers (s.leaving c) c

/-- A crew off its units. -/
def State.offUnits (s : State) (crew : Nat) : State :=
  ({ s with teams := s.teams.map (Team.leave crew) } : State).modCrew crew fun c => { c with resident := false, preempting := false }

section
variable (hres : c.resident = true) (hpre : c.preempting = true) (hstop : s.crewStopped c = true)
include hres hpre hstop

theorem completePreemption_of_unsettled {h : Hart} (hh : s.unsettledHart c = some h) : s.completePreemption c = s.onHart h.id State.undoTrims := by
  refine (if_neg (by simp [hres, hpre, hstop])).trans ?_
  rw [show s.harts.find? _ = some h from hh]

theorem completePreemption_of_saved (hh : s.unsettledHart c = none) (hsaved : (s.hartsSaved c).saveFailed c = false)
    (hall : ∀ h ∈ (s.hartsSaved c).harts, h.crew = c.id → h.gone = true ∨ (s.hartsSaved c).takes c h = true) (hx : (s.crewSaved c).saveFailed c = false) :
    s.completePreemption c = (s.crewSaved c).offUnits c.id := by
  have hleft : ((s.hartsSaved c).harts.any fun h => h.crew == c.id && !h.gone && !(s.hartsSaved c).takes c h) = false := by
    rw [List.any_eq_false]
    intro h hh
    by_cases hcrew : h.crew = c.id
    · obtain hgone | htaken := hall h hh hcrew
      · simp [hgone]
      · simp [htaken]
    · simp [hcrew]
  refine (if_neg (by simp [hres, hpre, hstop])).trans ?_
  rw [show s.harts.find? _ = none from hh]
  refine (if_neg ?_).trans (if_neg ?_)
  · change ¬ (((s.hartsSaved c).saveFailed c || _) = true)
    rw [hsaved, Bool.false_or]
    exact Bool.eq_false_iff.1 hleft
  · exact Bool.eq_false_iff.1 hx

end

theorem offUnits_crew {k : Crew} (hk : k ∈ (s.offUnits n).crews) (hid : k.id = n) : k.resident = false ∧ k.preempting = false := by
  obtain ⟨x, -, rfl⟩ := List.mem_map.1 hk
  split
  · exact ⟨rfl, rfl⟩
  · rename_i hx
    rw [if_neg hx] at hid
    exact absurd hid hx

theorem offUnits_team {y : Team} (hy : y ∈ (s.offUnits n).teams) (hcrew : y.crew = n) : y.resident = false := by
  obtain ⟨x, -, rfl⟩ := List.mem_map.1 (show y ∈ s.teams.map (Team.leave n) from hy)
  unfold Team.leave at hcrew ⊢
  split
  · rfl
  · rename_i hx
    rw [if_neg hx] at hcrew
    exact absurd hcrew hx

/-! ## Launches changed by their name -/

theorem mem_modLaunch {f : Launch → Launch} (hl : l ∈ s.launches) : f l ∈ (s.modLaunch l.id f).launches :=
  List.mem_map.2 ⟨l, hl, if_pos rfl⟩

theorem tally_id (s : State) (l : Launch) : (s.tally l).id = l.id := by
  unfold State.tally
  dsimp only
  repeat' split
  all_goals rfl

/-- A launch tallied, then changed. -/
theorem mem_tallied (f : Launch → Launch) (hl : l ∈ s.launches) : f (s.tally l) ∈ (s.tallyAll.modLaunch l.id f).launches := by
  have hmem : s.tally l ∈ s.tallyAll.launches := List.mem_map_of_mem hl
  have hchanged := mem_modLaunch (f := f) hmem
  rwa [tally_id] at hchanged

theorem id_of_launch? (h : s.launch? n = some l) : l.id = n := by simpa using List.find?_some h

/-! ## Hints (R322, R413) -/

/-- The pages of a hint of one page. -/
theorem hintPages_of_one {x : Xl} (hone : l.hint.toNat % 2 ^ 32 = 1) (hx : v.lookup l.ctx l.hintBase = .ok x) : v.hintPages l = [x.pa / 65536] := by
  have hcount : bitsOf l.hint.toNat 31 0 = 1 := (congrArg (· % 2 ^ 32) (Nat.div_one _)).trans hone
  rw [State.hintPages, hcount]
  simp [List.range_succ, hx]

theorem moveHint_of_open (hopen : v.hintOpen l = true) (hquiet : v.quiet (fun pa => (v.hintPages l).contains (pa / 65536)) = true)
    (hlink : ∀ p ∈ v.hintPages l, v.linkWaits (.phys (65536 * p)) = false) :
    v.moveHint l = ((v.hintPages l).foldl (fun s page => s.movePage l.hint.toNat page) v).modLaunch l.id fun l => { l with hintPending := false } := by
  have hdown : ((v.hintPages l).any fun p => v.linkWaits (.phys (65536 * p))) = false := by
    rw [List.any_eq_false]
    exact fun p hp => Bool.eq_false_iff.1 (hlink p hp)
  refine if_neg ?_
  rw [hopen, hquiet, hdown]
  decide

theorem movePage_mem (s : State) (hint page : Nat) : (s.movePage hint page).mem = s.mem := by
  have hentries (die : Nat) (os : List Obj) (u : State) : (os.foldl (fun s o => s.moveEntry die o) u).mem = u.mem := by
    induction os generalizing u with
    | nil => rfl
    | cons o os ih => exact ih _
  unfold State.movePage
  extract_lets old die bias inPage t
  rw [State.mapHarts_mem]
  change t.mem = s.mem
  unfold t
  split
  · rfl
  · exact hentries ..

/-- A page's home die is the hint's where the hint names one, and stays otherwise. -/
theorem movePage_home (s : State) (hint page : Nat) : Sparse.get zeroNat (s.movePage hint page).homes page % 4 =
    if bitsOf hint 34 34 = 1 then bitsOf hint 33 32 else Sparse.get zeroNat s.homes page % 4 := by
  unfold State.movePage
  extract_lets old die bias inPage t
  rw [State.mapHarts_homes]
  dsimp only
  rw [Sparse.get_put_same, Nat.add_mul_mod_self_left]
  refine Nat.mod_eq_of_lt ?_
  unfold die
  split
  · exact Nat.mod_lt _ (by decide)
  · exact Nat.mod_lt _ (by decide)

theorem bit34_iff (w : Word) : w.getLsbD 34 = true ↔ bitsOf w.toNat 34 34 = 1 := by
  rw [BitVec.getLsbD, ← bitsOf_beq_one, beq_iff_eq]

/-! ## Completion (R404) -/

theorem completeLaunch_of_ended (hwaits : v.doneWaits l = false) (hdep : v.depFailed l = false) (hun : l.unbound = [])
    (hcrews : ∀ c ∈ v.crews, c.launch ≠ l.id) : v.completeLaunch l =
      { v.writeDone l.ctx l.done l.op l.status l.stopped with
        launches := (v.writeDone l.ctx l.done l.op l.status l.stopped).launches.filter fun x => x.id != l.id } := by
  have hnone : (v.crews.all fun c => c.launch != l.id) = true := List.all_eq_true.2 fun c hc => bne_iff_ne.2 (hcrews c hc)
  unfold State.completeLaunch
  rw [hwaits, hdep, hun, hnone]
  rfl

end Sys2Proof.Machine

open Sys2Proof Sys2Proof.Machine Sys2Proof.Claims in
/-- Settles O51, event by event: what binding starts is followed hart by hart and crew by crew, since frame writes that fail may file events; the
others are what their guards let through. -/
theorem schedulerEvents : Obligations.SchedulerEvents := by
  intro s n m
  refine ⟨fun q c v head ws h => ⟨fun w hgood hw => ?_, fun hbad w hw => ?_⟩, fun id ctx queue seqno ceiling tick ws => ?_, ?_,
    fun c hc hres hpre hstop => ⟨fun h hh => ?_, fun hh hsaved hall hx => ?_⟩, ?_, ?_, ?_, ?_⟩
  · exact exec_launchAccept h (by rw [acceptRecord_of_acceptable hgood]; exact hw)
  · exact exec_launchAccept h (by rw [acceptRecord_of_unacceptable hbad]; exact hw)
  · obtain ⟨hrows, htags⟩ := geometryFields (ws.getD 4 0)
    refine ⟨rfl, rfl, rfl, congrArg (· + 1) hrows, rfl, rfl, rfl, rfl, rfl, ?_⟩
    exact (congrArg (BitVec.ofNat 8) htags).trans (BitVec.eq_of_toNat_eq (by simp))
  · intro r v k l f hk hcrew hl hfit
    have hbinds : Binds v l v.nextId { v with crews := v.crews ++ [v.newCrew l k f] } (v.bindNew l k f) := bindNew_binds v l k f
    refine ⟨_, congrArg Host.Outcome.next (schedule_of_one hk hcrew hl hfit), ?_, hbinds.others fun h hh => .inl ⟨h, hh, rfl⟩⟩
    obtain ⟨c, hc, hsame⟩ := exists_newCrew hbinds.crews
    exact ⟨c, hc, (congrArg Crew.id hsame :), (congrArg Crew.launch hsame :), (congrArg Crew.ctx hsame :), (congrArg Crew.stage hsame :),
      (congrArg Crew.index hsame :), (congrArg Crew.resident hsame :), (congrArg Crew.tags hsame :), (congrArg Crew.die hsame :),
      (congrArg Crew.cluster hsame :)⟩
  · rw [exec_preemptionComplete hc, completePreemption_of_unsettled hres hpre hstop hh]
  · obtain rfl := id_of_crew? hc
    exact ⟨_, (exec_preemptionComplete hc).trans (congrArg _ (completePreemption_of_saved hres hpre hstop hh hsaved hall hx)), rfl,
      fun k hk hid => offUnits_crew hk hid, fun y hy hcrew => offUnits_team hy hcrew⟩
  · rintro l hl rfl
    exact ⟨_, rfl, rfl, mem_tallied Launch.grow hl⟩
  · intro l x v hl hpending hmet hruns hquiet hone hx hlink
    obtain rfl := id_of_launch? hl
    have hpages := hintPages_of_one hone hx
    have hopen : v.hintOpen l = true := by rw [State.hintOpen, hpending, hmet, hruns]; rfl
    have hmoved := moveHint_of_open hopen hquiet (by rw [hpages]; simpa using hlink)
    rw [hpages, List.foldl_cons, List.foldl_nil] at hmoved
    have hexec : exec (.homeBiasMove l.id) s = .next (v.moveHint l) := congrArg Host.Outcome.next (by rw [hl])
    refine ⟨_, hexec.trans (congrArg _ hmoved), fun k hk hid => ?_, movePage_mem .., fun h34 => ?_, fun h34 => ?_⟩
    · obtain ⟨y, -, rfl⟩ := List.mem_map.1 hk
      split
      · rfl
      · rename_i hy
        rw [if_neg hy] at hid
        exact absurd hid hy
    · exact (movePage_home ..).trans (if_pos ((bit34_iff _).1 h34))
    · exact (movePage_home ..).trans (if_neg (mt (bit34_iff _).2 (by rw [h34]; decide)))
  · rintro l hl rfl hpending hdue
    refine ⟨_, rfl, rfl, ?_⟩
    have hmem := mem_tallied (fun l => if l.hintPending && decide (l.hintAt + 2 ^ 16 ≤ s.tick) then { l with hintPending := false } else l) hl
    rwa [if_pos (by rw [hpending, Bool.true_and]; exact decide_eq_true hdue)] at hmem
  · intro l v hl hwaits hdep hun hcrews code
    have hexec : exec (.launchCompletion n) s = .next (v.completeLaunch l) := congrArg Host.Outcome.next (by rw [hl])
    refine ⟨_, hexec.trans (congrArg _ (completeLaunch_of_ended hwaits hdep hun hcrews)), rfl, fun k hk => ?_⟩
    exact bne_iff_ne.1 (List.mem_filter.1 hk).2
end
section
/-!
Memory stays in canonical form. `State.Canonical` holds of the state that each function of the model leads to, one lemma a function, in the
order of the model's files: memory is written by `State.poke`, `State.setMemBit`, the frame image of `State.frameWrite` and the boot alone, and
every other function hands on a state that these keep. With O58 and O59.
-/

-- In turn, as the model's tests are: the many short proofs below, elaborated at once, take a thread each, and the check's memory limit counts their stacks.
set_option Elab.async false

namespace Sys2Proof.Machine

/-- The memory of a state is in canonical form. -/
abbrev State.Canonical (s : State) : Prop := Memory.wf s.mem = true

/-- The state that a device access leads to, whether it succeeds (`at'` finds the state in its result) or fails. -/
def reached {α : Type} (at' : α → State) : Except State α → State
  | .ok a => at' a
  | .error t => t

/-- The state in which a member's effect ends. -/
def Res.state : Res → State
  | .ok s => s
  | .jump s _ => s
  | .trap _ s => s
  | .hold s => s
  | .moved s => s

/-- What is due leads to canonical memory. -/
def Offered (r : Option State) : Prop := ∀ t, r = some t → t.Canonical

/-- An outcome goes on with canonical memory. -/
def Continues (o : Out) : Prop := ∀ t, o = .next t → t.Canonical

namespace State.Canonical

/-! ### Sequences, choices and folds -/

theorem reached_bind {α β : Type} {f : α → State} {g : β → State} {r : Except State α} {k : α → Except State β} (hr : (reached f r).Canonical)
    (hk : ∀ a, (f a).Canonical → (reached g (k a)).Canonical) : (reached g (r >>= k)).Canonical := by
  cases r with
  | ok a => exact hk a hr
  | error t => exact hr

theorem reached_map {α β : Type} {f : α → State} {g : β → State} {r : Except State α} {k : α → β} (hr : (reached f r).Canonical)
    (hk : ∀ a, (f a).Canonical → (g (k a)).Canonical) : (reached g (r.map k)).Canonical := by
  cases r with
  | ok a => exact hk a hr
  | error t => exact hr

theorem ofOutcome {r : Except State State} (h : (reached id r).Canonical) : (outcome r).Canonical := by cases r <;> exact h

theorem ofPair {α : Type} {x : State × α} {s : State} {a : α} (hx : x.1.Canonical) (he : x = (s, a)) : s.Canonical := by
  rw [he] at hx
  exact hx

theorem continues_fault {f : Fault} : Continues (.fault f) := fun t ht => by simp at ht

theorem continues_refused {r : Refusal} : Continues (.refused r) := fun t ht => by simp at ht

theorem offered_none : Offered none := fun t ht => by simp at ht

theorem offered_some {t : State} (h : t.Canonical) : Offered (some t) := by rintro _ ⟨⟩; exact h

theorem offered_or {a b : Option State} (ha : Offered a) (hb : Offered b) : Offered (a <|> b) := by
  cases a with
  | none => exact hb
  | some t => exact ha

theorem offered_findSome? {α : Type} {f : α → Option State} {xs : List α} (hf : ∀ x, Offered (f x)) : Offered (xs.findSome? f) := by
  intro t ht
  obtain ⟨x, -, hx⟩ := List.exists_of_findSome?_eq_some ht
  exact hf x t hx

theorem offered_bind {α : Type} {r : Option α} {f : α → Option State} (hf : ∀ x, Offered (f x)) : Offered (r.bind f) := by
  cases r with
  | none => exact offered_none
  | some x => exact hf x

theorem offered_map {α : Type} {r : Option α} {f : α → State} (hf : ∀ x, (f x).Canonical) : Offered (r.map f) := by
  cases r with
  | none => exact offered_none
  | some x => exact offered_some (hf x)

theorem offered_ite {c : Prop} [Decidable c] {a b : Option State} (ha : Offered a) (hb : Offered b) : Offered (if c then a else b) := by
  split
  · exact ha
  · exact hb

theorem offered_getD {r : Option State} {s : State} (hr : Offered r) (h : s.Canonical) : (r.getD s).Canonical := by
  cases r with
  | none => exact h
  | some t => exact hr t rfl

theorem foldl {α : Type} {f : State → α → State} {xs : List α} {s : State} (h : s.Canonical)
    (hf : ∀ {s : State} {x : α}, s.Canonical → (f s x).Canonical) : (xs.foldl f s).Canonical := foldl_keeps _ _ _ h fun _ _ => hf

theorem foldl_fst {α β : Type} {f : State × β → α → State × β} {xs : List α} {x : State × β} (hx : x.1.Canonical)
    (hf : ∀ x a, x.1.Canonical → (f x a).1.Canonical) : (xs.foldl f x).1.Canonical := by
  induction xs generalizing x with
  | nil => exact hx
  | cons a xs ih => exact ih (hf x a hx)

/-! ### State -/

theorem booted {m : Manifest} : (State.booted m).Canonical := rfl

/-! ### Memory -/

theorem modTeam {s : State} {t : Nat} {f : Team → Team} (h : s.Canonical) : (s.modTeam t f).Canonical := h

theorem mapHarts {s : State} {f : Hart → Hart} (h : s.Canonical) : (s.mapHarts f).Canonical := h

theorem modHart {s : State} {f : Hart → Hart} (h : s.Canonical) : (s.modHart f).Canonical := h

theorem modRegs {s : State} {f : Regs → Regs} (h : s.Canonical) : (s.modRegs f).Canonical := h

theorem modPkg {s : State} {f : Package → Package} (h : s.Canonical) : (s.modPkg f).Canonical := h

theorem wakeLines {s : State} {p : Place} {n : Nat} (h : s.Canonical) : (s.wakeLines p n).Canonical := h

theorem deviceWrite {s : State} {off : Nat} {v : Word} (h : s.Canonical) : (s.deviceWrite off v).Canonical := by
  rwa [State.Canonical, deviceWrite_mem]

theorem poke {s : State} {p : Place} {data : List Byte} {tag : Bool} {owner : Nat} (h : s.Canonical) : (s.poke p data tag owner).Canonical :=
  Memory.wf_poke _ _ _ _ _ h

theorem poisonAt {s : State} {p : Place} {n : Nat} (h : s.Canonical) : (s.poisonAt p n).Canonical := by
  unfold State.poisonAt
  grind [! . modTeam]

theorem setMemBit {s : State} {owner a bit : Nat} (h : s.Canonical) : (s.setMemBit owner a bit).Canonical := Memory.wf_setMemBit _ _ _ _ h

theorem setDirty {s : State} {owner : Nat} {dirty : List (Nat × Nat)} (h : s.Canonical) : (s.setDirty owner dirty).Canonical :=
  foldl h setMemBit

theorem keepOld {s : State} {w : Nat} {p : Place} {data : List Byte} (h : s.Canonical) : (s.keepOld w p data).Canonical := by
  rwa [State.Canonical, keepOld_mem]

theorem forgetBy {s : State} {n : Nat} {sel : Old → Bool} (h : s.Canonical) : (s.forgetBy n sel).Canonical := h

theorem modObj {s : State} {o : Obj} {f : Obj → Obj} (h : s.Canonical) : (s.modObj o f).Canonical := h

theorem advance {s : State} {t : Team} {n : Nat} (h : s.Canonical) : (s.advance t n).Canonical := h

theorem renewed {s : State} {p : Place} (h : s.Canonical) : (s.renewed p).Canonical := by
  unfold State.renewed
  split
  · split
    · exact h
    · exact foldl h forgetBy
  · exact h

theorem stampStore {s : State} {w : Nat} {p : Place} (h : s.Canonical) : (s.stampStore w p).Canonical := by
  rwa [State.Canonical, stampStore_mem]

theorem acquireLease {s : State} {p : Place} (h : s.Canonical) : (s.acquireLease p).Canonical := by
  unfold State.acquireLease
  grind [! . renewed, ! . advance]

theorem performOne {s : State} {w : Nat} {q : Pending} (h : s.Canonical) : (s.performOne w q).Canonical := Memory.wf_performOne _ _ _ h

theorem performAfter {fuel : Nat} {s : State} {x : Nat × Pending} (h : s.Canonical) : (State.performAfter fuel s x).Canonical :=
  Memory.wf_performAfter _ _ _ h

theorem perform {s : State} {q : Pending} (h : s.Canonical) : (s.perform q).Canonical := Memory.wf_perform _ _ h

theorem drain {s : State} {sel : Pending → Bool} (h : s.Canonical) : (s.drain sel).Canonical := Memory.wf_drain _ _ h

theorem drainAll {s : State} (h : s.Canonical) : s.drainAll.Canonical := drain h

theorem issueStore {s : State} {q : Pending} (h : s.Canonical) : (s.issueStore q).Canonical := Memory.wf_issueStore _ _ h

theorem synced {s : State} (h : s.Canonical) : s.synced.Canonical := h

theorem current {s : State} {p : Place} {n : Nat} (h : s.Canonical) : (s.current p n).Canonical := acquireLease h

theorem acquired {s : State} {p : Place} (h : s.Canonical) : (s.acquired p).Canonical := acquireLease h

theorem readUnit {s : State} {sel : Pending → Bool} {p : Place} {n : Nat} (h : s.Canonical) : (s.readUnit sel p n).1.Canonical := by
  unfold State.readUnit
  grind [! . renewed, ! . forgetBy]

theorem readList {s : State} {sel : Pending → Bool} {p : Place} {n : Nat} (h : s.Canonical) : (s.readList sel p n).1.Canonical := by
  unfold State.readList
  suffices hr : ∀ (us : List (Nat × Nat)) (r : State × List Byte), r.1.Canonical →
      (us.foldl (fun r u => ((r.1.readUnit sel (p.add u.1) u.2).1, r.2 ++ (r.1.readUnit sel (p.add u.1) u.2).2)) r).1.Canonical from hr _ (s, []) h
  intro us
  induction us with
  | nil => exact fun _ hr => hr
  | cons u us ih => exact fun r hr => ih _ (readUnit hr)

/-! ### Translate -/

theorem setAccessed {s : State} {owner : Nat} {ls : List Leaf} (h : s.Canonical) : (s.setAccessed owner ls).1.Canonical := by
  induction ls generalizing s with
  | nil => exact h
  | cons l rest ih =>
    unfold State.setAccessed
    grind [! . setMemBit]

/-! ### Access -/

theorem reach {s : State} {va : Word} {n : Nat} {u : Use} {want : Option Want} (h : s.Canonical) : (s.reach va n u want).1.Canonical := by
  unfold State.reach
  grind [! . setAccessed]

/-! ### Errors -/

theorem deviceReach {s : State} {c : Nat} {write plain : Bool} {a : Except XFail Xl} (h : s.Canonical) :
    (reached Prod.fst (s.deviceReach c write plain a)).Canonical := by
  unfold State.deviceReach
  grind [! . setAccessed, outcome, reached]

theorem ctxReach {s : State} {c va : Nat} {write plain : Bool} (h : s.Canonical) : (reached Prod.fst (s.ctxReach c va write plain)).Canonical := deviceReach h

theorem ctxRead {s : State} {c va n : Nat} {plain : Bool} (h : s.Canonical) : (reached Prod.fst (s.ctxRead c va n plain)).Canonical :=
  reached_map (deviceReach h) fun _ => id

theorem ctxWrite {s : State} {c va : Nat} {data : List Byte} {plain : Bool} (h : s.Canonical) : (reached id (s.ctxWrite c va data plain)).Canonical :=
  reached_map (deviceReach h) fun _ => perform

theorem ctxWord {s : State} {c va : Nat} {plain : Bool} (h : s.Canonical) : (reached Prod.fst (s.ctxWord c va plain)).Canonical :=
  reached_map (ctxRead h) fun _ => id

theorem ctxPut {s : State} {c va v : Nat} {plain : Bool} (h : s.Canonical) : (reached id (s.ctxPut c va v plain)).Canonical := ctxWrite h

theorem modCtx {s : State} {n : Nat} {f : Ctx → Ctx} (h : s.Canonical) : (s.modCtx n f).Canonical := h

theorem holdCtx {s : State} {n : Nat} (h : s.Canonical) : (s.holdCtx n).Canonical := h

theorem ringPut {s : State} {c : Ctx} {code addr src : Nat} (h : s.Canonical) : (reached id (s.ringPut c code addr src)).Canonical := by
  unfold State.ringPut
  extract_lets base n rest
  have hrest (u : State) (hu : u.Canonical) : (reached id (rest u)).Canonical := by
    refine reached_bind (ctxWord hu) fun z hz => ?_
    dsimp only
    split
    · exact hz
    · refine reached_bind (ctxWord hz) fun p hp => reached_bind (ctxWord hp) fun c hc => ?_
      split
      · exact reached_bind (ctxPut hc) fun _ h => reached_bind (ctxPut h) fun _ h => reached_bind (ctxPut h) fun _ h =>
          reached_bind (ctxPut h) fun _ h => ctxPut h
      · exact reached_bind (ctxWord hc) fun _ h => ctxPut h
  refine reached_bind (ctxWord h) fun x hx => reached_bind (ctxPut hx) fun t ht => reached_bind (ctxWord ht) fun y hy => ?_
  dsimp only
  split
  · exact hrest _ hy
  · exact reached_bind (ctxPut hy) hrest

theorem fileIn {s : State} {fuel n code addr src : Nat} (h : s.Canonical) : (s.fileIn fuel n code addr src).Canonical := by
  induction fuel generalizing s n code addr with
  | zero => exact h
  | succ k ih =>
    unfold State.fileIn
    grind [! . ringPut, ! . holdCtx, reached]

theorem fileEvent {s : State} {n code addr src : Nat} (h : s.Canonical) : (s.fileEvent n code addr src).Canonical := by
  unfold State.fileEvent
  grind [! . fileIn]

theorem fileWaiting {s : State} (h : s.Canonical) : s.fileWaiting.Canonical := foldl (s := { s with unfiled := _ }) h fileEvent

theorem eccAccess {s : State} {p : Place} {n : Nat} (h : s.Canonical) : (s.eccAccess p n).Canonical := by
  unfold State.eccAccess
  grind [! . fileEvent, ! . modCtx, ! . poisonAt]

theorem eccRegisters {s : State} (h : s.Canonical) : s.eccRegisters.Canonical := by
  unfold State.eccRegisters
  grind [! . fileEvent, ! . modCtx, ! . modRegs, ! . modTeam]

theorem access {s : State} {va : Word} {n : Nat} {u : Use} {want : Option Want} {atomic : Option Bool} (h : s.Canonical) :
    (s.access va n u want atomic).1.Canonical := by
  unfold State.access
  grind [! . fileEvent, ! . reach]

theorem dropLost {s : State} (h : s.Canonical) : s.dropLost.Canonical := by
  unfold State.dropLost
  dsimp only
  split
  · exact h
  · exact foldl (modHart h) fileEvent

/-! ### Operands -/

theorem setG {s : State} {i : GReg} {v : Word} (h : s.Canonical) : (s.setG i v).Canonical := h

/-! ### Formats -/

theorem readPlaces {s : State} {ps : List Place} (h : s.Canonical) : (s.readPlaces ps).1.Canonical := by
  induction ps generalizing s with
  | nil => exact h
  | cons p ps ih => exact ih (readList h)

theorem mxStoreBlock {s : State} {x : MxElem} {stored : List MxElem} (h : s.Canonical) : (s.mxStoreBlock x stored).Canonical := by
  unfold State.mxStoreBlock
  extract_lets base offs t
  have hscale := readPlaces (ps := [x.scale]) (drain h : t.Canonical)
  have hbytes := readPlaces (ps := offs.map x.group.add) hscale
  exact perform (foldl (foldl hbytes setDirty) perform)

theorem mxStore {s : State} {fuel : Nat} {xs : List MxElem} (h : s.Canonical) : (s.mxStore fuel xs).Canonical := by
  induction fuel generalizing s xs with
  | zero => exact h
  | succ n ih =>
    cases xs with
    | nil => exact h
    | cons x rest => exact ih (mxStoreBlock h)

/-! ### Frames -/

theorem frameReach {s : State} {k : Hart} {off : Nat} {write : Bool} (h : s.Canonical) : (reached Prod.fst (s.frameReach k off write)).Canonical := by
  unfold State.frameReach
  split
  · split
    · exact h
    · exact reached_map (deviceReach h) fun _ => setDirty
  · exact h

theorem frameWrite {s : State} {k : Hart} {fuel off size : Nat} {img : Sparse Byte} (h : s.Canonical) :
    (reached id (s.frameWrite k fuel off size img)).Canonical := by
  induction fuel generalizing s off size img with
  | zero => exact h
  | succ n ih =>
    have hreach := frameReach (k := k) (off := off) (write := true) h
    unfold State.frameWrite
    split
    · exact h
    · dsimp only
      split <;> rename_i hr <;> rw [hr] at hreach
      · exact hreach
      · exact ih (wakeLines (Memory.wf_fill _ _ _ _ hreach))

theorem frameRead {s : State} {k : Hart} {fuel off size : Nat} (h : s.Canonical) : (reached Prod.fst (s.frameRead k fuel off size)).Canonical := by
  induction fuel generalizing s off size with
  | zero => exact h
  | succ n ih =>
    have hreach := frameReach (k := k) (off := off) (write := false) h
    unfold State.frameRead
    split
    · exact h
    · dsimp only
      split <;> rename_i hr <;> rw [hr] at hreach
      · exact hreach
      · rename_i t pa
        have hmore := ih (s := t) (off := off + min size (65536 - off % 65536)) (size := size - min size (65536 - off % 65536)) hreach
        split <;> rename_i hm <;> rw [hm] at hmore <;> exact hmore

theorem cleanTiles {s : State} {a : Hart} (h : s.Canonical) : (s.cleanTiles a).Canonical := by
  unfold State.cleanTiles
  grind [! . modTeam]

theorem saveFrame {s : State} {k : Hart} {state : Nat} {whole : Bool} (h : s.Canonical) : (reached id (s.saveFrame k state whole)).Canonical := by
  unfold State.saveFrame
  refine reached_map ?_ fun _ => cleanTiles
  generalize s.frameAreas k state whole = areas
  suffices hr : ∀ r : Except State State, (reached id r).Canonical →
      (reached id (areas.foldl (fun acc a => acc.bind fun s => s.frameWrite k framePages a.1 a.2.1 a.2.2) r)).Canonical from hr _ h
  induction areas with
  | nil => exact fun _ hr => hr
  | cons a areas ih => exact fun r hr => ih _ (reached_bind hr fun _ => frameWrite)

theorem setFrameState {s : State} {a : Hart} {state : Nat} (h : s.Canonical) : (reached id (s.setFrameState a state)).Canonical := frameWrite h

theorem loadFrame {s : State} {k : Hart} (h : s.Canonical) : (reached Prod.fst (s.loadFrame k)).Canonical := by
  unfold State.loadFrame
  iterate 10 refine reached_bind (frameRead (by assumption)) fun _ _ => ?_
  assumption

theorem loadTiles {s : State} {k : Hart} {t : Nat} {claims : Sparse Byte} {ks : List Nat} (h : s.Canonical) :
    (reached id (s.loadTiles k t claims ks)).Canonical := by
  induction ks generalizing s with
  | nil => exact h
  | cons j rest ih =>
    have himg (zero : Bool) : (reached Prod.fst (if zero then .ok (s, []) else s.frameRead k framePages (0x68000 + 0x8900 * j) 0x8900)).Canonical := by
      split
      · exact h
      · exact frameRead h
    unfold State.loadTiles
    dsimp only
    split
    · exact ih h
    · split
      · exact ih (modTeam h)
      · have hread := himg (bitsOf (imageWord claims 0).toNat (8 + j) (8 + j) == 1)
        split <;> rename_i hr <;> rw [hr] at hread
        · exact hread
        · exact ih (modTeam hread)

theorem restoreTiles {s : State} {k : Hart} (h : s.Canonical) : (reached id (s.restoreTiles k)).Canonical := by
  unfold State.restoreTiles
  split
  · exact h
  · exact reached_bind (frameRead h) fun _ => loadTiles

theorem loadPad {s : State} {k : Hart} (h : s.Canonical) : (reached id (s.loadPad k)).Canonical := by
  unfold State.loadPad
  split
  · exact reached_map (frameRead h) fun _ => modTeam
  · exact h

theorem loadBarriers {s : State} {k : Hart} (h : s.Canonical) : (reached id (s.loadBarriers k)).Canonical := reached_map (frameRead h) fun _ => id

theorem saveBarriers {s : State} {k : Hart} (h : s.Canonical) : (reached id (s.saveBarriers k)).Canonical := by
  unfold State.saveBarriers
  split
  · exact h
  · exact reached_bind (frameWrite h) fun _ => frameWrite

theorem modCrew {s : State} {n : Nat} {f : Crew → Crew} (h : s.Canonical) : (s.modCrew n f).Canonical := h

theorem settlePhase {s : State} {crew t : Nat} (h : s.Canonical) : (s.settlePhase crew t).Canonical := by
  unfold State.settlePhase
  grind [! . modCrew]

theorem settlePhases {s : State} {crew : Nat} (h : s.Canonical) : (s.settlePhases crew).Canonical := foldl h settlePhase

/-! ### Tiles -/

theorem draw {s : State} (h : s.Canonical) : s.draw.1.Canonical := h

theorem drawMany {s : State} {n : Nat} (h : s.Canonical) : (s.drawMany n).1.Canonical := h

theorem modTile {s : State} {k : Nat} {f : Tile → Tile} (h : s.Canonical) : (s.modTile k f).Canonical := by
  unfold State.modTile
  grind [! . modTeam]

theorem performRow {s : State} {op : MatOp} {ordered stream : Bool} {st y : Nat} (h : s.Canonical) : (s.performRow op ordered stream st y).Canonical := by
  have hrow : (if stream then op.pieces.foldl (fun s p => s.eccAccess p.2.1 p.2.2) s else s).Canonical := by
    split
    · exact foldl h eccAccess
    · exact h
  unfold State.performRow
  grind [! . drawMany, ! . modTile, ! . fileEvent, ! . modHart]

theorem performConvert {s : State} {op : MatOp} {source imm : Nat} (h : s.Canonical) : (s.performConvert op source imm).Canonical := by
  unfold State.performConvert
  grind [! . modHart, ! . modTile]

theorem loadPiece {s : State} {op : MatOp} {image : Bool} {p : Nat × Place × Nat} (h : s.Canonical) : (s.loadPiece op image p).Canonical := by
  refine foldl (eccAccess h) fun h => ?_
  dsimp only
  split
  · exact h
  · exact modTile h

theorem storePiece {s : State} {op : MatOp} {image : Bool} {p : Nat × Place × Nat} (h : s.Canonical) : (s.storePiece op image p).Canonical := by
  refine foldl (perform h) fun h => ?_
  split
  · exact poisonAt h
  · exact h

theorem performMatrix {s : State} {op : MatOp} (h : s.Canonical) : (s.performMatrix op).Canonical := by
  have hs := eccRegisters h
  unfold State.performMatrix
  extract_lets u t w vec
  split
  · exact modTile hs
  · exact modTile hs
  · rename_i image _
    have hload : (op.pieces.foldl (fun s p => s.loadPiece op image p) u).Canonical := foldl hs loadPiece
    dsimp only
    split
    · exact modTile (modTile hload)
    · exact modTile hload
  · exact foldl (setDirty hs) storePiece
  · exact modTile hs
  · exact modHart hs
  · exact modTile hs
  · exact modHart hs
  · exact performConvert hs
  · exact performRow hs

theorem performPart {s : State} {op : MatOp} {r : Nat} (h : s.Canonical) : (s.performPart op r).1.Canonical := by
  unfold State.performPart
  grind [! . performMatrix]

theorem settleMatrix {s : State} (h : s.Canonical) : s.settleMatrix.Canonical := by
  have hfirst (ops rest : List MatOp) : (ops.foldl State.performMatrix (s.modHart fun h => { h with matrix := rest })).Canonical :=
    foldl (modHart h) performMatrix
  unfold State.settleMatrix
  dsimp only
  split
  · exact hfirst _ _
  · exact modHart (performPart (draw (hfirst _ _)))

/-! ### Ops -/

theorem retire {s : State} {e : Bool} (h : s.Canonical) : (s.retire e).Canonical := by
  unfold State.retire
  grind []

theorem goto {s : State} {t : Word} (h : s.Canonical) : (s.goto t).Canonical := h

theorem focus {s : State} {id : Nat} (h : s.Canonical) : (s.focus id).Canonical := by
  unfold State.focus
  grind []

theorem onHart {s : State} {id : Nat} {f : State → State} (h : s.Canonical) (hf : ∀ {t : State}, t.Canonical → (f t).Canonical) : (s.onHart id f).Canonical := by
  unfold State.onHart
  grind [! . focus]

theorem enterHandler {s : State} {t : Trap} (h : s.Canonical) : (s.enterHandler t).Canonical := h

theorem countStop {s : State} {aborted faulted : Bool} (h : s.Canonical) : (s.countStop aborted faulted).Canonical := by
  unfold State.countStop
  grind []

theorem crownHalt {s : State} {t : Trap} (h : s.Canonical) : (s.crownHalt t).Canonical :=
  fileEvent (settlePhases (ofOutcome (setFrameState (countStop (modHart h)))))

theorem frameFault {s : State} {access : FrameAccess} (h : s.Canonical) : (s.frameFault access).Canonical := by
  unfold State.frameFault
  grind [! . modHart, ! . crownHalt]

theorem crewFault {s : State} {access : FrameAccess} (h : s.Canonical) : (s.crewFault access).Canonical := frameFault h

theorem startFrame {s : State} (h : s.Canonical) : s.startFrame.Canonical := by
  unfold State.startFrame
  grind [! . setFrameState, ! . synced, ! . modHart, ! . frameFault, outcome, reached]

theorem loadBits {s : State} {minor fmt : Nat} {vt : BitVec 7} {seed : Word} {loc : Nat} {high : Bool} {p : Place} {scale : Option Place} (h : s.Canonical) :
    (s.loadBits minor fmt vt seed loc high p scale).1.Canonical := by
  unfold State.loadBits
  grind [! . readList]

theorem loadLate {l : LateLoad} {s : State} {x : LateElem} (h : s.Canonical) : (State.loadLate l s x).Canonical := loadBits h

theorem performLate {s : State} (h : s.Canonical) : s.performLate.Canonical := by
  unfold State.performLate
  split
  · exact h
  · exact foldl h fun h => foldl h loadLate

theorem settleOut {s : State} (h : s.Canonical) : s.settleOut.Canonical := by
  unfold State.settleOut
  grind [! . modHart, ! . settleMatrix, ! . drainAll, ! . performLate]

theorem reflect {s : State} {t : Trap} {j : Nat} {a : Ctx} (h : s.Canonical) : (s.reflect t j a).Canonical := by
  unfold State.reflect
  grind [! . settleOut, ! . saveFrame, ! . frameFault, ! . startFrame, outcome, reached]

theorem placeRequest {s : State} {q : PageReq} {ctxid : Nat} (h : s.Canonical) : (s.placeRequest q ctxid).1.Canonical := by
  unfold State.placeRequest
  grind [! . ctxWrite, ! . modCtx, outcome, reached]

theorem requestPage {s : State} {owner stage : Nat} {entry : Word} {write : Bool} (h : s.Canonical) : (s.requestPage owner stage entry write).Canonical := by
  unfold State.requestPage
  grind [! . placeRequest]

theorem requestPages {s : State} {pages : List Word} {write : Bool} (h : s.Canonical) : (s.requestPages pages write).Canonical := by
  refine foldl h fun h => ?_
  split
  · exact requestPage h
  · exact h

theorem pageStop {s : State} {t : Trap} (h : s.Canonical) : (s.pageStop t).Canonical := by
  unfold State.pageStop
  grind [! . settleOut, ! . saveFrame, ! . frameFault, ! . requestPages, outcome, reached]

theorem trapPath {s : State} {t : Trap} (h : s.Canonical) : (s.trapPath t).Canonical := by
  unfold State.trapPath
  grind [! . enterHandler, ! . reflect, ! . crownHalt]

theorem deliver {s : State} {t : Trap} (h : s.Canonical) : (s.deliver t).Canonical := by
  unfold State.deliver
  grind [! . modRegs, ! . pageStop, ! . trapPath]

theorem commitHeld {s : State} {c : Held} (h : s.Canonical) : (s.commitHeld c).Canonical := mxStore (foldl h issueStore)

theorem modRegion {s : State} {f : Region → Region} (h : s.Canonical) : (s.modRegion f).Canonical := h

theorem releaseCaddy {s : State} (h : s.Canonical) : s.releaseCaddy.Canonical := by
  unfold State.releaseCaddy
  split
  · exact h
  · exact foldl h commitHeld

theorem writeRecord {s : State} {img : Sparse Byte} (h : s.Canonical) : (reached id (s.writeRecord img)).Canonical := frameWrite h

theorem backTo {s : State} {caddy : List Held} {tr : Trim} (h : s.Canonical) : (s.backTo caddy tr).Canonical :=
  foldl h commitHeld

theorem takeTrim {s : State} {caddy : List Held} {tr : Trim} (h : s.Canonical) : (s.takeTrim caddy tr).Canonical := by
  unfold State.takeTrim
  grind [! . backTo, ! . modHart, ! . deliver, ! . modRegs, ! . writeRecord, ! . frameFault, outcome, reached]

theorem squashTo {s : State} {x : Strip} (h : s.Canonical) : (s.squashTo x).Canonical := h

theorem resolveEach {s : State} {xs : List Strip} (h : s.Canonical) : (reached id (State.resolveEach xs s)).Canonical := by
  induction xs generalizing s with
  | nil => exact h
  | cons x rest ih =>
    have hheld : (x.caddy.foldl State.commitHeld s).Canonical := foldl h commitHeld
    unfold State.resolveEach
    grind [! . takeTrim, ! . squashTo, reached]

theorem resolveStrips {s : State} (h : s.Canonical) : (reached id s.resolveStrips).Canonical := resolveEach h

theorem resolveTests {s : State} (h : s.Canonical) : (reached id s.resolveTests).Canonical := by
  unfold State.resolveTests
  grind [! . resolveStrips, ! . releaseCaddy, ! . modRegion, outcome, reached]

theorem awaitTests {s : State} (h : s.Canonical) : s.awaitTests.Canonical := by
  unfold State.awaitTests
  grind [! . releaseCaddy, ! . modRegion]

theorem decideTrims {s : State} {ends : Bool} (h : s.Canonical) : (reached id (s.decideTrims ends)).Canonical := by
  unfold State.decideTrims
  grind [! . resolveTests, ! . takeTrim, ! . releaseCaddy, ! . modRegion, outcome, reached]

theorem settled {s : State} {k : State → Res} (h : s.Canonical) (hk : ∀ {t : State}, t.Canonical → (k t).state.Canonical) : (settled s k).state.Canonical := by
  have htrims := decideTrims (ends := false) h
  unfold Machine.settled
  split
  · exact hk h
  · split <;> rename_i hr <;> rw [hr] at htrims
    · exact htrims
    · exact hk htrims

theorem heldDest {s : State} {i : Instr} (h : s.Canonical) : (s.heldDest i).Canonical := by
  unfold State.heldDest
  grind [! . setG, ! . modRegs]

theorem holdTrap {s : State} {t : Trap} {e : Bool} {i : Instr} (h : s.Canonical) : (s.holdTrap t e i).Canonical := retire (heldDest h)

theorem takeTrap {s : State} {t : Trap} {e : Bool} (h : s.Canonical) : (s.takeTrap t e).Canonical := by
  unfold State.takeTrap
  grind [! . deliver, ! . performLate, ! . resolveTests, ! . holdTrap, outcome, reached]

theorem trapAtHead {s : State} {t : Trap} (h : s.Canonical) : (s.trapAtHead t).Canonical := by
  unfold State.trapAtHead
  grind [! . deliver, ! . performLate, ! . decideTrims, outcome, reached]

theorem complete {e : Bool} {r : Res} (h : r.state.Canonical) : (complete e r).Canonical := by
  cases r with
  | ok s => exact retire h
  | jump s t => exact goto h
  | trap t s => exact takeTrap h
  | hold s => exact h
  | moved s => exact h

theorem member {e : Bool} {r : Res} (h : r.state.Canonical) : Continues (member e r) := by
  rintro _ ⟨⟩
  exact complete h

theorem event {s : State} (h : s.Canonical) : Continues (event s) := by rintro _ ⟨⟩; exact h

theorem ofStop {s : State} {p : Stop} (h : s.Canonical) : (p.res s).state.Canonical := by cases p <;> exact h

theorem privileged {s : State} {w : Code} {k : State → Res} (h : s.Canonical) (hk : ∀ {t : State}, t.Canonical → (k t).state.Canonical) :
    (privileged s w k).state.Canonical := by
  unfold Machine.privileged
  split
  · exact hk h
  · exact h

/-! ### Convoy -/

theorem codeAt {s : State} {p : Place} (h : s.Canonical) : (s.codeAt p).1.Canonical := by
  unfold State.codeAt
  grind []

theorem fetchWord {s : State} {a : Word} (h : s.Canonical) : (s.fetchWord a).1.Canonical := by
  unfold State.fetchWord
  grind [! . access, ! . codeAt]

theorem fetchConvoy {s : State} {n : Nat} {a : Word} (h : s.Canonical) : (s.fetchConvoy n a).1.Canonical := by
  induction n generalizing s a with
  | zero => exact h
  | succ n ih =>
    unfold State.fetchConvoy
    grind [! . fetchWord]

theorem formConvoy {s : State} (h : s.Canonical) : s.formConvoy.1.Canonical := by
  unfold State.formConvoy
  grind [! . fetchConvoy, ! . trapAtHead]

/-! ### Scalar -/

theorem loadBytes {s : State} {acquire : Bool} {p : Place} {n : Nat} (h : s.Canonical) : (s.loadBytes acquire p n).1.Canonical := by
  unfold State.loadBytes
  grind [! . acquired, ! . readList]

theorem scalarLoad {s : State} {ea : Word} {n : Nat} {acquire : Bool} (h : s.Canonical) : (s.scalarLoad ea n acquire).1.Canonical := by
  unfold State.scalarLoad
  grind [! . access, ! . eccAccess, ! . loadBytes]

theorem scalarStore {s : State} {ea : Word} {n v : Nat} (h : s.Canonical) : (s.scalarStore ea n v).1.Canonical := by
  unfold State.scalarStore
  grind [! . access, ! . eccAccess, ! . issueStore]

theorem loadTo {d : GReg} {w : BitVec 3} {ea : Word} {s : State} (h : s.Canonical) : (loadTo d w ea s).state.Canonical := by
  unfold Machine.loadTo
  split <;> rename_i hr
  · exact setG (ofPair (scalarLoad h) hr)
  · exact ofStop (ofPair (scalarLoad h) hr)

theorem storeFrom {d : GReg} {w : BitVec 3} {ea : Word} {s : State} (h : s.Canonical) : (storeFrom d w ea s).state.Canonical :=
  settled h fun h => by
    split <;> rename_i hr
    · exact ofPair (scalarStore h) hr
    · exact ofStop (ofPair (scalarStore h) hr)

/-! ### Atomics -/

theorem waitUntil {s : State} {limit : Nat} (h : s.Canonical) : (s.waitUntil limit).Canonical := by
  unfold State.waitUntil
  grind [! . modHart]

theorem endWatch {s : State} (h : s.Canonical) : s.endWatch.Canonical := h

/-! ### VecOps -/

theorem stopAt {s : State} {elix0 j : Nat} {some : Bool} {t : Trap} {w : Withheld} (h : s.Canonical) : (s.stopAt elix0 j some t w).state.Canonical := by
  unfold State.stopAt
  grind [! . performLate, ! . modHart, ! . resolveTests, ! . decideTrims, Res.state, outcome, reached]

theorem throughTo {s : State} {n : Nat} (h : s.Canonical) : (s.throughTo n).state.Canonical := by
  unfold State.throughTo
  grind [! . modHart, Res.state]

theorem through {s : State} (h : s.Canonical) : s.through.state.Canonical := throughTo h

theorem atIssue {s : State} {x y : Word} (h : s.Canonical) : (s.atIssue x y).1.Canonical := by
  unfold State.atIssue
  grind []

theorem elementwise {m : Bool} {f : Hart → Nat → Element} {s : State} (h : s.Canonical) : (elementwise m f s).state.Canonical := by
  unfold Machine.elementwise
  dsimp only
  split
  · exact through h
  · exact stopAt h

theorem toCompletion {m : Bool} {src : Hart → Nat → List (Nat × Nat × Nat)} {f : Hart → (Nat → Bool) → Hart} {s : State} (h : s.Canonical) :
    (toCompletion m src f s).state.Canonical := by
  unfold Machine.toCompletion
  dsimp only
  split
  · exact h
  · split
    · exact stopAt h
    · exact h

theorem illegalRegister {ok : Bool} {w : Code} {s : State} {k : State → Res} (h : s.Canonical)
    (hk : ∀ {t : State}, t.Canonical → (k t).state.Canonical) : (illegalRegister ok w s k).state.Canonical := by
  unfold Machine.illegalRegister
  split
  · exact hk h
  · exact h

/-! ### VecSweep -/

theorem baseOf {s : State} {va : Word} (h : s.Canonical) : (s.baseOf va).1.Canonical := by
  unfold State.baseOf
  grind [! . setAccessed]

theorem checkMx {s : State} {w : Sweep} {va : Word} {r : Except Stop Reached} (h : s.Canonical) : (s.checkMx w va r).1.Canonical := by
  unfold State.checkMx
  grind [! . access]

theorem elemValue {s : State} {w : Sweep} {loc : Nat} {high : Bool} {p : Place} {scale : Option Place} (h : s.Canonical) :
    (s.elemValue w loc high p scale).1.Canonical :=
  loadBits h

theorem loadElem {s : State} {w : Sweep} {i : Nat} {va : Word} {high : Bool} {p : Place} {scale : Option Place} (h : s.Canonical) :
    (s.loadElem w i va high p scale).1.Canonical := by
  unfold State.loadElem
  grind [! . eccAccess, ! . elemValue]

theorem reachElem {s : State} {w : Sweep} {va : Word} (h : s.Canonical) : (s.reachElem w va).1.Canonical := by
  unfold State.reachElem
  grind [! . access, ! . checkMx]

theorem checkElem {s : State} {w : Sweep} {i : Nat} {va : Word} {high : Bool} (h : s.Canonical) : (s.checkElem w i va high).1.Canonical := by
  unfold State.checkElem
  grind [! . reachElem, ! . loadElem]

theorem checkAll {s : State} {w : Sweep} {xs : List (Nat × Except Trap (Word × Bool))} (h : s.Canonical) : (s.checkAll w xs).1.Canonical := by
  induction xs generalizing s with
  | nil => exact h
  | cons x rest ih =>
    obtain ⟨i, t | a⟩ := x
    · exact ih h
    · exact ih (checkElem h)

theorem chooseUnordered {s : State} {fuel : Nat} {gs : List Got} (h : s.Canonical) : (s.chooseUnordered fuel gs).1.Canonical := by
  induction fuel generalizing s gs with
  | zero => exact h
  | succ fuel ih =>
    cases gs with
    | nil => exact h
    | cons g rest =>
      unfold State.chooseUnordered
      dsimp only
      split
      · exact ih h
      · exact ih (draw h)

theorem performLoad {s : State} {w : Sweep} {gs : List Got} (h : s.Canonical) : (s.performLoad w gs).Canonical := by
  unfold State.performLoad
  grind [! . modHart]

theorem awaitCaddy {s : State} {still : State → Bool} (h : s.Canonical) : (s.awaitCaddy still).state.Canonical := by
  have htests := resolveTests h
  unfold State.awaitCaddy
  split <;> rename_i hr <;> rw [hr] at htests
  · exact htests
  · split
    · exact settled htests id
    · exact htests

theorem storeIssue {s : State} {x : Held} {k : State → Res} (h : s.Canonical) (hk : ∀ {t : State}, t.Canonical → (k t).state.Canonical) :
    (s.storeIssue x k).state.Canonical := by
  unfold State.storeIssue
  split
  · exact hk (commitHeld h)
  · split
    · exact hk (modHart h)
    · exact awaitCaddy h

theorem faultMask {s : State} {w : Sweep} {elix0 at' : Nat} {tval : Word} {t : Trap} {js : List Nat} {pages : List Word} {rfm : Bool} (h : s.Canonical) :
    (s.faultMask w elix0 at' tval t js pages rfm).state.Canonical := by
  unfold State.faultMask
  grind [! . modHart, ! . writeRecord, ! . frameFault, Res.state, outcome, reached]

theorem finishSweep {s : State} {w : Sweep} {gs : List Got} {k : State → Res} (h : s.Canonical) (hk : ∀ {t : State}, t.Canonical → (k t).state.Canonical) :
    (s.finishSweep w gs k).state.Canonical := by
  have hchosen : (if w.minor = 6 then s.chooseUnordered gs.length gs else (s, gs)).1.Canonical := by
    split
    · exact chooseUnordered h
    · exact h
  unfold State.finishSweep
  split
  · exact storeIssue hchosen hk
  · dsimp only
    split
    · exact awaitCaddy h
    · exact hk (performLoad h)

theorem sweep {w : Sweep} {lost : Nat → List (Nat × Option Nat)} {trims : Bool} {s : State} (h : s.Canonical) : (sweep w lost trims s).state.Canonical := by
  have hlate : (if s.behindLate w then s.performLate else s).Canonical := by
    split
    · exact performLate h
    · exact h
  unfold Machine.sweep
  dsimp only
  revert hlate
  generalize (if s.behindLate w then s.performLate else s) = u
  intro hlate
  have hchecked := checkAll (w := w) (xs := w.elems) hlate
  split
  · exact hchecked
  · split
    · exact finishSweep hchecked throughTo
    · exact hchecked
    · split
      · exact finishSweep hchecked stopAt
      · split
        · refine finishSweep hchecked fun h => ?_
          split
          · exact faultMask h
          · exact h
        · split
          · split
            · exact finishSweep hchecked id
            · exact finishSweep hchecked faultMask
          · exact finishSweep hchecked id

/-! ### Matrix -/

theorem matrixStep {s : State} (h : s.Canonical) : s.matrixStep.Canonical := by
  unfold State.matrixStep
  grind [! . performMatrix, ! . modHart, ! . drainAll, ! . performLate]

theorem forkMatrix {s : State} {op : MatOp} (h : s.Canonical) : (s.forkMatrix op).Canonical := by
  unfold State.forkMatrix
  grind [! . modHart, ! . performMatrix, ! . drainAll, ! . performLate]

theorem holdMatrix {s : State} (h : s.Canonical) : (holdMatrix s).state.Canonical := matrixStep h

theorem shapedTile {k : Nat} {s : State} {go : Word → State → Res} (h : s.Canonical)
    (hgo : ∀ {w : Word} {t : State}, t.Canonical → (go w t).state.Canonical) : (shapedTile k s go).state.Canonical := by
  unfold Machine.shapedTile
  split
  · exact h
  · split
    · exact holdMatrix h
    · exact h
    · exact hgo h

theorem claimedTile {k : Nat} {s : State} {go : State → Res} (h : s.Canonical) (hgo : ∀ {t : State}, t.Canonical → (go t).state.Canonical) :
    (claimedTile k s go).state.Canonical := by
  unfold Machine.claimedTile
  split
  · exact hgo h
  · exact h

theorem badRegister {v : Word} {s : State} (h : s.Canonical) : (badRegister v s).state.Canonical := h

theorem setClaims {s : State} {req : Nat} (h : s.Canonical) : (s.setClaims req).Canonical := by
  unfold State.setClaims
  grind [! . modTeam]

theorem moveLimit {col : Bool} {w j : Word} {s : State} {go : State → Res} (h : s.Canonical) (hgo : ∀ {t : State}, t.Canonical → (go t).state.Canonical) :
    (moveLimit col w j s go).state.Canonical := by
  unfold Machine.moveLimit
  generalize (if col = true then shapeCols w else shapeRows w) = limit
  split
  · exact h
  · split
    · exact h
    · exact hgo h

theorem checkUnit {s : State} {write rows : Bool} {want : Want} {ps : Unit'} (h : s.Canonical) : (s.checkUnit write rows want ps).1.Canonical := by
  induction ps generalizing s with
  | nil => exact h
  | cons p rest ih =>
    unfold State.checkUnit
    grind [! . access]

theorem checkUnits {s : State} {write rows : Bool} {want : Want} {align : Nat} {us : List (Nat × Word × Unit')} (h : s.Canonical) :
    (s.checkUnits write rows want align us).1.Canonical := by
  induction us generalizing s with
  | nil => exact h
  | cons u rest ih =>
    unfold State.checkUnits
    grind [! . checkUnit]

theorem tileTransfer {kind : MatKind} {write rows : Bool} {align tfmt tile : Nat} {a b : Word} {units : List (Nat × Word × Unit')} {s : State}
    (h : s.Canonical) : (tileTransfer kind write rows align tfmt tile a b units s).state.Canonical := by
  unfold Machine.tileTransfer
  grind [! . baseOf, ! . checkUnits, ! . forkMatrix, ! . modHart, Res.state]

theorem requeueOp {s : State} {op : MatOp} (h : s.Canonical) : (s.requeueOp op).1.Canonical := by
  unfold State.requeueOp
  grind [! . baseOf, ! . checkUnits]

theorem requeue {s : State} (h : s.Canonical) : s.requeue.Canonical :=
  foldl (modHart h) fun h => modHart (requeueOp h)

theorem rowChecks {integer stream : Bool} {first : Option Trap} {c st : TReg} {y : Word} {s : State} {go : Word → State → Res} (h : s.Canonical)
    (hgo : ∀ {w : Word} {t : State}, t.Canonical → (go w t).state.Canonical) : (rowChecks integer stream first c st y s go).state.Canonical :=
  shapedTile h fun h => shapedTile h fun h => by
    split
    · exact h
    · split
      · exact h
      · split
        · exact h
        · split
          · exact h
          · split
            · exact h
            · exact hgo h

/-! ### VecMemory -/

theorem vectorAccess {store indexed : Bool} {minor : Nat} {off : Hart → Nat → Except Trap Int} {d : VReg} {base : Word} {m : Bool} {s : State}
    (h : s.Canonical) : (vectorAccess store indexed minor off d base m s).state.Canonical := by
  unfold Machine.vectorAccess
  dsimp only
  split
  · split
    · exact storeIssue h through
    · exact through h
  · exact sweep (baseOf h)

/-! ### Streamer -/

theorem checkMove {s : State} {src dst : Sweep} {m : Move} (h : s.Canonical) : (s.checkMove src dst m).1.Canonical := by
  unfold State.checkMove
  grind [! . reachElem]

theorem checkMoves {s : State} {src dst : Sweep} {ms : List Move} (h : s.Canonical) : (s.checkMoves src dst ms).1.Canonical := by
  induction ms generalizing s with
  | nil => exact h
  | cons m rest ih => exact ih (checkMove h)

theorem readMove {s : State} {c : Copy} {src dst : Sweep} {x : Checked} (h : s.Canonical) : (s.readMove c src dst x).1.Canonical := by
  unfold State.readMove
  grind [! . eccAccess, ! . elemValue]

theorem readMoves {s : State} {c : Copy} {src dst : Sweep} {xs : List Checked} (h : s.Canonical) : (s.readMoves c src dst xs).1.Canonical := by
  induction xs generalizing s with
  | nil => exact h
  | cons x rest ih => exact ih (readMove h)

theorem modCopy {s : State} {id : Nat} {f : Copy → Copy} (h : s.Canonical) : (s.modCopy id f).Canonical := h

theorem endCopy {s : State} {id status : Nat} (h : s.Canonical) : (s.endCopy id status).Canonical := h

theorem faultCopy {s : State} {c : Copy} {k e : Nat} {t : Trap} (h : s.Canonical) : (s.faultCopy c k e t).Canonical := by
  unfold State.faultCopy
  grind [! . access, ! . endCopy, ! . perform, ! . fileEvent]

theorem writeStrip {s : State} {dst : Sweep} {gs : List (Got × Bool)} (h : s.Canonical) : (s.writeStrip dst gs).Canonical := by
  refine foldl (mxStore (foldl h perform)) fun h => ?_
  split
  · exact poisonAt h
  · exact h

theorem runStrip {s : State} {c : Copy} (h : s.Canonical) : (s.runStrip c).Canonical := by
  unfold State.runStrip
  grind [! . drainAll, ! . performLate, ! . baseOf, ! . checkMoves, ! . faultCopy, ! . readMoves, ! . writeStrip, ! . modCopy]

theorem copyStrip {s : State} {id : Nat} (h : s.Canonical) : (s.copyStrip id).Canonical := by
  unfold State.copyStrip
  grind [! . endCopy, ! . runStrip]

theorem deliverToken {s : State} {token : Nat} {w : Word} (h : s.Canonical) : (s.deliverToken token w).Canonical := by
  unfold State.deliverToken
  grind [! . modHart]

theorem notePoison {s : State} {status : Nat} (h : s.Canonical) : (s.notePoison status).Canonical := by
  unfold State.notePoison
  grind []

theorem copyDeliver {s : State} {id : Nat} (h : s.Canonical) : (s.copyDeliver id).Canonical := by
  unfold State.copyDeliver
  grind [! . modCopy, ! . deliverToken, ! . notePoison]

theorem copyRun {s : State} {id fuel : Nat} (h : s.Canonical) : (s.copyRun id fuel).Canonical := by
  induction fuel generalizing s with
  | zero => exact copyDeliver h
  | succ fuel ih =>
    unfold State.copyRun
    split
    · exact h
    · split
      · exact copyDeliver h
      · dsimp only
        split
        · exact copyStrip h
        · split
          · exact copyStrip h
          · exact ih (copyStrip h)

theorem copyStep {s : State} (h : s.Canonical) : s.copyStep.Canonical := by
  unfold State.copyStep
  grind [! . copyDeliver, ! . copyStrip]

theorem pendToken {s : State} {token : Nat} (h : s.Canonical) : (s.pendToken token).Canonical := by
  unfold State.pendToken
  grind [! . modHart]

theorem startCopy {multi : Bool} {d a : GReg} {s : State} (h : s.Canonical) : (startCopy multi d a s).state.Canonical := by
  unfold Machine.startCopy
  grind [! . copyStep, ! . pendToken, ! . modHart, ! . copyRun, Res.state]

theorem onEngine {s : State} {id : Nat} {f : State → State} (h : s.Canonical) (hf : ∀ {t : State}, t.Canonical → (f t).Canonical) : (s.onEngine id f).Canonical := by
  unfold State.onEngine
  grind [! . onHart]

/-! ### Trace -/

theorem modRecorder {s : State} {crew : Nat} {f : Recorder → Recorder} (h : s.Canonical) : (s.modRecorder crew f).Canonical := h

theorem stopTrace {s : State} {crew reason : Nat} {except : Option Nat} (h : s.Canonical) : (s.stopTrace crew reason except).Canonical := by
  unfold State.stopTrace
  grind [! . modRecorder, ! . mapHarts]

theorem traceFull {s : State} {crew : Nat} (h : s.Canonical) : (s.traceFull crew).Canonical := by
  unfold State.traceFull
  grind [! . stopTrace]

theorem traceBreak {s : State} (h : s.Canonical) : s.traceBreak.Canonical := by
  unfold State.traceBreak
  grind [! . stopTrace, ! . traceFull]

theorem traceEntry {s : State} {a : Hart} {entry : Nat} {head : Word} (h : s.Canonical) : (s.traceEntry a entry head).Canonical := h

theorem traceIssue {s : State} {a : Hart} {what count : Nat} {head : Word} (h : s.Canonical) : (s.traceIssue a what count head).Canonical := h

theorem traceStall {s : State} {a : Hart} {reason count : Nat} {head : Word} (h : s.Canonical) : (s.traceStall a reason count head).Canonical := by
  unfold State.traceStall
  grind [! . traceEntry]

theorem traceTime {s : State} {since : Nat} (h : s.Canonical) : (s.traceTime since).Canonical :=
  foldl (s := { s with recorders := _ }) h traceFull

/-! ### Cluster -/

theorem deliverPhase {s : State} {crew t : Nat} (h : s.Canonical) : (s.deliverPhase crew t).Canonical := by
  unfold State.deliverPhase
  grind [! . modCrew]

theorem arrive {s : State} {t : Nat} (h : s.Canonical) : (s.arrive t).Canonical := by
  unfold State.arrive
  grind [! . modCrew, ! . settlePhase, ! . modHart]

theorem waitAtBarrier {s : State} (h : s.Canonical) : (waitAtBarrier s).state.Canonical := by
  unfold Machine.waitAtBarrier
  split <;> exact h

theorem awaitPhase {scope t : Nat} {s : State} (h : s.Canonical) : (awaitPhase scope t s).state.Canonical := by
  have hsynced : (if scope = 0 then s else s.synced).Canonical := by
    split
    · exact h
    · exact synced h
  unfold Machine.awaitPhase
  split
  · exact waitAtBarrier h
  · exact hsynced

theorem sramWord {s : State} {p : Place} (h : s.Canonical) : (s.sramWord p).Canonical := by
  unfold State.sramWord
  grind [! . poisonAt]

theorem sramErrors {s : State} {bytes : Nat} {ps : List Place} (h : s.Canonical) : (s.sramErrors bytes ps).Canonical := by
  induction ps generalizing s bytes with
  | nil => exact h
  | cons p ps ih =>
    unfold State.sramErrors
    split
    · exact h
    · exact ih (foldl h sramWord)

theorem traceDump {s : State} {crew : Nat} (h : s.Canonical) : (s.traceDump crew).Canonical := by
  unfold State.traceDump
  split
  · split
    · exact h
    · refine onHart h @fun t ht => deliverToken (sramErrors (foldl (setDirty ?_) perform))
      exact drawMany (drainAll (performLate ht))
  · exact h

theorem dropSample {s : State} (h : s.Canonical) : s.dropSample.Canonical := by
  unfold State.dropSample
  grind [! . deliverToken, ! . modHart]

theorem writeSample {s : State} (h : s.Canonical) : s.writeSample.Canonical := by
  unfold State.writeSample
  grind [! . dropSample, ! . drawMany, ! . perform, ! . deliverToken, ! . modHart]

theorem endSample {s : State} (h : s.Canonical) : s.endSample.Canonical := by
  unfold State.endSample
  grind [! . writeSample, ! . modHart, ! . dropSample]

/-! ### Placement -/

theorem leaveFinished {s : State} (h : s.Canonical) : s.leaveFinished.Canonical := by
  unfold State.leaveFinished
  grind [! . focus]

theorem reap {s : State} (h : s.Canonical) : s.reap.Canonical := leaveFinished h

theorem finishStop {s : State} (h : s.Canonical) : s.finishStop.Canonical := by
  unfold State.finishStop
  grind [! . drainAll, ! . performLate, ! . matrixStep, ! . setFrameState, ! . frameFault, ! . endSample, ! . modHart, ! . countStop, ! . modTeam, ! . fileEvent, ! . mapHarts, ! . reap, ! . settlePhases, outcome, reached]

theorem vacate {s : State} {u : CoreUnit} (h : s.Canonical) : (s.vacate u).Canonical := h

/-! ### Contexts -/

theorem namedCtx {w : Word} {ok : State → Ctx → Bool} {s : State} {go : Ctx → State → Res} (h : s.Canonical)
    (hgo : ∀ {c : Ctx} {t : State}, t.Canonical → (go c t).state.Canonical) : (namedCtx w ok s go).state.Canonical := by
  unfold Machine.namedCtx
  split
  · exact h
  · split
    · exact h
    · split
      · exact h
      · exact hgo h

theorem loadWords {s : State} {a : Word} {n : Nat} (h : s.Canonical) : (s.loadWords a n).1.Canonical := by
  induction n generalizing s a with
  | zero => exact h
  | succ n ih =>
    unfold State.loadWords
    split <;> rename_i hr
    · exact ofPair (scalarLoad h) hr
    · split <;> rename_i hs <;> exact ofPair (ih (ofPair (scalarLoad h) hr)) hs

theorem forgetCtx {s : State} {n : Nat} (h : s.Canonical) : (s.forgetCtx n).Canonical := h

theorem createChild {d : GReg} {issuer : Ctx} {w fmt : List Nat} {overlay : List Overlay} {s : State} (h : s.Canonical) :
    (createChild d issuer w fmt overlay s).state.Canonical := by
  unfold Machine.createChild
  grind [! . draw, ! . forgetCtx, ! . setG, Res.state]

theorem newContext {d : GReg} {a : Word} {s : State} (h : s.Canonical) : (newContext d a s).state.Canonical := by
  have hfmt (t : State) (ht : t.Canonical) (host : Bool) (b : Word) : (if host then t.loadWords b 4 else (t, .ok [])).1.Canonical := by
    split
    · exact loadWords ht
    · exact ht
  unfold Machine.newContext
  split
  · exact h
  · split
    · exact h
    · split <;> rename_i hw
      · exact ofStop (ofPair (loadWords h) hw)
      · have hwords := ofPair (loadWords h) hw
        split
        · exact hwords
        · dsimp only
          split <;> rename_i hf
          · exact ofStop (ofPair (hfmt _ hwords _ _) hf)
          · have hformat := ofPair (hfmt _ hwords _ _) hf
            split
            · exact hformat
            · split <;> rename_i hr
              · exact ofStop (ofPair (loadWords hformat) hr)
              · have hrules := ofPair (loadWords hformat) hr
                split
                · exact hrules
                · split
                  · exact hrules
                  · exact createChild hrules

theorem moveUnit {s : State} {from' to' : Nat} {u : CoreUnit} (h : s.Canonical) : (s.moveUnit from' to' u).Canonical := h

theorem grant {issuer child : Ctx} {w : Word} {kind x : Nat} {s : State} (h : s.Canonical) : (grant issuer child w kind x s).state.Canonical := by
  have hvacated (us : List CoreUnit) : (us.foldl State.vacate s).Canonical := foldl h vacate
  unfold Machine.grant
  grind [! . moveUnit, ! . modCtx, ! . modHart, Res.state]

theorem reclaim {issuer child : Ctx} {kind x : Nat} {s : State} (h : s.Canonical) : (reclaim issuer child kind x s).state.Canonical := by
  unfold Machine.reclaim
  grind [! . moveUnit, ! . modCtx, Res.state]

theorem writeDone {s : State} {ctx done op status count : Nat} (h : s.Canonical) : (s.writeDone ctx done op status count).Canonical := by
  unfold State.writeDone
  split
  · exact h
  · exact ofOutcome (ctxPut h)

theorem tryWord {s : State} {ctx va : Nat} (h : s.Canonical) : (s.tryWord ctx va).1.Canonical := by
  unfold State.tryWord
  grind [! . ctxWord, outcome, reached]

theorem abortSlots {s : State} {q : Queue} {ring size head n : Nat} (h : s.Canonical) : (s.abortSlots q ring size head n).Canonical := by
  induction n generalizing s head with
  | zero => exact h
  | succ n ih => exact ih (writeDone (tryWord (tryWord h)))

theorem queueWords {s : State} {q : Queue} (h : s.Canonical) : (reached Prod.fst (s.queueWords q)).Canonical :=
  reached_bind (ctxWord h) fun _ h => reached_bind (ctxWord h) fun _ h => reached_bind (ctxWord h) fun _ h => reached_bind (ctxWord h) fun _ => id

theorem abortLaunches {s : State} {gone : List Nat} (h : s.Canonical) : (s.abortLaunches gone).Canonical := by
  unfold State.abortLaunches
  extract_lets t u
  refine (foldl (foldl h writeDone) @fun s q h => ?_ : u.Canonical)
  have hwords := queueWords (q := q) h
  split <;> rename_i hr <;> rw [hr] at hwords
  · exact abortSlots hwords
  · exact hwords

theorem dropHarts {s : State} {issuer : Nat} {gone : List Nat} (h : s.Canonical) : (s.dropHarts issuer gone).Canonical := by
  unfold State.dropHarts
  extract_lets lost t ids kept slots u v w
  refine (foldl h @fun s k h => ?_ : t.Canonical)
  split
  · exact h
  · exact ofOutcome (setFrameState h)

theorem giveBack {s : State} {target : Ctx} {to' : Nat} (h : s.Canonical) : (s.giveBack target to').Canonical :=
  modCtx (foldl h modCtx)

theorem revoke {s : State} {issuer : Nat} {target : Ctx} (h : s.Canonical) : (s.revoke issuer target).Canonical := by
  unfold State.revoke
  grind [! . dropHarts, ! . abortLaunches, ! . giveBack]

theorem revokedAt {s : State} {root va : Nat} (h : s.Canonical) : (s.revokedAt root va).1.Canonical := by
  unfold State.revokedAt
  grind [! . ctxWord, outcome, reached]

theorem release {s : State} {id : Nat} (h : s.Canonical) : (s.release id).Canonical := by
  unfold State.release
  grind [! . mapHarts, ! . focus, ! . reap]

theorem runFrame {s : State} {id : Nat} (h : s.Canonical) : (s.runFrame id).state.Canonical := by
  unfold State.runFrame
  grind [! . release, ! . setFrameState, ! . onHart, ! . frameFault, Res.state, outcome, reached]

theorem raiseRevoked {s : State} {issuer : Nat} (h : s.Canonical) : (s.raiseRevoked issuer).Canonical := by
  unfold State.raiseRevoked
  grind [! . crownHalt, ! . startFrame]

/-! ### Control -/

theorem take {s : State} {t : Word} (h : s.Canonical) : (take s t).state.Canonical := h

theorem link {s : State} (h : s.Canonical) : s.link.Canonical := h

theorem callAt {s : State} {k : State → Res} (h : s.Canonical) (hk : ∀ {t : State}, t.Canonical → (k t).state.Canonical) : (callAt s k).state.Canonical := by
  unfold Machine.callAt
  split
  · exact h
  · exact hk h

theorem leaveWith {s : State} {r : Run} (h : s.Canonical) : (s.leaveWith r).Canonical := h

theorem jumpReg {s : State} {t : Word} {go : State → Res} (h : s.Canonical) (hgo : ∀ {t : State}, t.Canonical → (go t).state.Canonical) :
    (jumpReg s t go).state.Canonical := by
  unfold Machine.jumpReg
  split
  · exact settled h leaveWith
  · exact hgo h

theorem openLoop {s : State} {l : Level} {count : Word} {off : Nat} (h : s.Canonical) : (openLoop s l count off).state.Canonical := by
  unfold Machine.openLoop
  dsimp only
  split
  · exact h
  · split
    · exact h
    · split <;> exact h

/-! ### Fabric -/

theorem modColl {s : State} {id : Nat} {f : Coll → Coll} (h : s.Canonical) : (s.modColl id f).Canonical := h

theorem endColl {s : State} {id status : Nat} (h : s.Canonical) : (s.endColl id status).Canonical := h

theorem faultColl {s : State} {c : Coll} {chunk e : Nat} {t : Trap} (h : s.Canonical) : (s.faultColl c chunk e t).Canonical := by
  unfold State.faultColl
  grind [! . access, ! . endColl, ! . perform, ! . fileEvent]

theorem reachAll {s : State} {w : Sweep} {a : Word} {is : List Nat} (h : s.Canonical) : (s.reachAll w a is).1.Canonical := by
  induction is generalizing s with
  | nil => exact h
  | cons i rest ih =>
    unfold State.reachAll
    grind [! . reachElem]

theorem bufferBase {s : State} {c : Coll} {va : Word} (h : s.Canonical) : (s.bufferBase c va).1.Canonical := by
  unfold State.bufferBase
  grind [! . baseOf]

theorem writeElems {s : State} {c : Coll} {at' : Word} {xs : List (Nat × Nat × Bool)} (h : s.Canonical) : (s.writeElems c at' xs).1.Canonical := by
  unfold State.writeElems
  grind [! . bufferBase, ! . reachAll, ! . writeStrip]

theorem readElem {s : State} {c : Coll} {w : Sweep} {bits : Nat} {r : Nat × (Word × Bool) × Reached × Option Place} (h : s.Canonical) :
    (s.readElem c w bits r).1.Canonical :=
  elemValue (eccAccess h)

theorem readEach {s : State} {c : Coll} {w : Sweep} {bits : Nat} {rs : List (Nat × (Word × Bool) × (Reached × Option Place))} (h : s.Canonical) :
    (s.readEach c w bits rs).1.Canonical := by
  induction rs generalizing s with
  | nil => exact h
  | cons r rest ih => exact ih (readElem h)

theorem readElems {s : State} {c : Coll} {base : Base} {bits : Nat} {is : List Nat} (h : s.Canonical) : (s.readElems c base bits is).1.Canonical := by
  unfold State.readElems
  grind [! . reachAll, ! . readEach]

theorem mirrorResults {s : State} {c : Coll} {bits : Nat} {is : List Nat} {a : Answer} (h : s.Canonical) : (s.mirrorResults c bits is a).Canonical := by
  refine foldl h fun h => ?_
  dsimp only
  split
  · exact poisonAt (perform h)
  · exact perform h

theorem collChunk {s : State} {c : Coll} {peers : List PeerChunk} (h : s.Canonical) : (s.collChunk c peers).Canonical := by
  unfold State.collChunk
  grind [! . endColl, ! . drainAll, ! . performLate, ! . bufferBase, ! . readElems, ! . faultColl, ! . drawMany, ! . writeElems, ! . modColl]

theorem commitColl {s : State} {n fuel : Nat} (h : s.Canonical) : (s.commitColl n fuel).Canonical := by
  induction fuel generalizing s with
  | zero => exact h
  | succ fuel ih =>
    unfold State.commitColl
    split
    · exact h
    · split
      · exact h
      · dsimp only
        split
        · exact endColl h
        · split <;> rename_i hr
          · exact ofPair (writeElems h) hr
          · exact faultColl (ofPair (writeElems h) hr)
          · exact ih (modColl (foldl (bufferBase (ofPair (writeElems h) hr)) mirrorResults))

theorem completeColl {s : State} {c : Coll} (h : s.Canonical) : (s.completeColl c).Canonical := by
  unfold State.completeColl
  grind [! . commitColl, ! . modColl, ! . deliverToken, ! . notePoison]

theorem onColl {s : State} {k coll : Nat} {f : State → Coll → State} (h : s.Canonical) (hf : ∀ {t : State} {c : Coll}, t.Canonical → (f t c).Canonical) :
    (s.onColl k coll f).Canonical := by
  refine onEngine h @fun t ht => ?_
  split
  · exact hf ht
  · exact ht

theorem onFlit {s : State} {k coll : Nat} {f : State → Coll → State} (h : s.Canonical) (hf : ∀ {t : State} {c : Coll}, t.Canonical → (f t c).Canonical) :
    (s.onFlit k coll f).Canonical := by
  unfold State.onFlit
  split
  · refine onHart h @fun t ht => ?_
    split
    · exact hf ht
    · exact ht
  · exact h

theorem startColl {kind : CollKind} {d : GReg} {a : Word} {s : State} (h : s.Canonical) : (startColl kind d a s).state.Canonical := by
  unfold Machine.startColl
  split
  · exact h
  · split
    · exact h
    · split <;> rename_i hw
      · exact ofStop (ofPair (loadWords h) hw)
      · have hwords := ofPair (loadWords h) hw
        dsimp only
        split
        · exact hwords
        · split <;> rename_i hh
          · exact ofStop (ofPair (loadWords hwords) hh)
          · have hheader := ofPair (loadWords hwords) hh
            split
            · exact hheader
            · split <;> rename_i he
              · exact ofStop (ofPair (loadWords hheader) he)
              · have hentries := ofPair (loadWords hheader) he
                split
                · exact hentries
                · exact pendToken (modPkg (draw hentries))

theorem modLink {s : State} {port : Nat} {f : LinkPort → LinkPort} (h : s.Canonical) : (s.modLink port f).Canonical := h

theorem loseDevice {s : State} {device : Nat} (h : s.Canonical) : (s.loseDevice device).Canonical := by
  unfold State.loseDevice
  grind [! . mapHarts, ! . modPkg]

theorem loseUnlinked {s : State} (h : s.Canonical) : s.loseUnlinked.Canonical := foldl h fun h => by
  split
  · exact loseDevice h
  · exact h

/-! ### Publication -/

theorem checkedRef {r : Word} {s : State} {go : Option Obj → State → Res} (h : s.Canonical)
    (hgo : ∀ {o : Option Obj} {t : State}, t.Canonical → (go o t).state.Canonical) : (checkedRef r s go).state.Canonical := by
  unfold Machine.checkedRef
  split
  · split
    · exact hgo h
    · exact h
  · split
    · exact h
    · exact hgo h

theorem wordTarget {va : Word} {s : State} {go : Reached → State → Res} (h : s.Canonical)
    (hgo : ∀ {r : Reached} {t : State}, t.Canonical → (go r t).state.Canonical) : (wordTarget va s go).state.Canonical := by
  unfold Machine.wordTarget
  split
  · exact h
  · split <;> rename_i hr
    · exact ofStop (ofPair (access h) hr)
    · exact hgo (ofPair (access h) hr)

theorem putReference {s : State} {r : Reached} {v : Word} (h : s.Canonical) : (s.putReference r v).Canonical := perform (drain h)

theorem afterWalks {s : State} {go : State → Res} (h : s.Canonical) (hgo : ∀ {t : State}, t.Canonical → (go t).state.Canonical) :
    (afterWalks s go).state.Canonical := by
  unfold Machine.afterWalks
  split
  · exact h
  · exact hgo h

theorem tagStore {v va : Word} {s : State} {go : State → Res} (h : s.Canonical) (hgo : ∀ {t : State}, t.Canonical → (go t).state.Canonical) :
    (tagStore v va s go).state.Canonical :=
  checkedRef h fun h => wordTarget h fun h => afterWalks h fun h => by
    split
    · split
      · exact hgo (putReference h)
      · exact h
    · exact hgo (putReference h)

theorem claimLines {s : State} {home : Nat} {claimed : List Nat} {vas : List Word} (h : s.Canonical) : (s.claimLines home claimed vas).1.Canonical := by
  induction vas generalizing s claimed with
  | nil => exact h
  | cons va rest ih =>
    unfold State.claimLines
    grind [! . access]

theorem clearLines {s : State} {lines : List Nat} (h : s.Canonical) : (s.clearLines lines).Canonical := drain h

theorem enterObject {s : State} {o : Obj} {dirty : List (Nat × Nat)} (h : s.Canonical) : (s.enterObject o dirty).Canonical := perform (clearLines h)

theorem recordWord {s : State} {va : Word} (h : s.Canonical) : (s.recordWord va).1.Canonical := by
  unfold State.recordWord
  grind [! . access, ! . eccAccess, ! . draw, ! . readList]

theorem createObject {d : GReg} {a : Word} {before : Option Obj} {home index rowbytes rows pitch : Nat} {s : State} (h : s.Canonical) :
    (createObject d a before home index rowbytes rows pitch s).state.Canonical := by
  unfold Machine.createObject
  grind [! . claimLines, ! . clearLines, ! . enterObject, ! . modHart, ! . setG, Res.state]

theorem newObject {d : GReg} {a b : Word} {s : State} (h : s.Canonical) : (newObject d a b s).state.Canonical := by
  unfold Machine.newObject
  split
  · exact h
  · split
    · exact h
    · split <;> rename_i h0
      · exact ofStop (ofPair (recordWord h) h0)
      · have hfirst := ofPair (recordWord h) h0
        split <;> rename_i h1
        · exact ofStop (ofPair (recordWord hfirst) h1)
        · have hboth := ofPair (recordWord hfirst) h1
          dsimp only
          split
          · exact hboth
          · split
            · exact afterWalks hboth createObject
            · split
              · exact hboth
              · split
                · exact setG hboth
                · exact afterWalks hboth fun h => createObject (draw h)

theorem publishSet {s : State} {want : ScopeOf} {set : List Obj} (h : s.Canonical) : (s.publishSet want set).Canonical := h

theorem walkStep {s : State} {want : ScopeOf} {root : Obj} {n : Nat} (h : s.Canonical) : (s.walkStep want root n).1.Canonical := by
  unfold State.walkStep
  grind [! . draw, ! . publishSet]

theorem joinWalks {s : State} {v : Word} {c : Nat} (h : s.Canonical) : (s.joinWalks v c).1.Canonical := by
  unfold State.joinWalks
  grind [! . modHart]

theorem publish {v : Word} {c : Nat} {o : Option Obj} {s : State} {go : Nat → State → Res} (h : s.Canonical)
    (hgo : ∀ {n : Nat} {t : State}, t.Canonical → (go n t).state.Canonical) : (publish v c o s go).state.Canonical := by
  have hdrained := drainAll (joinWalks (v := v) (c := c) h)
  unfold Machine.publish
  dsimp only
  split
  · exact joinWalks h
  · split
    · exact hgo (modHart hdrained)
    · split <;> rename_i hr <;> have hstep := ofPair (walkStep hdrained) hr
      · exact hgo (modHart hstep)
      · exact hstep
      · exact hstep

/-! ### Region -/

theorem closeRegion {s : State} (h : s.Canonical) : s.closeRegion.Canonical := h

theorem exitFound {s : State} {c : Nat} (h : s.Canonical) : (s.exitFound c).Canonical := h

theorem testIssued {s : State} (h : s.Canonical) : s.testIssued.Canonical := h

theorem stripEnd {s : State} {k : State → Res} (h : s.Canonical) (hk : ∀ {t : State}, t.Canonical → (k t).state.Canonical) : (stripEnd s k).state.Canonical := by
  have htrims := decideTrims (ends := true) h
  unfold Machine.stripEnd
  split
  · exact hk (modRegion h)
  · split <;> rename_i hr <;> rw [hr] at htrims
    · exact htrims
    · exact hk htrims

theorem nextStrip {s : State} (h : s.Canonical) : s.nextStrip.Canonical := h

theorem endStrip {s exit : State} (h : s.Canonical) : (s.endStrip exit).Canonical := h

/-! ### Sequences -/

theorem tableLoad {s : State} {sel : Pending → Bool} {va : Word} (h : s.Canonical) : (s.tableLoad sel va).1.Canonical := by
  unfold State.tableLoad
  grind [! . access, ! . eccAccess, ! . readList]

theorem tableTarget {s : State} {va : Word} (h : s.Canonical) : (s.tableTarget va).1.Canonical := access h

theorem tableStore {s : State} {r : Reached} {v : Nat} (h : s.Canonical) : (s.tableStore r v).Canonical := issueStore (eccAccess h)

theorem tableWords {s : State} {sel : Pending → Bool} {vas : List Word} (h : s.Canonical) : (s.tableWords sel vas).1.Canonical := by
  induction vas generalizing s with
  | nil => exact h
  | cons va rest ih =>
    unfold State.tableWords
    grind [! . tableLoad]

theorem describe {s : State} {sel : Pending → Bool} {x : Word} {info : Nat} (h : s.Canonical) : (s.describe sel x info).1.Canonical := by
  unfold State.describe
  grind [! . tableWords]

theorem descriptor {s : State} {sel : Pending → Bool} {x : Word} (h : s.Canonical) : (s.descriptor sel x).1.Canonical := by
  unfold State.descriptor
  grind [! . tableLoad, ! . describe]

theorem seqWalk {s : State} {sel : Pending → Bool} {t x : Word} {p left : Nat} {d : SeqTable} (h : s.Canonical) :
    (s.seqWalk sel t p left x d).1.Canonical := by
  induction left generalizing s x d with
  | zero =>
    unfold State.seqWalk
    grind [! . tableLoad]
  | succ left ih =>
    unfold State.seqWalk
    grind [! . tableLoad, ! . descriptor]

theorem seqLookup {s : State} {sel : Pending → Bool} {t : Word} {p : Nat} (h : s.Canonical) : (s.seqLookup sel t p).1.Canonical := by
  unfold State.seqLookup
  grind [! . tableLoad, ! . describe, ! . seqWalk]

theorem seqRow {s : State} {sel : Pending → Bool} {t packed : Word} {i : Nat} (h : s.Canonical) : (s.seqRow sel t packed i).1.Canonical := by
  unfold State.seqRow
  grind [! . seqLookup]

theorem seqElement {s : State} {sel : Pending → Bool} {t packed : Word} {vt : BitVec 7} {i : Nat} (h : s.Canonical) :
    (s.seqElement sel t packed vt i).1.Canonical := by
  unfold State.seqElement
  grind [! . seqRow, ! . baseOf]

theorem seqBase {s : State} {sel : Pending → Bool} {t packed : Word} {is : List Nat} (h : s.Canonical) : (s.seqBase sel t packed is).1.Canonical := by
  induction is generalizing s with
  | nil => exact h
  | cons i rest ih =>
    unfold State.seqBase
    grind [! . seqRow, ! . baseOf]

theorem seqElements {s : State} {sel : Pending → Bool} {t packed : Word} {vt : BitVec 7} {is : List Nat} (h : s.Canonical) :
    (s.seqElements sel t packed vt is).1.Canonical := by
  induction is generalizing s with
  | nil => exact h
  | cons i is ih =>
    unfold State.seqElements
    dsimp only
    split <;> exact ih (seqElement h)

theorem seqRead {d : Nat} {vt : BitVec 7} {vl : Nat} {t packed seed : Word} {prior : Bool} {base : Base} {act : List Nat} {s : State} (h : s.Canonical) :
    (seqRead d vt vl t packed seed prior base act s).state.Canonical := by
  unfold Machine.seqRead
  dsimp only
  split
  · exact seqElements h
  · exact sweep (seqElements h)

theorem gatherRun {s : State} {g : GatherDesc} {base : Base} {is : List Nat} (h : s.Canonical) : (s.gatherRun g base is).1.Canonical := by
  induction is generalizing s with
  | nil => exact h
  | cons i is ih =>
    unfold State.gatherRun
    grind [! . seqElement, ! . checkElem]

theorem performGather {s : State} {k : Nat} (h : s.Canonical) : (s.performGather k).Canonical := by
  unfold State.performGather
  grind [! . drainAll, ! . seqBase, ! . gatherRun, ! . modHart]

theorem performGathers {s : State} (h : s.Canonical) : s.performGathers.Canonical := foldl h performGather

theorem resWhenDone {f : State → State} {a : Res} (hf : ∀ {t : State}, t.Canonical → (f t).Canonical) (ha : a.state.Canonical) :
    (Res.whenDone f a).state.Canonical := by
  unfold Res.whenDone
  grind [Res.state]

theorem notePop {s : State} (h : s.Canonical) : s.notePop.Canonical := h

theorem resNotePop {a : Res} (ha : a.state.Canonical) : (Res.notePop a).state.Canonical := by
  unfold Res.notePop
  grind [! . notePop, Res.state]

theorem clearEntries {s : State} {child : Word} {left k : Nat} (h : s.Canonical) : (s.clearEntries child left k).1.Canonical := by
  induction left generalizing s k with
  | zero => exact h
  | succ left ih =>
    unfold State.clearEntries
    split <;> rename_i hr
    · exact ofPair (tableTarget h) hr
    · exact ih (tableStore (ofPair (tableTarget h) hr))

theorem tableStores {s : State} {xs : List (Word × Nat)} (h : s.Canonical) : (s.tableStores xs).1.Canonical := by
  induction xs generalizing s with
  | nil => exact h
  | cons x rest ih =>
    unfold State.tableStores
    split <;> rename_i hr
    · exact ofPair (tableTarget h) hr
    · exact ih (tableStore (ofPair (tableTarget h) hr))

theorem seqStop {k : Nat} {p : Stop} {s : State} (h : s.Canonical) : (seqStop k p s).state.Canonical := by cases p <;> exact h

theorem forkWords {d : GReg} {child parent : Word} {t : SeqTable} {cap : Nat} {s : State} (h : s.Canonical) :
    (forkWords d child parent t cap s).state.Canonical := by
  have htag (u : State) (hu : u.Canonical) := tagStore (v := parent) (va := child + 0x10) (go := .ok) hu id
  unfold Machine.forkWords
  grind [! . tableStores, ! . tableTarget, ! . seqStop, ! . setG, Res.state]

/-! ### System -/

theorem markResident {s : State} {access : FrameAccess} (h : s.Canonical) : (reached id (s.markResident access)).Canonical := by
  unfold State.markResident
  grind [! . setFrameState, ! . frameFault, outcome, reached]

theorem resumeStopped {s : State} {k : Hart} (h : s.Canonical) : (s.resumeStopped k).Canonical := by
  have hloaded (t : State) (ht : t.Canonical) : (reached Prod.fst ((t.loadFrame t.hart).bind fun r =>
      ((r.1.restoreTiles r.2.1).bind fun s => s.loadPad r.2.1).map fun s => (s, r.2))).Canonical :=
    reached_bind (loadFrame ht) fun _ h => reached_map (reached_bind (restoreTiles h) fun _ => loadPad) fun _ => id
  have hback := hloaded _ (focus (id := k.id) h)
  unfold State.resumeStopped
  dsimp only
  split <;> rename_i hr <;> rw [hr] at hback
  · exact frameFault hback
  · have hres (hart : Hart) := markResident (s := { (_ : State) with hart := hart }) (access := .resume) hback
    split
    · split <;> rename_i hm
      · exact (congrArg (reached id) hm ▸ hres _ :)
      · exact performGathers (requeue (congrArg (reached id) hm ▸ hres _ :))
    · split <;> rename_i hm
      · exact (congrArg (reached id) hm ▸ hres _ :)
      · exact trapPath (performGathers (requeue (congrArg (reached id) hm ▸ hres _ :)))

theorem endHandler {s : State} {a : Hart} (h : s.Canonical) : (s.endHandler a).Canonical := reap h

theorem restorePad {s : State} {k : Hart} (h : s.Canonical) : (reached id (s.restorePad k)).Canonical := by
  unfold State.restorePad
  split
  · exact h
  · exact reached_map (frameRead h) fun _ => draw

theorem retryPad {s : State} (h : s.Canonical) : s.retryPad.Canonical := by
  unfold State.retryPad
  grind [! . restorePad, ! . modHart, ! . frameFault, outcome, reached]

theorem retryFrame {s : State} (h : s.Canonical) : s.retryFrame.Canonical := by
  unfold State.retryFrame
  grind [! . retryPad, ! . modHart]

theorem returnServed {s : State} {served : Nat} (h : s.Canonical) : (s.returnServed served).Canonical := by
  unfold State.returnServed
  grind [! . setFrameState, ! . leaveWith, ! . frameFault, ! . endHandler, ! . retryFrame, ! . focus, ! . resumeStopped, outcome, reached]

theorem writeSpecial {s : State} {n : BitVec 11} {v : Word} (h : s.Canonical) : (s.writeSpecial n v).Canonical := by
  unfold State.writeSpecial
  grind [! . modRegs, ! . modHart, ! . modTeam]

/-! ### Launch -/

theorem storeTargets {s : State} {vas : List Word} (h : s.Canonical) : (s.storeTargets vas).1.Canonical := by
  induction vas generalizing s with
  | nil => exact h
  | cons a rest ih =>
    unfold State.storeTargets
    split
    · exact h
    · split <;> rename_i hr
      · exact ofPair (access h) hr
      · split <;> rename_i hs <;> exact ofPair (ih (ofPair (access h) hr)) hs

theorem storeWords {s : State} {xs : List (Reached × Nat)} (h : s.Canonical) : (s.storeWords xs).Canonical := foldl h perform

theorem registerQueue {d : GReg} {q : Word} {s : State} (h : s.Canonical) : (registerQueue d q s).state.Canonical := by
  unfold Machine.registerQueue
  grind [! . loadWords, ! . ofStop, ! . draw, ! . setG, Res.state]

theorem unregisterQueue {d : GReg} {q : Word} {s : State} (h : s.Canonical) : (unregisterQueue d q s).state.Canonical := by
  unfold Machine.unregisterQueue
  grind [! . loadWords, ! . ofStop, ! . setG, Res.state]

theorem enqueueRecord {d : GReg} {q rec' : Word} {s : State} (h : s.Canonical) : (enqueueRecord d q rec' s).state.Canonical := by
  unfold Machine.enqueueRecord
  split
  · exact h
  · split
    · exact h
    · split <;> rename_i hw
      · exact ofStop (ofPair (loadWords h) hw)
      · have hrecord := ofPair (loadWords h) hw
        split
        · exact hrecord
        · split <;> rename_i hx
          · exact ofStop (ofPair (loadWords hrecord) hx)
          · have hqueue := ofPair (loadWords hrecord) hx
            dsimp only
            split
            · exact setG hqueue
            · split <;> rename_i hr
              · exact ofStop (ofPair (storeTargets hqueue) hr)
              · exact setG (storeWords (drainAll (ofPair (storeTargets hqueue) hr)))

theorem modLaunch {s : State} {id : Nat} {f : Launch → Launch} (h : s.Canonical) : (s.modLaunch id f).Canonical := h

theorem tallyAll {s : State} (h : s.Canonical) : s.tallyAll.Canonical := h

theorem startHart {s : State} {l : Launch} {k : Candidate} {crew slot : Nat} {u : CoreUnit} {hidx : Nat} (h : s.Canonical) :
    (s.startHart l k crew slot u hidx).Canonical := by
  unfold State.startHart
  grind [! . onHart, ! . startFrame]

theorem startTeam {s : State} {l : Launch} {k : Candidate} {crew : Nat} {x : Nat × CoreUnit} (h : s.Canonical) : (s.startTeam l k crew x).Canonical :=
  foldl h startHart

theorem bindNew {s : State} {l : Launch} {k : Candidate} {f : Fit} (h : s.Canonical) : (s.bindNew l k f).Canonical :=
  foldl h startTeam

theorem readBack {s : State} (h : s.Canonical) : (reached Prod.fst s.readBack).Canonical :=
  reached_bind (loadFrame h) fun _ h => reached_bind (restoreTiles h) fun _ h => reached_bind (loadBarriers h) fun _ h =>
    reached_bind (restorePad h) fun _ => id

theorem restoreHart {s : State} (h : s.Canonical) : s.restoreHart.Canonical := by
  unfold State.restoreHart
  grind [! . readBack, ! . frameFault, ! . markResident, ! . performGathers, ! . requeue, outcome, reached]

theorem padBack {s : State} {a : Hart} (h : s.Canonical) : (s.padBack a).Canonical := by
  unfold State.padBack
  grind [! . restorePad, ! . onHart, ! . crewFault, outcome, reached]

theorem bindAgain {s : State} {c : Crew} {f : Fit} (h : s.Canonical) : (s.bindAgain c f).Canonical :=
  foldl (foldl (modCrew (foldl h modTeam)) padBack) fun h => onHart h restoreHart

theorem tryBind {choice : Nat} {x : State × List Nat} {k : Candidate} (hx : x.1.Canonical) : (State.tryBind choice x k).1.Canonical := by
  unfold State.tryBind
  grind [! . bindAgain, ! . bindNew, ! . modCrew]

theorem readDeps {s : State} {ctx : Nat} (h : s.Canonical) : (s.readDeps ctx).Canonical :=
  foldl h fun h => foldl h tryWord

theorem schedule {s : State} {ctx choice : Nat} (h : s.Canonical) : (s.schedule ctx choice).Canonical :=
  foldl_fst (tallyAll (readDeps h)) fun _ _ => tryBind

theorem undoTrims {s : State} (h : s.Canonical) : s.undoTrims.Canonical := by
  unfold State.undoTrims
  grind [! . resolveTests, ! . modHart, ! . backTo, outcome, reached]

theorem saveHart {s : State} (h : s.Canonical) : s.saveHart.Canonical := by
  unfold State.saveHart
  grind [! . modHart, ! . saveFrame, ! . frameFault, outcome, reached]

theorem savePad {out : List Nat} {s : State} {t : Team} (h : s.Canonical) : (State.savePad out s t).Canonical := by
  unfold State.savePad
  grind [! . frameWrite, ! . mapHarts, ! . onHart, ! . crewFault, outcome, reached]

theorem alignBarriers {s : State} {out : List Nat} {c : Crew} (h : s.Canonical) : (s.alignBarriers out c).Canonical := by
  refine foldl h @fun s k h => ?_
  have hsave := saveBarriers (k := k) h
  split <;> rename_i hr <;> rw [hr] at hsave
  · exact hsave
  · exact onHart hsave crewFault

theorem completePreemption {s : State} {c : Crew} (h : s.Canonical) : (s.completePreemption c).Canonical := by
  have hsaved (out : List Nat) :
      (out.foldl (fun s h => s.onHart h State.saveHart) (out.foldl (fun s h => s.onHart h State.settleOut) s)).Canonical :=
    foldl (foldl h fun h => onHart h settleOut) fun h => onHart h saveHart
  unfold State.completePreemption
  split
  · exact h
  · split
    · exact onHart h undoTrims
    · extract_lets out s1 s2 s3 s4
      have hpads : s3.Canonical := alignBarriers (foldl (hsaved out) savePad)
      split
      · exact hsaved out
      · split
        · exact hpads
        · exact modCrew (hpads : s4.Canonical)

theorem recordWords {s : State} {ctx va n : Nat} (h : s.Canonical) : (reached Prod.fst (s.recordWords ctx va n)).Canonical := by
  induction n generalizing s va with
  | zero => exact h
  | succ n ih => exact reached_bind (ctxWord h) fun _ h => reached_bind (ih h) fun _ => id

theorem acceptRecord {s : State} {c : Ctx} {q : Queue} {head : Nat} {w : List Nat} (h : s.Canonical) : (s.acceptRecord c q head w).Canonical := by
  unfold State.acceptRecord
  grind [! . fileEvent, ! . writeDone]

theorem accept {s : State} {q : Queue} (h : s.Canonical) : (s.accept q).Canonical := by
  unfold State.accept
  grind [! . queueWords, ! . recordWords, ! . ctxPut, ! . acceptRecord, outcome, reached]

theorem completeLaunch {s : State} {l : Launch} (h : s.Canonical) : (s.completeLaunch l).Canonical := by
  unfold State.completeLaunch
  grind [! . writeDone]

theorem moveEntry {s : State} {die : Nat} {o : Obj} (h : s.Canonical) : (s.moveEntry die o).Canonical := h

theorem movePage {s : State} {hint page : Nat} (h : s.Canonical) : (s.movePage hint page).Canonical := by
  have hmoved (c : Prop) [Decidable c] (die : Nat) (os : List Obj) : (if c then s else os.foldl (fun s o => s.moveEntry die o) s).Canonical := by
    split
    · exact h
    · exact foldl h moveEntry
  exact hmoved _ _ _

theorem applyModes {s : State} (h : s.Canonical) : s.applyModes.Canonical := h

theorem moveHint {s : State} {l : Launch} (h : s.Canonical) : (s.moveHint l).Canonical := by
  unfold State.moveHint
  dsimp only
  split
  · exact h
  · exact modLaunch (foldl h movePage)

/-! ### Package -/

theorem dropCrews {s : State} {ids : List Nat} (h : s.Canonical) : (s.dropCrews ids).Canonical := by
  unfold State.dropCrews
  grind [! . focus, ! . modHart]

theorem failUnits {s : State} {bad : CoreUnit → Bool} {code src : Nat} (h : s.Canonical) : (s.failUnits bad code src).Canonical := by
  unfold State.failUnits
  extract_lets teams ids launches owners t u
  exact foldl (dropCrews (s := { s with launches := _ }) h : u.Canonical) fileEvent

theorem modPort {s : State} {port : Bool} {f : HostPort → HostPort} (h : s.Canonical) : (s.modPort port f).Canonical := h

theorem hostStores {s : State} {ws : List (Nat × List Byte)} (h : s.Canonical) : (s.hostStores ws).Canonical := by
  induction ws generalizing s with
  | nil => exact h
  | cons w rest ih =>
    unfold State.hostStores
    split
    · exact h
    · exact ih (perform h)

theorem answerHost {s : State} {write : Bool} {xs : List Byte} (h : s.Canonical) : (s.answerHost write xs).Canonical := by
  unfold State.answerHost
  grind [! . modPkg]

theorem hostMemory {s : State} {pa : Nat} {write : Bool} {data : List Byte} (h : s.Canonical) : (s.hostMemory pa write data).Canonical := by
  unfold State.hostMemory
  grind [! . fileEvent, ! . answerHost, ! . hostStores]

theorem hostRegister {s : State} {port write : Bool} {function addr : Nat} {data : List Byte} (h : s.Canonical) :
    Offered (s.hostRegister port function addr write data) := by
  unfold State.hostRegister
  split
  · exact offered_none
  · refine offered_ite offered_none ?_
    rename_i c _
    have haccess (va : Nat) :
        (reached id (if write then s.ctxWrite c.num va data else (s.ctxRead c.num va data.length).map fun r => r.1.answerHost false r.2)).Canonical := by
      split
      · exact ctxWrite h
      · exact reached_map (ctxRead h) fun _ => answerHost
    have hva := haccess (c.ring.toNat / 256 * 256 % 2 ^ 55 + addr)
    dsimp only
    split <;> rename_i hr
    · rw [hr] at hva
      exact offered_some hva
    · exact offered_none

theorem finishInvalidations {s : State} (h : s.Canonical) : s.finishInvalidations.Canonical := by
  unfold State.finishInvalidations
  split
  · exact h
  · extract_lets through t
    have ht : t.Canonical := foldl h fun h => onHart h fun h => drainAll (performLate h)
    split
    · exact ht
    · exact modPkg ht

theorem setFrozen {s : State} {roots : List Nat} (h : s.Canonical) : (s.setFrozen roots).Canonical := h

theorem powerStep {m : PowerStep} {s : State} (h : s.Canonical) : (State.powerStep m s).Canonical := by
  unfold State.powerStep
  grind [! . modPkg, ! . fileIn]

theorem tickBoundary {before : Nat} {s : State} (h : s.Canonical) : (State.tickBoundary before s).Canonical := by
  unfold State.tickBoundary
  grind [! . modPkg, ! . powerStep]

theorem boot {s : State} (h : s.Canonical) : s.boot.Canonical := Memory.wf_boot _ h

theorem recover {s : State} {fw mf : Bool} (h : s.Canonical) : (s.recover fw mf).Canonical := boot h

theorem storeManifest {s : State} {version : BitVec 32} {m : Manifest} (h : s.Canonical) : (s.storeManifest version m).Canonical := h

theorem storeFirmware {s : State} {version : BitVec 32} (h : s.Canonical) : (s.storeFirmware version).Canonical := h

theorem modOwnTeam {s : State} {f : Team → Team} (h : s.Canonical) : (s.modOwnTeam f).Canonical := by
  unfold State.modOwnTeam
  grind [! . modTeam]

theorem scanHeader {s : State} {k : Hart} {hd : Sparse Byte} (h : s.Canonical) : (s.scanHeader k hd).Canonical := by
  unfold State.scanHeader
  grind [ofOutcome, ! . setFrameState, ! . modHart, ! . modCrew]

theorem scanPut {s : State} {lo : Nat} {img : Sparse Byte} (h : s.Canonical) : (s.scanPut lo img).Canonical := by
  have hframe := ofOutcome (frameWrite (k := s.hart) (fuel := framePages) (off := 0x4000) (size := 0x4000) (img := img) h)
  unfold State.scanPut
  grind [! . modHart, ! . modOwnTeam, ! . scanHeader]

/-! ### Engines -/

theorem changed {s t : State} (ht : t.Canonical) : Offered (s.changed t) := offered_ite offered_none (offered_some ht)

theorem engineWork {s : State} (h : s.Canonical) : Offered s.engineWork := by
  unfold State.engineWork
  refine offered_or ?_ (offered_or ?_ (offered_or ?_ (offered_or ?_ (offered_or ?_ (offered_or ?_ ?_)))))
  · exact offered_ite offered_none (offered_some (matrixStep h))
  · exact offered_bind fun _ => changed (performGather h)
  · exact offered_ite (changed (copyStep h)) offered_none
  · exact offered_bind fun _ => changed (completeColl h)
  · exact offered_ite (changed (writeSample h)) offered_none
  · exact offered_map fun _ => traceDump h
  · exact offered_ite offered_none (changed (drainAll (performLate h)))

theorem engineStep {s : State} (h : s.Canonical) : s.engineStep.Canonical := offered_getD (engineWork h) h

theorem performOldest {s : State} {vector : Bool} (h : s.Canonical) : (s.performOldest vector).Canonical := by
  unfold State.performOldest
  grind [! . performLate, ! . perform, ! . modHart]

theorem answerPage {s : State} {p : PageReq} {good : Bool} (h : s.Canonical) : (s.answerPage p good).Canonical := h

theorem pageAnswer {s t : State} {p : PageReq} {good : Bool} (h : s.Canonical) (ht : s.pageAnswer p = some (t, good)) : t.Canonical := by
  have hword (c va : Nat) := ctxWord (c := c) (va := va) (plain := false) h
  unfold State.pageAnswer at ht
  grind [reached]

theorem placeWaiting {s : State} {p : PageReq} (h : s.Canonical) : (s.placeWaiting p).Canonical := by
  unfold State.placeWaiting
  grind [! . placeRequest]

theorem after {s : State} {o : Out} (h : s.Canonical) (ho : Continues o) : (s.after o).Canonical := by
  cases o with
  | next t => exact ho t rfl
  | fault _ => exact h
  | refused _ => exact h

theorem timeOut {s : State} {again : Instr → Option Out} (h : s.Canonical) (hagain : ∀ i o, again i = some o → Continues o) :
    (s.timeOut again).Canonical := by
  unfold State.timeOut
  split
  · split
    · exact offered_getD (fun _ ht => by
        obtain ⟨o, ho, rfl⟩ := Option.map_eq_some_iff.1 ht
        exact after h (hagain _ o ho)) h
    · exact h
  · exact h

theorem resolveFirst {s : State} (h : s.Canonical) : s.resolveFirst.Canonical := by
  have hheld (x : Strip) : (x.caddy.foldl State.commitHeld s).Canonical := foldl h commitHeld
  unfold State.resolveFirst
  split
  · exact h
  · split
    · exact takeTrim h
    · dsimp only
      split
      · exact squashTo (hheld _)
      · exact releaseCaddy (modRegion (hheld _))

theorem resolveLeading {s : State} {fuel : Nat} (h : s.Canonical) : (s.resolveLeading fuel).Canonical := by
  induction fuel generalizing s with
  | zero => exact h
  | succ n ih =>
    unfold State.resolveLeading
    split
    · exact h
    · split
      · exact h
      · exact ih (resolveFirst h)

theorem settleFirst {s : State} (h : s.Canonical) : s.settleFirst.Canonical := h

theorem acceptDue {s : State} (h : s.Canonical) : Offered s.acceptDue := offered_findSome? fun _ => changed (accept h)

theorem completeDue {s : State} (h : s.Canonical) : Offered s.completeDue :=
  offered_findSome? fun _ => offered_ite (offered_some (completeLaunch (reap h))) offered_none

theorem hintDue {s : State} (h : s.Canonical) : Offered s.hintDue :=
  offered_findSome? fun _ => offered_ite offered_none
    (offered_or (changed (moveHint h)) (offered_ite (offered_some (modLaunch (tallyAll h))) offered_none))

theorem bindDue {s : State} (h : s.Canonical) : Offered s.bindDue :=
  offered_findSome? fun _ => offered_ite offered_none (offered_ite offered_none (offered_some (schedule (reap (draw h)))))

theorem phaseDue {s : State} (h : s.Canonical) : Offered s.phaseDue :=
  offered_findSome? fun _ => offered_findSome? fun _ => offered_ite offered_none (changed (deliverPhase h))

theorem enginesDue {s : State} (h : s.Canonical) : Offered s.enginesDue :=
  offered_findSome? fun _ => offered_ite (fun _ ht => by
    obtain ⟨t, htwork, rfl⟩ := Option.map_eq_some_iff.1 ht
    exact focus (engineWork (focus h) t htwork)) offered_none

theorem bindHandler {s : State} {access : FrameAccess} {a : Ctx} {u : CoreUnit} (h : s.Canonical) : (s.bindHandler access a u).Canonical := by
  unfold State.bindHandler
  grind [! . onHart, ! . startFrame]

theorem startHandler {s : State} {a : Hart} {access : FrameAccess} (h : s.Canonical) : (s.startHandler a access).Canonical := by
  unfold State.startHandler
  grind [! . onHart, ! . crownHalt, ! . bindHandler, ! . modCrew]

theorem frameBack {s : State} (h : s.Canonical) : Offered s.frameBack := offered_map fun _ => onHart h retryFrame

theorem handlerDue {s : State} (h : s.Canonical) : Offered s.handlerDue := offered_findSome? fun k => by
  split
  · exact changed (startHandler h)
  · exact offered_none

theorem lossDue {s : State} (h : s.Canonical) : Offered s.lossDue := by
  refine offered_ite (offered_some ?_) offered_none
  split
  · exact modPkg h
  · exact loseDevice (modPkg h)

theorem dueWork {s : State} (h : s.Canonical) : Offered s.dueWork := by
  unfold State.dueWork
  refine offered_or ?_ (offered_or ?_ (offered_or ?_ (offered_or ?_ (offered_or ?_ (offered_or ?_ (offered_or ?_ ?_))))))
  rotate_left 7
  refine offered_or ?_ (offered_or ?_ (offered_or ?_ (offered_or ?_ (offered_or ?_ (offered_or ?_ (offered_or ?_ ?_))))))
  rotate_left 8
  · exact offered_findSome? fun _ => offered_ite (changed (completePreemption h)) offered_none
  · exact handlerDue h
  · exact frameBack h
  · refine offered_findSome? fun p t ht => ?_
    obtain ⟨⟨u, good⟩, hanswer, rfl⟩ := Option.map_eq_some_iff.1 ht
    exact answerPage (pageAnswer h hanswer)
  · exact offered_findSome? fun _ => offered_ite (changed (placeWaiting h)) offered_none
  · exact lossDue h
  · exact offered_ite offered_none (changed (finishInvalidations h))
  · exact offered_ite offered_none (changed (hostStores h))
  · exact acceptDue h
  · exact completeDue h
  · exact hintDue h
  · exact offered_ite (changed (applyModes h)) offered_none
  · exact bindDue h
  · exact phaseDue h
  · exact enginesDue h

theorem background {s : State} (h : s.Canonical) : s.background.Canonical := by
  unfold State.background
  split
  · exact h
  · exact offered_getD (dueWork h) h

/-! ### Strainer -/

theorem imageLoad {s : State} {va : Word} {n : Nat} (h : s.Canonical) : (s.imageLoad va n).1.Canonical := by
  unfold State.imageLoad
  grind [! . access, ! . eccAccess, ! . readList]

theorem readGrammar {s : State} {va : Word} (h : s.Canonical) : (s.readGrammar va).1.Canonical := by
  unfold State.readGrammar
  grind [! . imageLoad]

theorem useLine {l : CachedLine} {va : Word} {n : Nat} {s : State} (h : s.Canonical) : (useLine l va n s).1.Canonical := by
  unfold Machine.useLine
  dsimp only
  split <;> exact h

theorem cacheLine {s : State} {l : CachedLine} {same : CachedLine → Bool} (h : s.Canonical) : (s.cacheLine l same).Canonical := by
  unfold State.cacheLine
  grind [! . draw]

theorem fetchLine {s : State} {x : Session} {row : Option (Nat × Nat × Nat)} {va : Word} {n : Nat} (h : s.Canonical) : (s.fetchLine x row va n).1.Canonical := by
  unfold State.fetchLine
  grind [! . access, ! . draw, ! . eccAccess, ! . useLine, ! . cacheLine]

theorem tableRead {s : State} {x : Session} {row : Option (Nat × Nat × Nat)} {va : Word} {n : Nat} (h : s.Canonical) : (s.tableRead x row va n).1.Canonical := by
  unfold State.tableRead
  grind [! . fetchLine, ! . draw, ! . useLine]

theorem bound {s : State} {go : Session → State → Res} (h : s.Canonical) (hgo : ∀ {x : Session} {t : State}, t.Canonical → (go x t).state.Canonical) :
    (bound s go).state.Canonical := by
  unfold Machine.bound
  split
  · exact h
  · exact hgo h

theorem setSession {s : State} {x : Option Session} (h : s.Canonical) : (s.setSession x).Canonical := h

theorem noteBind {s : State} {desc : Nat} (h : s.Canonical) : (s.noteBind desc).Canonical := h

theorem stepToken {s : State} {x : Session} {va : Word} (h : s.Canonical) : (s.stepToken x va).1.Canonical := by
  unfold State.stepToken
  grind [! . scalarLoad, ! . tableRead]

theorem stepRun {s : State} {base : Word} {left i : Nat} (h : s.Canonical) : (s.stepRun base left i).1.Canonical := by
  induction left generalizing s i with
  | zero => exact h
  | succ left ih =>
    unfold State.stepRun
    split
    · exact h
    · split <;> rename_i hr
      · exact ofPair (stepToken h) hr
      · exact ofPair (stepToken h) hr
      · exact ih (setSession (ofPair (stepToken h) hr))

theorem rowBits {s : State} {x : Session} {first last fuel : Nat} (h : s.Canonical) : (s.rowBits x first last fuel).1.Canonical := by
  induction fuel generalizing s first last with
  | zero => exact h
  | succ fuel ih =>
    unfold State.rowBits
    dsimp only
    split
    · exact h
    · split <;> rename_i hr
      · exact ofPair (tableRead h) hr
      · split <;> rename_i hm <;> exact ofPair (ih (ofPair (tableRead h) hr)) hm

theorem grmask {bits : Nat} {put : Hart → Nat → Nat → Hart} {a : GReg} {s : State} (h : s.Canonical) : (grmask bits put a s).state.Canonical :=
  bound h fun h => by
    dsimp only
    split
    · exact h
    · split <;> rename_i hr
      · exact ofStop (ofPair (rowBits h) hr)
      · have hrow := ofPair (rowBits h) hr
        exact hrow

/-! ### VecFloat -/

theorem floatFamily {w : Code} {s : State} {k : Fmt → State → Res} (h : s.Canonical)
    (hk : ∀ {f : Fmt} {t : State}, t.Canonical → (k f t).state.Canonical) : (floatFamily w s k).state.Canonical :=
  illegalRegister h fun h => by
    split
    · exact hk h
    · exact h

/-! ### VecMask -/

theorem compareVV {c : Hart → Nat → Nat → Bool} {d : MReg} {a b : VReg} {m : Bool} {s : State} (h : s.Canonical) :
    (compareVV c d a b m s).state.Canonical := elementwise h

theorem compareVX {c : Hart → Nat → Nat → Bool} {d : MReg} {a : VReg} {x : Word} {m : Bool} {s : State} (h : s.Canonical) :
    (compareVX c d a x m s).state.Canonical := elementwise h

/-! ### VecReduce -/

theorem reduction {init : Word} {step : Word → Nat → Word} {d : GReg} {a : VReg} {m : Bool} {s : State} (h : s.Canonical) :
    (reduction init step d a m s).state.Canonical := by
  unfold Machine.reduction
  dsimp only
  split
  · exact through (setG h)
  · exact stopAt (setG h)

/-! ### Fetch -/

theorem pick {s : State} (h : s.Canonical) : Offered s.pick := by
  unfold State.pick
  split
  · exact offered_ite (offered_some (focus h)) (offered_ite (offered_some h) (offered_map fun _ => focus h))
  · exact offered_ite (offered_some h) (offered_map fun _ => focus h)

theorem passTime {s : State} (h : s.Canonical) : s.passTime.Canonical := by
  unfold State.passTime
  grind [! . tickBoundary, ! . fileWaiting, ! . loseUnlinked, ! . traceTime]

theorem rotate {s : State} (h : s.Canonical) : s.rotate.Canonical := by
  unfold State.rotate
  grind []

theorem turnOver {s : State} (h : s.Canonical) : s.turnOver.Canonical := rotate (background h)

theorem noteIssue {s : State} {a : Hart} {i : Instr} (h : s.Canonical) : (s.noteIssue a i).Canonical := h

theorem noteSample {s : State} {a : Hart} {i : Instr} (h : s.Canonical) : (s.noteSample a i).Canonical := by
  unfold State.noteSample
  grind [! . mapHarts, ! . writeSample]

theorem standStill {s : State} {a : Hart} {reason : Nat} (h : s.Canonical) : (s.standStill a reason).Canonical := turnOver (traceStall h)

theorem follow {s : State} {a : Hart} {i : Instr} (h : s.Canonical) : (s.follow a i).Canonical := by
  unfold State.follow
  grind [! . standStill, ! . noteSample, ! . noteIssue, ! . turnOver]

theorem takeBreak {s : State} (h : s.Canonical) : s.takeBreak.Canonical := by
  unfold State.takeBreak
  grind [! . decideTrims, ! . trapAtHead, ! . modHart, outcome, reached]

theorem prepare {s : State} {i : Instr} (h : s.Canonical) : (s.prepare i).Canonical := by
  unfold State.prepare
  grind [! . performLate, ! . awaitTests, ! . modHart, ! . eccRegisters]

theorem cutFor {s : State} {i : Instr} (h : s.Canonical) : (s.cutFor i).Canonical := by
  unfold State.cutFor
  grind [! . modHart]

/-! ### Members and events -/

theorem accessPerformed {k : Nat} {vector : Bool} {s : State} (h : s.Canonical) : Continues (execAccessPerformed k vector s) := by
  refine event ?_
  split
  · exact onHart h performOldest
  · exact h

theorem scanWrite {s : State} (h : s.Canonical) : Continues (execScanWrite s) := by
  refine event ?_
  split
  · exact h
  · split
    · exact ofOutcome (frameWrite h)
    · split
      · exact onHart h scanPut
      · exact h

theorem scanRead {s : State} (h : s.Canonical) : Continues (execScanRead s) := by
  refine event ?_
  split <;> exact h

theorem scanThaw {s : State} (h : s.Canonical) : Continues (execScanThaw s) := by
  refine event ?_
  split
  · exact setFrozen h
  · exact h

theorem scanFreeze {s : State} (h : s.Canonical) : Continues (execScanFreeze s) := by
  refine event ?_
  split
  · exact setFrozen h
  · exact h

theorem recoveryImageWrite {manifest : Option Manifest} {accepted : Bool} {version : BitVec 32} {s : State} (h : s.Canonical) :
    Continues (execRecoveryImageWrite manifest accepted version s) := by
  have hstored : (manifest.elim (s.storeFirmware version) (s.storeManifest version)).Canonical := by
    cases manifest with
    | none => exact storeFirmware h
    | some m => exact storeManifest h
  refine event ?_
  generalize (if manifest.isSome then s.pkg.mfVersion else s.pkg.fwVersion) = least
  split
  · exact h
  · dsimp only
    split
    · exact boot hstored
    · exact hstored

theorem deviceReset {firmwareOk : Bool} {flash : FlashManifest} {s : State} (h : s.Canonical) : Continues (execDeviceReset firmwareOk flash s) := by
  have hstored : (flash.written.elim s (s.storeManifest flash.version)).Canonical := by
    cases flash.written with
    | none => exact h
    | some m => exact storeManifest h
  have hflash : (flash.firmware.elim (flash.written.elim s (s.storeManifest flash.version))
      (flash.written.elim s (s.storeManifest flash.version)).storeFirmware).Canonical := by
    cases flash.firmware with
    | none => exact hstored
    | some v => exact storeFirmware hstored
  refine event ?_
  split
  · exact boot hflash
  · exact recover hflash

theorem securityAlarm {sensor : BitVec 2} {s : State} (h : s.Canonical) : Continues (execSecurityAlarm sensor s) := by
  refine event ?_
  split
  · exact fileIn h
  · exact setFrozen (fileIn h)

theorem powerGrantStep {draw hottest coolest : Nat} {hotCores : List Nat} {s : State} (h : s.Canonical) :
    Continues (execPowerGrantStep draw hottest coolest hotCores s) := by
  refine event ?_
  split
  · exact powerStep h
  · exact h

theorem functionLevelReset {port : Bool} {function : BitVec 6} {s : State} (h : s.Canonical) : Continues (execFunctionLevelReset port function s) := by
  have hmoved (t : State) (c : Ctx) (ht : t.Canonical) : (if t.inSubtree c.num t.hart.ctx then
      (match t.others.find? fun h => !t.inSubtree c.num h.ctx with
        | some h => t.focus h.id
        | none => t.modHart fun h => { h with run := .retired })
      else t).Canonical := by
    split
    · split
      · exact focus ht
      · exact ht
    · exact ht
  refine event ?_
  split
  · exact h
  · exact modCtx (revoke (hmoved _ _ (fileIn h)))

theorem hostAccess {port write : Bool} {target : HostTarget} {data : List Byte} {s : State} (h : s.Canonical) :
    Continues (execHostAccess port target write data s) := by
  refine event ?_
  split
  · split
    · exact answerHost h
    · exact hostMemory h
  · exact offered_getD (hostRegister h) (answerHost h)

theorem hostPortTrain {port : Bool} {training : HostTraining} {s : State} (h : s.Canonical) : Continues (execHostPortTrain port training s) := by
  refine event ?_
  split
  · exact modPort h
  · split
    · exact h
    · exact applyModes (modPort h)

theorem channelFailure {base size : Nat} {s : State} (h : s.Canonical) : Continues (execChannelFailure base size s) := by
  have hpoisoned : (if size = 0 then s else s.poisonAt (.phys base) size).Canonical := by
    split
    · exact h
    · exact poisonAt h
  exact event (foldl (fileIn (modPkg hpoisoned)) fileEvent)

theorem linkDownTimeout {device : BitVec 16} {s : State} (h : s.Canonical) : Continues (execLinkDownTimeout device s) := by
  refine event ?_
  split
  · exact loseDevice h
  · exact h

theorem abortFlitReceive {k coll : Nat} {s : State} (h : s.Canonical) : Continues (execAbortFlitReceive k coll s) :=
  event (onFlit h fun h => by
    split
    · exact h
    · exact endColl h)

theorem readyFlitReceive {k coll rank : Nat} {s : State} (h : s.Canonical) : Continues (execReadyFlitReceive k coll rank s) :=
  event (onFlit h fun h => by
    split
    · exact h
    · exact modColl h)

theorem traceDumpComplete {cluster : Nat} {s : State} (h : s.Canonical) : Continues (execTraceDumpComplete cluster s) := by
  refine event ?_
  split
  · exact traceDump h
  · exact h

theorem traceFullStop {cluster : Nat} {s : State} (h : s.Canonical) : Continues (execTraceFullStop cluster s) := by
  refine event ?_
  split
  · exact traceFull h
  · exact h

theorem fenceSc {e : Bool} {scope : BitVec 3} {s : State} (h : s.Canonical) : Continues (execFenceSc e scope s) :=
  member (settled h fun h => by
    split
    · split
      · exact synced h
      · exact h
    · exact drainAll h)

theorem fenceScTick {k : Nat} {s : State} (h : s.Canonical) : Continues (execFenceScTick k s) :=
  event (onEngine h fun h => by
    split
    · exact after h (fenceSc h)
    · exact h)

theorem colw {e : Bool} {d a b : GReg} {s : State} (h : s.Canonical) : Continues (execColw e d a b s) :=
  member (settled h fun h => by
    split
    · exact setG h
    · dsimp only
      split
      · split
        · exact setG (waitUntil h)
        · exact waitUntil h
      · split <;> exact setG (completeColl (waitUntil h)))

theorem colwTimeout {k : Nat} {s : State} (h : s.Canonical) : Continues (execColwTimeout k s) :=
  event (onEngine h fun h => timeOut h fun i o ho => by
    split at ho
    · obtain rfl := Option.some.inj ho
      exact colw h
    · cases ho)

theorem lwait {e : Bool} {d a b : GReg} {s : State} (h : s.Canonical) : Continues (execLwait e d a b s) :=
  member (settled h fun h => by
    dsimp only
    split
    · exact h
    · split <;> rename_i hr
      · exact ofStop (ofPair (scalarLoad h) hr)
      · have hread := ofPair (scalarLoad h) hr
        split
        · exact setG (waitUntil hread)
        · exact waitUntil hread)

theorem lwaitTimeout {k : Nat} {s : State} (h : s.Canonical) : Continues (execLwaitTimeout k s) :=
  event (onEngine h fun h => timeOut h fun i o ho => by
    split at ho
    · obtain rfl := Option.some.inj ho
      exact lwait h
    · cases ho)

theorem waitEnd {k : Nat} {s : State} (h : s.Canonical) : Continues (execWaitEnd k s) :=
  event (onEngine h fun h => by
    split
    · split <;> exact h
    · exact h)

theorem waitw {e : Bool} {b : GReg} {s : State} (h : s.Canonical) : Continues (execWaitw e b s) :=
  member (settled h fun h => by
    split
    · exact h
    · dsimp only
      split
      · exact endWatch (waitUntil h)
      · exact waitUntil h)

theorem waitwTimeout {k : Nat} {s : State} (h : s.Canonical) : Continues (execWaitwTimeout k s) :=
  event (onEngine h fun h => timeOut h fun i o ho => by
    split at ho
    · obtain rfl := Option.some.inj ho
      exact waitw h
    · cases ho)

theorem waitwWake {k : Nat} {s : State} (h : s.Canonical) : Continues (execWaitwWake k s) :=
  event (onEngine h fun h => by
    split
    · split
      · exact after h (waitw h)
      · exact h
    · exact h)

theorem launchCompletion {launch : Nat} {s : State} (h : s.Canonical) : Continues (execLaunchCompletion launch s) := by
  refine event ?_
  split
  · exact completeLaunch (reap h)
  · exact h

theorem hartRetire {k : Nat} {s : State} (h : s.Canonical) : Continues (execHartRetire k s) :=
  event (onEngine h fun h => by
    split
    · exact finishStop h
    · exact h)

theorem homeBiasMove {launch : Nat} {s : State} (h : s.Canonical) : Continues (execHomeBiasMove launch s) := by
  refine event ?_
  split
  · exact moveHint (applyModes h)
  · exact applyModes h

theorem preemptionComplete {crew : Nat} {s : State} (h : s.Canonical) : Continues (execPreemptionComplete crew s) := by
  refine event ?_
  split
  · exact completePreemption h
  · exact h

theorem launchAccept {ctx queue : Nat} {s : State} (h : s.Canonical) : Continues (execLaunchAccept ctx queue s) := by
  refine event ?_
  split
  · exact accept h
  · exact h

theorem pendingPageEntryFree {id : Nat} {s : State} (h : s.Canonical) : Continues (execPendingPageEntryFree id s) := by
  refine event ?_
  split
  · exact placeWaiting h
  · exact h

theorem pageRequestGroupResponse {id : Nat} {code : BitVec 4} {s : State} (h : s.Canonical) : Continues (execPageRequestGroupResponse id code s) := by
  refine event ?_
  split
  · split
    · exact answerPage h
    · exact h
  · exact h

theorem pageRequestAnswer {id : Nat} {s : State} (h : s.Canonical) : Continues (execPageRequestAnswer id s) := by
  refine event ?_
  split
  · split <;> rename_i hr
    · exact answerPage (pageAnswer h hr)
    · exact h
  · exact h

theorem stripResolve {s : State} (h : s.Canonical) : Continues (execStripResolve s) := by
  have htrims := decideTrims (ends := false) h
  refine event ?_
  split
  · exact h
  · split
    · exact resolveFirst (settleFirst h)
    · split
      · split <;> rename_i hr <;> rw [hr] at htrims <;> exact htrims
      · exact h
    · exact h

theorem exitTestResolve {s : State} (h : s.Canonical) : Continues (execExitTestResolve s) := by
  refine event ?_
  split
  · exact h
  · split
    · exact awaitTests h
    · exact resolveLeading (settleFirst h)

theorem trapEntry {cause : BitVec 8} {tval : Word} {s : State} (h : s.Canonical) : Continues (execTrapEntry cause tval s) := by
  refine event ?_
  split
  · exact h
  · split
    · exact takeTrap h
    · exact trapAtHead h

theorem cola {e : Bool} {a : GReg} {s : State} (h : s.Canonical) : Continues (execCola e a s) :=
  member (settled h fun h => by
    split
    · split
      · exact endColl h
      · exact h
    · exact h)

theorem lprio {e : Bool} {d a b : GReg} {s : State} (h : s.Canonical) : Continues (execLprio e d a b s) :=
  member (settled h fun h => by
    dsimp only
    split
    · exact h
    · split
      · exact setG h
      · exact setG (modLaunch h))

theorem launch {e : Bool} {d a b : GReg} {s : State} (h : s.Canonical) : Continues (execLaunch e d a b s) :=
  member (settled h fun h => by
    dsimp only
    split
    · exact h
    · split
      · exact registerQueue h
      · split
        · exact unregisterQueue h
        · exact enqueueRecord h)

theorem ctxinfo {e : Bool} {d a : GReg} {b : BitVec 7} {s : State} (h : s.Canonical) : Continues (execCtxinfo e d a b s) :=
  member (settled h fun h => by
    dsimp only
    split
    · split
      · exact setG h
      · exact h
    · exact privileged h fun h => namedCtx h setG)

theorem ctxrun {e : Bool} {a b : GReg} {s : State} (h : s.Canonical) : Continues (execCtxrun e a b s) :=
  member (settled h fun h => privileged h fun h => namedCtx h fun h => by
    dsimp only
    split
    · exact modCtx h
    · split
      · split <;> exact holdCtx h
      · split
        · exact h
        · split
          · exact revokedAt h
          · exact runFrame h)

theorem ctxgrant {e : Bool} {a b : GReg} {s : State} (h : s.Canonical) : Continues (execCtxgrant e a b s) :=
  member (settled h fun h => privileged h fun h => namedCtx h fun h => by
    split
    · exact h
    · extract_lets w kind x ret
      generalize (kind ≥ 7 || _ || _ : Bool) = illegal
      split
      · exact h
      · split
        · exact reclaim h
        · exact grant h)

theorem objfree {e : Bool} {a : GReg} {s : State} (h : s.Canonical) : Continues (execObjfree e a s) :=
  member (settled h fun h => by
    dsimp only
    split
    · exact h
    · refine checkedRef h fun h => ?_
      split
      · exact h
      · exact afterWalks h fun h => perform (s := { (_ : State) with objs := _ }) (drainAll h))

theorem tagclr {e : Bool} {a : GReg} {s : State} (h : s.Canonical) : Continues (execTagclr e a s) :=
  member (settled h fun h => wordTarget h fun h => by
    dsimp only
    split
    · split <;> exact drain h
    · exact drain h)

theorem objprb {e : Bool} {d a : GReg} {s : State} (h : s.Canonical) : Continues (execObjprb e d a s) :=
  member (settled h fun h => by
    dsimp only
    split
    · exact setG h
    · split
      · exact ofStop h
      · split <;> rename_i hr <;> have hread := ofPair (setAccessed h) hr
        · exact ofStop hread
        · split
          · exact ofStop hread
          · split
            · split <;> exact setG hread
            · exact setG hread)

theorem pub {e : Bool} {c : BitVec 3} {a b : GReg} {s : State} (h : s.Canonical) : Continues (execPub e c a b s) :=
  member (settled h fun h => checkedRef h fun h => wordTarget h fun h => publish h putReference)

theorem pubw {e : Bool} {d a : GReg} {c : BitVec 3} {s : State} (h : s.Canonical) : Continues (execPubw e d a c s) :=
  member (settled h fun h => checkedRef h fun h => publish h setG)

theorem tagld {e : Bool} {d a : GReg} {s : State} (h : s.Canonical) : Continues (execTagld e d a s) :=
  member (settled h fun h => by
    dsimp only
    split
    · exact h
    · split <;> rename_i hr
      · exact ofStop (ofPair (access h) hr)
      · have hreach := ofPair (access h) hr
        split
        · exact eccAccess hreach
        · split <;> exact setG (acquired (eccAccess hreach)))

theorem gramMember {e : Bool} {go : State → Res} {s : State} (h : s.Canonical) (hgo : ∀ {t : State}, t.Canonical → (go t).state.Canonical) :
    Continues (gramMember e go s) := member (settled h fun h => hgo (drainAll h))

theorem grload {e : Bool} {a : GReg} {s : State} (h : s.Canonical) : Continues (execGrload e a s) :=
  gramMember h fun h => by
    dsimp only
    split
    · exact h
    · split <;> rename_i hlo
      · exact ofStop (ofPair (imageLoad h) hlo)
      · have hfirst := ofPair (imageLoad h) hlo
        split <;> rename_i hhi
        · exact ofStop (ofPair (imageLoad hfirst) hhi)
        · have hboth := ofPair (imageLoad hfirst) hhi
          split
          · exact setSession hboth
          · split <;> rename_i hg
            · exact ofStop (ofPair (readGrammar hboth) hg)
            · have hgram := ofPair (readGrammar hboth) hg
              split
              · exact hgram
              · exact setSession hgram

theorem grsave {e : Bool} {a : GReg} {s : State} (h : s.Canonical) : Continues (execGrsave e a s) :=
  gramMember h fun h => by
    dsimp only
    split
    · exact h
    · split <;> rename_i hlo
      · exact ofStop (ofPair (access h) hlo)
      · have hfirst := ofPair (access h) hlo
        split <;> rename_i hhi
        · exact ofStop (ofPair (access hfirst) hhi)
        · have hboth := ofPair (access hfirst) hhi
          dsimp only [Res.state]
          exact foldl hboth perform

theorem grforce {e : Bool} {d : GReg} {s : State} (h : s.Canonical) : Continues (execGrforce e d s) :=
  gramMember h fun h => bound h fun h => by
    split <;> rename_i hr
    · exact ofStop (ofPair (rowBits h) hr)
    · exact setG (ofPair (rowBits h) hr)

theorem grstep {e : Bool} {d a b : GReg} {s : State} (h : s.Canonical) : Continues (execGrstep e d a b s) :=
  gramMember h fun h => bound h fun h => by
    dsimp only
    split
    · exact h
    · split <;> rename_i hr <;> have hran := ofPair (stepRun h) hr
      · exact hran
      · exact hran
      · exact setG hran
      · split
        · exact hran
        · exact setG hran

theorem grbind {e : Bool} {a : GReg} {s : State} (h : s.Canonical) : Continues (execGrbind e a s) :=
  gramMember h fun h => by
    split <;> rename_i hr
    · exact ofStop (ofPair (readGrammar h) hr)
    · exact setSession (noteBind (ofPair (readGrammar h) hr))

theorem samp {e : Bool} {d a : GReg} {s : State} (h : s.Canonical) : Continues (execSamp e d a s) := by
  have hended (t : State) (ht : t.Canonical) : State.Canonical (match t.hart.sample with
      | some x => (match x.stage with
        | .done _ _ _ _ => t.writeSample
        | _ => t.dropSample)
      | none => t) := by
    split
    · split
      · exact writeSample ht
      · exact dropSample ht
    · exact ht
  exact member (settled h fun h => by
    dsimp only
    split
    · exact h
    · split <;> rename_i hr <;> have hreach := ofPair (access (baseOf h)) hr
      · exact ofStop hreach
      · exact pendToken (hended _ hreach))

theorem troff {e : Bool} {d a : GReg} {s : State} (h : s.Canonical) : Continues (execTroff e d a s) :=
  member (settled h fun h => by
    dsimp only
    split
    · exact h
    · split
      · exact deliverToken (traceFull h)
      · split
        · exact traceDump (traceFull h)
        · split <;> rename_i hr <;> have hchecked := ofPair (checkUnits (baseOf (traceFull h))) hr
          · exact ofStop hchecked
          · dsimp only [Res.state]
            split
            · exact pendToken (modRecorder (stopTrace hchecked))
            · exact traceDump (pendToken (modRecorder (stopTrace hchecked))))

theorem tron {e : Bool} {d a : GReg} {s : State} (h : s.Canonical) : Continues (execTron e d a s) :=
  member (settled h fun h => by
    dsimp only
    split
    · exact h
    · split
      · exact h
      · split
        · exact setG h
        · exact traceDump h)

theorem barrier {arrives waits e : Bool} {scope tag : BitVec 3} {s : State} (h : s.Canonical) : Continues (barrier arrives waits e scope tag s) :=
  member (settled h fun {t} h => by
    dsimp only
    have hphase := deliverPhase (crew := t.hart.crew) (t := tag.toNat) (settlePhase (crew := t.hart.crew) (t := tag.toNat) h)
    have hdrained (u : State) (hu : u.Canonical) : (if scope = 0 then u else u.drain fun q => q.vector).Canonical := by
      split
      · exact hu
      · exact drain hu
    generalize (!_ : Bool) = refused
    split
    · exact h
    · split
      · split
        · exact waitAtBarrier hphase
        · split
          · exact awaitPhase (modHart (arrive (hdrained _ hphase)))
          · exact arrive (hdrained _ hphase)
      · split
        · exact awaitPhase hphase
        · exact hphase)

theorem sxstat {e : Bool} {d a : GReg} {s : State} (h : s.Canonical) : Continues (execSxstat e d a s) :=
  member (settled h fun h => by split <;> exact setG h)

theorem sxabt {e : Bool} {a : GReg} {s : State} (h : s.Canonical) : Continues (execSxabt e a s) :=
  member (settled h fun h => by
    split
    · split
      · exact modCopy h
      · exact h
    · exact h)

theorem matrixMember {e : Bool} {go : State → Res} {s : State} (h : s.Canonical) (hgo : ∀ {t : State}, t.Canonical → (go t).state.Canonical) :
    Continues (matrixMember e go s) :=
  member (settled h fun h => by
    split
    · exact holdMatrix h
    · exact hgo h)

theorem rowFromVector {integer ordered e : Bool} {c st : TReg} {a : GReg} {b : VReg} {s : State} (h : s.Canonical) :
    Continues (rowFromVector integer ordered e c st a b s) := matrixMember h fun h => rowChecks h forkMatrix

theorem rowFromPad {ordered e : Bool} {c st : TReg} {a b : GReg} {s : State} (h : s.Canonical) : Continues (rowFromPad ordered e c st a b s) :=
  matrixMember h fun h => rowChecks h fun h => by
    split
    · exact badRegister h
    · split
      · exact h
      · dsimp only
        split
        · exact ofStop h
        · exact forkMatrix h

theorem tcvt {e : Bool} {d a : TReg} {b : BitVec 7} {s : State} (h : s.Canonical) : Continues (execTcvt e d a b s) :=
  matrixMember h fun h => shapedTile h fun h => shapedTile h fun h => by
    dsimp only
    split
    · exact badRegister h
    · exact forkMatrix h

theorem tdirty {e : Bool} {d : GReg} {s : State} (h : s.Canonical) : Continues (execTdirty e d s) :=
  member (settled h fun h => by
    split
    · exact holdMatrix h
    · exact setG h)

theorem imageTransfer {write e : Bool} {d : TReg} {a : GReg} {s : State} (h : s.Canonical) : Continues (imageTransfer write e d a s) :=
  matrixMember h fun h => claimedTile h tileTransfer

theorem rowTransfer {write e : Bool} {d : TReg} {a b : GReg} {s : State} (h : s.Canonical) : Continues (rowTransfer write e d a b s) :=
  matrixMember h fun h => shapedTile h tileTransfer

theorem tshape {e : Bool} {d : TReg} {a : GReg} {s : State} (h : s.Canonical) : Continues (execTshape e d a s) :=
  matrixMember h fun h => claimedTile h fun h => by
    split
    · exact forkMatrix h
    · exact badRegister h

theorem tconf {e : Bool} {d a : GReg} {s : State} (h : s.Canonical) : Continues (execTconf e d a s) :=
  member (settled h fun h => by
    dsimp only
    split
    · exact badRegister h
    · split
      · exact holdMatrix h
      · split
        · exact setG h
        · exact setG (setClaims h))

theorem seqmap {e : Bool} {d a b : GReg} {m : Bool} {s : State} (h : s.Canonical) : Continues (execSeqmap e d a b m s) :=
  member (settled h fun h => by
    dsimp only
    split
    · exact h
    · split <;> rename_i hd <;> have hdesc := ofPair (descriptor h) hd
      · exact ofStop hdesc
      · split
        · exact hdesc
        · split
          · exact hdesc
          · split <;> rename_i ht <;> have hentry := ofPair (tableTarget hdesc) ht
            · exact ofStop hentry
            · split
              · split <;> rename_i hx <;> have hextent := ofPair (tableTarget hentry) hx
                · exact ofStop hextent
                · exact tableStore (tableStore hextent)
              · exact tableStore hentry)

theorem seqfork {e : Bool} {d a b : GReg} {m : Bool} {s : State} (h : s.Canonical) : Continues (execSeqfork e d a b m s) :=
  member (settled h fun h => by
    dsimp only
    split
    · exact atIssue h
    · split
      · exact atIssue h
      · split <;> rename_i hd <;> have hdesc := ofPair (descriptor (atIssue h)) hd
        · exact ofStop hdesc
        · split
          · exact hdesc
          · split
            · exact hdesc
            · split <;> rename_i hc <;> have hcap := ofPair (tableLoad hdesc) hc
              · exact ofStop hcap
              · split
                · exact hcap
                · split <;> rename_i hk <;> have hcleared := ofPair (clearEntries hcap) hk
                  · exact seqStop hcleared
                  · split <;> rename_i hr
                    · exact forkWords (congrArg Res.state hr ▸ throughTo hcleared :)
                    · exact throughTo hcleared)

theorem vgqpop {e : Bool} {d : VReg} {m : Bool} {s : State} (h : s.Canonical) : Continues (execVgqpop e d m s) :=
  member (settled h fun h => illegalRegister h fun h => by
    have hperf := performGather (k := 0) h
    dsimp only
    split
    · exact hperf
    · split
      · exact hperf
      · refine illegalRegister hperf fun h => resWhenDone modHart (resNotePop ?_)
        split
        · exact throughTo (modHart h)
        · exact seqRead (seqBase (modHart h)))

theorem vgq {e : Bool} {a b : GReg} {m : Bool} {s : State} (h : s.Canonical) : Continues (execVgq e a b m s) :=
  member (settled h fun h => by
    dsimp only
    split
    · exact h
    · show State.Canonical (if _ then _ else _)
      split
      · exact h
      · exact performGather h)

theorem vrang {e : Bool} {d a : VReg} {b : GReg} {m : Bool} {s : State} (h : s.Canonical) : Continues (execVrang e d a b m s) := by
  have hissued := atIssue (x := s.g b) (y := 0) h
  unfold execVrang
  generalize s.atIssue (s.g b) 0 = r at hissued ⊢
  obtain ⟨u, p, _⟩ := r
  refine member (illegalRegister hissued fun h => ?_)
  split
  · exact h
  · refine resWhenDone (fun h => ?_) (elementwise h)
    split <;> exact h

theorem vrot {e : Bool} {d a b : VReg} {m : Bool} {s : State} (h : s.Canonical) : Continues (execVrot e d a b m s) :=
  member (illegalRegister h fun h => by
    dsimp only
    split
    · exact through h
    · exact stopAt h)

theorem vseq {e : Bool} {d : VReg} {a b : GReg} {m : Bool} {s : State} (h : s.Canonical) : Continues (execVseq e d a b m s) :=
  member (settled h fun h => by
    dsimp only
    split
    · exact through (atIssue h)
    · exact seqRead (seqBase (atIssue h)))

theorem exitBranch {onExit e : Bool} {o : BitVec 11} {s : State} (h : s.Canonical) : Continues (exitBranch onExit e o s) := by
  have hgo (exit : Bool) (t : State) (ht : t.Canonical) : (if exit == onExit then Machine.take t (targetOf t.hart.pc o) else .ok t).state.Canonical := by
    split
    · exact take ht
    · exact ht
  refine member ?_
  split
  · exact hgo _ _ (nextStrip (endStrip (performLate h)))
  · refine stripEnd h fun h => hgo _ _ ?_
    split
    · exact h
    · split
      · exact h
      · exact nextStrip h

theorem vxit {e : Bool} {a : MReg} {m : Bool} {s : State} (h : s.Canonical) : Continues (execVxit e a m s) :=
  member (illegalRegister h fun h => by
    split
    · exact testIssued h
    · exact testIssued (exitFound h))

theorem indexedAccess {store : Bool} {minor : Nat} {e : Bool} {d : VReg} {a : GReg} {b : VReg} {m : Bool} {s : State} (h : s.Canonical) :
    Continues (indexedAccess store minor e d a b m s) := member (illegalRegister (atIssue h) vectorAccess)

theorem strided {store : Bool} {minor : Nat} {e : Bool} {d : VReg} {a b : GReg} {m : Bool} {s : State} (h : s.Canonical) :
    Continues (strided store minor e d a b m s) := member (vectorAccess (atIssue h))

theorem unitStride {store : Bool} {minor : Nat} {e : Bool} {d : VReg} {a : GReg} {m : Bool} {s : State} (h : s.Canonical) :
    Continues (unitStride store minor e d a m s) := member (vectorAccess (atIssue h))

theorem vextr {e : Bool} {d : GReg} {a : VReg} {b : GReg} {m : Bool} {s : State} (h : s.Canonical) : Continues (execVextr e d a b m s) := by
  refine member ?_
  split
  · exact setG h
  · split
    · exact h
    · exact setG h

theorem vfsumo {e : Bool} {d : GReg} {a : VReg} {m : Bool} {s : State} (h : s.Canonical) : Continues (execVfsumo e d a m s) :=
  member (floatFamily h fun {f t} h => by
    have hsum := reduction (init := emptySum) (step := orderedStep f) (d := d) (a := a) (m := m) h
    split <;> rename_i hr
    · rw [hr] at hsum
      show State.Canonical (if _ then _ else _)
      split
      · exact setG hsum
      · exact hsum
    · exact hsum)

theorem convertOp {srcFloat dstFloat : Bool} {f3 : BitVec 3} {e : Bool} {d a : VReg} {b : BitVec 7} {m : Bool} {s : State} (h : s.Canonical) :
    Continues (convertOp srcFloat dstFloat f3 e d a b m s) :=
  member (illegalRegister h fun h => by
    split
    · dsimp only
      split
      · exact elementwise h
      · exact toCompletion h
    · exact h)

theorem mfirst {e : Bool} {d : GReg} {a : MReg} {m : Bool} {s : State} (h : s.Canonical) : Continues (execMfirst e d a m s) := by
  refine member ?_
  split
  · exact h
  · split
    · exact setG h
    · exact through (setG h)

theorem vconf {e : Bool} {b : BitVec 7} {s : State} (h : s.Canonical) : Continues (execVconf e b s) := by
  refine member ?_
  split
  · exact h
  · split <;> exact h

theorem fenceEng {e : Bool} {scope : BitVec 3} {s : State} (h : s.Canonical) : Continues (execFenceEng e scope s) :=
  member (settled h fun h => by
    split
    · exact engineStep h
    · exact drainAll (performLate h))

theorem watch {e : Bool} {a : GReg} {s : State} (h : s.Canonical) : Continues (execWatch e a s) :=
  member (settled h fun h => by
    split <;> rename_i hr <;> have hreach := ofPair (access h) hr
    · exact ofStop hreach
    · exact current hreach)

theorem releaseStore {n : Nat} {e : Bool} {d a : GReg} {s : State} (h : s.Canonical) : Continues (releaseStore n e d a s) :=
  member (settled h fun h => by
    dsimp only
    split
    · exact h
    · split <;> rename_i hr <;> have hreach := ofPair (access h) hr
      · exact ofStop hreach
      · exact issueStore (drainAll (eccAccess hreach)))

theorem acquireLoad {n : Nat} {e : Bool} {d a : GReg} {s : State} (h : s.Canonical) : Continues (acquireLoad n e d a s) :=
  member (settled h fun h => by
    dsimp only
    split
    · exact h
    · split <;> rename_i hr <;> have hread := ofPair (scalarLoad h) hr
      · exact ofStop hread
      · exact setG hread)

theorem atomic {op : AtomicOp} {native acquire release e : Bool} {d a b : GReg} {eight : Bool} {s : State} (h : s.Canonical) :
    Continues (atomic op native acquire release e d a b eight s) := by
  have hdrained (t : State) (sel : Pending → Bool) (ht : t.Canonical) : (if release then t.drainAll else t.drain sel).Canonical := by
    split
    · exact drainAll ht
    · exact drain ht
  have hordered (t : State) (p : Place) (ht : t.Canonical) : (if acquire then t.acquired p else t.current p (unitBytes eight)).Canonical := by
    split
    · exact acquired ht
    · exact current ht
  have hwritten (t : State) (r : Option Nat) (f : Nat → Pending) (ht : t.Canonical) :
      State.Canonical (match r with
        | some new => t.perform (f new)
        | none => t) := by
    split
    · exact perform ht
    · exact ht
  exact member (settled h fun h => by
    dsimp only
    split
    · exact h
    · split <;> rename_i hr <;> have hreach := ofPair (access h) hr
      · exact ofStop hreach
      · split
        · exact eccAccess hreach
        · split
          · exact eccAccess hreach
          · exact setG (hwritten _ _ (fun new => ⟨_, natToBytes new (unitBytes eight), false, false, false, _, _, _, false⟩) (hordered _ _ (hdrained _ _ (eccAccess hreach)))))

theorem yield {e : Bool} {s : State} (h : s.Canonical) : Continues (execYield e s) :=
  member (settled h fun h => by
    dsimp only
    split
    · exact retire h
    · split <;> exact retire h)

theorem rft {e : Bool} {s : State} (h : s.Canonical) : Continues (execRft e s) :=
  member (settled h fun h => privileged h fun h => by
    split
    · exact returnServed h
    · exact h)

theorem mts {e : Bool} {a : GReg} {n : BitVec 11} {s : State} (h : s.Canonical) : Continues (execMts e a n s) :=
  member (settled h fun h => by
    split
    · exact h
    · split
      · exact h
      · exact writeSpecial h)

theorem mfs {e : Bool} {d : GReg} {n : BitVec 11} {s : State} (h : s.Canonical) : Continues (execMfs e d n s) := by
  refine member ?_
  split
  · exact h
  · exact setG h

theorem branch {c : Word → Word → Bool} {e : Bool} {a b : GReg} {o : BitVec 11} {s : State} (h : s.Canonical) : Continues (branch c e a b o s) := by
  refine member ?_
  split
  · exact take h
  · exact h

theorem checked {f : Int → Int → Int} {e : Bool} {d a b : GReg} {s : State} (h : s.Canonical) : Continues (checked f e d a b s) := by
  refine member ?_
  split
  · exact setG h
  · exact h

theorem provisioningImage {accepted : Bool} {version : BitVec 32} {s : State} (h : s.Canonical) : Continues (execProvisioningImage accepted version s) := by
  refine event ?_
  split <;> exact h

theorem trapup {e : Bool} {a : GReg} {b : BitVec 7} {s : State} (h : s.Canonical) : Continues (execTrapup e a b s) :=
  member (settled h fun h => by
    dsimp only [Res.state]
    exact deliver (retire h))

theorem exec {i : Instr} {s : State} (h : s.Canonical) : Continues (exec i s) := by
  cases i
  all_goals dsimp only [Machine.exec]
  case add | sub | and | or | xor | andn | orn | sll | srl | sra | rol | ror | slt | sltn | min | max | minn | maxn | mul | mulh | mulhn | div | divn |
      rem | remn | clz | ctz | popc | bswap | sext8 | sext16 | sext32 | zext8 | zext16 | zext32 | addi | andi | ori | xori | slti | sltni | slli | srli |
      srai | roli | lim | lihi | addpc | vgrant | vxlen | vxfx => exact member (setG h)
  case addv | subv | mulv => exact checked h
  case ld | ldx => exact member (loadTo h)
  case st | stx => exact member (storeFrom h)
  case beq | bne | blt | bge | bltn | bgen => exact branch h
  case jmp => exact member (take h)
  case call => exact member (callAt h link)
  case jr | ret => exact member (jumpReg h take)
  case callr => exact member (callAt h fun h => jumpReg (link h) id)
  case loop | loopi => exact member (openLoop h)
  case mfs => exact mfs h
  case mts => exact mts h
  case winb => exact member h
  case nop => exact member h
  case trap => exact member (settled h id)
  case rft => exact rft h
  case wait => exact member (settled h retire)
  case yield => exact yield h
  case brkpt => exact member (settled h traceBreak)
  case halt => exact member (settled h fun h => privileged h leaveWith)
  case amoswapRlx | amoaddRlx | amoandRlx | amoorRlx | amoxorRlx | amomaxRlx | amominRlx | amocasRlx | amoswapAcq | amoaddAcq | amoandAcq | amoorAcq |
      amoxorAcq | amomaxAcq | amominAcq | amocasAcq | amoswapRel | amoaddRel | amoandRel | amoorRel | amoxorRel | amomaxRel | amominRel | amocasRel |
      amoswapAr | amoaddAr | amoandAr | amoorAr | amoxorAr | amomaxAr | amominAr | amocasAr => exact atomic h
  case ldacq32 | ldacq64 => exact acquireLoad h
  case strel32 | strel64 => exact releaseStore h
  case watch => exact watch h
  case waitw => exact waitw h
  case fenceSv | fenceVs | fenceVv => exact member (settled h drain)
  case fenceMem => exact member (settled h fun h => synced (drainAll h))
  case fenceSc => exact fenceSc h
  case fenceEng => exact fenceEng h
  case vconf => exact vconf h
  case vsetl => exact member h
  case vadd | vsub | vmul | vand | vor | vxor | vmin | vmax | vsll | vsrl | vsra | vmulh | vdiv | vrem | vaddsat | vsubsat | vminn | vmaxn | vmulhn |
      vdivn | vremn | vabs | vmv | vmerge | vbcast | mand | mor | mxor | mandn | mnot | mset => exact member (elementwise h)
  case vaddX | vsubX | vmulX | vandX | vorX | vxorX | vminX | vmaxX => exact member (elementwise (atIssue h))
  case vfadd | vfsub | vfmul | vfdiv | vfmin | vfmax | vfma | vfnms | vfsqrt | vfabs | vfneg | vfrcp | vfclass | vfexp2 | vflog2 |
      vfscale => exact member (floatFamily h elementwise)
  case vfaddX | vfsubX | vfmulX | vfdivX | vfminX | vfmaxX | vfmaX | vfnmsX => exact member (floatFamily (atIssue h) elementwise)
  case vcmpEq | vcmpNe | vcmpLt | vcmpGe | vcmpLtn | vcmpGen => exact member (compareVV h)
  case vcmpFlt | vcmpFle => exact member (floatFamily h compareVV)
  case vcmpEqX | vcmpNeX | vcmpLtX | vcmpGeX | vcmpLtnX | vcmpGenX => exact member (compareVX (atIssue h))
  case vcmpFltX | vcmpFleX => exact member (floatFamily (atIssue h) compareVX)
  case mfirst => exact mfirst h
  case mpop => exact member (through (setG h))
  case cvtF | cvtFi | cvtIf | cvtIi => exact convertOp h
  case vrin | vrout | vradd | vrmul => exact member (illegalRegister h elementwise)
  case vsum | vrmax | vrmin | vrand | vror => exact member (reduction h)
  case vfsumo => exact vfsumo h
  case vfsumt => exact member (floatFamily h toCompletion)
  case vfrmax => exact member (floatFamily h reduction)
  case vslup | vsldn | vcomp | vexpd | viota | vrgath => exact member (toCompletion h)
  case vextr => exact vextr h
  case vld | vst => exact unitStride h
  case vlds | vsts => exact strided h
  case vgth | vscto | vsctu => exact indexedAccess h
  case vxarm | vxclr => exact member (settled h closeRegion)
  case vxit => exact vxit h
  case vxwait => exact member (stripEnd h id)
  case bxany | bxnone => exact exitBranch h
  case vseq => exact vseq h
  case vrot => exact vrot h
  case vrang => exact vrang h
  case vgq => exact vgq h
  case vgqpop => exact vgqpop h
  case seqfork => exact seqfork h
  case seqmap => exact seqmap h
  case tconf => exact tconf h
  case tshape => exact tshape h
  case tzero => exact matrixMember h fun h => claimedTile h forkMatrix
  case tld | tst => exact rowTransfer h
  case mrowin | mrowout | mcolin | mcolout => exact matrixMember h fun h => shapedTile h fun h => moveLimit h forkMatrix
  case tsave | trst => exact imageTransfer h
  case tdirty => exact tdirty h
  case tcvt => exact tcvt h
  case mrwO | mrwF | mrwi => exact rowFromVector h
  case mrsO | mrsF => exact rowFromPad h
  case sxw => exact member (settled h id)
  case sxr | coord => exact member (settled h setG)
  case sxgo | sxgom => exact member (settled h startCopy)
  case sxabt => exact sxabt h
  case sxstat => exact sxstat h
  case barr | barw | bara => exact barrier h
  case tron => exact tron h
  case troff => exact troff h
  case samp => exact samp h
  case grbind => exact grbind h
  case grstep => exact grstep h
  case grmaskM | grmaskV => exact gramMember h grmask
  case grforce => exact grforce h
  case grsave => exact grsave h
  case grload => exact grload h
  case grreset => exact gramMember h fun h => bound h setSession
  case objnew => exact member (settled h fun h => newObject (atIssue h))
  case tagst => exact member (settled h fun h => tagStore h id)
  case tagld => exact tagld h
  case pub => exact pub h
  case pubw => exact pubw h
  case objprb => exact objprb h
  case tagclr => exact tagclr h
  case objfree => exact objfree h
  case ctxnew => exact member (settled h fun h => privileged h newContext)
  case ctxgrant => exact ctxgrant h
  case ctxrevoke => exact member (settled h fun h => privileged h fun h => namedCtx h fun h => revoke (drainAll h))
  case ctxrun => exact ctxrun h
  case ctxinfo => exact ctxinfo h
  case trapup => exact trapup h
  case launch => exact launch h
  case lwait => exact lwait h
  case lprio => exact lprio h
  case colr | colg | cols | colb => exact member (settled h startColl)
  case colw => exact colw h
  case cola => exact cola h
  case trapEntry => exact trapEntry h
  case exitTestResolve => exact exitTestResolve h
  case stripResolve => exact stripResolve h
  case pageRequestAnswer => exact pageRequestAnswer h
  case pageRequestGroupResponse => exact pageRequestGroupResponse h
  case pendingPageEntryFree => exact pendingPageEntryFree h
  case launchAccept => exact launchAccept h
  case crewBind => exact event (schedule (reap h))
  case preemptionComplete => exact preemptionComplete h
  case priorityAging | hintTimeout => exact event (modLaunch (tallyAll h))
  case homeBiasMove => exact homeBiasMove h
  case hartRetire => exact hartRetire h
  case launchCompletion => exact launchCompletion h
  case barrierPhaseComplete => exact event (deliverPhase (settlePhase h))
  case waitwWake => exact waitwWake h
  case waitwTimeout => exact waitwTimeout h
  case waitEnd => exact waitEnd h
  case lwaitTimeout => exact lwaitTimeout h
  case colwTimeout => exact colwTimeout h
  case fenceScTick => exact fenceScTick h
  case copyStrip => exact event (onEngine h copyStrip)
  case copyCompletion => exact event (onEngine h copyDeliver)
  case mirrorAck => exact event (mapHarts h)
  case matrixOpPerform => exact event (onEngine h matrixStep)
  case queuedGatherPerform => exact event (onEngine h performGather)
  case sampleRecordWrite => exact event (onEngine h writeSample)
  case traceFullStop => exact traceFullStop h
  case traceDumpComplete => exact traceDumpComplete h
  case collectiveChunk => exact event (onColl h collChunk)
  case readyFlitReceive => exact readyFlitReceive h
  case collectiveComplete => exact event (onColl h completeColl)
  case abortFlitReceive => exact abortFlitReceive h
  case lossFlitReceive => exact event (loseDevice h)
  case linkDownTimeout => exact linkDownTimeout h
  case linkTrain | flitCrcReplay => exact event (modLink h)
  case laneFailure => exact event (fileIn (modLink h))
  case channelFailure => exact channelFailure h
  case coreFailure | clusterFailure => exact event (failUnits (modPkg h))
  case hostPortTrain => exact hostPortTrain h
  case hostRetrainTimeout => exact event (modPort h)
  case hostAccess => exact hostAccess h
  case atsInvalidate => exact event (finishInvalidations (modPkg h))
  case attestationRequest | alarmRegisterWrite => exact event (modPkg h)
  case functionLevelReset => exact functionLevelReset h
  case powerGrantStep => exact powerGrantStep h
  case securityAlarm => exact securityAlarm h
  case deviceReset => exact deviceReset h
  case recoveryImageWrite => exact recoveryImageWrite h
  case scanFreeze => exact scanFreeze h
  case scanThaw => exact scanThaw h
  case scanRead => exact scanRead h
  case scanWrite => exact scanWrite h
  case deviceRegisterWrite => exact event (deviceWrite h)
  case accessPerformed => exact accessPerformed h
  case provisioningImage => exact provisioningImage h

/-! ### The step -/

theorem runMember {i : Instr} {s : State} (h : s.Canonical) : Continues (runMember i s) := by
  unfold Machine.runMember
  split
  · exact event (standStill (engineStep h))
  · extract_lets p whole u
    have hp : p.Canonical := prepare h
    have hwhole : Continues whole := by
      have hexec := exec (i := i) hp
      dsimp only [whole]
      split <;> rename_i hr <;> rw [hr] at hexec
      · exact event (follow (hexec _ rfl))
      · exact continues_fault
      · exact continues_refused
    have hexec := exec (i := i) (cutFor hp : u.Canonical)
    split
    · exact hwhole
    · split <;> rename_i hr <;> rw [hr] at hexec
      · split
        · exact event (follow (hexec _ rfl))
        · exact hwhole
      · exact continues_fault
      · exact continues_refused

theorem stepReady {s : State} (h : s.Canonical) : Continues (stepReady s) := by
  unfold Machine.stepReady
  split
  · exact event (turnOver (engineStep h))
  · split
    · exact runMember h
    · split
      · exact event (takeBreak h)
      · split <;> rename_i hr
        · exact event (ofPair (formConvoy h) hr)
        · have hformed := ofPair (formConvoy h) hr
          split
          · exact runMember hformed
          · exact event hformed

theorem stepHart {s : State} (h : s.Canonical) : Continues (stepHart s) := by
  have hdropped := dropLost h
  unfold Machine.stepHart
  dsimp only
  split
  · exact event (turnOver (engineStep hdropped))
  · split
    · exact event (startFrame hdropped)
    · exact event (turnOver (finishStop hdropped))
    · exact event (turnOver (finishStop hdropped))
    · exact event (resumeStopped hdropped)
    · exact event (restoreHart hdropped)
    · exact event (raiseRevoked hdropped)
    · exact stepReady hdropped

theorem stepIdle {s : State} (h : s.Canonical) : Continues (stepIdle s) := by
  unfold Machine.stepIdle
  split <;> rename_i hr
  · exact event (dueWork h _ hr)
  · split
    · exact continues_fault
    · exact event h

theorem step {s : State} (h : s.Canonical) : Continues (step s) := by
  unfold Machine.step
  split
  · dsimp only
    split
    · exact event (passTime h)
    · exact exec (passTime h)
  · split <;> rename_i hr
    · exact stepIdle (passTime h)
    · exact stepHart (passTime (pick h _ hr))

end State.Canonical
end Sys2Proof.Machine

open Sys2Proof Sys2Proof.Machine in
/-- Settles O58: nothing is listed at reset. -/
theorem resetMemoryCanonical : Obligations.ResetMemoryCanonical := by
  unfold Obligations.ResetMemoryCanonical
  rfl

open Sys2Proof Sys2Proof.Machine in
/-- Settles O59, by the lemma about `step`, to which every function of the model brings its own. -/
theorem stepKeepsMemoryCanonical : Obligations.StepKeepsMemoryCanonical := by
  unfold Obligations.StepKeepsMemoryCanonical
  exact fun _ t h hstep => State.Canonical.step h t hstep
end
section
/-!
Acquires, releases and watches (R309 to R311, R314, R315, R399). With O22.
-/
namespace Sys2Proof.Machine
open Sys2Proof.Claims

variable {s u : State} {e : Bool} {d a b : GReg} {n x : Nat} {r : Reached} {w : Watch}

theorem sextUnit_four (x : Nat) : sextUnit 4 x = BitVec.ofInt 64 (signed 32 x) := by rw [sextUnit, toSigned_eq_signed]

theorem sextUnit_eight (x : Nat) : sextUnit 8 x = BitVec.ofNat 64 x := (ofInt_toSigned 64 x).trans (BitVec.signExtend_eq _)

theorem acquireLoad_of_acquires (hs : Settled s) (ha : (s.g a).toNat % n = 0) (h : Acquires s (s.g a) n u x) :
    acquireLoad n e d a s = Wrote u e (u.hart.regs.setG d (sextUnit n x)) := by
  rw [acquireLoad, settled_eq hs]
  dsimp only
  rw [if_neg (not_not_intro ha), scalarLoad_of_acquires h]
  rfl

theorem releaseStore_of_lands (hs : Settled s) (ha : (s.g a).toNat % n = 0) (h : Lands s .write (s.g a) n u r) :
    releaseStore n e d a s = .next ((u.drainAll.issueStore (scalarPending u.drainAll r n (u.drainAll.g d))).retire e) := by
  obtain ⟨v, hv, rfl⟩ := h
  rw [releaseStore, settled_eq hs]
  dsimp only
  rw [if_neg (not_not_intro ha), hv]
  rfl

theorem exec_watch (hs : Settled s) (h : s.access (s.g a) 1 .probe = (u, .ok r)) :
    exec (.watch e a) s = .next (((u.current r.place.line 256).modHart fun h => { h with watch := some ⟨r.place.line, false⟩ }).retire e) := by
  change execWatch e a s = _
  rw [execWatch, settled_eq hs, h]
  rfl

/-! ## WAITW (R315, R399) -/

theorem exec_waitw_of_no_watch (hs : Settled s) (h : s.hart.watch = none) : exec (.waitw e b) s = .next (s.retire e) := by
  change execWaitw e b s = _
  rw [execWaitw, settled_eq hs, h]
  rfl

theorem exec_waitw (hs : Settled s) (h : s.hart.watch = some w) :
    exec (.waitw e b) s = member e (let t := s.waitUntil (s.g b).toNat
      if w.fired || t.limitPassed || t.preemptDue then .ok t.endWatch else .hold t) := by
  change execWaitw e b s = _
  rw [execWaitw, settled_eq hs, h]

theorem limitPassed_of_waits {t : Nat} (h : s.hart.waiting = .until t) (ht : s.pkg.cycle / 256 < t) : s.limitPassed = false := by
  rw [State.limitPassed, h]
  exact decide_eq_false (Nat.not_le.2 ht)

theorem preemptDue_waitUntil (s : State) (limit : Nat) : (s.waitUntil limit).preemptDue = s.preemptDue := by
  unfold State.waitUntil
  split <;> rfl

/-- The limit is gone as the watch is. -/
theorem retire_endWatch_waitUntil (s : State) (limit : Nat) :
    (s.waitUntil limit).endWatch.retire e = (s.modHart fun h => { h with watch := none }).retire e := by
  unfold State.waitUntil
  split <;> rfl

theorem exec_waitw_of_ends (hs : Settled s) (h : s.hart.watch = some w)
    (hends : w.fired = true ∨ s.preemptDue = true ∨ ∃ t, s.hart.waiting = .until t ∧ t ≤ s.pkg.cycle / 256) :
    exec (.waitw e b) s = .next ((s.modHart fun h => { h with watch := none }).retire e) := by
  have hcond : (w.fired || (s.waitUntil (s.g b).toNat).limitPassed || (s.waitUntil (s.g b).toNat).preemptDue) = true := by
    rcases hends with hf | hp | ⟨t, hw, ht⟩
    · rw [hf, Bool.true_or, Bool.true_or]
    · rw [preemptDue_waitUntil, hp, Bool.or_true]
    · rw [waitUntil_of_until hw, limitPassed_of_until hw ht, Bool.or_true, Bool.true_or]
  rw [exec_waitw hs h]
  dsimp only
  rw [if_pos hcond]
  exact congrArg _ (retire_endWatch_waitUntil ..)

theorem exec_waitw_of_waits {t : Nat} (hs : Settled s) (h : s.hart.watch = some w) (hf : w.fired = false) (hp : s.preemptDue = false)
    (hw : s.hart.waiting = .until t) (ht : s.pkg.cycle / 256 < t) : exec (.waitw e b) s = .next s := by
  rw [exec_waitw hs h]
  dsimp only
  rw [waitUntil_of_until hw, hf, hp, limitPassed_of_waits hw ht]
  rfl

end Sys2Proof.Machine

open Sys2Proof Sys2Proof.Machine Sys2Proof.Claims in
/-- Settles O22: the loads, stores and watches by what their checks give; WAITW by whether it has a watch and whether that ends. -/
theorem orderedAccessResults : Obligations.OrderedAccessResults := by
  unfold Obligations.OrderedAccessResults
  intro e d a b s u n x r hs
  refine ⟨fun ha h => ⟨?_, ?_⟩, fun ha h => ⟨?_, ?_⟩, exec_watch hs, exec_waitw_of_no_watch hs, fun w => exec_waitw_of_ends hs, fun w t => exec_waitw_of_waits hs⟩
  · rintro rfl
    rw [← sextUnit_four]
    exact acquireLoad_of_acquires hs ha h
  · rintro rfl
    rw [← sextUnit_eight]
    exact acquireLoad_of_acquires hs ha h
  · rintro rfl
    exact releaseStore_of_lands hs ha h
  · rintro rfl
    exact releaseStore_of_lands hs ha h
end
section
/-!
Sequence tables built (R351, R356, R357). With O37.
-/
namespace Sys2Proof.Machine
open Sys2Proof.Claims

variable {s u v w x4 : State} {e m : Bool} {d a b : GReg} {t : SeqTable} {child parent va : Word} {cap p : Nat} {o : Obj} {r r0 : Reached}

/-- The words that SEQFORK writes last (R351): extent and depth, rowbytes, and two words of zeros. -/
def childWords (t : SeqTable) (child : Word) (cap : Nat) : List (Word × Nat) :=
  [(child + 0x18, min t.extent (16 * cap) + (t.depth + 1) * 2 ^ 32), (child + 0x28, t.rowbytes), (child + 0x30, 0), (child + 0x38, 0)]

/-! ## A reference stored (R339) -/

theorem tagStore_of_object (hlive : s.live parent = some o) (hown : o.privateToOther s.hart = false) (hva : va.toNat % 8 = 0)
    (hacc : s.access va 8 .write = (u, .ok r)) (hwalk : u.walkElsewhere = false) (hmay : u.mayHold o r = true) (go : State → Res) :
    tagStore parent va s go = go (u.putReference r parent) := by
  simp only [tagStore, checkedRef, hlive, hown, wordTarget, hva, hacc, afterWalks, hwalk, hmay, Bool.false_eq_true, if_false, if_true, ne_eq,
    not_true_eq_false]

/-! ## SEQFORK (R356) -/

theorem forkWords_of_null (hnull : s.live parent = none) (hstores : s.tableStores ((child + 0x10, parent.toNat) :: childWords t child cap) = (u, none)) :
    forkWords d child parent t cap s = .ok (u.setG d (BitVec.ofNat 64 (t.depth + 1))) := by
  have hsplit : ∃ v, s.tableStores [(child + 0x10, parent.toNat)] = (v, none) ∧ v.tableStores (childWords t child cap) = (u, none) := by
    rw [State.tableStores] at hstores ⊢
    split at hstores
    · cases hstores
    · exact ⟨_, rfl, hstores⟩
  obtain ⟨v, hparent, hrest⟩ := hsplit
  rw [childWords] at hrest
  simp only [forkWords, hnull, Option.isSome_none, Bool.false_eq_true, if_false, hparent, hrest]
  rfl

theorem forkWords_of_object (hchild : child.toNat % 256 = 0) (hsome : s.live parent = some o) (htarget : s.tableTarget (child + 0x10) = (u, .ok r0))
    (hlive : u.live parent = some o) (hown : o.privateToOther u.hart = false) (hacc : u.access (child + 0x10) 8 .write = (v, .ok r))
    (hwalk : v.walkElsewhere = false) (hmay : v.mayHold o r = true)
    (hstores : (v.putReference r parent).tableStores (childWords t child cap) = (w, none)) :
    forkWords d child parent t cap s = .ok (w.setG d (BitVec.ofNat 64 (t.depth + 1))) := by
  have hva : (child + 0x10).toNat % 8 = 0 := by bv_omega
  rw [childWords] at hstores
  simp only [forkWords, hsome, Option.isSome_some, if_true, htarget, tagStore_of_object hlive hown hva hacc hwalk hmay, hstores]
  rfl

/-- SEQFORK with operands that name tables: on as the parent's descriptor asks. -/
theorem exec_seqfork (hs : Settled s) (hissue : s.atIssue (s.g a) (s.g b) = (u, child, parent)) (hchild : child.toNat % 256 = 0)
    (hparent : parent.toNat % 256 = 0) (hdesc : u.descriptor ownScalar parent = (v, .ok t)) :
    exec (.seqfork e d a b m) s = member e (
      if t.depth = 4 then .trap (.own 0x12 parent) v
      else if v.walkElsewhere then .hold v
      else match v.tableLoad ownScalar (child + 0x20) with
        | (s, .error p) => p.res s
        | (s, .ok cap) =>
          if cap / 2 ^ 28 ≠ 0 then .trap (.own 0x03 child) s
          else
            let upto := (s.hart.cut.map fun c => min c cap).getD cap
            match s.clearEntries child (upto - s.hart.elix) s.hart.elix with
            | (s, some (k, p)) => seqStop k p s
            | (s, none) => match s.throughTo cap with
              | .ok s => forkWords d child parent t cap s
              | r => r) := by
  change execSeqfork e d a b m s = _
  rw [execSeqfork, settled_eq hs, hissue]
  dsimp only
  rewrite [if_neg (not_not_intro hchild), if_neg (not_not_intro hparent), hdesc]
  rfl

/-- SEQFORK whose parent may have a child, once the child's entries are cleared. -/
theorem exec_seqfork_of_cleared (hs : Settled s) (hissue : s.atIssue (s.g a) (s.g b) = (u, child, parent)) (hchild : child.toNat % 256 = 0)
    (hparent : parent.toNat % 256 = 0) (hdesc : u.descriptor ownScalar parent = (v, .ok t)) (hdepth : t.depth ≠ 4)
    (hwalk : v.walkElsewhere = false) (hload : v.tableLoad ownScalar (child + 0x20) = (w, .ok cap)) (hcap : cap < 2 ^ 28)
    (hcut : w.hart.cut = none) (hclear : w.clearEntries child (cap - w.hart.elix) w.hart.elix = (x4, none)) (hcut' : x4.hart.cut = none) :
    exec (.seqfork e d a b m) s = member e (forkWords d child parent t cap x4) := by
  rw [exec_seqfork hs hissue hchild hparent hdesc, if_neg hdepth, hwalk, hload]
  dsimp only
  rw [if_neg (not_not_intro (Nat.div_eq_of_lt hcap)), hcut]
  dsimp only [Option.map_none, Option.getD_none]
  rw [hclear]
  dsimp only
  rw [throughTo_of_uncut hcut']
  rfl

/-! ## SEQMAP (R357) -/

theorem entryLegal_iff (n : Nat) : entryLegal n = true ↔ n < 2 ^ 55 ∧ n / 2 % 128 = 0 := by
  rw [entryLegal, Bool.and_eq_true, beq_iff_eq, beq_iff_eq, bitsOf, Nat.div_eq_zero_iff_lt (by decide)]
  rfl

/-- SEQMAP at a table that its descriptor describes. -/
theorem exec_seqmap (hs : Settled s) (htable : (s.g a).toNat % 256 = 0) (hdesc : s.descriptor ownScalar (s.g a) = (u, .ok t)) :
    exec (.seqmap e d a b m) s = member e (
      if (s.g b).toNat ≥ 2 ^ 32 ∨ (s.g b).toNat / 16 ≥ t.cap then .trap (.own 0x13 (Word.ofNat (s.g b).toNat)) u
      else if !entryLegal (s.g d).toNat then .trap (.own 0x03 (s.g d)) u
      else match u.tableTarget (s.g a + Word.ofNat (0x40 + 8 * ((s.g b).toNat / 16))) with
        | (s', .error q) => q.res s'
        | (s', .ok r) =>
          if (s.g d).toNat % 2 = 1 then
            match s'.tableTarget (s.g a + 0x18) with
            | (s', .error q) => q.res s'
            | (s', .ok i) => .ok ((s'.tableStore r (s.g d).toNat).tableStore i (max t.extent ((s.g b).toNat + 1) + t.depth * 2 ^ 32))
          else .ok (s'.tableStore r (s.g d).toNat)) := by
  change execSeqmap e d a b m s = _
  rw [execSeqmap, settled_eq hs]
  dsimp only
  rewrite [if_neg (not_not_intro htable), hdesc]
  rfl

/-- SEQMAP of a legal entry at a position of the table. -/
theorem exec_seqmap_of_target (hs : Settled s) (htable : (s.g a).toNat % 256 = 0) (hdesc : s.descriptor ownScalar (s.g a) = (u, .ok t))
    (h32 : (s.g b).toNat < 2 ^ 32) (hp : (s.g b).toNat / 16 < t.cap) (hentry : entryLegal (s.g d).toNat = true)
    (htarget : u.tableTarget (s.g a + BitVec.ofNat 64 (0x40 + 8 * ((s.g b).toNat / 16))) = (v, .ok r)) :
    exec (.seqmap e d a b m) s = member e (
      if (s.g d).toNat % 2 = 1 then
        match v.tableTarget (s.g a + 0x18) with
        | (s', .error q) => q.res s'
        | (s', .ok i) => .ok ((s'.tableStore r (s.g d).toNat).tableStore i (max t.extent ((s.g b).toNat + 1) + t.depth * 2 ^ 32))
      else .ok (v.tableStore r (s.g d).toNat)) := by
  rw [exec_seqmap hs htable hdesc, if_neg (by omega), hentry, Word.ofNat, htarget]
  rfl

end Sys2Proof.Machine

open Sys2Proof Sys2Proof.Machine Sys2Proof.Claims in
/-- Settles O37: SEQFORK through the child's entries cleared and its words written, SEQMAP through the entry it names. -/
theorem sequenceBuildResults : Obligations.SequenceBuildResults := by
  unfold Obligations.SequenceBuildResults
  intro e m d a b s s1 t hs
  dsimp only
  generalize hissue : s.atIssue (s.g a) (s.g b) = o
  obtain ⟨u, child, parent⟩ := o
  refine ⟨fun hchild hparent hdesc => ⟨fun h4 => ?_, fun s2 cap s3 h4 hwalk hload hcap hcut hclear hcut' => ?_⟩, fun htable hdesc => ⟨fun hout => ?_, ?_⟩⟩
  · rw [exec_seqfork hs hissue hchild hparent hdesc, if_pos h4]
    rfl
  · have hexec := exec_seqfork_of_cleared (e := e) (d := d) (m := m) hs hissue hchild hparent hdesc h4 hwalk hload hcap hcut hclear hcut'
    refine ⟨fun s4 hnull hstores => ?_, fun x r0 s4 r s5 s6 hsome htarget hlive hown hacc hwalk' hmay hstores => ?_⟩
    · rw [Completes, hexec, forkWords_of_null hnull hstores]
      rfl
    · rw [Completes, hexec, forkWords_of_object hchild hsome htarget hlive hown hacc hwalk' hmay hstores]
      rfl
  · rw [exec_seqmap hs htable hdesc, if_pos hout, Word.ofNat, BitVec.ofNat_toNat, BitVec.setWidth_eq]
    rfl
  · intro s2 r h32 hp hentry hbits htarget
    have hexec := exec_seqmap_of_target (e := e) (d := d) (m := m) hs htable hdesc h32 hp ((entryLegal_iff _).2 ⟨hentry, hbits⟩) htarget
    refine ⟨fun h0 => ?_, fun s3 i h1 hi => ?_⟩
    · rw [Completes, hexec, if_neg (by omega)]
      rfl
    · rw [Completes, hexec, if_pos h1, hi]
      rfl
end
section
/-!
Queued gathers (R363 to R366). With O36.
-/
namespace Sys2Proof.Machine
open Sys2Proof.Claims

variable {s v : State} {e m : Bool} {d : VReg} {a b : GReg} {g : GatherDesc} {rest : List GatherDesc} {j : Nat} {xs : List Nat}

/-! ## VGQ (R363, R364) -/

/-- The state with a gather of the hart's registers and operands behind those it has. -/
def State.queuesGather (s : State) (a b : GReg) : State :=
  { s with hold := s.hold.drop 1, hart := { s.hart with
    gathers := s.hart.gathers ++ [⟨s.hart.regs.vt, s.hart.regs.vl, s.hart.rseed, s.g a, s.g b, none, 0⟩] } }

theorem exec_vgq (hs : Settled s) (hroom : s.hart.gathers.length < min 16 s.hart.grd.toNat) :
    exec (.vgq e a b m) s =
      member e (.ok (if s.hold.headD false then s.queuesGather a b else (s.queuesGather a b).performGather s.hart.gathers.length)) := by
  change execVgq e a b m s = _
  rw [execVgq, settled_eq hs]
  dsimp only
  rw [if_neg (Nat.not_le.2 hroom)]
  rfl

theorem exec_vgq_of_full (hs : Settled s) (hfull : ¬ s.hart.gathers.length < min 16 s.hart.grd.toNat) : exec (.vgq e a b m) s = .next s := by
  change execVgq e a b m s = _
  rw [execVgq, settled_eq hs]
  dsimp only
  rw [if_pos (Nat.not_lt.1 hfull)]
  rfl

/-! ## VGQPOP (R365) -/

theorem exec_vgqpop_of_empty (hs : Settled s) (h : s.hart.gathers = []) :
    exec (.vgqpop e d m) s = .next (s.performLate.deliver (.own 0x03 (wordTval (encV e 0x37 d 0 0 m 4) s.hart.member))) := by
  change execVgqpop e d m s = _
  rw [execVgqpop, settled_eq hs, illegalRegister_of_illegal (by rw [h]; rfl)]
  exact member_trap_of_settled hs e _

/-- The results of a gather from element `k` on, each with its element. -/
def GatherDesc.results (g : GatherDesc) (k : Nat) (xs : List Nat) : List (Nat × Nat) :=
  ((List.range g.vl).filter fun i => decide (k ≤ i)).map fun i => (i, xs.getD i 0)

theorem GatherDesc.mem_results {k i x : Nat} :
    (i, x) ∈ g.results k xs ↔ i < g.vl ∧ (if k ≤ i ∧ i < g.vl then some (xs.getD i 0) else none) = some x := by
  simp only [GatherDesc.results, List.mem_map, List.mem_filter, List.mem_range, decide_eq_true_eq, Prod.mk.injEq]
  grind

theorem GatherDesc.results_nodup (g : GatherDesc) (k : Nat) (xs : List Nat) : ((g.results k xs).map (·.1)).Nodup := by
  rw [GatherDesc.results, List.map_map]
  exact (List.map_id _).symm ▸ List.nodup_range.filter _

/-- VGQPOP of a gather none of whose elements failed writes them from ELIX on and takes it from the queue. -/
theorem exec_vgqpop_of_performed (hs : Settled s) (hne : s.hart.gathers ≠ []) (hhead : (s.performGather 0).hart.gathers = g :: rest)
    (hperf : g.performed = some (j, xs)) (hj : g.vl ≤ j) (hfits : g.vl * vtBytes g.vt ≤ (s.performGather 0).hart.rb)
    (hcut : (s.performGather 0).hart.cut = none) :
    exec (.vgqpop e d m) s = .next (((s.performGather 0).modHart fun h =>
      { h.putAll d.toNat (vtBytes g.vt) (g.results h.elix xs) with gathers := rest }).retire e) := by
  have hbelow (todo : List Nat) (h : ∀ i ∈ todo, i < g.vl) : (todo.filter fun i => decide (i < j)) = todo ∧ (todo.filter fun i => decide (j ≤ i)) = [] := by
    refine ⟨List.filter_eq_self.2 fun i hi => decide_eq_true ((h i hi).trans_le hj), List.filter_eq_nil_iff.2 fun i hi => ?_⟩
    simpa using (h i hi).trans_le hj
  obtain ⟨hall, hnone⟩ := hbelow ((List.range g.vl).filter fun i => decide ((s.performGather 0).hart.elix ≤ i)) fun i hi =>
    List.mem_range.1 (List.mem_filter.1 hi).1
  change execVgqpop e d m s = _
  rw [execVgqpop, settled_eq hs, illegalRegister_of_legal (by simpa using hne)]
  dsimp only
  rw [hhead]
  dsimp only
  rw [hperf]
  dsimp only
  rw [illegalRegister_of_legal (decide_eq_true hfits), hcut, Option.map_none, Option.getD_none, hall, hnone]
  have hput (h : Hart) (is : List Nat) : is.foldl (fun h i => h.setElem d.toNat (vtBytes g.vt) i (xs.getD i 0)) h =
      h.putAll d.toNat (vtBytes g.vt) (is.map fun i => (i, xs.getD i 0)) := by rw [Hart.putAll, List.foldl_map]
  simp only [List.isEmpty_nil, if_true, hput]
  rw [throughTo_of_uncut (by rw [State.modHart, putAll_hart]; exact hcut)]
  rfl

end Sys2Proof.Machine

open Sys2Proof Sys2Proof.Machine Sys2Proof.Claims in
/-- Settles O36: VGQ by whether the queue has room, VGQPOP by what the head gathered. -/
theorem gatherQueueResults : Obligations.GatherQueueResults := by
  unfold Obligations.GatherQueueResults
  intro e m d a b s hs
  refine ⟨fun hroom hlate => ?_, fun hroom hlate => ?_, exec_vgq_of_full hs, fun h => ?_, fun g rest j xs hne hhead hperf hj hfits hcut => ?_⟩
  · rw [Completes, exec_vgq hs hroom, hlate]
    rfl
  · rw [Completes, exec_vgq hs hroom, hlate]
    rfl
  · rw [Raises, exec_vgqpop_of_empty hs h, wordTval_eq]
    rfl
  · refine ⟨_, exec_vgqpop_of_performed hs hne hhead hperf hj hfits hcut, written_putAll ?_ rfl (g.results_nodup _ xs) fun i x => g.mem_results, ?_⟩
    · rw [State.modHart, putAll_hart]
    · rw [State.modHart, putAll_hart]
end
section
/-!
Strainer sessions (R287, R288, R292 to R297). With O44.
-/
namespace Sys2Proof.Machine
open Sys2Proof.Claims

variable {s u v w : State} {e : Bool} {d a b : GReg} {x : Session} {g : Grammar} {n row : Nat}

/-! ## What the members share (R291) -/

theorem gramMember_eq (hs : Settled s) (go : State → Res) : gramMember e go s = member e (go s.drainAll) := by rw [gramMember, settled_eq hs]

theorem bound_of_some (h : s.hart.session = some x) (go : Session → State → Res) : bound s go = go x s := by rw [bound, h]

theorem bound_of_none (h : s.hart.session = none) (go : Session → State → Res) : bound s go = .trap unboundTrap s := by rw [bound, h]

/-- A member that needs a session traps where none is bound. -/
theorem gramMember_of_unbound (hs : Settled s) {go : State → Res} (hgo : go s.drainAll = .trap unboundTrap s.drainAll) :
    gramMember e go s = .next (s.drainAll.takeTrap (.own 0x11 0x10000) e) := by
  rw [gramMember_eq hs, hgo]
  rfl

/-! ## GRBIND and GRRESET (R292, R297) -/

theorem exec_grbind (hs : Settled s) (h : s.drainAll.readGrammar (s.drainAll.g a) = (u, .ok g)) :
    exec (.grbind e a) s = .next (((u.noteBind (u.g a).toNat).setSession (some ⟨(u.g a).toNat, g, g.start, []⟩)).retire e) := by
  change execGrbind e a s = _
  rw [execGrbind, gramMember_eq hs, h]
  rfl

theorem exec_grreset (hs : Settled s) (h : s.drainAll.hart.session = some x) :
    exec (.grreset e) s = .next ((s.drainAll.setSession (some { x with state := x.gram.start, stack := [] })).retire e) := by
  change execGrreset e s = _
  rw [execGrreset, gramMember_eq hs, bound_of_some h]
  rfl

/-! ## GRSTEP (R293, R294) -/

theorem exec_grstep (hs : Settled s) (h : s.drainAll.hart.session = some x) :
    exec (.grstep e d a b) s = member e (let v := s.drainAll
      if (v.g a).toNat % 4 ≠ 0 then .trap (.own 0x06 (v.g a)) v
      else
        let n := min (v.g b).toNat 65536
        match v.stepRun (v.g a) (min n (v.hart.cut.getD n) - v.hart.elix) v.hart.elix with
        | (s, i, some (some (.trap t))) => .trap t (s.modHart fun h => { h with elix := i })
        | (s, i, some (some .wait)) => .hold (s.modHart fun h => { h with elix := i })
        | (s, i, some none) => .ok (s.setG d (Word.ofNat (2 * 2 ^ 32 + i)))
        | (s, i, none) =>
          if i < n then .hold (s.modHart fun h => { h with elix := i, cut := none })
          else .ok (s.setG d (Word.ofNat ((if (v.g b).toNat > 65536 then 2 ^ 32 else 0) + i)))) := by
  change execGrstep e d a b s = _
  rewrite [execGrstep, gramMember_eq hs, bound_of_some h]
  rfl

theorem exec_grstep_of_ended (hs : Settled s) (h : s.drainAll.hart.session = some x) (ha : (s.drainAll.g a).toNat % 4 = 0) (hcut : s.drainAll.hart.cut = none)
    (hrun : s.drainAll.stepRun (s.drainAll.g a) (min (s.drainAll.g b).toNat 65536 - s.drainAll.hart.elix) s.drainAll.hart.elix = (u, n, none))
    (hn : min (s.drainAll.g b).toNat 65536 ≤ n) :
    exec (.grstep e d a b) s = Wrote u e (u.hart.regs.setG d (BitVec.ofNat 64 ((if 65536 < (s.drainAll.g b).toNat then 2 ^ 32 else 0) + n))) := by
  rw [exec_grstep hs h]
  dsimp only
  rw [if_neg (not_not_intro ha), hcut, Option.getD_none, Nat.min_self, hrun]
  dsimp only
  rw [if_neg (Nat.not_lt.2 hn)]
  rfl

theorem exec_grstep_of_rejected (hs : Settled s) (h : s.drainAll.hart.session = some x) (ha : (s.drainAll.g a).toNat % 4 = 0)
    (hcut : s.drainAll.hart.cut = none)
    (hrun : s.drainAll.stepRun (s.drainAll.g a) (min (s.drainAll.g b).toNat 65536 - s.drainAll.hart.elix) s.drainAll.hart.elix = (u, n, some none)) :
    exec (.grstep e d a b) s = Wrote u e (u.hart.regs.setG d (BitVec.ofNat 64 (2 * 2 ^ 32 + n))) := by
  rw [exec_grstep hs h]
  dsimp only
  rw [if_neg (not_not_intro ha), hcut, Option.getD_none, Nat.min_self, hrun]
  rfl

/-! ## GRMASK and GRFORCE (R295, R296) -/

theorem grmask_of_row {bits : Nat} {put : Hart → Nat → Nat → Hart} (h : v.hart.session = some x) (ha : (v.g a).toNat % 512 = 0)
    (hrow : v.rowBits x (v.g a).toNat ((v.g a).toNat + v.hart.regs.vl * bits) 513 = (u, .ok row)) :
    grmask bits put a v = .ok (u.modHart fun h => (List.range h.regs.vl).foldl (fun h i => put h i (row / 2 ^ (i * bits) % 2 ^ bits)) h) := by
  rw [grmask, bound_of_some h]
  dsimp only
  rw [if_neg (not_not_intro ha), hrow]

/-- The bits of a mask row, one for each token. -/
def rowMask (n row : Nat) : List (Nat × Bool) := (List.range n).map fun i => (i, row.testBit i)

/-- The bits of a mask row, one element for each `bits` tokens. -/
def rowElems (n bits row : Nat) : List (Nat × Nat) := (List.range n).map fun i => (i, row / 2 ^ (i * bits) % 2 ^ bits)

theorem foldl_setMask (d n row : Nat) (h : Hart) : (List.range n).foldl
    (fun h i => { h with regs := h.regs.setMask d i (row / 2 ^ (i * 1) % 2 ^ 1 == 1) }) h = h.putMask d (rowMask n row) := by
  rw [Hart.putMask, rowMask, List.foldl_map]
  refine congrArg (fun f => List.foldl f h _) (funext fun h => funext fun i => ?_)
  rw [Nat.testBit_eq_decide_div_mod_eq, Nat.mul_one, Nat.pow_one]
  rfl

theorem foldl_setElem_width (d n bits row : Nat) (h : Hart) : (List.range n).foldl
    (fun h i => h.setElem d h.width i (row / 2 ^ (i * bits) % 2 ^ bits)) h = h.putAll d h.width (rowElems n bits row) := by
  rw [Hart.putAll, rowElems, List.foldl_map]
  generalize List.range n = is
  suffices hw : ∀ t : Hart, t.width = h.width → is.foldl (fun h i => h.setElem d h.width i (row / 2 ^ (i * bits) % 2 ^ bits)) t =
      is.foldl (fun t i => t.setElem d h.width i (row / 2 ^ (i * bits) % 2 ^ bits)) t from hw h rfl
  induction is with
  | nil => exact fun _ _ => rfl
  | cons i is ih =>
    intro t ht
    rw [List.foldl_cons, List.foldl_cons, ht]
    exact ih _ ht

theorem map_fst_range {α : Type} (n : Nat) (f : Nat → α) : (((List.range n).map fun i => (i, f i)).map (·.1)).Nodup := by
  rw [List.map_map]
  exact (List.map_id _).symm ▸ List.nodup_range

theorem exec_grmaskM (hs : Settled s) {k : MReg} (h : s.drainAll.hart.session = some x) (ha : (s.drainAll.g a).toNat % 512 = 0)
    (hrow : s.drainAll.rowBits x (s.drainAll.g a).toNat ((s.drainAll.g a).toNat + s.drainAll.hart.regs.vl) 513 = (u, .ok row)) :
    exec (.grmaskM e k a) s = .next ((u.modHart fun h => h.putMask k.toNat (rowMask h.regs.vl row)).retire e) := by
  change execGrmaskM e k a s = _
  rw [← Nat.mul_one s.drainAll.hart.regs.vl] at hrow
  rw [execGrmaskM, gramMember_eq hs, grmask_of_row h ha hrow]
  simp only [foldl_setMask]
  rfl

theorem exec_grmaskV (hs : Settled s) {vd : VReg} (h : s.drainAll.hart.session = some x) (ha : (s.drainAll.g a).toNat % 512 = 0)
    (hrow : s.drainAll.rowBits x (s.drainAll.g a).toNat ((s.drainAll.g a).toNat + s.drainAll.hart.regs.vl * bits s.drainAll) 513 = (u, .ok row)) :
    exec (.grmaskV e vd a) s = .next ((u.modHart fun h => h.putAll vd.toNat h.width (rowElems h.regs.vl (bits s.drainAll) row)).retire e) := by
  change execGrmaskV e vd a s = _
  rw [execGrmaskV, gramMember_eq hs, show 8 * s.drainAll.hart.width = bits s.drainAll from rfl, grmask_of_row h ha hrow]
  simp only [foldl_setElem_width]
  rfl

theorem exec_grforce (hs : Settled s) (h : s.drainAll.hart.session = some x) (hrow : s.drainAll.rowBits x 0 x.gram.vocab 513 = (u, .ok row)) :
    exec (.grforce e d) s = Wrote u e (u.hart.regs.setG d
      (if row = 0 then Word.ones else if row = 2 ^ Nat.log2 row then Word.ofNat (Nat.log2 row) else Word.ones - 1)) := by
  change execGrforce e d s = _
  rw [execGrforce, gramMember_eq hs, bound_of_some h, hrow]
  rfl

/-! ## Images (R297) -/

theorem exec_grsave (hs : Settled s) {r q : Reached} (ha : (s.drainAll.g a).toNat % 64 = 0)
    (hlo : s.drainAll.access (s.drainAll.g a) 64 .write (s.drainAll.rawWant (s.drainAll.g a)) = (u, .ok r))
    (hhi : u.access (s.drainAll.g a + 64) 64 .write (u.rawWant (s.drainAll.g a + 64)) = (w, .ok q)) :
    exec (.grsave e a) s = .next (((List.range 16).foldl (fun s n =>
        let x := if n < 8 then r else q
        s.perform ⟨x.place.add (8 * (n % 8)), ((sessionImage w.hart.session).drop (8 * n)).take 8, false, false, false, s.hart.ctx, x.dirty, x.via, false⟩)
        w).retire e) := by
  change execGrsave e a s = _
  rw [execGrsave, gramMember_eq hs]
  dsimp only
  rw [if_neg (not_not_intro ha), hlo]
  dsimp only
  rw [hhi]
  rfl

theorem exec_grload (hs : Settled s) {lo hi : List Byte} (ha : (s.drainAll.g a).toNat % 64 = 0) (hlo : s.drainAll.imageLoad (s.drainAll.g a) 64 = (u, .ok lo))
    (hhi : u.imageLoad (s.drainAll.g a + 64) 64 = (w, .ok hi)) :
    exec (.grload e a) s = member e (let desc := bytesToNat ((lo ++ hi).take 8)
      if desc = 0 then .ok (w.setSession none)
      else match w.readGrammar (Word.ofNat desc) with
        | (s, .error p) => p.res s
        | (s, .ok g) =>
          match sessionOf desc g (lo ++ hi) with
          | none => .trap (.own 0x11 (Word.ofNat (bitsOf (field (lo ++ hi) 8 8) 15 0))) s
          | some x => .ok (s.setSession (some x))) := by
  change execGrload e a s = _
  rw [execGrload, gramMember_eq hs]
  dsimp only
  rw [if_neg (not_not_intro ha), hlo]
  dsimp only
  rw [hhi]
  rfl

/-! ## Transitions (R288) -/

/-- The step that a legal entry asks for. -/
theorem transition_of_legal {entry : Nat} (h31 : entry / 2 ^ 31 % 2 = 1) (h24 : entry / 2 ^ 24 % 32 = 0) (hnext : entry % 65536 < x.gram.nst)
    (h3 : entry / 2 ^ 29 % 4 ≠ 3) (hpush : entry / 2 ^ 29 % 4 = 1 → 0 < entry / 2 ^ 16 % 256 ∧ entry / 2 ^ 16 % 256 < x.gram.nsym)
    (hpop : entry / 2 ^ 29 % 4 = 2 → x.stack ≠ []) :
    x.transition entry = if entry / 2 ^ 29 % 4 = 1 ∧ x.stack.length ≥ x.gram.depth then .stop (.trap (.own 0x10 (Word.ofNat x.state)))
      else .next { x with
        state := entry % 65536
        stack := if entry / 2 ^ 29 % 4 = 1 then entry / 2 ^ 16 % 256 :: x.stack else if entry / 2 ^ 29 % 4 = 2 then x.stack.tail else x.stack } := by
  have h15 : bitsOf entry 15 0 = entry % 65536 := by rw [bitsOf, Nat.pow_zero, Nat.div_one]; rfl
  have hops : ¬ (bitsOf entry 31 31 = 0 ∨ (bitsOf entry 30 29 = 2 ∧ x.stack = [])) := by
    rintro (h | ⟨h, hs⟩)
    · exact absurd (h31.symm.trans h) (by decide)
    · exact hpop h hs
  have hlegal : ¬ (bitsOf entry 30 29 = 3 ∨ bitsOf entry 28 24 ≠ 0 ∨
      (bitsOf entry 30 29 = 1 ∧ (bitsOf entry 23 16 = 0 ∨ bitsOf entry 23 16 ≥ x.gram.nsym)) ∨ bitsOf entry 15 0 ≥ x.gram.nst) := by
    rintro (h | h | ⟨h, hs⟩ | h)
    · exact h3 h
    · exact h h24
    · obtain ⟨h0, h1⟩ := hpush h
      exact hs.elim (Nat.ne_of_gt h0) (Nat.not_le.2 h1)
    · exact Nat.not_le.2 hnext (h15 ▸ h)
  rw [Session.transition, if_neg hops, if_neg hlegal, h15]
  rfl

theorem transition_of_rejected {entry : Nat} (h : entry / 2 ^ 31 % 2 = 0 ∨ (entry / 2 ^ 29 % 4 = 2 ∧ x.stack = [])) : x.transition entry = .reject := if_pos h

end Sys2Proof.Machine

open Sys2Proof Sys2Proof.Machine Sys2Proof.Claims in
/-- Settles O44: each member by what it reads, and a transition by its entry's fields. -/
theorem strainerResults : Obligations.StrainerResults := by
  unfold Obligations.StrainerResults
  intro e d a b vd k s hs v len
  refine ⟨fun u g h => ⟨_, exec_grbind hs h, rfl, rfl⟩, fun h => ?_, fun x h => ?_, fun u r w q ha => exec_grsave hs ha, fun u lo w hi ha hlo hhi => ?_, fun x entry => ?_⟩
  · refine ⟨?_, ?_, ?_, ?_, ?_⟩
    · exact (gramMember_of_unbound hs (bound_of_none h _) : execGrstep e d a b s = _)
    · exact (gramMember_of_unbound hs (bound_of_none h _) : execGrmaskM e k a s = _)
    · exact (gramMember_of_unbound hs (bound_of_none h _) : execGrmaskV e vd a s = _)
    · exact (gramMember_of_unbound hs (bound_of_none h _) : execGrforce e d s = _)
    · exact (gramMember_of_unbound hs (bound_of_none h _) : execGrreset e s = _)
  · refine ⟨exec_grreset hs h, fun ha => ?_, fun u n => exec_grstep_of_ended hs h, fun u n => exec_grstep_of_rejected hs h, fun u row ha hrow hvl => ?_,
      fun u row ha hrow hvl hvt => ?_, fun u row hrow => ?_⟩
    · rw [Traps, exec_grstep hs h]
      exact congrArg (member e) (if_pos ha)
    · refine ⟨_, exec_grmaskM hs h ha hrow, fun n hn => ?_, ?_⟩
      · exact mask_putMask (x := (n, row.testBit n)) _ (map_fst_range ..) (List.mem_map.2 ⟨n, List.mem_range.2 (by rwa [hvl]), rfl⟩)
      · exact congrArg (fun h => { u with hart := h }) ((putMask_hart ..).trans (congrArg (fun r => { u.hart with regs := r }) (putMask_regs ..)))
    · refine ⟨_, exec_grmaskV hs h ha hrow, fun n hn => ?_, ?_⟩
      · have hw : u.hart.width = vtBytes v.hart.regs.vt := congrArg vtBytes hvt
        have helem := elem_putAll (h := u.hart) vd.toNat u.hart.width (map_fst_range u.hart.regs.vl fun n => row / 2 ^ (n * bits v) % 2 ^ bits v)
          (List.mem_map.2 ⟨n, List.mem_range.2 (hvl ▸ hn), rfl⟩)
        rw [hw] at helem
        refine Eq.trans ?_ (helem.trans (Nat.mod_mod ..))
        rw [← hw]
        rfl
      · exact congrArg (fun h => { u with hart := h }) ((putAll_hart ..).trans (congrArg (fun r => { u.hart with regs := r }) (putAll_regs ..)))
    · rw [exec_grforce hs h hrow]
      refine ⟨fun h0 => ?_, fun n hn => ?_, fun h0 hn => ?_⟩
      · rw [if_pos h0]
        rfl
      · rw [if_neg (by rw [hn]; positivity), hn, Nat.log2_two_pow, if_pos rfl]
        rfl
      · rw [if_neg h0, if_neg (hn _)]
        rfl
  · have hexec := exec_grload (e := e) hs ha hlo hhi
    refine ⟨fun h0 => ?_, fun y g x h0 hread hsession => ?_⟩
    · rw [Completes, hexec]
      exact congrArg (member e) (if_pos h0)
    · rw [Completes, hexec]
      dsimp only
      rw [if_neg h0, Word.ofNat, hread]
      dsimp only
      rw [hsession]
      rfl
  · refine ⟨fun h => transition_of_rejected (.inl h), fun h31 h24 hnext => ⟨fun h0 => ?_, fun h1 hlo hhi hroom => ?_, fun h1 hlo hhi hfull => ?_,
      fun h2 hempty => transition_of_rejected (.inr ⟨h2, hempty⟩), fun y ys h2 hstack => ?_⟩⟩
    · rw [transition_of_legal h31 h24 hnext (by omega) (by omega) (by omega), if_neg (by omega), if_neg (by omega), if_neg (by omega)]
    · rw [transition_of_legal h31 h24 hnext (by omega) (fun _ => ⟨hlo, hhi⟩) (by omega), if_neg (by omega), if_pos h1]
    · rw [transition_of_legal h31 h24 hnext (by omega) (fun _ => ⟨hlo, hhi⟩) (by omega), if_pos ⟨h1, hfull⟩]
      rfl
    · rw [transition_of_legal h31 h24 hnext (by omega) (by omega) (fun _ => by rw [hstack]; exact List.cons_ne_nil y ys), if_neg (by omega), if_neg (by omega),
        if_pos h2, hstack, List.tail_cons]
end

section
/-!
What one store performed at once changes: its bytes, the dirty bits of its translation, and the tags under both (R306, R314, R328). With O8.
-/
namespace Sys2Proof.Machine
open Sys2Proof.Claims

variable {s : State} {q : Pending}

/-! ## Dirty bits -/

theorem read_setDirty_other (owner : Nat) {dirty : List (Nat × Nat)} {x : Nat} (hx : ∀ b ∈ dirty, x ≠ b.1) :
    Memory.read (s.setDirty owner dirty).mem x = Memory.read s.mem x := by
  induction dirty generalizing s with
  | nil => rfl
  | cons b dirty ih =>
    refine (ih (s := s.setMemBit owner b.1 b.2) fun c hc => hx c (List.mem_cons_of_mem _ hc)).trans ?_
    exact (Memory.read_write ..).trans (if_neg (hx b List.mem_cons_self))

/-- A dirty bit set clears the tag of its word, and no other (R328). -/
theorem get_tags_setDirty (owner : Nat) (dirty : List (Nat × Nat)) (w : Nat) :
    Sparse.get clearBit (s.setDirty owner dirty).tags w = (Sparse.get clearBit s.tags w && !dirty.any fun b => b.1 / 8 == w) := by
  induction dirty generalizing s with
  | nil => exact (Bool.and_true _).symm
  | cons b dirty ih =>
    refine (ih (s := s.setMemBit owner b.1 b.2)).trans ?_
    rw [State.setMemBit_tags, Sparse.get_put, List.any_cons]
    by_cases hb : w = b.1 / 8
    · rw [if_pos hb, hb, beq_self_eq_true, Bool.true_or, Bool.false_and, Bool.not_true, Bool.and_false]
    · rw [if_neg hb, beq_false_of_ne (Ne.symm hb), Bool.false_or]

theorem setDirty_objs (owner : Nat) (dirty : List (Nat × Nat)) : (s.setDirty owner dirty).objs = s.objs := by
  induction dirty generalizing s with
  | nil => rfl
  | cons b dirty ih => exact ih (s := s.setMemBit owner b.1 b.2)

theorem setDirty_teams (owner : Nat) (dirty : List (Nat × Nat)) : (s.setDirty owner dirty).teams = s.teams := by
  induction dirty generalizing s with
  | nil => rfl
  | cons b dirty ih => exact ih (s := s.setMemBit owner b.1 b.2)

/-! ## The machine as the store finds it -/

theorem keepOld_tags (w : Nat) (p : Place) (data : List Byte) : (s.keepOld w p data).tags = s.tags := by
  unfold State.keepOld
  split <;> rfl

theorem keepOld_objs (w : Nat) (p : Place) (data : List Byte) : (s.keepOld w p data).objs = s.objs := by
  unfold State.keepOld
  split <;> rfl

theorem keepOld_teams (w : Nat) (p : Place) (data : List Byte) : (s.keepOld w p data).teams = s.teams := by
  unfold State.keepOld
  split <;> rfl

theorem stampStore_tags (w : Nat) (p : Place) : (s.stampStore w p).tags = s.tags := by
  unfold State.stampStore
  split
  · split <;> rfl
  · rfl

/-- A store to no published object stamps nothing (R336). -/
theorem stampStore_of_private (w : Nat) {p : Place} (h : ((s.objOf p).all fun o => o.scope == 0) = true) : s.stampStore w p = s := by
  unfold State.stampStore
  split
  next o t ho _ =>
    rw [ho] at h
    exact if_pos (beq_iff_eq.1 h)
  next => rfl

theorem readyFor_mem (w : Nat) : (s.readyFor w q).mem = (s.setDirty q.owner q.dirty).mem :=
  (stampStore_mem ..).trans (keepOld_mem ..)

theorem readyFor_tags (w : Nat) : (s.readyFor w q).tags = (s.setDirty q.owner q.dirty).tags :=
  (stampStore_tags ..).trans (keepOld_tags ..)

theorem readyFor_teams_of_private (w : Nat) (h : ((s.objOf q.place).all fun o => o.scope == 0) = true) : (s.readyFor w q).teams = s.teams := by
  unfold State.readyFor
  have hobj (u : State) (hu : u.objs = s.objs) : u.objOf q.place = s.objOf q.place := by
    cases hp : q.place with
    | phys a => exact congrArg (List.find? fun o => o.lines.contains (a / 256 * 256)) hu
    | pad _ _ => rfl
  rw [stampStore_of_private, keepOld_teams]
  · exact setDirty_teams ..
  · rwa [hobj]
    rw [keepOld_objs]
    exact setDirty_objs ..

/-! ## The bytes -/

theorem poke_teams_of_phys (a : Nat) (data : List Byte) (tag : Bool) (owner : Nat) (ha : inScan a = false) :
    (s.poke (.phys a) data tag owner).teams = s.teams := by
  by_cases hn : data.length = 0
  · rw [poke_of_nil tag hn]
  · rw [poke_phys tag hn ha]
    rfl

/-- A store sets the tags of the words that it touches to its own, and no other (R328). -/
theorem get_tags_poke {a : Nat} (data : List Byte) (tag : Bool) (owner : Nat) (ha : inScan a = false) (w : Nat) :
    Sparse.get clearBit (s.poke (.phys a) data tag owner).tags w =
      if data.length ≠ 0 ∧ a / 8 ≤ w ∧ 8 * w < a + data.length then tag else Sparse.get clearBit s.tags w := by
  by_cases hn : data.length = 0
  · rw [poke_of_nil tag hn, if_neg fun h => h.1 hn]
  · rw [poke_phys tag hn ha]
    refine (get_setMarks ..).trans (if_congr ?_ rfl rfl)
    omega

/-- A hart with no stores of its own has none to perform. -/
theorem drain_of_no_stores (h : s.hart.stores = []) (sel : Pending → Bool) : s.drain sel = s := by
  have hsame : (s.modHart fun h => { h with stores := [] }) = s := by
    rw [State.modHart, ← h]
  unfold State.drain
  dsimp only [State.modHart]
  rw [h]
  exact hsame

/-- A store is performed alone, where no store in flight was translated through an entry that it writes (R383). -/
theorem perform_of_unused (hown : s.hart.stores = []) (hvia : ∀ h ∈ s.others, ∀ x ∈ h.stores, usesEntry x.via q.place q.data.length = false) :
    s.perform q = s.performOne s.hart.id q := by
  have hdue : (s.harts.flatMap fun x => (x.stores.filter fun y => usesEntry y.via q.place q.data.length).map fun y => (x.id, y)) = [] := by
    refine List.flatMap_eq_nil_iff.2 fun x hx => ?_
    rw [List.map_eq_nil_iff, List.filter_eq_nil_iff]
    intro y hy
    obtain rfl | hx := List.mem_cons.1 hx
    · rw [hown] at hy
      cases hy
    · rw [hvia x hx y hy]
      exact Bool.false_ne_true
  unfold State.perform
  generalize (s.harts.map fun h => h.stores.length).sum = fuel
  cases fuel with
  | zero => rfl
  | succ n =>
    unfold State.performAfter
    rw [hdue]

/-- With no store held back and none in flight that was translated through an entry that it writes, a store is performed at once (R383). -/
theorem issueStore_of_atOnce (h : AtOnce s) (hvia : ∀ h ∈ s.others, ∀ x ∈ h.stores, usesEntry x.via q.place q.data.length = false) :
    s.issueStore q = s.performOne s.hart.id q := by
  obtain ⟨-, hhold, hown⟩ := h
  have hnone : ({ s with hold := s.hold.drop 1 } : State) = s := by
    have hdrop : s.hold.drop 1 = s.hold := by
      rw [hhold]
      rfl
    rw [hdrop]
  unfold State.issueStore
  split
  next h =>
    rw [hhold] at h
    cases h
  next =>
    dsimp only
    rw [hnone, drain_of_no_stores hown, perform_of_unused hown hvia]

end Sys2Proof.Machine

open Sys2Proof Sys2Proof.Machine Sys2Proof.Claims in
/-- Settles O8: the dirty bits of the translation are set, then the bytes are written over them. -/
theorem storeChangesItsBytesOnly : Obligations.StoreChangesItsBytesOnly := by
  unfold Obligations.StoreChangesItsBytesOnly
  intro s q pa honce hplace hscan hlink hvia
  have hperformed : s.issueStore q = (s.readyFor s.hart.id q).poke (.phys pa) q.data q.tag q.owner := by
    rw [issueStore_of_atOnce honce hvia, performOne_of_linked hlink, hplace]
  have hoff : (Place.phys pa).OffScan := fun a ha => by
    cases ha
    exact hscan
  have hmem : (s.issueStore q).mem = Memory.writeList (s.setDirty q.owner q.dirty).mem pa q.data := by
    rw [hperformed, poke_mem, readyFor_mem]
    simp only [hscan, Bool.false_eq_true, if_false]
  have htags (w : Nat) : Sparse.get clearBit (s.issueStore q).tags w =
      if q.data.length ≠ 0 ∧ pa / 8 ≤ w ∧ 8 * w < pa + q.data.length then q.tag
      else (Sparse.get clearBit s.tags w && !q.dirty.any fun b => b.1 / 8 == w) := by
    rw [hperformed, get_tags_poke _ _ _ hscan, readyFor_tags, get_tags_setDirty]
  refine ⟨fun k hk => ?_, fun x hx hdirty => ?_, fun k hk => ?_, fun w hw hdirty => ?_, fun b hb hout => ?_, ?_, ?_, fun hpriv => ?_⟩
  · rw [hmem, Memory.read_writeList, dif_pos (by omega)]
    simp
  · rw [hmem, Memory.read_writeList_other _ _ hx, read_setDirty_other _ hdirty]
  · exact (htags _).trans (if_pos (by omega))
  · rw [htags, if_neg (by omega), List.any_eq_false.2 fun b hb => by simpa using hdirty b hb, Bool.not_false, Bool.and_true]
  · refine (htags _).trans ?_
    have hany : (q.dirty.any fun c => c.1 / 8 == b.1 / 8) = true := List.any_eq_true.2 ⟨b, hb, beq_self_eq_true _⟩
    rw [if_neg (by omega), hany, Bool.not_true, Bool.and_false]
  · rw [issueStore_of_atOnce honce hvia]
    exact (congrArg Hart.regs (keepsHarts_performOne s s.hart.id q).hart :)
  · rw [hperformed]
    exact ((performsStores_readyFor ..).trans (performsStores_poke hoff ..)).pkg
  · rw [hperformed, poke_teams_of_phys _ _ _ _ hscan, readyFor_teams_of_private _ hpriv]
end

section
/-!
Tagged words and object-table entries (R328 to R331, R338 to R340, R345 to R348). With O45.
-/
namespace Sys2Proof.Machine
open Sys2Proof.Claims

variable {s u : State} {e : Bool} {d a b : GReg} {v va : Word} {r : Reached} {x : Obj} {o : Option Obj}

/-! ## References and targets -/

theorem checkedRef_of_reference (h : Reference s v o) (go : Option Obj → State → Res) : checkedRef v s go = go o s := by
  obtain ⟨rfl, rfl⟩ | ⟨x, hlive, hown, rfl⟩ := h
  · rfl
  · simp only [checkedRef, hlive, hown, Bool.false_eq_true, if_false]

theorem checkedRef_of_stale (h0 : v ≠ 0) (h : s.live v = none) (go : Option Obj → State → Res) : checkedRef v s go = .trap (.own 0x03 v) s := by
  simp only [checkedRef, h, if_neg h0]

theorem checkedRef_of_private (h : s.live v = some x) (hown : x.privateToOther s.hart = true) (go : Option Obj → State → Res) :
    checkedRef v s go = .trap (.own 0x0C v) s := by
  simp only [checkedRef, h, hown, if_true]

theorem wordTarget_eq (h : WordTarget s va u r) (go : Reached → State → Res) : wordTarget va s go = go r u := by
  obtain ⟨hva, hacc⟩ := h
  rw [wordTarget, if_neg (not_not_intro hva), hacc]

theorem afterWalks_of_none (h : s.walkElsewhere = false) (go : State → Res) : afterWalks s go = go s := if_neg (Bool.eq_false_iff.1 h)

theorem afterWalks_of_walk (h : s.walkElsewhere = true) (go : State → Res) : afterWalks s go = .hold s := if_pos h

/-! ## TAGST, TAGLD, TAGCLR (R339, R340, R346) -/

theorem exec_tagst (hs : Settled s) : exec (.tagst e d a) s = member e (tagStore (s.g d) (s.g a) s .ok) := by
  change execTagst e d a s = _
  rw [execTagst, settled_eq hs]

/-- TAGST of a reference to a word that the hart may store to. -/
theorem exec_tagst_of_target (hs : Settled s) (hword : WordTarget s (s.g a) u r) : Reference s (s.g d) o →
    exec (.tagst e d a) s = member e (afterWalks u fun w => match o with
      | some x => if w.mayHold x r then .ok (w.putReference r (s.g d)) else .trap (.own 0x0B (s.g a)) w
      | none => .ok (w.putReference r (s.g d))) := by
  intro href
  rewrite [exec_tagst hs, tagStore, checkedRef_of_reference href, wordTarget_eq hword]
  rfl

theorem exec_tagld (hs : Settled s) (ha : (s.g a).toNat % 8 = 0) (hacc : s.access (s.g a) 8 .read = (u, .ok r))
    (hclean : (u.eccAccess r.place 8).viewPoison ownScalar r.place 8 = false) :
    let w := (u.eccAccess r.place 8).acquired r.place
    exec (.tagld e d a) s = Wrote w e (w.hart.regs.setG d (if r.attr.tracked = true ∧ w.viewTag r.place = true then
      BitVec.ofNat 64 (bytesToNat (w.viewList ownScalar r.place 8)) else BitVec.allOnes 64)) := by
  intro w
  have hexec : exec (.tagld e d a) s = member e (if r.attr.tracked && w.viewTag r.place then
      .ok (w.setG d (BitVec.ofNat 64 (bytesToNat (w.viewList ownScalar r.place 8)))) else .ok (w.setG d Word.ones)) := by
    change execTagld e d a s = _
    rw [execTagld, settled_eq hs]
    dsimp only
    rw [if_neg (not_not_intro ha), hacc]
    dsimp only
    rw [hclean]
    rfl
  rw [hexec]
  by_cases h : r.attr.tracked = true ∧ w.viewTag r.place = true
  · rw [if_pos h, if_pos (Bool.and_eq_true_iff.2 h)]
    rfl
  · rw [if_neg h, if_neg (mt Bool.and_eq_true_iff.1 h)]
    rfl

theorem exec_tagclr (hs : Settled s) (hword : WordTarget s (s.g a) u r) :
    exec (.tagclr e a) s = member e (let w := u.drain fun q => q.touches r.place 8
      match r.place with
      | .phys pa => if r.attr.tracked then .ok { w with tags := Sparse.put clearBit w.tags (pa / 8) false } else .ok w
      | .pad _ _ => .ok w) := by
  change execTagclr e a s = _
  rewrite [execTagclr, settled_eq hs, wordTarget_eq hword]
  rfl

/-! ## A reference stored -/

theorem physWord_of_bytes {pa : Nat} (h : ∀ k (hk : k < (wordBytes v).length), s.peek (.phys (pa + k)) = (wordBytes v)[k]) : s.physWord pa = v := by
  have hbytes : s.peekList (.phys pa) 8 = wordBytes v := by
    rw [peekList_eq]
    refine List.ext_getElem rfl fun k _ hk => ?_
    rw [List.getElem_map, List.getElem_range]
    exact h k hk
  rw [State.physWord, hbytes, wordBytes, bytesToNat_natToBytes, Nat.mod_eq_of_lt v.isLt, BitVec.ofNat_toNat, BitVec.setWidth_eq]

/-- A word lies in the window of the device registers or outside it. -/
theorem inScan_add {pa k : Nat} (hpa : pa % 8 = 0) (hk : k < 8) (h : inScan pa = false) : inScan (pa + k) = false := by
  rw [Bool.eq_false_iff, ne_eq, inScan, Bool.and_eq_true, decide_eq_true_eq, decide_eq_true_eq, Config.scanBase, Config.scanSize] at h ⊢
  omega

/-- A reference stored where nothing is under way stands there, tagged where its page is tracked (R328, R339). -/
theorem putReference_of_atOnce {pa : Nat} (hplace : r.place = .phys pa) (hpa : pa % 8 = 0) (hscan : inScan pa = false) (hown : s.hart.stores = [])
    (hlink : s.linkLost r.place = false) (hvia : ∀ h ∈ s.others, ∀ x ∈ h.stores, usesEntry x.via r.place 8 = false) :
    (s.putReference r v).physWord pa = v ∧ (s.putReference r v).tagAt (.phys pa) = r.attr.tracked := by
  have hoff (k : Nat) (hk : k < 8) : (Place.phys (pa + k)).OffScan := fun _ h => by
    cases h
    exact inScan_add hpa hk hscan
  let q : Pending := ⟨r.place, wordBytes v, r.attr.tracked, false, false, s.hart.ctx, r.dirty, r.via, false⟩
  have hput : s.putReference r v = (s.readyFor s.hart.id q).poke (.phys pa) (wordBytes v) r.attr.tracked s.hart.ctx := by
    rw [State.putReference, drain_of_no_stores hown, ← hplace]
    exact (perform_of_unused hown hvia).trans (performOne_of_linked (q := q) hlink _)
  have hlen : (wordBytes v).length = 8 := rfl
  rw [hput]
  refine ⟨physWord_of_bytes fun k hk => ?_, (get_tags_poke _ _ _ hscan _).trans (if_pos ⟨Nat.succ_ne_zero 7, le_rfl, by rw [hlen]; omega⟩)⟩
  exact peek_poke (p := .phys pa) hk (hoff 0 (by decide)) (hoff k hk) (fun _ _ h => by cases h) _ _

/-! ## OBJPRB (R345) -/

theorem exec_objprb_of_pad (hs : Settled s) {off : Nat} (h : s.hart.padOffset (s.g a) = some off) :
    exec (.objprb e d a) s = Wrote s e (s.hart.regs.setG d 0) := by
  change execObjprb e d a s = _
  rw [execObjprb, settled_eq hs]
  dsimp only
  rw [h]
  rfl

theorem exec_objprb_of_translated (hs : Settled s) {y : Xl} (hpad : s.hart.padOffset (s.g a) = none) (hx : s.lookup s.hart.ctx (s.g a).toNat = .ok y)
    (hset : s.setAccessed s.hart.ctx y.leaves = (u, none)) (hattr : u.attrFault y = none) :
    exec (.objprb e d a) s = member e (match u.objAt y.pa with
      | some o =>
        if o.ctx != u.hart.ctx || !o.whole then .ok (u.setG d 0)
        else .ok (u.setG d (Word.ofNat (o.header + (if o.ownedBy u.hart then 2 ^ 59 else 0) + max 1 o.scope * 2 ^ 60 + if o.scope = 0 then 0 else 2 ^ 63)))
      | none => .ok (u.setG d 0)) := by
  change execObjprb e d a s = _
  rw [execObjprb, settled_eq hs]
  dsimp only
  rw [hpad]
  dsimp only
  rw [hx]
  dsimp only
  rw [hset]
  dsimp only
  rewrite [hattr]
  rfl

/-! ## OBJNEW (R338) -/

theorem freeEntry_lt (used : List Nat) (fuel k : Nat) : freeEntry used fuel k < 65536 := by
  induction fuel generalizing k with
  | zero => exact Nat.mod_lt _ (by decide)
  | succ n ih =>
    rw [freeEntry]
    split
    · exact ih _
    · exact Nat.mod_lt _ (by decide)

/-- One of the entries tried is free, where one is. -/
theorem freeEntry_not_mem {used : List Nat} {fuel k : Nat} (h : ∃ i < fuel, (k + i) % 65536 ∉ used) : freeEntry used fuel k ∉ used := by
  induction fuel generalizing k with
  | zero =>
    obtain ⟨i, hi, -⟩ := h
    exact absurd hi (Nat.not_lt_zero i)
  | succ n ih =>
    rw [freeEntry]
    by_cases hk : k % 65536 ∈ used
    · rw [if_pos (List.contains_iff_mem.2 hk)]
      obtain ⟨i, hi, hfree⟩ := h
      obtain _ | i := i
      · exact absurd hk hfree
      · exact ih ⟨i, Nat.lt_of_succ_lt_succ hi, by rwa [Nat.succ_add_eq_add_succ]⟩
    · rwa [if_neg (mt List.contains_iff_mem.1 hk)]

/-- Of one more numbers than a list has members, all different, one is not in it. -/
theorem exists_notMem {used : List Nat} {f : Nat → Nat} (hinj : ∀ i j, i ≤ used.length → j ≤ used.length → f i = f j → i = j) :
    ∃ i < used.length + 1, f i ∉ used := by
  by_contra hall
  push Not at hall
  have hle (i : Nat) (hi : i ∈ (Finset.range (used.length + 1) : Set Nat)) : i ≤ used.length :=
    Nat.le_of_lt_succ (Finset.mem_range.1 (Finset.mem_coe.1 hi))
  have hmaps : Set.MapsTo f (Finset.range (used.length + 1)) used.toFinset := fun i hi =>
    List.mem_toFinset.2 (hall i (Nat.lt_succ_of_le (hle i hi)))
  have hcard := Finset.card_le_card_of_injOn f hmaps fun i hi j hj => hinj i j (hle i hi) (hle j hj)
  rw [Finset.card_range] at hcard
  exact absurd (hcard.trans (List.toFinset_card_le used)) (Nat.not_succ_le_self _)

/-- A table with fewer than 65,536 entries has a free one among as many in a row and one more. -/
theorem exists_free {used : List Nat} (h : used.length < 65536) (k : Nat) : ∃ i < used.length + 1, (k + i) % 65536 ∉ used :=
  exists_notMem fun i j hi hj hij => by omega

/-- The entries that a die's table has in use. -/
def State.entriesOf (s : State) (die : Nat) : List Nat := (s.objs.filter fun o => o.die == die).map (·.index)

/-- The entry that an OBJNEW takes next (R332). -/
def State.nextEntry (s : State) (die : Nat) : Nat := freeEntry (s.entriesOf die) ((s.entriesOf die).length + 1) (Config.freeChoice s.free)

theorem nextEntry_free {die : Nat} (h : (s.entriesOf die).length < 65536) (hx : x ∈ s.objs) (hdie : x.die = die) : x.index ≠ s.nextEntry die := fun heq =>
  have hfree : s.nextEntry die ∉ s.entriesOf die := freeEntry_not_mem (exists_free h _)
  hfree (heq ▸ List.mem_map.2 ⟨x, List.mem_filter.2 ⟨hx, beq_iff_eq.2 hdie⟩, rfl⟩)

/-- OBJNEW with a legal shape record, where no pre-emption has left an object of it. -/
theorem exec_objnew (hs : Settled s) {s1 s2 : State} {w0 w1 : Nat} {x y : Word} (hissue : s.atIssue (s.g a) (s.g b) = (u, x, y))
    (hx : x.toNat % 256 = 0) (hy : y.toNat % 8 = 0) (h0 : u.recordWord y = (s1, .ok w0)) (h1 : s1.recordWord (y + 8) = (s2, .ok w1))
    (hlegal : shapeRecordLegal (w0 % 2 ^ 32) (w0 / 2 ^ 32) (w1 % 2 ^ 48) (w1 / 2 ^ 48) = true) (hpart : s2.partialAt x = none)
    (hleft : s2.objectsLeft s2.hart.ctx ≠ 0) :
    exec (.objnew e d a b) s = member e (
      if (s2.entriesOf (s2.homeOf x)).length ≥ 65536 then .ok (s2.setG d 0)
      else afterWalks s2 fun s => createObject d x none (s2.homeOf x)
        (s.nextEntry (s2.homeOf x)) (w0 % 2 ^ 32) (w0 / 2 ^ 32) (w1 % 2 ^ 48) { s with free := s.free + 1 }) := by
  change execObjnew e d a b s = _
  rw [execObjnew, settled_eq hs, hissue]
  dsimp only
  rw [newObject, if_neg (not_not_intro hx), if_neg (not_not_intro hy), h0]
  dsimp only
  rw [h1]
  dsimp only
  rw [hlegal, hpart]
  dsimp only
  rw [if_neg hleft]
  rfl

/-- The claims of OBJNEW, where nothing stops them. -/
theorem createObject_of_claimed {home index rowbytes rows pitch : Nat} {ls : List Nat} (hcut : s.hart.cut = none)
    (hclaim : s.claimLines home [] (coveredLines va rowbytes rows pitch) = (u, .ok ls)) :
    createObject d va none home index rowbytes rows pitch s =
      .ok ((u.enterObject (u.teamObject va home index rowbytes rows pitch ls true) (u.headerDirty va)).setG d va) := by
  have hall : s.objs.filter (fun o => o.whole || (none : Option Obj) != some o) = s.objs := List.filter_eq_self.2 fun o _ => Bool.or_true _
  rw [createObject, hall, hcut]
  simp only [Option.map_none, Option.getD_none, List.take_length, List.drop_zero, hclaim, Nat.lt_irrefl, if_false]

/-! ## OBJFREE (R347) -/

theorem exec_objfree_of_zero (hs : Settled s) (h : s.g a = 0) : exec (.objfree e a) s = .next (s.takeTrap (.own 0x03 (s.g a)) e) := by
  change execObjfree e a s = _
  rw [execObjfree, settled_eq hs]
  dsimp only
  rw [if_pos h]
  rfl

theorem exec_objfree (hs : Settled s) (h : s.g a ≠ 0) : exec (.objfree e a) s = member e (checkedRef (s.g a) s fun o s =>
      match o with
      | none => .ok s
      | some o => afterWalks s fun s => .ok (({ s.drainAll with
          objs := s.drainAll.objs.filter fun x => !(x.die == o.die && x.index == o.index) } : State).perform
            ⟨.phys (o.lines.headD 0), List.replicate 16 0, false, false, false, o.ctx, [], [], false⟩)) := by
  change execObjfree e a s = _
  rw [execObjfree, settled_eq hs]
  dsimp only
  rewrite [if_neg h]
  rfl

end Sys2Proof.Machine

open Sys2Proof Sys2Proof.Machine Sys2Proof.Claims in
/-- Settles O45: each member by what its checks answer, and OBJNEW's entry by the pigeonhole principle. -/
theorem objectResults : Obligations.ObjectResults := by
  unfold Obligations.ObjectResults
  intro e d a b s hs
  refine ⟨fun o u r href hword hwalk hmay => ?_, fun o u r href hword hwalk => ?_, fun x u r href hword hwalk hmay => ?_, fun h0 hlive => ?_,
    fun x hlive hown => ?_, fun u r v pa hplace hpa hscan _ hown hlink hvia => putReference_of_atOnce hplace hpa hscan hown hlink hvia,
    fun u r => exec_tagld hs, fun u r pa hword hplace => ?_, fun off => exec_objprb_of_pad hs, fun x u hpad hx hset hattr => ?_,
    fun s1 w0 s2 w1 => ?_, fun h => ?_, fun o h0 hlive hown => ?_⟩
  · rw [Completes, exec_tagst_of_target hs hword href, afterWalks_of_none hwalk]
    cases o with
    | none => rfl
    | some x => exact congrArg (member e) (if_pos (hmay x rfl))
  · rw [exec_tagst_of_target hs hword href, afterWalks_of_walk hwalk]
    rfl
  · rw [Traps, exec_tagst_of_target hs hword href, afterWalks_of_none hwalk]
    exact congrArg (member e) (if_neg (Bool.eq_false_iff.1 hmay))
  · rw [Traps, exec_tagst hs, tagStore, checkedRef_of_stale h0 hlive]
    rfl
  · rw [Traps, exec_tagst hs, tagStore, checkedRef_of_private hlive hown]
    rfl
  · have hexec := exec_tagclr (e := e) hs hword
    rw [hplace] at hexec ⊢
    refine ⟨fun hplain => ?_, fun htracked => ?_⟩
    · rw [Completes, hexec]
      exact congrArg (member e) (if_neg (Bool.eq_false_iff.1 hplain))
    · refine ⟨_, hexec.trans (congrArg (member e) (if_pos htracked)), rfl, ?_, fun n hn => ?_⟩
      · exact (Sparse.get_put (u.drain fun q => q.touches (Place.phys pa) 8).tags (pa / 8) (pa / 8) false).trans (if_pos rfl)
      · exact (Sparse.get_put (u.drain fun q => q.touches (Place.phys pa) 8).tags (pa / 8) n false).trans (if_neg hn)
  · have hexec := exec_objprb_of_translated (e := e) (d := d) hs hpad hx hset hattr
    refine ⟨fun hnone => ?_, fun o ho hout => ?_, fun o ho hctx hwhole => ?_⟩
    · rw [hexec, hnone]
      rfl
    · rw [hexec, ho]
      refine congrArg (member e) (if_pos ?_)
      simpa using hout
    · rw [hexec, ho]
      refine (congrArg (member e) (if_neg (by simp [hctx, hwhole]))).trans ?_
      have howned : (if o.ownedBy u.hart then 2 ^ 59 else 0) = if o.crew = u.hart.crew ∧ o.slot = u.hart.slot then 2 ^ 59 else 0 :=
        if_congr (by simp [Obj.ownedBy, hctx]) rfl rfl
      rw [howned]
      rfl
  · generalize hissue : s.atIssue (s.g a) (s.g b) = i
    obtain ⟨u, x, y⟩ := i
    dsimp only
    intro hx hy h0 h1 hlegal hpart hleft
    have hexec := exec_objnew (e := e) (d := d) hs hissue hx hy h0 h1 hlegal hpart hleft
    have htaken : (s2.entriesOf (s2.homeOf x)).length = (s2.objs.filter fun o => o.die == s2.homeOf x).length := List.length_map _
    rw [← htaken]
    refine ⟨fun hfull => ?_, fun hroom hwalk => ?_, fun s3 ls hroom hwalk hcut hclaim => ⟨s2.nextEntry (s2.homeOf x), freeEntry_lt .., ?_, ?_⟩⟩
    · rw [hexec, if_pos hfull]
      rfl
    · rw [hexec, if_neg (Nat.not_le.2 hroom), afterWalks_of_walk hwalk]
      rfl
    · exact fun z hz => nextEntry_free hroom hz
    · rw [Completes, hexec, if_neg (Nat.not_le.2 hroom), afterWalks_of_none hwalk, createObject_of_claimed (s := { s2 with free := s2.free + 1 }) hcut hclaim]
      rfl
  · by_cases h0 : s.g a = 0
    · exact exec_objfree_of_zero hs h0
    · rw [Traps, exec_objfree hs h0, checkedRef_of_stale h0 (h.resolve_left h0)]
      rfl
  · have hexec := exec_objfree (e := e) hs h0
    rw [checkedRef_of_reference (.inr ⟨o, hlive, hown, rfl⟩)] at hexec
    refine ⟨fun hwalk => ?_, fun hwalk => ?_⟩
    · rw [hexec]
      exact congrArg (member e) (afterWalks_of_walk hwalk _)
    · rw [Completes, hexec]
      exact congrArg (member e) (afterWalks_of_none hwalk _)
end

section
/-!
Which objects, launches and queues there are whatever stores are performed (R311, R332, R401), and publication (R333, R341 to R344). With O46.
-/
namespace Sys2Proof.Machine
open Sys2Proof.Claims

variable {s t u : State} {e : Bool} {c : BitVec 3} {d a b : GReg} {v : Word} {r : Reached} {x y : Obj} {o : Option Obj}

/-! ## What stores performed leave -/

/-- An object but for its write timestamp and its leases. -/
def Obj.entered (o : Obj) : Obj := { o with stamp := 0, leases := [] }

/-- Every object is as it was, but for its write timestamp and its leases, and the launches and queues are. -/
structure KeepsEntries (s t : State) : Prop where
  objs : t.objs.map Obj.entered = s.objs.map Obj.entered
  launches : t.launches = s.launches
  queues : t.queues = s.queues

namespace KeepsEntries

theorem refl (s : State) : KeepsEntries s s := ⟨rfl, rfl, rfl⟩

theorem trans (h : KeepsEntries s t) (k : KeepsEntries t u) : KeepsEntries s u :=
  ⟨k.objs.trans h.objs, k.launches.trans h.launches, k.queues.trans h.queues⟩

theorem of_eq (ho : t.objs = s.objs) (hl : t.launches = s.launches) (hq : t.queues = s.queues) : KeepsEntries s t :=
  ⟨congrArg (List.map Obj.entered) ho, hl, hq⟩

theorem foldl {β : Type} {f : State → β → State} (hf : ∀ s x, KeepsEntries s (f s x)) (l : List β) (s : State) : KeepsEntries s (l.foldl f s) := by
  induction l generalizing s with
  | nil => exact refl s
  | cons x l ih => exact (hf s x).trans (ih _)

theorem modObj (o : Obj) {f : Obj → Obj} (hf : ∀ x, (f x).entered = x.entered) : KeepsEntries s (s.modObj o f) := by
  refine ⟨(List.map_map ..).trans (List.map_congr_left fun x _ => ?_), rfl, rfl⟩
  rw [Function.comp]
  split
  · exact hf x
  · rfl

/-- An object that was there still is. -/
theorem exists_mem (h : KeepsEntries s t) (hx : x ∈ s.objs) : ∃ y ∈ t.objs, y.entered = x.entered :=
  List.mem_map.1 (h.objs ▸ List.mem_map_of_mem hx)

/-- No object is there that was not. -/
theorem exists_of_mem (h : KeepsEntries s t) (hx : x ∈ t.objs) : ∃ y ∈ s.objs, y.entered = x.entered :=
  List.mem_map.1 (h.objs.symm ▸ List.mem_map_of_mem hx)

end KeepsEntries

theorem keepsEntries_deviceWrite (s : State) (off : Nat) (v : Word) : KeepsEntries s (s.deviceWrite off v) := by
  unfold State.deviceWrite
  split
  · split <;> exact .of_eq rfl rfl rfl
  · repeat' split
    all_goals exact .of_eq rfl rfl rfl

theorem keepsEntries_poke (s : State) (p : Place) (data : List Byte) (tag : Bool) (owner : Nat) : KeepsEntries s (s.poke p data tag owner) := by
  unfold State.poke
  extract_lets n t
  split
  · exact .refl s
  · refine .trans (t := t) ?_ (.of_eq rfl rfl rfl)
    cases p with
    | pad m o => exact .of_eq rfl rfl rfl
    | phys a =>
      change KeepsEntries s (if inScan a then _ else _)
      split
      · exact keepsEntries_deviceWrite ..
      · exact .of_eq rfl rfl rfl

theorem keepsEntries_setDirty (s : State) (owner : Nat) (dirty : List (Nat × Nat)) : KeepsEntries s (s.setDirty owner dirty) :=
  .foldl (fun s (d : Nat × Nat) => .of_eq (State.setMemBit_objs s owner d.1 d.2) rfl rfl) dirty s

theorem keepsEntries_keepOld (s : State) (w : Nat) (p : Place) (data : List Byte) : KeepsEntries s (s.keepOld w p data) := by
  unfold State.keepOld
  split <;> exact .of_eq rfl rfl rfl

theorem keepsEntries_forgetBy (s : State) (id : Nat) (sel : Old → Bool) : KeepsEntries s (s.forgetBy id sel) := .of_eq rfl rfl rfl

theorem keepsEntries_advance (s : State) (t : Team) (n : Nat) : KeepsEntries s (s.advance t n) := .of_eq rfl rfl rfl

theorem keepsEntries_stampStore (s : State) (w : Nat) (p : Place) : KeepsEntries s (s.stampStore w p) := by
  unfold State.stampStore
  split
  · split
    · exact .refl s
    · refine .trans ?_ (keepsEntries_advance ..)
      exact .modObj _ fun _ => rfl
  · exact .refl s

theorem keepsEntries_performOne (s : State) (w : Nat) (q : Pending) : KeepsEntries s (s.performOne w q) := by
  unfold State.performOne
  split
  · exact .refl s
  · exact (keepsEntries_setDirty ..).trans ((keepsEntries_forgetBy ..).trans
      ((keepsEntries_keepOld ..).trans ((keepsEntries_stampStore ..).trans (keepsEntries_poke ..))))

theorem keepsEntries_performAfter (fuel : Nat) (s : State) (x : Nat × Pending) : KeepsEntries s (State.performAfter fuel s x) := by
  induction fuel generalizing s x with
  | zero => exact keepsEntries_performOne ..
  | succ n ih =>
    unfold State.performAfter
    split
    · exact keepsEntries_performOne ..
    · refine .trans (.trans ?_ (.foldl ih _ _)) (keepsEntries_performOne ..)
      exact .of_eq rfl rfl rfl

theorem keepsEntries_perform (s : State) (q : Pending) : KeepsEntries s (s.perform q) := keepsEntries_performAfter ..

/-! ## Members of tagged memory that complete -/

theorem putReference_gpr (r : Reached) (v : Word) : (u.putReference r v).hart.regs.gpr = u.hart.regs.gpr :=
  (congrArg (fun h => h.regs.gpr) ((keepsHarts_drain u _).trans (keepsHarts_perform _ _)).hart :)

theorem g_setG (s : State) (d : GReg) (v : Word) : (s.setG d v).g d = if d = 0 then 0 else v := Regs.g_setG ..

theorem g_setG_of_ne (h : d ≠ 0) : (s.setG d v).g d = v := (g_setG ..).trans (if_neg h)

theorem coveredLines_one (va : Word) : coveredLines va 256 1 0 = [va] := by
  change [va + BitVec.ofNat 64 0] = [va]
  rw [BitVec.add_zero]

theorem atIssue_of_first (helix : s.hart.elix = 0) (hm : s.hart.m15only = false) (x y : Word) :
    ∃ t : State, s.atIssue x y = (t, x, y) ∧ t.hart.elix = s.hart.elix := by
  have hnone : s.hart.issuedHere = none := by rw [Hart.issuedHere, Hart.resumes, helix, hm]; rfl
  unfold State.atIssue
  dsimp only
  rw [hnone]
  exact ⟨_, rfl, rfl⟩

/-- An object entered is there, with what OBJNEW gives it. -/
theorem exists_entered (s : State) (x : Obj) (dirty : List (Nat × Nat)) : ∃ y ∈ (s.enterObject x dirty).objs, y.entered = x.entered :=
  (keepsEntries_perform ..).exists_mem (List.mem_append_right _ (List.mem_singleton_self x))

/-! ## A walk (R342, R343) -/

theorem le_targetScope (s : State) (want : ScopeOf) (x : Obj) : x.scope ≤ s.targetScope want x := Nat.le_max_left ..

theorem onlyRaises_refl (s : State) : OnlyRaises s s := ⟨rfl, rfl, fun _ _ _ => ⟨le_rfl, rfl⟩⟩

theorem onlyRaises_draw (s : State) : OnlyRaises s { s with free := s.free + 1 } := ⟨rfl, rfl, fun _ _ _ => ⟨le_rfl, rfl⟩⟩

theorem onlyRaises_publishSet (s : State) (n : Nat) (want : ScopeOf) (set : List Obj) :
    OnlyRaises s (({ s with free := n } : State).publishSet want set) := by
  refine ⟨rfl, List.length_map _, fun k h h' => ?_⟩
  have hget : (({ s with free := n } : State).publishSet want set).objs[k] =
      if set.any s.objs[k].same then { s.objs[k] with scope := s.targetScope want s.objs[k] } else s.objs[k] := List.getElem_map _
  rw [hget]
  split
  · exact ⟨le_targetScope .., rfl⟩
  · exact ⟨le_rfl, rfl⟩

theorem walkStep_spec {w : State} {want : ScopeOf} {root : Obj} {n : Nat} {z : WalkStep} (h : w.walkStep want root n = (t, z)) :
    OnlyRaises w t ∧ (z = .done → t = w) ∧ ∀ k, z = .changed k → n + k ≤ 4096 := by
  unfold State.walkStep at h
  split at h
  · obtain ⟨rfl, rfl⟩ := h
    exact ⟨onlyRaises_refl _, fun _ => rfl, fun _ hk => by cases hk⟩
  · dsimp only [State.draw] at h
    split at h
    · obtain ⟨rfl, rfl⟩ := h
      exact ⟨onlyRaises_draw w, fun hz => (by cases hz), fun _ hk => by cases hk⟩
    next hroom =>
      obtain ⟨rfl, rfl⟩ := h
      refine ⟨onlyRaises_publishSet .., fun hz => (by cases hz), fun k hk => ?_⟩
      cases hk
      exact Nat.not_lt.1 hroom

/-- A hart joins the walks of its context once (R342). -/
theorem joinWalks_eq (s : State) (v : Word) (c : Nat) : s.joinWalks v c = (joins s v c, walkOf s v c) := by
  unfold State.joinWalks joins walkOf
  cases h : s.hart.walk <;> rfl

theorem walksNext_iff (k : Walk) : s.walksNext k = true ↔ Turn s k := by
  rw [State.walksNext, Bool.not_eq_true', List.any_eq_false, Turn]
  refine forall₂_congr fun h _ => ?_
  rw [Bool.and_eq_true, not_and, beq_iff_eq]
  refine forall_congr' fun _ => ?_
  cases h.walk with
  | none => simp
  | some x => simp

/-- The hart's walk is over. -/
def State.walkEnded (s : State) : State := s.modHart fun h => { h with walk := none }

/-- A publication whose turn it is: with nothing to reach it is over, else its next set decides. -/
theorem publish_of_turn {n : Nat} {go : Nat → State → Res} (h : Turn (joins s v n) (walkOf s v n)) :
    publish v n o s go = match o with
      | none => go (walkOf s v n).changed (joins s v n).drainAll.walkEnded
      | some o => match (joins s v n).drainAll.walkStep ((joins s v n).drainAll.hartScope n) o (walkOf s v n).changed with
        | (t, .done) => go (walkOf s v n).changed t.walkEnded
        | (t, .limit) => .trap (.own 0x15 v) t.walkEnded
        | (t, .changed k) => .hold (t.modHart fun h => { h with walk := some { walkOf s v n with changed := (walkOf s v n).changed + k, begun := true } }) := by
  rw [publish, joinWalks_eq]
  dsimp only
  rw [(walksNext_iff _).2 h, Bool.not_true, if_neg Bool.false_ne_true]
  rfl

theorem publish_of_wait {n : Nat} {go : Nat → State → Res} (h : ¬ Turn (joins s v n) (walkOf s v n)) : publish v n o s go = .hold (joins s v n) := by
  rw [publish, joinWalks_eq]
  dsimp only
  rw [Bool.eq_false_iff.2 (mt (walksNext_iff _).1 h)]
  rfl

/-- A member that publishes: it waits for its turn, then takes one set in a step, and ends with `done`. -/
theorem publishes {i : Instr} {s0 : State} {n : Nat} {go : Nat → State → Res} {done : State → Nat → Host.Outcome State Fault Refusal}
    (hexec : exec i s0 = member e (publish v n o s go)) (hdone : ∀ k w, member e (go k w) = done w k) :
    let k := walkOf s v n
    let j := joins s v n
    (¬ Turn j k → exec i s0 = .next j) ∧
    (Turn j k → o = none → exec i s0 = done j.drainAll.walkEnded k.changed) ∧
    (∀ x t z, Turn j k → o = some x → j.drainAll.walkStep (j.drainAll.hartScope n) x k.changed = (t, z) →
      (z = .done → exec i s0 = done t.walkEnded k.changed) ∧ (z = .limit → Traps i e s0 t.walkEnded 0x15 v) ∧
      (∀ m, z = .changed m → exec i s0 = .next (t.modHart fun h => { h with walk := some { k with changed := k.changed + m, begun := true } }))) := by
  intro k j
  refine ⟨fun hturn => ?_, fun hturn ho => ?_, fun x t z hturn ho hstep => ?_⟩
  · rw [hexec, publish_of_wait hturn]
    rfl
  · rw [hexec, publish_of_turn hturn, ho]
    exact hdone ..
  · rw [Traps, hexec, publish_of_turn hturn, ho]
    dsimp only
    rw [hstep]
    refine ⟨fun hz => ?_, fun hz => ?_, fun m hz => ?_⟩ <;> subst hz
    · exact hdone ..
    · rfl
    · rfl

/-! ## PUB and PUBW (R341) -/

/-- The scope code at which PUB publishes. -/
def State.pubCode (s : State) (c : Nat) (r : Reached) : Nat :=
  ([1, 2, 3, 4].find? fun k => decide (c ≤ k) && (s.hartScope k).contains (s.locationScope r.place r.attr)).getD 5

/-- The least code at or above `c` whose scope contains the location's is the one at which PUB publishes. -/
theorem pubCode_of_least {n code : Nat} (hc : n ≤ code) (hin : (s.hartScope code).contains (s.locationScope r.place r.attr) = true) (h1 : 1 ≤ code)
    (h5 : code ≤ 5) (hleast : ∀ k, 1 ≤ k → k < code → n ≤ k → (s.hartScope k).contains (s.locationScope r.place r.attr) = false) :
    s.pubCode n r = code := by
  have hbelow (k : Nat) (hk1 : 1 ≤ k) (hk : k < code) : (decide (n ≤ k) && (s.hartScope k).contains (s.locationScope r.place r.attr)) = false := by
    by_cases hn : n ≤ k
    · rw [hleast k hk1 hk hn, Bool.and_false]
    · rw [decide_eq_false hn, Bool.false_and]
  have hat : (decide (n ≤ code) && (s.hartScope code).contains (s.locationScope r.place r.attr)) = true := by rw [decide_eq_true hc, hin]; rfl
  unfold State.pubCode
  generalize hp : (fun k => decide (n ≤ k) && (s.hartScope k).contains (s.locationScope r.place r.attr)) = p
  have hbelow' (k : Nat) (hk1 : 1 ≤ k) (hk : k < code) : p k = false := hp ▸ hbelow k hk1 hk
  have hat' : p code = true := hp ▸ hat
  by_cases hcode : code = 5
  · subst hcode
    have hnone : [1, 2, 3, 4].find? p = none := List.find?_eq_none.2 fun k hk => by
      rw [hbelow' k (by simp at hk; omega) (by simp at hk; omega)]
      exact Bool.false_ne_true
    rw [hnone]
    rfl
  · have hsome : [1, 2, 3, 4].find? p = some code := by
      obtain rfl | rfl | rfl | rfl : code = 1 ∨ code = 2 ∨ code = 3 ∨ code = 4 := by omega
      all_goals simp [hat', hbelow']
    rw [hsome]
    rfl

theorem exec_pub (hs : Settled s) (href : Reference s (s.g b) o) (hword : WordTarget s (s.g a) u r) :
    exec (.pub e c a b) s = member e (publish (s.g b) (u.pubCode c.toNat r) o u fun _ w => .ok (w.putReference r (s.g b))) := by
  change execPub e c a b s = _
  rw [execPub, settled_eq hs]
  dsimp only
  rw [checkedRef_of_reference href, wordTarget_eq hword]
  rfl

theorem exec_pubw (hs : Settled s) (href : Reference s (s.g a) o) :
    exec (.pubw e d a c) s = member e (publish (s.g a) c.toNat o s fun n w => .ok (w.setG d (BitVec.ofNat 64 n))) := by
  change execPubw e d a c s = _
  rw [execPubw, settled_eq hs]
  dsimp only
  rw [checkedRef_of_reference href]
  rfl

end Sys2Proof.Machine

open Sys2Proof Sys2Proof.Machine Sys2Proof.Claims in
/-- Settles O46: the walk's steps raise scopes and no more, and the two members differ in the scope they ask for and in what they do once it is over. -/
theorem publicationResults : Obligations.PublicationResults := by
  unfold Obligations.PublicationResults
  intro e c d a b s hs
  refine ⟨fun u r h0 hword hwalk => ?_, fun u r ha hacc hclean hplain => ?_, fun u r hword => ?_, fun off hpad => ?_,
    fun s1 w0 s2 w1 s3 pa helix hm _ _ hx hy h0 h1 hw0 hw1 hleft hobjs hwalk helix' hcut hclaim => ?_, fun o h0 hlive hown hwalk => ?_,
    fun w want root n t r => walkStep_spec, ?_⟩
  · rw [exec_tagst_of_target hs hword (.inl ⟨h0, rfl⟩), afterWalks_of_none hwalk]
    exact ⟨_, rfl, putReference_gpr ..⟩
  · rw [exec_tagld hs ha hacc hclean]
    refine ⟨_, rfl, fun hd => ?_⟩
    rw [hplain]
    exact (Regs.g_setG ..).trans (if_neg hd)
  · rw [exec_tagclr hs hword]
    dsimp only
    split
    · split
      · exact ⟨_, rfl, (congrArg (fun h => h.regs.gpr) (keepsHarts_drain u _).hart :)⟩
      · exact ⟨_, rfl, (congrArg (fun h => h.regs.gpr) (keepsHarts_drain u _).hart :)⟩
    · exact ⟨_, rfl, (congrArg (fun h => h.regs.gpr) (keepsHarts_drain u _).hart :)⟩
  · rw [exec_objprb_of_pad hs hpad]
    exact ⟨_, rfl, rfl, (Regs.g_setG ..).trans (ite_self 0)⟩
  · obtain ⟨t, hissue, -⟩ := atIssue_of_first helix hm (s.g a) (s.g b)
    rw [hissue] at h0
    subst hw0 hw1
    have hpart : s2.partialAt (s.g a) = none := if_pos helix'
    have hempty (die : Nat) : s2.entriesOf die = [] := by rw [State.entriesOf, hobjs]; rfl
    have hclaim' : ({ s2 with free := s2.free + 1 } : State).claimLines (s2.homeOf (s.g a)) []
        (coveredLines (s.g a) ((256 + 2 ^ 32) % 2 ^ 32) ((256 + 2 ^ 32) / 2 ^ 32) (0 % 2 ^ 48)) = (s3, .ok [pa]) :=
      (congrArg _ (coveredLines_one _)).trans hclaim
    rw [exec_objnew hs hissue hx hy h0 h1 (by decide) hpart hleft, hempty, if_neg (Nat.not_le.2 (by decide)), afterWalks_of_none hwalk,
      createObject_of_claimed (s := { s2 with free := s2.free + 1 }) hcut hclaim']
    refine ⟨_, rfl, g_setG_of_ne, ?_⟩
    obtain ⟨y, hy, heq⟩ := exists_entered s3 (s3.teamObject (s.g a) (s2.homeOf (s.g a)) (s2.nextEntry (s2.homeOf (s.g a))) 256 1 0 [pa] true) (s3.headerDirty (s.g a))
    exact ⟨y, hy, (congrArg Obj.header heq :), (congrArg Obj.lines heq :), (congrArg Obj.scope heq :), (congrArg Obj.whole heq :)⟩
  · rw [exec_objfree hs h0, checkedRef_of_reference (.inr ⟨o, hlive, hown, rfl⟩)]
    dsimp only
    rw [afterWalks_of_none hwalk]
    refine ⟨_, rfl, fun x hx hsame => ?_⟩
    obtain ⟨y, hy, heq⟩ := (keepsEntries_perform ..).exists_of_mem hx
    have hdie : y.die = x.die := (congrArg Obj.die heq :)
    have hindex : y.index = x.index := (congrArg Obj.index heq :)
    have hleft := (List.mem_filter.1 hy).2
    rw [hdie, hindex, hsame.1, hsame.2] at hleft
    simp at hleft
  · dsimp only
    refine ⟨fun o href => ?_, fun o u r code href hword hcode => ?_⟩
    · exact publishes (exec_pubw hs href) fun _ _ => rfl
    · obtain ⟨hc, hin, h1, h5, hleast⟩ := hcode
      exact publishes (pubCode_of_least hc hin h1 h5 hleast ▸ exec_pub hs href hword) fun _ _ => rfl
end

section
/-!
Recursive contexts (R385 to R395). With O47.
-/
namespace Sys2Proof.Machine
open Sys2Proof.Claims

variable {s t u : State} {e : Bool} {d a b : GReg} {v : Word} {c issuer child : Ctx} {n : Nat}

/-! ## Before a member's effect -/

theorem namedCtx_of_names {ok : State → Ctx → Bool} (h : Names s v c) (hok : ok s c = true) (go : Ctx → State → Res) : namedCtx v ok s go = go c s := by
  obtain ⟨hby, hstate⟩ := h
  simp only [namedCtx, hby, hok, Bool.not_true, Bool.false_eq_true, if_false, if_neg hstate]

/-- A member that checks for supervisor mode raises the privileged trap in user mode (R75, R389). -/
theorem privileged_of_exec {i : Instr} {w : Code} {k : State → Res} (hi : encode i = some w)
    (hexec : Settled s → exec i s = member e (privileged s w k)) : Privileged i s := fun hs huser => by
  rw [Raises, hexec hs, privileged_of_user huser, own_eq_privilegedTrap hi, member_trap_of_settled hs]

/-- A member in supervisor mode whose handle names a context. -/
theorem member_of_supervisor {w : Code} {k : State → State → Res} (hsup : Supervisor s) :
    member e (settled s fun s => privileged s w (k s)) = member e (k s s) := by
  obtain ⟨hs, hmode⟩ := hsup
  rw [settled_eq hs, privileged_of_supervisor hmode]

/-! ## CTXNEW (R390, R392) -/

/-- A context number tried is free, where one is. -/
theorem freeNumber_spec {used : List Nat} {fuel k : Nat} (h : ∃ i < fuel, (k + i) % 65535 + 1 ∉ used) :
    1 ≤ freeNumber used fuel k ∧ freeNumber used fuel k ≤ 65535 ∧ freeNumber used fuel k ∉ used := by
  induction fuel generalizing k with
  | zero =>
    obtain ⟨i, hi, -⟩ := h
    exact absurd hi (Nat.not_lt_zero i)
  | succ m ih =>
    rw [freeNumber]
    by_cases hk : k % 65535 + 1 ∈ used
    · rw [if_pos (List.contains_iff_mem.2 hk)]
      obtain ⟨i, hi, hfree⟩ := h
      obtain _ | i := i
      · exact absurd hk hfree
      · exact ih ⟨i, Nat.lt_of_succ_lt_succ hi, by rwa [Nat.succ_add_eq_add_succ]⟩
    · rw [if_neg (mt List.contains_iff_mem.1 hk)]
      exact ⟨Nat.succ_pos _, Nat.mod_lt _ (by decide), hk⟩

/-- The numbers that contexts have. -/
def State.ctxNumbers (s : State) : List Nat := (s.ctxs.filter fun c => c.state != .revoked).map (·.num)

/-- The number that a CTXNEW takes next (R390). -/
def State.nextNumber (s : State) : Nat := freeNumber s.ctxNumbers (s.ctxNumbers.length + 1) (Config.freeChoice s.free)

theorem nextNumber_spec (h : s.ctxNumbers.length < 65535) :
    1 ≤ s.nextNumber ∧ s.nextNumber ≤ 65535 ∧ ∀ c ∈ s.ctxs, c.state ≠ .revoked → c.num ≠ s.nextNumber := by
  obtain ⟨hpos, hle, hfree⟩ := freeNumber_spec (used := s.ctxNumbers) (k := Config.freeChoice s.free) (exists_notMem fun i j hi hj hij => by omega)
  exact ⟨hpos, hle, fun c hc hstate heq => hfree (List.mem_map.2 ⟨c, List.mem_filter.2 ⟨hc, bne_iff_ne.2 hstate⟩, heq⟩)⟩

/-- A child created where the issuer may have one and a number is free. -/
theorem createChild_of_free {w fmt : List Nat} {overlay : List Overlay} (hleft : s.remaining issuer 4 ≠ 0) (hroom : s.ctxNumbers.length < 65535) :
    let child := childOf issuer s.nextNumber w fmt overlay
    let t := ({ s with free := s.free + 1 } : State).forgetCtx s.nextNumber
    createChild d issuer w fmt overlay s = .ok (({ t with ctxs := t.ctxs ++ [child] } : State).setG d (BitVec.ofNat 64 child.handle)) :=
  (if_neg hleft).trans (if_neg (Nat.not_le.2 hroom))

/-- CTXNEW of a legal control block. -/
theorem newContext_of_legal {u1 u2 : State} {ws fmt rs : List Nat} (hissuer : s.issuer = some issuer) (ha : v.toNat % 256 = 0)
    (hws : s.loadWords v 32 = (u, .ok ws)) (hlegal : ccbLegal issuer ws = true)
    (hfmt : ws.getD 0 0 % 2 = 0 ∧ u1 = u ∧ fmt = [] ∨
      ws.getD 0 0 % 2 = 1 ∧ u.loadWords (BitVec.ofNat 64 (ws.getD 2 0)) 4 = (u1, .ok fmt) ∧ formatLegal fmt = true)
    (hrs : u1.loadWords (BitVec.ofNat 64 (ws.getD 14 0)) (2 * (ws.getD 4 0 % 256)) = (u2, .ok rs)) (hzeros : overlayZeros (overlayOf rs) = true)
    (hsorted : overlaySorted (overlayOf rs) = true) : newContext d v s = createChild d issuer ws fmt (overlayOf rs) u2 := by
  have hbit (x k : Nat) : bitsOf x k 0 = x % 2 ^ (k + 1) := by rw [bitsOf, Nat.pow_zero, Nat.div_one, Nat.sub_zero]
  have hhost : (if bitsOf (ws.getD 0 0) 0 0 == 1 then u.loadWords (Word.ofNat (ws.getD 2 0)) 4 else (u, .ok [])) = (u1, .ok fmt) ∧
      (bitsOf (ws.getD 0 0) 0 0 == 1 && !formatLegal fmt) = false := by
    obtain ⟨h0, rfl, rfl⟩ | ⟨h1, hload, hfmt⟩ := hfmt
    · rw [hbit, show ws.getD 0 0 % 2 ^ (0 + 1) = 0 from h0]
      exact ⟨rfl, rfl⟩
    · rw [hbit, show ws.getD 0 0 % 2 ^ (0 + 1) = 1 from h1, hfmt]
      exact ⟨hload, rfl⟩
  obtain ⟨hload, hformat⟩ := hhost
  have hcount : bitsOf (ws.getD 4 0) 7 0 = ws.getD 4 0 % 256 := hbit ..
  unfold newContext
  rw [hissuer]
  dsimp only
  rw [if_neg (not_not_intro ha), hws]
  dsimp only
  rw [hlegal, hload]
  dsimp only
  rw [hformat, hcount, Word.ofNat, hrs]
  dsimp only
  rw [hzeros, hsorted]
  rfl

/-! ## CTXGRANT (R387, R391) -/

/-- The fields of a grant's word. -/
theorem grantFields (x : Nat) : bitsOf x 62 56 = x / 2 ^ 56 % 128 ∧ bitsOf x 55 0 = x % 2 ^ 56 :=
  ⟨rfl, by rw [bitsOf, Nat.pow_zero, Nat.div_one]⟩

theorem exec_ctxgrant (hsup : Supervisor s) (hissuer : s.issuer = some issuer) (hname : Names s (s.g a) child) (hparent : child.parent = some s.hart.ctx) :
    exec (.ctxgrant e a b) s = member e (
      let w := s.g b
      let kind := w.toNat / 2 ^ 56 % 128
      let x := w.toNat % 2 ^ 56
      let ret := w.getLsbD 63
      if kind ≥ 7 || !amountLegal (if ret then { child with queues := 0 } else child) kind x || (ret && kind == 6) then .trap (.own 0x03 w) s
      else if ret then reclaim issuer child kind x s else grant issuer child w kind x s) := by
  obtain ⟨hkind, hx⟩ := grantFields (s.g b).toNat
  change execCtxgrant e a b s = _
  rw [execCtxgrant, member_of_supervisor hsup, namedCtx_of_names hname (beq_iff_eq.2 hparent), hissuer]
  dsimp only
  rw [hkind, hx]

/-- A grant's top bit says that the amount goes back (R391). -/
theorem getLsbD_63 (w : Word) : w.getLsbD 63 = decide (2 ^ 63 ≤ w.toNat) := by
  have := w.isLt
  rw [BitVec.getLsbD, Nat.testBit_eq_decide_div_mod_eq, decide_eq_decide]
  omega

section
variable {kind x : Nat} (hsup : Supervisor s) (hissuer : s.issuer = some issuer) (hname : Names s (s.g a) child) (hparent : child.parent = some s.hart.ctx)
  (hkind : (s.g b).toNat / 2 ^ 56 % 128 = kind) (hx : (s.g b).toNat % 2 ^ 56 = x)
include hsup hissuer hname hparent hkind hx

theorem exec_ctxgrant_of_grant (hw : (s.g b).toNat < 2 ^ 63) (h7 : kind < 7) (hlegal : amountLegal child kind x = true) :
    exec (.ctxgrant e a b) s = member e (grant issuer child (s.g b) kind x s) := by
  have hret : (s.g b).getLsbD 63 = false := by rw [getLsbD_63, decide_eq_false (Nat.not_le.2 hw)]
  have hge : decide (kind ≥ 7) = false := decide_eq_false (Nat.not_le.2 h7)
  rw [exec_ctxgrant hsup hissuer hname hparent]
  dsimp only
  rw [hret, hkind, hx, if_neg Bool.false_ne_true, hlegal, hge]
  rfl

theorem exec_ctxgrant_of_reclaim (hw : 2 ^ 63 ≤ (s.g b).toNat) (h7 : kind < 6) (hlegal : amountLegal { child with queues := 0 } kind x = true) :
    exec (.ctxgrant e a b) s = member e (reclaim issuer child kind x s) := by
  have hret : (s.g b).getLsbD 63 = true := by rw [getLsbD_63, decide_eq_true hw]
  have hge : decide (kind ≥ 7) = false := decide_eq_false (by omega)
  have h6 : (kind == 6) = false := beq_false_of_ne (by omega)
  rw [exec_ctxgrant hsup hissuer hname hparent]
  dsimp only
  rw [hret, hkind, hx, if_pos rfl, hlegal, hge, h6]
  rfl

end

/-- An amount that the issuer has left is granted. -/
theorem grant_of_grantable {kind x : Nat} {w : Word} (h : Grantable s issuer child kind x) :
    kind < 7 ∧ amountLegal child kind x = true ∧ grant issuer child w kind x s = .ok (s.modCtx child.num (more kind x)) := by
  obtain ⟨rfl, hx, hleft⟩ | ⟨rfl, hqueues, hleft⟩ | ⟨rfl, hdepth, hleft⟩ | ⟨rfl, hleft⟩ | ⟨rfl, h7, hleft⟩ := h
  · exact ⟨by decide, beq_iff_eq.2 hx, if_neg (Nat.not_lt.2 hleft)⟩
  · exact ⟨by decide, decide_eq_true hqueues, if_neg (Nat.not_lt.2 hleft)⟩
  · refine ⟨by decide, rfl, if_neg ?_⟩
    rw [Bool.or_eq_true, decide_eq_true_eq, decide_eq_true_eq]
    omega
  · exact ⟨by decide, rfl, if_neg (Nat.not_lt.2 hleft)⟩
  · exact ⟨by decide, decide_eq_true h7, if_neg (Nat.not_lt.2 hleft)⟩

/-- An amount that the child has left is taken back. -/
theorem reclaim_of_left {kind x : Nat} (h : kind = 0 ∧ x % 65536 = 0 ∨ kind = 3 ∧ x ≤ 64 ∨ kind = 4 ∨ kind = 5) (hleft : x ≤ s.remaining child kind) :
    kind < 6 ∧ amountLegal { child with queues := 0 } kind x = true ∧ reclaim issuer child kind x s = .ok (s.modCtx child.num (less kind x)) := by
  obtain ⟨rfl, hx⟩ | ⟨rfl, hx⟩ | rfl | rfl := h
  · exact ⟨by decide, beq_iff_eq.2 hx, if_neg (Nat.not_lt.2 hleft)⟩
  · exact ⟨by decide, decide_eq_true ((Nat.zero_add x).symm ▸ hx), if_neg (Nat.not_lt.2 hleft)⟩
  · exact ⟨by decide, rfl, if_neg (Nat.not_lt.2 hleft)⟩
  · exact ⟨by decide, rfl, if_neg (Nat.not_lt.2 hleft)⟩

/-- The fields of an amount that names a unit or tags of a cluster (R387). -/
theorem amountFields (x : Nat) : bitsOf x 31 16 = x / 2 ^ 16 % 65536 ∧ bitsOf x 7 0 = x % 256 := ⟨rfl, congrArg (· % 256) (Nat.div_one x)⟩

theorem amountLegal_tags {x : Nat} (h32 : x / 2 ^ 32 = 0) (h8 : x / 2 ^ 8 % 256 = 0) : amountLegal child 2 x = true := by
  change (x / 2 ^ 32 % 2 ^ 24 == 0 && x / 2 ^ 8 % 256 == 0) = true
  rw [h32, h8]
  rfl

theorem amountLegal_unit {x : Nat} (h32 : x / 2 ^ 32 = 0) (h1 : x / 2 % 128 = 0) (h8 : x / 2 ^ 8 % 16 ≤ 7) : amountLegal child 1 x = true := by
  change (x / 2 ^ 32 % 2 ^ 24 == 0 && x / 2 ^ 1 % 128 == 0 && decide (x / 2 ^ 8 % 16 ≤ 7)) = true
  rw [h32, Nat.pow_one, h1, decide_eq_true h8]
  rfl

/-- Tags of a cluster that the issuer has free are granted. -/
theorem grant_of_freeTags {x : Nat} {w : Word} {k : Nat × Nat} (hk : issuer.clusters[x / 2 ^ 16 % 65536]? = some k)
    (hfree : (x % 256) &&& (s.tagsHeld issuer (clusterIndex k.1 k.2) - (s.tagsHeld issuer (clusterIndex k.1 k.2) &&& s.tagsInUse (clusterIndex k.1 k.2))) =
      x % 256) :
    grant issuer child w 2 x s = .ok (s.modCtx child.num fun c =>
      { c with grantedTags := Sparse.put zeroNat c.grantedTags (clusterIndex k.1 k.2) (Sparse.get zeroNat c.grantedTags (clusterIndex k.1 k.2) ||| x % 256) }) := by
  obtain ⟨h16, h7⟩ := amountFields x
  unfold grant
  dsimp only
  rw [h16, hk, h7]
  dsimp only
  exact if_neg (by rw [hfree, bne_self_eq_false]; exact Bool.false_ne_true)

/-- A unit of the issuer's map is granted at once where no team of the issuer stands on it. -/
theorem grant_of_vacantUnit {x : Nat} {w : Word} {k : Nat × Nat} {out back : List CoreUnit} (helix : s.hart.elix ≠ 1)
    (hk : issuer.clusters[x / 2 ^ 16 % 65536]? = some k) (hcut : issuer.cut (unitNamed k x) = some (out, back)) :
    let t := ((out.foldl State.vacate s).moveUnit issuer.num child.num (unitNamed k x)).modCtx child.num fun c => { c with granted := c.granted ++ [unitNamed k x] }
    t.stands issuer.num (unitNamed k x) = false → grant issuer child w 1 x s = .ok t := by
  intro t hstands
  obtain ⟨h16, -⟩ := amountFields x
  unfold grant
  dsimp only
  rw [h16, hk]
  dsimp only
  rw [if_neg helix, hcut]
  exact if_neg (Bool.eq_false_iff.1 hstands)

/-! ## CTXREVOKE (R392) -/

/-- Filing an event keeps the objects, launches and queues (R434). -/
theorem keepsEntries_kept (s : State) : KeptByFiling (KeepsEntries s) where
  setMemBit _ _ _ _ h := h.trans (.of_eq rfl rfl rfl)
  perform _ _ h := h.trans (keepsEntries_performAfter ..)
  unfiled _ _ h := h.trans (.of_eq rfl rfl rfl)
  holdCtx _ _ h := h.trans (.of_eq rfl rfl rfl)

theorem frameReach_keepsEntries (s : State) (h : Hart) (off : Nat) (write : Bool) : AttemptsTo (KeepsEntries s) (·.1) (s.frameReach h off write) := by
  unfold State.frameReach
  split
  · split
    · exact .ok (.refl s)
    · exact .map (f := (·.1)) ((keepsEntries_kept s).deviceReach _ _ _ _ (.refl s)) fun _ k => k.trans (keepsEntries_setDirty ..)
  · exact .error (.refl s)

theorem frameWrite_keepsEntries (h : Hart) (fuel off size : Nat) (img : Sparse Byte) (hs : KeepsEntries s t) :
    AttemptsTo (KeepsEntries s) id (t.frameWrite h fuel off size img) := by
  induction fuel generalizing t off size img with
  | zero => exact .ok hs
  | succ n ih =>
    obtain ⟨hok, herror⟩ := frameReach_keepsEntries t h off true
    unfold State.frameWrite
    split
    · exact .ok hs
    · dsimp only
      split
      · exact .error (hs.trans (herror _ ‹_›))
      · exact ih _ _ _ ((hs.trans (hok _ ‹_›)).trans (.of_eq rfl rfl rfl))

theorem keepsEntries_setFrameState (s : State) (h : Hart) (n : Nat) : KeepsEntries s (outcome (s.setFrameState h n)) := by
  obtain ⟨hok, herror⟩ := frameWrite_keepsEntries h framePages 0 8 (wordImage [Word.ofNat n]) (.refl s)
  unfold State.setFrameState
  cases hw : s.frameWrite h framePages 0 8 (wordImage [Word.ofNat n]) with
  | ok t => exact hok t hw
  | error t => exact herror t hw

/-- What revoking contexts leaves of them (R392). -/
structure Revoked (gone : List Nat) (t : State) : Prop where
  ctxs : ∀ k ∈ t.ctxs, k.num ∈ gone → k.state = .revoked ∧ k.units = [] ∧ k.memory = 0 ∧ k.queues = 0 ∧ k.children = 0 ∧ k.objects = 0
  others : ∀ h ∈ t.others, h.ctx ∈ gone → ∃ m, h.run = .withdrawn m
  objs : ∀ o ∈ t.objs, o.ctx ∉ gone
  launches : ∀ l ∈ t.launches, l.ctx ∉ gone
  queues : ∀ q ∈ t.queues, q.ctx ∉ gone

theorem mem_filter_notContains {α : Type} {l : List α} {f : α → Nat} {gone : List Nat} {x : α} (h : x ∈ l.filter fun x => !gone.contains (f x)) :
    f x ∉ gone := fun hx => by
  have hout := (List.mem_filter.1 h).2
  rw [List.contains_iff_mem.2 hx] at hout
  cases hout

theorem dropHarts_others {gone : List Nat} {h : Hart} (hh : h ∈ (s.dropHarts n gone).others) (hg : h.ctx ∈ gone) : ∃ m, h.run = .withdrawn m := by
  obtain hkept | hlost := List.mem_append.1 hh
  · exact absurd hg (mem_filter_notContains (f := Hart.ctx) hkept)
  · obtain ⟨k, -, rfl⟩ := List.mem_map.1 hlost
    exact ⟨n, rfl⟩

theorem keepsEntries_dropHarts (s : State) (n : Nat) (gone : List Nat) : KeepsEntries s (s.dropHarts n gone) := by
  have hframes := KeepsEntries.foldl (f := fun s (h : Hart) => if h.gone then s else outcome (s.setFrameState h 4)) (fun s h => by
    split
    · exact .refl s
    · exact keepsEntries_setFrameState ..) (s.others.filter fun h => gone.contains h.ctx) s
  exact hframes.trans (.of_eq rfl rfl rfl)

theorem giveBack_eq (s : State) (target : Ctx) (n : Nat) : s.giveBack target n = { s with ctxs := (s.giveBack target n).ctxs } := by
  have hfold (l : List Ctx) (f : Ctx → Ctx) (s : State) : (l.foldl (fun s c => s.modCtx c.num f) s) =
      { s with ctxs := (l.foldl (fun s c => s.modCtx c.num f) s).ctxs } := by
    induction l generalizing s with
    | nil => rfl
    | cons c l ih => exact ih (s := s.modCtx c.num f)
  unfold State.giveBack
  dsimp only
  rw [hfold]
  rfl

theorem revoked_revoke (s : State) (n : Nat) (target : Ctx) : Revoked ((s.subtree target.num).map (·.num)) (s.revoke n target) := by
  unfold State.revoke
  dsimp only
  generalize (s.subtree target.num).map (·.num) = gone
  rw [giveBack_eq]
  have hdrop := keepsEntries_dropHarts (s.abortLaunches gone) n gone
  refine ⟨fun k hk hgone => ?_, fun h hh hgone => dropHarts_others hh hgone, fun o ho => mem_filter_notContains (f := Obj.ctx) ho,
    fun l hl => mem_filter_notContains (f := Launch.ctx) (hdrop.launches ▸ hl), fun q hq => mem_filter_notContains (f := Queue.ctx) (hdrop.queues ▸ hq)⟩
  obtain ⟨c, -, rfl⟩ := List.mem_map.1 hk
  by_cases hc : gone.contains c.num = true
  · rw [if_pos hc]
    exact ⟨rfl, rfl, rfl, rfl, rfl, rfl⟩
  · rw [if_neg hc] at hgone
    exact absurd (List.contains_iff_mem.2 hgone) hc

/-! ## CTXRUN (R393) -/

theorem exec_ctxrun (hsup : Supervisor s) (hname : Names s (s.g a) c) (hdesc : s.descends s.hart.ctx c.num = true) :
    exec (.ctxrun e a b) s = member e (
      if s.g b = 0 then .ok (s.modCtx c.num fun c => { c with state := .running })
      else if s.g b = 1 then if (s.holdCtx c.num).subtreeRuns c.num then .hold (s.holdCtx c.num) else .ok (s.holdCtx c.num)
      else if (s.g b).toNat % 256 ≠ 0 then .trap (.own 0x03 (s.g b)) s
      else match s.stoppedAt c.num (s.g b).toNat with
        | none => .trap (if (s.revokedAt c.num (s.g b).toNat).2 then .own 0x17 ((s.revokedAt c.num (s.g b).toNat).1.g a) else .own 0x03 (s.g b))
            (s.revokedAt c.num (s.g b).toNat).1
        | some h => s.runFrame h.id) := by
  change execCtxrun e a b s = _
  rewrite [execCtxrun, member_of_supervisor hsup, namedCtx_of_names hname hdesc]
  rfl

theorem exec_ctxrun_of_frame (hsup : Supervisor s) (hname : Names s (s.g a) c) (hdesc : s.descends s.hart.ctx c.num = true) (h0 : s.g b ≠ 0)
    (hb : (s.g b).toNat % 256 = 0) : exec (.ctxrun e a b) s = member e (match s.stoppedAt c.num (s.g b).toNat with
        | none => .trap (if (s.revokedAt c.num (s.g b).toNat).2 then .own 0x17 ((s.revokedAt c.num (s.g b).toNat).1.g a) else .own 0x03 (s.g b))
            (s.revokedAt c.num (s.g b).toNat).1
        | some h => s.runFrame h.id) := by
  have h1 : s.g b ≠ 1 := fun h => by
    rw [h] at hb
    exact absurd hb (by decide)
  rw [exec_ctxrun hsup hname hdesc, if_neg h0, if_neg h1, if_neg (not_not_intro hb)]

/-- Reading a frame's header leaves the hart's registers. -/
theorem revokedAt_g (s : State) (root va : Nat) (a : GReg) : (s.revokedAt root va).1.g a = s.g a := by
  obtain ⟨hok, herror⟩ := ctxWord_keeping s s.hart.ctx va true
  have hg {t : State} (h : KeepsHarts s t) : t.g a = s.g a := (congrArg (fun h => h.regs.g a) h.hart :)
  unfold State.revokedAt
  split
  · split
    · exact hg (hok _ ‹_›)
    · exact hg (herror _ ‹_›)
  · rfl

section
variable {k : Hart} {id : Nat}

theorem runFrame_of_unserved (h : (s.harts.find? fun k => k.serves == some id && !k.gone) = none) : s.runFrame id = .ok (s.release id) := by
  rw [State.runFrame, h]

variable (hk : (s.harts.find? fun k => k.serves == some id && !k.gone) = some k)
include hk

theorem runFrame_of_fault {f : FrameAccess} {y : Bool} (hrun : k.run = .frameFault f y) : s.runFrame id = .hold s := by
  rw [State.runFrame, hk]
  dsimp only
  rw [hrun]

theorem runFrame_of_served (hrun : ∀ f y, k.run ≠ .frameFault f y) (hframe : s.setFrameState k 0 = .ok t) :
    s.runFrame id = if t.hart.id = k.id then .moved (t.release id) else .ok (t.release id) := by
  rw [State.runFrame, hk]
  dsimp only
  rw [hframe]
  split
  · exact absurd ‹_› (hrun _ _)
  · cases ‹Except.ok _ = Except.error _›
  · cases ‹Except.ok _ = Except.ok _›
    rfl

theorem runFrame_of_failed (hrun : ∀ f y, k.run ≠ .frameFault f y) (hframe : s.setFrameState k 0 = .error t) :
    s.runFrame id = .moved (t.onHart k.id fun s => s.frameFault .save) := by
  rw [State.runFrame, hk]
  dsimp only
  rw [hframe]
  split
  · exact absurd ‹_› (hrun _ _)
  · cases ‹Except.error _ = Except.error _›
    rfl
  · cases ‹Except.error _ = Except.ok _›

end

/-! ## CTXINFO (R394) -/

theorem exec_ctxinfo_of_own {sel : BitVec 7} (hs : Settled s) (ha : s.g a = BitVec.allOnes 64) (hc : s.issuer = some c) :
    exec (.ctxinfo e d a sel) s = Wrote s e (s.hart.regs.setG d (s.ctxInfo c sel.toNat)) := by
  change execCtxinfo e d a sel s = _
  rw [execCtxinfo, settled_eq hs]
  dsimp only
  rw [show s.g a = Word.ones from ha, if_pos rfl, hc]
  rfl

theorem exec_ctxinfo_of_other {sel : BitVec 7} (hs : Settled s) (ha : s.g a ≠ BitVec.allOnes 64) :
    exec (.ctxinfo e d a sel) s = member e (privileged s (ctxWordOf e d a sel 4) fun s =>
      namedCtx (s.g a) (fun s c => s.inSubtree s.hart.ctx c.num) s fun c s => .ok (s.setG d (s.ctxInfo c sel.toNat))) := by
  change execCtxinfo e d a sel s = _
  rw [execCtxinfo, settled_eq hs]
  dsimp only
  refine congrArg (member e) ?_
  exact if_neg ha

/-- What CTXINFO answers of a context, by the selector. -/
theorem ctxInfo_spec (s : State) (c : Ctx) (sel : BitVec 7) :
    (sel = 0 → s.ctxInfo c sel.toNat = BitVec.ofNat 64 (c.depth * 65536 + c.num)) ∧
    (∀ p q, sel = 1 → c.parent = some p → s.ctx? p = some q → s.ctxInfo c sel.toNat = BitVec.ofNat 64 (q.depth * 65536 + q.num)) ∧
    (sel = 1 → c.parent = none → s.ctxInfo c sel.toNat = BitVec.allOnes 64) ∧
    (sel = 2 → s.ctxInfo c sel.toNat = BitVec.ofNat 64 (c.state.code + (s.childrenOf c.num).length % 256 * 4 + c.depth * 65536)) ∧
    (sel = 3 → s.ctxInfo c sel.toNat = if c.num = s.hart.ctx then BitVec.ofNat 64 (s.frameAddr s.hart) else 0) ∧
    (8 ≤ sel.toNat → sel.toNat ≤ 14 → s.ctxInfo c sel.toNat = BitVec.ofNat 64 (s.remaining c (sel.toNat - 8))) ∧
    (16 ≤ sel.toNat → sel.toNat ≤ 22 → s.ctxInfo c sel.toNat = BitVec.ofNat 64 (c.amount (sel.toNat - 16))) := by
  have hlarge (n : Nat) (h : 4 ≤ n) :
      s.ctxInfo c n = if n ≥ 16 then BitVec.ofNat 64 (c.amount (n - 16)) else BitVec.ofNat 64 (s.remaining c (n - 8)) := by
    obtain ⟨m, rfl⟩ := Nat.exists_eq_add_of_le' h
    rfl
  refine ⟨?_, ?_, ?_, ?_, ?_, fun h8 h14 => ?_, fun h16 h22 => ?_⟩
  · rintro rfl
    rfl
  · rintro p q rfl hp hq
    change (match c.parent with | some p => Word.ofNat (s.ctxid p) | none => Word.ones) = _
    rw [hp]
    dsimp only
    rw [State.ctxid, hq]
    rfl
  · rintro rfl hp
    change (match c.parent with | some p => Word.ofNat (s.ctxid p) | none => Word.ones) = _
    rw [hp]
    rfl
  · rintro rfl
    rfl
  · rintro rfl
    rfl
  · rw [hlarge _ (by omega), if_neg (by omega)]
  · rw [hlarge _ (by omega), if_pos h16]

/-- CTXINFO of a context answers what the selector asks for. -/
theorem ctxinfo_answers {sel : BitVec 7} (hexec : exec (.ctxinfo e d a sel) s = Wrote s e (s.hart.regs.setG d (s.ctxInfo c sel.toNat))) :
    let is (v : Word) : Prop := exec (.ctxinfo e d a sel) s = Wrote s e (s.hart.regs.setG d v)
    (sel = 0 → is (BitVec.ofNat 64 (c.depth * 65536 + c.num))) ∧
    (∀ p q, sel = 1 → c.parent = some p → s.ctx? p = some q → is (BitVec.ofNat 64 (q.depth * 65536 + q.num))) ∧
    (sel = 1 → c.parent = none → is (BitVec.allOnes 64)) ∧
    (sel = 2 → is (BitVec.ofNat 64 (c.state.code + (s.childrenOf c.num).length % 256 * 4 + c.depth * 65536))) ∧
    (sel = 3 → is (if c.num = s.hart.ctx then BitVec.ofNat 64 (s.frameAddr s.hart) else 0)) ∧
    (8 ≤ sel.toNat → sel.toNat ≤ 14 → is (BitVec.ofNat 64 (s.remaining c (sel.toNat - 8)))) ∧
    (16 ≤ sel.toNat → sel.toNat ≤ 22 → is (BitVec.ofNat 64 (c.amount (sel.toNat - 16)))) := by
  intro is
  have his {v : Word} (h : s.ctxInfo c sel.toNat = v) : is v := h ▸ hexec
  obtain ⟨h0, h1, h1', h2, h3, h8, h16⟩ := ctxInfo_spec s c sel
  exact ⟨fun h => his (h0 h), fun p q h hp hq => his (h1 p q h hp hq), fun h hp => his (h1' h hp), fun h => his (h2 h), fun h => his (h3 h),
    fun hlo hhi => his (h8 hlo hhi), fun hlo hhi => his (h16 hlo hhi)⟩

end Sys2Proof.Machine

open Sys2Proof Sys2Proof.Machine Sys2Proof.Claims in
/-- Settles O47: each member by what its handle names and its operands ask for. -/
theorem contextResults : Obligations.ContextResults := by
  unfold Obligations.ContextResults
  intro e d a b sel s
  dsimp only
  refine ⟨⟨?_, ?_, ?_, ?_, fun ha => ?_⟩, fun issuer u ws u1 fmt u2 rs hsup hissuer ha hws hlegal hfmt hrs hzeros hsorted hleft hroom => ?_,
    fun issuer child hsup hissuer hname hparent => ?_, fun c hsup hname hdesc => ?_, fun c hs ha hc => ?_, fun c hsup ha hname hin => ?_, fun hs => ?_⟩
  · exact privileged_of_exec (i := .ctxnew e d a) rfl fun hs => congrArg (member e) (settled_eq hs _)
  · exact privileged_of_exec (i := .ctxgrant e a b) rfl fun hs => congrArg (member e) (settled_eq hs _)
  · exact privileged_of_exec (i := .ctxrevoke e a) rfl fun hs => congrArg (member e) (settled_eq hs _)
  · exact privileged_of_exec (i := .ctxrun e a b) rfl fun hs => congrArg (member e) (settled_eq hs _)
  · exact privileged_of_exec (i := .ctxinfo e d a sel) rfl fun hs => exec_ctxinfo_of_other hs ha
  · have hroom' : u2.ctxNumbers.length < 65535 := by rwa [State.ctxNumbers, List.length_map]
    obtain ⟨hpos, hle, hfree⟩ := nextNumber_spec hroom'
    refine ⟨u2.nextNumber, _, hpos, hle, hfree, rfl, rfl, rfl, rfl, rfl, rfl, rfl, rfl, rfl, ?_⟩
    change execCtxnew e d a s = _
    rw [execCtxnew, member_of_supervisor hsup, newContext_of_legal hissuer ha hws hlegal hfmt hrs hzeros hsorted, createChild_of_free hleft hroom']
    rfl
  · refine ⟨fun hw hgrant => ?_, fun hw hkind hx => ?_, fun hw hkind hx => ?_, fun k hkind hw h32 h8 hk hfree => ?_,
      fun k out back helix hkind hw h32 h1 h8 hk hcut hstands => ?_⟩
    · obtain ⟨h7, hlegal, hres⟩ := grant_of_grantable (w := s.g b) hgrant
      rw [Completes, exec_ctxgrant_of_grant hsup hissuer hname hparent rfl rfl hw h7 hlegal, hres]
      rfl
    · rw [Traps, exec_ctxgrant_of_grant hsup hissuer hname hparent hkind rfl hw (by decide) rfl]
      exact congrArg (member e) (if_pos hx)
    · obtain ⟨h6, hlegal, hres⟩ := reclaim_of_left (issuer := issuer) hkind hx
      rw [Completes, exec_ctxgrant_of_reclaim hsup hissuer hname hparent rfl rfl hw h6 hlegal, hres]
      rfl
    · rw [Completes, exec_ctxgrant_of_grant hsup hissuer hname hparent hkind rfl hw (by decide) (amountLegal_tags h32 h8), grant_of_freeTags hk hfree]
      rfl
    · rw [Completes, exec_ctxgrant_of_grant hsup hissuer hname hparent hkind rfl hw (by decide) (amountLegal_unit h32 h1 h8),
        grant_of_vacantUnit helix hk hcut hstands]
      rfl
  · refine ⟨?_, fun h0 => ?_, fun h1 hruns => ?_, fun h1 hruns => ?_, fun h h0 hb hstop => ⟨fun hnone => ?_, fun k hk => ⟨fun f y hrun => ?_,
      fun t hrun hframe hid => ?_, fun t hrun hframe hid => ?_, fun t hrun hframe => ?_⟩⟩, fun u h0 hb hstop => ⟨fun hrev => ?_, fun hrev => ?_⟩⟩
    · have hrevoked := revoked_revoke s.drainAll s.hart.ctx c
      refine ⟨s.drainAll.revoke s.hart.ctx c, ?_, fun n hn => ?_⟩
      · change execCtxrevoke e a s = _
        rw [execCtxrevoke, member_of_supervisor hsup, namedCtx_of_names hname hdesc]
        rfl
      · have hgone := List.mem_map.2 hn
        exact ⟨fun k hk heq => hrevoked.ctxs k hk (heq ▸ hgone), fun h hh heq => hrevoked.others h hh (heq ▸ hgone),
          fun o ho heq => hrevoked.objs o ho (heq ▸ hgone), fun l hl heq => hrevoked.launches l hl (heq ▸ hgone),
          fun q hq heq => hrevoked.queues q hq (heq ▸ hgone)⟩
    · rw [Completes, exec_ctxrun hsup hname hdesc, if_pos h0]
      rfl
    · rw [Completes, exec_ctxrun hsup hname hdesc, if_neg (by rw [h1]; decide), if_pos h1, if_neg (Bool.eq_false_iff.1 hruns)]
      rfl
    · rw [exec_ctxrun hsup hname hdesc, if_neg (by rw [h1]; decide), if_pos h1, if_pos hruns]
      rfl
    · rw [Completes, exec_ctxrun_of_frame hsup hname hdesc h0 hb, hstop]
      exact congrArg (member e) (runFrame_of_unserved hnone)
    · rw [exec_ctxrun_of_frame hsup hname hdesc h0 hb, hstop]
      exact congrArg (member e) (runFrame_of_fault hk hrun)
    · rw [Completes, exec_ctxrun_of_frame hsup hname hdesc h0 hb, hstop]
      exact congrArg (member e) ((runFrame_of_served hk hrun hframe).trans (if_neg hid))
    · rw [exec_ctxrun_of_frame hsup hname hdesc h0 hb, hstop]
      exact congrArg (member e) ((runFrame_of_served hk hrun hframe).trans (if_pos hid))
    · rw [exec_ctxrun_of_frame hsup hname hdesc h0 hb, hstop]
      exact congrArg (member e) (runFrame_of_failed hk hrun hframe)
    · rw [Traps, exec_ctxrun_of_frame hsup hname hdesc h0 hb, hstop, hrev]
      rfl
    · rw [Traps, exec_ctxrun_of_frame hsup hname hdesc h0 hb, hstop, revokedAt_g, hrev]
      rfl
  · exact ctxinfo_answers (exec_ctxinfo_of_own hs ha hc)
  · refine ctxinfo_answers ?_
    obtain ⟨hs, hmode⟩ := hsup
    rw [exec_ctxinfo_of_other hs ha, privileged_of_supervisor hmode, namedCtx_of_names hname hin]
    rfl
  · change execTrapup e a sel s = _
    rw [execTrapup, settled_eq hs]
    rfl
end

section
/-!
An ATS invalidation with a store that waits for a host link (R384, R424). With O54.
-/
namespace Sys2Proof.Machine

/-- A store to the window of host port 0. -/
def hostStore : Pending := ⟨.phys (4 * 2 ^ 48), [0], false, false, false, 1, [], [], false⟩

/-- The reset machine under a host-format stage, its one hart with a store that waits: the link of port 0 has not trained yet. -/
def behindLink : State := { State.reset with
  ctxs := State.reset.ctxs.map fun c => { c with stage := { c.stage with host := true } }
  hart := { State.reset.hart with stores := [hostStore] } }

theorem behindLink_host : ((behindLink.chain behindLink.hart.ctx).any fun c => c.stage.host) = true := by decide +kernel

/-- Stores that wait are no accesses that an invalidation waits to begin for. -/
theorem behindLink_translated : behindLink.translated behindLink.hart = false := by decide +kernel

theorem behindLink_stuck : behindLink.stuck hostStore = true := by decide +kernel

/-- The invalidation performs what it can, and the store stays. -/
theorem behindLink_invalidated : ((behindLink.modPkg fun p => { p with invalidating := p.invalidating ++ [(false, 0, 0)] }).finishInvalidations).hart.stores = [hostStore] := by
  decide +kernel

end Sys2Proof.Machine

open Sys2Proof Sys2Proof.Machine Sys2Proof.Claims in
/-- Refutes O54: where a hart's store waits for a host link that is down (R424), an ATS invalidation cannot perform it, and waits too, though nothing
else of the hart was translated. -/
theorem not_linkEvents : ¬ Obligations.LinkEvents := by
  unfold Obligations.LinkEvents
  intro h
  obtain ⟨-, -, -, -, -, -, -, hinvalidate, -⟩ := h behindLink false 0 0
  obtain ⟨-, hdone⟩ := hinvalidate 0 0 rfl
  obtain ⟨t, hexec, hstores, -⟩ := hdone behindLink_host behindLink_translated
  have ht : ((behindLink.modPkg fun p => { p with invalidating := p.invalidating ++ [(false, 0, 0)] }).finishInvalidations) = t := Host.Outcome.next.inj hexec
  rw [← ht, behindLink_invalidated] at hstores
  cases hstores
end
